-- ==== Sys2Proof/Word.lean ====
section
/-! DEFINITION. The word types of the K12's host interface (R2: sequences of little-endian 32-bit words). -/

namespace Sys2Proof

/-- A 32-bit word of an ECS block, a register, a descriptor or an event record (R2). -/
abbrev Word := BitVec 32

/-- A byte of a frame, a cell or a host buffer. -/
abbrev Byte := BitVec 8

end Sys2Proof
end

