-- ==== Sys2Proof/Syntax.lean ====
section
/-! DEFINITION. The commands and events of the K12: one constructor for each row of spec/opcode_table.json.
An ECS command carries its envelope and its request block as the mailbox holds them (R438); an event carries what
the world outside the model supplies. Every row carries the instant `t` at which it happens: the offset within the current
tide in 2^-16 ns. -/

namespace Sys2Proof

/-- Where a command's request block comes from (R438, R441). -/
inductive Source where
  /-- The data area of the mailbox. -/
  | mailbox
  /-- Host memory at an 8-byte aligned address (an indirect request). -/
  | indirect (addr : Nat)
  /-- An indirect request whose DMA read failed at this address (R433, R441). -/
  | indirectFailed (addr : Nat)
  deriving DecidableEq, Repr

/-- The envelope of a command (Table 16-2), with the instant at which it runs. -/
structure Call where
  /-- Instant within the current tide, 2^-16 ns after its boundary (the model's own clock input). -/
  t : Nat
  /-- Mailbox, 0 to 31. -/
  mb : Nat
  /-- Tag, 16 bits. -/
  tag : Nat
  /-- Transaction handle, or 0 for a direct command. -/
  txn : Nat
  /-- Where the request block comes from. -/
  src : Source
  deriving DecidableEq, Repr

/-- A host BAR (Table 15-1). -/
inductive Bar where
  | pf0Regs | pf0Msix | pf1Regs | pf1Msix | pf2Priv | pf2User
  deriving DecidableEq, Repr

/-- A checkpoint item (R395): kind, object index and its value's fields in order (notes/assumptions: the spec gives the
header, not the payload layouts). -/
abbrev CkItem := Nat × Nat × List Nat

/-- What a control record says (Table 14-2). -/
inductive TwinControl where
  /-- A health query to the twin's pilot (R412). -/
  | query
  /-- A health answer, with the sender's state, mode, firmware version, twin compatibility and profile. -/
  | health (st mode version compat profile : Nat)
  /-- The release record of a planned switchover (R409). -/
  | release (n : Nat)
  /-- The sender is suspect for a tide, or not: the correction of R404. -/
  | evidence (tide : Nat) (suspect : Bool)
  /-- The standby's comparison of a tide: the mismatched ports (R402). -/
  | compared (tide : Nat) (ports : List Nat)
  /-- Result of a referee run (R405). -/
  | referee (tide : Nat) (pass : Bool)
  /-- A last-breath record (R530). -/
  | lastBreath (bytes : List Byte)
  deriving DecidableEq, Repr

/-- What a configuration record says (R392). -/
inductive TwinConfig where
  /-- A transaction was opened in a slot with a handle. -/
  | opened (txn : Nat)
  /-- An operation was staged: transaction, opcode, request block, handle it reserved. -/
  | staged (txn op : Nat) (q : List Word) (h : Nat)
  /-- A transaction was rolled back. -/
  | rolledBack (txn : Nat)
  /-- A commit request with its tide. -/
  | commit (txn tide : Nat)
  /-- The standby's verdict on a commit: status and response block. -/
  | verdict (txn status : Nat) (resp : List Word)
  /-- A direct command's change, carried to the standby. -/
  | direct (op : Nat) (q : List Word) (h : Nat)
  deriving DecidableEq, Repr

/-- A hawser record's payload (Table 14-2). -/
inductive TwinRec where
  | idle
  /-- Type 0x1: metadata words and frame bytes. -/
  | frame (md : List Word) (bytes : List Byte)
  /-- Type 0x2: metadata words and the first 128 bytes. -/
  | sample (md : List Word) (bytes : List Byte)
  /-- Type 0x3: the words of Table 14-6. -/
  | manifest (w : List Word)
  /-- Type 0x4: the words of Table 14-7. -/
  | summary (w : List Word)
  /-- Type 0x5: the items of a class A checkpoint or a class B rotation of a tide. -/
  | checkpoint (tide : Nat) (classB : Bool) (items : List CkItem)
  | config (c : TwinConfig)
  /-- Type 0x7: a request of the standby, or the active's answer with its two values (R394) and the state of its time base, which
  the standby adopts (R349). -/
  | time (answer : Option (Nat × Nat × Nat))
  | control (c : TwinControl)
  /-- Type 0x9: an item of the bulk copy, as the operation that makes it, and the handle it has. -/
  | bulk (op : Nat) (q : List Word) (h : Nat)
  deriving DecidableEq, Repr

/-- What the line, the mappers and the banks have counted in the tide that a boundary ends, and what the regulators answer at
it: the model has no bits or clocks of its own to count. -/
structure Measured where
  /-- Objects of R99 by handle: BIP violations, errored blocks, BEI total, far-end errored blocks, positive and negative
  pointer justifications, and blocks received. -/
  pm : List (Nat × List Nat) := []
  /-- Ethernet ports, packet clients from 256 on, and fabric lanes from 512 on: PCS errors (index 18 of Table 2-5), codewords
  corrected and uncorrected, and symbols corrected. -/
  fec : List (Nat × List Nat) := []
  /-- Objects whose accepted S1, payload type or signal label is new, with it (R91, R93). -/
  labels : List (Nat × Nat) := []
  /-- E1 frames that complete in the clock of the boundary: circuit, VC-12 and the frame (R120, R123). -/
  e1 : List (Nat × Nat × List Byte) := []
  /-- Rails whose regulator does not acknowledge a write (R558). -/
  nak : List Nat := []
  /-- Counter banks: bank, field (0 CYCLES, 1 SLOTS, 2 + i programmable counter i) and increase (R539 to R543). -/
  bank : List (Nat × Nat × Nat) := []
  deriving DecidableEq, Repr

/-- What is received on a transport object as a defect's persistence elapses (R85, R98). -/
structure DefectNote where
  /-- The received S1, payload type or signal label as now accepted. -/
  label : Nat := 0
  /-- For LOF of mode 0x22, where each lane finds its framing. -/
  lanes : List (Option Nat) := []
  deriving DecidableEq, Repr

/-- A trace received identically in consecutive periods (R96). -/
structure TraceRun where
  /-- The consecutive periods. -/
  periods : Nat := 0
  /-- The trace's bytes. -/
  bytes : List Byte := []
  deriving DecidableEq, Repr

/-- What an image header says (Table 17-3). -/
structure ImageHeader where
  /-- Version. -/
  version : Nat
  /-- Security version. -/
  sec : Nat
  /-- Swap class: reboot. -/
  reboot : Bool
  /-- Twin compatibility. -/
  compat : Nat
  /-- Staging format. -/
  staging : Nat
  /-- Key slot. -/
  key : Nat
  deriving DecidableEq, Repr

/-- Record type of a payload (Table 14-2). -/
def TwinRec.ty : TwinRec → Nat
  | .idle => 0
  | .frame _ _ => 1
  | .sample _ _ => 2
  | .manifest _ => 3
  | .summary _ => 4
  | .checkpoint _ _ _ => 5
  | .config _ => 6
  | .time _ => 7
  | .control _ => 8
  | .bulk _ _ _ => 9

/-- One command or event of the K12 (spec/opcode_table.json). -/
inductive Instr where
  /-- DEVICE_INFO (R460). Command returning the identity registers, admission algorithm version and ECS version. -/
  | deviceInfo (c : Call) (q : List Word)
  /-- DEVICE_MAILBOX_SET (R448). Command from mailbox 0 setting another mailbox's area mask and reading-only flag. -/
  | deviceMailboxSet (c : Call) (q : List Word)
  /-- DEVICE_MAILBOX_GET (R448). Command returning a mailbox's area mask and reading-only flag. -/
  | deviceMailboxGet (c : Call) (q : List Word)
  /-- DEVICE_ECHO (R441). Command returning its request words unchanged. -/
  | deviceEcho (c : Call) (q : List Word)
  /-- TXN_BEGIN (R453). Command opening a transaction in the lowest free slot and returning its handle. -/
  | txnBegin (c : Call) (q : List Word)
  /-- TXN_COMMIT (R455). Command naming a commit tide and starting preparation of a transaction. -/
  | txnCommit (c : Call) (q : List Word)
  /-- COMMIT_PREPARATION_DONE (R457). Preparation finishes; the transaction becomes prepared, or it fails and its pre-applied changes are removed, and TXN.COMMIT completes. -/
  | commitPreparationDone (t slot : Nat)
  /-- COMMIT_TIME_PASSED (R456). Preparation is not complete at boundary C minus 2, so TXN.COMMIT completes with TIME_PASSED. -/
  | commitTimePassed (t slot : Nat)
  /-- TXN_ROLLBACK (R459). Command discarding an open transaction. -/
  | txnRollback (c : Call) (q : List Word)
  /-- TXN_STATUS (R457). Command returning the state and counts of a transaction. -/
  | txnStatus (c : Call) (q : List Word)
  /-- TXN_LIST (R453). Command returning the handles of the eight transaction slots. -/
  | txnList (c : Call) (q : List Word)
  /-- PORT_CREATE (R53). Command creating an Ethernet port on its lanes, disabled, with counters in clear-on-read mode. -/
  | portCreate (c : Call) (q : List Word)
  /-- PORT_DELETE (R78). Command deleting a port, discarding its queued frames, zeroising its SAs and releasing its lanes. -/
  | portDelete (c : Call) (q : List Word)
  /-- PORT_ENABLE (R68). Command putting a port in service at the next tide boundary, with counters back in accumulating mode. -/
  | portEnable (c : Call) (q : List Word)
  /-- PORT_DISABLE (R68). Command taking a port out of service at the next tide boundary. -/
  | portDisable (c : Call) (q : List Word)
  /-- PORT_SET (R56). Command changing a port's frame length, filter, TPID, holds and degrade threshold. -/
  | portSet (c : Call) (q : List Word)
  /-- PORT_FILTER_SET (R60). Command writing one entry of a port's perfect-match address filter. -/
  | portFilterSet (c : Call) (q : List Word)
  /-- PORT_STATUS (R55). Command returning a port's link state, fault and service flags. -/
  | portStatus (c : Call) (q : List Word)
  /-- PORT_COUNTERS (R67). Command reading a port's MAC counters, or their snapshot, clearing them in clear-on-read mode. -/
  | portCounters (c : Call) (q : List Word)
  /-- PORT_LOOPBACK (R77). Command putting a port in near-end, far-end or PRBS test, or ending the test. -/
  | portLoopback (c : Call) (q : List Word)
  /-- LANE_SET (R52). Command setting a lane's polarity, lane map, equaliser taps and training flag. -/
  | laneSet (c : Call) (q : List Word)
  /-- MACSEC_SECY_SET (R79). Command setting a port's SecY settings. -/
  | macsecSecySet (c : Call) (q : List Word)
  /-- MACSEC_SA_INSTALL (R73). Command installing a SAK into the security store and the working copy, then zeroing the request. -/
  | macsecSaInstall (c : Call) (q : List Word)
  /-- MACSEC_SA_ACTIVATE (R74). Command making a transmit SA the active one for frames that start afterwards. -/
  | macsecSaActivate (c : Call) (q : List Word)
  /-- MACSEC_SA_DELETE (R73). Command deleting an SA and zeroising both copies of its key. -/
  | macsecSaDelete (c : Call) (q : List Word)
  /-- MACSEC_COUNTERS (R461). Command reading the SecY or SA MACsec counters. -/
  | macsecCounters (c : Call) (q : List Word)
  /-- TPORT_CREATE (R82). Command creating a transport port, disabled, sending maintenance signals. -/
  | tportCreate (c : Call) (q : List Word)
  /-- TPORT_DELETE (R82). Command deleting a transport port without ODU or path objects. -/
  | tportDelete (c : Call) (q : List Word)
  /-- TPORT_ENABLE (R82). Command enabling a transport port at the next tide. -/
  | tportEnable (c : Call) (q : List Word)
  /-- TPORT_DISABLE (R82). Command disabling a transport port at the next tide. -/
  | tportDisable (c : Call) (q : List Word)
  /-- ODU_CREATE (R88). Command creating an ODU in tributary slots, possibly a packet client with an assigned index. -/
  | oduCreate (c : Call) (q : List Word)
  /-- ODU_DELETE (R90). Command deleting an ODU and freeing its packet client index. -/
  | oduDelete (c : Call) (q : List Word)
  /-- SDH_PATH_CREATE (R92). Command creating a VC-4, VC-3 or VC-12 path object. -/
  | sdhPathCreate (c : Call) (q : List Word)
  /-- SDH_PATH_DELETE (R92). Command deleting an SDH path object. -/
  | sdhPathDelete (c : Call) (q : List Word)
  /-- TRACE_SET (R97). Command setting transmitted and expected traces and restarting TIM persistence. -/
  | traceSet (c : Call) (q : List Word)
  /-- TRACE_GET (R96). Command returning TIM and the accepted trace. -/
  | traceGet (c : Call) (q : List Word)
  /-- MON_SET (R94). Command setting degradation parameters of a monitored object. -/
  | monSet (c : Call) (q : List Word)
  /-- DEFECT_STATUS (R93). Command returning an object's declared defects and received label. -/
  | defectStatus (c : Call) (q : List Word)
  /-- PM_READ (R99). Command returning retained once-per-second performance records. -/
  | pmRead (c : Call) (q : List Word)
  /-- PROT_CREATE (R102). Command creating a protection group with the worker selected. -/
  | protCreate (c : Call) (q : List Word)
  /-- PROT_DELETE (R107). Command selecting the worker and removing a protection group. -/
  | protDelete (c : Call) (q : List Word)
  /-- PROT_REQUEST (R103). Command issuing a lockout, forced, manual, exercise or clear request to a group. -/
  | protRequest (c : Call) (q : List Word)
  /-- PROT_STATUS (R103). Command returning a group's selection, highest request, WTR and K bytes. -/
  | protStatus (c : Call) (q : List Word)
  /-- CIRCUIT_CREATE (R109). Command creating a disabled E1 circuit bound to a VC-12, a group or nothing. -/
  | circuitCreate (c : Call) (q : List Word)
  /-- CIRCUIT_DELETE (R109). Command deleting a circuit. -/
  | circuitDelete (c : Call) (q : List Word)
  /-- CIRCUIT_ENABLE (R122). Command enabling a circuit at the next tide and starting playout under the start condition. -/
  | circuitEnable (c : Call) (q : List Word)
  /-- CIRCUIT_DISABLE (R129). Command disabling a circuit at the next tide. -/
  | circuitDisable (c : Call) (q : List Word)
  /-- CIRCUIT_SET (R129). Command changing a circuit's settings, structural ones only while disabled. -/
  | circuitSet (c : Call) (q : List Word)
  /-- CIRCUIT_STATUS (R121). Command returning a circuit's state, fill and playout pointer. -/
  | circuitStatus (c : Call) (q : List Word)
  /-- CIRCUIT_COUNTERS (R127). Command reading a circuit's counters. -/
  | circuitCounters (c : Call) (q : List Word)
  /-- CIRCUIT_PM_READ (R128). Command returning retained circuit per-second records. -/
  | circuitPmRead (c : Call) (q : List Word)
  /-- PROFILE_SET (R45). Command changing the operating profile, discarding table contents and re-splitting SLM. -/
  | profileSet (c : Call) (q : List Word)
  /-- PROFILE_GET (R44). Command returning the current profile. -/
  | profileGet (c : Call) (q : List Word)
  /-- PARSER_LOAD (R139). Staged command loading entries of the inactive parser bank. -/
  | parserLoad (c : Call) (q : List Word)
  /-- PARSER_PORT_SET (R585). Command setting a port's or client's start node, exception action and PCP map. -/
  | parserPortSet (c : Call) (q : List Word)
  /-- IF_SET (R140). Command writing an interface record. -/
  | ifSet (c : Call) (q : List Word)
  /-- LKP_KEY_SET (R142). Command writing a key profile. -/
  | lkpKeySet (c : Call) (q : List Word)
  /-- LKP_PROGRAM_SET (R141). Command writing a lookup program. -/
  | lkpProgramSet (c : Call) (q : List Word)
  /-- NH_CREATE (R145). Command creating a next-hop. -/
  | nhCreate (c : Call) (q : List Word)
  /-- NH_SET (R145). Command changing a next-hop. -/
  | nhSet (c : Call) (q : List Word)
  /-- NH_DELETE (R155). Command deleting an unreferenced next-hop. -/
  | nhDelete (c : Call) (q : List Word)
  /-- ENCAP_CREATE (R145). Command creating an MPLS, SRv6, EVPN or DetNet encapsulation. -/
  | encapCreate (c : Call) (q : List Word)
  /-- ENCAP_DELETE (R145). Command deleting an unreferenced encapsulation. -/
  | encapDelete (c : Call) (q : List Word)
  /-- ECMP_CREATE (R146). Command creating an ECMP group of 1 to 512 members. -/
  | ecmpCreate (c : Call) (q : List Word)
  /-- ECMP_SET_MEMBERS (R147). Command replacing an ECMP group's members and down marks. -/
  | ecmpSetMembers (c : Call) (q : List Word)
  /-- ECMP_DELETE (R146). Command deleting an unreferenced ECMP group. -/
  | ecmpDelete (c : Call) (q : List Word)
  /-- HASH_SET (R146). Command setting the device hash seed and symmetric option. -/
  | hashSet (c : Call) (q : List Word)
  /-- POLICER_SET (R148). Command setting a policer's mode, rates, bursts and actions. -/
  | policerSet (c : Call) (q : List Word)
  /-- POLICER_READ (R148). Command returning a policer's stored settings and token counts. -/
  | policerRead (c : Call) (q : List Word)
  /-- STATS_READ (R152). Command reading statistics counters. -/
  | statsRead (c : Call) (q : List Word)
  /-- STATS_CLEAR (R152). Command clearing a range of statistics counters. -/
  | statsClear (c : Call) (q : List Word)
  /-- PIPE_SET (R158). Command setting the recirculation weight and punt policers. -/
  | pipeSet (c : Call) (q : List Word)
  /-- PIPE_COUNTERS (R159). Command reading a pipeline's counters. -/
  | pipeCounters (c : Call) (q : List Word)
  /-- DILL_TABLE_CREATE (R169). Command creating a Dill table at the lowest free aligned bucket range. -/
  | dillTableCreate (c : Call) (q : List Word)
  /-- DILL_INSERT (R171). Command inserting a key into its bucket or the overflow store. -/
  | dillInsert (c : Call) (q : List Word)
  /-- DILL_MODIFY (R176). Command changing an entry's action record, cookie and static bit. -/
  | dillModify (c : Call) (q : List Word)
  /-- DILL_DELETE (R171). Command deleting a Dill entry, moving an overflow entry into the freed place. -/
  | dillDelete (c : Call) (q : List Word)
  /-- DILL_TABLE_DELETE (R454). Command deleting an unnamed Dill table and freeing its entries. -/
  | dillTableDelete (c : Call) (q : List Word)
  /-- DILL_STATUS (R172). Command returning a table's entry counts and failed pages. -/
  | dillStatus (c : Call) (q : List Word)
  /-- SORREL_ADD (R167). Command adding a route. -/
  | sorrelAdd (c : Call) (q : List Word)
  /-- SORREL_SET (R167). Command changing a route's action record. -/
  | sorrelSet (c : Call) (q : List Word)
  /-- SORREL_DELETE (R167). Command deleting a route. -/
  | sorrelDelete (c : Call) (q : List Word)
  /-- SORREL_GET (R167). Command returning a route's action record. -/
  | sorrelGet (c : Call) (q : List Word)
  /-- SORREL_MATCH (R164). Command performing a longest-prefix match of an address. -/
  | sorrelMatch (c : Call) (q : List Word)
  /-- SORREL_STATUS (R166). Command returning Sorrel route-unit usage. -/
  | sorrelStatus (c : Call) (q : List Word)
  /-- SAGE_GROUP_CREATE (R179). Command creating a Sage segment group. -/
  | sageGroupCreate (c : Call) (q : List Word)
  /-- SAGE_GROUP_DELETE (R179). Command deleting an unnamed Sage segment group. -/
  | sageGroupDelete (c : Call) (q : List Word)
  /-- SAGE_INSERT (R182). Command inserting a Sage entry by priority, moving entries to keep holes. -/
  | sageInsert (c : Call) (q : List Word)
  /-- SAGE_MODIFY (R181). Command changing a Sage entry's action record in place. -/
  | sageModify (c : Call) (q : List Word)
  /-- SAGE_DELETE (R190). Command deleting a Sage entry, leaving a hole. -/
  | sageDelete (c : Call) (q : List Word)
  /-- SAGE_READ (R181). Command returning a Sage entry. -/
  | sageRead (c : Call) (q : List Word)
  /-- SAGE_STATUS (R188). Command returning group usage and throttle steps. -/
  | sageStatus (c : Call) (q : List Word)
  /-- ACTION_CREATE (R163). Command creating an action record. -/
  | actionCreate (c : Call) (q : List Word)
  /-- ACTION_SET (R163). Command changing an action record in place. -/
  | actionSet (c : Call) (q : List Word)
  /-- ACTION_DELETE (R163). Command deleting an unreferenced action record. -/
  | actionDelete (c : Call) (q : List Word)
  /-- TABLE_COUNTERS (R191). Command reading the table engine counters. -/
  | tableCounters (c : Call) (q : List Word)
  /-- DILL_SEARCH (R210). Command returning the entry of a key visible to the current epoch. -/
  | dillSearch (c : Call) (q : List Word)
  /-- DILL_NEXT (R210). Command walking a table from a cursor. -/
  | dillNext (c : Call) (q : List Word)
  /-- DILL_NEXT_HOLD_EXPIRY (R211). The hold-back of overflow moves into a walked bucket ends after 8,000 tides. -/
  | dillNextHoldExpiry (t tab b : Nat)
  /-- TABLE_CMDLIST (R214). Command starting a list of table commands from host memory. -/
  | tableCmdlist (c : Call) (q : List Word)
  /-- CMDLIST_DONE (R215). A command list finishes running its records and writing results. -/
  | cmdlistDone (t id : Nat) (records : List Word)
  /-- TABLE_COMPARE_SET (R217). Command enabling background compare and twin repair for a table. -/
  | tableCompareSet (c : Call) (q : List Word)
  /-- TABLE_DIGEST_LOAD (R217). Command loading page digests. -/
  | tableDigestLoad (c : Call) (q : List Word)
  /-- TABLE_COMPARE_STATUS (R218). Command returning compare results. -/
  | tableCompareStatus (c : Call) (q : List Word)
  /-- LEARN_PROFILE_SET (R193). Command setting a learn profile. -/
  | learnProfileSet (c : Call) (q : List Word)
  /-- LEARN_DOMAIN_SET (R193). Command mapping forwarding domains to a learn profile. -/
  | learnDomainSet (c : Call) (q : List Word)
  /-- LEARN_PORT_SET (R200). Command setting a port's learn limit, excess action and learn action record. -/
  | learnPortSet (c : Call) (q : List Word)
  /-- LEARN_PORT_STATUS (R200). Command returning a port's learned and pending counts. -/
  | learnPortStatus (c : Call) (q : List Word)
  /-- LEARN_FLUSH_PORT (R212). Command starting a flush of a port's learned entries, by removal or move. -/
  | learnFlushPort (c : Call) (q : List Word)
  /-- FLUSH_DONE (R213). A flush walker completes and reports the entries changed. -/
  | flushDone (t id : Nat)
  /-- LEARN_PROGRAM_SET (R195). Command marking a lookup program as learning. -/
  | learnProgramSet (c : Call) (q : List Word)
  /-- LEARN_DEVICE_SET (R207). Command setting the sweep period and learn punt policers. -/
  | learnDeviceSet (c : Call) (q : List Word)
  /-- LEARN_COUNTERS (R220). Command reading the learning counters. -/
  | learnCounters (c : Call) (q : List Word)
  /-- BUF_POOL_SET (R237). Command setting a client's reserve, maximum and the pool thresholds. -/
  | bufPoolSet (c : Call) (q : List Word)
  /-- BUF_POOL_STATUS (R227). Command returning pool free and used counts. -/
  | bufPoolStatus (c : Call) (q : List Word)
  /-- BUF_INSPECT (R224). Command returning a buffer's state, owner and count. -/
  | bufInspect (c : Call) (q : List Word)
  /-- BUF_COUNTERS (R241). Command reading pool counters. -/
  | bufCounters (c : Call) (q : List Word)
  /-- QUEUE_SPACE_SET (R243). Command setting the VOQ and egress queue boundary V. -/
  | queueSpaceSet (c : Call) (q : List Word)
  /-- VOQ_CREATE (R245). Command creating a VOQ set for a system port. -/
  | voqCreate (c : Call) (q : List Word)
  /-- VOQ_DELETE (R271). Command deleting an empty VOQ set. -/
  | voqDelete (c : Call) (q : List Word)
  /-- QUEUE_CREATE (R249). Command creating an egress queue in the scheduling tree. -/
  | queueCreate (c : Call) (q : List Word)
  /-- QUEUE_SET (R270). Command changing a queue's settings. -/
  | queueSet (c : Call) (q : List Word)
  /-- QUEUE_DELETE (R271). Command deleting an empty, parentless queue. -/
  | queueDelete (c : Call) (q : List Word)
  /-- QUEUE_FLUSH (R271). Command discarding every packet held in a queue. -/
  | queueFlush (c : Call) (q : List Word)
  /-- QUEUE_STATUS (R253). Command returning a queue's depth, eligibility, shapers and flags. -/
  | queueStatus (c : Call) (q : List Word)
  /-- QUEUE_COUNTERS (R273). Command reading or clearing a queue's counters. -/
  | queueCounters (c : Call) (q : List Word)
  /-- NODE_CREATE (R249). Command creating a group A, B or C scheduler node. -/
  | nodeCreate (c : Call) (q : List Word)
  /-- NODE_SET (R270). Command changing a scheduler node's settings. -/
  | nodeSet (c : Call) (q : List Word)
  /-- NODE_DELETE (R250). Command deleting a childless scheduler node. -/
  | nodeDelete (c : Call) (q : List Word)
  /-- NODE_STATUS (R258). Command returning a node's children, bands and shapers. -/
  | nodeStatus (c : Call) (q : List Word)
  /-- WRED_PROFILE_SET (R263). Command setting a WRED profile. -/
  | wredProfileSet (c : Call) (q : List Word)
  /-- SAMPLER_GROUP_SET (R268). Command setting a sampler group's bases and thresholds. -/
  | samplerGroupSet (c : Call) (q : List Word)
  /-- SAMPLER_HIST_READ (R268). Command reading, and optionally clearing, a group's histograms. -/
  | samplerHistRead (c : Call) (q : List Word)
  /-- SCHED_COUNTERS (R274). Command reading the queue and scheduler device counters. -/
  | schedCounters (c : Call) (q : List Word)
  /-- STREAM_CREATE (R279). Command declaring a deterministic stream, running admission. -/
  | streamCreate (c : Call) (q : List Word)
  /-- STREAM_SET (R297). Command changing a stream's declaration, running admission. -/
  | streamSet (c : Call) (q : List Word)
  /-- STREAM_DELETE (R276). Command deleting an unnamed stream. -/
  | streamDelete (c : Call) (q : List Word)
  /-- STREAM_STATUS (R298). Command returning a stream's proved bounds, share and next sequence number. -/
  | streamStatus (c : Call) (q : List Word)
  /-- STREAM_COUNTERS (R305). Command reading or clearing a stream's counters. -/
  | streamCounters (c : Call) (q : List Word)
  /-- STREAM_EGRESS_CREATE (R282). Command declaring an egress record, running admission. -/
  | streamEgressCreate (c : Call) (q : List Word)
  /-- STREAM_EGRESS_DELETE (R282). Command deleting an egress record. -/
  | streamEgressDelete (c : Call) (q : List Word)
  /-- FRER_CREATE (R284). Command creating a recovery context. -/
  | frerCreate (c : Call) (q : List Word)
  /-- FRER_SET (R284). Command changing a recovery context and setting take_any. -/
  | frerSet (c : Call) (q : List Word)
  /-- FRER_DELETE (R284). Command deleting an unnamed recovery context. -/
  | frerDelete (c : Call) (q : List Word)
  /-- FRER_STATUS (R285). Command returning a context's recovery state. -/
  | frerStatus (c : Call) (q : List Word)
  /-- FRER_COUNTERS (R305). Command reading or clearing recovery counters. -/
  | frerCounters (c : Call) (q : List Word)
  /-- FRER_RESET (R286). Command setting take_any of a context at once. -/
  | frerReset (c : Call) (q : List Word)
  /-- GATE_SET (R293). Command committing a gate list with a computed take-over instant. -/
  | gateSet (c : Call) (q : List Word)
  /-- GATE_CLEAR (R293). Command committing an all-open gate state for a port. -/
  | gateClear (c : Call) (q : List Word)
  /-- GATE_STATUS (R287). Command returning a port's running and pending gate lists. -/
  | gateStatus (c : Call) (q : List Word)
  /-- DET_CHECK (R303). Command running admission without changing anything. -/
  | detCheck (c : Call) (q : List Word)
  /-- DET_EXPORT (R304). Command writing the admission input to host memory. -/
  | detExport (c : Call) (q : List Word)
  /-- DET_COUNTERS (R306). Command reading deterministic device counters. -/
  | detCounters (c : Call) (q : List Word)
  /-- FABRIC_SET (R315). Command setting fabric mode, device ID, alias, octets and timers. -/
  | fabricSet (c : Call) (q : List Word)
  /-- FABRIC_PROFILE_SET (R327). Command setting F_fixed, tau and k_min, running admission. -/
  | fabricProfileSet (c : Call) (q : List Word)
  /-- FABRIC_SYSPORT_SET (R315). Command writing system-port table entries. -/
  | fabricSysportSet (c : Call) (q : List Word)
  /-- FABRIC_VOQ_GUARANTEE (R323). Command declaring G for a deterministic VOQ, running admission. -/
  | fabricVoqGuarantee (c : Call) (q : List Word)
  /-- FABRIC_GRANT_SET (R323). Command setting the guaranteed rate for a remote VOQ at the destination. -/
  | fabricGrantSet (c : Call) (q : List Word)
  /-- FABRIC_CREDIT_SET (R322). Command setting credit factor, backpressure threshold and max_out. -/
  | fabricCreditSet (c : Call) (q : List Word)
  /-- FABRIC_STATUS (R324). Command returning usable lanes and reachable devices. -/
  | fabricStatus (c : Call) (q : List Word)
  /-- FABRIC_LANE_REACH (R324). Command returning the devices reachable through a lane. -/
  | fabricLaneReach (c : Call) (q : List Word)
  /-- FABRIC_COUNTERS (R330). Command reading fabric counters. -/
  | fabricCounters (c : Call) (q : List Word)
  /-- TIME_GET (R332). Command returning the time-base value and current tide. -/
  | timeGet (c : Call) (q : List Word)
  /-- TIME_ADJUST (R334). Command setting the frequency offset and optionally starting a phase slew. -/
  | timeAdjust (c : Call) (q : List Word)
  /-- TIME_STEP (R336). Command scheduling a step of the time base at the next tide boundary. -/
  | timeStep (c : Call) (q : List Word)
  /-- TIME_STATE_SET (R335). Command moving the time base between LOCKED and HOLDOVER. -/
  | timeStateSet (c : Call) (q : List Word)
  /-- TIME_STATUS (R584). Command returning time-base state, source and pending adjustments. -/
  | timeStatus (c : Call) (q : List Word)
  /-- TIME_PORT_SET (R341). Command setting a port's PTP mode and timestamp offsets. -/
  | timePortSet (c : Call) (q : List Word)
  /-- TIME_TSRING_SET (R346). Command setting and enabling the timestamp host ring. -/
  | timeTsringSet (c : Call) (q : List Word)
  /-- TIME_ORIGINATE (R344). Command making Enenhild originate timestamped frames on a port. -/
  | timeOriginate (c : Call) (q : List Word)
  /-- TIME_PPS_SET (R348). Command setting the PPS_OUT offset and width. -/
  | timePpsSet (c : Call) (q : List Word)
  /-- TIME_TOD_SET (R348). Command enabling TOD_TX and TOD_RX. -/
  | timeTodSet (c : Call) (q : List Word)
  /-- TIME_SYNCE_SET (R347). Command selecting a SyncE output's lane, divider and squelch. -/
  | timeSynceSet (c : Call) (q : List Word)
  /-- TIME_TIDE_SET (R349). Command setting the tide source and chain delay. -/
  | timeTideSet (c : Call) (q : List Word)
  /-- TIME_COUNTERS (R353). Command reading time counters. -/
  | timeCounters (c : Call) (q : List Word)
  /-- MEM_SET (R360). Command setting retraining interval and window, CE threshold and scrub period. -/
  | memSet (c : Call) (q : List Word)
  /-- MEM_STATUS (R374). Command returning a stack's state, spares and donors. -/
  | memStatus (c : Call) (q : List Word)
  /-- MEM_REMAP_READ (R370). Command returning a stack's remap entries. -/
  | memRemapRead (c : Call) (q : List Word)
  /-- MEM_SPARE (R377). Command sparing a rank without waiting for a fault. -/
  | memSpare (c : Call) (q : List Word)
  /-- MEM_TRAIN_REPORT (R359). Command returning a channel's training results. -/
  | memTrainReport (c : Call) (q : List Word)
  /-- MEM_COUNTERS (R378). Command reading a stack's counters. -/
  | memCounters (c : Call) (q : List Word)
  /-- TWIN_SET (R413). Command setting attachment mode, auto-join and referee enable. -/
  | twinSet (c : Call) (q : List Word)
  /-- TWIN_STATUS (R380). Command returning twin state and link flags. -/
  | twinStatus (c : Call) (q : List Word)
  /-- TWIN_SWITCH (R409). Command scheduling a planned switchover at tide N. -/
  | twinSwitch (c : Call) (q : List Word)
  /-- TWIN_FORCE (R387). Command taking or yielding the berth token. -/
  | twinForce (c : Call) (q : List Word)
  /-- TWIN_JOIN (R413). Command starting the join of a COLD unit. -/
  | twinJoin (c : Call) (q : List Word)
  /-- TWIN_REFEREE_LOAD (R405). Command loading a referee vector. -/
  | twinRefereeLoad (c : Call) (q : List Word)
  /-- TWIN_DECIDE (R405). Command naming the faulty unit of an undecided mismatch. -/
  | twinDecide (c : Call) (q : List Word)
  /-- TWIN_MANIFEST_READ (R402). Command returning own and twin manifest entries. -/
  | twinManifestRead (c : Call) (q : List Word)
  /-- TWIN_COUNTERS (R415). Command reading twin counters. -/
  | twinCounters (c : Call) (q : List Word)
  /-- POWER_TOL_SET (R488). Command setting class and takeover tolerances, running admission. -/
  | powerTolSet (c : Call) (q : List Word)
  /-- POWER_PORT_SET (R495). Command setting a port's tolerance, class mask, OFF permission and off delay. -/
  | powerPortSet (c : Call) (q : List Word)
  /-- POWER_CONCENTRATE_SET (R494). Command enabling concentration of octets and slice pairs. -/
  | powerConcentrateSet (c : Call) (q : List Word)
  /-- POWER_DOMAIN_STATUS (R484). Command returning a domain's state, floor and tolerance. -/
  | powerDomainStatus (c : Call) (q : List Word)
  /-- POWER_STATUS (R496). Command returning estimated power and concentration. -/
  | powerStatus (c : Call) (q : List Word)
  /-- POWER_COUNTERS (R497). Command reading power counters. -/
  | powerCounters (c : Call) (q : List Word)
  /-- SOUND_SET (R511). Command setting the sounding schedule and budgets. -/
  | soundSet (c : Call) (q : List Word)
  /-- SOUND_NOW (R511). Command requesting a sounding of one cluster. -/
  | soundNow (c : Call) (q : List Word)
  /-- SOUND_STATUS (R508). Command returning a slice's sounding state. -/
  | soundStatus (c : Call) (q : List Word)
  /-- SOUND_SLICE_INFO (R506). Command returning run times of a slice's pattern sets. -/
  | soundSliceInfo (c : Call) (q : List Word)
  /-- SCAN_FULL (R507). Command starting a full scan of every slice. -/
  | scanFull (c : Call) (q : List Word)
  /-- SCAN_FULL_RUN_DONE (R507). The full scan finishes, writes its result record and resets the package. -/
  | scanFullRunDone (t bits : Nat) (first : Option (Nat × Nat)) (sig : Nat) (verified : List Bool)
  /-- SCAN_RESULT (R507). Command returning the full-scan result record. -/
  | scanResult (c : Call) (q : List Word)
  /-- LIFECYCLE_CHALLENGE (R501). Command issuing a new nonce. -/
  | lifecycleChallenge (c : Call) (q : List Word)
  /-- LIFECYCLE_SET (R500). Command moving to another lifecycle state, zeroising and blowing fuses. -/
  | lifecycleSet (c : Call) (q : List Word)
  /-- LIFECYCLE_KEY_REVOKE (R502). Command revoking an image key slot. -/
  | lifecycleKeyRevoke (c : Call) (q : List Word)
  /-- SELFTEST_COUNTERS (R515). Command reading self-test counters. -/
  | selftestCounters (c : Call) (q : List Word)
  /-- NONCE_EXPIRY (R501). A nonce expires 480,000 tides after issue. -/
  | nonceExpiry (t : Nat)
  /-- SURVEY_VALIDITY_END (R500). SURVEY validity ends and the device returns to COMMISSIONED. -/
  | surveyValidityEnd (t : Nat)
  /-- FAULT_STATUS (R526). Command returning FW_STATE, safe-state cause and fenced clusters. -/
  | faultStatus (c : Call) (q : List Word)
  /-- FAULT_LOG_READ (R532). Command reading fault log entries. -/
  | faultLogRead (c : Call) (q : List Word)
  /-- FAULT_LAST_BREATH_SET (R531). Command setting the host copy of the last-breath record. -/
  | faultLastBreathSet (c : Call) (q : List Word)
  /-- FAULT_LAST_BREATH_READ (R530). Command reading the own or twin last-breath record. -/
  | faultLastBreathRead (c : Call) (q : List Word)
  /-- FAULT_CLUSTER_REINIT (R521). Command re-initialising a permanently fenced cluster. -/
  | faultClusterReinit (c : Call) (q : List Word)
  /-- FAULT_RESET (R536). Command resetting the package as PORST_N 1 ms later. -/
  | faultReset (c : Call) (q : List Word)
  /-- FAULT_COUNTERS (R537). Command reading fault counters. -/
  | faultCounters (c : Call) (q : List Word)
  /-- TELEM_BANK_SET (R544). Command selecting a programmable counter's event and mode. -/
  | telemBankSet (c : Call) (q : List Word)
  /-- TELEM_BANK_READ (R539). Command reading a counter bank. -/
  | telemBankRead (c : Call) (q : List Word)
  /-- TELEM_BW_SET (R549). Command setting a port's bandwidth window and clearing peaks. -/
  | telemBwSet (c : Call) (q : List Word)
  /-- TELEM_DUMP_SET (R553). Command setting a dump stream. -/
  | telemDumpSet (c : Call) (q : List Word)
  /-- TELEM_DUMP_STATUS (R550). Command returning a dump stream's state. -/
  | telemDumpStatus (c : Call) (q : List Word)
  /-- TELEM_COUNTERS (R555). Command reading telemetry counters. -/
  | telemCounters (c : Call) (q : List Word)
  /-- TELEM_USER_GRANT (R435). Command granting or revoking user access to a counter group or page. -/
  | telemUserGrant (c : Call) (q : List Word)
  /-- UPGRADE_LOAD (R472). Command starting a load of an image into the non-preferred slot. -/
  | upgradeLoad (c : Call) (q : List Word)
  /-- UPGRADE_LOADED (R472). An image load finishes writing and verifying, marking the slot LOADED or BAD. -/
  | upgradeLoaded (t : Nat) (img : ImageHeader) (verified : Bool)
  /-- UPGRADE_ACTIVATE (R473). Command activating a loaded image by hot swap or reboot. -/
  | upgradeActivate (c : Call) (q : List Word)
  /-- UPGRADE_CONFIRM (R478). Command making the running TRIAL slot GOOD and preferred. -/
  | upgradeConfirm (c : Call) (q : List Word)
  /-- UPGRADE_STATUS (R465). Command returning the directory and upgrade activity. -/
  | upgradeStatus (c : Call) (q : List Word)
  /-- UPGRADE_PROFILE (R480). Command starting a profile conversion of the standby. -/
  | upgradeProfile (c : Call) (q : List Word)
  /-- PROFILE_CONVERTED (R480). The standby finishes its profile conversion and returns to WARM. -/
  | profileConverted (t : Nat)
  /-- PIO_RING_MAP (R427). Command mapping a punt reason to a receive ring. -/
  | pioRingMap (c : Call) (q : List Word)
  /-- PIO_COUNTERS (R436). Command reading packet I/O counters. -/
  | pioCounters (c : Call) (q : List Word)
  /-- MB_DOORBELL (R439). Write ringing mailboxes; the K12 takes each permitted mailbox and reads its request. -/
  | mbDoorbell (t v : Nat) (fed : List (Nat × List Byte)) (failed : List (Nat × Nat))
  /-- MB_DONE (R439). W1C write by which the host takes a mailbox. -/
  | mbDone (t v : Nat)
  /-- EVR_CTRL (R423). Write to the event ring control; enabling restarts counts and locks the ring fields. -/
  | evrCtrl (t v : Nat)
  /-- EVR_CONSUMER (R424). Write reporting consumption of event records. -/
  | evrConsumer (t v : Nat)
  /-- EVR_LOST (R5). Read of the lost-event count, which clears it. -/
  | evrLost (t : Nat)
  /-- TSR_CONSUMER (R346). Write reporting consumption of timestamp ring entries. -/
  | tsrConsumer (t v : Nat)
  /-- RING_CTRL (R423). Write to a PF1 ring control; enabling restarts its counts. -/
  | ringCtrl (t : Nat) (tx : Bool) (ring v : Nat)
  /-- RX_TAIL (R428). Write posting receive buffers. -/
  | rxTail (t ring v : Nat)
  /-- TX_TAIL (R432). Write posting transmit descriptors. -/
  | txTail (t ring v : Nat)
  /-- REGISTER_WRITE (R5). Write to any other register, reserved range or locked field, applied under the access codes. -/
  | registerWrite (t : Nat) (bar : Bar) (off v : Nat)
  /-- PF2_USER_READ (R435). Read of the user counter aperture, returning values only from granted pages. -/
  | pf2UserRead (t off n : Nat)
  /-- PCIE_CONFIG_REQUEST (R418). A configuration request, answered with retry status until firmware ready. -/
  | pcieConfigRequest (t fn off : Nat) (write : Option Nat)
  /-- I2C0_ACCESS (R570). A target transaction on I2C0 served by the pilot. -/
  | i2c0Access (t : Nat) (write : List Nat) (n : Nat)
  /-- JTAG_INSTRUCTION (R571). An instruction loaded into the TAP, replaced by BYPASS when refused. -/
  | jtagInstruction (t code : Nat)
  /-- PORST_N_ASSERT (R31). PORST_N goes low, resetting everything except retained AON state. -/
  | porstNAssert (t : Nat)
  /-- PORST_N_RELEASE (R467). PORST_N is released; straps are sampled and the power-on sequence starts. -/
  | porstNRelease (t devid : Nat) (twinEn : Bool) (verified : List Bool)
  /-- BOOT_SLOT_TIMEOUT (R469). A slot fails to reach firmware ready within 3,000 ms and is marked BAD. -/
  | bootSlotTimeout (t : Nat)
  /-- FIRMWARE_READY (R467). Enenhild reaches firmware ready with the initial state of R471. -/
  | firmwareReady (t : Nat)
  /-- HBM_TRAINING_DONE (R359). Training of a stack completes and the stack enters service. -/
  | hbmTrainingDone (t stack ms : Nat) (geometry : Bool) (chans : List (Bool × Nat × Nat × Nat))
  /-- PERST_N_ASSERT (R419). PERST_N resets host-facing state and disables rings and DMA. -/
  | perstNAssert (t : Nat)
  /-- FUNCTION_LEVEL_RESET (R419). A function-level reset of one PCI Express function. -/
  | functionLevelReset (t fn : Nat)
  /-- PCIE_LINK_CHANGE (R418). The PCI Express link trains or changes state. -/
  | pcieLinkChange (t rate width : Nat) (flit : Bool)
  /-- REFCLK_LOSS (R564). A reference clock stops or leaves its tolerance. -/
  | refclkLoss (t clk : Nat) (lost : Bool)
  /-- POWER_WARNING (R529). PFW_N is held low for 500 ns and the safe state is entered. -/
  | powerWarning (t : Nat)
  /-- TIDE_BOUNDARY (R40). A tide boundary: commits, latches, checkpoints, manifests, grants and other tide-aligned actions take effect. -/
  | tideBoundary (t : Nat) (m : Measured)
  /-- RETRAIN_WINDOW_END (R360). A retraining window ends, or is ended at W and counted as an overrun. -/
  | retrainWindowEnd (t stack chan : Nat)
  /-- DUMP_RECORD_WRITTEN (R552). A dump record finishes writing to its host slot. -/
  | dumpRecordWritten (t n : Nat) (failed : Option Nat)
  /-- SWAP_BEGIN (R473). A hot swap begins at the first boundary with no command running. -/
  | swapBegin (t : Nat)
  /-- SWAP_HANDOVER (R474). Time-critical services move to the new image at one tide boundary. -/
  | swapHandover (t : Nat) (ok : Bool)
  /-- SWAP_DONE (R475). The swap completes and the new slot becomes TRIAL. -/
  | swapDone (t : Nat)
  /-- CONFIRM_TIMEOUT (R477). An unconfirmed TRIAL image reverts to the preferred slot. -/
  | confirmTimeout (t : Nat)
  /-- PORT_CONDITIONS_CHANGE (R55). Link conditions of a port begin or cease to hold, starting or abandoning a hold. -/
  | portConditionsChange (t port failing : Nat)
  /-- LINK_UP (R56). The link-up hold expires and the port is declared up. -/
  | linkUp (t port : Nat)
  /-- LINK_DOWN (R57). The link-down hold expires and the port is declared down. -/
  | linkDown (t port : Nat)
  /-- FRAME_RECEIVED (R61). A frame completes at the MAC and is classified, filtered, validated and buffered. -/
  | frameReceived (t port : Nat) (client : Option Nat) (frame : List Byte) (good aborted : Bool) (dur : Nat)
  /-- HOLD_LIMIT_DROP (R133). A frame reaches the octet ingress buffer hold limit and a frame is dropped. -/
  | holdLimitDrop (t octet : Nat)
  /-- INGRESS_PIPELINE_PASS (R143). A granted packet is parsed, looked up, resolved, policed and counted in one pass. -/
  | ingressPipelinePass (t pipe c idle : Nat) (bad : List Nat)
  /-- LEARN_REQUEST_APPLY (R198). The learn engine applies a queued request against the bucket. -/
  | learnRequestApply (t n : Nat)
  /-- FLAP_CLEAR (R203). A flap lock expires and its tracker slot is freed. -/
  | flapClear (t tab key : Nat)
  /-- MOVE_WINDOW_END (R201). An unlocked move-tracker window ends and frees its slot. -/
  | moveWindowEnd (t tab key : Nat)
  /-- SWEEP_VISIT (R207). The sweeper visits a bucket, clearing hit bits and aging out entries. -/
  | sweepVisit (t tab b : Nat)
  /-- COMPARE_PAGE_VISIT (R218). The compare walker scrubs a page and compares its digest. -/
  | comparePageVisit (t tab page : Nat) (unc : Option Nat) (twin : Option Nat)
  /-- TWIN_PAGE_REPAIR (R219). The twin's canonical page arrives and the page is rewritten. -/
  | twinPageRepair (t tab page : Nat) (form : List (Nat × Nat × Nat × Nat))
  /-- EPOCH_RETIRE (R156). Old versions of a segment retire once its old-epoch packets drained. -/
  | epochRetire (t seg : Nat)
  /-- EPOCH_STALE (R156). At 10 µs after the boundary old-epoch packets still in a segment are dropped. -/
  | epochStale (t seg : Nat)
  /-- THERMAL_SENSOR_READ (R188). Periodic reading of region sensors computing temperature and throttle step. -/
  | thermalSensorRead (t region : Nat) (sensors : List (Int × Bool))
  /-- STREAM_UNIT_FRAME (R280). The stream unit meters, recovers, sequences and replicates an identified frame. -/
  | streamUnitFrame (t octet : Nat)
  /-- FRER_RESET_TIMEOUT (R286). A recovery context's reset timer expires and take_any is set. -/
  | frerResetTimeout (t ctx : Nat)
  /-- BUFFER_ALLOCATE (R228). The arbitration point grants buffers or answers EMPTY. -/
  | bufferAllocate (t pool : Nat) (reqs : List (Nat × Nat))
  /-- BUFFER_RELEASE (R231). The reference unit applies a release of a buffer. -/
  | bufferRelease (t pool b id unit : Nat)
  /-- BUFFER_REPLICATE (R230). A replication update makes a buffer shared or raises its count. -/
  | bufferReplicate (t pool b n : Nat)
  /-- PARTITION_SHORT (R236). The partition cannot grow within 1 ms and the commit fails. -/
  | partitionShort (t slot : Nat)
  /-- QUEUE_ENQUEUE (R261). A packet is enqueued after tail, WRED and allocation checks. -/
  | queueEnqueue (t client : Nat) (egress : Bool)
  /-- SCHEDULER_SELECT (R254). A port node selects the next packet from its tree. -/
  | schedulerSelect (t port : Nat)
  /-- SHAPER_RECOVERED (R256). A shaper's tokens reach 0 and its child wakes. -/
  | shaperRecovered (t h : Nat)
  /-- SAMPLER_VISIT (R267). A slice visits a queue, sampling depth and delay and applying age drops. -/
  | samplerVisit (t q : Nat)
  /-- GATE_LIST_STARTED (R293). A pending gate list takes over at instant T. -/
  | gateListStarted (t port : Nat)
  /-- EGRESS_PIPELINE_PASS (R153). The egress half edits a dequeued packet. -/
  | egressPipelinePass (t port : Nat)
  /-- FRAME_LAUNCH (R289). A frame is launched at its scheduled start on a gated port. -/
  | frameLaunch (t port : Nat) (cut : Bool)
  /-- MAC_TRANSMIT_FRAME (R64). The MAC pads, protects, timestamps and transmits a frame. -/
  | macTransmitFrame (t port : Nat) (cut own : Bool)
  /-- TSR_MERGER_WRITE (R344). The merger moves a capture entry to the host timestamp ring. -/
  | tsrMergerWrite (t port : Nat)
  /-- DEFECT_SET (R93). A defect's declaration persistence elapses; it is declared with consequent actions. -/
  | defectSet (t h b : Nat) (rx : DefectNote)
  /-- DEFECT_CLEAR (R93). A defect's clearing persistence elapses; it is cleared. -/
  | defectClear (t h b : Nat) (rx : DefectNote)
  /-- TRACE_ACCEPTED (R96). A new trace is accepted after identical consecutive periods. -/
  | traceAccepted (t h : Nat) (trace : TraceRun)
  /-- TIM_PERSISTENCE_EXPIRY (R96). An accepted trace has mismatched for the persistence and TIM is declared. -/
  | timPersistenceExpiry (t h : Nat)
  /-- HOLDOFF_EXPIRY (R104). A protection hold-off expires and the condition becomes a request. -/
  | holdoffExpiry (t group : Nat)
  /-- WTR_EXPIRY (R104). Wait-to-restore expires and a revertive group reverts. -/
  | wtrExpiry (t group : Nat)
  /-- APS_K_BYTES_ACCEPTED (R106). A K1/K2 change is accepted after 3 frames and Enenhild answers. -/
  | apsKBytesAccepted (t group k1 k2 : Nat)
  /-- APS_BRIDGE_TIMEOUT (R106). The far-end bridge does not agree within 50 ms, raising APS_FOP. -/
  | apsBridgeTimeout (t group : Nat)
  /-- VC12_FRAME_COMPLETE (R116). A frame completes from the VC-12 into a circuit's packetiser or ingress store. -/
  | vc12FrameComplete (t circuit path : Nat) (frame : List Byte)
  /-- PSEUDOWIRE_RECEIVED (R121). A pseudowire packet reaches a circuit and its frames enter the playout buffer. -/
  | pseudowireReceived (t circuit : Nat) (instant : Bool)
  /-- CIRCUIT_PLAYOUT (R122). A playout instant plays one frame, slipping or restarting as needed. -/
  | circuitPlayout (t circuit : Nat) (arrival : Bool)
  /-- LOPS_SET (R125). No packet accepted for the LOPS threshold; LOPS is declared. -/
  | lopsSet (t circuit : Nat)
  /-- FABRIC_LANE_STATE (R310). A fabric lane becomes usable or stops being usable. -/
  | fabricLaneState (t lane : Nat) (up far : Bool) (cause : Nat)
  /-- FABRIC_CELL_TRANSMIT (R316). A cell slot of a lane carries a sprayed cell. -/
  | fabricCellTransmit (t lane : Nat)
  /-- FABRIC_CELL_RECEIVED (R318). A cell arrives and is reordered and reassembled. -/
  | fabricCellReceived (t lane : Nat) (cell : List Byte) (damaged : Bool)
  /-- REORDER_TIMEOUT (R318). A gap persists for the reorder timeout and is declared lost. -/
  | reorderTimeout (t dev : Nat) (det : Bool)
  /-- STATUS_MESSAGE_RECEIVED (R320). The destination takes a VOQ's backlog from a status message. -/
  | statusMessageReceived (t lane : Nat) (flit : List Byte) (damaged : Bool)
  /-- STATUS_REFRESH (R320). The refresh interval elapses and a VOQ sends a status. -/
  | statusRefresh (t q : Nat)
  /-- TOKEN_MESSAGE_RECEIVED (R321). A token message updates a VOQ's G_cum if newer. -/
  | tokenMessageReceived (t lane : Nat) (flit : List Byte) (damaged : Bool)
  /-- CREDIT_TOKEN_ISSUE (R322). The credit scheduler issues a token to a VOQ. -/
  | creditTokenIssue (t dest : Nat)
  /-- REACHABILITY_RECEIVED (R324). A reachability message changes a lane's reach of a device. -/
  | reachabilityReceived (t lane : Nat) (flit : List Byte) (damaged : Bool)
  /-- PHASE_SLEW_DONE (R334). A phase slew completes. -/
  | phaseSlewDone (t : Nat)
  /-- TIME_STEP_APPLY (R337). A pending step applies at boundary B and starts a bridging tide. -/
  | timeStepApply (t : Nat) (m : Measured)
  /-- TIDE_IN_FRAME (R351). A follower measures a tide frame on TIDE_IN and steers its time base. -/
  | tideInFrame (t : Nat) (good : Bool) (tide : Nat) (phase : Int) (bridging : Bool) (state : Nat) (diff : Int)
  /-- TIDE_IN_LOST (R351). More than 8 frames fail and the follower enters holdover. -/
  | tideInLost (t : Nat)
  /-- PPS_IN_CAPTURE (R348). A PPS_IN edge's time is captured and reported. -/
  | ppsInCapture (t : Nat)
  /-- PPS_OUT_EDGE (R348). PPS_OUT rises at each whole second plus offset. -/
  | ppsOutEdge (t : Nat)
  /-- TOD_TX_MESSAGE (R348). A time event message is sent on TOD_TX after a PPS edge. -/
  | todTxMessage (t : Nat)
  /-- TOD_RX (R348). A valid message on TOD_RX is passed to the host. -/
  | todRx (t : Nat) (bytes : List Byte) (valid : Bool)
  /-- HBM_REQUEST (R363). A read or write request is queued and served on a channel. -/
  | hbmRequest (t stack addr : Nat) (write : Option (List Byte)) (len res replays : Nat) (whole : Bool) (idle subj sub : Nat)
  /-- SCRUB_READ (R368). The patrol scrubber reads and corrects a line. -/
  | scrubRead (t stack addr res : Nat)
  /-- RANK_MIGRATED (R373). A rank migration completes and the remap record is written. -/
  | rankMigrated (t stack : Nat) (poisoned : List Nat)
  /-- CE_WINDOW_END (R372). A rank's hourly corrected-read window ends. -/
  | ceWindowEnd (t stack rank : Nat)
  /-- HBM_TEMP (R362). A stack temperature crosses a threshold. -/
  | hbmTemp (t stack : Nat) (temp : Int)
  /-- HAWSER_LINK_STATE (R383). The hawser link comes up or goes down. -/
  | hawserLinkState (t : Nat) (up : Bool) (lane cause : Nat)
  /-- HAWSER_RECORD_RECEIVED (R384). A hawser record is received, or discarded as damaged. -/
  | hawserRecordReceived (t header : Nat) (damaged : Bool) (record : TwinRec)
  /-- DET_FRAME_RECORD (R386). The standby takes a replicated deterministic frame or sample. -/
  | detFrameRecord (t : Nat)
  /-- CHECKPOINT_APPLY (R396). The standby applies a received checkpoint. -/
  | checkpointApply (t : Nat)
  /-- CONFIGURATION_RECORD (R392). The standby stages an operation or judges a commit request. -/
  | configurationRecord (t : Nat)
  /-- COMMIT_ACK_TIMEOUT (R392). No standby acknowledgement 2 tides before C; the active commits alone. -/
  | commitAckTimeout (t slot : Nat)
  /-- COMPLETION_SUMMARY_TRIM (R403). The standby trims its VOQs from a completion summary. -/
  | completionSummaryTrim (t : Nat)
  /-- TIME_EXCHANGE (R394). A time-exchange record is answered or used to steer the standby. -/
  | timeExchange (t : Nat)
  /-- MANIFEST_COMPARE (R402). At the comparison instant the standby compares manifests. -/
  | manifestCompare (t : Nat)
  /-- REFEREE_RUN (R405). Pilots inject referee vectors and report pass or fail. -/
  | refereeRun (t : Nat)
  /-- HEARTBEAT_LOST (R390). No mooring edge for 150 µs; the standby queries the active's pilot. -/
  | heartbeatLost (t : Nat)
  /-- HEALTH_QUERY_TIMEOUT (R412). No health answer within 20 µs; a takeover is decided. -/
  | healthQueryTimeout (t : Nat)
  /-- MOORING_TOGGLE (R390). The pilot toggles its mooring output at each boundary and midpoint. -/
  | mooringToggle (t : Nat)
  /-- KILL_IN_RISE (R388). KILL_IN rises while KILL_OUT is high and the unit yields. -/
  | killInRise (t : Nat) (same : Bool)
  /-- KILL_IN_FALL (R388). The twin releases; a release detector decides a takeover. -/
  | killInFall (t : Nat)
  /-- TAKEOVER_DECIDED (R406). The standby raises KILL_OUT at the decision. -/
  | takeoverDecided (t : Nat)
  /-- TAKEOVER_ACTIVATE (R389). After w the unit becomes ACTIVE and drives the line and fabric. -/
  | takeoverActivate (t : Nat)
  /-- SWITCH_FAILED (R409). The standby is not ACTIVE by N+2 and the old active resumes. -/
  | switchFailed (t : Nat)
  /-- BULK_COPY_DONE (R414). A joining unit's bulk copy completes. -/
  | bulkCopyDone (t : Nat)
  /-- TWIN_WARM (R414). A joining unit finishes a class B rotation and becomes WARM. -/
  | twinWarm (t : Nat)
  /-- AUTO_JOIN (R413). A COLD unit with auto-join starts joining. -/
  | autoJoin (t : Nat)
  /-- RX_FRAME_DELIVERY (R428). A host-bound frame is written to receive buffers with a completion. -/
  | rxFrameDelivery (t ring : Nat) (fed : List (Nat × List Byte))
  /-- TX_RING_FRAME (R432). A frame is read from a transmit ring and injected. -/
  | txRingFrame (t : Nat) (fed : List (Nat × List Byte))
  /-- DMA_ERROR (R433). A failed DMA stops its ring. -/
  | dmaError (t src addr : Nat)
  /-- EVENT_RECORD_WRITE (R424). An event record is written to the host event ring. -/
  | eventRecordWrite (t : Nat)
  /-- MSIX_MODERATION_TIMEOUT (R421). U elapses since the oldest unsignalled record and the vector is signalled. -/
  | msixModerationTimeout (t src : Nat)
  /-- DOMAIN_ENTER_FLOOR (R492). A domain idle for the entry delay enters its floor. -/
  | domainEnterFloor (t d : Nat)
  /-- DOMAIN_WAKE (R493). A request wakes a domain and the rest of its path half. -/
  | domainWake (t d : Nat) (path : Option (Nat × Bool))
  /-- DOMAIN_WAKE_DONE (R484). A waking domain accepts work after its exit time. -/
  | domainWakeDone (t d : Nat)
  /-- DECONCENTRATE (R494). The ingress buffer or backlog exceeds 16 KiB and the sibling is woken. -/
  | deconcentrate (t k : Nat)
  /-- SOUNDING_START (R508). A sounding begins withdrawing a cluster's work. -/
  | soundingStart (t d : Nat)
  /-- SOUNDING_WITHDRAWN (R508). The cluster holds no work; fences rise and the test runs. -/
  | soundingWithdrawn (t : Nat)
  /-- SOUNDING_POSTPONED (R509). An on-die half is not free within 8 tides and the sounding is postponed. -/
  | soundingPostponed (t : Nat)
  /-- SOUNDING_TEST_DONE (R513). The pattern set finishes; pass re-initialises, fail repeats or fences. -/
  | soundingTestDone (t sig : Nat) (golden : Bool)
  /-- SOUNDING_OVERDUE (R511). A slice is not sounded by the end of its period. -/
  | soundingOverdue (t d : Nat)
  /-- ERROR_DETECTED (R519). An error is detected, graded and reported. -/
  | errorDetected (t unit kind detail : Nat)
  /-- CLUSTER_RESTORED (R521). Re-initialisation completes and the cluster returns to service. -/
  | clusterRestored (t d : Nat)
  /-- MPC_FAILED (R523). A missed MPC watchdog restart or fatal MPC error; the pilot resets the MPC. -/
  | mpcFailed (t cause : Nat)
  /-- MPC_RECOVERED (R524). MPC recovery completes and firmware is ready again. -/
  | mpcRecovered (t : Nat)
  /-- PILOT_LOCKSTEP_MISMATCH (R525). The pilot cores disagree; the safe state is entered. -/
  | pilotLockstepMismatch (t : Nat)
  /-- PILOT_WATCHDOG_EXPIRY (R525). The pilot watchdog expires; the safe state is entered. -/
  | pilotWatchdogExpiry (t : Nat)
  /-- LAST_BREATH_RECEIVED (R531). A twin's last-breath record arrives. -/
  | lastBreathReceived (t : Nat)
  /-- PACKAGE_RESET (R536). One millisecond after FAULT.RESET completes, the package resets as at PORST_N. -/
  | packageReset (t : Nat) (verified : List Bool)
  /-- MOORING_INPUT_EDGE (R390). An edge arrives on the mooring input, so the twin's heartbeat counts as received again. -/
  | mooringInputEdge (t : Nat)
  /-- AON_POWER_CYCLE (R532). VDD_AON or VIO_AON leaves its operating range and returns, clearing the AON state that is retained across PORST_N. -/
  | aonPowerCycle (t : Nat)
  /-- TRST_N_ASSERT (R571). TRST_N is driven low and the JTAG TAP is reset. -/
  | trstNAssert (t : Nat)
  /-- SAMPLE_MPC (R545). A sample-mode counter of an MPC core wraps and the K12 raises a SAMPLE_MPC event with an instruction address. -/
  | sampleMpc (t n addr : Nat)
  /-- FLUSH_WALKER_VISIT (R212). The flush walker visits a bucket and removes or moves, one at a time, the port's learned entries in it. -/
  | flushWalkerVisit (t id tab b : Nat)
  deriving DecidableEq, Repr

end Sys2Proof
end

