-- ==== Sys2Proof/Config.lean ====
section
/-! DEFINITION. What one K12 fixes and the spec leaves open: fused identity, and the free values. None has a body, so
no proof can lean on a value. -/

namespace Sys2Proof

/-- The k-th free value (notes/assumptions: a value the spec leaves open, applied to State's counter `fresh`). -/
opaque Config.freeNat (k : Nat) : Nat

/-- The 64-bit unique device number fused at manufacture (R30). -/
opaque Config.udn : BitVec 64

/-- The ordering code fuse: false VZK12-S, true VZK12-L (R1, R30). -/
opaque Config.ordering : Bool

/-- The nearest rate that the K12 can represent to a set rate in b/s (R148, R258: within 0.01 %, which one is left open). -/
opaque Config.rateOf (r : Nat) : Nat

/-- Whether IPv4 packets with options are punted for a lookup class (R145 leaves to the interface class which are). -/
opaque Config.optionsPunt (cls : Nat) : Bool

/-- The payload rate in b/s of a transport port of a mode (Table 9-4: the spec states no figure). -/
opaque Config.tportRate (mode : Nat) : Nat

/-- The rate in b/s of a packet client in an ODUflex, by its row of Table 3-4 and its slots (R252: no figure stated). -/
opaque Config.clientRate (term slots : Nat) : Nat

/-- A header field that an encapsulation writes and the spec does not state: by kind of encapsulation, field and flow
hash (R153: entropy label, SRv6 source address, flow label, outer TTL or hop limit of the pipe mode). -/
opaque Config.encapField (kind field hash : Nat) : Nat

/-- The hash of a VOQ that chooses the lane of its control messages (R314: "the VOQ's hash", no function stated). -/
opaque Config.voqLane (queue : Nat) : Nat

/-- The load fraction of a power domain in a tide, in 1/1000, by domain and tide (R496, Table 18-4: how POWER.STATUS
measures load is not stated). -/
opaque Config.loadOf (dom tide : Nat) : Nat

/-- The seed of a slice's LFSR, made from the unique device number (R263: how is not stated). -/
opaque Config.lfsrSeed (slice : Nat) : Nat

/-- The run time in us of a pattern set of a self-test slice (R506: only set 0's bound of 2 ms is stated). -/
opaque Config.setTime (slice set : Nat) : Nat

/-- Whether the public key of an authorisation block hashes to the fused authorisation key and its signature is valid
(R501; ECDSA P-384 and SHA-384 are those standards'). -/
opaque Config.authValid (block : List Word) : Bool

/-- The fused AVS base of a die in uV (R558). -/
opaque Config.avsBase (rail : Nat) : Nat

/-- The ring-oscillator monitors' offset of a die in uV at its k-th recomputation (R558). -/
opaque Config.avsOffset (rail k : Nat) : Nat

/-- What the K12's configuration space holds at a key, 4,096 x function + offset: the PCI Express base specification
gives its layout, this one does not (R417). -/
opaque Config.pcieConfig (key : Nat) : Nat

/-- How TWIN_FAILED and TAKEOVER write a detector of Table 14-9 (Table 14-12 states no codes): 1 release, 2 heartbeat,
3 manifest, 4 none. -/
opaque Config.detectorCode (d : Nat) : Nat

/-- How MOORING_FAULT writes a line, 0 MOOR_A or 1 MOOR_B (Table 14-12 states no codes). -/
opaque Config.mooringLine (line : Nat) : Nat

/-- Whether the Poisson detection of G.783 at 10^-x finds a signal of an SDH layer errored after a second with so many BIP
violations, `was` whether it did before (R94: the thresholds are G.783's). -/
opaque Config.poisson (layer x : Nat) (was : Bool) (bip : Nat) : Bool

/-- The offset, 10^-9, of the clock recovered in differential timing, before its clamp: from the offset in force and the time
base counts that a number of frames took (R118: the loop is not stated). -/
opaque Config.recoverDiff (rate : Int) (frames ticks : Nat) : Int

/-- The same in adaptive timing, from the offset in force and the fill of the playout buffer (R118). -/
opaque Config.recoverAdapt (rate : Int) (fill : Nat) : Int

/-- How many labels a terminate action's record pops, from its words 0 and 1 (Table 5-8: at most 3 per pass, no field). -/
opaque Config.popCount (w0 target : Nat) : Nat

/-- The VRF of the context that a terminate action hands a packet to, from its record's words 0 and 1 and the VRF so far
(R144: no field names a context). -/
opaque Config.contextVrf (w0 target vrf : Nat) : Nat

/-- The forwarding domain of that context (R144). -/
opaque Config.contextDom (w0 target dom : Nat) : Nat

/-- Whether an SRv6 encapsulation is H.Encaps.Red (Table 5-8 has both, ENCAP.CREATE no field for the choice). -/
opaque Config.srReduced (encap : Nat) : Bool

/-- Whether an ESI label is that of the Ethernet segment a next-hop leads to (Table 5-8: no table of segments). -/
opaque Config.esiSplit (label nextHop : Nat) : Bool

/-- Where in the commit version area the old words of a changed Dill entry are held, by its key (Table 6-2; R162 does not say
how places are given). -/
opaque Config.versionIndex (key : Nat) : Nat

/-- How long the k-th queue that moves between two queue-manager slices is in transfer, 2^-16 ns: at most 40 ns (R272). -/
opaque Config.sliceMove (k : Nat) : Nat

/-- How RECOVERY_CLAMP writes the sign of the offset (Table 4-8 states no codes). -/
opaque Config.clampSign (negative : Bool) : Nat

end Sys2Proof
end

