-- ==== Sys2Proof/Machine/Bits.lean ====
section
/-! DEFINITION. Bit fields, byte order and keyed tables: the helpers every other file of the machine uses.
A field is written [msb:lsb] (spec/00_scope.md, "Bits, fields and byte order"); a field wider than 32 bits has its
low 32 bits in the word at the lower offset (R2). -/

namespace Sys2Proof.Machine

open Sys2Proof

/-- Field [hi:lo] of a number. -/
def bits (x hi lo : Nat) : Nat := x / 2 ^ lo % 2 ^ (hi + 1 - lo)

/-- Bit i of a number. -/
def bit (x i : Nat) : Bool := x / 2 ^ i % 2 == 1

/-- 1 for true, 0 for false. -/
def b2n (b : Bool) : Nat := if b then 1 else 0

/-- A number as a 32-bit word (its low 32 bits). -/
def toWord (n : Nat) : Word := BitVec.ofNat 32 n

/-- Word i of a request block; a word past its end reads as 0. -/
def wd (q : List Word) (i : Nat) : Nat := (q.getD i 0#32).toNat

/-- Field [hi:lo] of request word i. -/
def fld (q : List Word) (i hi lo : Nat) : Nat := bits (wd q i) hi lo

/-- Bit b of request word i. -/
def flag (q : List Word) (i b : Nat) : Bool := bit (wd q i) b

/-- A 64-bit field in words i and i + 1, low half first (R2). -/
def wd64 (q : List Word) (i : Nat) : Nat := wd q i + 2 ^ 32 * wd q (i + 1)

/-- A number as k words, low word first (R2). -/
def toWords (n : Nat) : Nat → List Word
  | 0 => []
  | k + 1 => toWord n :: toWords (n / 2 ^ 32) k

/-- The two's complement value of a field of the given width. -/
def signed (width x : Nat) : Int := if x < 2 ^ (width - 1) then x else (x : Int) - 2 ^ width

/-- The two's complement code of an integer in a field of the given width. -/
def unsigned (width : Nat) (x : Int) : Nat := (x % (2 ^ width : Int)).toNat

/-- A number as k bytes, least significant first (event payloads, spec/15_host_pcie.md, R424). -/
def leBytes (n : Nat) : Nat → List Byte
  | 0 => []
  | k + 1 => BitVec.ofNat 8 n :: leBytes (n / 256) k

/-- The number that little-endian bytes spell. -/
def leNat : List Byte → Nat
  | [] => 0
  | b :: bs => b.toNat + 256 * leNat bs

/-- The number that bytes spell, most significant byte first (R3). -/
def beNat (bs : List Byte) : Nat := bs.foldl (fun a b => a * 256 + b.toNat) 0

/-- A number as k bytes, most significant first (R3). -/
def beBytes (n k : Nat) : List Byte := (leBytes n k).reverse

/-- Bytes packed into words, byte 0 in bits [7:0] of the first (R2). -/
def packWords : List Byte → List Word
  | a :: b :: c :: d :: r => toWord (leNat [a, b, c, d]) :: packWords r
  | [] => []
  | r => [toWord (leNat r)]

/-- The bytes of words, least significant byte of each first. -/
def wordBytes (ws : List Word) : List Byte := ws.flatMap fun w => leBytes w.toNat 4

/-- ⌈a ÷ b⌉, and 0 for b = 0. -/
def ceilDiv (a b : Nat) : Nat := (a + b - 1) / b

/-- The first n naturals from a. -/
def rangeFrom (a n : Nat) : List Nat := List.range' a n

/-! ### Keyed tables: lists of key and value, keys strictly rising -/

/-- A table kept as a list of keys and values, in rising order of key. -/
abbrev Tab (α : Type) := List (Nat × α)

/-- The entry of key k. -/
def tget {α : Type} : Tab α → Nat → Option α
  | [], _ => none
  | (j, v) :: r, k => if j = k then some v else tget r k

/-- The table with key k holding v, the order of keys kept. -/
def tset {α : Type} : Tab α → Nat → α → Tab α
  | [], k, v => [(k, v)]
  | (j, u) :: r, k, v =>
    if k < j then (k, v) :: (j, u) :: r
    else if j = k then (k, v) :: r
    else (j, u) :: tset r k v

/-- The table without key k. -/
def terase {α : Type} (t : Tab α) (k : Nat) : Tab α := t.filter fun e => !(e.1 == k)

/-- The entry of key k, or a value for an absent one. -/
def tgetD {α : Type} (t : Tab α) (k : Nat) (d : α) : α := (tget t k).getD d

/-- Whether key k has an entry. -/
def thas {α : Type} (t : Tab α) (k : Nat) : Bool := (tget t k).isSome

/-- The table with f applied to the entry of key k, unchanged where there is none. -/
def tmodify {α : Type} (t : Tab α) (k : Nat) (f : α → α) : Tab α :=
  match tget t k with
  | some v => tset t k (f v)
  | none => t

/-- The table with every value changed. -/
def tmap {α : Type} (t : Tab α) (f : Nat → α → α) : Tab α := t.map fun e => (e.1, f e.1 e.2)

/-- The lowest number from a to a + n − 1 that satisfies p. -/
def lowest (a n : Nat) (p : Nat → Bool) : Option Nat := (List.range' a n).find? p

/-- The lowest key below n that a table does not hold, found by walking the rising keys (no search of all numbers). -/
def lowestFree {α : Type} (t : Tab α) (n : Nat) : Option Nat :=
  let k := t.foldl (fun a e => if e.1 == a then a + 1 else a) 0
  if k < n then some k else none

/-- The lowest number below n that is neither a key of the table nor in the list of reserved numbers. -/
def lowestFreeBut {α : Type} (t : Tab α) (used : List Nat) (n : Nat) : Option Nat :=
  lowestFree (used.foldl (fun u k => tset u k ()) (t.map fun e => (e.1, ()))) n

/-- A sparse memory write: the table keyed by address, with an entry equal to what an unlisted address reads as (z)
removed, so that equal memories are equal data. -/
def mset {α : Type} [DecidableEq α] (z : α) (t : Tab α) (k : Nat) (v : α) : Tab α :=
  if v = z then terase t k else tset t k v

/-- Replace element i of a list. -/
def lset {α : Type} (l : List α) (i : Nat) (v : α) : List α := l.set i v

/-- Apply f to element i of a list. -/
def lmod {α : Type} (l : List α) (i : Nat) (f : α → α) : List α :=
  match l[i]? with
  | some v => l.set i (f v)
  | none => l

/-- Saturating increment of a 32-bit count. -/
def satInc32 (n : Nat) : Nat := if n + 1 < 2 ^ 32 then n + 1 else 2 ^ 32 - 1

/-- One byte of the CRC-32C register, reflected (R170). -/
def crc32cByte (c : Nat) (b : Byte) : Nat :=
  (List.range 8).foldl (fun c _ => if c % 2 = 1 then Nat.xor (c / 2) 0x82F63B78 else c / 2) (Nat.xor c b.toNat)

/-- CRC-32C: polynomial 0x1EDC_6F41, reflected, initial value and final XOR 0xFFFF_FFFF (R170). -/
def crc32c (bs : List Byte) : Nat := Nat.xor (bs.foldl crc32cByte 0xFFFFFFFF) 0xFFFFFFFF

/-- CRC-32 of a frame, as the FCS that is sent after it, first byte first (IEEE 802.3, PRESUMED). -/
def fcsOf (bs : List Byte) : List Byte :=
  let c := bs.foldl (fun c b => (List.range 8).foldl (fun c _ =>
    if c % 2 = 1 then Nat.xor (c / 2) 0xEDB88320 else c / 2) (Nat.xor c b.toNat)) 0xFFFFFFFF
  leBytes (Nat.xor c 0xFFFFFFFF) 4

/-- The rounding-down quotient of integers, for phases and drifts. -/
def ifloorDiv (a b : Int) : Int := Int.fdiv a b

end Sys2Proof.Machine
end

