-- ==== Sys2Proof/Machine/StateHost.lean ====
section
/-! DEFINITION. State of the host attachment (spec/15_host_pcie.md) and of the command interface
(spec/16_command_interface.md). A field's docstring ends with [width; rule; reset value]. -/

namespace Sys2Proof.Machine

open Sys2Proof

/-- A byte memory: cells in strictly rising order of address, none equal to what an unlisted address reads as (0). -/
abbrev Memory := List Host.Cell

/-- Interrupt moderation of one source (R421). -/
structure Moderation where
  /-- Count M [12; R421; 0] -/
  m : Nat := 0
  /-- Time U in microseconds [10; R421; 0] -/
  u : Nat := 0
  /-- Records written and not yet signalled [model's own count for R421; 0] -/
  unsig : Nat := 0
  /-- Elapsed time at which the oldest unsignalled record was written [model's own, R421; 0] -/
  oldest : Nat := 0
  deriving DecidableEq, Repr

/-- A frame on its way to a receive ring (R427, Table 15-6). -/
structure HostFrame where
  /-- Frame bytes without the FCS [R428] -/
  bytes : List Byte
  /-- Receive timestamp [80; Table 15-6] -/
  ts : Nat
  /-- Metadata words 0 to 7 (Table 5-9) [8 x 32; Table 15-6] -/
  md : List Word
  deriving DecidableEq, Repr

/-- A PF1 ring's registers (Table 15-4) and its host-bound FIFO. -/
structure Ring where
  /-- BASE_LO and BASE_HI: buffer or descriptor ring address [64; Table 15-4; 0] -/
  base : Nat := 0
  /-- AUX_LO and AUX_HI: completion ring or head write-back address [64; Table 15-4; 0] -/
  aux : Nat := 0
  /-- CTRL [4:0]: log2 of ring size [5; Table 15-4; 8] -/
  logSize : Nat := 8
  /-- CTRL [14:8]: buffer size in 256-byte units [7; Table 15-4; 8] -/
  bufSize : Nat := 8
  /-- CTRL [31]: Enable [1; Table 15-4; 0] -/
  enable : Bool := false
  /-- TAIL, count posted [32; Table 15-4; 0] -/
  tail : Word := 0#32
  /-- HEAD, count consumed [32; Table 15-4; 0] -/
  head : Word := 0#32
  /-- CMP_PRODUCER, completions written [32; Table 15-4; 0] -/
  cmp : Word := 0#32
  /-- MOD: moderation of the ring's vector [12 and 10; Table 15-4; 0] -/
  mdr : Moderation := {}
  /-- VECTOR: PF1 vector [8; Table 15-2; receive r: r, transmit r: 64 + r] -/
  vector : Nat := 0
  /-- Host-bound FIFO, oldest first, at most 1 MiB of frame bytes [R427; empty] -/
  fifo : List HostFrame := []
  /-- Tide of the last RING_FAULT for a transmit descriptor error, plus 1 [R432; 0: none] -/
  faultTide : Nat := 0
  deriving DecidableEq, Repr

/-- An event record waiting to be written (Table 15-5). -/
structure EventRec where
  /-- Class, the ECS area of the raising subject [7; Table 15-5] -/
  cls : Nat
  /-- Code [16; Table 15-5] -/
  code : Nat
  /-- Unit ID [16; Table 1-4] -/
  unit : Nat
  /-- Tide number [48; Table 15-5] -/
  tide : Nat
  /-- Payload bytes, at most 20 [Table 15-5] -/
  payload : List Byte
  deriving DecidableEq, Repr

/-- One MSI-X vector's table entry and pending bit (R421). -/
structure MsixVec where
  /-- Message address [64; R420] -/
  addr : Nat := 0
  /-- Message data [32; R420] -/
  data : Word := 0#32
  /-- Mask bit of the vector control word [1; R421; 1 PRESUMED (the PCI Express base specification)] -/
  masked : Bool := true
  /-- Pending bit [1; R421; 0] -/
  pend : Bool := false
  deriving DecidableEq, Repr

/-- The PCI Express side of the K12 (spec/15_host_pcie.md, Tables 15-3 and 15-4). -/
structure HostIf where
  /-- SCRATCH [32; Table 15-3; 0] -/
  scratch : Word := 0#32
  /-- MB_DONE [32; Table 15-3; 0] -/
  mbDone : Word := 0#32
  /-- Elapsed time, plus 1, at which hardware last set each MB_DONE bit, by mailbox [model's own clock, R6; none] -/
  doneAt : Tab Nat := []
  /-- EVR_BASE_LO and EVR_BASE_HI [64; Table 15-3; 0] -/
  evrBase : Nat := 0
  /-- EVR_CTRL [4:0], log2 of ring size [5; Table 15-3; 12] -/
  evrLog : Nat := 12
  /-- EVR_CTRL [30], DMA fault [1; Table 15-3; 0] -/
  evrFault : Bool := false
  /-- Elapsed time, plus 1, at which hardware last set the DMA fault [model's own clock, R6; 0: never] -/
  faultAt : Nat := 0
  /-- EVR_CTRL [31], Enable [1; Table 15-3; 0] -/
  evrEnable : Bool := false
  /-- EVR_PRODUCER [32; Table 15-3; 0] -/
  evrProducer : Word := 0#32
  /-- EVR_CONSUMER [32; Table 15-3; 0] -/
  evrConsumer : Word := 0#32
  /-- EVR_MOD [12 and 10; Table 15-3; 0] -/
  evrMod : Moderation := {}
  /-- EVR_LOST, saturating [32; Table 15-3; 0] -/
  evrLost : Word := 0#32
  /-- On-chip event queue, oldest first, at most 4,096 records [R425; empty] -/
  evQueue : List EventRec := []
  /-- Events discarded since the previous EVENTS_LOST [R425; 0] -/
  evDiscarded : Nat := 0
  /-- Timestamp ring address, set by TIME.TSRING_SET [64; R346; 0] -/
  tsrBase : Nat := 0
  /-- Timestamp ring enabled [1; R346, R419; 0] -/
  tsrEnable : Bool := false
  /-- The merger is stopped by a DMA error [1; R433; 0] -/
  tsrStopped : Bool := false
  /-- TSR_PRODUCER [32; Table 15-3; 0] -/
  tsrProducer : Word := 0#32
  /-- TSR_CONSUMER [32; Table 15-3; 0] -/
  tsrConsumer : Word := 0#32
  /-- TSR_MOD [12 and 10; Table 15-3; 0] -/
  tsrMod : Moderation := {}
  /-- LOCK_VIOL, saturating [32; Table 15-3; 0] -/
  lockViol : Word := 0#32
  /-- LINK_STATUS: rate, width, FLIT mode [10; Table 15-3; 0] -/
  linkStatus : Word := 0#32
  /-- DMA_ERR_LO and DMA_ERR_HI [64; Table 15-3; 0] -/
  dmaErr : Nat := 0
  /-- Receive rings 0 to 63 [Table 15-4] -/
  rx : List Ring := (List.range 64).map fun r => { vector := r }
  /-- Transmit rings 0 to 63 [Table 15-4] -/
  tx : List Ring := (List.range 64).map fun r => { vector := 64 + r }
  /-- Ring map: receive ring for each punt reason that is not 0 [256 x 6; R427; every entry 0] -/
  ringMap : Tab Nat := []
  /-- The next transmit ring of the round robin [R432; 0 DESIGN CHOICE (the spec gives none)] -/
  txNext : Nat := 0
  /-- User grants: counter groups, group 0x60 pages as 0x6000 + page [R435; none] -/
  grants : List Nat := []
  /-- MSI-X entries written since reset, keyed 256 x function + vector [R420, R421] -/
  msix : Tab MsixVec := []
  /-- Configuration space words written since reset, keyed 4,096 x function + offset [R418; none] -/
  cfg : Tab Word := []
  /-- Host memory as the K12's DMA writes left it [R424, R428, R432; nothing written] -/
  mem : Memory := []
  /-- The answer to the latest host read or configuration request, on the link [R5, R434, R418; none] -/
  answer : List Word := []
  deriving DecidableEq, Repr

/-- A command whose doorbell has been accepted and that has not completed (R439). -/
structure Accepted where
  /-- Opcode [16; Table 16-2] -/
  op : Nat
  /-- Tag [16; Table 16-2] -/
  tag : Nat
  /-- Transaction handle [32; Table 16-2] -/
  txn : Nat
  /-- The request block as read at the doorbell [R441] -/
  q : List Word
  deriving DecidableEq, Repr

/-- One mailbox beside its RAM (R439 to R448). -/
structure Mailbox where
  /-- The K12 owns the mailbox [1; R439; 0] -/
  owned : Bool := false
  /-- The accepted command that is running [R441; none] -/
  acc : Option Accepted := none
  /-- Its place among the commands accepted since PORST_N [model's own, R443; 0] -/
  seq : Nat := 0
  /-- The response of the running command is discarded [1; R419; 0] -/
  discard : Bool := false
  /-- Area mask, bit a for area a [22; R448; 0x003F_FFFE at firmware ready] -/
  mask : Nat := 0x003FFFFE
  /-- Reading-only flag [1; R448; 0] -/
  readOnly : Bool := false
  /-- Tide of the last MAILBOX_LOCK, plus 1 [R440; 0: none] -/
  lockTide : Nat := 0
  deriving DecidableEq, Repr

/-- A staged command (R454). -/
structure StagedOp where
  /-- Opcode [16; R454] -/
  op : Nat
  /-- Request block [R453] -/
  q : List Word
  /-- The handle that a staged create reserved, or 0 [32; R454] -/
  reserved : Nat
  /-- Handles the command names, which count as references [R454] -/
  refs : List Nat
  deriving DecidableEq, Repr

/-- An object of a transaction (Table 16-7) and what has touched it since it was first staged. -/
structure TxnObj where
  /-- The object's key (Table 16-7) -/
  key : List Nat
  /-- A direct command that changes it completed [R458] -/
  direct : Bool
  /-- Transactions whose TXN.COMMIT named it and has not failed [R458] -/
  commits : List Nat
  deriving DecidableEq, Repr

/-- A transaction that is open, preparing or prepared (R453 to R457). -/
structure Txn where
  /-- 0 open, 1 preparing, 2 prepared [R457] -/
  phase : Nat := 0
  /-- Staged commands in staging order [R443] -/
  ops : List StagedOp := []
  /-- Staged operations, a TABLE.CMDLIST counting one for each record [R453] -/
  count : Nat := 0
  /-- Staged request bytes [R453] -/
  bytes : Nat := 0
  /-- Objects of the transaction [R458] -/
  objs : List TxnObj := []
  /-- Commit tide C while preparing with a fixed C, or prepared [64; R456] -/
  c : Nat := 0
  /-- C is fixed (named, or fixed at the start of preparation for a gate list) [R456] -/
  named : Bool := false
  /-- The mailbox of the running TXN.COMMIT, or 32 on a standby [R456] -/
  mb : Nat := 0
  /-- Partition size that its admission fixed [19; R302; none where none ran] -/
  part : Option Nat := none
  /-- Cells moved into the partition for it [R236; none] -/
  moved : List Nat := []
  /-- Bounds that its admission proved, by stream [R298; none] -/
  bounds : Tab (List Nat) := []
  /-- Old versions that its commit keeps [21; R162; 0] -/
  olds : Nat := 0
  /-- This unit's verdict on the commit, and the twin's, each a status and a response block [R392; none yet] -/
  own : Option (Nat × List Word) := none
  twin : Option (Nat × List Word) := none
  deriving DecidableEq, Repr

/-- One of the eight transaction slots (R453). -/
structure TxnSlot where
  /-- Generation of the latest handle [21; spec/16, Transactions; 0] -/
  gen : Nat := 0
  /-- The slot has been taken since PORST_N [1; spec/16, Transactions; 0] -/
  used : Bool := false
  /-- The transaction that holds the slot [R453; none] -/
  cur : Option Txn := none
  deriving DecidableEq, Repr

/-- The command interface (spec/16_command_interface.md). -/
structure Ecs where
  /-- Mailboxes 0 to 31 [R438] -/
  mbs : List Mailbox := List.replicate 32 {}
  /-- Mailbox RAM: mailbox m at bytes 4,096 x m [32 x 4 KiB; R438; unlisted bytes read 0, DESIGN CHOICE] -/
  mem : Memory := []
  /-- Transaction slots 0 to 7 [R453; all free] -/
  slots : List TxnSlot := List.replicate 8 {}
  /-- Handles reserved by staged creates, each with its transaction [R454; none] -/
  reserved : List (Nat × Nat) := []
  /-- Commands accepted since PORST_N [model's own, R443; 0] -/
  accepts : Nat := 0
  deriving DecidableEq, Repr

end Sys2Proof.Machine
end

