-- ==== Sys2Proof/Machine/Memory.lean ====
section
/-! DEFINITION. Reads and writes of the byte memories (mailbox RAM, host memory, HBM contents), little-endian by word
(R2). An address with no cell reads as 0. -/

namespace Sys2Proof.Machine

open Sys2Proof

/-- One byte of a memory; an unlisted byte reads as 0 (DESIGN CHOICE, notes/assumptions). -/
def mread (m : Memory) (a : Nat) : Byte := tgetD m a 0#8

/-- Write one byte; a byte that an unlisted address reads as is not listed. -/
def mwrite (m : Memory) (a : Nat) (b : Byte) : Memory := mset 0#8 m a b

/-- Write bytes from an address on. -/
def mwriteBytes (m : Memory) (a : Nat) : List Byte → Memory
  | [] => m
  | b :: bs => mwriteBytes (mwrite m a b) (a + 1) bs

/-- Read n bytes from an address on. -/
def mreadBytes (m : Memory) (a n : Nat) : List Byte := (List.range' a n).map (mread m)

/-- A word of a memory, little-endian (R2). -/
def mreadWord (m : Memory) (a : Nat) : Word := toWord (leNat (mreadBytes m a 4))

/-- Write a word, little-endian (R2). -/
def mwriteWord (m : Memory) (a : Nat) (w : Word) : Memory := mwriteBytes m a (leBytes w.toNat 4)

/-- Write words from an address on. -/
def mwriteWords (m : Memory) (a : Nat) (ws : List Word) : Memory := mwriteBytes m a (wordBytes ws)

/-- Read n words from an address on. -/
def mreadWords (m : Memory) (a n : Nat) : List Word := (List.range n).map fun i => mreadWord m (a + 4 * i)

/-- Whether keys rise strictly. -/
def risesFrom {α : Type} : Nat → List (Nat × α) → Bool
  | _, [] => true
  | lo, (a, _) :: r => decide (lo ≤ a) && risesFrom (a + 1) r

/-- The canonical form of a memory: addresses strictly rising, and no cell equal to what an unlisted byte reads as. -/
def Memory.wf (m : Memory) : Bool := risesFrom 0 m && m.all fun c => !(c.2 == 0#8)

end Sys2Proof.Machine
end

