-- ==== Sys2Proof/Machine/StateCircuit.lean ====
section
/-! DEFINITION. State of the E1 circuits (spec/04_circuit_emulation.md).
A field's docstring ends with [width; rule; reset value]. -/

namespace Sys2Proof.Machine

/-- A circuit per-second record (Table 4-5). -/
structure CircuitRec where
  /-- Packets lost [32; Table 4-5; 0] -/
  lost : Nat := 0
  /-- Packets late [16; Table 4-5; 0] -/
  late : Nat := 0
  /-- Packets malformed [16; Table 4-5; 0] -/
  malformed : Nat := 0
  /-- Playout slips, repeat [16; Table 4-5; 0] -/
  rep : Nat := 0
  /-- Playout slips, discard [16; Table 4-5; 0] -/
  dis : Nat := 0
  /-- Ingress slips, repeat [16; Table 4-5; 0] -/
  irep : Nat := 0
  /-- Ingress slips, discard [16; Table 4-5; 0] -/
  idis : Nat := 0
  /-- Frames played as idle [16; Table 4-5; 0] -/
  idle : Nat := 0
  /-- Lowest fill at playout instants [7; Table 4-5; 127 until sampled, DESIGN CHOICE] -/
  low : Nat := 127
  /-- Highest fill [7; Table 4-5; 0] -/
  high : Nat := 0
  /-- LOPS declared during the second [1; Table 4-5; 0] -/
  lops : Bool := false
  /-- L received [1; Table 4-5; 0] -/
  l : Bool := false
  /-- R received [1; Table 4-5; 0] -/
  r : Bool := false
  /-- Buffer restart [1; Table 4-5; 0] -/
  restart : Bool := false
  /-- Unlocked second [1; R42; 0] -/
  unlocked : Bool := false
  /-- Incomplete [1; R101; 1 in the first record] -/
  incomplete : Bool := true
  /-- Saturated [1; R101; 0] -/
  saturated : Bool := false
  /-- First tide of the second [64; Table 4-5] -/
  first : Nat := 0
  deriving DecidableEq, Repr

/-- What CIRCUIT.CREATE and CIRCUIT.SET set (Table 4-6, words 1 to 7). -/
structure CircuitCfg where
  /-- Format: false SAToP, true CESoPSN [1; R111] -/
  cesop : Bool
  /-- Timing mode: 0 frame-aligned, 1 differential, 2 adaptive [2; Table 4-3] -/
  timing : Nat
  /-- RTP header [1; R115] -/
  rtp : Bool
  /-- RTP timestamp clock: false 8 kHz, true 19.44 MHz [1; R115] -/
  rtpFast : Bool
  /-- Frames per packet N [7; R113] -/
  n : Nat
  /-- Playout capacity C [7; R122] -/
  c : Nat
  /-- Start fill F [7; R122] -/
  f : Nat
  /-- Idle byte [8; R126] -/
  idle : Nat
  /-- CESoPSN timeslot bitmap [32; Table 4-6] -/
  slots : Nat
  /-- Pseudowire label sent [20; Table 4-6] -/
  label : Nat
  /-- TC [3; Table 4-6] -/
  tc : Nat
  /-- TTL [8; Table 4-6] -/
  ttl : Nat
  /-- Next-hop handle [32; Table 4-6] -/
  nh : Nat
  /-- Initial sequence number [16; R114] -/
  seq0 : Nat
  /-- LOPS threshold [11; R125] -/
  lopsThr : Nat
  /-- RTP SSRC [32; R115] -/
  ssrc : Nat
  /-- RTP payload type [7; R115] -/
  pt : Nat
  deriving DecidableEq, Repr

/-- A frame on its way into a packet (R112, R116). -/
structure TdmFrame where
  /-- The bytes a packet carries: 32 in SAToP, one for each selected timeslot in CESoPSN [R112] -/
  bytes : List Byte
  /-- Taken while SF or a loss of E1 frame alignment stood [1; R117] -/
  l : Bool
  /-- The 19.44 MHz count of the time base at which it was taken [32; R115] -/
  stamp : Nat
  deriving DecidableEq, Repr

/-- A circuit, keyed by its index (R109). -/
structure Circuit where
  /-- Bound VC-12 path or group handle, 0 unbound [32; R109] -/
  bound : Nat
  /-- Settings in force [Table 4-6] -/
  cfg : CircuitCfg
  /-- Settings that await the next tide [R129; none] -/
  pendCfg : Option CircuitCfg := none
  /-- Enabled [1; R129; 0] -/
  enabled : Bool := false
  /-- CIRCUIT.ENABLE or DISABLE that awaits the next tide boundary [Table 4-7; none] -/
  pendEn : Option Bool := none
  /-- Sequence number of the next packet sent, the initial one until a packet has been sent [16; R114; none sent] -/
  txSeq : Option Nat := none
  /-- Count of frames taken for packets, for the RTP timestamp [R115; 0] -/
  txFrames : Nat := 0
  /-- Frames collected for the next packet, oldest first [R116; none] -/
  coll : List TdmFrame := []
  /-- Ingress store, oldest first, at most 2 frames [R120; none] -/
  store : List TdmFrame := []
  /-- Last frame taken by the packetiser [R120; none] -/
  taken : Option TdmFrame := none
  /-- Next expected extended sequence number [R121; none received] -/
  exp : Option Int := none
  /-- Playout pointer P [64; R121; 0] -/
  p : Int := 0
  /-- Frames held, by position [R122; none] -/
  held : List (Int × List Byte) := []
  /-- Playing [1; R122; 0] -/
  playing : Bool := false
  /-- Last frame played since the start [R122; none] -/
  last : Option (List Byte) := none
  /-- Frame-aligned: the frame of the running tide has been played [1; R119; 1] -/
  played : Bool := true
  /-- The next generated TS0 is an NFAS [1; R112; 0] -/
  nfas : Bool := false
  /-- Playout instants since a packet was accepted [R125; 0] -/
  quiet : Nat := 0
  /-- Elapsed time at which a packet was last accepted, or the circuit enabled [R125; 0] -/
  heard : Nat := 0
  /-- LOPS declared [1; R125; 0] -/
  lops : Bool := false
  /-- L received last [1; Table 4-7; 0] -/
  lLast : Bool := false
  /-- E1 frame alignment lost [1; R112; 0] -/
  noAlign : Bool := false
  /-- The next frame received is due to carry the FAS, none until one has been seen [R112; none] -/
  fasDue : Option Bool := none
  /-- Consecutive incorrect FAS received [2; R112; 0] -/
  fasBad : Nat := 0
  /-- Frames of the recovery sequence seen while alignment is lost [2; R112; 0] -/
  hunt : Nat := 0
  /-- Offset of the recovered E1 clock from 2.048 Mb/s, 10^-9, within +-50,000 [R118; 0] -/
  rate : Int := 0
  /-- Position and RTP timestamp of the packet accepted last [R118; none] -/
  rtpLast : Option (Int × Nat) := none
  /-- The recovered clock is clamped [1; R118; 0] -/
  clamped : Bool := false
  /-- It was clamped in the running tide [1; R118; 0] -/
  clampTide : Bool := false
  /-- Phase that the recovered clock has gained on the mapper since its last justification, 10^-9 bit [R118; 0] -/
  phase : Int := 0
  /-- Counters are in clear-on-read mode [1; R127; 1] -/
  clearMode : Bool := true
  /-- CIRCUIT_SLIP has been raised in this PM second [1; R130; 0] -/
  slipped : Bool := false
  /-- The running per-second record [R128] -/
  cur : CircuitRec := {}
  /-- Retained records, oldest first, at most 900 [R128; none] -/
  recs : List CircuitRec := []
  deriving DecidableEq, Repr

end Sys2Proof.Machine
end

