-- ==== Sys2Proof/Machine/StateFwd.lean ====
section
/-! DEFINITION. State of the forwarding pipelines (spec/05_forwarding_pipeline.md): packets and their metadata, the
versioned forwarding configuration, slots and policers. A field's docstring ends with [width; rule; reset value]. -/

namespace Sys2Proof.Machine

open Sys2Proof

/-- The metadata of a packet (Table 5-9). -/
structure Meta where
  /-- Host-injected [1; Table 5-9] -/
  injected : Bool := false
  /-- From circuit [1; Table 5-9] -/
  fromCkt : Bool := false
  /-- Pass count, 0 to 3 [2; Table 5-9] -/
  pass : Nat := 0
  /-- Mirror copy [1; Table 5-9] -/
  mirror : Bool := false
  /-- Colour: 0 green, 1 yellow, 2 red [2; Table 5-9] -/
  colour : Nat := 0
  /-- Traffic class [3; Table 5-9] -/
  cls : Nat := 0
  /-- Deterministic class [1; Table 5-9] -/
  det : Bool := false
  /-- Parse exception [1; R138] -/
  exc : Bool := false
  /-- Oversize-truncated [1; R62] -/
  trunc : Bool := false
  /-- Egress epoch [1; R154] -/
  egEpoch : Bool := false
  /-- Ingress epoch [1; R154] -/
  inEpoch : Bool := false
  /-- Packet client index [8; Table 5-9] -/
  client : Nat := 0
  /-- Source is a packet client [1; Table 5-9] -/
  isClient : Bool := false
  /-- Source port [6; Table 5-9] -/
  port : Nat := 0
  /-- Frame length, bytes, with the FCS [14; Table 5-9] -/
  len : Nat := 0
  /-- Destination system port [16; Table 5-9] -/
  dsp : Nat := 0
  /-- Punt reason [8; Table 5-10] -/
  reason : Nat := 0
  /-- Queue ID [20; R248] -/
  queue : Nat := 0
  /-- R-TAG, C-tag and S-tag actions: 0 KEEP, 1 POP, 2 PUSH, 3 REPLACE [3 x 2; R65] -/
  rTag : Nat := 0
  cTag : Nat := 0
  sTag : Nat := 0
  /-- Egress edit index [24; R153] -/
  edit : Nat := 0
  /-- S-tag control information: DEI [15], PCP [14:12], VID [11:0] as word 4 [31:16] holds it [16; Table 5-9] -/
  sTci : Nat := 0
  /-- C-tag control information, word 4 [15:0] [16; Table 5-9] -/
  cTci : Nat := 0
  /-- Flow hash h[31:16] [16; R146] -/
  hash : Nat := 0
  /-- R-TAG sequence number [16; R283] -/
  rSeq : Nat := 0
  /-- Replicated sequence number of hawser records [13; R397] -/
  repSeq : Nat := 0
  /-- Stream valid [1; Table 5-9] -/
  sValid : Bool := false
  /-- Stream index [18; Table 5-9] -/
  stream : Nat := 0
  /-- Arrival time, ns modulo 2^32 [32; R339] -/
  arrival : Nat := 0
  deriving DecidableEq, Repr

/-- The eight words of the metadata (Table 5-9). -/
def Meta.words (m : Meta) : List Word :=
  [toWord (b2n m.injected * 2 ^ 29 + b2n m.fromCkt * 2 ^ 28 + m.pass % 4 * 2 ^ 26 + b2n m.mirror * 2 ^ 25
      + m.colour % 4 * 2 ^ 23 + m.cls % 8 * 2 ^ 20 + b2n m.det * 2 ^ 19 + b2n m.exc * 2 ^ 18 + b2n m.trunc * 2 ^ 17
      + b2n m.egEpoch * 2 ^ 16 + b2n m.inEpoch * 2 ^ 15 + m.client % 256 * 2 ^ 7 + b2n m.isClient * 2 ^ 6 + m.port % 64),
   toWord (m.len % 2 ^ 14 * 2 ^ 16 + m.dsp % 2 ^ 16),
   toWord (m.reason % 256 * 2 ^ 20 + m.queue % 2 ^ 20),
   toWord (m.rTag % 4 * 2 ^ 28 + m.cTag % 4 * 2 ^ 26 + m.sTag % 4 * 2 ^ 24 + m.edit % 2 ^ 24),
   toWord (m.sTci % 2 ^ 16 * 2 ^ 16 + m.cTci % 2 ^ 16),
   toWord (m.hash % 2 ^ 16 * 2 ^ 16 + m.rSeq % 2 ^ 16),
   toWord (m.repSeq % 2 ^ 13 * 2 ^ 19 + b2n m.sValid * 2 ^ 18 + m.stream % 2 ^ 18),
   toWord m.arrival]

/-- The metadata that eight words spell (Table 5-9). -/
def Meta.ofWords (q : List Word) : Meta :=
  { injected := flag q 0 29, fromCkt := flag q 0 28, pass := fld q 0 27 26, mirror := flag q 0 25,
    colour := fld q 0 24 23, cls := fld q 0 22 20, det := flag q 0 19, exc := flag q 0 18, trunc := flag q 0 17,
    egEpoch := flag q 0 16, inEpoch := flag q 0 15, client := fld q 0 14 7, isClient := flag q 0 6, port := fld q 0 5 0,
    len := fld q 1 29 16, dsp := fld q 1 15 0, reason := fld q 2 27 20, queue := fld q 2 19 0, rTag := fld q 3 29 28,
    cTag := fld q 3 27 26, sTag := fld q 3 25 24, edit := fld q 3 23 0, sTci := fld q 4 31 16, cTci := fld q 4 15 0,
    hash := fld q 5 31 16, rSeq := fld q 5 15 0, repSeq := fld q 6 31 19, sValid := flag q 6 18, stream := fld q 6 17 0,
    arrival := wd q 7 }

/-- A packet inside the K12. -/
structure Pkt where
  /-- Frame bytes without the FCS [R136] -/
  bytes : List Byte
  /-- Metadata [8 x 32; R157] -/
  md : Meta
  /-- Receive timestamp, layout of Table 12-1 [80; R339] -/
  ts : Nat := 0
  /-- Priority in the octet ingress buffer [3; R133] -/
  prio : Nat := 0
  /-- Pre-classed [1; R133] -/
  pre : Bool := false
  /-- Elapsed time at which it came to where it waits [model's own clock, R133, R266] -/
  since : Nat := 0
  /-- Bytes of outer headers that the egress half removes [8; R153] -/
  strip : Nat := 0
  /-- EtherType of what follows the removed headers [16; R153] -/
  inner : Nat := 0
  /-- A policer remarked it: the value for DSCP, PCP or MPLS TC [3; R151; none] -/
  remark : Option Nat := none
  /-- Congestion mark [1; R264] -/
  mark : Bool := false
  /-- The copies whose existence, kind, tail and WRED checks have passed: metadata, queue and congestion mark
  [R261; not checked yet] -/
  plan : Option (List (Meta × Nat × Bool)) := none
  /-- Pool client that holds its buffers [3; R226] -/
  owner : Nat := 0
  /-- Buffers or cells that hold it [27 or 19 each; R224] -/
  bufs : List Nat := []
  /-- HBM buffers from which the local turnaround has yet to copy it: their VOQ, their client and themselves [R226; none] -/
  hbm : Option (Nat × Nat × List Nat) := none
  /-- The stream unit has handled it [1; R280] -/
  unit : Bool := false
  /-- One-step insertion requested [1; R343] -/
  oneStep : Bool := false
  /-- Transmit capture requested, with its capture ID [16; R343] -/
  cap : Option Nat := none
  /-- A packet Enenhild or a circuit originated, with its next-hop already chosen [1; R116] -/
  own : Bool := false
  /-- Scheduled start on a gated port, linear 2^-16 ns [80; R289; not gated] -/
  start : Option Nat := none
  /-- Time-base value at which its last bit reached the receive PCS, linear 2^-16 ns [80; R280] -/
  last : Nat := 0
  /-- The packet client it leaves by, on a transport port [8; R252; none] -/
  outClient : Option Nat := none
  /-- Per-port sequence number of its source port, or its replicated number on a D-mode standby [48; R397; none] -/
  seq : Option Nat := none
  /-- FCS that it was received with [32; R399; 0] -/
  fcs : Nat := 0
  /-- Decision record without its sequence number, of a deterministic frame that is still to be replicated [8 x 32; R398; none] -/
  dec : Option (List Word) := none
  /-- It came by the hawser as a replicated frame [1; R386] -/
  rep : Bool := false
  /-- The VOQ it has left, for its completion [20; R403; none] -/
  voq : Option Nat := none
  /-- Metadata of the further copies that TD ingress makes of it [R143, R230] -/
  also : List Meta := []
  /-- Its place in the order of arrival of its octet, plus 1 [model's own, R131; 0: it came by no line] -/
  ord : Nat := 0
  /-- The pipeline that it was dealt to [4; R131] -/
  pipe : Nat := 0
  /-- VRF and forwarding domain of the context that a termination handed it to [16 and 20; R144; none] -/
  ctx : Option (Nat × Nat) := none
  /-- The ESI label that a termination popped [20; R145; none] -/
  esi : Option Nat := none
  deriving DecidableEq, Repr

/-- An interface record (Table 5-7). -/
structure IfRec where
  /-- Valid [1; Table 5-7; 0] -/
  valid : Bool := false
  /-- Lookup class [4; Table 5-7; 0] -/
  cls : Nat := 0
  /-- VRF [16; Table 5-7; 0] -/
  vrf : Nat := 0
  /-- Forwarding domain [20; Table 5-7; 0] -/
  dom : Nat := 0
  deriving DecidableEq, Repr

/-- A lookup program (R141, R195). -/
structure Prog where
  /-- Sorrel key profile [8; R141; none] -/
  sorrel : Option Nat := none
  /-- Dill lookup 1: table and key profile [8 and 8; R141; none] -/
  dill1 : Option (Nat × Nat) := none
  /-- Dill lookup 2: table and key profile [8 and 8; R141; none] -/
  dill2 : Option (Nat × Nat) := none
  /-- Lookup 2 only when lookup 1 misses [1; R141; 0] -/
  onMiss : Bool := false
  /-- Sage key profile and segment group [8 and 4; R141; none] -/
  sage : Option (Nat × Nat) := none
  /-- Miss action, action record word 0 [32; Table 5-12; 0] -/
  miss : Nat := 0
  /-- Counter [26; R141; none] -/
  ctr : Option Nat := none
  /-- Learning, with the source key profile [8; R195; none] -/
  learn : Option Nat := none
  deriving DecidableEq, Repr

/-- A next-hop (NH.CREATE, Table 5-12). -/
structure NextHop where
  /-- Destination system port [16; Table 5-12] -/
  dsp : Nat
  /-- Queue base [20; Table 5-12] -/
  qbase : Nat
  /-- Encapsulation handle or null [32; Table 5-12] -/
  encap : Nat
  /-- Destination MAC, first transmitted byte most significant [48; R581] -/
  dmac : Nat
  /-- VID [12; Table 5-12] -/
  vid : Nat
  /-- Tag directive [2; Table 5-12] -/
  dir : Nat
  deriving DecidableEq, Repr

/-- An encapsulation (ENCAP.CREATE, Table 5-12). -/
structure Encap where
  /-- Kind: 1 MPLS, 2 SRv6, 3 EVPN, 4 DetNet [4; Table 5-12] -/
  kind : Nat
  /-- Labels or SIDs [4; Table 5-12] -/
  count : Nat
  /-- Pipe TTL [1; Table 5-12] -/
  pipe : Bool
  /-- Entropy label [1; Table 5-12] -/
  entropy : Bool
  /-- Label or SID words: 12 labels or 10 SIDs at most [40 x 32; Table 5-12] -/
  ws : List Word
  deriving DecidableEq, Repr

/-- An action record (Table 5-6). -/
structure Action where
  /-- Words 0 to 3 [4 x 32; Table 5-6] -/
  w : List Word
  deriving DecidableEq, Repr

/-- Settings of a policer (Table 5-11). -/
structure PolCfg where
  /-- Mode: false srTCM, true trTCM [1; Table 5-11; 0] -/
  tr : Bool := false
  /-- Colour-aware [1; Table 5-11; 0] -/
  aware : Bool := false
  /-- Deterministic [1; Table 5-11; 0] -/
  det : Bool := false
  /-- Actions for green, yellow and red: 0 pass, 1 remark, 2 drop [3 x 2; Table 5-11; 0, 0, 2] -/
  green : Nat := 0
  yellow : Nat := 0
  red : Nat := 2
  /-- Length adjustment [7 signed; Table 5-11; 0] -/
  adj : Int := 0
  /-- Stored CIR, b/s [64; Table 5-11; 0] -/
  cir : Nat := 0
  /-- Stored PIR, b/s [64; Table 5-11; 0] -/
  pir : Nat := 0
  /-- CBS, bytes [25; Table 5-11; 0] -/
  cbs : Nat := 0
  /-- EBS or PBS, bytes [25; Table 5-11; 0] -/
  ebs : Nat := 0
  /-- Remark map, class 0 in [2:0] [24; Table 5-11; identity] -/
  remap : Nat := 0xFAC688
  deriving DecidableEq, Repr

/-- Token counts of a policer (R149). -/
structure PolTok where
  /-- tc, 2^-16 byte [41; R149; 0 DESIGN CHOICE (the spec gives none)] -/
  tc : Nat := 0
  /-- te or tp, 2^-16 byte [41; R149; 0 DESIGN CHOICE (the spec gives none)] -/
  te : Nat := 0
  /-- Time-base value of the last update [80; R149; 0 DESIGN CHOICE (the spec gives none)] -/
  last : Nat := 0
  /-- Remainders res_c and res_p [33 each; R149; 0] -/
  resC : Nat := 0
  resP : Nat := 0
  deriving DecidableEq, Repr

/-- The versioned configuration of the pipelines (R155). -/
structure FwdCfg where
  /-- Parse nodes, 3 words each [256 x 96; Table 5-2; 0] -/
  nodes : Tab (List Word) := []
  /-- Parser transitions, 2 words each [1,024 x 64; Table 5-3; 0] -/
  trans : Tab (List Word) := []
  /-- Extraction descriptors [2,048 x 32; Table 5-4; 0] -/
  extr : Tab (List Word) := []
  /-- Interface records [263,168; R140; invalid] -/
  ifs : Tab IfRec := []
  /-- Key profiles: selector words [256 x 16 x 15; R142; empty] -/
  keys : Tab (List Nat) := []
  /-- Lookup programs [4,096; R141; no lookup] -/
  progs : Tab Prog := []
  /-- Next-hops by index [R145; none] -/
  nhs : Tab NextHop := []
  /-- Encapsulations by index [R145; none] -/
  encaps : Tab Encap := []
  /-- ECMP groups: members and down marks [R146; none] -/
  ecmps : Tab (List (Nat × Bool)) := []
  /-- Action records by index [2,097,152 x 128; R163; none] -/
  actions : Tab Action := []
  /-- Policer settings [1,048,576; R148; Table 5-11 defaults] -/
  pols : Tab PolCfg := []
  deriving DecidableEq, Repr

/-- Parse settings of a port or packet client (R585). -/
structure ParsePort where
  /-- Start node [8; R585; 0] -/
  start : Nat := 0
  /-- Exception action: 0 continue, 1 drop, 2 punt [2; R138; 0] -/
  exc : Nat := 0
  /-- Default priority [3; R585; 0] -/
  prio : Nat := 0
  /-- Default pre-class [1; R585; 0] -/
  pre : Bool := false
  /-- PCP map, 8 x (pre-class, priority) [32; R585; PCP i gives priority i] -/
  map : Nat := 0x76543210
  deriving DecidableEq, Repr

/-- The slots and queues of one pipeline (R131 to R135, R189). -/
structure Pipe where
  /-- HBM read credit, 1/20 read [signed; R134; 0 DESIGN CHOICE (the spec gives none)] -/
  credit : Int := 0
  /-- Throttle tokens, quarter tokens [5; R189; 0 DESIGN CHOICE (the spec gives none)] -/
  tok : Nat := 0
  /-- Slot clocks since the last recirculation turn [6; R134; 0 DESIGN CHOICE (the spec gives none)] -/
  turn : Nat := 0
  /-- Packets of the octet ingress buffer dealt to it, in order of arrival [R131, R133; empty] -/
  waiting : List Pkt := []
  /-- Recirculation queue [R135; empty] -/
  recirc : List Pkt := []
  deriving DecidableEq, Repr

/-- The forwarding die's pipelines. -/
structure FwdSt where
  /-- Profile: 0 LINE, 1 SCALE, 2 TIME [2; R44, R45; LINE] -/
  profile : Nat := 0
  /-- Profile of the slot pattern, from the boundary after PROFILE.SET [2; 0x0601; LINE] -/
  slots : Nat := 0
  /-- Current epoch bit [1; R154; 0 DESIGN CHOICE (the spec gives none)] -/
  epoch : Bool := false
  /-- Versioned configuration of the current epoch [R155] -/
  cfg : FwdCfg := {}
  /-- Old versions that the ingress segment still reads [R156; none] -/
  oldIn : Option FwdCfg := none
  /-- Old versions that the egress segment still reads [R156; none] -/
  oldEg : Option FwdCfg := none
  /-- Parser loads of the prepared transaction, in the inactive bank [R139; none] -/
  bank : Option FwdCfg := none
  /-- Parse settings by port, packet client c at 256 + c [R585] -/
  parse : Tab ParsePort := []
  /-- Pipelines 0 to 15 [R131] -/
  pipes : List Pipe := List.replicate 16 {}
  /-- The next packet of octet k goes to pipeline 2k + 1 [8; R131; 0] -/
  deal : List Bool := List.replicate 8 false
  /-- The next egress packet of octet k goes to pipeline 2k + 1 [8; R131; 0] -/
  dealEg : List Bool := List.replicate 8 false
  /-- Packets dealt to each octet so far [model's own, R131; 0] -/
  arr : List Nat := List.replicate 8 0
  /-- The reorder stage in front of the FD bridge end, in order of arrival [R131; empty] -/
  reorder : List Pkt := []
  /-- Hash seed [32; R146; 0 DESIGN CHOICE (the spec gives none)] -/
  seed : Word := 0#32
  /-- Symmetric hash [1; R146; 0 DESIGN CHOICE (the spec gives none)] -/
  sym : Bool := false
  /-- Recirculation weight W [6; R134; 16] -/
  w : Nat := 16
  /-- Punt policer handles by reason, 0 for none [32 each; R158, R209; null] -/
  punt : Tab Nat := []
  /-- Policer tokens [R149] -/
  toks : Tab PolTok := []
  /-- Statistics counters: packets at 2i, bytes at 2i + 1 [67,108,864 x 128; R152; 0] -/
  stats : Tab Nat := []
  /-- ECMP members excluded, as group x 512 + member [R147; none] -/
  excluded : List Nat := []
  /-- Packets handed to circuits: circuit index and bytes [R144; empty] -/
  toCkt : List (Nat × List Byte) := []
  /-- Packets of the egress segment, with their port [R156; empty] -/
  egress : List (Nat × Pkt) := []
  /-- Edited frames that wait for the MAC of a port [R64, R289; empty] -/
  txq : List (Nat × Pkt) := []
  deriving DecidableEq, Repr

end Sys2Proof.Machine
end

