-- ==== Sys2Proof/Machine/StateDet.lean ====
section
/-! DEFINITION. State of deterministic service (spec/10_deterministic_service.md) and of the fabric interface
(spec/11_fabric_mesh.md). A field's docstring ends with [width; rule; reset value]. -/

namespace Sys2Proof.Machine

open Sys2Proof

/-- A member of a stream (Table 10-7). -/
structure Member where
  /-- Next-hop handle [32; Table 10-7] -/
  nh : Nat
  /-- Egress port [6; Table 10-7] -/
  port : Nat
  /-- Remote [1; Table 10-7] -/
  remote : Bool
  /-- Egress budget E, ns [24; Table 10-7] -/
  e : Nat
  deriving DecidableEq, Repr

/-- What a stream declares (R279, Table 10-7). -/
structure StreamCfg where
  /-- Ingress port [6; Table 10-7] -/
  port : Nat
  /-- Traffic class [3; Table 10-7] -/
  cls : Nat
  /-- Identified through the reserved Sage group [1; Table 10-7] -/
  sage : Bool
  /-- Copies arriving [3; Table 10-7] -/
  copies : Nat
  /-- Sequence generation: 0 none, 1 R-TAG, 2 d-CW [2; Table 10-7] -/
  gen : Nat
  /-- Initial sequence number [16; Table 10-7] -/
  init : Nat
  /-- L_rx, bytes [14; Table 10-7] -/
  lrx : Nat
  /-- n, frames [16; Table 10-7] -/
  n : Nat
  /-- I, ns [30; Table 10-7] -/
  i : Nat
  /-- D, ns [32; Table 10-7] -/
  d : Nat
  /-- Recovery context handle or null [32; Table 10-7] -/
  ctx : Nat
  /-- Members [1 to 4; Table 10-7] -/
  members : List Member
  deriving DecidableEq, Repr

/-- A stream object, keyed by its index (R276). -/
structure Stream where
  /-- Declaration in force [R279] -/
  cfg : StreamCfg
  /-- STREAM.CREATE or STREAM.SET that awaits the next tide boundary [Table 10-7; none] -/
  pend : Option StreamCfg := none
  /-- In effect: created, and its boundary has passed [1; Table 10-7] -/
  live : Bool := true
  /-- Next sequence number [16; R283; initial] -/
  seq : Nat
  /-- Bounds of the members that admission proved last, ns [4 x 32; R298; 0 before a proof] -/
  proved : List Nat := []
  /-- Meter: window number and frames seen in it [R280; 0] -/
  win : Nat := 0
  cnt : Nat := 0
  /-- PM second of the last STREAM_EXCESS and RESERVE_DROP, plus 1 [R307; 0: none] -/
  excessSec : Nat := 0
  reserveSec : Nat := 0
  deriving DecidableEq, Repr

/-- An egress record, keyed by its index (R282). -/
structure EgressRec where
  /-- Egress port [6; R282] -/
  port : Nat
  /-- Egress queue handle [32; R282] -/
  queue : Nat
  /-- L_tx, n, I in ns and E in ns [14, 16, 30, 24; R282] -/
  ltx : Nat
  n : Nat
  i : Nat
  e : Nat
  deriving DecidableEq, Repr

/-- A recovery context, keyed by its index (R284, R285). -/
structure Frer where
  /-- Match algorithm [1; Table 10-1; 0] -/
  mtch : Bool
  /-- History length [7; Table 10-1; 32] -/
  h : Nat
  /-- Take-no-sequence [1; Table 10-1; 0] -/
  takeNo : Bool
  /-- Sequence source: false R-TAG, true d-CW [1; Table 10-1; 0] -/
  dcw : Bool
  /-- Reset timeout, tides [17; Table 10-1; 16] -/
  timeout : Nat
  /-- recov_seq [16; R285; 0] -/
  seq : Nat := 0
  /-- History bitmap [64; R285; 0] -/
  hist : Nat := 0
  /-- take_any [1; R285; 1] -/
  any : Bool := true
  /-- Boundary count at which the reset timer started [R286] -/
  start : Nat := 0
  deriving DecidableEq, Repr

/-- A gate list (R287). -/
structure GateList where
  /-- Gate states and interval in ns of each entry [8 and 30; R287] -/
  entries : List (Nat × Nat)
  /-- Cycle time, ns [30; R287] -/
  cycle : Nat
  /-- Base time, linear 2^-16 ns [80; R293] -/
  base : Nat
  /-- Strict [1; R293] -/
  strict : Bool
  /-- Take-over instant T, start of cycle 0, linear 2^-16 ns [80; R293] -/
  t : Nat
  /-- It takes over with every gate open and no list afterwards (GATE.CLEAR) [1; R293] -/
  clear : Bool
  deriving DecidableEq, Repr

/-- The gates of a port (R287 to R294). -/
structure GatePort where
  /-- Running list [R287; none] -/
  run : Option GateList := none
  /-- Pending list [R293; none] -/
  pend : Option GateList := none
  /-- The GATE.SET and GATE.CLEAR commands that await the next tide boundary, their commit tide, in order [R293; none] -/
  next : List GateList := []
  /-- End of the occupancy of the frame launched last, linear 2^-16 ns, rounded up [R289; 0] -/
  busy : Nat := 0
  /-- Tide of the last GATE_TOO_LONG, plus 1 [R292; 0: none] -/
  longTide : Nat := 0
  /-- The last clock of 1.2 GHz counted in GATE_DEFERRALS, plus 1 [model's own clock, R291; 0: none] -/
  deferred : Nat := 0
  deriving DecidableEq, Repr

/-- Deterministic service. -/
structure DetSt where
  /-- Streams by index [262,144 with egress records; R276; none] -/
  streams : Tab Stream := []
  /-- Streams of the old epoch, while the ingress segment reads them [R17, R156; none] -/
  oldStreams : Option (Tab Stream) := none
  /-- Egress records by index [R276; none] -/
  recs : Tab EgressRec := []
  /-- Recovery contexts by index [1,048,576; R284; none] -/
  frer : Tab Frer := []
  /-- Gates of each port [64; R287; no list] -/
  gates : List GatePort := List.replicate 64 {}
  deriving DecidableEq, Repr

/-- A fabric lane (R308 to R310). -/
structure FabLane where
  /-- Lane settings of LANE.SET: inversions, training and taps [31; R52, R308; 0] -/
  set : Nat := 0
  /-- Up locally [1; R310; 0] -/
  up : Bool := false
  /-- The far end receives the lane up [1; R310; 0] -/
  far : Bool := false
  /-- Device IDs that the lane does not reach [1,024; R324; none] -/
  noReach : List Nat := []
  /-- The next slot of the lane frame being sent [5; R309; 0] -/
  slot : Nat := 0
  /-- Elapsed time at which the slot being sent ends [model's own clock, R309; 0] -/
  due : Nat := 0
  /-- Lane frame count of the next frame marker sent [32; Table 11-2; 0 DESIGN CHOICE (the spec gives none)] -/
  frame : Nat := 0
  /-- The lane was usable at the start of the lane frame being sent: its cell slots carry cells [1; R310; 0] -/
  use : Bool := false
  /-- Control flits that wait for the next control slot, oldest first [R314, R316; none] -/
  ctl : List (List Byte) := []
  deriving DecidableEq, Repr

/-- A packet in transmission to a device, as cells (R316, R317). -/
structure TxFlow where
  /-- Next sequence number [20; R316; 0] -/
  seq : Nat := 0
  /-- The packet being sent and the bytes of it sent so far, metadata counted in [R317; none] -/
  cur : Option (Nat × Pkt × Nat) := none
  /-- Next usable lane of the round robin [7; R316; 0] -/
  lane : Nat := 0
  /-- Last VOQ served, plus 1, by class, and for deterministic VOQs at 8 [R317; 0] -/
  rr : List Nat := List.replicate 9 0
  deriving DecidableEq, Repr

/-- Reception from a device and stream (R318). -/
structure RxFlow where
  /-- Next expected sequence number e [20; R318; 0] -/
  e : Nat := 0
  /-- Cells held beyond e, by offset from e: header bits and payload [4,096; R318; empty] -/
  held : Tab (Nat × List Byte) := []
  /-- Elapsed time at which the gap at e appeared, plus 1 [model's own clock, R318; 0: none] -/
  gap : Nat := 0
  /-- The packet being assembled: first header and payload [R318; none] -/
  open_ : Option (Nat × List Byte) := none
  /-- On-die cells that the packet being assembled occupies, of FABRIC_RX [R318; none] -/
  bufs : List Nat := []
  /-- Cells are discarded until the next first cell [1; R318; 0] -/
  skip : Bool := false
  deriving DecidableEq, Repr

/-- A VOQ as the credit scheduler of its destination sees it (R322), keyed by local destination, ingress device, system
port and class. -/
structure Demand where
  /-- Deterministic [1; Table 11-2; 0] -/
  det : Bool := false
  /-- Backlog, 64 bytes [24; R320; 0] -/
  backlog : Nat := 0
  /-- A status has come [1; R320; 0] -/
  seen : Bool := false
  /-- Newest C_cum [24; R320; 0] -/
  ccum : Nat := 0
  /-- G_cum issued [24; R322; 0] -/
  gcum : Nat := 0
  /-- gb(v), 2^-27 x 10^-9 byte [R322; 0] -/
  gb : Nat := 0
  /-- PM second of the last GUARANTEE_MISMATCH, plus 1 [R323; 0: none] -/
  misSec : Nat := 0
  deriving DecidableEq, Repr

/-- Credit settings and state of a local destination (R322, FABRIC.CREDIT_SET). -/
structure CreditDest where
  /-- Credit factor, 1/256 [9; Table 11-4; 269] -/
  factor : Nat := 269
  /-- Backpressure threshold, bytes [25; Table 11-4; 1,048,576] -/
  bp : Nat := 1048576
  /-- max_out [8; Table 11-4; 16] -/
  maxOut : Nat := 16
  /-- port(p), 2^-27 x 10^-9 byte [signed; R322; 0 DESIGN CHOICE (the spec gives none)] -/
  port : Int := 0
  /-- Elapsed time of the last scheduler run, and its TD core clock, plus 1 [model's own clock, R322; 0, none] -/
  last : Nat := 0
  ran : Nat := 0
  /-- rr(p, c) at c = 0 to 7 and rr_det(p) at 8: the key of the VOQ served last, plus 1 [R322; 0 DESIGN CHOICE (the spec gives none)] -/
  rr : List Nat := List.replicate 9 0
  deriving DecidableEq, Repr

/-- The fabric interface. -/
structure FabSt where
  /-- Mesh mode [1; Table 11-4; 0 DESIGN CHOICE (the spec gives none)] -/
  mesh : Bool := false
  /-- Device ID [10; R315; 0 DESIGN CHOICE (the spec gives none)] -/
  dev : Nat := 0
  /-- Alias ID [10; R315; not valid] -/
  alias_ : Option Nat := none
  /-- Octet enables [12; Table 11-4; 0 DESIGN CHOICE (the spec gives none)] -/
  octets : Nat := 0
  /-- Octet rates, 2 bits each [24; Table 11-4; 0 DESIGN CHOICE (the spec gives none)] -/
  rates : Nat := 0
  /-- Reorder timeout, ns [15; R318; 2,000] -/
  reorder : Nat := 2000
  /-- Status refresh interval, us [10; R320; 20] -/
  refresh : Nat := 20
  /-- Fabric lanes 0 to 95 [R308] -/
  lanes : List FabLane := List.replicate 96 {}
  /-- System-port table: device ID and local destination of valid entries [65,536 x 18; R315; invalid] -/
  sysp : Tab (Nat × Nat) := []
  /-- System-port entries of the old epoch, while the ingress segment reads them [R17, R156; none] -/
  oldSysp : Option (Tab (Nat × Nat)) := none
  /-- F_fixed and tau, ns, and k_min [32, 32, 7; Table 11-3; 0, 0 and 1 DESIGN CHOICE (the spec gives none but the mesh default 32)] -/
  ffixed : Nat := 0
  tau : Nat := 0
  kmin : Nat := 1
  /-- Grants G by local destination, ingress device, system port and class, packed [20 each; R323; 0] -/
  grants : Tab Nat := []
  /-- Credit settings of local destinations 0 to 64 [R322] -/
  dests : List CreditDest := List.replicate 65 {}
  /-- VOQs known at the credit scheduler [R322; none] -/
  demands : Tab Demand := []
  /-- Transmission by destination device x 2 + stream [R316; none] -/
  tx : Tab TxFlow := []
  /-- Reception by source device x 2 + stream [R318; none] -/
  rx : Tab RxFlow := []
  /-- The next destination device of the cell round robin [10; R317; 0] -/
  txDev : Nat := 0
  /-- Destination devices for which DEVICE_UNREACHABLE stands [R324; none] -/
  unreach : List Nat := []
  /-- Devices for which FABRIC_DEGRADED stands [R328; none] -/
  degraded : List Nat := []
  deriving DecidableEq, Repr

end Sys2Proof.Machine
end

