-- ==== Sys2Proof/Machine/StateHbm.lean ====
section
/-! DEFINITION. State of the HBM memory controllers (spec/13_hbm_memory.md).
A field's docstring ends with [width; rule; reset value]. -/

namespace Sys2Proof.Machine

/-- A remap entry (Table 13-5). -/
structure Remap where
  /-- State: 0 own rank, 1 spare, 2 donor rank, 3 migrating, 4 unbacked, 5 not addressed [3; Table 13-5] -/
  st : Nat
  /-- Physical rank that serves it, or the target of its migration [7; Table 13-5] -/
  phys : Nat
  deriving DecidableEq, Repr

/-- A write that waits in a channel's write queue (R363). -/
structure HbmWrite where
  /-- Line address within the stack, in 64 bytes [29; R363] -/
  line : Nat
  /-- Bytes that it writes, by offset in the line [R363] -/
  bytes : List (Nat × Byte)
  /-- Elapsed time of its arrival [model's own clock, R364] -/
  since : Nat
  deriving DecidableEq, Repr

/-- A queued write covers its whole line, which ends the line's poison (R367). -/
def HbmWrite.whole (w : HbmWrite) : Bool := (List.range 64).all fun o => w.bytes.any fun b => b.1 == o

/-- A request that waits: it came to a channel in its retraining window, or a full write queue keeps its writer waiting
(R360, R364). -/
structure HbmWait where
  /-- Stack address [35; R356] -/
  addr : Nat
  /-- Bytes that it writes, none for a read [R363] -/
  write : Option (List Byte)
  /-- Bytes that a read asks for, and what the stack delivers to it [R365] -/
  len : Nat
  res : Nat
  /-- Parity errors of its command, and whether it goes to the whole channel [R366] -/
  replays : Nat
  whole : Bool
  /-- What its line holds [Table 13-4] -/
  subj : Nat
  sub : Nat
  deriving DecidableEq, Repr

/-- One channel of a stack. -/
structure HbmChan where
  /-- Trained [1; R359; 0] -/
  trained : Bool := false
  /-- Lanes repaired [4; R359; 0] -/
  lanes : Nat := 0
  /-- Read and write windows found at training, ps [32 each; Table 13-6; 0] -/
  rdWin : Nat := 0
  wrWin : Nat := 0
  /-- Tide of the last retraining window [64; Table 13-6; 0] -/
  lastWin : Nat := 0
  /-- A retraining window runs [1; R360; 0] -/
  window : Bool := false
  /-- Consecutive overruns [2; R360; 0] -/
  ovf : Nat := 0
  /-- Write queue, oldest first [64 entries; R363; empty] -/
  wq : List HbmWrite := []
  /-- Requests that wait, oldest first [R360, R364; none] -/
  wait : List HbmWait := []
  deriving DecidableEq, Repr

/-- A rank out of service that migrates or waits to (R373). -/
structure Migration where
  /-- Logical rank [7; R373] -/
  rank : Nat
  /-- Physical rank that failed and still serves it [7; R373] -/
  old : Nat
  /-- Physical rank of the target [7; R373] -/
  target : Nat
  /-- The target is a donor's rank, not a spare [1; R374] -/
  donor : Bool
  deriving DecidableEq, Repr

/-- A stack and its controller. -/
structure Stack where
  /-- State: 0 training, 1 in service, 2 degraded, 3 failed [2; Table 13-6; 0] -/
  st : Nat := 0
  /-- Remap entries of logical ranks 0 to 127 [128 x 32; R370; each on its own rank; 115, 119, 123 and 127 not addressed] -/
  map : List Remap := (List.range 128).map fun r => if 112 ≤ r && r % 4 == 3 then ⟨5, r⟩ else ⟨0, r⟩
  /-- Physical ranks that have failed [R371; none] -/
  failed : List Nat := []
  /-- Donors taken, logical ranks [5; R374; none] -/
  donors : List Nat := []
  /-- Migrations, the running one first [R373; none] -/
  migs : List Migration := []
  /-- Channels 0 to 31 [R355] -/
  chans : List HbmChan := List.replicate 32 {}
  /-- Corrected reads of each logical rank in its window, those that are not 0 [R372; 0] -/
  ce : Tab Nat := []
  /-- Boundary count at which the window of a logical rank began [model's own for R372; 0] -/
  ceFrom : Tab Nat := []
  /-- Logical ranks whose window has raised CE_THRESHOLD [R372; none] -/
  ceHit : List Nat := []
  /-- Poisoned lines, in 64 bytes [R367; none] -/
  poison : List Nat := []
  /-- Contents by stack address, as the requests of the model wrote them [32 GiB; R356; unlisted bytes read 0 DESIGN CHOICE (the spec gives none)] -/
  mem : Memory := []
  /-- Temperature, degrees C [8 signed; Table 13-6; 0 DESIGN CHOICE (the spec gives none)] -/
  temp : Int := 0
  /-- The stack is at or above 85 and at or above 95 degrees, with 3 degrees of hysteresis; refresh is doubled with the
  first [1 each; R362; 0] -/
  hot85 : Bool := false
  hot95 : Bool := false
  /-- The stack is in self-refresh [1; R376, R527; 0] -/
  selfRefresh : Bool := false
  /-- Data of the latest read served, or none for one marked uncorrectable [model's own record, R365; none] -/
  answer : Option (List Byte) := none
  deriving DecidableEq, Repr

/-- Settings of one die's controllers (MEM.SET, Table 13-6). -/
structure MemCfg where
  /-- Retraining interval P, tides [17; R360; 800] -/
  p : Nat := 800
  /-- Longest window W, ns [12; R360; 2,000] -/
  w : Nat := 2000
  /-- Corrected-read threshold [16; R372; 1,024] -/
  ce : Nat := 1024
  /-- Predictive sparing [1; R372; 1] -/
  pred : Bool := true
  /-- Scrub period, hours [8; R368; 24] -/
  scrub : Nat := 24
  deriving DecidableEq, Repr

/-- The remap record of one stack in the flash (R375). -/
structure RemapRec where
  /-- Remap entries [R375] -/
  map : List Remap
  /-- Failed physical ranks [R375] -/
  failed : List Nat
  /-- Donors [R375] -/
  donors : List Nat
  deriving DecidableEq, Repr

/-- The six stacks. -/
structure HbmSt where
  /-- Stacks 0 to 5 [R355] -/
  stks : List Stack := List.replicate 6 {}
  /-- Settings of the FD and of the TD [Table 13-6] -/
  fd : MemCfg := {}
  td : MemCfg := {}
  /-- Remap records in the persistent record area, by stack [R375; none] -/
  record : Tab RemapRec := []
  deriving DecidableEq, Repr

end Sys2Proof.Machine
end

