-- ==== Sys2Proof/Machine/StateFault.lean ====
section
/-! DEFINITION. State of faults and recovery (spec/20_faults_recovery.md), of the flash, fuses and upgrades
(spec/17_startup_upgrade.md, spec/19_self_test_lifecycle.md), and of the board's pins and sensors
(spec/22_electrical_package.md). A field's docstring ends with [width; rule; reset value]. -/

namespace Sys2Proof.Machine

open Sys2Proof

/-- What AON keeps across PORST_N (Table 20-8). -/
structure AonSt where
  /-- Fault log, newest first, at most 64 records of 8 words [64 x 256; R532; empty] -/
  log : List (List Word) := []
  /-- Own last-breath record, 4,096 bytes [R532; none] -/
  own : Option (List Byte) := none
  /-- The twin's last received last-breath record [R532; none] -/
  twin : Option (List Byte) := none
  /-- Scan result record: pass bits of slice x 4 + set, first failing slice and set, and its signature [R507; none] -/
  scan : Option (Nat × Option (Nat × Nat) × Nat) := none
  /-- Safe-state entries [R532; 0] -/
  safeCount : Nat := 0
  /-- TAP instruction in force [R571; IDCODE PRESUMED (IEEE 1149.1)] -/
  tap : Nat := 1
  deriving DecidableEq, Repr

/-- One image slot of the flash (Tables 17-2 and 17-3). -/
structure ImageSlot where
  /-- State: 0 EMPTY, 1 WRITING, 2 LOADED, 3 TRIAL, 4 GOOD, 5 BAD [3; Table 17-2; A GOOD, B EMPTY DESIGN CHOICE (flash contents)] -/
  st : Nat := 0
  /-- Version [32; Table 17-2; 0 DESIGN CHOICE (flash contents)] -/
  version : Nat := 0
  /-- Security version [8; Table 17-2; 0 DESIGN CHOICE (flash contents)] -/
  sec : Nat := 0
  /-- Swap class: reboot [1; Table 17-3; 0 DESIGN CHOICE (flash contents)] -/
  reboot : Bool := false
  /-- Twin compatibility [32; Table 17-3; 0 DESIGN CHOICE (flash contents)] -/
  compat : Nat := 0
  /-- Staging format [8; Table 17-3; 0 DESIGN CHOICE (flash contents)] -/
  staging : Nat := 0
  /-- Key slot [2; Table 17-3; 0 DESIGN CHOICE (flash contents)] -/
  key : Nat := 0
  deriving DecidableEq, Repr

/-- The flash and the fuses. -/
structure FlashSt where
  /-- Sequence number of the current directory [32; R465; 0 DESIGN CHOICE (flash contents)] -/
  seq : Nat := 0
  /-- The current directory is copy 1 [1; R465; 0 DESIGN CHOICE (flash contents)] -/
  copy1 : Bool := false
  /-- The other copy's record, 8 words, where it is valid [R465; none DESIGN CHOICE (flash contents)] -/
  other : Option (List Word) := none
  /-- Preferred slot: 0 A, 1 B [1; Table 17-2; 0 DESIGN CHOICE (flash contents)] -/
  pref : Nat := 0
  /-- One-shot boot slot: 0 none, 1 A, 2 B [2; Table 17-2; 0 DESIGN CHOICE (flash contents)] -/
  oneShot : Nat := 0
  /-- Image slots A and B [Table 17-2] -/
  slots : List ImageSlot := [{ st := 4 }, {}]
  /-- Fused minimum security version [7; R466; 0 DESIGN CHOICE (fuses)] -/
  minSec : Nat := 0
  /-- Revoked key slots, fused [4; R466; 0 DESIGN CHOICE (fuses)] -/
  revoked : Nat := 0
  /-- Entries into DRYDOCK from RETURNED, fused [2; Table 19-2; 0 DESIGN CHOICE (fuses)] -/
  drydocks : Nat := 0
  deriving DecidableEq, Repr

/-- Start-up and upgrade in progress. -/
structure BootSt where
  /-- PORST_N is low [1; R31; 1] -/
  held : Bool := true
  /-- Whether the images of slots A and B verify, as the pilot finds [1 each; R466, R469; 0] -/
  verified : List Bool := [false, false]
  /-- Slots that the pilot has still to try, in order [R469; none] -/
  order : List Nat := []
  /-- The slot whose image the MPC was started on [1; R469; none] -/
  slot : Option Nat := none
  /-- Elapsed time of its start [model's own clock, R469; 0] -/
  start : Nat := 0
  /-- The slot was started as a one-shot slot [1; R469; 0] -/
  oneShot : Bool := false
  /-- Firmware ready has been reached since PORST_N [1; R527; 0] -/
  ready : Bool := false
  /-- A load runs: into which slot, and its header as read from the host [R472; none] -/
  load : Option (Nat × ImageSlot) := none
  /-- A load to the twin runs [1; R472; 0] -/
  twinLoad : Bool := false
  /-- A swap: 0 none, 1 accepted and waiting for a boundary, 2 running before the handover, 3 after it [2; R473, R474; 0] -/
  swap : Nat := 0
  /-- The slot swapped to [1; R473; 0] -/
  swapTo : Nat := 0
  /-- The swap returns to the preferred slot after a confirm timeout [1; R477; 0] -/
  swapBack : Bool := false
  /-- Boundaries counted at the start of the swap [64; R475; 0] -/
  swapStart : Nat := 0
  /-- Confirm timeout of the running activation, s [12; R477; 0] -/
  confirm : Nat := 0
  /-- Elapsed boundaries at which the confirm timeout ends, plus 1 [64; R477; 0: none] -/
  confirmEnd : Nat := 0
  /-- Profile conversion runs on the standby; on the active, its standby converts [1; R480; 0] -/
  convert : Bool := false
  /-- The profile that a conversion leaves [2; Table 17-8; 0] -/
  oldProfile : Nat := 0
  /-- Version and twin compatibility of the twin's running image, as it reported them [32 each; R473; 0] -/
  twinVersion : Nat := 0
  twinCompat : Nat := 0
  deriving DecidableEq, Repr

/-- A cluster that an error has fenced (R521). -/
structure Fenced where
  /-- Permanent: it stays fenced [1; R521] -/
  perm : Bool
  /-- Elapsed time at which the fences rose [model's own clock, R521] -/
  since : Nat
  deriving DecidableEq, Repr

/-- Reports of one unit and kind (R519). -/
structure Report where
  /-- Errors since the previous report [32; R519] -/
  count : Nat := 0
  /-- Tide of the last report, plus 1 [R519; 0: none] -/
  tide : Nat := 0
  deriving DecidableEq, Repr

/-- Faults and recovery. -/
structure FaultSt where
  /-- The MPC has failed and is not yet recovered [1; R523; 0] -/
  mpcFailed : Bool := false
  /-- Elapsed times of MPC failures in the last hour [R524; none] -/
  mpcTimes : List Nat := []
  /-- MPC recoveries since PORST_N [32; Table 20-11; 0] -/
  recoveries : Nat := 0
  /-- Cause of the safe state, 0 none [8; Table 20-5; 0] -/
  cause : Nat := 0
  /-- The pilot cores have stopped [1; R525; 0] -/
  pilotDead : Bool := false
  /-- Clusters fenced under R521, by domain [R521; none] -/
  fences : Tab Fenced := []
  /-- Elapsed times of automatic re-initialisations, by domain [R521; none] -/
  reinits : List (Nat × Nat) := []
  /-- Reports by unit ID x 65,536 + kind [R519; none] -/
  reports : Tab Report := []
  /-- Elapsed times of the errors of contained or higher severity in forwarding-path clusters, of the last 8 tides [R404; none] -/
  suspects : List Nat := []
  /-- Host copy of the last-breath record: address [64; R531; 0] -/
  lbAddr : Nat := 0
  /-- Host copy enabled [1; R531; 0] -/
  lbOn : Bool := false
  /-- Elapsed time at which the package resets, plus 1 [R536; 0: none] -/
  resetAt : Nat := 0
  /-- FAULT_N is asserted [1; R527; 1] -/
  faultN : Bool := true
  /-- Bridge isolation is raised [1; R28; 1 DESIGN CHOICE (the spec gives none)] -/
  isolated : Bool := true
  /-- The FD end and the TD end have retrained since isolation rose [2; R28; 0] -/
  retrained : Nat := 0
  /-- Packets that the FD end and the TD end have discarded while isolation was raised [R28; 0] -/
  isoFd : Nat := 0
  isoTd : Nat := 0
  deriving DecidableEq, Repr

/-- An AVS rail (R558). -/
structure Rail where
  /-- Voltage that the regulator holds, mV [10; R558; 800] -/
  mv : Nat := 800
  /-- Target, mV [10; R558; 800] -/
  target : Nat := 800
  deriving DecidableEq, Repr

/-- Sensors, clocks and pins. -/
structure BoardSt where
  /-- Region temperatures FD-W, FD-E, TD-W, TD-E, degrees C [4 x 8 signed; R26; 0] -/
  temp : List Int := [0, 0, 0, 0]
  /-- Rails VDD_F and VDD_T [R558] -/
  rails : List Rail := [{}, {}]
  /-- The first targets have been written since firmware ready [1; R558; 0] -/
  avsOn : Bool := false
  /-- I2C0 register offset [8; R570; 0 DESIGN CHOICE (the spec gives none)] -/
  i2cOff : Nat := 0
  /-- Bytes that the latest I2C0 read returned, none where the target did not acknowledge [model's own record, R570; none] -/
  i2cOut : Option (List Nat) := none
  /-- PERST_N is low [1; R419; 1] -/
  perst : Bool := true
  /-- Reference clocks lost: REFCLK_LINE 0 to 3, REFCLK_FAB 0 to 2, REFCLK_HW, SYSCLK, PCIE_REFCLK, AONCLK [11; R564; 0] -/
  clkLost : Nat := 0
  deriving DecidableEq, Repr

end Sys2Proof.Machine
end

