-- ==== Sys2Proof/Machine/StateLine.lean ====
section
/-! DEFINITION. State of the line lanes, the Ethernet ports and MACsec (spec/02_lanes_ethernet.md).
A field's docstring ends with [width; rule; reset value]. -/

namespace Sys2Proof.Machine

/-- A line lane's settings (R52). -/
structure Lane where
  /-- Transmit polarity inverted [1; R52; 0] -/
  txInv : Bool := false
  /-- Receive polarity inverted [1; R52; 0] -/
  rxInv : Bool := false
  /-- Training flag [1; R52; 0 DESIGN CHOICE (the spec gives none)] -/
  training : Bool := false
  /-- Physical lane within the octet [3; R52; identity] -/
  phys : Nat := 0
  /-- Transmit equaliser taps: pre-cursor 2, pre-cursor 1, main, post-cursor 1, each signed [4 x 7; R52; 0 DESIGN CHOICE (the spec gives none)] -/
  taps : Nat := 0
  deriving DecidableEq, Repr

/-- What PORT.SET sets: words 1 to 4 of Table 2-7. -/
structure PortCfg where
  /-- Maximum frame length, bytes [14; R61; 9,216] -/
  maxLen : Nat := 9216
  /-- Oversize action: false DROP, true PUNT256 [1; R62; DROP] -/
  punt256 : Bool := false
  /-- Filter mode: false PROMISC, true FILTER [1; R60; PROMISC] -/
  filterMode : Bool := false
  /-- Broadcast accept [1; R60; 1] -/
  bcast : Bool := true
  /-- S-tag TPID: 0 0x88A8, 1 0x9100, 2 0x9200 [2; Table 2-7; 0] -/
  stag : Nat := 0
  /-- Link-down hold, tides [10; R57; 0] -/
  downHold : Nat := 0
  /-- Link-up hold, tides [17; R56; 800] -/
  upHold : Nat := 800
  /-- FEC-degrade threshold, symbols per PM second, 0 off [32; R59; 0] -/
  degThr : Nat := 0
  deriving DecidableEq, Repr

/-- SecY settings (Table 2-6). -/
structure SecY where
  /-- Cipher suite: 0 disabled, 1 GCM-AES-256, 2 GCM-AES-XPN-256 [2; R71; 0] -/
  cipher : Nat := 0
  /-- Confidentiality offset: 0, 1 (30 bytes) or 2 (50 bytes) [2; R71; 0] -/
  confOff : Nat := 0
  /-- Integrity only [1; R71; 0] -/
  integ : Bool := false
  /-- Include SCI in SecTAG [1; R71; 1] -/
  sciIn : Bool := true
  /-- validateFrames: 0 Disabled, 1 Check, 2 Strict [2; R71; 2] -/
  validate : Nat := 2
  /-- Replay protection [1; R71; 1] -/
  replay : Bool := true
  /-- Replay window, frames [32; R71; 0] -/
  window : Nat := 0
  /-- Transmit SCI [64; R80; address 0 with port identifier 0x0001] -/
  txSci : Nat := 1
  /-- PN threshold [64; R75; 0xC000_0000] -/
  pnThr : Nat := 0xC0000000
  /-- Bypass EtherTypes with their valid bits [4 x 17; R71; none valid] -/
  bypass : List (Nat × Bool) := [(0, false), (0, false), (0, false), (0, false)]
  deriving DecidableEq, Repr

/-- A secure association (R72 to R75), keyed by the index of its handle. -/
structure Sa where
  /-- SCI of its channel [64; R72] -/
  sci : Nat
  /-- Next PN of a transmit SA, lowest acceptable PN of a receive SA [64; R74, R75] -/
  pn : Nat
  /-- SSCI [32; Table 2-8] -/
  ssci : Nat
  /-- Salt [96; Table 2-8] -/
  salt : Nat
  /-- SAK in the AON security store, byte 0 first [256; R73] -/
  sak : List Byte
  /-- SAK in the working copy of the port group [256; R73] -/
  work : List Byte
  /-- MACSEC_PN_THRESHOLD has been raised [1; R75; 0] -/
  thrRaised : Bool := false
  /-- The SA is exhausted [1; R75; 0] -/
  exhausted : Bool := false
  deriving DecidableEq, Repr

/-- An Ethernet port, keyed by its number (R53). -/
structure Port where
  /-- Mode code [4; R54] -/
  mode : Nat
  /-- FEC code [4; R54] -/
  fec : Nat
  /-- Link training enabled [1; R52] -/
  training : Bool
  /-- Settings of PORT.SET in force [Table 2-7] -/
  cfg : PortCfg := {}
  /-- Settings that await the next tide boundary [Table 2-8; none] -/
  pendCfg : Option PortCfg := none
  /-- Perfect-match filter, 8 entries of address and enable [8 x 49; R60; address 0, disabled] -/
  filter : List (Nat × Bool) := List.replicate 8 (0, false)
  /-- Conditions of R55 that fail: [0] signal, [1] lock, [2] alignment, [3] FEC alignment, [4] local fault, [5] remote fault [6; R55; 0x1F DESIGN CHOICE (a new port's lanes begin to train)] -/
  conds : Nat := 0x1F
  /-- A hold is running [1; R56, R57; 0] -/
  holdOn : Bool := false
  /-- Elapsed time at which the hold began [model's own clock, R56, R57] -/
  holdStart : Nat := 0
  /-- Conditions that failed since the start of the link-down hold [6; R57; 0] -/
  cause : Nat := 0
  /-- Declared up [1; R56; 0] -/
  up : Bool := false
  /-- Tide of the last up or down declaration [64; Table 2-8; 0] -/
  declTide : Nat := 0
  /-- In service [1; R68; 0] -/
  inService : Bool := false
  /-- PORT.ENABLE or PORT.DISABLE that awaits the next tide boundary [Table 2-8; none] -/
  pendEn : Option Bool := none
  /-- Loopback: 0 none, 1 near-end PCS, 2 far-end SerDes, 3 PRBS [2; R77; 0] -/
  loop : Nat := 0
  /-- PRBS pattern: false PRBS31, true PRBS13Q [1; Table 2-8; 0] -/
  prbs13 : Bool := false
  /-- Counters are in clear-on-read mode [1; R67, R68; 1] -/
  clearMode : Bool := true
  /-- Symbols corrected in the running PM second [64; R59; 0] -/
  secSymbols : Nat := 0
  /-- FEC degrade is set [1; R59; 0] -/
  degrade : Bool := false
  /-- Consecutive seconds at or below the threshold while degraded [4; R59; 0] -/
  goodSecs : Nat := 0
  /-- SecY settings [R71] -/
  secY : SecY := {}
  /-- AN of the active transmit SA [2; R74; none] -/
  activeTx : Option Nat := none
  /-- Powered off under R495 [1; R495; 0] -/
  poweredOff : Bool := false
  deriving DecidableEq, Repr

/-- The line side. -/
structure LineSt where
  /-- Lanes 0 to 63, and fabric lane i as lane 64 + i [160 lanes; R52, R308] -/
  lanes : List Lane := (List.range 160).map fun i => { phys := i % 8 }
  /-- Ethernet ports by number [R53; none] -/
  ports : Tab Port := []
  /-- Secure associations by handle index [R72; none] -/
  sas : Tab Sa := []
  deriving DecidableEq, Repr

end Sys2Proof.Machine
end

