-- ==== Sys2Proof/Machine/StatePower.lean ====
section
/-! DEFINITION. State of the power domains and the governor (spec/18_power_governor.md) and of the self-test
(spec/19_self_test_lifecycle.md). A field's docstring ends with [width; rule; reset value]. -/

namespace Sys2Proof.Machine

/-- A switched power domain (R484). -/
structure Domain where
  /-- State: 0 ON, 1 IDLE, 2 RETAIN, 3 QUIET, 4 OFF, 5 self-refresh, 6 out of service [3; Table 18-4; OFF DESIGN CHOICE (the spec gives none)] -/
  st : Nat := 4
  /-- Floor, in the same coding [3; R490; OFF DESIGN CHOICE (the spec gives none)] -/
  floor : Nat := 4
  /-- Tide of the last floor change [64; Table 18-4; 0] -/
  floorTide : Nat := 0
  /-- The domain is waking; elapsed time at which it accepts work, plus 1 [R484; 0: it is not] -/
  wake : Nat := 0
  /-- Time spent in the running tide ON, in IDLE, in RETAIN or QUIET, and OFF, 2^-16 ns [model's own, R497; 0] -/
  spent : List Nat := [0, 0, 0, 0]
  /-- Elapsed time of the last change of state [model's own clock, R497; 0] -/
  since : Nat := 0
  /-- Elapsed time of the last request to the domain [model's own clock, R492; 0] -/
  asked : Nat := 0
  deriving DecidableEq, Repr

/-- Power settings of a line port (R488, R495). -/
structure PowerPort where
  /-- Port tolerance, ns [30; R488; 1,000,000,000] -/
  tol : Nat := 1000000000
  /-- Class mask [8; R488; all] -/
  mask : Nat := 0xFF
  /-- OFF permitted [1; R495; 0 DESIGN CHOICE (the spec gives none)] -/
  off : Bool := false
  /-- Off delay, tides [27; R495; 80,000] -/
  delay : Nat := 80000
  deriving DecidableEq, Repr

/-- Tolerances (R488). -/
structure Tols where
  /-- Class tolerances, ns [8 x 30; R488; 0] -/
  cls : List Nat := List.replicate 8 0
  /-- Takeover tolerance, ns [30; R488; 0] -/
  tk : Nat := 0
  /-- Ports whose settings are not the defaults [64; R488] -/
  ports : Tab PowerPort := []
  deriving DecidableEq, Repr

/-- The governor. -/
structure PowerSt where
  /-- Tolerances set [R488] -/
  tol : Tols := {}
  /-- Tolerances that admission still counts until the next boundary but one, with the boundaries to wait [R491; none] -/
  lag : Option (Nat × Tols) := none
  /-- Domains 0 to 79 [R484] -/
  doms : List Domain := List.replicate 80 {}
  /-- Octets with concentration enabled [8; R494; 0] -/
  octEn : Nat := 0
  /-- Slice pairs with concentration enabled [8; R494; 0] -/
  pairEn : Nat := 0
  /-- Octets concentrated [8; R494; 0] -/
  octOn : Nat := 0
  /-- Slice pairs concentrated [8; R494; 0] -/
  pairOn : Nat := 0
  /-- Octets and slice pairs whose concentration ends when the woken sibling accepts work [16; R494; 0] -/
  unconc : Nat := 0
  /-- Line octets powered off under R495 [8; R495; 0] -/
  offOct : Nat := 0
  /-- Line octets that a PORT or TPORT command or a revoked permission powers on at the next boundary [8; R495; 0] -/
  wakeOct : Nat := 0
  /-- What the governor measures in the running tide: at 4k, 4k + 1 and 4k + 2 the ingress packets, egress packets and
  highest ingress buffer fill in bytes of octet k, at 64 + 2j and 65 + 2j the enqueues and dequeues of slice pair j
  [model's own for R494; 0] -/
  tally : Tab Nat := []
  /-- Tide of the last frame of each line port in either direction [64 x 64; R495; 0] -/
  frameTide : Tab Nat := []
  deriving DecidableEq, Repr

/-- One self-test slice (R505, R511). -/
structure Slice where
  /-- Time budget, us [15; R506; 2,000] -/
  budget : Nat := 2000
  /-- The set that the next sounding runs [2; R506; 0] -/
  next : Nat := 0
  /-- Fenced by a failed sounding [1; R513; 0] -/
  failed : Bool := false
  /-- Overdue: not sounded by the end of its period [1; R511; 0] -/
  overdue : Bool := false
  /-- Schedule period for which SOUNDING_OVERDUE was raised last, plus 1 [model's own, R511; 0: none] -/
  overduePeriod : Nat := 0
  /-- Tide of the last sounding [64; Table 19-5; 0] -/
  last : Nat := 0
  /-- Elapsed boundaries at which it was last sounded in this schedule, plus 1 [model's own, R511; 0: not yet] -/
  done : Nat := 0
  deriving DecidableEq, Repr

/-- A running sounding (R508). -/
structure Sounding where
  /-- Domain [7; R508] -/
  dom : Nat
  /-- Phase: 0 withdrawing, 1 testing, 2 re-initialised, awaiting its return boundary [2; R508] -/
  phase : Nat
  /-- Pattern set [2; R506] -/
  set : Nat
  /-- Tide boundaries counted at its start [64; R508, R509] -/
  start : Nat
  /-- The set is being repeated after a differing signature [1; R513] -/
  again : Bool
  /-- It was asked for by SOUND.NOW [1; R511] -/
  now : Bool
  /-- It ends in a return to service, and not in a failure [1; R513] -/
  pass : Bool := true
  /-- Ports that were in service at its start [64; R510] -/
  ports : List Nat := []
  deriving DecidableEq, Repr

/-- The self-test and the lifecycle. -/
structure TestSt where
  /-- Scheduled soundings enabled [1; R511; 0] -/
  enable : Bool := false
  /-- Standby soundings enabled [1; Table 19-5; 1] -/
  standby : Bool := true
  /-- Schedule period S, hours [5; R511; 24] -/
  hours : Nat := 24
  /-- Tide boundaries counted at the start of the schedule [64; R511; 0] -/
  start : Nat := 0
  /-- Slices 0 to 79 [R505] -/
  slices : List Slice := List.replicate 80 {}
  /-- Domains that SOUND.NOW named and that have not started, oldest first [7 each; R511; none] -/
  asked : List Nat := []
  /-- The running sounding [R508; none] -/
  run : Option Sounding := none
  /-- A full scan runs [1; R507; 0] -/
  scan : Bool := false
  /-- Current nonce [128; R501; none] -/
  nonce : Option Nat := none
  /-- Tide boundaries counted at which the nonce expires [64; R501; 0] -/
  nonceEnd : Nat := 0
  /-- Tide boundaries counted at which SURVEY validity ends [64; R501; 0] -/
  surveyEnd : Nat := 0
  deriving DecidableEq, Repr

end Sys2Proof.Machine
end

