-- ==== Sys2Proof/Machine/StateTables.lean ====
section
/-! DEFINITION. State of the table engines (spec/06_table_engines.md) and of learning and upkeep
(spec/07_learning_table_upkeep.md). A field's docstring ends with [width; rule; reset value]. -/

namespace Sys2Proof.Machine

open Sys2Proof

/-- An item with its old versions (R155, R176). -/
structure Layered (α : Type) where
  /-- The newest version; none where the item is deleted -/
  val : Option α
  /-- Older versions, newest first: the transaction that replaced it (0 once its commit has applied) and the version -/
  past : List (Nat × Option α) := []
  deriving DecidableEq, Repr

/-- What a Dill entry holds beside its key (Table 6-2). -/
structure DillVal where
  /-- Action record index [24; Table 6-2] -/
  act : Nat
  /-- Cookie [32; Table 6-2] -/
  cookie : Word
  /-- Static [1; Table 6-2] -/
  static : Bool
  /-- Learned [1; Table 6-2] -/
  learned : Bool := false
  /-- Learned source port [6; Table 6-2] -/
  port : Nat := 0
  deriving DecidableEq, Repr

/-- A Dill entry, in a bucket or in the overflow store (Table 6-2). -/
structure DillEntry where
  /-- Key bytes 0 to 19, byte 0 most significant [160; Table 6-2] -/
  key : Nat
  /-- Its contents, with visibility [R176] -/
  v : Layered DillVal
  /-- Age count [8; Table 6-2] -/
  age : Nat := 0
  /-- Hit bit [1; R206] -/
  hit : Bool := false
  deriving DecidableEq, Repr

/-- A Dill table (R169, R217 to R219). -/
structure DillTab where
  /-- log2 of the buckets [5; R169] -/
  k : Nat
  /-- Base bucket [23; R169] -/
  base : Nat
  /-- Seed [32; R170] -/
  seed : Word
  /-- Failed pages [R175; none] -/
  failed : List Nat := []
  /-- Buckets of failed pages that no command has written since [R175, R367; none] -/
  bad : List Nat := []
  /-- Compare enable, include learned, twin repair [3; R217, R219; 0 DESIGN CHOICE (the spec gives none)] -/
  compare : Bool := false
  inclLearned : Bool := false
  repair : Bool := false
  /-- Loaded page digests [32 each; R217; none] -/
  digests : Tab Word := []
  /-- Pages compared in the sweep, and in the last sweep [32 each; R218; 0] -/
  pages : Nat := 0
  lastPages : Nat := 0
  /-- Mismatches in the sweep, and in all [32; R218; 0] -/
  sweepBad : Nat := 0
  mism : Nat := 0
  /-- Pages repaired [32; R219; 0] -/
  repaired : Nat := 0
  /-- Tide of the last sweep end [64; R218; 0] -/
  sweepTide : Nat := 0
  deriving DecidableEq, Repr

/-- A Sage segment group (R179). -/
structure SageGroup where
  /-- First segment [4; R179] -/
  first : Nat
  /-- Segments [5; R179] -/
  count : Nat
  /-- Entry width: 0 160 bits, 1 320 bits, 2 640 bits [2; R179] -/
  width : Nat
  /-- log2 of H [4; R182] -/
  logH : Nat
  deriving DecidableEq, Repr

/-- A Sage entry, keyed by its handle index (R181). -/
structure SageEntry where
  /-- Group index [4; R181] -/
  grp : Nat
  /-- Position in the group [18; R180] -/
  pos : Nat
  /-- Host priority [32; R181] -/
  prio : Nat
  /-- Value, byte 0 least significant [640; Table 6-3] -/
  value : Nat
  /-- Mask, 1 = compare [640; Table 6-3] -/
  mask : Nat
  /-- Action record index, with visibility [24; Table 6-3] -/
  v : Layered Nat
  deriving DecidableEq, Repr

/-- A walk by DILL.NEXT whose last response ended within a bucket (R211). -/
structure WalkHold where
  /-- Table [8; R211] -/
  table : Nat
  /-- Bucket [23; R211] -/
  bucket : Nat
  /-- Mailbox that walks [5; model's own, R211] -/
  mb : Nat
  /-- Overflow index of the cursor that the response gave [16; Table 7-2] -/
  cur : Nat
  /-- Place of the next entry: 0 to 3 in the bucket, then overflow index + 4 [17; R210] -/
  pos : Nat
  /-- Elapsed time at which the hold-back ends [R211] -/
  till : Nat
  deriving DecidableEq, Repr

/-- The table engines. -/
structure TableSt where
  /-- Sorrel routes, keyed by VRF, family, prefix length and prefix [R167; none] -/
  routes : Tab (Layered Nat) := []
  /-- Dill tables by index [256; R169; none] -/
  dill : Tab DillTab := []
  /-- Dill bucket entries, keyed (table x 2^23 + bucket) x 4 + entry [R170; free] -/
  buckets : Tab DillEntry := []
  /-- Overflow store: table, bucket and entry [65,536; R172; free] -/
  ovf : Tab (Nat × Nat × DillEntry) := []
  /-- Hot-bucket cache: buckets of each set with their ways, most recently used first [R174; empty] -/
  cache : Tab (List (Nat × Nat)) := []
  /-- Walks within a bucket, whose overflow moves are held back [R211; none] -/
  held : List WalkHold := []
  /-- Sage groups [16; R179; none] -/
  groups : Tab SageGroup := []
  /-- Sage entries by handle index [262,144; R181; none] -/
  sage : Tab SageEntry := []
  /-- Throttle step of FD-W and FD-E: 0 1.00, 1 0.75, 2 0.50, 3 0.25 [2 each; R188; 0 DESIGN CHOICE (the spec gives none)] -/
  step : List Nat := [0, 0]
  /-- Step that awaits the next tide boundary, FD-W and FD-E [2 each; R188; 0] -/
  nextStep : List Nat := [0, 0]
  /-- OVERFLOW_HIGH has been raised and not cleared [1; R192; 0] -/
  overHigh : Bool := false
  /-- SORREL_HIGH has been raised and not cleared [1; R192; 0] -/
  sorHigh : Bool := false
  deriving DecidableEq, Repr

/-- A learn profile (Table 7-1). -/
structure LearnProf where
  /-- Mode: 0 off, 1 hardware, 2 software [2; Table 7-1; 0] -/
  mode : Nat := 0
  /-- Notify [1; Table 7-1; 1] -/
  notify : Bool := true
  /-- Refresh on destination hit [1; Table 7-1; 0] -/
  refresh : Bool := false
  /-- Learn table index [8; Table 7-1; 0 DESIGN CHOICE (the spec gives none)] -/
  table : Nat := 0
  /-- Flap action: 0 forward, 1 drop, 2 punt [2; Table 7-1; 0] -/
  flap : Nat := 0
  /-- Aging time A, tides [32; Table 7-1; 2,400,000] -/
  age : Nat := 2400000
  /-- Move limit M [8; Table 7-1; 4] -/
  limit : Nat := 4
  /-- Move window W, tides [17; Table 7-1; 8,000] -/
  window : Nat := 8000
  /-- Lock hold, tides [23; Table 7-1; 80,000] -/
  hold : Nat := 80000
  deriving DecidableEq, Repr

/-- Learn settings of a line port (R200). -/
structure LearnPort where
  /-- Learn limit [21; R200; 1,048,576] -/
  limit : Nat := 1048576
  /-- Excess action: false FLOOD, true DROP [1; R200; FLOOD] -/
  drop : Bool := false
  /-- Learn action record handle [32; R200; null] -/
  act : Nat := 0
  deriving DecidableEq, Repr

/-- A learn request (R196). -/
structure LearnReq where
  /-- Table [8; R196] -/
  table : Nat
  /-- Key [160; R194] -/
  key : Nat
  /-- Source port [6; R196] -/
  src : Nat
  /-- Clock in which its packet completed stage 6 [64; R197] -/
  clk : Nat := 0
  /-- Pipeline of its packet [4; R197] -/
  pipe : Nat := 0
  deriving DecidableEq, Repr

/-- A slot of the move tracker (R201). -/
structure MoveSlot where
  /-- Table and key of its entry [R201] -/
  table : Nat
  key : Nat
  /-- Window start tide [64; R202] -/
  start : Nat
  /-- Move count [8; R202] -/
  count : Nat
  /-- Lock expiry boundary, plus 1; 0 while unlocked [64; R203] -/
  lock : Nat
  deriving DecidableEq, Repr

/-- A flush that runs (R212, R213). -/
structure Flush where
  /-- Port whose entries it covers [6; R212] -/
  port : Nat
  /-- New port in move mode [6; R212] -/
  move : Option Nat
  /-- The one domain [20; R212] -/
  dom : Option Nat
  /-- Entries changed [32; R213] -/
  changed : Nat := 0
  /-- Buckets already visited, as table x 2^23 + bucket [model's own, R213] -/
  seen : List Nat := []
  deriving DecidableEq, Repr

/-- A command list that runs (R214 to R216). -/
structure CmdList where
  /-- List address [64; Table 7-2] -/
  addr : Nat
  /-- Record count [21; Table 7-2] -/
  count : Nat
  /-- Stop on error [1; Table 7-2] -/
  stop : Bool
  /-- Result area address [64; Table 7-2] -/
  res : Nat
  /-- Transaction handle or null [32; Table 7-2] -/
  txn : Nat
  /-- The mailbox it came by [5; R448] -/
  mb : Nat
  deriving DecidableEq, Repr

/-- Learning and upkeep. -/
structure LearnSt where
  /-- Learn profiles 1 to 255 [R193; mode 0] -/
  profs : Tab LearnProf := []
  /-- Profile of each forwarding domain that does not name profile 0 [1,048,576 x 8; R193; 0] -/
  doms : Tab Nat := []
  /-- Learn settings of the ports [64; R200] -/
  ports : List LearnPort := List.replicate 64 {}
  /-- Learn queue [65,536; R196; empty] -/
  queue : List LearnReq := []
  /-- Move tracker [16,384 slots; R201; free] -/
  slots : List MoveSlot := []
  /-- Sweep period S, tides [17; R207; 16,000] -/
  sweep : Nat := 16000
  /-- Flushes by identifier [4; R213; none] -/
  flushes : Tab Flush := []
  /-- The next flush identifier [32; Table 7-2; 0 DESIGN CHOICE (the spec gives none)] -/
  nextFlush : Nat := 0
  /-- Command lists by identifier [4; R215; none] -/
  lists : Tab CmdList := []
  /-- The next list identifier [32; Table 7-2; 0 DESIGN CHOICE (the spec gives none)] -/
  nextList : Nat := 0
  /-- Where the compare walker goes on: table and page [8, 18; R218; the first] -/
  walk : Nat × Nat := (0, 0)
  /-- Pages that the running sweep has skipped and visits again [R218; none] -/
  skipped : List (Nat × Nat) := []
  deriving DecidableEq, Repr

end Sys2Proof.Machine
end

