-- ==== Sys2Proof/Machine/StateTd.lean ====
section
/-! DEFINITION. State of the traffic die: buffer pools, queues and the scheduling tree (spec/08_buffer_pools.md,
spec/09_queues_scheduling.md). A field's docstring ends with [width; rule; reset value]. -/

namespace Sys2Proof.Machine

open Sys2Proof

/-- A buffer or cell that has been granted since the pool was initialised (R224). -/
structure Buf where
  /-- State bit: allocated [1; R224] -/
  used : Bool
  /-- Owner field [3; R224] -/
  owner : Nat
  /-- Reference count [8; R224] -/
  count : Nat
  /-- The cell is of the deterministic partition [1; R235] -/
  part : Bool
  /-- Clock of its grant, plus 1 [model's own clock, R231; 0: none] -/
  since : Nat := 0
  deriving DecidableEq, Repr

/-- A release or a replication update in the input queue of the reference unit (R231). -/
structure RefReq where
  /-- Clock in which it came [model's own clock, R231] -/
  clk : Nat
  /-- It is a replication update; else a release [1; R231] -/
  copies : Bool
  /-- Buffer or cell [27 or 19; R222] -/
  b : Nat
  /-- Client ID presented with a release, or copies of an update [3 or 8; R230, R231] -/
  n : Nat
  /-- Unit that releases [16; R232] -/
  unit : Nat
  deriving DecidableEq, Repr

/-- One pool (R222 to R241). -/
structure Pool where
  /-- Buffers of the pool [R222] -/
  size : Nat
  /-- Reserve and maximum of clients 0 to 5 [27 each; R227; Table 8-3, 0 where the client does not use the pool] -/
  lims : List (Nat × Nat)
  /-- Low-free and clear thresholds [27 each; Table 8-3; Table 8-3] -/
  low : Nat
  clear : Nat
  /-- Buffers granted since initialisation, by index [R224; every buffer free, owner and count 0 DESIGN CHOICE (the spec gives none)] -/
  bufs : Tab Buf := []
  /-- Free-store cache, most recently freed first [4,096; R223; the first refill] -/
  cache : List Nat := List.range 1024
  /-- The next index of the ring that no grant has reached, in ascending order [R223; after the first refill] -/
  next : Nat := 1024
  /-- Spilled entries of the ring, oldest first [R223; empty] -/
  ring : List Nat := []
  /-- Spilled entries that have left the ring again [model's own, R238; 0] -/
  base : Nat := 0
  /-- Buffers released in the last clock that had a release, and that clock plus 1 [model's own clock, R229; none, 0] -/
  recent : List Nat := []
  recentAt : Nat := 0
  /-- Input queue of the reference unit, and the clock after the last one it has applied [R231; empty, 0] -/
  refs : List RefReq := []
  refAt : Nat := 0
  /-- Free store of the deterministic partition [R235; empty] -/
  part : List Nat := []
  /-- Partition size P in force [19; R235; 0] -/
  p : Nat := 0
  /-- Cells that leave the partition when they are released [19; R236; 0] -/
  surplus : Nat := 0
  /-- Buffers held by clients 0 to 5 in the pool, the partition left out [27 each; R227; 0] -/
  held : List Nat := [0, 0, 0, 0, 0, 0]
  /-- last_served(pool) [3; R228; 0 DESIGN CHOICE (the spec gives none)] -/
  last : Nat := 0
  /-- Retired buffers that are withdrawn or await release, ascending [R239; none] -/
  retired : List Nat := []
  /-- Buffers whose free-store entry was lost [R238; none] -/
  lost : List Nat := []
  /-- POOL_LOW has been raised and not cleared [1; Table 8-3; 0] -/
  isLow : Bool := false
  /-- Tide of the last BAD_FREE, plus 1 [R232; 0: none] -/
  badTide : Nat := 0
  /-- On-die half whose cells are not granted: 1 domain 61, 2 domain 62 [2; R240; 0] -/
  half : Nat := 0
  deriving DecidableEq, Repr

/-- A shaper (R258, R259). -/
structure Shaper where
  /-- Stored rate, b/s; 0 disabled [64; R258; 0] -/
  rate : Nat := 0
  /-- Burst, bytes [25; R258; 0] -/
  burst : Nat := 0
  /-- Tokens, 2^-16 byte [signed; R259; the burst at creation] -/
  tok : Int := 0
  /-- Time-base value of the last update [80; R259; creation] -/
  last : Nat := 0
  /-- Remainder [33; R259; 0] -/
  res : Nat := 0
  deriving DecidableEq, Repr

/-- Where a node or queue sits in the tree and how it is scheduled (Table 9-3). -/
structure Sched where
  /-- Parent handle or null [32; Table 9-3; null] -/
  parent : Nat := 0
  /-- Band [3; Table 9-3; 7] -/
  band : Nat := 7
  /-- Quantum, 64 bytes [16; Table 9-3; 16] -/
  quantum : Nat := 16
  /-- Length adjustment [8 signed; Table 9-3; 0] -/
  adj : Int := 0
  /-- Minimum and maximum shapers [R258; disabled] -/
  min : Shaper := {}
  max : Shaper := {}
  /-- Deficit, bytes [R254; 0] -/
  deficit : Nat := 0
  deriving DecidableEq, Repr

/-- A scheduler node (R249). -/
structure Node where
  /-- Level: 0 port node, 1 A, 2 B, 3 C [2; Table 9-1] -/
  level : Nat
  /-- Port of its subtree [6; R249] -/
  port : Nat
  /-- The packet client whose group-A node it is [8; R252; none] -/
  client : Option Nat := none
  /-- The port's rate of a port node, the client's rate of a client node, b/s [41; R252, Table 9-4; 0] -/
  top : Nat := 0
  /-- Its own place and shapers -/
  sch : Sched := {}
  /-- rr_ptr by band, child order + 1 [R254; 0] -/
  rr : List Nat := List.replicate 8 0
  /-- cur and nxt by band, child handles [R254; empty] -/
  cur : List (List Nat) := List.replicate 8 []
  nxt : List (List Nat) := List.replicate 8 []
  /-- Children that woke in clock `wakeClk`, in their order; they join the rounds after it [R256; none] -/
  wake : List Nat := []
  /-- The clock of 1.2 GHz in which they woke [model's own clock, R256; 0] -/
  wakeClk : Nat := 0
  /-- Of a port node: time-base value at which the lists of its subtree were last brought in line [80; model's own clock, R255; 0] -/
  seen : Nat := 0
  /-- Of a port node: the clock of its newest selections, and whether each was made in band 0 [model's own clock, R257, R291; none] -/
  selClk : Nat := 0
  sels : List Bool := []
  deriving DecidableEq, Repr

/-- The settings of a queue beside its place in the tree (Table 9-3). -/
structure QueueCfg where
  /-- Deterministic [1; Table 9-3; 0] -/
  det : Bool := false
  /-- Gate class [3; Table 9-3; 0] -/
  gate : Nat := 0
  /-- ECN [1; Table 9-3; 0] -/
  ecn : Bool := false
  /-- Tail threshold, 64 bytes [32; R262; 262,144] -/
  tail : Nat := 262144
  /-- WRED profiles for green, yellow and red [8 each; R263; 0] -/
  wred : List Nat := [0, 0, 0]
  /-- Sampler group [12; R268; none] -/
  sampler : Option Nat := none
  /-- Age limit, tides [22; R266; 2,048,000] -/
  age : Nat := 2048000
  deriving DecidableEq, Repr

/-- A queue: a VOQ or an egress queue (R243). -/
structure Queue where
  /-- Settings in force [Table 9-3] -/
  cfg : QueueCfg := {}
  /-- Place in the tree, egress queues only [Table 9-3] -/
  sch : Sched := {}
  /-- Settings that await the next tide boundary [R270; none] -/
  pend : Option (QueueCfg × Sched) := none
  /-- Packets, head first [R261; empty] -/
  pkts : List Pkt := []
  /-- Average depth, bytes [signed; R263; 0] -/
  avg : Int := 0
  /-- Depth flag and delay flag [1 each; R269; 0] -/
  depthFlag : Bool := false
  delayFlag : Bool := false
  /-- Tail of a VOQ's buffer chain: the buffer and the bytes written in it [R225; none] -/
  chain : Option (Nat × Nat) := none
  deriving DecidableEq, Repr

/-- Token state of one VOQ (R319 to R321). -/
structure Credit where
  /-- Declared guarantee G, 10 Mb/s [20; R323; 0] -/
  g : Nat := 0
  /-- G_cum, last received [24; R319; 0] -/
  gcum : Nat := 0
  /-- Tokens received in all, without wrap [model's own for R319; 0] -/
  tokens : Nat := 0
  /-- Tokens that came in the clock of the last token message, and that clock, plus 1 [model's own for R319; 0, none] -/
  late : Nat := 0
  lateClk : Nat := 0
  /-- S, cell bytes sent [R319; 0] -/
  sent : Nat := 0
  /-- C_cum that the last status carried [24; R320; 0] -/
  lastC : Nat := 0
  /-- Backlog that the last status carried was not 0 [1; R320; 0] -/
  hadBacklog : Bool := false
  /-- Elapsed time of the last status [model's own clock, R320; 0] -/
  lastStatus : Nat := 0
  deriving DecidableEq, Repr

/-- A VOQ set, keyed by its first queue / 8 (R245). -/
structure VoqSet where
  /-- Destination system port [16; R245] -/
  dsp : Nat
  /-- Deterministic mask [8; R246] -/
  mask : Nat
  /-- Token state of offsets 0 to 7 [R319] -/
  cred : List Credit := List.replicate 8 {}
  deriving DecidableEq, Repr

/-- A WRED profile (R263). -/
structure Wred where
  /-- Minimum and maximum thresholds, 64 bytes [32 each; R263] -/
  minT : Nat
  maxT : Nat
  /-- pmax, 1/256 [9; R263] -/
  pmax : Nat
  /-- Weight [4; R263] -/
  w : Nat
  deriving DecidableEq, Repr

/-- A sampler group (R268, R269). -/
structure Sampler where
  /-- Depth base, 64 bytes, and delay base, 64 ns [16 each; R268; 16] -/
  depthBase : Nat := 16
  delayBase : Nat := 16
  /-- depth-high, depth-clear in 64 bytes; delay-high, delay-clear in 64 ns [32 each; R269; 0 DESIGN CHOICE (the spec gives none)] -/
  depthHigh : Nat := 0
  depthClear : Nat := 0
  delayHigh : Nat := 0
  delayClear : Nat := 0
  deriving DecidableEq, Repr

/-- The traffic die's buffers, queues and scheduler. -/
structure TdSt where
  /-- HBM pool [R222, Table 8-3] -/
  hbm : Pool := {
    size := 125829120, low := 7864320, clear := 15728640
    lims := [(1048576, 125829120), (0, 0), (0, 0), (65536, 1048576), (0, 0), (16384, 262144)] }
  /-- On-die pool [R222, Table 8-3] -/
  die : Pool := {
    size := 524288, low := 16384, clear := 32768
    lims := [(0, 0), (131072, 524288), (32768, 131072), (0, 0), (0, 0), (8192, 16384)] }
  /-- Packets that wait to be buffered and enqueued at TD ingress, oldest first [R245; empty] -/
  ingress : List Pkt := []
  /-- Packets that wait to be enqueued in an egress queue, oldest first [R248; empty] -/
  egress : List Pkt := []
  /-- Boundary V [19; R243; 0] -/
  v : Nat := 0
  /-- VOQ sets, keyed by first queue / 8 [R245; none] -/
  sets : Tab VoqSet := []
  /-- VOQ sets of the old epoch, while the ingress segment reads them [R245, R156; none] -/
  oldSets : Option (Tab VoqSet) := none
  /-- Settings of the VOQs and WRED profiles of the old epoch, while the ingress segment reads them [R261, R156; none] -/
  oldQ : Option (Tab QueueCfg × Tab Wred) := none
  /-- Queues by queue ID [1,048,576; R243; none] -/
  queues : Tab Queue := []
  /-- Nodes by handle [R249; none] -/
  nodes : Tab Node := []
  /-- Node settings that await the next tide boundary, by handle [R270; none] -/
  nodePend : Tab Sched := []
  /-- WRED profiles 1 to 255 [R263; none] -/
  wred : Tab Wred := []
  /-- WRED profiles that await the next tide boundary [R270; none] -/
  wredPend : Tab Wred := []
  /-- Sampler groups [4,096; R268; defaults] -/
  samplers : Tab Sampler := []
  /-- Sampler groups that await the next tide boundary [R270; none] -/
  samplerPend : Tab Sampler := []
  /-- LFSR of slices 40 to 55 [16 x 16; R263; 0 until firmware ready] -/
  lfsr : List Nat := List.replicate 16 0
  /-- By home slice 40 to 55: whether its queues were last moved to the partner slice or back, and the elapsed time at which the
  first of them began to move [R244, R272, R494; none: all at home] -/
  moves : List (Option (Bool × Nat)) := List.replicate 16 none
  /-- Threshold events of the current tide [13; R269; 0] -/
  sampEvents : Nat := 0
  deriving DecidableEq, Repr

end Sys2Proof.Machine
end

