-- ==== Sys2Proof/Machine/StateTelem.lean ====
section
/-! DEFINITION. State of the counter banks, the bandwidth windows and the dumps (spec/21_telemetry_counters.md).
A field's docstring ends with [width; rule; reset value]. -/

namespace Sys2Proof.Machine

open Sys2Proof

/-- The selection of one programmable counter (Table 21-1). -/
structure Sel where
  /-- Event number [12; R543; 0] -/
  ev : Nat := 0
  /-- Enable [1; Table 21-1; 0] -/
  en : Bool := false
  /-- Sample mode [1; Table 21-1; 0] -/
  sample : Bool := false
  /-- Sample period [48; R545; 0] -/
  period : Nat := 0
  deriving DecidableEq, Repr

/-- A counter bank (Table 21-1). -/
structure Bank where
  /-- CYCLES [48; R540; 0] -/
  cycles : Nat := 0
  /-- SLOTS [48; Table 21-1; 0] -/
  slots : Nat := 0
  /-- SL_FORWARDED, SL_DROPPED, SL_NO_OFFER, SL_HELD_CREDIT, SL_HELD_THROTTLE [5 x 48; R542; 0] -/
  ledger : List Nat := [0, 0, 0, 0, 0]
  /-- PC 0 to 7 [8 x 48; Table 21-1; 0] -/
  pc : List Nat := List.replicate 8 0
  /-- SEL 0 to 7 [8 x 64; Table 21-1; 0] -/
  sel : List Sel := List.replicate 8 {}
  /-- Selections that await the next tide boundary [R544; none] -/
  pend : Tab Sel := []
  /-- Samples to be taken of a packet to come: counter, half, packets still to pass and skid [R545; none] -/
  want : List (Nat × Nat × Nat × Nat) := []
  /-- Samples dropped since the previous sample of the bank [32; R546; 0] -/
  dropped : Nat := 0
  deriving DecidableEq, Repr

/-- The bandwidth window of a line port (R548, Table 21-5). -/
structure Window where
  /-- W, tides [13; R548; 8,000] -/
  w : Nat := 8000
  /-- W set by TELEM.BW_SET that awaits its boundary [13; R549; none] -/
  next : Option Nat := none
  /-- Received bytes, transmitted bytes, received frames and transmitted frames of the open window [4 x 48; R548; 0] -/
  cur : List Nat := [0, 0, 0, 0]
  /-- The same of the last completed window [4 x 48; Table 21-5; 0] -/
  last : List Nat := [0, 0, 0, 0]
  /-- Highest received and transmitted bytes of complete windows since the last peak clear [2 x 48; Table 21-5; 0] -/
  peak : List Nat := [0, 0]
  /-- Tide of the boundary that ended the last window [64; Table 21-5; 0] -/
  ended : Nat := 0
  /-- W of the last completed window [13; Table 21-5; 0] -/
  wLast : Nat := 0
  /-- The last window was incomplete [1; Table 21-5; 0] -/
  inc : Bool := false
  /-- The open window is incomplete [1; R548; 0] -/
  open_ : Bool := false
  deriving DecidableEq, Repr

/-- Settings of a dump stream (R550). -/
structure DumpCfg where
  /-- Enabled [1; Table 21-7; 0] -/
  en : Bool := false
  /-- Notify [1; Table 21-7; 0] -/
  notify : Bool := false
  /-- Period Q, tides [19; R550; 0] -/
  q : Nat := 0
  /-- Ring address [64; Table 21-7; 0] -/
  addr : Nat := 0
  /-- Slots [5; Table 21-7; 0] -/
  slots : Nat := 0
  /-- Slot size, 4 KiB [24; Table 21-7; 0] -/
  size : Nat := 0
  /-- Ranges: first page and count [16 x 2 x 19; Table 21-7; none] -/
  ranges : List (Nat × Nat) := []
  deriving DecidableEq, Repr

/-- A dump stream. -/
structure Dump where
  /-- Settings in force [Table 21-7] -/
  cfg : DumpCfg := {}
  /-- Settings that await the next tide boundary [Table 21-7; none] -/
  pend : Option DumpCfg := none
  /-- Sequence number of the next record [64; R552; 0] -/
  seq : Nat := 0
  /-- Tide of the last latch [64; Table 21-7; 0] -/
  latch : Nat := 0
  /-- Latches skipped in total [32; Table 21-7; 0] -/
  skipped : Nat := 0
  /-- Latches skipped since the previous record [32; R553; 0] -/
  skips : Nat := 0
  /-- Host address of the slot that the record being written goes to [64; R552; 0] -/
  slot : Nat := 0
  /-- The record being written: its bytes as latched [R551; none] -/
  writing : Option (List Byte) := none
  /-- A basis change occurred since the previous latch [1; Table 21-6; 0] -/
  basis : Bool := false
  deriving DecidableEq, Repr

/-- Telemetry. -/
structure TelemSt where
  /-- Banks 0 to 81 that have changed since reset [82; R539; 0] -/
  banks : Tab Bank := []
  /-- Bandwidth windows of the line ports [64; R548] -/
  bw : List Window := List.replicate 64 {}
  /-- Dump streams 0 to 3 [R550] -/
  dumps : List Dump := List.replicate 4 {}
  /-- Samples raised in the running tide [13; R546; 0] -/
  samples : Nat := 0
  deriving DecidableEq, Repr

end Sys2Proof.Machine
end

