-- ==== Sys2Proof/Machine/StateTime.lean ====
section
/-! DEFINITION. State of the time base and of what it drives (spec/12_time_tides.md).
A field's docstring ends with [width; rule; reset value]. -/

namespace Sys2Proof.Machine

/-- A phase adjustment being slewed (R334). -/
structure Slew where
  /-- Signed phase still to be added when the slew was started, 2^-16 ns [64; R334] -/
  phase : Int
  /-- Rate in ppm, 1 to 500 [9; R334] -/
  rate : Nat
  /-- Elapsed time-base units at the start [model's own, R334] -/
  start : Nat
  deriving DecidableEq, Repr

/-- A step that awaits its boundary (R336, R584). -/
structure PendingStep where
  /-- The value is an offset from B x 125 us [1; R336] -/
  isOffset : Bool
  /-- Lock flag [1; R584] -/
  lock : Bool
  /-- t', the value at the step instant, linear 2^-16 ns [80; R336] -/
  target : Nat
  /-- B, the boundary [64; R336] -/
  b : Nat
  deriving DecidableEq, Repr

/-- A timestamp FIFO entry (R344, Table 12-3). -/
structure TsEntry where
  /-- Capture ID [16; Table 12-3] -/
  cap : Nat
  /-- Timestamp in the layout of Table 12-1 [80; Table 12-3] -/
  ts : Nat
  /-- Truncated flag [1; R345] -/
  truncated : Bool
  /-- Not-sent flag [1; R345] -/
  notSent : Bool
  /-- Captures lost before the entry; the gap flag is set where it is not 0 [16; R345] -/
  lost : Nat
  /-- The capture is of a frame Enenhild originated [1; R344] -/
  own : Bool
  deriving DecidableEq, Repr

/-- Time settings of one line port (R339, R341, R344). -/
structure TimePort where
  /-- PTP mode: 0 NONE, 1 TC, 2 BC [2; R341; 0] -/
  ptpMode : Nat := 0
  /-- Receive offset, 2^-16 ns [32 signed; R339; 0] -/
  rxOff : Int := 0
  /-- Transmit offset, 2^-16 ns [32 signed; R339; 0] -/
  txOff : Int := 0
  /-- Timestamp FIFO, oldest first: at most 56 general and 8 own entries [R344; empty] -/
  fifo : List TsEntry := []
  /-- The capture discarded last, with its clock plus 1: one that the merger makes room for in that clock is held after all
  [R345; 0] -/
  late : Nat × Option TsEntry := (0, none)
  /-- Captures lost since the previous stored entry, saturating at 65,535 [16; R345; 0] -/
  lost : Nat := 0
  /-- Originated messages per second, 0 stopped [8; TIME.ORIGINATE, Table 12-5; 0] -/
  origRate : Nat := 0
  /-- Template of the originated frame [TIME.ORIGINATE, Table 12-5; empty] -/
  origTemplate : List Byte := []
  /-- Elapsed time of the last originated message, plus 1 [model's own clock for the rate; TIME.ORIGINATE; 0: none] -/
  origLast : Nat := 0
  deriving DecidableEq, Repr

/-- A SyncE output (R347). -/
structure SyncE where
  /-- Line lane [7; R347; 0] -/
  lane : Nat := 0
  /-- Divider: 0 10 MHz, 1 25 MHz, 2 156.25 MHz [2; R347; 0] -/
  div : Nat := 0
  /-- Marked squelched by the host [1; R347; 0] -/
  squelch : Bool := false
  /-- Enabled [1; R347; 0] -/
  enable : Bool := false
  /-- The output is squelched now [1; R347; 1] -/
  quiet : Bool := true
  deriving DecidableEq, Repr

/-- The time base and its interfaces (spec/12_time_tides.md). -/
structure TimeSt where
  /-- Current tide number, TIDE_LO and TIDE_HI [64; R9, Table 15-3; 0] -/
  tide : Nat := 0
  /-- Linear time-base value at the start of the current tide, 2^-16 ns [80; R332; 0] -/
  tideStart : Nat := 0
  /-- Offset of now within the tide, 2^-16 ns [model's own clock, R332; 0] -/
  sub : Nat := 0
  /-- Time-base units elapsed from PORST_N release to the start of the current tide, steps left out [model's own, R338; 0] -/
  elapsed : Nat := 0
  /-- Tide boundaries since PORST_N release, for timers counted in boundaries [model's own, R338; 0] -/
  bounds : Nat := 0
  /-- The current tide is a bridging tide [1; R337; 0] -/
  bridging : Bool := false
  /-- Signed phase of the bridging tide, 2^-16 ns [40; Table 12-4; 0] -/
  bridgePhase : Int := 0
  /-- State: 0 FREE, 1 LOCKED, 2 HOLDOVER [2; R335; 0] -/
  st : Nat := 0
  /-- Frequency offset phi, 2^-16 ppm [32 signed; R333; 0] -/
  phi : Int := 0
  /-- Slew in progress [R334; none] -/
  slew : Option Slew := none
  /-- Pending step [R584; none] -/
  step : Option PendingStep := none
  /-- Tide source set by TIME.TIDE_SET: 0 OWN, 1 TIDE_IN [2; R349; 0] -/
  source : Nat := 0
  /-- Chain delay in ps [15; R351; 0] -/
  chain : Nat := 0
  /-- Consecutive TIDE_IN frames failed or missing [R351; 0] -/
  tideInBad : Nat := 0
  /-- TIDE_IN is lost [1; R351; 0] -/
  tideInLost : Bool := false
  /-- TIDE_ALIGN_FAULT is raised and holds [1; R351; 0] -/
  alignFault : Bool := false
  /-- Tide number of the last good TIDE_IN frame [64; R351; 0] -/
  lastGood : Nat := 0
  /-- Last TIDE_IN difference in ps [32 signed; TIME.STATUS; 0] -/
  lastDiff : Int := 0
  /-- Per line port [64 ports; R339] -/
  ports : List TimePort := List.replicate 64 {}
  /-- PPS_OUT offset, ns [R348; 0 DESIGN CHOICE (the spec gives none)] -/
  ppsOffset : Int := 0
  /-- PPS_OUT width, ms [9; R348; 100] -/
  ppsWidth : Nat := 100
  /-- Linear time of the last PPS_OUT rising edge, plus 1 [R348; 0: none] -/
  ppsEdge : Nat := 0
  /-- The time event message of the last PPS_OUT edge is still to be sent on TOD_TX [1; R348; 0] -/
  todDue : Bool := false
  /-- TOD_TX enabled [1; R348; 0] -/
  todTx : Bool := false
  /-- TOD_RX enabled [1; R348; 0] -/
  todRx : Bool := false
  /-- First tide of the running PM second [64; R42, Table 3-10; 0] -/
  pmFirst : Nat := 0
  /-- SYNCE_OUT[1:0] [R347] -/
  synce : List SyncE := [{}, {}]
  deriving DecidableEq, Repr

end Sys2Proof.Machine
end

