-- ==== Sys2Proof/Machine/StateTransport.lean ====
section
/-! DEFINITION. State of transport ports, ODUs, SDH paths, their supervision, and protection groups
(spec/03_transport_framing.md). A field's docstring ends with [width; rule; reset value]. -/

namespace Sys2Proof.Machine

/-- A performance record (Table 3-10). -/
structure PmRec where
  /-- Near-end BIP violations [32; Table 3-10] -/
  bip : Nat
  /-- Near-end errored blocks [32; Table 3-10] -/
  eb : Nat
  /-- Far-end BEI total [32; Table 3-10] -/
  bei : Nat
  /-- Far-end errored blocks [32; Table 3-10] -/
  feb : Nat
  /-- Positive pointer justifications [16; Table 3-10] -/
  pj : Nat
  /-- Negative pointer justifications [16; Table 3-10] -/
  nj : Nat
  /-- Defect-second flags [14; R100] -/
  flags : Nat
  /-- Unlocked second [1; R42] -/
  unlocked : Bool
  /-- Incomplete [1; R101] -/
  incomplete : Bool
  /-- Saturated [1; R101] -/
  saturated : Bool
  /-- First tide of the second [64; Table 3-10] -/
  first : Nat
  deriving DecidableEq, Repr

/-- What the running PM second has counted of an object (Table 3-10), with the blocks received. -/
structure PmCount where
  /-- Near-end BIP violations [32; Table 3-10; 0] -/
  bip : Nat := 0
  /-- Near-end errored blocks [32; Table 3-10; 0] -/
  eb : Nat := 0
  /-- Far-end BEI total [32; Table 3-10; 0] -/
  bei : Nat := 0
  /-- Far-end errored blocks [32; Table 3-10; 0] -/
  feb : Nat := 0
  /-- Positive pointer justifications [16; Table 3-10; 0] -/
  pj : Nat := 0
  /-- Negative pointer justifications [16; Table 3-10; 0] -/
  nj : Nat := 0
  /-- Blocks received [model's own for DEGTHR, R94; 0] -/
  blocks : Nat := 0
  deriving DecidableEq, Repr

/-- Supervision of one object: defects, trace, degradation and performance (R93 to R101). -/
structure Mon where
  /-- Declared defects, bit per Table 3-6 [14; R93; 0] -/
  defects : Nat := 0
  /-- Defects declared during the running PM second [14; R100; 0] -/
  flags : Nat := 0
  /-- Received S1 or payload type or signal label, as accepted [8; DEFECT.STATUS; 0 DESIGN CHOICE (nothing received)] -/
  rxLabel : Nat := 0
  /-- DEGTHR [7; R94; 15] -/
  degThr : Nat := 15
  /-- DEGM [4; R94; 7] -/
  degM : Nat := 7
  /-- EXC threshold exponent [3; R94; 3] -/
  exc : Nat := 3
  /-- DEG threshold exponent [4; R94; 6] -/
  deg : Nat := 6
  /-- EXC consequent-action enable [1; R98; 0] -/
  excEn : Bool := false
  /-- Consecutive PM seconds that were bad (while DEG is clear) or good (while it is set) [4; R94; 0] -/
  degRun : Nat := 0
  /-- Trace format: 0 sixteen-byte, 1 sixty-four-byte, 2 TTI [2; R95; 0 DESIGN CHOICE (none set)] -/
  trFmt : Nat := 0
  /-- Trace comparison mode [3; R95; 0 DESIGN CHOICE (the spec gives none)] -/
  trMode : Nat := 0
  /-- TIM consequent-action enable [1; R98; 1] -/
  timEn : Bool := true
  /-- Acceptance: false A = 3, true A = 5 [1; R96; 3] -/
  acc5 : Bool := false
  /-- TIM persistence, tides [17; R96; 0] -/
  persist : Nat := 0
  /-- Transmitted trace [64 bytes; R95; zeros DESIGN CHOICE (the spec gives none)] -/
  txTrace : List Byte := []
  /-- Expected trace [64 bytes; R96; zeros DESIGN CHOICE (the spec gives none)] -/
  expTrace : List Byte := []
  /-- Accepted trace [64 bytes; R96; none received] -/
  accTrace : List Byte := []
  /-- Elapsed time since which the accepted trace has differed, plus 1 [R96; 0: it does not differ] -/
  misStart : Nat := 0
  /-- The running record is marked incomplete [1; R101; 1] -/
  incomplete : Bool := true
  /-- Counts of the running PM second [R99; 0] -/
  cur : PmCount := {}
  /-- Retained records, oldest first, at most 900 [900 x 8 words; R99; none] -/
  recs : List PmRec := []
  deriving DecidableEq, Repr

/-- A transport port, keyed by its number (R82). -/
structure TPort where
  /-- Mode code [8; Table 3-1] -/
  mode : Nat
  /-- Loop timing selected [1; R86] -/
  loopTiming : Bool
  /-- Transmitted S1 [8; Table 3-14] -/
  s1 : Nat
  /-- Enabled [1; R82; 0] -/
  enabled : Bool := false
  /-- The port's own receive clock is the timing source in force [1; R86; the source selected] -/
  looped : Bool := loopTiming
  /-- Powered off with its octet [1; R495; 0] -/
  poweredOff : Bool := false
  /-- Mode 0x22: the bit at which each logical lane finds A1/A2 framing, none while out of frame [R85; none found] -/
  lanesAt : List (Option Nat) := []
  /-- TPORT.ENABLE or DISABLE that awaits the next tide boundary [Table 3-14; none] -/
  pendEn : Option Bool := none
  /-- Supervision [R93] -/
  mon : Mon := {}
  deriving DecidableEq, Repr

/-- An ODU, keyed by its index (R88). -/
structure Odu where
  /-- Server handle, a port or an ODU [32; Table 3-14] -/
  server : Nat
  /-- Kind: 0 ODU0, 1 ODU1, 2 ODU2, 3 ODU2e, 4 ODU3, 5 ODU4, 6 ODUflex [4; Table 3-14] -/
  kind : Nat
  /-- Termination: row of Table 3-4 from 1, 0 none [4; Table 3-14] -/
  term : Nat
  /-- Tributary slots of the server, bit per slot [320; Table 3-14] -/
  slots : Nat
  /-- Tributary port number [9; Table 3-14] -/
  tpn : Nat
  /-- Expected payload type [8; Table 3-14] -/
  expPt : Nat
  /-- Packet client index where it terminates as one [8; R90] -/
  client : Option Nat
  /-- Supervision [R93] -/
  mon : Mon := {}
  /-- Supervision of the RS and MS of the STM-N demapped from it, where it terminates in the SDH engine [R93] -/
  sect : Mon := {}
  deriving DecidableEq, Repr

/-- An SDH path object, keyed by its index (R92). -/
structure Path where
  /-- Server handle: an SDH port, an ODU that terminates in the SDH engine, or the VC-4 or VC-3 of a VC-12 [32; Table 3-14] -/
  server : Nat
  /-- 0 VC-4, 1 VC-3, 2 VC-12 [2; Table 3-14] -/
  kind : Nat
  /-- AU number [10; Table 3-14] -/
  au : Nat
  /-- TU-12 number [5; Table 3-14] -/
  tu12 : Nat
  /-- TUG-3 [2; Table 3-14] -/
  tug3 : Nat
  /-- Expected signal label [8; Table 3-14] -/
  label : Nat
  /-- The E1 frame handed to the mapper of a VC-12 at the latest playout instant [R110, R119; none] -/
  e1 : List Byte := []
  /-- Bits that its asynchronous mapper justifies with that frame: one more, one less or none [R118; 0] -/
  just : Int := 0
  /-- Supervision [R93] -/
  mon : Mon := {}
  deriving DecidableEq, Repr

/-- A packet client, keyed by its index (R90). -/
structure Client where
  /-- The ODU that terminates as the client [index of type 0x40; R90] -/
  odu : Nat
  /-- Declared up [1; R90; 1 while its ODU has no server signal fail] -/
  up : Bool
  deriving DecidableEq, Repr

/-- A protection group, keyed by its index (R102 to R107). -/
structure Prot where
  /-- Type code [4; Table 3-11] -/
  ty : Nat
  /-- Bidirectional [1; Table 3-13] -/
  bidir : Bool
  /-- Revertive [1; Table 3-13] -/
  revert : Bool
  /-- SD trigger [1; Table 3-13] -/
  sdTrig : Bool
  /-- Worker member [32; Table 3-13] -/
  worker : Nat
  /-- Protection member [32; Table 3-13] -/
  protect : Nat
  /-- Worker trigger, type 5 [32; Table 3-13] -/
  trigW : Nat
  /-- Protection trigger, type 5 [32; Table 3-13] -/
  trigP : Nat
  /-- Hold-off, tides [17; R104] -/
  holdOff : Nat
  /-- WTR, tides [23; R104] -/
  wtr : Nat
  /-- Selected side: false worker, true protection [1; R103; worker] -/
  side : Bool := false
  /-- Lockout of protection stands [1; R103; 0] -/
  lo : Bool := false
  /-- Forced switch stands [1; R103; 0] -/
  fs : Bool := false
  /-- Manual switch: 0 none, 1 to protection, 2 to worker [2; R103; 0] -/
  ms : Nat := 0
  /-- Exercise stands [1; R103; 0] -/
  exer : Bool := false
  /-- Conditions taken as present, past hold-off: [0] SF-W, [1] SF-P, [2] SD-W, [3] SD-P [4; R104; 0] -/
  present : Nat := 0
  /-- Hold-off timers: condition bit and the boundary count at which it expires [R104; none] -/
  holds : Tab Nat := []
  /-- Boundary count at which WTR expires [R104; none] -/
  wtrAt : Option Nat := none
  /-- Rank of the highest standing request at the last evaluation [4; R103; 9] -/
  rank : Nat := 9
  /-- Received K1 and K2, as accepted [2 x 8; R106; 0 DESIGN CHOICE (none received)] -/
  rxK1 : Nat := 0
  rxK2 : Nat := 0
  /-- Transmitted K1 and K2 [2 x 8; R106; 0 DESIGN CHOICE (no request)] -/
  txK1 : Nat := 0
  txK2 : Nat := 0
  /-- APS_FOP cause that stands, 0 none [2; R106; 0] -/
  fop : Nat := 0
  /-- Boundary count by which the far-end bridge must agree with the local request, none while it does [R106; none] -/
  bridgeAt : Option Nat := none
  deriving DecidableEq, Repr

/-- Transport framing and protection. -/
structure TransportSt where
  /-- Transport ports by number [R82; none] -/
  ports : Tab TPort := []
  /-- ODUs by index, at most 4,096 [R88; none] -/
  odus : Tab Odu := []
  /-- SDH path objects by index [R92; none] -/
  paths : Tab Path := []
  /-- Packet clients by index, at most 256 [R90; none] -/
  clients : Tab Client := []
  /-- Protection groups by index, at most 4,096 [R102; none] -/
  groups : Tab Prot := []
  deriving DecidableEq, Repr

end Sys2Proof.Machine
end

