-- ==== Sys2Proof/Machine/StateTwin.lean ====
section
/-! DEFINITION. State of the twin pair (spec/14_twin_redundancy.md). A field's docstring ends with
[width; rule; reset value]. -/

namespace Sys2Proof.Machine

open Sys2Proof

/-- A frame that a manifest may cover (R397, R398). -/
structure Covered where
  /-- Sequence number: per port, or replicated in D mode [48; R397] -/
  seq : Nat
  /-- Linear time-base value at which its last bit reached the receive PCS, 2^-16 ns [80; R397] -/
  last : Nat
  /-- FCS of the frame [32; R399] -/
  fcs : Nat
  /-- h of its decision record, once it is decided [64; R398] -/
  h : Option Nat
  deriving DecidableEq, Repr

/-- Sequence state of one line port (R397). -/
structure TwinPort where
  /-- Sequence number of the next frame [48; R397; 0] -/
  seq : Nat := 0
  /-- Next replicated number: sent by the active, expected by the standby [48; R397; 0] -/
  rep : Nat := 0
  /-- Sequence offset of a standby in Y mode, own number less the active's [R399; 0] -/
  off : Int := 0
  /-- cut(p, N) of the last tide that the active cut, as tide and number [64 and 48; R397; none] -/
  cut : Option (Nat × Nat) := none
  /-- Frames that a manifest to come may cover, or that R399 searches [R398; none] -/
  frames : List Covered := []
  /-- Tides with the port skip flag [R400; none] -/
  skips : List Nat := []
  deriving DecidableEq, Repr

/-- A referee vector (R405). -/
structure Vector where
  /-- Ingress port [6; Table 14-10] -/
  port : Nat
  /-- Expected h [64; Table 14-10] -/
  h : Nat
  /-- Frame bytes [60 to 256; Table 14-10] -/
  bytes : List Byte
  deriving DecidableEq, Repr

/-- A decision that is being made (R404, R405). -/
structure Contest where
  /-- The tide whose manifests differ [64; R402] -/
  tide : Nat
  /-- The standby still awaits the active's corrected evidence [1; R404; 0] -/
  wait : Bool := false
  /-- This unit's referee result [1; R405; none yet] -/
  own : Option Bool := none
  /-- The twin's referee result [1; R405; none yet] -/
  twin : Option Bool := none
  deriving DecidableEq, Repr

/-- A planned switchover (R409). -/
structure Switch where
  /-- Tide N [64; R409] -/
  n : Nat
  /-- This unit has released the token at boundary N [1; R409] -/
  released : Bool := false
  deriving DecidableEq, Repr

/-- The twin pair. -/
structure TwinSt where
  /-- Unit state: 0 SOLO, 1 ACTIVE, 2 WARM, 3 SYNCING, 4 COLD, 5 STALE [3; Table 14-4; 0] -/
  st : Nat := 0
  /-- Attachment mode: false Y, true D [1; TWIN.SET; Y DESIGN CHOICE (the spec gives none)] -/
  dMode : Bool := false
  /-- Automatic join [1; TWIN.SET; 1] -/
  auto : Bool := true
  /-- Referee enabled [1; TWIN.SET; 1] -/
  referee : Bool := true
  /-- The twin's last reported state [3; Table 14-10; 0 DESIGN CHOICE (none reported)] -/
  peer : Nat := 0
  /-- The twin's last reported mode [1; R413; Y DESIGN CHOICE (none reported)] -/
  peerD : Bool := false
  /-- The twin's last reported profile [2; R481; LINE DESIGN CHOICE (none reported)] -/
  peerProfile : Nat := 0
  /-- The hawser link is up [1; R383; 0] -/
  hawser : Bool := false
  /-- Level of KILL_IN [1; R388; 0] -/
  killIn : Bool := false
  /-- Level of KILL_OUT [1; R388; 0] -/
  killOut : Bool := false
  /-- KILL_IN is high and rose before this unit's KILL_OUT [1; R388; 0] -/
  inFirst : Bool := false
  /-- Level of the mooring output [1; R390; 0 DESIGN CHOICE (the spec gives none)] -/
  moor : Bool := false
  /-- The boundary or midpoint at which the mooring output toggled last, in half tides, plus 1 [model's own for R390; 0: none] -/
  moorAt : Nat := 0
  /-- Elapsed time of the last edge on the mooring input, plus 1 [R390; 0: none] -/
  moorIn : Nat := 0
  /-- The twin's heartbeat is declared lost [1; R390; 0] -/
  hbLost : Bool := false
  /-- Elapsed time of a health query that awaits its answer, plus 1 [R412; 0: none] -/
  query : Nat := 0
  /-- Stale cause: 1 hawser, 2 commit missed, 3 sequence lost, 4 undecided [4; Table 14-10; 0] -/
  stale : Nat := 0
  /-- Tide of the last class A checkpoint applied [64; Table 14-10; 0] -/
  lastCk : Nat := 0
  /-- Tide of the last class A checkpoint sent [64; Table 20-7; 0] -/
  lastSent : Nat := 0
  /-- Tide of the last manifest compared [64; Table 14-10; 0] -/
  lastMf : Nat := 0
  /-- Tide of the last commit applied [64; Table 20-7; 0] -/
  lastCommit : Nat := 0
  /-- Line ports [64; R397] -/
  ports : List TwinPort := List.replicate 64 {}
  /-- Tides with the device skip flag [R400; none] -/
  skips : List Nat := []
  /-- Own manifests of the last 64 tides, newest first, as tide and words of Table 14-6 [R402; none] -/
  own : List (Nat × List Word) := []
  /-- The twin's manifests of the last 64 tides, likewise [R402; none] -/
  twin : List (Nat × List Word) := []
  /-- Tides for which the twin has said that it is suspect [R404; none] -/
  susp : List Nat := []
  /-- Tide of the last own manifest sent, plus 1 [64; R402; 0: none] -/
  mfSent : Nat := 0
  /-- Time-base value at which the last time-exchange request was sent, linear 2^-16 ns [80; R394; none] -/
  timeSent : Option Nat := none
  /-- Time-base value at which the last time-exchange record arrived, linear 2^-16 ns [80; R394; 0] -/
  timeArr : Nat := 0
  /-- Packets completed in the running tide, by VOQ [R403; none] -/
  completed : Tab Nat := []
  /-- Referee vectors 0 to 63 that are valid [R405; none] -/
  vectors : Tab Vector := []
  /-- The decision being made [R404, R405; none] -/
  contest : Option Contest := none
  /-- A decision awaits TWIN.DECIDE [1; R405; 0] -/
  undecided : Bool := false
  /-- Planned switchover [R409; none] -/
  switch : Option Switch := none
  /-- Elapsed time at which a takeover begun makes the unit ACTIVE, plus 1 [R389; 0: none] -/
  takeAt : Nat := 0
  /-- The takeover is cold [1; R410; 0] -/
  cold : Bool := false
  /-- Detector of the takeover: 1 release, 2 heartbeat, 3 manifest, 4 host, 5 switchover [Table 14-12; 0] -/
  detector : Nat := 0
  /-- Records received that await their step, oldest first [R384; none] -/
  rx : List TwinRec := []
  /-- Own class A and class B values at the last 3 boundaries, newest first, as tide and items [R396; none] -/
  hist : List (Nat × List CkItem) := []
  /-- Class A values that the last checkpoint carried [R395; none] -/
  sent : List CkItem := []
  /-- Learn results of the running tide, oldest first [R395; none] -/
  learned : List CkItem := []
  /-- Joining: 0 no, 1 bulk copy, 2 rotation [2; R414; 0] -/
  join : Nat := 0
  /-- Tide boundaries of the rotation still to come [11; R414; 0] -/
  rotate : Nat := 0
  /-- Commits whose standby verdict is awaited: transaction handles [R392; none] -/
  acks : List Nat := []
  /-- MODE_MISMATCH or VERSION_MISMATCH has been raised for the twin's present report [1; R413, R479; 0] -/
  mismatch : Bool := false
  deriving DecidableEq, Repr

end Sys2Proof.Machine
end

