-- ==== Sys2Proof/Machine/State.lean ====
section
/-! DEFINITION. The whole state of the K12, as plain data, and the machine right after reset. -/

namespace Sys2Proof.Machine

open Sys2Proof

/-- Faults: the model has none; every command and event of the K12 has an effect the spec gives. -/
inductive Fault where
  /-- Raised by nothing: kept so that the type has a name for a stop. Safe. -/
  | none
  deriving DecidableEq, Repr

/-- Reasons for which a command is refused by the model. -/
inductive Refusal where
  /-- The command has no meaning yet (its arm of exec names it). Safe. -/
  | notModelled (mnemonic : String)
  deriving DecidableEq, Repr

/-- Something that left the K12 by a pin, a lane or the PCI Express link (the model's own record of its outputs). -/
inductive Output where
  /-- An MSI-X message: function and vector (R421). -/
  | msix (fn vec : Nat)
  /-- Configuration Request Retry Status for a request to a function's offset (R418). -/
  | configRetry (fn off : Nat)
  /-- A frame on a line port (R64). -/
  | frame (port : Nat) (bytes : List Byte)
  /-- Bits on TIDE_OUT (R350). -/
  | tideOut (bits : Nat)
  /-- A message on TOD_TX for a PPS edge at a linear time in ns (R348). -/
  | tod (ns : Nat)
  /-- PPS_OUT rises at a linear time in 2^-16 ns, and stays high for a width in ms (R348). -/
  | pps (time width : Nat)
  /-- A fabric cell or message on a lane (R316). -/
  | cell (lane : Nat) (bytes : List Byte)
  /-- A record on the hawser link (R384). -/
  | hawser (r : TwinRec)
  /-- The bulk copy to a joining twin: every item of R414 as it stands (R416). -/
  | bulkCopy
  /-- A level on the mooring output (R390). -/
  | moor (level : Bool)
  /-- Data that the TAP shifts out on TDO after an instruction (R571). -/
  | tdo (v : Nat)
  /-- A voltage target written on the AVSBus: rail and millivolts (R558). -/
  | avs (rail mv : Nat)
  deriving DecidableEq, Repr

/-- The identity and the straps (R30). -/
structure Ident where
  /-- DEVID[1:0] as sampled at the release of PORST_N [2; R30, Table 15-3; 0] -/
  devid : Nat := 0
  /-- TWIN_EN as sampled at the release of PORST_N [1; R30, Table 15-3; 0] -/
  twinEn : Bool := false
  /-- Lifecycle state, fused: 0 DRYDOCK, 1 COMMISSIONED, 2 SURVEY, 3 RETURNED, 4 SCRAPPED [3; Table 15-3, R500; COMMISSIONED DESIGN CHOICE (fused)] -/
  lifecycle : Nat := 1
  /-- FW_VERSION, running Enenhild version [32; Table 15-3; 0] -/
  fwVersion : Nat := 0
  /-- FW_STATE [2:0]: 0 booting, 1 ready, 2 swapping, 3 safe state [3; Table 15-3; 0] -/
  fwState : Nat := 0
  /-- FW_STATE [3], running image: 0 A, 1 B [1; Table 15-3; 0] -/
  image : Nat := 0
  deriving DecidableEq, Repr

/-- The state of the K12. -/
structure State where
  /-- Identity, straps, lifecycle and firmware state. -/
  id : Ident := {}
  /-- Time base and tides (spec/12_time_tides.md). -/
  tm : TimeSt := {}
  /-- Line lanes, Ethernet ports, MACsec (spec/02_lanes_ethernet.md). -/
  line : LineSt := {}
  /-- Transport ports, ODUs, SDH paths, protection (spec/03_transport_framing.md). -/
  tr : TransportSt := {}
  /-- E1 circuits by index, at most 16,384 (spec/04_circuit_emulation.md) [R109; none]. -/
  circuits : Tab Circuit := []
  /-- Forwarding pipelines (spec/05_forwarding_pipeline.md). -/
  fwd : FwdSt := {}
  /-- Table engines (spec/06_table_engines.md). -/
  tab : TableSt := {}
  /-- Learning and upkeep (spec/07_learning_table_upkeep.md). -/
  learn : LearnSt := {}
  /-- Buffers, queues and the scheduler (spec/08_buffer_pools.md, spec/09_queues_scheduling.md). -/
  td : TdSt := {}
  /-- Deterministic service (spec/10_deterministic_service.md). -/
  det : DetSt := {}
  /-- Fabric interface (spec/11_fabric_mesh.md). -/
  fab : FabSt := {}
  /-- Twin pair (spec/14_twin_redundancy.md). -/
  twin : TwinSt := {}
  /-- Faults and recovery (spec/20_faults_recovery.md). -/
  flt : FaultSt := {}
  /-- What AON keeps across PORST_N (Table 20-8). -/
  aon : AonSt := {}
  /-- Flash and fuses (spec/17_startup_upgrade.md). -/
  flash : FlashSt := {}
  /-- Start-up and upgrade (spec/17_startup_upgrade.md). -/
  boot : BootSt := {}
  /-- HBM controllers (spec/13_hbm_memory.md). -/
  hbm : HbmSt := {}
  /-- Power domains and governor (spec/18_power_governor.md). -/
  pow : PowerSt := {}
  /-- Self-test and lifecycle (spec/19_self_test_lifecycle.md). -/
  test : TestSt := {}
  /-- Counter banks, bandwidth windows, dumps (spec/21_telemetry_counters.md). -/
  tel : TelemSt := {}
  /-- Sensors, clocks and pins (spec/22_electrical_package.md). -/
  board : BoardSt := {}
  /-- Host attachment (spec/15_host_pcie.md). -/
  host : HostIf := {}
  /-- Command interface (spec/16_command_interface.md). -/
  ecs : Ecs := {}
  /-- Counters that are not 0, keyed by group, instance and index (Table 15-7) [48 or 64; R67, R434; 0] -/
  ctr : Tab Nat := []
  /-- Snapshots of counters, same keys [48; R67; 0] -/
  snap : Tab Nat := []
  /-- What has left the K12, newest first [model's own record; empty]. -/
  wire : List Output := []
  /-- Index of the next free value [model's own; 0 DESIGN CHOICE]. -/
  fresh : Nat := 0
  /-- Commands and events that wait, first in, first out [model's own queue; empty]. -/
  pending : List Instr := []
  deriving DecidableEq, Repr

/-- The K12 right after reset (PORST_N low, R31): every field at its reset value. -/
def State.reset : State := {}

end Sys2Proof.Machine
end

