-- ==== Sys2Proof/Machine/Ops.lean ====
section
/-! DEFINITION. The operations that commands and events share: the clock, events, interrupts, counters, host memory and
the unit IDs. -/

namespace Sys2Proof.Machine

open Sys2Proof

/-! ### The clock (R8 to R10, R332) -/

/-- 1 ns in units of 2^-16 ns (R332). -/
def nsU : Nat := 65536

/-- A tide, 125 us, in units of 2^-16 ns (R9). -/
def tideU : Nat := 125000 * 65536

/-- One second in units of 2^-16 ns. -/
def secU : Nat := 1000000000 * 65536

/-- Microseconds in units of 2^-16 ns. -/
def usU (n : Nat) : Nat := n * 65536000

/-- Milliseconds in units of 2^-16 ns. -/
def msU (n : Nat) : Nat := n * 65536000000

/-- Move the clock to an instant of the current tide; it never goes back. -/
def State.atTime (s : State) (t : Nat) : State := { s with tm := { s.tm with sub := max s.tm.sub t } }

/-- The linear time-base value now, 2^-16 ns (R332). -/
def nowLin (s : State) : Nat := s.tm.tideStart + s.tm.sub

/-- Clocks of 1.2 GHz in a time of 2^-16 ns (R25). -/
def coreClocks (t : Nat) : Nat := t * 12 / (10 * nsU)

/-- Time elapsed since PORST_N release, 2^-16 ns, steps of the time base left out (the model's timers). -/
def elapsed (s : State) : Nat := s.tm.elapsed + s.tm.sub

/-- A linear value in the 80-bit layout of Table 12-1. -/
def tbLayout (lin : Nat) : Nat :=
  let ns := lin / nsU
  (ns / 1000000000 % 2 ^ 34) * 2 ^ 46 + (ns % 1000000000) * 2 ^ 16 + lin % nsU

/-- The linear form of a value in the layout of Table 12-1 (R332). -/
def tbLinear (v : Nat) : Nat :=
  ((v / 2 ^ 46 % 2 ^ 34) * 1000000000 + v / 2 ^ 16 % 2 ^ 30) * nsU + v % nsU

/-- "Time is locked": LOCKED or HOLDOVER (R335). -/
def timeLocked (s : State) : Bool := s.tm.st != 0

/-- The time-base value now in the layout of Table 12-1. -/
def nowTb (s : State) : Nat := tbLayout (nowLin s)

/-- The linear nanosecond count modulo 2^32 of a linear value (R339). -/
def ns32 (lin : Nat) : Nat := lin / nsU % 2 ^ 32

/-! ### Free values -/

/-- The next free value: nothing is known of it (Config.freeNat has no body). -/
def freeVal (s : State) : Nat := Config.freeNat s.fresh

/-- The state with the next free value taken. -/
def State.took (s : State) : State := { s with fresh := s.fresh + 1 }

/-! ### What the governor measures (R494, R495) -/

/-- Add n to a measure of the running tide. -/
def powTally (k n : Nat) (s : State) : State :=
  { s with pow := { s.pow with tally := tset s.pow.tally k (tgetD s.pow.tally k 0 + n) } }

/-- Raise a measure of the running tide to n. -/
def powPeak (k n : Nat) (s : State) : State :=
  { s with pow := { s.pow with tally := tset s.pow.tally k (max n (tgetD s.pow.tally k 0)) } }

/-! ### The berth token and the skip flags (R387, R400) -/

/-- Whether boundary scan holds TXEN and KILL_OUT low: with EXTEST, EXTEST_PULSE, EXTEST_TRAIN or CLAMP in the TAP, outside
DRYDOCK and RETURNED (R571). -/
def scanning (s : State) : Bool :=
  decide (4 ≤ s.aon.tap) && decide (s.aon.tap ≤ 7) && s.id.lifecycle != 0 && s.id.lifecycle != 3

/-- Whether the unit may drive line transmitters and send on the fabric: SOLO, or ACTIVE with KILL_OUT high and KILL_IN low
or risen before it (Table 14-4, R387, R388). -/
def mayDrive (s : State) : Bool :=
  s.twin.st == 0 || (s.twin.st == 1 && s.twin.killOut && (!s.twin.killIn || s.twin.inFirst))

/-- Whether a standby forwards in shadow, or the unit forwards at all (Table 14-4, R414). -/
def forwards (s : State) : Bool :=
  decide (s.twin.st ≤ 2) || (s.twin.st == 3 && s.twin.join == 2 && decide (s.twin.rotate ≤ 1024))

/-- Set the device skip flag of the running tide (R400). -/
def skipDevice (s : State) : State :=
  if s.twin.st = 0 ∨ s.twin.skips.contains s.tm.tide then s
  else { s with twin := { s.twin with skips := s.tm.tide :: s.twin.skips.take 3 } }

/-- Set the skip flag of port p for a tide (R400). -/
def skipPort (p tide : Nat) (s : State) : State :=
  if s.twin.st = 0 then s
  else
    let mark (x : TwinPort) : TwinPort := if x.skips.contains tide then x else { x with skips := tide :: x.skips.take 3 }
    { s with twin := { s.twin with ports := lmod s.twin.ports p mark } }

/-- A port is created: its sequence numbers count from 0 (R397). -/
def twinPortNew (p : Nat) (s : State) : State := { s with twin := { s.twin with ports := lmod s.twin.ports p fun _ => {} } }

/-- A packet of VOQ q completes in the running tide (R403). -/
def voqCompleted (q : Nat) (s : State) : State :=
  if s.twin.st = 1 then { s with twin := { s.twin with completed := tset s.twin.completed q (tgetD s.twin.completed q 0 + 1) } } else s

/-- Note a learn result for the class A checkpoint of the running tide (item kind 0x01, R395): kind of result, table, key
and the entry's fields. -/
def learnLog (kind table key : Nat) (entry : List Nat) (s : State) : State :=
  if s.twin.st = 1 then { s with twin := { s.twin with learned := s.twin.learned ++ [(1, 0, [kind, table, key] ++ entry)] } } else s

/-! ### Outputs -/

/-- Record something that leaves the K12. -/
def emit (o : Output) (s : State) : State := { s with wire := o :: s.wire }

/-! ### Unit IDs (R20, Tables 1-4, 1-5 and 20-4) -/

/-- The home of a switched power domain: 0 FD-W, 1 FD-E, 2 TD-W, 3 TD-E (Tables 1-4, 1-5). -/
def homeOf (d : Nat) : Nat :=
  if d ≤ 7 || (16 ≤ d && d ≤ 17) || (20 ≤ d && d ≤ 21) || (24 ≤ d && d ≤ 27) || (32 ≤ d && d ≤ 33) || d == 36 || d == 37
  then 0
  else if d ≤ 39 then 1
  else if (40 ≤ d && d ≤ 47) || (56 ≤ d && d ≤ 57) || d == 60 || d == 61 || (63 ≤ d && d ≤ 64) || (67 ≤ d && d ≤ 72)
  then 2
  else 3

/-- The unit ID of a unit of a switched domain (Table 1-4). -/
def unitOf (d i : Nat) : Nat := homeOf d * 2 ^ 13 + d * 2 ^ 6 + i

/-- The unit ID of a unit of MAIN (home 4, cluster 127). -/
def mainUnit (i : Nat) : Nat := 4 * 2 ^ 13 + 127 * 2 ^ 6 + i

/-- The unit ID of a unit of AON (home 5, cluster 127). -/
def aonUnit (i : Nat) : Nat := 5 * 2 ^ 13 + 127 * 2 ^ 6 + i

/-- The unit that raises the events of Enenhild: MPC core 0 (Table 20-4). -/
def mpcUnit : Nat := mainUnit 0

/-! ### Counters (R67, Table 15-7) -/

/-- The key of counter k of instance i of a group. -/
def ctrKey (g i k : Nat) : Nat := (g * 2 ^ 32 + i) * 1024 + k

/-- The value of a counter. -/
def ctrGet (s : State) (g i k : Nat) : Nat := tgetD s.ctr (ctrKey g i k) 0

/-- Set a counter; a counter that is 0 is not listed. -/
def ctrPut (g i k v : Nat) (s : State) : State := { s with ctr := mset 0 s.ctr (ctrKey g i k) v }

/-! ### Events (R424, R425) -/

/-- Group of the device counters of ECS area a (Table 15-7). -/
def areaGroup (a : Nat) : Nat := 0x40 + a

/-- Count n discarded events: EVR_LOST saturating, EVENTS_DISCARDED, and the count for the next EVENTS_LOST (R425). -/
def discardEvents (n : Nat) (s : State) : State :=
  let lost := min (2 ^ 32 - 1) (s.host.evrLost.toNat + n)
  let s := ctrPut 0x55 0 0 ((ctrGet s 0x55 0 0 + n) % 2 ^ 48) s
  { s with host := { s.host with evrLost := toWord lost, evDiscarded := s.host.evDiscarded + n } }

/-- Discard one event; where EVENTS_DISCARDED reaches its bit 47 the COUNTER_HALF that it raises is discarded too. -/
def discardEvent (s : State) : State :=
  discardEvents (if ctrGet s 0x55 0 0 + 1 = 2 ^ 47 then 2 else 1) s

/-- Raise an event: it waits in the on-chip queue, or is discarded while the ring is disabled or the queue holds
4,096 records (R425). -/
def raise (cls code unit : Nat) (payload : List Byte) (s : State) : State :=
  if s.host.evrEnable && decide (s.host.evQueue.length < 4096) then
    { s with host := { s.host with evQueue := s.host.evQueue ++ [⟨cls, code, unit, s.tm.tide, payload⟩] } }
  else discardEvent s

/-- Raise an event whose record carries a stated tide. -/
def raiseAt (tide cls code unit : Nat) (payload : List Byte) (s : State) : State :=
  if s.host.evrEnable && decide (s.host.evQueue.length < 4096) then
    { s with host := { s.host with evQueue := s.host.evQueue ++ [⟨cls, code, unit, tide, payload⟩] } }
  else discardEvent s

/-- Payload fields: each a number and its bytes, packed from byte 0 upward (R424). -/
def pay : List (Nat × Nat) → List Byte
  | [] => []
  | (v, k) :: r => leBytes v k ++ pay r

/-- Add n to a 48-bit counter that accumulates: it wraps at 2^48, and a change of bit 47 from 0 to 1 raises
COUNTER_HALF of the given class, code and payload (R67). -/
def ctrAdd48 (cls code unit : Nat) (payload : List Byte) (g i k n : Nat) (s : State) : State :=
  let old := ctrGet s g i k
  let v := (old + n) % 2 ^ 48
  let s := ctrPut g i k v s
  if !(bit old 47) && bit v 47 then raise cls code unit payload s else s

/-- Add n to a 64-bit counter. -/
def ctrAdd64 (g i k n : Nat) (s : State) : State := ctrPut g i k ((ctrGet s g i k + n) % 2 ^ 64) s

/-- A counter read in index order: 48-bit or 64-bit values, two words each, low word first. -/
def ctrWords (t : Tab Nat) (g i : Nat) (ks : List Nat) : List Word :=
  ks.flatMap fun k => toWords (tgetD t (ctrKey g i k) 0) 2

/-- Clear counters. -/
def ctrClear (g i : Nat) (ks : List Nat) (s : State) : State :=
  ks.foldl (fun s k => ctrPut g i k 0 s) s

/-- The packet I/O device counters (R436): index k, instance 64 in COUNTER_HALF. -/
def pioCount (k n : Nat) (s : State) : State := ctrAdd48 0x15 4 (mainUnit 5) (pay [(64, 1), (k, 1)]) 0x55 0 k n s

/-- The packet I/O counters of ring r: receive counters at 0 to 3, transmit counters at 16 to 18 (R436). -/
def ringCount (r k n : Nat) (s : State) : State := ctrAdd48 0x15 4 (mainUnit 6) (pay [(r, 1), (k, 1)]) 0x55 (r + 1) k n s

/-- Count a register-lock violation (R7, Table 15-3). -/
def lockViol (s : State) : State :=
  { s with host := { s.host with lockViol := toWord (satInc32 s.host.lockViol.toNat) } }

/-- Add n to twin counter k (R415). -/
def twinCount (k n : Nat) (s : State) : State := ctrAdd48 0x0F 0x11 (unitOf 79 17) (pay [(k, 1)]) 0x4F 0 k n s

/-- Raise an event of the twin class (Table 14-12); its events carry MPC core 0's unit ID. -/
def twinRaise (code : Nat) (payload : List Byte) (s : State) : State := raise 0x0F code mpcUnit payload s

/-- The health record of this unit: state, mode, version, twin compatibility and profile (Table 14-2). -/
def sendHealth (s : State) : State :=
  if s.twin.hawser then
    emit (.hawser (.control (.health s.twin.st (b2n s.twin.dMode) s.id.fwVersion
      ((s.flash.slots.getD s.id.image {}).compat) s.fwd.profile))) s
  else s

/-- Send a configuration record to a standby that takes part in commits (R392). -/
def toTwin (c : TwinConfig) (s : State) : State :=
  if s.twin.st = 1 ∧ s.twin.hawser ∧ (s.twin.peer = 2 ∨ s.twin.peer = 3) then emit (.hawser (.config c)) s else s

/-- Change the unit state, raising STATE_CHANGED, and report it to the twin (Table 14-4, Table 14-12). -/
def setTwin (new cause : Nat) (s : State) : State :=
  if s.twin.st = new then s
  else sendHealth (twinRaise 1 (pay [(s.twin.st, 1), (new, 1), (cause, 1)]) { s with twin := { s.twin with
    st := new, stale := if new = 5 then cause else 0 } })

/-- The cause that STATE_CHANGED carries where the spec names none: a free value. -/
def setTwinFree (new : Nat) (s : State) : State :=
  if s.twin.st = new then s else setTwin new (freeVal s % 256) s.took

/-- Change the twin pair's state. -/
def modTwin (f : TwinSt → TwinSt) (s : State) : State := { s with twin := f s.twin }

/-- Enter STALE with a cause; a unit that is ACTIVE notes its standby STALE instead. Both raise TWIN_STALE (R410). -/
def goStale (cause : Nat) (s : State) : State :=
  twinRaise 8 (pay [(cause, 1)])
    (if s.twin.st = 1 then modTwin (fun x => { x with peer := 5, join := 0 }) s
    else setTwin 5 cause (modTwin (fun x => { x with join := 0, rotate := 0 }) s))

/-- The link goes down: with the heartbeat also failed no unit acts, else a standby is STALE; a bulk copy is lost. -/
def linkDown (s : State) : State :=
  if s.twin.hbLost then twinRaise 9 [] s
  else if s.twin.st = 2 ∨ (s.twin.st = 3 ∧ s.twin.join ≠ 1) ∨ (s.twin.st = 1 ∧ (s.twin.peer = 2 ∨ s.twin.peer = 3)) then goStale 1 s
  else s

/-- The hawser link fails of itself: lane and cause of HAWSER_DOWN are free values (R383, R509, R564). -/
def hawserFails (s : State) : State :=
  if !s.id.twinEn ∨ !s.twin.hawser then s
  else
    let lane := freeVal s % 256
    let cause := freeVal s.took % 256
    linkDown (twinRaise 3 (pay [(lane, 1), (cause, 1)]) (modTwin (fun x => { x with hawser := false, query := 0 }) s.took.took))

/-! ### Interrupts (R421) -/

/-- Key of an MSI-X vector. -/
def msixKey (fn vec : Nat) : Nat := fn * 256 + vec

/-- Signal a vector: a message, or the pending bit while the vector is masked (R421). -/
def signal (fn vec : Nat) (s : State) : State :=
  let e := tgetD s.host.msix (msixKey fn vec) {}
  if e.masked then
    { s with host := { s.host with msix := tset s.host.msix (msixKey fn vec) { e with pend := true } } }
  else emit (.msix fn vec) s

/-- Count a record written by a moderated source (R421). -/
def Moderation.wrote (m : Moderation) (now : Nat) : Moderation :=
  { m with unsig := m.unsig + 1, oldest := if m.unsig = 0 then now else m.oldest }

/-- Whether the source signals: its unsignalled records number at least M, or U has passed since the oldest (R421). -/
def Moderation.due (m : Moderation) (now : Nat) : Bool :=
  decide (0 < m.unsig) && (decide (m.m ≤ m.unsig) || decide (m.oldest + usU m.u ≤ now))

/-- The source after it has signalled. -/
def Moderation.signalled (m : Moderation) : Moderation := { m with unsig := 0 }

/-- Write bytes to host memory by DMA. -/
def hostWrite (a : Nat) (bs : List Byte) (s : State) : State :=
  { s with host := { s.host with mem := mwriteBytes s.host.mem a bs } }

/-- Write words to host memory by DMA. -/
def hostWriteWords (a : Nat) (ws : List Word) (s : State) : State := hostWrite a (wordBytes ws) s

/-! ### Handles (R11) -/

/-- The handle of an object: type in [31:24], index in [23:0]. -/
def handle (ty idx : Nat) : Nat := ty * 2 ^ 24 + idx

/-- The type of a handle. -/
def hType (h : Nat) : Nat := h / 2 ^ 24

/-- The index of a handle. -/
def hIdx (h : Nat) : Nat := h % 2 ^ 24

/-- A handle as a field holds it: every handle of type 0x00 is the null handle, written 0 (R11). -/
def nullOr (h : Nat) : Nat := if hType h = 0 then 0 else h

/-- The handle in request word i; null reads as 0 (R11). -/
def hwd (q : List Word) (i : Nat) : Nat := nullOr (wd q i)

/-- Indices of a type reserved by staged creates. -/
def reservedIdx (s : State) (ty : Nat) : List Nat :=
  s.ecs.reserved.filterMap fun e => if hType e.1 = ty then some (hIdx e.1) else none

/-! ### Clusters in service (R22, R508, R513, R521) -/

/-- Whether cluster d does no work: fenced by an error, under a sounding, or failed in one. -/
def domOut (s : State) (d : Nat) : Bool :=
  thas s.flt.fences d || ((s.test.slices[d]?).map (·.failed)).getD false
    || match s.test.run with
      | some r => r.dom == d
      | none => false

/-- Whether cluster d's fences are raised: after an error, past the withdrawal of a sounding, or after one it failed (R22). -/
def fenced (s : State) (d : Nat) : Bool :=
  thas s.flt.fences d || ((s.test.slices[d]?).map (·.failed)).getD false
    || match s.test.run with
      | some r => r.dom == d && decide (1 ≤ r.phase)
      | none => false

/-- The cluster of the running sounding where it rests on ports, circuits, rings or lookup programs that are not in use: on a
standby with standby soundings it does not (R509, Table 19-4). -/
def idleSounding (s : State) : Option Nat :=
  (s.test.run.map (·.dom)).filter fun d =>
    !(decide (2 ≤ s.twin.st) && (s.test.standby || d == 37 || d == 38 || (decide (63 ≤ d) && decide (d ≤ 66))))

/-- Whether a sounding of cluster d needs every port and every ring idle (Table 19-4). -/
def needsIdle (d : Nat) : Bool := (decide (37 ≤ d) && decide (d ≤ 39)) || d == 60 || (decide (63 ≤ d) && decide (d ≤ 66))

/-- Whether the running sounding keeps port p from entering service (R509). -/
def portWithheld (p : Nat) (s : State) : Bool :=
  match idleSounding s with
  | some d => needsIdle d || (decide (20 ≤ d) && decide (d ≤ 23)) || (decide (24 ≤ d) && decide (d ≤ 31) && p / 8 == d - 24)
      || (decide (32 ≤ d) && decide (d ≤ 35) && p / 16 == d - 32) || (decide (56 ≤ d) && decide (d ≤ 59) && p / 16 == d - 56)
  | none => false

/-- Whether the running sounding keeps transport ports and circuits from entering service (R509). -/
def circuitsWithheld (s : State) : Bool := idleSounding s == some 36

/-- Whether the running sounding keeps the PF1 rings from being served (R509). -/
def ringsWithheld (s : State) : Bool :=
  match idleSounding s with
  | some d => needsIdle d
  | none => false

/-- The partner of queue-manager slice 40 + h, as h (R244). -/
def partner (h : Nat) : Nat := if h % 2 = 0 then h + 1 else h - 1

/-- The queues of slice 40 + h belong with its partner: while the slice is out of service, or its pair is concentrated onto the
even slice (R23, R272, R494, R513). -/
def sliceAway (s : State) (h : Nat) : Bool :=
  !domOut s (40 + partner h) && (domOut s (40 + h) || (decide (h % 2 = 1) && bit s.pow.pairOn (h / 2)))

/-- The move of slice 40 + h that is called for: the last one, or one that begins now (R272). -/
def sliceMove (s : State) (h : Nat) : Option (Bool × Nat) :=
  let was := s.td.moves.getD h none
  if (was.map fun m => m.1).getD false = sliceAway s h then was else some (sliceAway s h, elapsed s)

/-- Where a slice's queues belong with another slice than before, they begin to move, one at a time (R272). -/
def moveSlices (s : State) : State := { s with td := { s.td with moves := (List.range 16).map (sliceMove s) } }

/-- Whether queue q, the (q / 16)-th of its slice, has moved within a time from the start of a move: each transfer takes some time
and at most 40 ns (R272). -/
def queueMoved (q d : Nat) : Bool :=
  decide ((List.range (q / 16 + 1)).foldl (fun n j => n + 1 + Config.sliceMove j % (40 * nsU)) 0 ≤ d)

/-- The slice that serves queue q, as 0 to 15: its home slice or that one's partner, and at each instant one of them (R244, R272). -/
def servingSlice (s : State) (q : Nat) : Nat :=
  let h := q % 16
  match s.td.moves.getD h none with
  | none => h
  | some (away, since) => if queueMoved q (elapsed s - since) = away then partner h else h

/-! ### Power domains (R484) -/

/-- The unit of the governor. -/
def govUnit : Nat := mainUnit 9

def domOf (s : State) (d : Nat) : Domain := s.pow.doms.getD d {}

def modDom (d : Nat) (f : Domain → Domain) (s : State) : State := { s with pow := { s.pow with doms := lmod s.pow.doms d f } }

/-- A frame passes a line port in either direction: its octet and port group have work (R492, R495). -/
def frameSeen (p : Nat) (s : State) : State :=
  let ask := modDom (24 + p / 8) (fun x => { x with asked := elapsed s }) (modDom (32 + p / 16) (fun x => { x with asked := elapsed s }) s)
  { ask with pow := { ask.pow with frameTide := tset ask.pow.frameTide p s.tm.tide } }

/-- Add n to power counter k of a domain, or of the device for domain 127 (R497). -/
def powCount (d k n : Nat) (s : State) : State :=
  ctrAdd48 0x10 5 govUnit (pay [(d, 1), (k, 1)]) 0x50 (if d = 127 then 0 else d + 1) k n s

/-- A request to a domain wakes it from IDLE, RETAIN or QUIET, or the governor from OFF (R484, R492). -/
def wakeDom (d : Nat) (s : State) : State :=
  let x := domOf s d
  let s := modDom d (fun x => { x with asked := elapsed s }) s
  if x.st = 0 ∨ 4 < x.st ∨ x.wake ≠ 0 then s
  else powCount d 0 1 (modDom d (fun x => { x with wake := elapsed s + 1 }) s)

end Sys2Proof.Machine
end

