-- ==== Sys2Proof/Machine/TableOps.lean ====
section
/-! DEFINITION. The table engines: layered items, Sorrel, Dill, its hot-bucket cache and Sage
(spec/06_table_engines.md). -/

namespace Sys2Proof.Machine

open Sys2Proof

/-! ### Items with old versions (R155, R176) -/

/-- The version that a packet sees: of the current epoch, or of the old one (R154, R155). -/
def seenFrom {α : Type} (cur : Bool) : Option α → List (Nat × Option α) → Option α
  | v, [] => v
  | v, (x, old) :: r => if x = 0 ∧ cur then v else seenFrom cur old r

/-- The version of an item that a packet of the current or of the old epoch sees. -/
def Layered.seen {α : Type} (l : Layered α) (cur : Bool) : Option α := seenFrom cur l.val l.past

/-- Change an item under the new epoch of transaction x only (R176); a later operation of x supersedes an earlier one
(R177). -/
def Layered.push {α : Type} (x : Nat) (v : Option α) (l : Layered α) : Layered α :=
  match l.past with
  | (y, old) :: r => if y = x then ⟨v, (y, old) :: r⟩ else ⟨v, (x, l.val) :: (y, old) :: r⟩
  | [] => ⟨v, [(x, l.val)]⟩

/-- Replace the version that every lookup sees, leaving what prepared transactions will show. -/
def directFrom {α : Type} (v : Option α) : List (Nat × Option α) → List (Nat × Option α)
  | [] => []
  | [(x, _)] => [(x, v)]
  | e :: r => e :: directFrom v r

/-- A direct change of an item: every lookup that begins after it sees it, under the old epoch too (R168, R173). -/
def Layered.direct {α : Type} (v : Option α) (l : Layered α) : Layered α :=
  match l.past.takeWhile fun e => e.1 != 0 with
  | [] => ⟨v, []⟩
  | p => ⟨l.val, directFrom v p⟩

/-- The commit of transaction x applies (R457). -/
def Layered.apply {α : Type} (x : Nat) (l : Layered α) : Layered α :=
  { l with past := l.past.map fun e => if e.1 = x then (0, e.2) else e }

/-- Old versions retire (R156). -/
def Layered.retire {α : Type} (l : Layered α) : Layered α := { l with past := l.past.filter fun e => e.1 != 0 }

/-- Remove what transaction x pre-applied (R457). -/
def undoFrom {α : Type} (x : Nat) (v : Option α) : List (Nat × Option α) → Layered α
  | [] => ⟨v, []⟩
  | (y, old) :: r =>
    if y = x then undoFrom x old r
    else
      let u := undoFrom x old r
      ⟨v, (y, u.val) :: u.past⟩

def Layered.undo {α : Type} (x : Nat) (l : Layered α) : Layered α := undoFrom x l.val l.past

/-- The item is free: no version of it is left (R170). -/
def Layered.free {α : Type} (l : Layered α) : Bool := l.val.isNone && l.past.all fun e => e.2.isNone

/-- A prepared transaction, or one in preparation, has changed the item (R586). -/
def Layered.staged {α : Type} (l : Layered α) : Bool := l.past.any fun e => e.1 != 0

/-- A commit has deleted the item, which awaits retirement, and no prepared one changes it (R586). -/
def Layered.dead {α : Type} (l : Layered α) : Bool := l.val.isNone && !l.free && !l.staged

/-- Words of the item's old version are held in the commit version area (R176, Table 6-2). -/
def Layered.changed {α : Type} (l : Layered α) : Bool := l.val.isSome && l.past.any fun e => e.2.isSome

/-- The item is in an open commit (R198, R207). -/
def Layered.open {α : Type} (l : Layered α) : Bool := !l.past.isEmpty

/-- The version that packets of the other epoch value see, for the visibility bits of Tables 6-2 and 6-3. -/
def Layered.other {α : Type} (l : Layered α) : Option α :=
  if l.past.any (fun e => e.1 != 0) then l.val else l.seen false

/-- Visibility to epoch values 1 and 0. -/
def Layered.vis {α : Type} (l : Layered α) (epoch : Bool) : Bool × Bool :=
  let now := (l.seen true).isSome
  let oth := l.other.isSome
  if epoch then (now, oth) else (oth, now)

/-! ### Counters and events of the table engines (R191, R192) -/

/-- Unit of the associative engine quad, table engines' events otherwise come from Enenhild (Table 20-4). -/
def tabCount (k n : Nat) (s : State) : State := ctrAdd48 7 7 mpcUnit (pay [(k, 1)]) 0x47 0 k n s

/-- Change the table engines' state. -/
def modTab (f : TableSt → TableSt) (s : State) : State := { s with tab := f s.tab }

/-! ### Action records (R163) -/

/-- The actions that every version of an item names. -/
def Layered.all {α : Type} (l : Layered α) : List α := l.val.toList ++ l.past.filterMap fun e => e.2

/-- The action record that a program's miss action names by handle; none where word 5 of LKP.PROGRAM_SET is word 0 of a
record (notes/assumptions/112). -/
def Prog.missRec (p : Prog) : Option Nat := if hType p.miss = 0x70 then some (hIdx p.miss) else none

/-- Whether a route, an entry, a program's miss action or a port's learn setting names an action record (R163, R198). -/
def actionNamed (s : State) (i : Nat) : Bool :=
  (s.tab.routes.any fun e => e.2.all.contains i)
    || (s.tab.buckets.any fun e => e.2.v.all.any fun v => v.act == i)
    || (s.tab.ovf.any fun e => e.2.2.2.v.all.any fun v => v.act == i)
    || (s.tab.sage.any fun e => e.2.v.all.contains i)
    || (s.fwd.cfg.progs.any fun e => e.2.missRec == some i)
    || s.learn.ports.any fun p => p.act == handle 0x70 i

/-! ### Sorrel (R164 to R168) -/

/-- Whether the profile is SCALE (Table 1-8). -/
def isScale (s : State) : Bool := decide (s.fwd.profile = 1)

/-- The key of a route: VRF, family, prefix length and prefix with the bits beyond the length at 0 (R167). -/
def routeKey (vrf : Nat) (six : Bool) (len addr : Nat) : Nat :=
  let w := if six then 128 else 32
  ((vrf * 2 + b2n six) * 256 + len) * 2 ^ 128 + addr / 2 ^ (w - len) * 2 ^ (w - len)

/-- Whether a route key is of IPv6. -/
def routeSix (k : Nat) : Bool := bit k 136

/-- Prefix length of a route key. -/
def routeLen (k : Nat) : Nat := k / 2 ^ 128 % 256

/-- Route units that a route takes: one for IPv4, two for IPv6 (R166). -/
def routeUnits (k : Nat) : Nat := 1 + b2n (routeSix k)

/-- Route units in use, old versions counted in (R166). -/
def unitsUsed (s : State) : Nat := s.tab.routes.foldl (fun n e => n + routeUnits e.1) 0

/-- Capacity in route units of a profile (R166). -/
def unitsOf (profile : Nat) : Nat := if profile = 1 then 16777216 else 8388608

/-- Capacity in route units (R166). -/
def unitsMax (s : State) : Nat := unitsOf s.fwd.profile

/-- Raise or clear SORREL_HIGH (R192). -/
def sorrelCheck (s : State) : State :=
  let u := unitsUsed s
  if s.tab.sorHigh then
    if u * 10 ≤ unitsMax s * 8 then modTab (fun t => { t with sorHigh := false }) s else s
  else if unitsMax s * 9 ≤ u * 10 then
    raise 7 4 mpcUnit (pay [(u, 4)]) (modTab (fun t => { t with sorHigh := true }) s)
  else s

/-- The longest matching prefix of a VRF and family: its length and action record index (R164). -/
def sorrelFind (s : State) (cur : Bool) (vrf : Nat) (six : Bool) (addr : Nat) : Option (Nat × Nat) :=
  s.tab.routes.foldl (fun best e =>
    if e.1 = routeKey vrf six (routeLen e.1) addr ∧ e.1 / 2 ^ 136 = vrf * 2 + b2n six then
      match e.2.seen cur with
      | some a => match best with
        | some (l, _) => if l < routeLen e.1 then some (routeLen e.1, a) else best
        | none => some (routeLen e.1, a)
      | none => best
    else best) none

/-! ### Dill (R169 to R177) -/

/-- Buckets of all tables together, at most (R169). -/
def bucketsMax (profile : Nat) : Nat := if profile = 1 then 8388608 else 4194304

/-- Whether the routes and the Dill tables fit a profile (R46, R166, R169). -/
def tablesFit (profile : Nat) (s : State) : Bool :=
  decide (unitsUsed s ≤ unitsOf profile) && decide ((s.tab.dill.map fun e => 2 ^ e.2.k).sum ≤ bucketsMax profile)
    && s.tab.dill.all fun e => decide (e.2.base + 2 ^ e.2.k ≤ bucketsMax profile)

/-- Bytes of a 20-byte key, byte 0 first. -/
def keyBytes (key : Nat) : List Byte := beBytes key 20

/-- The bucket of a key within its table (R170). -/
def bucketOf (t : DillTab) (key : Nat) : Nat :=
  crc32c (keyBytes key ++ beBytes t.seed.toNat 4) % 2 ^ t.k

/-- Where entry e of bucket b of table t lies in the model's table of buckets. -/
def slotKey (t b e : Nat) : Nat := (t * 2 ^ 23 + b) * 4 + e

/-- Where a Dill entry is: in a bucket's entry, or in the overflow store. -/
inductive Place where
  | bucket (slot : Nat)
  | ovf (i : Nat)
  deriving DecidableEq, Repr

/-- The place and entry of a key of a table, the bucket before the overflow store (R172). -/
def dillAt (s : State) (t : Nat) (tb : DillTab) (key : Nat) : Option (Place × DillEntry) :=
  let b := bucketOf tb key
  match (List.range 4).findSome? fun e => match tget s.tab.buckets (slotKey t b e) with
    | some x => if x.key = key then some (Place.bucket (slotKey t b e), x) else none
    | none => none with
  | some r => some r
  | none => s.tab.ovf.findSome? fun e =>
      if e.2.1 = t ∧ e.2.2.1 = b ∧ e.2.2.2.key = key then some (.ovf e.1, e.2.2.2) else none

/-- Write an entry in its place. -/
def dillPut (p : Place) (x : DillEntry) (s : State) : State :=
  match p with
  | .bucket k => modTab (fun t => { t with buckets := tset t.buckets k x }) s
  | .ovf i => modTab (fun t => { t with ovf := tmodify t.ovf i fun e => (e.1, e.2.1, x) }) s

/-- Free overflow entries. -/
def overFree (s : State) : Nat := 65536 - s.tab.ovf.length

/-- Raise OVERFLOW_HIGH or OVERFLOW_HIGH_CLEAR (Table 6-8). -/
def overCheck (s : State) : State :=
  let used := s.tab.ovf.length
  if s.tab.overHigh then
    if used ≤ 32768 then raise 7 2 mpcUnit (pay [(65536 - used, 4)]) (modTab (fun t => { t with overHigh := false }) s)
    else s
  else if 49152 ≤ used then
    raise 7 1 mpcUnit (pay [(65536 - used, 4)]) (modTab (fun t => { t with overHigh := true }) s)
  else s

/-- Where a new entry goes (R171): the lowest free entry of its bucket, else the lowest free overflow entry. -/
def dillPlace (s : State) (t b : Nat) : Option Place :=
  match (List.range 4).find? fun e => !thas s.tab.buckets (slotKey t b e) with
  | some e => some (.bucket (slotKey t b e))
  | none => (lowestFree s.tab.ovf 65536).map .ovf

/-- Write a new entry of bucket b of table t in a place. -/
def dillNew (p : Place) (t b : Nat) (x : DillEntry) (s : State) : State :=
  match p with
  | .bucket k => modTab (fun st => { st with buckets := tset st.buckets k x }) s
  | .ovf i => overCheck (modTab (fun st => { st with ovf := tset st.ovf i (t, b, x) }) s)

/-- Whether overflow moves into a bucket are held back (R211). -/
def bucketHeld (s : State) (t b : Nat) : Bool :=
  s.tab.held.any fun h => h.table == t && h.bucket == b

/-- Move the lowest tagged overflow entry into each free entry of bucket b (R171). -/
def overFill (t b : Nat) (s : State) : State :=
  if bucketHeld s t b then s
  else
    (List.range 4).foldl (fun s e =>
      if thas s.tab.buckets (slotKey t b e) then s
      else match s.tab.ovf.find? fun o => o.2.1 == t && o.2.2.1 == b with
        | some (i, _, _, x) => overCheck (modTab (fun st =>
            { st with buckets := tset st.buckets (slotKey t b e) x, ovf := terase st.ovf i }) s)
        | none => s) s

/-- The table and entry at a place. -/
def dillRead (s : State) (p : Place) : Option (Nat × DillEntry) :=
  match p with
  | .bucket k => (tget s.tab.buckets k).map fun e => (k / 4 / 2 ^ 23, e)
  | .ovf i => (tget s.tab.ovf i).map fun e => (e.1, e.2.2)

/-- Free the move-tracker slot of the entry at a place (R201). -/
def dropSlot (p : Place) (s : State) : State :=
  match dillRead s p with
  | some (t, e) => { s with learn := { s.learn with slots := s.learn.slots.filter fun m => !(m.table == t && m.key == e.key) } }
  | none => s

/-- Free an entry, with its move-tracker slot (R171, R201). -/
def dillFree (p : Place) (s : State) : State :=
  let s := dropSlot p s
  match p with
  | .bucket k => overFill (k / 4 / 2 ^ 23) (k / 4 % 2 ^ 23)
      (modTab (fun t => { t with buckets := terase t.buckets k }) s)
  | .ovf i => overCheck (modTab (fun t => { t with ovf := terase t.ovf i }) s)

/-- Every Dill entry with its place. -/
def dillAll (s : State) : List (Place × Nat × Nat × DillEntry) :=
  (s.tab.buckets.map fun e => (.bucket e.1, e.1 / 4 / 2 ^ 23, e.1 / 4 % 2 ^ 23, e.2))
    ++ s.tab.ovf.map fun e => (.ovf e.1, e.2.1, e.2.2.1, e.2.2.2)

/-- Free the Dill entries of which no version is left, those of the overflow store first: none of them moves into a bucket. -/
def dillSweep (s : State) : State :=
  let dead := (dillAll s).filter fun e => e.2.2.2.v.free
  let (spill, here) := dead.partition fun e => match e.1 with
    | .ovf _ => true
    | .bucket _ => false
  (spill ++ here).foldl (fun s e => dillFree e.1 s) s

/-- Word 0 of the DILL.INSERT response, and the overflow index (Table 6-5). -/
def placeWords (p : Place) (b : Nat) : List Word :=
  match p with
  | .bucket k => [toWord (b + k % 4 * 2 ^ 24), 0#32]
  | .ovf i => [toWord (b + 2 ^ 31), toWord i]

/-- A Dill entry as Table 6-2 lays it out, with words 6 and 7 as visible to the current epoch (R210); the index of a changed
entry in the version area is a free value. -/
def dillWords (x : DillEntry) (epoch : Bool) : List Word :=
  let v := (x.v.seen true).getD ⟨0, 0#32, false, false, 0⟩
  let (v1, v0) := x.v.vis epoch
  packWords (keyBytes x.key)
    ++ [toWord (b2n v1 * 2 ^ 31 + b2n v0 * 2 ^ 30 + b2n x.v.changed * 2 ^ 29 + b2n v.static * 2 ^ 28 + b2n v.learned * 2 ^ 27
          + v.port * 2 ^ 20 + if x.v.changed then Config.versionIndex x.key % 2 ^ 20 else 0),
        toWord (x.age * 2 ^ 24 + v.act), v.cookie]

/-- Sets of the hot-bucket cache (R174). -/
def cacheSets (s : State) : Nat := if isScale s then 11264 else 60416

/-- The way that bucket b takes in a set: its own, the first free one, or that of the least recently used bucket. -/
def cacheWay (l : List (Nat × Nat)) (b : Nat) : Nat :=
  match l.find? fun x => x.1 == b with
  | some x => x.2
  | none =>
    match (List.range 8).find? fun w => !l.any fun x => x.2 == w with
    | some w => w
    | none => (l.getLastD (0, 0)).2

/-- Look a bucket up in the hot-bucket cache and make it the most recent of its set; whether it was there (R174). -/
def cacheUse (b : Nat) (s : State) : Bool × State :=
  let set := b % cacheSets s
  let l := tgetD s.tab.cache set []
  (l.any fun x => x.1 == b,
    modTab (fun t => { t with cache := tset t.cache set (((b, cacheWay l b) :: l.filter fun x => x.1 != b).take 8) }) s)

/-- The SLM quarter of a way of the hot-bucket cache: a set of 8 buckets is four lines of 256 bytes (R160, R174). -/
def wayQuarter (w : Nat) : Nat := w / 2

/-- The SLM quarter of the hit bit of slot i of bucket b of the whole store: 2,048 bits a line (R160). -/
def hitQuarter (b i : Nat) : Nat := (4 * b + i) / 2048 % 4

/-- An SLM quarter is re-initialised: its lines of the hot-bucket cache are empty, and its hit bits are 0 (R161). -/
def slmClear (q : Nat) (s : State) : State :=
  let base (t : Nat) : Nat := match tget s.tab.dill t with | some x => x.base | none => 0
  modTab (fun t => { t with
    cache := tmap t.cache fun _ l => l.filter fun x => wayQuarter x.2 != q
    buckets := tmap t.buckets fun k e =>
      if hitQuarter (base (k / 4 / 2 ^ 23) + k / 4 % 2 ^ 23) (k % 4) = q then { e with hit := false } else e }) s

/-- Change Dill table t. -/
def modDill (t : Nat) (f : DillTab → DillTab) (s : State) : State := modTab (fun st => { st with dill := tmodify st.dill t f }) s

/-- Uncorrectable data is read in bucket b of Dill table t: its page is failed (R175). -/
def pageFail (t b : Nat) (s : State) : State :=
  match tget s.tab.dill t with
  | none => s
  | some d =>
    let s := if d.failed.contains (b / 32) then s
      else raise 7 3 mpcUnit (pay [(handle 0x71 t, 4), (b / 32, 4)])
        (modDill t (fun d => { d with failed := d.failed ++ [b / 32] }) (skipDevice s))
    modDill t (fun d => { d with bad := if d.bad.contains b then d.bad else d.bad ++ [b] }) s

/-- A command writes bucket b of Dill table t, which clears its poison; a failed page whose buckets are all readable again is
restored (R175, R219, Table 13-4; notes/assumptions/113). -/
def pageHeal (t b : Nat) (s : State) : State :=
  modDill t (fun d =>
    if d.bad.contains b then
      let bad := d.bad.filter fun x => x != b
      { d with bad := bad, failed := if bad.any fun x => x / 32 == b / 32 then d.failed else d.failed.filter fun p => p != b / 32 }
    else d) s

/-- The same where a command writes an entry at a place: an overflow entry lies in no page. -/
def placeHeal (p : Place) (s : State) : State :=
  match p with
  | .bucket k => pageHeal (k / 4 / 2 ^ 23) (k / 4 % 2 ^ 23) s
  | .ovf _ => s

/-- A Dill lookup (R172, R174, R175): the entry that the packet sees and its place, whether HBM was read, and the state;
bad says that the bucket's read returned uncorrectable data. -/
def dillLookup (t key : Nat) (cur bad : Bool) (s : State) : Option (Place × DillEntry × DillVal) × Bool × State :=
  match tget s.tab.dill t with
  | none => (none, false, s)
  | some tb =>
    let b := bucketOf tb key
    let page := b / 32
    let s := tabCount 2 1 s
    let (hit, s) := cacheUse (tb.base + b) s
    let s := if hit then tabCount 4 1 s else tabCount 5 1 s
    let failed := tb.failed.contains page || (bad && !hit)
    let s := if bad && !hit then pageFail t b (tabCount 7 1 s) else s
    match dillAt s t tb key with
    | some (p, x) =>
      match p, x.v.seen cur with
      | .bucket k, some v => if failed then (none, !hit, s) else (some (.bucket k, x, v), !hit, tabCount 3 1 s)
      | .ovf i, some v => (some (.ovf i, x, v), !hit, tabCount 6 1 (tabCount 3 1 s))
      | _, none => (none, !hit, s)
    | none => (none, !hit, s)

/-! ### Sage (R178 to R190) -/

/-- Entries of a group (R179). -/
def SageGroup.size (g : SageGroup) : Nat := g.count / 2 ^ g.width * 16384

/-- Usable entries of a group (R182). -/
def SageGroup.usable (g : SageGroup) : Nat := g.size / 2 ^ g.logH * (2 ^ g.logH - 1)

/-- Sage address of a position (R178, R180). -/
def SageGroup.addr (g : SageGroup) (p : Nat) : Nat := (g.first + p / 16384 * 2 ^ g.width) * 16384 + p % 16384

/-- Words of an entry's value or mask. -/
def SageGroup.words (g : SageGroup) : Nat := 5 * 2 ^ g.width

/-- The occupied positions of a group: entry index and priority by position. -/
def sageOcc (s : State) (g : Nat) : Tab (Nat × Nat) :=
  s.tab.sage.foldl (fun t e => if e.2.grp = g then tset t e.2.pos (e.1, e.2.prio) else t) []

/-- Entries of occ at positions from a to b − 1. -/
def occIn (occ : Tab (Nat × Nat)) (a b : Nat) : Nat := (occ.filter fun e => decide (a ≤ e.1) && decide (e.1 < b)).length

/-- Move the entries at positions a to b − 1 one position up. -/
def occUp (occ : Tab (Nat × Nat)) (a b : Nat) : Tab (Nat × Nat) :=
  occ.map fun e => if a ≤ e.1 ∧ e.1 < b then (e.1 + 1, e.2) else e

/-- Move the entries at positions a to b − 1 one position down. -/
def occDown (occ : Tab (Nat × Nat)) (a b : Nat) : Tab (Nat × Nat) :=
  occ.map fun e => if a ≤ e.1 ∧ e.1 < b then (e.1 - 1, e.2) else e

/-- Holes of block j of H positions (R182). -/
def holesOf (occ : Tab (Nat × Nat)) (h j : Nat) : Nat := h - occIn occ (j * h) (j * h + h)

/-- Move one entry across the boundary from block j into the next block up or down, into that block's hole nearest j;
entries between that hole and the boundary move one position towards the hole first. Answers the moves (R182, R183). -/
def occCross (occ : Tab (Nat × Nat)) (h j : Nat) (up : Bool) : Tab (Nat × Nat) × Nat :=
  if up then
    let base := (j + 1) * h
    match (List.range' base h).find? fun p => !thas occ p,
        (occ.filter fun e => decide (j * h ≤ e.1) && decide (e.1 < base)).getLast? with
    | some hole, some (p, x) => (tset (terase (occUp occ base hole) p) base x, hole - base + 1)
    | _, _ => (occ, 0)
  else
    let base := j * h
    match (List.range' (base - h) h).reverse.find? fun p => !thas occ p,
        (occ.filter fun e => decide (base ≤ e.1) && decide (e.1 < base + h)).head? with
    | some hole, some (p, x) => (tset (terase (occDown occ (hole + 1) base) p) (base - 1) x, base - hole)
    | _, _ => (occ, 0)

/-- Spread (R183): from the nearest block with two holes, ties towards lower addresses, bring a second hole into the
block next to j. -/
def occSpread (occ : Tab (Nat × Nat)) (h n j : Nat) : Tab (Nat × Nat) × Nat :=
  let dist := (List.range (n + 1)).find? fun d =>
    decide (2 ≤ d) && ((decide (d ≤ j) && decide (2 ≤ holesOf occ h (j - d)))
      || (decide (j + d < n) && decide (2 ≤ holesOf occ h (j + d))))
  match dist with
  | none => (occ, 0)
  | some d =>
    if d ≤ j ∧ 2 ≤ holesOf occ h (j - d) then
      (List.range (d - 1)).foldl (fun (o, m) i => let (o', k) := occCross o h (j - d + 1 + i) false; (o', m + k)) (occ, 0)
    else
      (List.range (d - 1)).foldl (fun (o, m) i => let (o', k) := occCross o h (j + d - 1 - i) true; (o', m + k)) (occ, 0)

/-- The first position after every entry of priority at most prio (R182). -/
def occAfter (occ : Tab (Nat × Nat)) (prio : Nat) : Nat :=
  occ.foldl (fun a e => if e.2.2 ≤ prio then e.1 + 1 else a) 0

/-- The position of the first entry of priority above prio, or n. -/
def occBefore (occ : Tab (Nat × Nat)) (prio n : Nat) : Nat :=
  match occ.find? fun e => decide (prio < e.2.2) with
  | some e => e.1
  | none => n

/-- A finished placement: occupancy, position, insert moves, borrowed moves, spreading moves. -/
structure Placed where
  occ : Tab (Nat × Nat)
  pos : Nat
  moves : Nat
  borrowed : Nat
  spread : Nat

/-- Shift the entries between the target place and the nearest hole of block j by one position towards it, fewest
moves first, ties towards lower addresses (R182). -/
def occShift (occ : Tab (Nat × Nat)) (h j prio : Nat) : Option Placed :=
  let lo := occAfter occ prio
  let up := (List.range' (j * h) h).find? fun p => decide (lo ≤ p) && !thas occ p
  let down := (List.range' (j * h) h).reverse.find? fun p => decide (p < lo) && !thas occ p
  let u : Option Placed := up.map fun p => ⟨occUp occ (max lo (j * h)) p, max lo (j * h), occIn occ (max lo (j * h)) p, 0, 0⟩
  let d : Option Placed := down.map fun p =>
    ⟨occDown occ (p + 1) lo, min lo (j * h + h) - 1, occIn occ (p + 1) lo, 0, 0⟩
  match u, d with
  | some a, some b => some (if b.moves ≤ a.moves then b else a)
  | some a, none => some a
  | none, x => x

/-- The better of two placements: fewer moves, ties towards the first. -/
def betterPlaced (a b : Option Placed) : Option Placed :=
  match a, b with
  | some x, some y => if x.moves + x.borrowed + x.spread ≤ y.moves + y.borrowed + y.spread then some x else some y
  | some x, none => some x
  | none, y => y

/-- Place an entry in block j (R182). -/
def occInBlock (occ : Tab (Nat × Nat)) (h n j prio : Nat) : Option Placed :=
  if 2 ≤ holesOf occ h j then occShift occ h j prio
  else
    let lend (o : Tab (Nat × Nat)) : Bool × Bool :=
      (decide (0 < j) && decide (2 ≤ holesOf o h (j - 1)), decide (j + 1 < n) && decide (2 ≤ holesOf o h (j + 1)))
    let (occ, sp) := match lend occ with
      | (false, false) => occSpread occ h n j
      | _ => (occ, 0)
    let borrow (up : Bool) : Option Placed :=
      let (o, m) := occCross occ h j up
      (occShift o h j prio).map fun p => { p with moves := p.moves + (m - 1), borrowed := 1, spread := sp }
    match lend occ with
    | (true, true) => betterPlaced (borrow false) (borrow true)
    | (true, false) => borrow false
    | (false, true) => borrow true
    | (false, false) => none

/-- Place a new entry of a priority in a group of n blocks of h positions (R182, R183); none when every block holds
exactly one hole. -/
def occPlace (occ : Tab (Nat × Nat)) (h n prio : Nat) : Option Placed :=
  let lo := occAfter occ prio
  let hi := occBefore occ prio (n * h)
  match (List.range' (lo / h) (n - lo / h)).find? fun j =>
      decide (max lo (j * h) < min hi (j * h + h)) && decide (2 ≤ holesOf occ h j) with
  | some j => some ⟨occ, max lo (j * h), 0, 0, 0⟩
  | none =>
    if (List.range n).all fun j => decide (holesOf occ h j ≤ 1) then none
    else
      let a := if 0 < lo then occInBlock occ h n ((lo - 1) / h) prio else none
      let b := if lo < n * h ∧ (lo = 0 ∨ (lo - 1) / h ≠ lo / h) then occInBlock occ h n (lo / h) prio else none
      betterPlaced a b

/-- Give the entries of a group the positions of an occupancy. -/
def sageMoveTo (occ : Tab (Nat × Nat)) (s : State) : State :=
  modTab (fun t => { t with sage := occ.foldl (fun sg e => tmodify sg e.2.1 fun x => { x with pos := e.1 }) t.sage }) s

/-- Fenced Sage quads that hold a segment of a group (R22, R178). -/
def groupFenced (s : State) (g : SageGroup) : List Nat :=
  (List.range 4).filter fun q => fenced s (16 + q) && decide (g.first < 4 * q + 4) && decide (4 * q < g.first + g.count)

/-- Whether a position of a group lies in a fenced quad, whose comparators answer no search (R22). -/
def sageOut (s : State) (g pos : Nat) : Bool :=
  match tget s.tab.groups g with
  | some x => (List.range (2 ^ x.width)).any fun j => fenced s (16 + (x.first + pos / 16384 * 2 ^ x.width + j) / 4)
  | none => false

/-- A Sage search: the entry of the lowest position that matches (R180). -/
def sageFind (s : State) (g key : Nat) (cur : Bool) : Option (Nat × Nat) :=
  s.tab.sage.foldl (fun best e =>
    if e.2.grp = g ∧ Nat.land key e.2.mask = e.2.value ∧ !sageOut s g e.2.pos then
      match e.2.v.seen cur with
      | some a => match best with
        | some (p, _) => if e.2.pos < p then some (e.2.pos, a) else best
        | none => some (e.2.pos, a)
      | none => best
    else best) none

/-- Regions that hold a segment of a group: FD-W for segments 0 to 7, FD-E for 8 to 15 (R178). -/
def SageGroup.regions (g : SageGroup) : List Nat :=
  (if g.first < 8 then [0] else []) ++ (if 8 < g.first + g.count then [1] else [])

/-- Whether a lookup program names a segment group (R161, R189). -/
def groupNamed (s : State) (g : Nat) : Bool :=
  s.fwd.cfg.progs.any fun e => match e.2.sage with | some (_, x) => x == g | none => false

/-- The device throttle as a code: 0 for f = 1.00 to 3 for 0.25 (R189). -/
def throttle (s : State) : Nat :=
  s.tab.groups.foldl (fun m e =>
    if groupNamed s e.1 then e.2.regions.foldl (fun m r => max m (s.tab.step.getD r 0)) m else m) 0

/-- What a profile change discards of the table engines (R46, R185, R190). -/
def discardTables (profile : Nat) (s : State) : State :=
  modTab (fun t => { t with
    routes := [], buckets := [], ovf := [], cache := [], held := [], sage := [], sorHigh := false
    groups := if profile = 2 then [(15, ⟨8, 8, 0, 5⟩)] else []
    dill := tmap t.dill fun _ d => { d with digests := [], failed := [], bad := [] } }) (overCheck (modTab (fun t => { t with ovf := [] }) s))

end Sys2Proof.Machine
end

