-- ==== Sys2Proof/Machine/TelemOps.lean ====
section
/-! DEFINITION. Operations of the counter banks, the bandwidth windows and the PF2 pages (spec/21_telemetry_counters.md,
R434). -/

namespace Sys2Proof.Machine

open Sys2Proof

/-- Change telemetry's state. -/
def modTel (f : TelemSt → TelemSt) (s : State) : State := { s with tel := f s.tel }

/-- Bank b. -/
def bankOf (s : State) (b : Nat) : Bank := tgetD s.tel.banks b {}

/-- Change bank b. -/
def modBank (b : Nat) (f : Bank → Bank) (s : State) : State := modTel (fun t => { t with banks := tset t.banks b (f (tgetD t.banks b {})) }) s

/-- Add n to telemetry counter k (R555); its events carry the event ring writer's unit ID (R556). -/
def telCount (k n : Nat) (s : State) : State := ctrAdd48 0x13 5 (mainUnit 10) (pay [(k, 1)]) 0x53 0 k n s

/-- The unit ID of bank b (R539). -/
def bankUnit (b : Nat) : Nat := if b < 80 then unitOf b 62 else if b = 80 then mainUnit 62 else aonUnit 62

/-- Assigned unit indices of a bank's cluster kind, the bank and the cluster controller of a switched cluster among them
(Table 20-4). -/
def bankHasUnit (b u : Nat) : Bool :=
  let n :=
    if b ≤ 15 then 12 else if b ≤ 19 then 11 else if b ≤ 23 then 17 else if b ≤ 31 then 11 else if b ≤ 35 then 34
    else if b = 36 then 14 else if b = 37 ∨ b = 38 ∨ (63 ≤ b ∧ b ≤ 66) then 36 else if b = 39 then 10 else if b ≤ 55 then 5
    else if b ≤ 59 then 22 else if b = 60 then 8 else if b ≤ 62 then 17 else if b ≤ 78 then 12 else if b = 79 then 18
    else if b = 80 then 13 else 22
  decide (u < n) || (decide (b ≤ 79) && (u == 62 || u == 63))

/-- Packet events: pipeline units and events whose counters may sample (Table 21-3). -/
def packetEvent (u e : Nat) : Bool :=
  (e == 16 && (u == 3 || u == 4 || u == 5 || u == 6 || u == 10)) || (u == 5 && e == 17)

/-- Events of the MPC cores that may sample (Table 21-3). -/
def mpcEvent (u e : Nat) : Bool := decide (u ≤ 3) && decide (16 ≤ e) && decide (e ≤ 20)

/-- Whether an event number exists in a bank (R543, Tables 21-2 and 21-3). -/
def bankEventOk (b ev : Nat) : Bool :=
  let u := ev / 64
  let e := ev % 64
  bankHasUnit b u && (decide (e ≤ 7) || (decide (b ≤ 15) && packetEvent u e) || (decide (40 ≤ b) && decide (b ≤ 55) && decide (u ≤ 1) && e == 16)
    || (decide (56 ≤ b) && decide (b ≤ 59) && u == 20 && e == 16) || (b == 80 && mpcEvent u e))

/-- Whether an event is of a privileged unit: the working key copies and the cluster controllers (R547). -/
def privilegedEvent (b ev : Nat) : Bool := ev / 64 == 63 || (decide (32 ≤ b) && decide (b ≤ 35) && ev / 64 == 32)

/-- Half of the pipeline of a packet event: 0 ingress, 1 egress (Table 21-9). -/
def eventHalf (u : Nat) : Nat := if u = 10 then 1 else 0

/-- Whether one more sample may be raised in this tide; a further one is dropped (R546). -/
def sampleAllowed (b : Nat) (s : State) : Bool × State :=
  if s.tel.samples < 4096 then (true, telCount 3 1 (modTel (fun t => { t with samples := t.samples + 1 }) s))
  else (false, telCount 4 1 (modBank b (fun x => { x with dropped := min (2 ^ 32 - 1) (x.dropped + 1) }) s))

/-- Counter i of bank b counts n events; at a wrap it goes on from 0, or in sample mode from 2^48 less the period, with a
sample to be taken of a packet whose skid is left open (R541, R545). -/
def bankAdd (b i n : Nat) (s : State) : State :=
  let x := bankOf s b
  let sel := x.sel.getD i {}
  let v := x.pc.getD i 0 + n
  if v < 2 ^ 48 then modBank b (fun x => { x with pc := x.pc.set i v }) s
  else if sel.sample && decide (b ≤ 15) then
    let skid := freeVal s % 17
    modBank b (fun x => { x with
      pc := x.pc.set i (2 ^ 48 - sel.period + (v - 2 ^ 48)), want := x.want ++ [(i, eventHalf (sel.ev / 64), skid, skid)] }) s.took
  else modBank b (fun x => { x with pc := x.pc.set i ((if sel.sample then 2 ^ 48 - sel.period else 0) + (v - 2 ^ 48)) }) s

/-- Whether nothing counts in bank b: its cluster is fenced or OFF (R540). -/
def bankSilent (s : State) (b : Nat) : Bool := fenced s b || (decide (b < 80) && (domOf s b).st == 4)

/-- Events of a unit of bank b: every counter that selects them counts; none inside a fenced or OFF cluster (R540, R543). -/
def bankEvent (b u e n : Nat) (s : State) : State :=
  match if bankSilent s b then none else tget s.tel.banks b with
  | none => s
  | some x => (x.sel.zipIdx).foldl (fun s (sel, i) => if sel.en && sel.ev == u * 64 + e && decide (n ≠ 0) then bankAdd b i n s else s) s

/-- A request of unit u of bank b completes at once with the fenced indication, and the unit counts it (R22). -/
def fencedReq (b u : Nat) (s : State) : State := bankEvent b u 5 1 s

/-- A packet completes a half of pipeline b: the samples that wait for it are taken (R545, R546). -/
def samplePackets (b half : Nat) (md : List Word) (s : State) : State :=
  match tget s.tel.banks b with
  | none => s
  | some x =>
    let due := x.want.filter fun w => w.2.1 == half && w.2.2.1 == 0
    let rest := (x.want.filter fun w => !(w.2.1 == half && w.2.2.1 == 0)).map fun w =>
      if w.2.1 = half then (w.1, w.2.1, w.2.2.1 - 1, w.2.2.2) else w
    if x.want.isEmpty then s
    else
      due.foldl (fun s w => match sampleAllowed b s with
        | (true, s) => raise 0x13 2 (bankUnit b) (pay [(b, 1), (w.1, 1), (w.2.2.2, 1), (half, 1)] ++ wordBytes (md.take 4))
            (modBank b (fun x => { x with dropped := 0 }) s)
        | (false, s) => s) (modBank b (fun x => { x with want := rest }) s)

/-- Place n slot clocks of pipeline p in ledger entry k, and in SLOTS (R542). -/
def ledger (p k n : Nat) (s : State) : State :=
  modBank p (fun x => { x with slots := (x.slots + n) % 2 ^ 48, ledger := lmod x.ledger k fun v => (v + n) % 2 ^ 48 }) s

/-- Add n to field i of the open bandwidth window of port p: received and transmitted bytes, then frames (R548). -/
def bwAdd (p i n : Nat) (s : State) : State :=
  modTel (fun t => { t with bw := lmod t.bw p fun w => { w with cur := lmod w.cur i fun v => (v + n) % 2 ^ 48 } }) s

/-! ### The PF2 aperture (R434, Table 15-7) -/

/-- SEL i as its page holds it (Table 21-1). -/
def Sel.word (x : Sel) : Nat := x.ev % 4096 + b2n x.en * 2 ^ 12 + b2n x.sample * 2 ^ 13 + x.period % 2 ^ 48 * 2 ^ 16

/-- The 24 fields of a bank at offsets 0x000 to 0x0B8 (Table 21-1). -/
def Bank.fields (x : Bank) : List Nat := [x.cycles, x.slots, 0] ++ x.ledger ++ x.pc ++ x.sel.map Sel.word

/-- The 8 fields of a bandwidth record (Table 21-5). -/
def Window.fields (x : Window) : List Nat :=
  [x.last.getD 0 0, x.last.getD 1 0, x.last.getD 2 0, x.last.getD 3 0, x.peak.getD 0 0, x.peak.getD 1 0, x.ended,
    x.wLast + b2n x.inc * 2 ^ 16]

/-- The 8-byte field at field index f of a bank page. -/
def bankField (s : State) (b f : Nat) : Nat :=
  if f < 24 then (bankOf s b).fields.getD f 0
  else if 32 ≤ b ∧ b ≤ 35 ∧ 128 ≤ f ∧ f < 256 then ((s.tel.bw.getD (16 * (b - 32) + (f - 128) / 8) {}).fields).getD (f % 8) 0
  else 0

/-- The counter group of a PF2 page, group 0x60 pages as 0x6000 + page; 0 for a page not in the table (Table 15-7). -/
def pf2Group (x : Nat) : Nat :=
  if x < 0x160 then (let a := x / 16; if (6 ≤ a ∧ a ≤ 0xF) ∨ a = 0x15 then 0x40 + a else 0)
  else if x < 0x200 then 0
  else if x < 0x280 then 1
  else if x < 0x400 then 0
  else if x < 0x452 then 0x6000 + (x - 0x400)
  else if x < 0x800 then 0
  else if x < 0xA00 then 2
  else if x < 0x1000 then 0
  else if x < 0x1100 then 7
  else if x < 0x2000 then 0
  else if x < 0x3000 then 4
  else if x < 0x4000 then 0
  else if x < 0x8000 then 5
  else if x < 0x10000 then 3
  else if x < 0x40000 then 0
  else if x < 0x80000 then 6
  else 0

/-- The 8-byte counter at field f (0 to 511) of PF2 page x (Table 15-7). -/
def pf2Field (s : State) (x f : Nat) : Nat :=
  let of (base per fields : Nat) (g : Nat) : Nat := ctrGet s g ((x - base) * per + f / fields) (f % fields)
  match pf2Group x with
  | 1 => if (x - 0x200) % 2 = 0 then ctrGet s 1 ((x - 0x200) / 2) f else ctrGet s 1 ((x - 0x200) / 2) (512 + f)
  | 2 => of 0x800 32 16 2
  | 3 => of 0x8000 32 16 3
  | 4 => of 0x2000 64 8 4
  | 5 => of 0x4000 64 8 5
  | 6 => tgetD s.fwd.stats (2 * ((x - 0x40000) * 256) + f) 0
  | 7 => of 0x1000 16 32 7
  | 0 => 0
  | g => if 0x6000 ≤ g then bankField s (g - 0x6000) f else ctrGet s g ((x % 16) * 8 + f / 64) (f % 64)

/-- Byte a of the PF2 aperture. -/
def pf2Byte (s : State) (a : Nat) : Byte := BitVec.ofNat 8 (pf2Field s (a / 4096) (a % 4096 / 8) / 256 ^ (a % 8))

end Sys2Proof.Machine
end

