-- ==== Sys2Proof/Machine/LineOps.lean ====
section
/-! DEFINITION. Operations of the line side that several commands share: modes and lanes, link declarations, counter
modes and service (spec/02_lanes_ethernet.md, spec/03_transport_framing.md). -/

namespace Sys2Proof.Machine

open Sys2Proof

/-- Table 2-2: lanes, lane rate in kb/s, and FEC codes with the default first; and the port's rate in Mb/s. -/
def ethMode (m : Nat) : Option (Nat × Nat × List Nat × Nat) :=
  match m with
  | 0x1 => some (1, 10312500, [0, 1], 10000)
  | 0x2 => some (1, 25781250, [2, 1, 0], 25000)
  | 0x3 => some (1, 53125000, [3], 50000)
  | 0x4 => some (4, 25781250, [2, 0], 100000)
  | 0x5 => some (2, 53125000, [3], 100000)
  | 0x6 => some (1, 106250000, [3], 100000)
  | 0x7 => some (4, 53125000, [3], 200000)
  | 0x8 => some (2, 106250000, [3], 200000)
  | 0x9 => some (1, 212500000, [3], 200000)
  | 0xA => some (8, 53125000, [3], 400000)
  | 0xB => some (4, 106250000, [3], 400000)
  | 0xC => some (2, 212500000, [3], 400000)
  | 0xD => some (8, 106250000, [3], 800000)
  | 0xE => some (4, 212500000, [3], 800000)
  | 0xF => some (8, 212500000, [3], 1600000)
  | _ => none

/-- Table 3-1: lanes, lane rate in kb/s, OTUC slices and STM-1 equivalents. -/
def tpMode (m : Nat) : Option (Nat × Nat × Nat × Nat) :=
  match m with
  | 0x20 => some (1, 2488320, 0, 16)
  | 0x21 => some (1, 9953280, 0, 64)
  | 0x22 => some (4, 9953280, 0, 256)
  | 0x30 => some (4, 27950000, 1, 0)
  | 0x31 => some (4, 27950000, 1, 0)
  | 0x32 => some (8, 27950000, 2, 0)
  | 0x33 => some (4, 55900000, 2, 0)
  | 0x34 => some (8, 55900000, 4, 0)
  | 0x35 => some (4, 111810000, 4, 0)
  | 0x36 => some (8, 111810000, 8, 0)
  | 0x37 => some (4, 223620000, 8, 0)
  | 0x38 => some (8, 223620000, 16, 0)
  | _ => none

/-- Lanes an Ethernet mode uses; 0 for a code outside Table 2-2. -/
def ethLanes (m : Nat) : Nat := match ethMode m with | some (n, _) => n | none => 0

/-- Lane rate of an Ethernet mode, kb/s. -/
def ethRate (m : Nat) : Nat := match ethMode m with | some (_, r, _) => r | none => 0

/-- Rate of an Ethernet port of a mode, Mb/s. -/
def ethSpeed (m : Nat) : Nat := match ethMode m with | some (_, _, _, v) => v | none => 0

/-- A port of either kind as R53 judges it: number, lanes and lane rate. -/
structure LaneUse where
  port : Nat
  lanes : Nat
  rate : Nat
  deriving DecidableEq, Repr

/-- The lane use of every port that exists (R53). -/
def laneUses (s : State) : List LaneUse :=
  (s.line.ports.map fun e => ⟨e.1, ethLanes e.2.mode, ethRate e.2.mode⟩)
    ++ s.tr.ports.map fun e => match tpMode e.2.mode with
      | some (n, r, _) => ⟨e.1, n, r⟩
      | none => ⟨e.1, 1, 0⟩

/-- Whether a new port of n lanes from lane p at a lane rate breaks R53: alignment, overlap, or the octet rate. -/
def laneFree (us : List LaneUse) (p n rate : Nat) : Bool :=
  decide (p % n = 0) && decide (p + n ≤ 64) && us.all fun u =>
    (decide (p + n ≤ u.port) || decide (u.port + u.lanes ≤ p)) && (u.port / 8 != p / 8 || u.rate == rate)

/-- The port of either kind that holds a lane. -/
def laneOwner (s : State) (l : Nat) : Option Nat :=
  ((laneUses s).find? fun u => decide (u.port ≤ l) && decide (l < u.port + u.lanes)).map fun u => u.port

/-- The Ethernet port of a handle of type 0x30. -/
def portOf (s : State) (h : Nat) : Option Port := if hType h = 0x30 then tget s.line.ports (hIdx h) else none

/-- Change Ethernet port p. -/
def modPort (p : Nat) (f : Port → Port) (s : State) : State :=
  { s with line := { s.line with ports := tmodify s.line.ports p f } }

/-- The unit of the MAC of port p (Table 20-4). -/
def macUnit (p : Nat) : Nat := unitOf (32 + p / 16) (p % 16)

/-- The index of a port counter in Tables 2-5 and 16-10: its place, but for the counters of an SA (R461). -/
def ctrIndex (k : Nat) : Nat := if k < 96 then k else if k < 128 then 90 + (k - 96) % 4 else 80 + (k - 128) % 10

/-- Add n to a MAC or MACsec counter of port p; bit 47 is reported in accumulating mode only (R67). -/
def macCount (p k n : Nat) (s : State) : State :=
  match tget s.line.ports p with
  | some x =>
    if x.clearMode then ctrPut 1 p k ((ctrGet s 1 p k + n) % 2 ^ 48) s
    else ctrAdd48 3 5 (macUnit p) (pay [(handle 0x30 p, 4), (ctrIndex k, 1)]) 1 p k n s
  | none => s

/-- Add 1 to several counters of port p. -/
def macCounts (p : Nat) (ks : List Nat) (s : State) : State := ks.foldl (fun s k => macCount p k 1 s) s

/-- The counters of an instance, as listed. -/
def instCtrs (t : Tab Nat) (g i : Nat) : Tab Nat := t.filter fun e => e.1 / 1024 == g * 2 ^ 32 + i

/-- A mode change of port p's counters (R69): copy to the snapshot, clear, switch. -/
def modeChange (p : Nat) (clear : Bool) (s : State) : State :=
  let keep := s.snap.filter fun e => e.1 / 1024 != 2 ^ 32 + p
  let snap := (instCtrs s.ctr 1 p).foldl (fun t e => tset t e.1 e.2) keep
  modPort p (fun x => { x with clearMode := clear })
    { s with snap := snap, ctr := s.ctr.filter fun e => e.1 / 1024 != 2 ^ 32 + p }

/-- Every condition of R55 that lanes without signal fail, for a port of an FEC code: FEC alignment where it has FEC. -/
def allFailed (fec : Nat) : Nat := if fec = 0 then 0x17 else 0x1F

/-- Put port p's counters in clear-on-read mode, with a mode change where they accumulate (R68, R69). -/
def forceClear (p : Nat) (s : State) : State :=
  match tget s.line.ports p with
  | some x => if x.clearMode then s else modeChange p true s
  | none => s

/-- The port enters loopback, a PRBS test or a sounding: it leaves service, a PORT.ENABLE that waits lapses, and
OUT_OF_SERVICE is raised with the cause (R68). -/
def outOfService (p cause : Nat) (s : State) : State :=
  let s := forceClear p (modPort p (fun x => { x with inService := false, pendEn := none }) s)
  let s := { s with tel := { s.tel with bw := lmod s.tel.bw p fun w => { w with open_ := true } } }
  raise 3 6 (macUnit p) (pay [(handle 0x30 p, 4), (cause, 1)]) s

/-- The port enters service on PORT.ENABLE: its counters return to accumulating mode (R68, R69). -/
def enterService (p : Nat) (s : State) : State :=
  match tget s.line.ports p with
  | some x =>
    let s := if x.clearMode then modeChange p false s else s
    modPort p (fun x => { x with inService := true, pendEn := none }) s
  | none => s

/-- Clear the FEC degrade of port p (R59). -/
def degradeClear (p : Nat) (s : State) : State :=
  raise 3 4 (macUnit p) (pay [(handle 0x30 p, 4)]) (modPort p (fun x => { x with degrade := false, goodSecs := 0 }) s)

/-- Whether the running link hold of a port has reached its length (R56, R57). -/
def holdReached (x : Port) (now : Nat) : Bool :=
  x.holdOn && decide (x.holdStart + (if x.up then x.cfg.downHold else x.cfg.upHold) * tideU ≤ now)

/-- Declare a port up or down at the end of its hold (R56, R57). -/
def declareLink (p : Nat) (s : State) : State :=
  match tget s.line.ports p with
  | none => s
  | some x =>
    let s' := modPort p (fun x => { x with up := !x.up, holdOn := false, cause := 0, declTide := s.tm.tide }) s
    if x.up then raise 3 2 (macUnit p) (pay [(handle 0x30 p, 4), (x.cause, 1)]) (skipDevice s')
    else raise 3 1 (macUnit p) (pay [(handle 0x30 p, 4)]) (skipDevice s')

/-- Apply new PORT.SET settings: a running hold is judged against the time already elapsed, and a threshold of 0
clears the degrade (R56, R57, R59). -/
def applyPortCfg (p : Nat) (c : PortCfg) (s : State) : State :=
  let s := modPort p (fun x => { x with cfg := c, pendCfg := none }) s
  let s := match tget s.line.ports p with
    | some x => if holdReached x (elapsed s) then declareLink p s else s
    | none => s
  match tget s.line.ports p with
  | some x => if x.degrade && decide (c.degThr = 0) then degradeClear p s else s
  | none => s

/-- Zeroise and remove the SAs of port p (R73, R78). -/
def dropSas (p : Nat) (s : State) : State :=
  { s with line := { s.line with sas := s.line.sas.filter fun e => e.1 / 256 != p } }

/-- Whether a line port transmits and receives traffic: up and in service (R58). -/
def portLive (s : State) (p : Nat) : Bool :=
  match tget s.line.ports p with
  | some x => x.up && x.inService
  | none => false

end Sys2Proof.Machine
end

