-- ==== Sys2Proof/Machine/TransportOps.lean ====
section
/-! DEFINITION. Operations of transport supervision and protection that several commands and events share
(spec/03_transport_framing.md): defects, their consequences, traces, and the selection of protection groups. -/

namespace Sys2Proof.Machine

open Sys2Proof

/-! ### Objects (Table 3-6) -/

/-- Whether a transport mode is SDH. -/
def isSdhMode (m : Nat) : Bool := decide (m < 0x30)

/-- STM-1 equivalents of an ODU termination (Table 3-4): STM-16, STM-64 or STM-256. -/
def termStm (t : Nat) : Nat := match t with | 1 => 16 | 2 => 64 | 3 => 256 | _ => 0

/-- The model's own name for the RS and MS of the STM-N demapped from ODU i: no handle type of the spec names them
(DESIGN CHOICE, notes/assumptions/95). -/
def sectHandle (i : Nat) : Nat := handle 0x44 i

/-- The supervision of an object: a transport port (0x32), an ODU (0x40), the section of a demapped STM-N (0x44) or an
SDH path (0x41). -/
def monOf (s : State) (h : Nat) : Option Mon :=
  match hType h with
  | 0x44 => (tget s.tr.odus (hIdx h)).bind fun x => if termStm x.term = 0 then none else some x.sect
  | 0x32 => (tget s.tr.ports (hIdx h)).map fun x => x.mon
  | 0x40 => (tget s.tr.odus (hIdx h)).map fun x => x.mon
  | 0x41 => (tget s.tr.paths (hIdx h)).map fun x => x.mon
  | _ => none

/-- Change the supervision of an object. -/
def modMon (h : Nat) (f : Mon → Mon) (s : State) : State :=
  match hType h with
  | 0x32 => { s with tr := { s.tr with ports := tmodify s.tr.ports (hIdx h) fun x => { x with mon := f x.mon } } }
  | 0x40 => { s with tr := { s.tr with odus := tmodify s.tr.odus (hIdx h) fun x => { x with mon := f x.mon } } }
  | 0x41 => { s with tr := { s.tr with paths := tmodify s.tr.paths (hIdx h) fun x => { x with mon := f x.mon } } }
  | 0x44 => { s with tr := { s.tr with odus := tmodify s.tr.odus (hIdx h) fun x => { x with sect := f x.sect } } }
  | _ => s

/-- Whether an object belongs to the SDH layers: an SDH port, a demapped STM-N or a path. -/
def isSdhObj (s : State) (h : Nat) : Bool :=
  match hType h with
  | 0x32 => match tget s.tr.ports (hIdx h) with | some x => isSdhMode x.mode | none => false
  | 0x41 => true
  | 0x44 => true
  | _ => false

/-- The unit that supervises (Table 20-4, domain 36: trace and defect monitor). -/
def monUnit : Nat := unitOf 36 9

/-- Whether any of the given defect bits is declared. -/
def anyDefect (m : Mon) (bs : List Nat) : Bool := bs.any fun b => bit m.defects b

/-- TIM, or TIM and PLM, as they take part while the TIM consequent-action enable is set (R98). -/
def timPart (m : Mon) (bs : List Nat) : Bool := m.timEn && anyDefect m bs

/-- Server signal fail that an object gives the objects below it (Table 3-9, "Downstream"). -/
def downFail (s : State) (h : Nat) : Bool :=
  match monOf s h with
  | none => false
  | some m =>
    match hType h with
    | 0x32 =>
      if isSdhObj s h then anyDefect m [0, 1, 12, 3] || timPart m [6] || (m.excEn && bit m.defects 10)
      else anyDefect m [0, 1, 2] || timPart m [6]
    | 0x40 => anyDefect m [3, 4, 5, 2, 11, 12] || timPart m [6, 7]
    | 0x44 => anyDefect m [12, 3] || timPart m [6] || (m.excEn && bit m.defects 10)
    | _ => anyDefect m [3, 8, 4, 2, 12] || timPart m [6, 7]

/-- Backward indication of an object: OTU BDI, ODU PM BDI, MS-RDI, HP-RDI or LP-RDI (Table 3-9). TIM and PLM always
take part. -/
def backward (s : State) (h : Nat) : Bool :=
  match monOf s h with
  | none => false
  | some m =>
    match hType h with
    | 0x32 => if isSdhObj s h then anyDefect m [0, 1, 6, 12, 3, 10] else anyDefect m [0, 1, 2, 6]
    | 0x40 => anyDefect m [3, 4, 5, 6, 7, 2, 11, 12]
    | 0x44 => anyDefect m [6, 12, 3, 10]
    | _ => anyDefect m [3, 8, 4, 6, 7, 2]

/-- Signal fail of an object as a protection trigger (Table 3-9); `inherent` for SNC/I, which takes AIS, LOP and SSF only
(Table 3-11). An Ethernet port fails while it is declared down. -/
def sigFail (s : State) (h : Nat) (inherent : Bool) : Bool :=
  match hType h with
  | 0x30 => match tget s.line.ports (hIdx h) with | some x => !x.up | none => true
  | _ =>
    match monOf s h with
    | none => true
    | some m =>
      match hType h with
      | 0x32 => if isSdhObj s h then anyDefect m [0, 1, 12, 3, 10] || timPart m [6] else downFail s h
      | 0x40 => downFail s h
      | _ => if inherent then anyDefect m [3, 8, 12] else downFail s h

/-- Signal degrade of an object (Table 3-9): DEG, or the FEC degrade of an Ethernet port. -/
def sigDegrade (s : State) (h : Nat) : Bool :=
  match hType h with
  | 0x30 => match tget s.line.ports (hIdx h) with | some x => x.degrade | none => false
  | _ => match monOf s h with | some m => bit m.defects 9 | none => false

/-- The objects whose server is h. -/
def childrenOf (s : State) (h : Nat) : List Nat :=
  (s.tr.odus.filterMap fun e => if e.2.server = h then some (handle 0x40 e.1) else none)
    ++ s.tr.paths.filterMap fun e => if e.2.server = h then some (handle 0x41 e.1) else none

/-- The objects that take server signal fail from h: the section of an STM-N demapped from an ODU, and its paths, or
those whose server is h. -/
def belowOf (s : State) (h : Nat) : List Nat :=
  match hType h with
  | 0x40 => match tget s.tr.odus (hIdx h) with
    | some o => if termStm o.term = 0 then childrenOf s h else [sectHandle (hIdx h)]
    | none => []
  | 0x44 => childrenOf s (handle 0x40 (hIdx h))
  | _ => childrenOf s h

/-- The object whose server signal fail a path or ODU on server h takes: the section, for an ODU that terminates in the
SDH engine. -/
def failFrom (s : State) (h : Nat) : Nat :=
  match hType h with
  | 0x40 => match tget s.tr.odus (hIdx h) with
    | some o => if termStm o.term = 0 then h else sectHandle (hIdx h)
    | none => h
  | _ => h

/-- The handle that names an object to the host: a demapped STM-N is named by its ODU (DESIGN CHOICE,
notes/assumptions/95). -/
def objHandle (h : Nat) : Nat := if hType h = 0x44 then handle 0x40 (hIdx h) else h

/-- The transport port at the bottom of a chain of servers (R88). -/
def oduPort (s : State) : Nat → Nat → Nat
  | 0, h => hIdx h
  | f + 1, h =>
    if hType h = 0x32 then hIdx h
    else match tget s.tr.odus (hIdx h) with
      | some o => oduPort s f o.server
      | none => hIdx h

/-- Set or clear one defect bit of an object, raising its event (R93, R108). -/
def putDefect (h b : Nat) (on : Bool) (s : State) : State :=
  match monOf s h with
  | none => s
  | some m =>
    if bit m.defects b = on then s
    else
      let s := modMon h (fun m =>
        if on then { m with defects := m.defects + 2 ^ b, flags := if bit m.flags b then m.flags else m.flags + 2 ^ b }
        else { m with defects := m.defects - 2 ^ b }) s
      raise 4 (if on then 1 else 2) monUnit (pay [(objHandle h, 4), (b, 1)]) s

/-- Whether a defect applies to an object and comes from its own signal (Table 3-6); TIM, PLM, DEG, EXC and SSF are
judged elsewhere. -/
def defectApplies (s : State) (h b : Nat) : Bool :=
  match hType h with
  | 0x32 => (if isSdhObj s h then [0, 1, 3, 13] else [0, 1, 2, 13]).contains b
  | 0x40 => [3, 4, 5, 13].contains b || (b == 11 && !(childrenOf s h).isEmpty)
  | 0x44 => [3, 13].contains b
  | 0x41 => match tget s.tr.paths (hIdx h) with
    | some x => [3, 4, 8, 13].contains b || (b == 2 && x.kind != 2)
    | none => false
  | _ => false

/-- The label an object is to receive: a payload type, C2 or a V5 label (Table 3-6, PLM). -/
def expectedLabel (s : State) (h : Nat) : Option Nat :=
  match hType h with
  | 0x40 => (tget s.tr.odus (hIdx h)).map fun x => x.expPt
  | 0x41 => (tget s.tr.paths (hIdx h)).map fun x => x.label
  | _ => none

/-- A received S1, payload type or signal label is accepted; PLM stands while a label is unlike the expected one (R91, R93). -/
def takeLabel (h v : Nat) (s : State) : State :=
  let s := modMon h (fun m => { m with rxLabel := v % 256 }) s
  match expectedLabel s h with
  | some e => putDefect h 7 (v % 256 != e) s
  | none => s

/-! ### STM-256 over four lanes (R85) -/

/-- The logical lane that carries byte i of an STM-256 frame, counted from the first A1 byte. -/
def stm256Lane (i : Nat) : Nat := i % 4

/-- When byte i of the frame arrives, in bits, from where each lane finds its framing; none on a lane out of frame. -/
def stm256Arrival (lanes : List (Option Nat)) (i : Nat) : Option Nat :=
  (lanes.getD (stm256Lane i) none).map fun at_ => at_ + i / 4 * 8

/-- Whether the four lanes are in frame and within 2,048 bits of each other, so that they can be deskewed. -/
def stm256Aligned (lanes : List (Option Nat)) : Bool :=
  let first := (List.range 4).filterMap (stm256Arrival lanes)
  decide (first.length = 4) && decide (first.foldl max 0 ≤ first.foldl min (first.headD 0) + 2048)

/-- Whether LOF or LOL may change to `on`: in mode 0x22 it follows the lanes' framing and skew (R85). -/
def framingFits (s : State) (h b : Nat) (on : Bool) (lanes : List (Option Nat)) : Bool :=
  match if hType h = 0x32 ∧ b = 1 then tget s.tr.ports (hIdx h) else none with
  | some x => x.mode != 0x22 || stm256Aligned lanes != on
  | none => true

/-- Carry server signal fail to the objects below h, layer by layer (Table 3-6, SSF). -/
def spreadSsf : Nat → Nat → State → State
  | 0, _, s => s
  | n + 1, h, s =>
    let f := downFail s h
    (belowOf s h).foldl (fun s c => spreadSsf n c (putDefect c 12 f s)) s

/-- A loop-timed port transmits with its receive clock unless that signal is in LOS or LOF (R86). -/
def timingUpdate (s : State) : State :=
  { s with tr := { s.tr with ports := tmap s.tr.ports fun _ x => { x with looped := x.loopTiming && !anyDefect x.mon [0, 1] } } }

/-- Bring each packet client's state in line with its ODU (R90). -/
def clientsUpdate (s : State) : State :=
  { s with tr := { s.tr with clients := tmap s.tr.clients fun _ c => { c with up := !downFail s (handle 0x40 c.odu) } } }

/-! ### Protection groups (R103 to R106) -/

/-- The conditions that stand before hold-off: [0] SF-W, [1] SF-P, [2] SD-W, [3] SD-P. -/
def protRaw (s : State) (g : Prot) : Nat :=
  let w := if g.ty = 5 then g.trigW else g.worker
  let p := if g.ty = 5 then g.trigP else g.protect
  let inh := g.ty == 3
  if g.ty = 5 ∧ w = 0 ∧ p = 0 then 0
  else b2n (w != 0 && sigFail s w inh) + 2 * b2n (p != 0 && sigFail s p inh)
    + if inh then 0 else 4 * b2n (w != 0 && sigDegrade s w) + 8 * b2n (p != 0 && sigDegrade s p)

/-- Pass the standing conditions through hold-off (R104): a condition that clears is gone at once; a new one waits for
its timer, or is present at once with a hold-off of 0. -/
def protHold (bounds raw : Nat) (g : Prot) : Prot :=
  [0, 1, 2, 3].foldl (fun g c =>
    if bit raw c then
      if bit g.present c || thas g.holds c then g
      else if g.holdOff = 0 then { g with present := g.present + 2 ^ c }
      else { g with holds := tset g.holds c (bounds + g.holdOff) }
    else if bit g.present c then { g with present := g.present - 2 ^ c } else g) g

/-- Expire hold-off timers at a boundary: the condition is present only if it still stands (R104). -/
def protHoldExpire (bounds raw : Nat) (g : Prot) : Prot :=
  g.holds.foldl (fun g e =>
    if e.2 ≤ bounds then
      let g := { g with holds := terase g.holds e.1 }
      if bit raw e.1 && !bit g.present e.1 then { g with present := g.present + 2 ^ e.1 } else g
    else g) g

/-- The far end's request as a rank of Table 3-12 and the side it selects (G.841 K1 codes, PRESUMED): none where it
asks for nothing. -/
def farRequest (g : Prot) : Nat × Option Bool :=
  let code := g.rxK1 / 16
  let ch := g.rxK1 % 16
  if !g.bidir || g.fop != 0 then (9, none)
  else if code = 0xF then (1, some false)
  else if code = 0xE then (3, some true)
  else if code = 0xD ∨ code = 0xC then if ch = 0 then (2, some false) else (4, some true)
  else if code = 0xB ∨ code = 0xA then if ch = 0 then (9, none) else (5, some true)
  else if code = 0x8 then (6, some (ch != 0))
  else if code = 0x6 then (7, some true)
  else if code = 0x4 then (8, none)
  else (9, none)

/-- The highest local standing request (Table 3-12) and the side it selects; none keeps the selection. -/
def localRequest (g : Prot) : Nat × Option Bool :=
  let sfw := bit g.present 0
  let sfp := bit g.present 1
  let sdw := g.sdTrig && bit g.present 2
  let sdp := g.sdTrig && bit g.present 3
  if g.lo then (1, some false)
  else if sfp then (2, some false)
  else if g.fs then (3, some true)
  else if sfw then (4, some true)
  else if sdw then (5, if sdp then none else some true)
  else if g.ms = 1 then (6, some true)
  else if g.ms = 2 then (6, some false)
  else if g.wtrAt.isSome then (7, some true)
  else if g.exer then (8, none)
  else (9, if g.revert then some false else none)

/-- The request that decides: the far end's where it ranks higher (R106). -/
def topRequest (g : Prot) : Nat × Option Bool :=
  let l := localRequest g
  let f := farRequest g
  if f.1 < l.1 then f else l

/-- The K1 request code of a rank (G.841, PRESUMED). -/
def k1Code (rank : Nat) : Nat :=
  match rank with
  | 1 => 0xF | 2 => 0xD | 3 => 0xE | 4 => 0xD | 5 => 0xB | 6 => 0x8 | 7 => 0x6 | 8 => 0x4 | _ => 0x0

/-- The K1 and K2 that Enenhild transmits (R106): the local request, or reverse request while the far end's ranks
higher; a non-revertive group that stays on protection without a request sends Do-not-revert (G.841, PRESUMED); channel 1
names the worker. -/
def kBytes (g : Prot) : Nat × Nat :=
  let l := localRequest g
  let f := farRequest g
  let code := if f.1 < l.1 then 0x2 else if l.1 = 9 ∧ !g.revert ∧ g.side then 0x1 else k1Code l.1
  let ch := b2n (g.side && l.1 != 2 && l.1 != 1)
  (code * 16 + ch, b2n g.side * 16 + (if g.bidir && g.fop == 0 then 5 else 4))

/-- The code of a PROT_SWITCH (Table 3-15): the PROT.REQUEST code of the rank, 0 for a condition or no request (DESIGN
CHOICE, notes/assumptions/96: the table names it only). -/
def rankCode (g : Prot) (rank : Nat) : Nat :=
  match rank with
  | 1 => 1 | 3 => 2 | 6 => if g.ms = 2 then 4 else 3 | 8 => 5 | _ => 0

/-- Evaluate a group (R103, R104): WTR, the highest request, the selection, the K bytes and the time by which the far-end
bridge must agree (R106). `was` is the worker's condition before the change. An SF-W or SD-W declared again ends WTR once
it is past its hold-off (DESIGN CHOICE, notes/assumptions/97). -/
def protSelect (bounds : Nat) (was : Bool) (g : Prot) : Prot :=
  let bad := bit g.present 0 || (g.sdTrig && bit g.present 2)
  let g := if was && !bad && g.revert && g.side && g.wtrAt.isNone && g.wtr != 0
    then { g with wtrAt := some (bounds + g.wtr) } else g
  let noWtr := { g with wtrAt := none }
  let g := if (topRequest noWtr).1 ≤ 6 then noWtr else g
  let r := topRequest g
  let before := g.side
  let g := { g with rank := r.1, side := r.2.getD g.side }
  let late := g.bidir && g.fop == 0 && g.rxK2 / 16 != b2n g.side
  let due := if g.side = before then g.bridgeAt.getD (bounds + 400) else bounds + 400
  let k := kBytes g
  { g with txK1 := k.1, txK2 := k.2, bridgeAt := if late then some due else none }

/-- Store group i and raise PROT_SWITCH where its selection changed (Table 3-15); while the MPC has failed the transmitted K
bytes keep their last values (R524). -/
def putProt (i : Nat) (old new : Prot) (s : State) : State :=
  let new := if s.flt.mpcFailed then { new with txK1 := old.txK1, txK2 := old.txK2 } else new
  let s := { s with tr := { s.tr with groups := tset s.tr.groups i new } }
  if old.side = new.side then s
  else raise 4 0x10 (unitOf 36 10) (pay [(handle 0x42 i, 4), (b2n new.side, 1), (new.rank, 1), (rankCode new new.rank, 1)]) (skipDevice s)

/-- Whether the worker's SF or SD stands for the group. -/
def workerBad (g : Prot) : Bool := bit g.present 0 || (g.sdTrig && bit g.present 2)

/-- Re-evaluate group i on the conditions as they stand. -/
def protStep (i : Nat) (s : State) : State :=
  match tget s.tr.groups i with
  | none => s
  | some g => putProt i g (protSelect s.tm.bounds (workerBad g) (protHold s.tm.bounds (protRaw s g) g)) s

/-- Re-evaluate every group; a standby follows its active and never its own triggers (R393). -/
def protUpdate (s : State) : State :=
  if s.twin.st ≤ 1 then s.tr.groups.foldl (fun s e => protStep e.1 s) s else s

/-- What follows a change of the defects of some objects: SSF below them, timing sources, clients, and the protection
groups, which rank the requests of one clock together (R86, R98, R103). -/
def defectsChangedAll (hs : List Nat) (s : State) : State :=
  protUpdate (clientsUpdate (timingUpdate (hs.foldl (fun s h => spreadSsf 8 h s) s)))

/-- What follows a change of one object's defects. -/
def defectsChanged (h : Nat) (s : State) : State := defectsChangedAll [h] s

/-! ### Traces (R95 to R97) -/

/-- The accepted trace equals the expected one under the comparison mode (Table 3-8, R95). -/
def traceMatch (m : Mon) : Bool :=
  let seg (a n : Nat) := (m.accTrace.drop a).take n == (m.expTrace.drop a).take n
  match m.trMode with
  | 1 => seg 0 16
  | 2 => seg 16 16
  | 3 => seg 0 32
  | 4 => if m.trFmt = 0 then seg 1 15 else seg 0 64
  | _ => true

/-- Judge TIM of an object now: clear on a match or in mode 0, declare once the mismatch has lasted the persistence;
`restart` starts the persistence anew (R96, R97). -/
def timJudge (h : Nat) (restart : Bool) (s : State) : State :=
  match monOf s h with
  | none => s
  | some m =>
    if m.accTrace.isEmpty || traceMatch m then
      defectsChanged h (putDefect h 6 false (modMon h (fun m => { m with misStart := 0 }) s))
    else
      let st := if restart || m.misStart = 0 then elapsed s + 1 else m.misStart
      let s := modMon h (fun m => { m with misStart := st }) s
      if st - 1 + m.persist * tideU ≤ elapsed s then defectsChanged h (putDefect h 6 true s) else s

/-- One step of the CRC-7 of G.707, polynomial x^7 + x^3 + 1, on one bit. -/
def crc7Bit (c : Nat) (b : Bool) : Nat :=
  let x := bit c 6 != b
  let c := c * 2 % 128
  if x then Nat.xor c 9 else c

/-- CRC-7 over bytes, most significant bit first. -/
def crc7 (bs : List Byte) : Nat :=
  bs.foldl (fun c b => [7, 6, 5, 4, 3, 2, 1, 0].foldl (fun c i => crc7Bit c (bit b.toNat i)) c) 0

/-- A 16-byte trace from 15 characters: byte 0 is bit 7 set and the CRC-7 (R95). -/
def trace16 (chars : List Byte) : List Byte :=
  let cs := chars.take 15
  BitVec.ofNat 8 (128 + crc7 (128#8 :: cs)) :: cs

/-- Whether a received trace may be accepted: a 16-byte trace must pass its CRC-7 (R96). -/
def traceSound (s : State) (h : Nat) (m : Mon) (trace : List Byte) : Bool :=
  !isSdhObj s h || m.trFmt != 0 || trace.take 16 == trace16 (trace.drop 1)

end Sys2Proof.Machine
end

