-- ==== Sys2Proof/Machine/FwdOps.lean ====
section
/-! DEFINITION. Operations of the forwarding pipelines: versions, the parser, keys, hashing, ECMP, policers and
statistics (spec/05_forwarding_pipeline.md). -/

namespace Sys2Proof.Machine

open Sys2Proof

/-! ### Clusters in service (R508, R513, R521) -/

/-- The pipeline that octet k deals a packet to, where the turn is with 2k + b: the sibling while one is out of service,
and 2k while the octet is concentrated (R131, R494, R509). -/
def dealTo (s : State) (k : Nat) (b : Bool) : Nat :=
  let b := b && !bit s.pow.octOn k
  let p := 2 * k + b2n b
  let q := 2 * k + b2n (!b)
  if domOut s p && !domOut s q then q else p

/-! ### Versions and counters -/

/-- Change the pipelines' state. -/
def modFwd (f : FwdSt → FwdSt) (s : State) : State := { s with fwd := f s.fwd }

/-- The configuration that a packet of an ingress epoch sees (R155). -/
def cfgIn (s : State) (epoch : Bool) : FwdCfg := if epoch = s.fwd.epoch then s.fwd.cfg else s.fwd.oldIn.getD s.fwd.cfg

/-- The configuration that a packet of an egress epoch sees (R155). -/
def cfgEg (s : State) (epoch : Bool) : FwdCfg := if epoch = s.fwd.epoch then s.fwd.cfg else s.fwd.oldEg.getD s.fwd.cfg

/-- Change the versioned configuration: a commit changes the new version, a direct change every version (R163). -/
def setCfg (commit : Bool) (f : FwdCfg → FwdCfg) (s : State) : State :=
  if commit then modFwd (fun w => { w with cfg := f w.cfg }) s
  else modFwd (fun w => { w with cfg := f w.cfg, oldIn := w.oldIn.map f, oldEg := w.oldEg.map f }) s

/-- Add n to counter k of pipeline p (R159). -/
def pipeCount (p k n : Nat) (s : State) : State := ctrAdd48 6 5 (unitOf p 0) (pay [(p, 1), (k, 1)]) 0x46 (p + 1) k n s

/-- Change pipeline p. -/
def modPipe (p : Nat) (f : Pipe → Pipe) (s : State) : State := modFwd (fun w => { w with pipes := lmod w.pipes p f }) s

/-- Parse settings of a source: port p, or packet client c at 256 + c (R585). -/
def parseOf (s : State) (k : Nat) : ParsePort := tgetD s.fwd.parse k {}

/-- Give a new port or packet client the settings of R585; a new port's frames are numbered from 0 (R397). -/
def parseReset (k : Nat) (s : State) : State :=
  let s := if k < 64 then { s with twin := { s.twin with ports := s.twin.ports.set k {} } } else s
  modFwd (fun w => { w with parse := terase w.parse k }) s

/-! ### The parser (R136 to R138) -/

/-- The first 256 bytes of a frame as a number of 2,048 bits, bit offset 0 most significant. -/
def window (bs : List Byte) : Nat :=
  let b := bs.take 256
  beNat b * 256 ^ (256 - b.length)

/-- The w bits at bit offset o of a window; bits beyond it read as 0 (R136). -/
def windowBits (n o w : Nat) : Nat := n * 2 ^ 4096 / 2 ^ (6144 - o - w) % 2 ^ w

/-- Replace k bytes of the packet vector at byte d, truncated at its end (R137). -/
def vectorPut (v d k x : Nat) : Nat :=
  let kk := min k (256 - d)
  let x := x / 256 ^ (k - kk)
  let lo := 256 ^ (256 - d - kk)
  v / (lo * 256 ^ kk) * (lo * 256 ^ kk) + x % 256 ^ kk * lo + v % lo

/-- What the parser makes of a packet. -/
structure Parsed where
  /-- Layer list: type code and byte offset of each layer, in order [R136] -/
  layers : List (Nat × Nat) := []
  /-- Packet vector, byte 0 most significant [2,048; R136] -/
  vec : Nat := 0
  /-- Layer offset of each anchor met, the first one of a kind [Table 5-2] -/
  anchors : Tab Nat := []
  /-- A parse exception arose [1; R138] -/
  exc : Bool := false

/-- Run the extraction descriptors of a node on the layer at byte off (R136, R137). -/
def extract (c : FwdCfg) (n off first count vec : Nat) : Nat :=
  (List.range' first count).foldl (fun v i =>
    let d := wd (tgetD c.extr i []) 0
    let w := bits d 19 12 + 1
    let k := ceilDiv w 8
    vectorPut v (bits d 27 20) k (windowBits n (off * 8 + bits d 11 0) w * 2 ^ (8 * k - w))) vec

/-- The next node by the transition table: the lowest valid entry that matches (R137). -/
def transition (c : FwdCfg) (node v : Nat) : Option Nat :=
  (c.trans.find? fun e =>
    let w0 := wd e.2 0
    let m := bits (wd e.2 1) 15 0
    bit w0 8 && bits w0 7 0 == node && Nat.land v m == Nat.land (bits w0 31 16) m).map fun e => bits (wd e.2 1) 23 16

/-- Parse from a node at a byte offset, with fuel for at most 33 layers (R136 to R138). -/
def parseFrom (c : FwdCfg) (n len : Nat) : Nat → Nat → Nat → Parsed → Parsed
  | 0, _, _, r => { r with exc := true }
  | fuel + 1, node, off, r =>
    let w := tgetD c.nodes node []
    let lenField := if fld w 0 31 28 = 0 then 0 else windowBits n (off * 8 + fld w 0 27 16) (fld w 0 31 28)
    let size := fld w 0 15 8 + lenField * 2 ^ fld w 1 2 0
    if 32 ≤ r.layers.length ∨ min 256 len < off + size then { r with exc := true }
    else
      let anc := fld w 2 7 5
      let r := { r with
        layers := r.layers ++ [(fld w 0 7 0, off)]
        vec := extract c n off (fld w 1 31 21) (fld w 2 3 0) r.vec
        anchors := if anc = 0 ∨ thas r.anchors anc then r.anchors else tset r.anchors anc off }
      if fld w 1 20 16 = 0 then r
      else
        let v := windowBits n (off * 8 + fld w 1 15 4) (fld w 1 20 16)
        match transition c node v with
        | some m => parseFrom c n len fuel m (off + size) r
        | none =>
          if fld w 2 17 16 = 0 then r
          else if fld w 2 17 16 = 1 then parseFrom c n len fuel (fld w 2 15 8) (off + size) r
          else { r with exc := true }

/-- Parse a frame from a start node. -/
def parse (c : FwdCfg) (start : Nat) (bs : List Byte) : Parsed := parseFrom c (window bs) bs.length 34 start 0 {}

/-! ### Frames -/

/-- Byte i of a frame as a number, 0 beyond its end. -/
def byteAt (bs : List Byte) (i : Nat) : Nat := (bs.getD i 0#8).toNat

/-- The 16-bit big-endian value at byte i. -/
def half (bs : List Byte) (i : Nat) : Nat := byteAt bs i * 256 + byteAt bs (i + 1)

/-- Replace the bytes from byte i on. -/
def putBytes (bs : List Byte) (i : Nat) (new : List Byte) : List Byte := bs.take i ++ new ++ bs.drop (i + new.length)

/-- The frame that a later pass and the egress half see of a packet whose outer headers are to be removed (R144, R153). -/
def viewOf (k : Pkt) : List Byte :=
  if k.strip = 0 then k.bytes
  else if k.inner = 0 then k.bytes.drop k.strip
  else k.bytes.take 12 ++ beBytes k.inner 2 ++ k.bytes.drop k.strip

/-- Where byte o of that frame stands in the packet. -/
def viewAt (k : Pkt) (o : Nat) : Nat := if k.inner = 0 ∨ k.strip = 0 then k.strip + o else k.strip + o - 14

/-- The S-tag TPID of port p (Table 2-4). -/
def stagTpid (s : State) (p : Nat) : Nat :=
  match tget s.line.ports p with
  | some x => if x.cfg.stag = 1 then 0x9100 else if x.cfg.stag = 2 then 0x9200 else 0x88A8
  | none => 0x88A8

/-- The outer tag's control information, or none for an untagged frame (Table 2-4, R133, R140). -/
def outerTci (s : State) (p : Nat) (bs : List Byte) : Option Nat :=
  if half bs 12 = 0x8100 ∨ half bs 12 = stagTpid s p then some (half bs 14) else none

/-- Offset of the EtherType after the leading run of C-tags, S-tags and R-TAGs (R65). -/
def tagsEnd (tpid : Nat) (bs : List Byte) : Nat → Nat → Nat
  | 0, i => i
  | f + 1, i =>
    if half bs i = 0x8100 ∨ half bs i = tpid then tagsEnd tpid bs f (i + 4)
    else if half bs i = 0xF1C1 then tagsEnd tpid bs f (i + 6)
    else i

/-- EtherType of a frame after its tags, and the offset of what follows it. -/
def payloadOf (tpid : Nat) (bs : List Byte) : Nat × Nat :=
  let i := tagsEnd tpid bs bs.length 12
  (half bs i, i + 2)

/-- The offset and family of the first IP header, after any MPLS labels: 4, 6, or 0 for none (R264). -/
def ipHeader (tpid : Nat) (bs : List Byte) : Nat × Nat :=
  let (et, o) := payloadOf tpid bs
  if et = 0x0800 then (o, 4)
  else if et = 0x86DD then (o, 6)
  else if et = 0x8847 ∨ et = 0x8848 then
    let i := mplsEnd bs bs.length o
    if byteAt bs i / 16 = 4 then (i, 4) else if byteAt bs i / 16 = 6 then (i, 6) else (i, 0)
  else (o, 0)
where
  /-- Offset after the MPLS label stack. -/
  mplsEnd (bs : List Byte) : Nat → Nat → Nat
    | 0, i => i
    | f + 1, i => if byteAt bs (i + 2) % 2 = 1 then i + 4 else if i + 4 ≤ bs.length then mplsEnd bs f (i + 4) else i

/-! ### Keys (R142) -/

/-- The bytes that a key profile makes of a packet vector and metadata, each metadata word most significant byte first
(R142, R312). -/
def keyOf (c : FwdCfg) (kp : Nat) (vec : Nat) (md : List Word) : List Byte :=
  let m := md.flatMap fun w => beBytes w.toNat 4
  let v := beBytes vec 256
  (tgetD c.keys kp []).flatMap fun sel =>
    ((if bit sel 14 then m else v).drop (bits sel 7 0)).take (bits sel 13 8 + 1)

/-- Length of a key profile, bytes. -/
def keyLen (c : FwdCfg) (kp : Nat) : Nat := (tgetD c.keys kp []).foldl (fun n sel => n + bits sel 13 8 + 1) 0

/-- A key padded with zero bytes to n bytes, as a number, byte 0 most significant. -/
def keyPad (bs : List Byte) (n : Nat) : Nat := beNat (bs.take n) * 256 ^ (n - (bs.take n).length)

/-! ### The flow hash (R146) -/

/-- Order a pair, the lower first, with the symmetric option. -/
def pair (sym : Bool) (a b : List Byte) : List Byte := if sym && decide (beNat b < beNat a) then b ++ a else a ++ b

/-- Labels of an MPLS stack from offset i, outermost first. -/
def mplsLabels (bs : List Byte) : Nat → Nat → List Nat
  | 0, _ => []
  | f + 1, i =>
    if bs.length < i + 4 then []
    else
      let l := beNat ((bs.drop i).take 4) / 4096
      if byteAt bs (i + 2) % 2 = 1 then [l] else l :: mplsLabels bs f (i + 4)

/-- What follows the label at the bottom of an MPLS stack that stands at offset i. -/
def belowLabels (bs : List Byte) : Nat → Nat → List Byte
  | 0, i => bs.drop i
  | f + 1, i => if byteAt bs (i + 2) % 2 = 1 ∨ bs.length < i + 4 then bs.drop (i + 4) else belowLabels bs f (i + 4)

/-- A pseudowire packet from its control word on: what follows the label stack of a frame (R113). -/
def pwBody (tpid : Nat) (bs : List Byte) : List Byte := belowLabels bs bs.length (payloadOf tpid bs).2

/-- Where the upper layer of an IPv6 packet begins and its protocol, past its extension headers; none in a fragment that is not
the first (RFC 8200). -/
def ipv6Upper (bs : List Byte) : Nat → Nat → Nat → Option (Nat × Nat)
  | 0, _, _ => none
  | f + 1, nh, i =>
    if nh = 0 ∨ nh = 43 ∨ nh = 60 then ipv6Upper bs f (byteAt bs i) (i + 8 + byteAt bs (i + 1) * 8)
    else if nh = 51 then ipv6Upper bs f (byteAt bs i) (i + 8 + byteAt bs (i + 1) * 4)
    else if nh = 44 then (if half bs (i + 2) / 8 = 0 then ipv6Upper bs f (byteAt bs i) (i + 8) else none)
    else some (i, nh)

/-- The hash fields of a frame (R146). -/
def hashFields (s : State) (p : Nat) (bs : List Byte) : List Byte :=
  let sym := s.fwd.sym
  let sl (o n : Nat) : List Byte := (bs.drop o).take n
  let (et, o) := payloadOf (stagTpid s p) bs
  let (i, fam) := ipHeader (stagTpid s p) bs
  if fam = 4 then
    let pr := byteAt bs (i + 9)
    let l4 := i + byteAt bs i % 16 * 4
    let ports := (pr = 6 ∨ pr = 17 ∨ pr = 132) ∧ half bs (i + 6) % 8192 = 0
    pair sym (sl (i + 12) 4) (sl (i + 16) 4) ++ sl (i + 9) 1 ++ (if ports then pair sym (sl l4 2) (sl (l4 + 2) 2) else [])
  else if fam = 6 then
    let ports := match ipv6Upper bs bs.length (byteAt bs (i + 6)) (i + 40) with
      | some (l4, pr) => if pr = 6 ∨ pr = 17 ∨ pr = 132 then pair sym (sl l4 2) (sl (l4 + 2) 2) else []
      | none => []
    pair sym (sl (i + 8) 16) (sl (i + 24) 16) ++ sl (i + 6) 1 ++ beBytes (beNat (sl i 4) % 2 ^ 20) 3
      ++ ports
  else if et = 0x8847 ∨ et = 0x8848 then
    let ls := mplsLabels bs bs.length o
    match ls.dropWhile fun l => l != 7 with
    | _ :: e :: _ => beBytes e 3
    | _ => (ls.drop (ls.length - 3)).flatMap fun l => beBytes l 3
  else pair sym (sl 6 6) (sl 0 6) ++ beBytes et 2

/-- The flow hash h (R146). -/
def flowHash (s : State) (p : Nat) (bs : List Byte) : Nat := crc32c (hashFields s p bs ++ beBytes s.fwd.seed.toNat 4)

/-! ### Policers (R148 to R151) -/

/-- Whether a rate is in range: 0, or 1,000 to 1.6 x 10^12 b/s. -/
def rateOk (r : Nat) : Bool := r == 0 || (decide (1000 ≤ r) && decide (r ≤ 1600000000000))

/-- The stored rate (R148, R258). -/
def storedRate (r : Nat) : Nat := max (r - r / 10000) (min (r + r / 10000) (Config.rateOf r))

/-- Tokens added over dt at a rate, and the remainder (R149). -/
def tokensAdd (dt rate res : Nat) : Nat × Nat := ((dt * rate + res) / 8000000000, (dt * rate + res) % 8000000000)

/-- Refill a policer's buckets at time-base value t (R149). -/
def polRefill (c : PolCfg) (t : Nat) (k : PolTok) : PolTok :=
  let dt := t - k.last
  let (ac, rc) := tokensAdd dt c.cir k.resC
  let (ap, rp) := tokensAdd dt c.pir k.resP
  let cbs := c.cbs * 65536
  let ebs := c.ebs * 65536
  if c.tr then
    { tc := min cbs (k.tc + ac), te := min ebs (k.te + ap), last := t, resC := rc, resP := rp }
  else
    let tc := k.tc + ac
    { tc := min cbs tc, te := if cbs < tc then min ebs (k.te + tc - cbs) else k.te, last := t, resC := rc, resP := rp }

/-- Colour a packet of len bytes and charge it as the pseudocode of R149 does: the colour and the tokens. -/
def polColour (c : PolCfg) (inCol len : Nat) (k : PolTok) : Nat × PolTok :=
  let l := ((len : Int) + c.adj).toNat * 65536
  if c.tr then
    if inCol = 2 ∨ k.te < l then (2, k)
    else if inCol = 1 ∨ k.tc < l then (1, { k with te := k.te - l })
    else (0, { k with te := k.te - l, tc := k.tc - l })
  else if (!c.aware ∨ inCol = 0) ∧ l ≤ k.tc then (0, { k with tc := k.tc - l })
  else if inCol ≠ 2 ∧ l ≤ k.te then (1, { k with te := k.te - l })
  else (2, k)

/-- Police a packet with policer i: its colour, and the state (R149). -/
def police (c : FwdCfg) (i inCol len : Nat) (s : State) : Nat × State :=
  let cfg := tgetD c.pols i {}
  let (col, k) := polColour cfg inCol len (polRefill cfg (nowLin s) (tgetD s.fwd.toks i {}))
  (col, modFwd (fun w => { w with toks := tset w.toks i k }) s)

/-- Settings of policer i change: the token counts carry over, clamped (R150). -/
def polClamp (i : Nat) (c : PolCfg) (s : State) : State :=
  modFwd (fun w => { w with toks := tmodify w.toks i fun k =>
    { k with tc := min k.tc (c.cbs * 65536), te := min k.te (c.ebs * 65536) } }) s

/-- Update a statistics counter (R152). -/
def statAdd (i len : Nat) (s : State) : State :=
  let i := i % 67108864
  let put (k n : Nat) (t : Tab Nat) : Tab Nat := mset 0 t k ((tgetD t k 0 + n) % 2 ^ 64)
  modFwd (fun w => { w with stats := put (2 * i + 1) len (put (2 * i) 1 w.stats) }) s

/-! ### ECMP (R146, R147) -/

/-- The local destination of a system port in a table of entries: line port 0 to 63 or 64, where its entry names this
device (R315). -/
def sysLocalIn (sp : Tab (Nat × Nat)) (dev dsp : Nat) : Option Nat :=
  match tget sp dsp with
  | some (d, l) => if d = dev then some l else none
  | none => none

/-- The local destination of a system port in the entries in force. -/
def sysLocal (s : State) (dsp : Nat) : Option Nat := sysLocalIn s.fab.sysp s.fab.dev dsp

/-- The system-port entries that a packet of the current or the old ingress epoch sees (R17). -/
def syspIn (s : State) (cur : Bool) : Tab (Nat × Nat) := if cur then s.fab.sysp else s.fab.oldSysp.getD s.fab.sysp

/-- The streams that a packet of the current or the old ingress epoch sees (R17). -/
def streamsIn (s : State) (cur : Bool) : Tab Stream := if cur then s.det.streams else s.det.oldStreams.getD s.det.streams

/-- Whether a local port is declared down (R57, R147). -/
def portDown (s : State) (p : Nat) : Bool :=
  match tget s.line.ports p with
  | some x => !x.up
  | none => false

/-- Whether a member of an ECMP group is excluded: marked down, or its next-hop's local port is declared down (R147). -/
def memberOut (s : State) (sp : Tab (Nat × Nat)) (c : FwdCfg) (m : Nat × Bool) : Bool :=
  m.2 || match tget c.nhs m.1 with
    | some nh => match sysLocalIn sp s.fab.dev nh.dsp with
      | some p => portDown s p
      | none => false
    | none => true

/-- The member of group g that a hash chooses: m, or the next one at or after m + 1, cyclically, that is up (R146, R147).
A standby's member states are the active's (R393). -/
def ecmpChoose (s : State) (cur : Bool) (c : FwdCfg) (g : Nat) (ms : List (Nat × Bool)) (h16 : Nat) : Option Nat :=
  let n := ms.length
  let m := h16 * n / 65536
  let out (x : (Nat × Bool) × Nat) : Bool := if mayDrive s then memberOut s (syspIn s cur) c x.1 else s.fwd.excluded.contains (g * 512 + x.2)
  let l := ms.zipIdx
  ((l.drop m ++ l.take m).find? fun x => !out x).map fun x => x.1.1

/-- Bring the exclusions in line, raising ECMP_MEMBER_EXCLUDED and ECMP_MEMBER_RESTORED once per change (R147). -/
def ecmpUpdate (s : State) : State :=
  if !mayDrive s then s else s.fwd.cfg.ecmps.foldl (fun s e =>
    (e.2.zipIdx).foldl (fun s (m, i) =>
      let k := e.1 * 512 + i
      let out := memberOut s s.fab.sysp s.fwd.cfg m
      let was := s.fwd.excluded.contains k
      if out == was then s
      else if out then
        let port := match tget s.fwd.cfg.nhs m.1 with | some nh => (sysLocal s nh.dsp).getD 255 | none => 255
        raise 6 2 mpcUnit (pay [(handle 0x61 e.1, 4), (i, 2), (port, 1)])
          (modFwd (fun w => { w with excluded := w.excluded ++ [k] }) (skipDevice s))
      else
        raise 6 3 mpcUnit (pay [(handle 0x61 e.1, 4), (i, 2)])
          (modFwd (fun w => { w with excluded := w.excluded.filter fun x => x != k }) (skipDevice s))) s)
    (modFwd (fun w =>
      let live := w.excluded.filter fun k => decide (k % 512 < (tgetD w.cfg.ecmps (k / 512) []).length)
      { w with excluded := live }) s)

/-! ### Decision records and replication (R386, R397, R398) -/

/-- h of a decision record with a sequence number in words 0 and 1 (R398). -/
def decisionHash (ws : List Word) (seq : Nat) : Nat :=
  let r := wordBytes ((ws.set 0 (toWord seq)).set 1 (toWord (wd ws 1 / 65536 * 65536 + seq / 2 ^ 32 % 65536)))
  crc32c (r ++ [0x00#8]) * 2 ^ 32 + crc32c (r ++ [0xFF#8])

/-- The words of a decision record (Table 14-8), its sequence number left 0. -/
def decisionWords (k : Pkt) (action reason drop : Nat) (learned : Bool) : List Word :=
  let m := k.md
  let keep (x : Nat) : Nat := if learned then 0 else x
  [0#32,
   toWord (b2n m.det * 2 ^ 31 + m.client % 256 * 2 ^ 23 + b2n m.isClient * 2 ^ 22 + m.port % 64 * 2 ^ 16),
   toWord (b2n learned * 2 ^ 28 + reason % 256 * 2 ^ 20 + keep (action % 16 * 2 ^ 16 + m.dsp % 65536)),
   toWord (m.pass % 4 * 2 ^ 30 + (if m.det then m.colour % 4 else 0) * 2 ^ 28 + drop % 256 * 2 ^ 20 + keep (m.queue % 2 ^ 20)),
   toWord ((m.rTag % 4 * 16 + m.cTag % 4 * 4 + m.sTag % 4) * 2 ^ 24 + keep (m.edit % 2 ^ 24)),
   toWord (b2n m.sValid * 2 ^ 18 + m.stream % 2 ^ 18),
   toWord (if m.det then m.rSeq % 65536 else 0),
   0#32]

/-- The active in D mode sends a frame, or the sample of one, to the standby with the next replicated number of its port;
its decision record then has its number (R386, R397). -/
def replicateFrame (sample : Bool) (k : Pkt) (s : State) : State :=
  match s.twin.ports[k.md.port]? with
  | none => s
  | some x =>
    if s.twin.st ≠ 1 ∨ !s.twin.dMode ∨ !s.twin.hawser then s
    else
      let md := { k.md with repSeq := x.rep % 8192 }
      let s := { s with twin := { s.twin with ports := s.twin.ports.set k.md.port { x with
        rep := (x.rep + 1) % 2 ^ 48
        frames := x.frames ++ [⟨x.rep, k.last, k.fcs, k.dec.map fun ws => decisionHash ws x.rep⟩] } } }
      if sample then emit (.hawser (.sample md.words (k.bytes.take 128))) s
      else twinCount 5 1 (emit (.hawser (.frame md.words k.bytes)) s)

/-- Note the decision record of a frame of a pair: in Y mode, and on a standby, its h; on the active in D mode the record
goes with a deterministic frame to the stream unit, and a sampled best-effort frame is replicated (R386, R398). -/
def noteDecision (k : Pkt) (ws : List Word) (s : State) : Pkt × State :=
  match k.seq with
  | none => (k, s)
  | some n =>
    if s.twin.st = 0 then (k, s)
    else if s.twin.dMode ∧ s.twin.st = 1 then
      if k.md.det then ({ k with dec := some ws }, s)
      else if n % 4096 = 0 then (k, replicateFrame true { k with dec := some ws } s) else (k, s)
    else
      let mark (x : TwinPort) : TwinPort :=
        let h := decisionHash ws (if s.twin.dMode then n else ((n : Int) - x.off).toNat)
        { x with frames := x.frames.map fun f => if f.seq = n then { f with h := some h } else f }
      (k, { s with twin := { s.twin with ports := lmod s.twin.ports k.md.port mark } })

/-! ### Segments (R156) -/

/-- Whether the device has drained: no packet in any pipeline, VOQ or egress queue (R45). -/
def drained (s : State) : Bool :=
  (s.fwd.pipes.all fun p => p.waiting.isEmpty && p.recirc.isEmpty) && s.fwd.reorder.isEmpty && s.fwd.egress.isEmpty && s.td.ingress.isEmpty
    && s.td.egress.isEmpty && s.td.queues.all fun e => e.2.pkts.isEmpty

end Sys2Proof.Machine
end

