-- ==== Sys2Proof/Machine/TimeOps.lean ====
section
/-! DEFINITION. Operations of the time base that commands, events and the tide boundary share
(spec/12_time_tides.md). -/

namespace Sys2Proof.Machine

open Sys2Proof

/-- The unit of the time base (Table 20-4). -/
def tbUnit : Nat := mainUnit 8

/-- Add n to time counter k of port p, or of the device with 127 (R353). -/
def timeCount (p k n : Nat) (s : State) : State :=
  ctrAdd48 0x0D 0x0A tbUnit (pay [(p, 1), (k, 1)]) 0x4D (if p = 127 then 0 else p + 1) k n s

/-- The tide source in force: 0 OWN, 1 TIDE_IN, 2 HAWSER; a standby takes HAWSER (R349). -/
def tideSource (s : State) : Nat := if 2 ≤ s.twin.st then 2 else s.tm.source

/-- A commit tide is named: a transaction is prepared, or prepares with C fixed (R336, R351). -/
def commitNamed (s : State) : Bool := (txnsOf s).any fun x => x.phase == 2 || (x.phase == 1 && x.named)
where
  /-- The transactions that hold slots. -/
  txnsOf (s : State) : List Txn := s.ecs.slots.filterMap fun sl => sl.cur

/-- One step of a CRC-8 with polynomial 0x07 on one bit (R313). -/
def crc8Bit (c : Nat) (b : Bool) : Nat :=
  let x := bit c 7 != b
  let c := c * 2 % 256
  if x then Nat.xor c 7 else c

/-- CRC-8 of R313 over the low n bits of a number, most significant first. -/
def crc8 (x n : Nat) : Nat := (List.range n).foldl (fun c i => crc8Bit c (bit x (n - 1 - i))) 0

/-- Change the time base's state to LOCKED or HOLDOVER, raising STATE_CHANGED where it differs; it never returns to FREE
(R335, R584). -/
def setTimeState (st : Nat) (s : State) : State :=
  if s.tm.st = st ∨ (st ≠ 1 ∧ st ≠ 2) then s
  else raise 0x0D 2 tbUnit (pay [(s.tm.st, 1), (st, 1)]) { s with tm := { s.tm with st := st } }

/-- b' of R337: the smallest boundary at or after t' + 62.5 us. -/
def bridgeEnd (t' : Nat) : Nat := ceilDiv (t' + tideU / 2) tideU

/-- The wrap of the time base, 2^34 s, as a linear value (R332). -/
def tbWrap : Nat := 2 ^ 34 * secU

/-- Mark the running records of every object incomplete: the tide count changes its basis (R101). -/
def basisIncomplete (s : State) : State :=
  let mark (m : Mon) : Mon := { m with incomplete := true }
  { s with
    tr := { s.tr with
      ports := tmap s.tr.ports fun _ x => { x with mon := mark x.mon }
      odus := tmap s.tr.odus fun _ x => { x with mon := mark x.mon }
      paths := tmap s.tr.paths fun _ x => { x with mon := mark x.mon } }
    circuits := tmap s.circuits fun _ c => { c with cur := { c.cur with incomplete := true } } }

/-- Step the time base to t' at boundary b: tide n begins, with BASIS_CHANGED (R337, R338). -/
def basisChange (b n t' : Nat) (s : State) : State :=
  let s := { s with tm := { s.tm with
    tide := n, tideStart := t', sub := 0, bridging := true, bridgePhase := (t' : Int) - n * tideU } }
  let s := { s with tel := { s.tel with dumps := s.tel.dumps.map fun d => { d with basis := true } } }
  timeCount 127 4 1 (raise 0x0D 1 tbUnit (pay [(b, 6), (n, 6), (tbLayout t' / 65536, 8)]) (basisIncomplete s))

/-- Length of the current tide in time-base units: 125 us, or up to b' in a bridging tide (R337). -/
def tideLen (s : State) : Nat := (s.tm.tide + 1) * tideU - s.tm.tideStart

/-- Cut the tide boundary: the next tide begins. -/
def cutTide (s : State) : State :=
  let b := s.tm.tide + 1
  { s with tm := { s.tm with
    elapsed := s.tm.elapsed + tideLen s, bounds := s.tm.bounds + 1, sub := 0, bridging := false, bridgePhase := 0,
    tide := b % (2 ^ 34 * 8000), tideStart := b * tideU % tbWrap } }

/-- A step that awaits this boundary applies and begins a bridging tide instead (R336, R337, R584). -/
def stepTide (s : State) : State :=
  match s.tm.step with
  | some st =>
    let s := basisChange st.b (bridgeEnd st.target - 1) st.target { s with tm := { s.tm with step := none } }
    if st.lock then setTimeState 1 s else s
  | none => s

/-- The frame that TIDE_OUT sends at a boundary, after its start bit (Table 12-4). -/
def tideOutFrame (s : State) : Nat :=
  let top := s.tm.tide * 2 ^ 48 + unsigned 40 s.tm.bridgePhase * 2 ^ 8 + b2n s.tm.bridging * 2 ^ 7 + s.tm.st * 2 ^ 5
  top * 2 ^ 8 + crc8 top 112

/-- The slew in force in ppm, in units of 2^-16: phi + sigma is clamped to ±500 ppm (R333). -/
def slewRate (phi : Int) (v : Slew) : Int :=
  let r : Int := if 0 ≤ v.phase then v.rate * 65536 else -(v.rate * 65536 : Int)
  max (-32768000) (min 32768000 (phi + r)) - phi

/-- The increment at each time-base clock, in 2^-32 ns, for an offset x in 2^-16 ppm: 0.8 ns x (1 + x) (R333). -/
def tbIncrement (x : Int) : Int := 8 * 2 ^ 32 * (65536 * 1000000 + x) / (10 * (65536 * 1000000))

/-- Phase still to be added of a slew, 2^-16 ns, signed: each clock since its start has added what sigma puts into the
increment (R333, R334). -/
def slewRemaining (s : State) : Int :=
  match s.tm.slew with
  | none => 0
  | some v =>
    let inc := tbIncrement (s.tm.phi + slewRate s.tm.phi v)
    let clocks : Int := ((elapsed s - v.start : Nat) : Int) * 65536 / inc
    let gone : Int := clocks * (inc - tbIncrement s.tm.phi) / 65536
    if 0 ≤ v.phase then max 0 (v.phase - max 0 gone) else min 0 (v.phase - min 0 gone)

/-! ### SyncE (R347) -/

/-- Whether a lane gives a recovered clock: its port is up, with signal and lock. -/
def laneClock (s : State) (l : Nat) : Bool :=
  match laneOwner s l with
  | none => false
  | some p =>
    match tget s.line.ports p, tget s.tr.ports p with
    | some x, _ => x.up && !bit x.conds 0 && !bit x.conds 1
    | none, some x => x.enabled && !anyDefect x.mon [0, 1]
    | none, none => false

/-- Bring one SyncE output in line, raising SYNCE_SQUELCH or SYNCE_UNSQUELCH at a change (R347). -/
def syncEStep (i : Nat) (s : State) : State :=
  match s.tm.synce[i]? with
  | none => s
  | some o =>
    let quiet := !o.enable || o.squelch || !laneClock s o.lane
    if quiet = o.quiet then s
    else
      let s := { s with tm := { s.tm with synce := s.tm.synce.set i { o with quiet := quiet } } }
      raise 0x0D (if quiet then 8 else 9) tbUnit (pay [(i, 1), (o.lane, 1)]) s

/-- Bring both SyncE outputs in line. -/
def syncEUpdate (s : State) : State := syncEStep 1 (syncEStep 0 s)

/-! ### Timestamp FIFOs (R344, R345) -/

/-- Change the time settings of port p. -/
def modTimePort (p : Nat) (f : TimePort → TimePort) (s : State) : State :=
  { s with tm := { s.tm with ports := lmod s.tm.ports p f } }

/-- Store a capture of port p, or discard it while its entries are all occupied (R344, R345). -/
def tsStore (p cap ts : Nat) (truncated notSent own : Bool) (s : State) : State :=
  let x := s.tm.ports.getD p {}
  let held := (x.fifo.filter fun e => e.own == own).length
  let s := timeCount p 0 1 s
  if held < (if own then 8 else 56) then
    modTimePort p (fun x => { x with
      fifo := x.fifo ++ [⟨cap, ts, truncated, notSent, x.lost, own⟩], lost := 0 }) s
  else timeCount p 1 1 (modTimePort p (fun x => { x with
    lost := min 65535 (x.lost + 1)
    late := (coreClocks (nowLin s) + 1, if own then none else some ⟨cap, ts, truncated, notSent, x.lost, own⟩) }) s)

/-- The merger has removed an entry of port p: a general capture that found the entries occupied in this clock finds the entry
removed, and is held and not lost (R345). -/
def tsRoom (p : Nat) (s : State) : State :=
  let x := s.tm.ports.getD p {}
  match x.late with
  | (c, some e) =>
    if c ≠ coreClocks (nowLin s) + 1 then s
    else ctrPut 0x4D (p + 1) 1 (ctrGet s 0x4D (p + 1) 1 - 1)
      (modTimePort p (fun x => { x with fifo := x.fifo ++ [e], lost := 0, late := (0, none) }) s)
  | _ => s

/-- The timestamp ring's entry for position n of its count (Table 12-3). -/
def tsWords (p : Nat) (phase : Bool) (e : TsEntry) : List Word :=
  [toWord (b2n phase * 2 ^ 31 + b2n e.truncated * 2 ^ 24 + b2n e.notSent * 2 ^ 23 + b2n (e.lost != 0) * 2 ^ 22
      + p * 2 ^ 16 + e.cap),
    toWord e.ts, toWord (e.ts / 2 ^ 32), toWord (e.lost * 65536 + e.ts / 2 ^ 64)]

end Sys2Proof.Machine
end

