-- ==== Sys2Proof/Machine/LearnOps.lean ====
section
/-! DEFINITION. Operations of learning: profiles, keys, the move tracker and the host path
(spec/07_learning_table_upkeep.md). -/

namespace Sys2Proof.Machine

open Sys2Proof

/-- Change learning's state. -/
def modLearn (f : LearnSt → LearnSt) (s : State) : State := { s with learn := f s.learn }

/-- Add n to a learning counter (R220). -/
def learnCount (k n : Nat) (s : State) : State := ctrAdd48 8 0x0B mpcUnit (pay [(k, 1)]) 0x48 0 k n s

/-- The learn profile of a forwarding domain; profile 0 has mode off (R193). -/
def profOf (s : State) (dom : Nat) : LearnProf :=
  match tgetD s.learn.doms dom 0 with
  | 0 => {}
  | i => tgetD s.learn.profs i {}

/-- Whether a Dill table is a learn table (R194). -/
def isLearnTable (s : State) (t : Nat) : Bool := s.learn.profs.any fun e => e.2.table == t && decide (1 ≤ e.2.mode)

/-- The key of a learn table from the domain and the key profile's bytes (R194). -/
def learnKey (dom : Nat) (bs : List Byte) : Nat := keyPad (beBytes (dom % 2 ^ 20) 3 ++ beBytes (keyPad bs 9) 9) 20

/-- The domain of a learn table's key (R194). -/
def keyDomain (key : Nat) : Nat := key / 256 ^ 17 % 2 ^ 20

/-- Learned entries of a port, in all learn tables: learned(p) (R200). What a flush has changed so far counts as it was
before, for the counts follow on its completion (R213). -/
def learnedOf (s : State) (p : Nat) : Nat :=
  let n := ((dillAll s).filter fun e => isLearnTable s e.2.1 && match e.2.2.2.v.seen true with
    | some v => v.learned && v.port == p
    | none => false).length
  let left := s.learn.flushes.foldl (fun n e => if e.2.port = p then n + e.2.changed else n) 0
  let came := s.learn.flushes.foldl (fun n e => if e.2.move = some p then n + e.2.changed else n) 0
  n + left - came

/-- Requests of a port in the learn queue: pending(p) (R200). -/
def pendingOf (s : State) (p : Nat) : Nat := (s.learn.queue.filter fun r => r.src == p).length

/-- Payload of a learning event: table index, key bytes 0 to 11, and ports (Table 7-4). -/
def learnPay (t key : Nat) (r : List Nat) : List Byte :=
  leBytes t 1 ++ (keyBytes key).take 12 ++ r.map fun p => BitVec.ofNat 8 p

/-- The tracker slot of an entry (R201). -/
def slotOf (s : State) (t key : Nat) : Option MoveSlot := s.learn.slots.find? fun m => m.table == t && m.key == key

/-- Whether an entry is locked (R203). -/
def lockedEntry (s : State) (t key : Nat) : Bool :=
  match slotOf s t key with
  | some m => decide (m.lock ≠ 0)
  | none => false

/-- Free the tracker slot of an entry. -/
def slotDrop (t key : Nat) (s : State) : State :=
  modLearn (fun l => { l with slots := l.slots.filter fun m => !(m.table == t && m.key == key) }) s

/-- Write an entry's tracker slot. -/
def slotPut (m : MoveSlot) (s : State) : State :=
  modLearn (fun l => { l with slots := (l.slots.filter fun x => !(x.table == m.table && x.key == m.key)) ++ [m] }) s

/-- Set the hit bit of an entry (R206). -/
def setHit (p : Place) (s : State) : State :=
  match p with
  | .bucket k => modTab (fun t => { t with buckets := tmodify t.buckets k fun e => { e with hit := true } }) s
  | .ovf i => modTab (fun t => { t with ovf := tmodify t.ovf i fun e => (e.1, e.2.1, { e.2.2 with hit := true }) }) s

/-- The learn action record index of a port; none while its handle is null (R196, R200). -/
def learnAction (s : State) (p : Nat) : Option Nat :=
  match s.learn.ports[p]? with
  | some x => if x.act = 0 then none else some (hIdx x.act)
  | none => none

/-- Rewrite an entry's learned port and action record in one write (R204): the action record of the version that lookups
see, and the port, which is no versioned word (R176), of every version. -/
def moveEntry (p : Place) (e : DillEntry) (port : Nat) (s : State) : State :=
  match e.v.seen true with
  | some v =>
    let l := e.v.direct (some { v with port := port, act := (learnAction s port).getD v.act })
    let at' (o : Option DillVal) : Option DillVal := o.map fun w => { w with port := port }
    dillPut p { e with hit := true, v := ⟨at' l.val, l.past.map fun x => (x.1, at' x.2)⟩ } s
  | none => s

/-- Apply a station move of an entry to a port, under the damping of its domain's profile (R201 to R204). -/
def stationMove (t : Nat) (pl : Place) (e : DillEntry) (v : DillVal) (port : Nat) (s : State) : State :=
  let pr := profOf s (keyDomain e.key)
  let apply (s : State) : State :=
    let s := learnLog 2 t e.key [(learnAction s port).getD v.act, port] (learnCount 2 1 (moveEntry pl e port s))
    if pr.notify then raise 8 2 mpcUnit (learnPay t e.key [port, v.port]) s else s
  if pr.limit = 0 then apply s
  else
    match slotOf s t e.key with
    | some m =>
      if m.start + pr.window ≤ s.tm.tide then apply (slotPut { m with start := s.tm.tide, count := 1 } s)
      else if m.count + 1 ≤ pr.limit then apply (slotPut { m with count := m.count + 1 } s)
      else
        raise 8 4 mpcUnit (learnPay t e.key [v.port, port])
          (learnCount 10 1 (slotPut { m with lock := s.tm.tide + pr.hold + 1 } s))
    | none =>
      let fresh : MoveSlot := { table := t, key := e.key, start := s.tm.tide, count := 1, lock := 0 }
      if s.learn.slots.length < 16384 then apply (slotPut fresh s)
      else
        match (s.learn.slots.filter fun m => m.lock == 0).foldl (fun b m => match b with
            | some x => if m.start < x.start then some m else b
            | none => some m) (none : Option MoveSlot) with
        | some old => apply (slotPut fresh (learnCount 17 1 (slotDrop old.table old.key s)))
        | none => apply (learnCount 9 1 s)

/-! ### Frames to the host (R158, R427) -/

/-- Put a frame in the host-bound FIFO of a receive ring, or drop it (R427). -/
def hostPut (r : Nat) (bytes : List Byte) (ts : Nat) (md : Meta) (s : State) : State :=
  match s.host.rx[r]? with
  | none => s
  | some x =>
    let held := x.fifo.foldl (fun n f => n + f.bytes.length) 0
    if !x.enable || decide (1048576 < held + bytes.length) then ringCount r 3 1 s
    else { s with host := { s.host with rx := s.host.rx.set r { x with fifo := x.fifo ++ [⟨bytes, ts, md.words⟩] } } }

/-- Send a packet to the host for a reason, policed by the reason's policer (R158, R427): punts coloured red are dropped
and counted at pipeline p. -/
def punt (p reason : Nat) (k : Pkt) (s : State) : State :=
  let h := tgetD s.fwd.punt reason 0
  let (col, s) := if h = 0 then (0, s) else police (cfgIn s k.md.inEpoch) (hIdx h) 0 k.md.len s
  if col = 2 then pipeCount p 16 1 s
  else hostPut (tgetD s.host.ringMap reason 0) k.bytes k.ts { k.md with reason := reason } s

end Sys2Proof.Machine
end

