-- ==== Sys2Proof/Machine/Ingress.lean ====
section
/-! DEFINITION. The ingress half of a pipeline: the octet ingress buffer, slot grants, one pass of a packet, and the
retirement of old versions (spec/05_forwarding_pipeline.md). -/

namespace Sys2Proof.Machine

open Sys2Proof

/-! ### The octet ingress buffer (R131, R133) -/

/-- Priority and pre-class of a frame by the PCP of its outer tag (R133, R585). -/
def classify (s : State) (src port : Nat) (bs : List Byte) : Nat × Bool :=
  let p := parseOf s src
  match outerTci s port bs with
  | some tci =>
    let e := p.map / 16 ^ (tci / 8192)
    (e % 8, bit e 3)
  | none => (p.prio, p.pre)

/-- The source of a packet's parse settings and interface record: port p, or packet client c at 256 + c. -/
def sourceOf (k : Pkt) : Nat := if k.md.isClient then 256 + k.md.client else k.md.port

/-- Deal a packet of octet o to the octet's pipelines alternately, in order of arrival (R131); a fenced pipeline discards
it (R22). -/
def dealIn (o : Nat) (k : Pkt) (s : State) : State :=
  let d := s.fwd.deal.getD o false
  let p := dealTo s o d
  let k := { k with since := elapsed s, ord := s.fwd.arr.getD o 0 + 1, pipe := p }
  let s := modFwd (fun w => { w with deal := w.deal.set o (!d), arr := lmod w.arr o (· + 1) }) s
  if fenced s p then s else modPipe p (fun p => { p with waiting := p.waiting ++ [k] }) s

/-- Put a packet of port p in its octet's ingress buffer (R131, R133). -/
def octetPut (port : Nat) (k : Pkt) (s : State) : State :=
  let (prio, pre) := classify s (sourceOf k) port k.bytes
  dealIn (port / 8) { k with prio := prio, pre := pre } s

/-- The hold limit, 2^-16 ns: 300 ns, or 150 ns in TIME (R133). -/
def holdLimit (s : State) : Nat := if s.fwd.profile = 2 then 150 * nsU else 300 * nsU

/-- The oldest and least of a list of packets by a priority: the packet that ranks first. -/
def pickPkt (better : Pkt → Pkt → Bool) (l : List Pkt) : Option Pkt :=
  l.foldl (fun b k => match b with
    | some x => if better k x then some k else some x
    | none => some k) none

/-! ### One pass (R143, Table 5-5) -/

/-- Whether a frame is a PTP event message (R340): Ethernet, or UDP to port 319 or 320 over IPv4 or IPv6, after at most
two VLAN tags. -/
def ptpEvent (s : State) (port : Nat) (bs : List Byte) : Bool :=
  let vlan (i : Nat) : Nat := if half bs i = 0x8100 ∨ half bs i = stagTpid s port then i + 4 else i
  let i := vlan (vlan 12)
  let o := i + 2
  let udp (u : Nat) : Bool := (half bs (u + 2) == 319 || half bs (u + 2) == 320) && decide (byteAt bs (u + 8) % 16 ≤ 3)
  if half bs i = 0x88F7 then decide (byteAt bs o % 16 ≤ 3)
  else if half bs i = 0x0800 then byteAt bs o == 0x45 && byteAt bs (o + 9) == 17 && udp (o + 20)
  else if half bs i = 0x86DD then byteAt bs (o + 6) == 17 && udp (o + 40)
  else false

/-- What the lookups of a pass returned: the records that hit, Sage first, then Dill 1, Dill 2 and Sorrel. -/
structure Hits where
  sage : Option Nat := none
  dill1 : Option Nat := none
  dill2 : Option Nat := none
  sorrel : Option Nat := none
  /-- The Sage hit was in the reserved group of TIME [R277] -/
  reserved : Bool := false
  /-- The source lookup of a learning program: what it hit [R195] -/
  src : Option (Place × DillEntry × DillVal) := none
  /-- Bucket reads from HBM [R134] -/
  reads : Nat := 0

/-- A packet on its pass: with what parser and interface record made of it. -/
structure Pass where
  pipe : Nat
  /-- The frame as this pass sees it: without the headers that an earlier one ended [R144] -/
  bytes : List Byte
  cfg : FwdCfg
  cur : Bool
  parsed : Parsed
  rec_ : IfRec
  prog : Prog
  /-- Lookups whose bucket read returns uncorrectable data -/
  bad : List Nat

/-- The IP header that a packet is forwarded by: the L3 anchor's layer (Table 5-2), else the first IP header. -/
def l3Of (s : State) (x : Pass) (k : Pkt) : Nat × Nat :=
  match tget x.parsed.anchors 2 with
  | some o => (o, byteAt x.bytes o / 16)
  | none => ipHeader (stagTpid s k.md.port) x.bytes

/-- Run one Dill lookup of a pass, setting the hit bit where the domain's profile refreshes on destination hits
(R194, R206). -/
def passDill (x : Pass) (n t kp : Nat) (md : List Word) (h : Nat × State) : Option (Place × DillEntry × DillVal) × Nat × State :=
  let (reads, s) := h
  let bs := keyOf x.cfg kp x.parsed.vec md
  let key := if isLearnTable s t then learnKey x.rec_.dom bs else keyPad bs 20
  let (r, rd, s) := dillLookup t key x.cur (x.bad.contains n) s
  match r with
  | some (p, e, v) => (some (p, e, v), reads + b2n rd, if (profOf s x.rec_.dom).refresh then setHit p s else s)
  | none => (none, reads + b2n rd, s)

/-- The Sorrel read of a pass: its program's key, the route found and the counters. -/
def sorrelRead (x : Pass) (md : List Word) (s : State) : Option Nat × State :=
  match x.prog.sorrel with
  | some kp =>
    let bs := keyOf x.cfg kp x.parsed.vec md
    let r := sorrelFind s x.cur x.rec_.vrf (bs.length == 16) (beNat bs)
    let s := tabCount 0 1 s
    (r.map Prod.snd, if r.isNone then tabCount 1 1 s else s)
  | none => (none, s)

/-- The first Dill read of a pass. -/
def dillFirst (x : Pass) (md : List Word) (s : State) : Option (Place × DillEntry × DillVal) × Nat × State :=
  match x.prog.dill1 with
  | some (t, kp) => passDill x 1 t kp md (0, s)
  | none => (none, 0, s)

/-- The second Dill read of a pass, none where the pass learns. -/
def dillSecond (x : Pass) (md : List Word) (hit : Bool) (h : Nat × State) : Option (Place × DillEntry × DillVal) × Nat × State :=
  match x.prog.learn, x.prog.dill2 with
  | some _, _ => (none, h)
  | none, some (t, kp) => if x.prog.onMiss && hit then (none, h) else passDill x 2 t kp md h
  | none, none => (none, h)

/-- The source read of a pass that learns. -/
def sourceRead (x : Pass) (md : List Word) (h : Nat × State) : Option (Place × DillEntry × DillVal) × Nat × State :=
  match x.prog.learn with
  | some kp =>
    let t := (profOf h.2 x.rec_.dom).table
    let (r, b, s) := dillLookup t (learnKey x.rec_.dom (keyOf x.cfg kp x.parsed.vec md)) x.cur (x.bad.contains 2) h.2
    (r, h.1 + b2n b, s)
  | none => (none, h)

/-- The Sage read of a pass, and whether it is of the group that profile 2 reserves. -/
def sageRead (x : Pass) (k : Pkt) (s : State) : Option Nat × Bool × State :=
  match x.prog.sage with
  | some (kp, g) =>
    let reserved := s.fwd.profile == 2 && g == 15
    if reserved && !k.pre then (none, false, s)
    else
      match tget s.tab.groups g with
      | some gr =>
        let n := 20 * 2 ^ gr.width
        let key := leNat (beBytes (keyPad (keyOf x.cfg kp x.parsed.vec k.md.words) n) n)
        let r := sageFind s g key x.cur
        let s := bankEvent x.pipe 4 16 1 (tabCount 8 1 (if reserved then tabCount 10 1 s else s))
        let s := (groupFenced s gr).foldl (fun s _ => fencedReq x.pipe 4 s) s
        (r.map Prod.snd, reserved, if r.isSome then tabCount 9 1 s else s)
      | none => (none, false, s)
  | none => (none, false, s)

/-- Stages 3 to 5: the lookups of the program (R141, R186, R195). -/
def lookups (x : Pass) (k : Pkt) (s : State) : Hits × State :=
  let (sor, s) := sorrelRead x k.md.words s
  let (d1, rd, s) := dillFirst x k.md.words s
  let (d2, rd, s) := dillSecond x k.md.words d1.isSome (rd, s)
  let (src, rd, s) := sourceRead x k.md.words (rd, s)
  let (sg, res, s) := sageRead x k s
  let s := bankEvent x.pipe 3 16 rd s
  ({ sage := sg, dill1 := d1.map fun r => r.2.2.act, dill2 := d2.map fun r => r.2.2.act, sorrel := sor, reserved := res
     src := src, reads := rd }, s)

/-- An action record word by index; an absent record reads as 0. -/
def actWord (c : FwdCfg) (a i : Nat) : Nat := wd (tgetD c.actions a ⟨[]⟩).w i

/-- Where a packet's forwarding action comes from (R143). -/
inductive From where
  | sage | dill | sorrel | miss
  deriving DecidableEq, Repr

/-- The forwarding action: word 0, target and source (R143). -/
def forwarding (x : Pass) (h : Hits) : Nat × Nat × From :=
  match h.sage.filter (fun a => bit (actWord x.cfg a 0) 4), h.dill1, h.dill2, h.sorrel with
  | some a, _, _, _ => (actWord x.cfg a 0, actWord x.cfg a 1, .sage)
  | none, some a, _, _ => (actWord x.cfg a 0, actWord x.cfg a 1, .dill)
  | none, none, some a, _ => (actWord x.cfg a 0, actWord x.cfg a 1, .dill)
  | none, none, none, some a => (actWord x.cfg a 0, actWord x.cfg a 1, .sorrel)
  | none, none, none, none => match x.prog.missRec with
    | some a => (actWord x.cfg a 0, actWord x.cfg a 1, .miss)
    | none => (x.prog.miss, 0, .miss)

/-- Records that hit, and that of the miss action where it supplies the forwarding action, in order of their modifiers'
precedence (R143). -/
def Hits.recs (x : Pass) (h : Hits) : List Nat :=
  [h.sage, h.dill1, h.dill2, h.sorrel, if (forwarding x h).2.2 = .miss then x.prog.missRec else none].filterMap id

/-- The stream that a hit identifies: Dill, or the reserved Sage group (R277). -/
def identified (x : Pass) (h : Hits) : Option Nat :=
  let of (a : Option Nat) : Option Nat := match a with
    | some a => if hType (actWord x.cfg a 1) = 0xB0 then some (hIdx (actWord x.cfg a 1)) else none
    | none => none
  match of h.dill1, of h.dill2, if h.reserved then of h.sage else none with
  | _, _, some i => some i
  | some i, _, none => some i
  | none, r, none => r

/-- The next-hop of a forward's target, and the state (R144, R146, R147): none where the packet is dropped, with the
counter of the drop. -/
def resolve (s : State) (cur : Bool) (c : FwdCfg) (h16 target : Nat) (miss : Bool) : Except Nat Nat :=
  let none_ := if miss then 9 else 10
  let hop (t : Nat) : Except Nat Nat :=
    match hType t with
    | 0x60 => if thas c.nhs (hIdx t) then .ok (hIdx t) else .error none_
    | 0x61 => match tget c.ecmps (hIdx t) with
      | some ms => match ecmpChoose s cur c (hIdx t) ms h16 with
        | some i => .ok i
        | none => .error 14
      | none => .error none_
    | _ => .error none_
  if hType target = 0x42 then
    match tget s.tr.groups (hIdx target) with
    | some g => hop (if g.side then g.protect else g.worker)
    | none => .error none_
  else hop target

/-- The fate of a packet after stage 6. -/
inductive Fate where
  /-- Dropped, counted at a pipeline counter where one is named. -/
  | drop (ctr : Option Nat)
  /-- To the host for a reason, with a pipeline counter where one is named. -/
  | host (reason : Nat) (ctr : Option Nat)
  /-- A further pass: in the context that a termination hands the packet to, with the words of its record, or as it is. -/
  | again (ended : Option (Nat × Nat))
  /-- To a circuit. -/
  | circuit (i : Nat)
  /-- To a next-hop. -/
  | hop (i : Nat)
  /-- To a next-hop, once the outer headers end here, with the words of the record. -/
  | endHop (i : Nat) (ended : Nat × Nat)
  /-- To the members of a stream. -/
  | stream (i : Nat)
  deriving DecidableEq, Repr

/-- Stage 6 without streams and learning: the fate that the forwarding action gives (R143 to R147, Table 5-8). A terminate
whose target is a next-hop or a set of them ends the outer headers and forwards in one pass: MPLS swap and End.X, End.DX2
(DEDUCED, notes/assumptions/42). A next-hop on the Ethernet segment that an ESI label names is not sent to. -/
def fateOf (s : State) (x : Pass) (k : Pkt) (h16 : Nat) (h : Hits) : Fate :=
  let (w0, target, src) := forwarding x h
  let miss := src == .miss
  let blocked (i : Nat) : Bool := match k.esi with
    | some l => Config.esiSplit l i
    | none => false
  match w0 % 16 with
  | 0 =>
    let byIp := src == .sorrel || (x.prog.sorrel.isSome && (src == .dill || miss))
    let (o, fam) := l3Of s x k
    let ttl := if fam = 4 then byteAt x.bytes (o + 8) else if fam = 6 then byteAt x.bytes (o + 7) else 255
    match resolve s x.cur x.cfg h16 target miss with
    | .error c => .drop (some c)
    | .ok i =>
      if byIp && decide (ttl ≤ 1) then .host 2 (some 11)
      else if byIp && fam == 4 && decide (5 < byteAt x.bytes o % 16) && Config.optionsPunt x.rec_.cls then .host 8 none
      else if blocked i then .drop none
      else .hop i
  | 1 => .drop (some (if miss then 9 else 10))
  | 2 => .host (if miss then 3 else 4) none
  | 3 =>
    if hType target = 0x50 then .circuit (hIdx target)
    else if hType target = 0x60 ∨ hType target = 0x61 ∨ hType target = 0x42 then
      match resolve s x.cur x.cfg h16 target miss with
      | .error c => .drop (some c)
      | .ok i => .endHop i (w0, target)
    else .again (some (w0, target))
  | 4 => .again none
  | _ => .drop (some 10)

/-- What the learn decision makes of a packet's fate (R196): nothing, a drop, a punt with reason 0x11, or a copy with
reason 0x10. -/
inductive Learned where
  | none | drop | punt | copy
  deriving DecidableEq, Repr

/-- Put a request on the learn queue: those of one clock stand in ascending order of pipeline (R197). -/
def enqueueLearn (r : LearnReq) (l : List LearnReq) : List LearnReq :=
  let later (x : LearnReq) : Bool := x.clk == r.clk && decide (r.pipe < x.pipe)
  let n := (l.reverse.takeWhile later).length
  l.take (l.length - n) ++ r :: l.drop (l.length - n)

/-- The learn decision (R196, R205). -/
def learnDecide (x : Pass) (k : Pkt) (h : Hits) (s : State) : Learned × State :=
  let pr := profOf s x.rec_.dom
  let src := k.md.port
  match x.prog.learn with
  | none => (.none, s)
  | some kp =>
    if !mayDrive s || k.md.injected || k.md.isClient || (learnAction s src).isNone || decide (pr.mode = 0) then (.none, s)
    else
      let key := learnKey x.rec_.dom (keyOf x.cfg kp x.parsed.vec k.md.words)
      let request (s : State) : Learned × State :=
        let lim := s.learn.ports.getD src {}
        if lim.limit ≤ learnedOf s src + pendingOf s src then
          let s := learnCount 4 1 s
          if lim.drop then (.drop, learnCount 5 1 s) else (.none, s)
        else if 65536 ≤ s.learn.queue.length then (.none, learnCount 6 1 s)
        else (.none, learnCount 0 1 (modLearn (fun l => { l with
          queue := enqueueLearn ⟨pr.table, key, src, coreClocks (elapsed s), x.pipe⟩ l.queue }) s))
      match h.src with
      | some (p, _, v) =>
        if v.static then (.none, s)
        else if v.port = src then (.none, setHit p s)
        else if lockedEntry s pr.table key then
          let s := learnCount 10 1 s
          if pr.flap = 1 then (.drop, learnCount 11 1 s) else if pr.flap = 2 then (.punt, s) else (.none, s)
        else if pr.mode = 2 then (.copy, s)
        else request s
      | none => if pr.mode = 2 then (.copy, s) else request s

/-- Put a packet on the recirculation queue for a further pass, or drop it at the fifth (R135). -/
def recirculate (p : Nat) (k : Pkt) (s : State) : State :=
  if 3 ≤ k.md.pass then pipeCount p 13 1 s
  else modPipe p (fun x => { x with
    recirc := x.recirc ++ [{ k with md := { k.md with pass := k.md.pass + 1 }, since := elapsed s }] }) s

/-- The headers before byte o of the frame of a pass are to be removed; `inner` is the EtherType of what follows, 0 for a
frame (R144, R153). -/
def endAt (o inner : Nat) (k : Pkt) : Pkt := { k with strip := viewAt k o, inner := inner }

/-- The Segment Routing Header of a frame whose IPv6 header stands at byte o (RFC 8754): where, and the segments left. -/
def srhOf (bs : List Byte) (o : Nat) : Option (Nat × Nat) :=
  if byteAt bs (o + 6) = 43 ∧ byteAt bs (o + 42) = 4 then some (o + 40, byteAt bs (o + 43)) else none

/-- End and End.X (RFC 8986): one segment less left, and the next segment becomes the destination address. -/
def nextSegment (x : Pass) (o srh left : Nat) (k : Pkt) : Pkt :=
  let sid := (x.bytes.drop (srh + 8 + 16 * (left - 1))).take 16
  { k with bytes := putBytes (putBytes k.bytes (viewAt k (srh + 3)) (beBytes (left - 1) 1)) (viewAt k (o + 24)) sid }

/-- Pop the labels of a terminate, at most 3 (Table 5-8). Below the bottom stands what the parser anchored, or IP by its
version, or else a frame, and then the last of several labels is the ESI label (DEDUCED, notes/assumptions/42). -/
def popLabels (x : Pass) (o n : Nat) (labels : List Nat) (k : Pkt) : Pkt :=
  let e := o + 4 * n
  let ip (p : Nat) : Nat := if byteAt x.bytes p / 16 = 6 then 0x86DD else 0x0800
  let frame (p : Nat) : Pkt := { endAt p 0 k with esi := if 2 ≤ n then labels[n - 1]? else k.esi }
  if n < labels.length then endAt e 0x8847 k
  else match tget x.parsed.anchors 4, tget x.parsed.anchors 5 with
    | some p, _ => frame p
    | none, some p => endAt p (ip p) k
    | none, none => if byteAt x.bytes e / 16 = 4 ∨ byteAt x.bytes e / 16 = 6 then endAt e (ip e) k else frame e

/-- The outer headers of a packet end here (R144, Table 5-8): labels are popped, an SRv6 segment list goes on or ends, and
any other packet continues with its inner L2 or L3 layer. -/
def ended (s : State) (x : Pass) (rec_ : Nat × Nat) (k : Pkt) : Pkt :=
  let (et, o) := payloadOf (stagTpid s k.md.port) x.bytes
  if et = 0x8847 ∨ et = 0x8848 then
    let labels := mplsLabels x.bytes x.bytes.length o
    popLabels x o (min labels.length (1 + Config.popCount rec_.1 rec_.2 % 3)) labels k
  else
    let ip := l3Of s x k
    match if ip.2 = 6 then srhOf x.bytes ip.1 else none with
    | some (srh, left) => if left = 0 then inner else nextSegment x ip.1 srh left k
    | none => inner
where
  /-- The packet from its inner L2 or L3 layer on, where the parser met one. -/
  inner : Pkt :=
    match tget x.parsed.anchors 4, tget x.parsed.anchors 5 with
    | some p, _ => endAt p 0 k
    | none, some p => endAt p (if byteAt x.bytes p / 16 = 6 then 0x86DD else 0x0800) k
    | none, none => k

/-- The VRF and forwarding domain of the context that a termination hands a packet to (R144). -/
def contextOf (x : Pass) (rec_ : Nat × Nat) : Nat × Nat :=
  (Config.contextVrf rec_.1 rec_.2 x.rec_.vrf % 2 ^ 16, Config.contextDom rec_.1 rec_.2 x.rec_.dom % 2 ^ 20)

/-- Send a packet to a next-hop: its system port, queue, edit index and C-tag directive (R248, Table 5-12). -/
def toHop (c : FwdCfg) (i : Nat) (k : Pkt) : Pkt :=
  match tget c.nhs i with
  | some nh => { k with
      owner := if k.rep then 4 else if k.md.injected then 3 else 0
      md := { k.md with
        dsp := nh.dsp, queue := (nh.qbase + k.md.cls) % 2 ^ 20, edit := i, cTag := nh.dir
        cTci := k.md.cls * 2 ^ 12 + nh.vid } }
  | none => k

/-- The FD end hands a packet to the bridge: isolated it discards and counts it, fenced it discards it; else the packet
waits at TD ingress (R22, R28, R245). -/
def bridgeIn (k : Pkt) (s : State) : State :=
  if s.flt.isolated then { s with flt := { s.flt with isoFd := s.flt.isoFd + 1 } }
  else if fenced s 39 then s
  else { s with td := { s.td with ingress := s.td.ingress ++ [{ k with since := elapsed s }] } }

/-- Whether no packet of a packet's source that arrived before it is still in front of the bridge: arrival order per port
and packet client (R131). -/
def inOrder (s : State) (k : Pkt) : Bool :=
  k.ord == 0 || ((s.fwd.pipes.flatMap fun p => p.waiting ++ p.recirc) ++ s.fwd.reorder).all fun x =>
    x.ord == 0 || sourceOf x != sourceOf k || decide (k.ord ≤ x.ord)

/-- Release the packets of the reorder stage that stand in order, at most as many as the fuel. -/
def reorderDrain : Nat → State → State
  | 0, s => s
  | f + 1, s =>
    let i := s.fwd.reorder.findIdx (inOrder s)
    match s.fwd.reorder[i]? with
    | none => s
    | some k => reorderDrain f (bridgeIn k (modFwd (fun w => { w with reorder := w.reorder.eraseIdx i }) s))

/-- The reorder stage releases what stands in order; the FD end accepts it while domain 39 is ON, and is woken by what
waits (R14, R131). -/
def reorderRelease (s : State) : State :=
  if s.fwd.reorder.isEmpty then s
  else if (domOf s 39).st = 0 then reorderDrain s.fwd.reorder.length s
  else wakeDom 39 s

/-- Hand a packet to the reorder stage in front of the FD bridge end (R131). -/
def toTd (k : Pkt) (s : State) : State :=
  reorderRelease (modFwd (fun w => { w with reorder := w.reorder ++ [k] }) s)

/-- The class modifier of the records, highest precedence first (R143). -/
def classMod (c : FwdCfg) (rs : List Nat) : Option Nat :=
  (rs.find? fun a => bit (actWord c a 0) 8).map fun a => bits (actWord c a 0) 7 5

/-- The policer modifier (R143). -/
def policerMod (c : FwdCfg) (rs : List Nat) : Option Nat :=
  (rs.find? fun a => bit (actWord c a 2) 20).map fun a => bits (actWord c a 2) 19 0

/-- The counters that a packet updates: the program's, and those of up to three records (R152). -/
def countersOf (x : Pass) (rs : List Nat) (colour : Nat) : List Nat :=
  x.prog.ctr.toList ++ ((rs.filter fun a => bit (actWord x.cfg a 3) 26).take 3).map fun a =>
    bits (actWord x.cfg a 3) 25 0 + if bit (actWord x.cfg a 3) 27 then colour else 0

/-- Stage 7 (R151): the policed packet, whether it is dropped, and the state. -/
def policeStage (x : Pass) (pol : Option Nat) (k : Pkt) (s : State) : Pkt × Bool × State :=
  match pol with
  | none => (k, false, s)
  | some i =>
    let c := tgetD x.cfg.pols i {}
    if c.det && !k.md.det then (k, false, s)
    else
      let (col, s) := police x.cfg i k.md.colour k.md.len s
      let s := if col = 2 then bankEvent x.pipe 6 16 1 s else s
      let act := if col = 0 then c.green else if col = 1 then c.yellow else c.red
      let k := { k with md := { k.md with colour := col } }
      if act = 2 then (k, true, if col = 2 then pipeCount x.pipe 12 1 s else s)
      else if act = 1 then
        let m := c.remap / 8 ^ k.md.cls % 8
        ({ k with remark := some m, md := { k.md with cls := m } }, false, s)
      else (k, false, s)

/-- Count a stream's counter (R305). -/
def streamCount (i k n : Nat) (s : State) : State := ctrAdd64 4 i k n s

/-- Count a deterministic device counter (R306). -/
def detCount (k n : Nat) (s : State) : State := ctrAdd48 0x0B 8 mpcUnit (pay [(k, 1)]) 0x4B 0 k n s

/-- The pipeline of the octet of a packet's source. -/
def fatePkt (x : Pass) (fate : Fate) (k : Pkt) (s : State) : State :=
  let count (c : Option Nat) (s : State) : State := match c with
    | some i => pipeCount x.pipe i 1 s
    | none => s
  match fate with
  | .drop c => count c s
  | .host r c => punt x.pipe r k (count c s)
  | .again none => recirculate x.pipe k s
  | .again (some r) => recirculate x.pipe { ended s x r k with ctx := some (contextOf x r) } s
  | .circuit i => modFwd (fun w => { w with toCkt := w.toCkt ++ [(i, pwBody (stagTpid s k.md.port) x.bytes)] }) s
  | .hop i => toTd (toHop x.cfg i k) s
  | .endHop i r => toTd (toHop x.cfg i (ended s x r k)) s
  | .stream i => toTd { k with md := { k.md with sValid := true, stream := i } } s

/-- Whether the forwarding action comes from a learn table, or from the miss action of a program whose Dill lookup 1 is a
learn table (R401). -/
def learnedForwarding (s : State) (x : Pass) (h : Hits) : Bool :=
  let of (d : Option (Nat × Nat)) : Bool := match d with
    | some (t, _) => isLearnTable s t
    | none => false
  match (forwarding x h).2.2 with
  | .dill => if h.dill1.isSome then of x.prog.dill1 else of x.prog.dill2
  | .miss => of x.prog.dill1
  | _ => false

/-- The decision record of a packet with its fate (Table 14-8, R398, R401). -/
def decisionOf (s : State) (x : Pass) (h : Hits) (fate : Fate) (dropped : Bool) (k : Pkt) : List Word :=
  let k' := match fate with
    | .hop i => toHop x.cfg i k
    | .endHop i _ => toHop x.cfg i k
    | .stream i => { k with md := { k.md with sValid := true, stream := i } }
    | _ => k
  let reason := match fate with
    | .host r _ => r
    | _ => 0
  let drop := match fate with
    | .drop (some c) => c + 1
    | .again _ => if 3 ≤ k.md.pass then 14 else 0
    | _ => if dropped && k.md.det then 13 else 0
  decisionWords k' ((forwarding x h).1 % 16) reason drop (learnedForwarding s x h)

/-- The fate of a packet: its stream's where the pass identifies one, else that of its records. -/
def fateStage (x : Pass) (k : Pkt) (h : Hits) (hash : Nat) (s : State) : Fate × Pkt × State :=
  match (identified x h).filter fun i => match tget (streamsIn s x.cur) i with | some y => y.live | none => false with
  | some i =>
    let st := tget (streamsIn s x.cur) i
    let k := { k with md := { k.md with
      cls := match st with | some v => v.cfg.cls | none => k.md.cls
      det := true, sValid := true, stream := i } }
    let s := streamCount i 1 k.md.len (streamCount i 0 1 s)
    if k.pre then (.stream i, k, s) else (.drop none, k, detCount 0 1 s)
  | none => (fateOf s x k hash h, k, s)

/-- The copies of a packet to the host and to the mirror, and its own fate. -/
def copiesStage (x : Pass) (rs : List Nat) (copy : Bool) (fate : Fate) (k : Pkt) (s : State) : State :=
  let s := if copy then punt x.pipe 0x10 k s else s
  let s := if rs.any fun a => bit (actWord x.cfg a 0) 9 then punt x.pipe 9 k s else s
  if rs.any fun a => bit (actWord x.cfg a 0) 10 then
    let m : Meta := { k.md with mirror := true, dsp := freeVal s % 65536, queue := freeVal s.took % 2 ^ 20 }
    let s := s.took.took
    match fate with
    | .hop _ => fatePkt x fate { k with also := [m] } s
    | .endHop _ _ => fatePkt x fate { k with also := [m] } s
    | .stream _ => fatePkt x fate { k with also := [m] } s
    | _ => fatePkt x fate k (toTd { k with md := m } s)
  else fatePkt x fate k s

/-- Stages 6 to 8 of a packet whose lookups are done. -/
def stages (x : Pass) (k : Pkt) (h : Hits) (s : State) : State :=
  let rs := h.recs x
  let cls := (classMod x.cfg rs).getD k.md.cls
  let hash := flowHash s k.md.port x.bytes / 65536
  let k := { k with md := { k.md with cls := cls, hash := hash } }
  let (le, s) := learnDecide x k h s
  let (fate, k, s) := fateStage x k h hash s
  let s := bankEvent x.pipe 5 16 1 s
  let again := match fate with
    | .again _ => true
    | _ => false
  let s := if again then bankEvent x.pipe 5 17 1 s else s
  let ends := !again || decide (3 ≤ k.md.pass)
  let decided := fate
  let (k, s) := if ends && !k.md.det then noteDecision k (decisionOf s x h decided false k) s else (k, s)
  if k.rep && !k.pre then s else
  let fate := match le with
    | .drop => .drop none
    | .punt => .host 0x11 none
    | _ => fate
  let (k, dropped, s) := policeStage x (policerMod x.cfg rs) k s
  let (k, s) := if ends && k.md.det then noteDecision k (decisionOf s x h decided dropped k) s else (k, s)
  let s := (countersOf x rs k.md.colour).foldl (fun s c => statAdd c k.md.len s) s
  if dropped then s else copiesStage x rs (le = .copy) fate k s

/-- The interface record's index (R140). -/
def ifIndex (s : State) (k : Pkt) : Nat :=
  if k.md.isClient then 262144 + k.md.client
  else k.md.port * 4096 + match outerTci s k.md.port k.bytes with | some t => t % 4096 | none => 0

/-- One pass of a granted packet through the ingress half of pipeline p (Table 5-5): stages 1 and 2, then the rest. -/
def ingressPass (p : Nat) (bad : List Nat) (k : Pkt) (s : State) : State × Nat :=
  let k := if k.md.pass = 0 ∨ (k.md.injected ∧ k.md.pass = 1) then { k with md := { k.md with inEpoch := s.fwd.epoch } } else k
  let c := cfgIn s k.md.inEpoch
  if k.md.fromCkt then (toTd (toHop c k.md.edit k) s, 0) else
  let eth := !k.md.isClient && k.md.pass == 0 && !k.md.injected
  let early (reason drop : Nat) (s : State) : State := (noteDecision k (decisionWords k 0 reason drop false) s).2
  if k.md.trunc && k.md.pass == 0 then
    match tget s.line.ports k.md.port with
    | some y => (if y.cfg.punt256 then punt p 1 { k with bytes := k.bytes.take 256 } (early 1 0 s) else early 0 0 s, 0)
    | none => (s, 0)
  else if eth && half k.bytes 12 == 0x888E && thas s.line.ports k.md.port then (punt p 6 k (early 6 0 s), 0)
  else if eth && (s.tm.ports.getD k.md.port {}).ptpMode == 2 && ptpEvent s k.md.port k.bytes then (punt p 7 k (early 7 0 s), 0)
  else
    let ps := parseOf s (sourceOf k)
    let v := viewOf k
    let parsed := parse c ps.start v
    let k := { k with md := { k.md with exc := parsed.exc } }
    let s := if parsed.exc then pipeCount p 6 1 s else s
    if parsed.exc && ps.exc == 1 then (pipeCount p 7 1 (early 0 8 s), 0)
    else if parsed.exc && ps.exc == 2 then (punt p 5 k (early 5 0 s), 0)
    else
      let r := tgetD c.ifs (ifIndex s k) {}
      if !r.valid then (pipeCount p 8 1 (early 0 9 s), 0)
      else
        let last := match parsed.layers.getLast? with | some l => l.1 | none => 0
        let r := match k.ctx with
          | some (vrf, dom) => { r with vrf := vrf, dom := dom }
          | none => r
        let x : Pass := { pipe := p, bytes := v, cfg := c, cur := k.md.inEpoch == s.fwd.epoch, parsed := parsed, rec_ := r
                          prog := tgetD c.progs (r.cls * 256 + last) {}, bad := bad }
        let (h, s) := lookups x k s
        (stages x k h s, h.reads)

/-! ### Slots (R132, R134, R189) -/

/-- Credit that a slot clock adds, 1/20 read (Table 5-1). -/
def accrual (profile : Nat) : Int := if profile = 1 then 22 else if profile = 2 then 19 else 16

/-- Whether clock count c modulo 16 is a slot clock (Table 5-1). -/
def slotClock (profile c : Nat) : Bool :=
  if profile = 1 then decide (c % 4 ≠ 3) else if profile = 2 then decide (c % 8 ≠ 7) else true

/-- Whether clock count c modulo 16 is a reserved slot clock (Table 5-1). -/
def reservedClock (profile c : Nat) : Bool := decide (c % 16 = 0) || (decide (profile = 2) && decide (c % 16 = 8))

/-- What every slot clock does to a pipeline: credit, tokens and the recirculation turn (R134, R189). -/
def slotTick (s : State) (x : Pipe) : Pipe :=
  { x with credit := min (x.credit + accrual s.fwd.slots) 5120, tok := min 16 (x.tok + (4 - throttle s))
           turn := (x.turn + 1) % s.fwd.w }

/-- A grant of a slot. -/
inductive Grant where
  /-- The head of pipeline p's pre-classed queue, on a reserved slot clock or not. -/
  | pre (p : Nat) (reserved : Bool)
  | recirc
  | line (k : Pkt)
  | none

/-- Whether an SLM quarter is fenced: no lookup of any pipeline completes (R161, Table 19-4). -/
def slmOut (s : State) : Bool := (List.range' 20 4).any (fenced s)

/-- What a slot clock of pipeline p grants (R134): nothing while no lookup can complete. -/
def grantOf (s : State) (p c : Nat) : Grant :=
  if slmOut s then .none else
  let x := s.fwd.pipes.getD p {}
  let has (i : Nat) : Bool := (s.fwd.pipes.getD i {}).waiting.any fun k => k.pre
  let sib := if p % 2 = 0 then p + 1 else p - 1
  let best := pickPkt (fun a b => decide (b.prio < a.prio)) (x.waiting.filter fun k => !k.pre)
  let line := best.isSome
  if reservedClock s.fwd.slots c && has p then .pre p true
  else if reservedClock s.fwd.slots c && has sib then .pre sib true
  else if has p then .pre p false
  else if !x.recirc.isEmpty && (decide (x.turn = 0) || !line) then .recirc
  else
    match best with
    | some k => if 200 ≤ x.credit then .line k else .none
    | none => .none

/-- Charge the Dill reads of a pass (R134). -/
def charge (p reads : Nat) (s : State) : State :=
  modPipe p (fun x => { x with credit := max (-640) (x.credit - 20 * reads) }) s

/-- Packets and frames that have a place after the ingress half: in TD ingress, a recirculation queue, on the way to a
circuit, or in the host-bound FIFOs with those that a ring dropped. -/
def placed (s : State) : Nat :=
  s.td.ingress.length + s.fwd.reorder.length + s.flt.isoFd + s.fwd.toCkt.length + s.fwd.pipes.foldl (fun n x => n + x.recirc.length) 0
    + (s.host.rx.zipIdx).foldl (fun n (x, r) => n + x.fifo.length + ctrGet s 0x55 (r + 1) 3) 0

/-- Drops of pipeline p that a pass counts in Table 5-13, the punt policer's left out. -/
def passDrops (s : State) (p : Nat) : Nat := [7, 8, 9, 10, 12, 13, 14].foldl (fun n k => n + ctrGet s 0x46 (p + 1) k) 0

/-- Pass a packet through pipeline p and charge its reads; the slot is placed in the ledger, and samples are taken
(R542, R545). -/
def runPass (p : Nat) (bad : List Nat) (k : Pkt) (s : State) : State :=
  let (s', reads) := ingressPass p bad k s
  let dropped := passDrops s p != passDrops s' p || placed s' == placed s
  samplePackets p 0 k.md.words (ledger p (b2n dropped) 1 (charge p reads (reorderRelease s')))

/-- Whether a packet waits that a slot of pipeline p could take: one of its own, a pre-classed one of its sibling, or one
to be recirculated (R542). -/
def offered (s : State) (p : Nat) : Bool :=
  let x := s.fwd.pipes.getD p {}
  let sib := s.fwd.pipes.getD (if p % 2 = 0 then p + 1 else p - 1) {}
  !x.waiting.isEmpty || !x.recirc.isEmpty || sib.waiting.any fun k => k.pre

/-- An idle slot clock of pipeline p and its place in the ledger (R542). -/
def idleSlot (p : Nat) (s : State) : State :=
  let k := if !offered s p then 2 else if (s.fwd.pipes.getD p {}).credit < 200 then 3 else 4
  ledger p k 1 (pipeCount p 1 1 s)

/-- INGRESS_PIPELINE_PASS: a slot clock of pipeline pipe with clock count c modulo 16, after `idle` slot clocks that
granted nothing; `bad` names the Dill lookups of the granted packet whose bucket read returns uncorrectable data
(R134, R143, R189). -/
def execIngressPipelinePass (t pipe c idle : Nat) (bad : List Nat) (s : State) : Host.Outcome State Fault Refusal :=
  let s := s.atTime t
  let p := pipe % 16
  if !slotClock s.fwd.slots c || fenced s p then .next s
  else
    let tick (s : State) : State := modPipe p (slotTick s) s
    let s := (List.range idle).foldl (fun s _ => idleSlot p (tick s)) s
    let s := tick s
    let tok (s : State) : Bool := decide (4 ≤ (s.fwd.pipes.getD p {}).tok)
    let spend (s : State) : State := modPipe p (fun x => { x with tok := x.tok - 4 }) s
    match grantOf s p c with
    | .pre i res =>
      match (s.fwd.pipes.getD i {}).waiting.find? fun k => k.pre with
      | some k =>
        let s := modPipe i (fun x => { x with waiting := x.waiting.erase k }) (pipeCount p 0 1 s)
        .next (runPass p bad k (if res then pipeCount p 2 1 s else s))
      | none => .next s
    | .recirc =>
      if tok s then
        match (s.fwd.pipes.getD p {}).recirc with
        | k :: r => .next (runPass p bad k (pipeCount p 3 1 (pipeCount p 0 1 (modPipe p (fun x => { x with recirc := r }) (spend s)))))
        | [] => .next s
      else .next (idleSlot p (tabCount 12 1 s))
    | .line k =>
      if tok s then
        .next (runPass p bad k (pipeCount p 0 1 (modPipe p (fun x => { x with waiting := x.waiting.erase k }) (spend s))))
      else .next (idleSlot p (tabCount 12 1 s))
    | .none => .next (idleSlot p s)

/-- HOLD_LIMIT_DROP: a frame of an octet reaches the hold limit; the lowest-priority, oldest frame is dropped instead if
it is of lower priority; pre-classed frames are not dropped (R133). -/
def execHoldLimitDrop (t octet : Nat) (s : State) : Host.Outcome State Fault Refusal :=
  let s := s.atTime t
  let a := 2 * (octet % 8)
  let all (p : Nat) : List Pkt := ((s.fwd.pipes.getD p {}).waiting).filter fun k => !k.pre
  let both := all a ++ all (a + 1)
  match both.find? fun k => decide (k.since + holdLimit s ≤ elapsed s),
      pickPkt (fun k x => decide (k.prio < x.prio) || (k.prio == x.prio && decide (k.since < x.since))) both with
  | some held, some low =>
    let v := if low.prio < held.prio then low else held
    let p := if (all a).contains v then a else a + 1
    let s := (List.range 8).foldl (fun s i => skipPort (8 * (octet % 8) + i) s.tm.tide s) s
    let s := modPipe p (fun x => { x with waiting := x.waiting.erase v }) s
    .next (reorderRelease (pipeCount p (if throttle s = 0 then 4 else 5) 1 s))
  | _, _ => .next s

/-! ### Retirement (R156) -/

/-- Old-epoch packets of the ingress segment that pipeline p passed: in its recirculation queue, in the reorder stage and
at TD ingress. -/
def staleIn (s : State) (p : Nat) : Nat :=
  (((s.fwd.pipes.getD p {}).recirc ++ (s.fwd.reorder ++ s.td.ingress).filter fun k => k.pipe == p).filter fun k =>
    k.md.inEpoch != s.fwd.epoch).length

/-- Old-epoch packets of the egress segment that were dealt to pipeline p. -/
def staleEg (s : State) (p : Nat) : Nat :=
  (s.fwd.egress.filter fun e => e.2.md.egEpoch != s.fwd.epoch && e.2.pipe == p).length

/-- Retire the Dill entries and Sorrel and Sage items: old versions go, and items with no version left are freed
(R170, R176, R190). -/
def retireTables (s : State) : State :=
  let s := modTab (fun t => { t with
    routes := (tmap t.routes fun _ l => l.retire).filter fun e => !e.2.free
    sage := (tmap t.sage fun _ e => { e with v := e.v.retire }).filter fun e => !e.2.v.free
    buckets := tmap t.buckets fun _ e => { e with v := e.v.retire }
    ovf := tmap t.ovf fun _ e => (e.1, e.2.1, { e.2.2 with v := e.2.2.v.retire }) }) s
  dillSweep (sorrelCheck s)

/-- Retire the old versions that the ingress segment reads. -/
def retireIn (s : State) : State :=
  let s := modFwd (fun w => { w with oldIn := none }) (retireTables s)
  { s with
    td := { s.td with oldSets := none, oldQ := none }
    det := { s.det with oldStreams := none }
    fab := { s.fab with oldSysp := none } }

/-- Retire the old versions that the egress segment reads. -/
def retireEg (s : State) : State := modFwd (fun w => { w with oldEg := none }) s

/-- EPOCH_RETIRE: the old versions of a segment (0 ingress, 1 egress) retire once no packet of the old epoch remains in
it (R156). -/
def execEpochRetire (t seg : Nat) (s : State) : Host.Outcome State Fault Refusal :=
  let s := s.atTime t
  if seg = 0 then .next (if (List.range 16).all fun p => decide (staleIn s p = 0) then retireIn s else s)
  else .next (if (List.range 16).all fun p => decide (staleEg s p = 0) then retireEg s else s)

end Sys2Proof.Machine
end

