-- ==== Sys2Proof/Machine/EgressOps.lean ====
section
/-! DEFINITION. What the egress half does to a frame, as functions of its bytes: removal, TTL, rewrite, encapsulation,
congestion mark and tag directive (R65, R153, R264), and the length it leaves with (R64, R75, R290). -/

namespace Sys2Proof.Machine

open Sys2Proof

/-! ### Bytes -/

/-- One's complement sum of 16 bits with end-around carry. -/
def ones (x : Nat) : Nat := let y := x % 65536 + x / 65536; y % 65536 + y / 65536

/-- A checksum after one 16-bit word of what it covers changes (RFC 1624). -/
def csumAfter (c old new : Nat) : Nat := 65535 - ones ((65535 - c) + (65535 - old) + new)

/-- Change the 16-bit word at i and the checksum at j that covers it. -/
def putSummed (bs : List Byte) (i j new : Nat) : List Byte :=
  putBytes (putBytes bs j (beBytes (csumAfter (half bs j) (half bs i) new) 2)) i (beBytes new 2)

/-! ### Tags (R65) -/

/-- A tag of the leading run: 0 S-tag, 1 C-tag, 2 R-TAG, and its bytes. -/
abbrev Tag := Nat × List Byte

/-- The leading run of tags, and what follows it. -/
def splitTags (tpid : Nat) : Nat → List Byte → List Tag × List Byte
  | 0, bs => ([], bs)
  | f + 1, bs =>
    let kind := if half bs 0 = 0x8100 then some (1, 4) else if half bs 0 = tpid then some (0, 4)
      else if half bs 0 = 0xF1C1 then some (2, 6) else none
    match kind with
    | some (k, n) =>
      if bs.length < n then ([], bs)
      else
        let r := splitTags tpid f (bs.drop n)
        ((k, bs.take n) :: r.1, r.2)
    | none => ([], bs)

/-- Whether a run is in the fixed order: S-tags, C-tags, R-TAGs. -/
def tagsOrdered : List Tag → Bool
  | a :: b :: r => decide (a.1 ≤ b.1) && tagsOrdered (b :: r)
  | _ => true

/-- The tag that the metadata gives for a kind (Table 2-4). -/
def tagOf (tpid : Nat) (m : Meta) (kind : Nat) : List Byte :=
  let vlan (id tci : Nat) : List Byte := beBytes id 2 ++ beBytes (bits tci 14 12 * 2 ^ 13 + bits tci 15 15 * 2 ^ 12 + bits tci 11 0) 2
  if kind = 0 then vlan tpid m.sTci else if kind = 1 then vlan 0x8100 m.cTci else beBytes 0xF1C1 2 ++ [0#8, 0#8] ++ beBytes m.rSeq 2

/-- Apply the action of one kind to the tags of that kind, outermost first; whether it could not be applied. -/
def tagAct (act : Nat) (new : List Byte) (kind : Nat) (ts : List Tag) : List Tag × Nat :=
  match act, ts with
  | 1, _ :: r => (r, 0)
  | 1, [] => ([], 1)
  | 2, r => ((kind, new) :: r, 0)
  | 3, _ :: r => ((kind, new) :: r, 0)
  | 3, [] => ([], 1)
  | _, r => (r, 0)

/-- Apply the tag directive to a run: the tags sent and the edit exceptions (R65). -/
def tagDirective (tpid : Nat) (m : Meta) (ts : List Tag) : List Tag × Nat :=
  if m.rTag = 0 ∧ m.cTag = 0 ∧ m.sTag = 0 then (ts, 0)
  else if !tagsOrdered ts then (ts, 1)
  else
    let of (k : Nat) : List Tag := ts.filter fun t => t.1 == k
    let (a, x) := tagAct m.sTag (tagOf tpid m 0) 0 (of 0)
    let (b, y) := tagAct m.cTag (tagOf tpid m 1) 1 (of 1)
    let (c, z) := tagAct m.rTag (tagOf tpid m 2) 2 (of 2)
    (a ++ b ++ c, x + y + z)

/-! ### What follows the EtherType -/

/-- Decrement the TTL, hop limit or outer label's TTL of a payload; none where it reaches 0 (R153). -/
def ttlDown (et : Nat) (b : List Byte) : Option (List Byte) :=
  if et = 0x0800 then
    if byteAt b 8 ≤ 1 then none else some (putSummed b 8 10 (half b 8 - 256))
  else if et = 0x86DD then
    if byteAt b 7 ≤ 1 then none else some (putBytes b 7 (beBytes (byteAt b 7 - 1) 1))
  else if et = 0x8847 ∨ et = 0x8848 then
    if byteAt b 3 ≤ 1 then none else some (putBytes b 3 (beBytes (byteAt b 3 - 1) 1))
  else some b

/-- The TTL that a uniform encapsulation copies. -/
def ttlOf (et : Nat) (b : List Byte) : Nat :=
  if et = 0x0800 then byteAt b 8 else if et = 0x86DD then byteAt b 7
  else if et = 0x8847 ∨ et = 0x8848 then byteAt b 3 else 255

/-- Rewrite DSCP or MPLS TC to a remark's value (R151). -/
def remarkTo (m et : Nat) (b : List Byte) : List Byte :=
  if et = 0x0800 then putSummed b 0 10 (half b 0 / 256 * 256 + m * 32 + half b 0 % 4)
  else if et = 0x86DD then putBytes b 0 (beBytes (half b 0 / 4096 * 4096 + m * 512 + half b 0 % 64) 2)
  else if et = 0x8847 ∨ et = 0x8848 then putBytes b 2 (beBytes (byteAt b 2 / 16 * 16 + m * 2 + byteAt b 2 % 2) 1)
  else b

/-- Offset after an MPLS label stack. -/
def labelsEnd (b : List Byte) : Nat → Nat → Nat
  | 0, i => i
  | f + 1, i => if byteAt b (i + 2) % 2 = 1 ∨ b.length < i + 8 then i + 4 else labelsEnd b f (i + 4)

/-- Mark congestion in the first IP header after any MPLS labels; none where there is none or it is Not-ECT (R264). -/
def markCe (et : Nat) (b : List Byte) : Option (List Byte) :=
  let (i, fam) :=
    if et = 0x0800 then (0, 4) else if et = 0x86DD then (0, 6)
    else if et = 0x8847 ∨ et = 0x8848 then
      let i := labelsEnd b b.length 0
      (i, byteAt b i / 16)
    else (0, 0)
  if fam = 4 then
    if byteAt b (i + 1) % 4 = 0 then none
    else if byteAt b (i + 1) % 4 = 3 then some b
    else some (putSummed b i (i + 10) (half b i / 4 * 4 + 3))
  else if fam = 6 then
    if byteAt b (i + 1) / 16 % 4 = 0 then none
    else if byteAt b (i + 1) / 16 % 4 = 3 then some b
    else some (putBytes b (i + 1) (beBytes (byteAt b (i + 1) / 64 * 64 + 48 + byteAt b (i + 1) % 16) 1))
  else none

/-! ### Encapsulation (R145, R153 step 5) -/

/-- A label stack entry. -/
def labelEntry (label tc ttl : Nat) (bottom : Bool) : List Byte := beBytes (label % 2 ^ 20 * 4096 + tc * 512 + b2n bottom * 256 + ttl) 4

/-- Label stack entries of a list of labels, the last one at the bottom of the stack or not. -/
def labelStack (tc ttl : Nat) (bottom : Bool) : List Nat → List Byte
  | [] => []
  | [l] => labelEntry l tc ttl bottom
  | l :: r => labelEntry l tc ttl false ++ labelStack tc ttl bottom r

/-- Encapsulate: the new EtherType and what follows it. `et` and `b` are the packet's own, `frame` its whole frame; `red`
whether an SRv6 encapsulation is reduced, its first segment in the destination address only (RFC 8986). -/
def encapsulate (e : Encap) (red : Bool) (m : Meta) (et : Nat) (b frame : List Byte) : Nat × List Byte :=
  let fieldOf (i : Nat) : Nat := Config.encapField e.kind i m.hash
  let ttl := if e.pipe then fieldOf 0 % 256 else ttlOf et b
  let labels := ((e.ws.take e.count).map fun w => w.toNat % 2 ^ 20) ++ (if e.entropy then [7, fieldOf 1 % 2 ^ 20] else [])
  if e.kind = 1 then
    let inMpls := et = 0x8847 ∨ et = 0x8848
    (0x8847, labelStack m.cls ttl (!inMpls) labels ++ b)
  else if e.kind = 3 then (0x8847, labelStack m.cls ttl true labels ++ frame)
  else if e.kind = 4 then (0x8847, labelStack m.cls ttl true labels ++ beBytes m.rSeq 4 ++ frame)
  else
    let sid (i : Nat) : List Byte :=
      beBytes ((List.range 4).foldl (fun a j => a + (e.ws.getD (4 * i + j) 0#32).toNat * 2 ^ (32 * j)) 0) 16
    let n := e.count
    let (nh, inner) := if et = 0x0800 then (4, b) else if et = 0x86DD then (41, b) else (143, frame)
    let held := if red then (List.range n).drop 1 else List.range n
    let srh := if n ≤ 1 then [] else
      beBytes nh 1 ++ beBytes (2 * held.length) 1 ++ [4#8] ++ beBytes (n - 1) 1 ++ beBytes (held.length - 1) 1 ++ [0#8, 0#8, 0#8]
        ++ held.reverse.flatMap sid
    (0x86DD, beBytes (6 * 2 ^ 28 + m.cls * 2 ^ 25 + fieldOf 2 % 2 ^ 20) 4 ++ beBytes (srh.length + inner.length) 2
      ++ beBytes (if n ≤ 1 then nh else 43) 1 ++ beBytes ttl 1 ++ beBytes (fieldOf 3) 16 ++ sid 0 ++ srh ++ inner)

/-! ### The edits in order (R153) -/

/-- Why the egress half drops a packet. -/
inductive EditDrop where
  | edit | ttl | notEct
  deriving DecidableEq, Repr

/-- What the edits make of a frame. -/
structure Edited where
  /-- The frame without its FCS -/
  bytes : List Byte
  /-- Edit exceptions -/
  exc : Nat := 0
  /-- The packet is dropped -/
  drop : Option EditDrop := none
  deriving DecidableEq, Repr

/-- The source MAC address of port p: its filter entry 0 (DEDUCED, as R80 takes it for the SCI). -/
def portMac (s : State) (p : Nat) : Nat :=
  match tget s.line.ports p with
  | some x => (x.filter.getD 0 (0, false)).1
  | none => 0

/-- The edits of the egress half on a frame for port p, in the version c (R153). -/
def egressEdit (s : State) (c : FwdCfg) (p : Nat) (k : Pkt) : Edited :=
  let tpid := stagTpid s p
  match tget c.nhs k.md.edit with
  | none => ⟨k.bytes, 1, some .edit⟩
  | some nh =>
    if nh.encap ≠ 0 ∧ !thas c.encaps (hIdx nh.encap) then ⟨k.bytes, 1, some .edit⟩
    else
      let rm := decide (k.strip ≤ 128) && decide (k.strip < k.bytes.length)
      let x1 := b2n (decide (0 < k.strip) && !rm)
      let bytes := if rm then viewOf k else k.bytes
      let (tags, rest) := splitTags tpid bytes.length (bytes.drop 12)
      let et := half rest 0
      let body := rest.drop 2
      let (body, ttlOk) := if k.own then (body, true) else match ttlDown et body with
        | some b => (b, true)
        | none => (body, false)
      let body := match k.remark with
        | some m => remarkTo m et body
        | none => body
      let tags := match k.remark, tags with
        | some m, (kd, t) :: r => if et = 0x0800 ∨ et = 0x86DD ∨ et = 0x8847 ∨ et = 0x8848 ∨ kd = 2 then (kd, t) :: r
            else (kd, putBytes t 2 (beBytes (m * 32 + byteAt t 2 % 32) 1)) :: r
        | _, ts => ts
      let (body, ectOk) := if k.mark then match markCe et body with
        | some b => (b, true)
        | none => (body, false) else (body, true)
      let macs := beBytes nh.dmac 6 ++ beBytes (portMac s p) 6
      let inner := bytes.take 12 ++ tags.flatMap (fun t => t.2) ++ beBytes et 2 ++ body
      let sent : List Tag × Nat × List Byte × Nat := match if nh.encap = 0 then none else tget c.encaps (hIdx nh.encap) with
        | some e =>
          let (et', b') := encapsulate e (Config.srReduced (hIdx nh.encap)) k.md et body inner
          let kept := if e.kind = 1 then tags else []
          if inner.length + 128 < 14 + (kept.flatMap Prod.snd).length + b'.length then (tags, et, body, 1)
          else (kept, et', b', 0)
        | none => (tags, et, body, 0)
      let (tags, et, body, x3) := sent
      let (tags, x2) := tagDirective tpid k.md tags
      let drop := if !ttlOk then some .ttl else if !ectOk then some .notEct else none
      ⟨macs ++ tags.flatMap (fun t => t.2) ++ beBytes et 2 ++ body, x1 + x2 + x3, drop⟩

/-! ### The transmitted length (R64, R75, R290) -/

/-- Whether MACsec protects a frame on port p: a cipher suite, and no bypass EtherType (Table 2-6). -/
def protectedOn (s : State) (p : Nat) (bs : List Byte) : Bool :=
  match tget s.line.ports p with
  | some x => decide (x.secY.cipher ≠ 0) && !x.secY.bypass.any fun b => b.2 && b.1 == half bs 12
  | none => false

/-- Bytes that MACsec adds on port p: 24, or 32 with the SCI (R75). -/
def macsecBytes (s : State) (p : Nat) (bs : List Byte) : Nat :=
  if protectedOn s p bs then
    match tget s.line.ports p with
    | some x => if x.secY.sciIn then 32 else 24
    | none => 0
  else 0

/-- The exact transmitted length of a packet on port p (R290). -/
def txLen (s : State) (p : Nat) (k : Pkt) : Nat :=
  let e := egressEdit s s.fwd.cfg p k
  max 64 (e.bytes.length + macsecBytes s p e.bytes + 4)

end Sys2Proof.Machine
end

