-- ==== Sys2Proof/Machine/BufOps.lean ====
section
/-! DEFINITION. Operations of the buffer pools: free stores, grants, releases and replication (R222 to R241). -/

namespace Sys2Proof.Machine

open Sys2Proof

/-- Change the traffic die's state. -/
def modTd (f : TdSt → TdSt) (s : State) : State := { s with td := f s.td }

/-- A pool: 0 HBM, 1 on-die. -/
def poolOf (s : State) (p : Nat) : Pool := if p = 0 then s.td.hbm else s.td.die

/-- Change a pool. -/
def modPool (p : Nat) (f : Pool → Pool) (s : State) : State :=
  if p = 0 then modTd (fun t => { t with hbm := f t.hbm }) s else modTd (fun t => { t with die := f t.die }) s

/-- The unit of the pool manager (R242). -/
def poolUnit : Nat := unitOf 60 0

/-- Add n to counter k of pool p (R241). -/
def poolCount (p k n : Nat) (s : State) : State := ctrAdd48 9 6 poolUnit (pay [(p, 1), (k, 1)]) 0x49 (p + 1) k n s

/-! ### Free stores (R223, R239, R240) -/

/-- Whether a buffer may be granted: its on-die half is not being withdrawn (R240). -/
def Pool.grantable (pl : Pool) (i : Nat) : Bool :=
  pl.half == 0 || (decide (262144 ≤ i) == (pl.half == 1))

/-- Whether no grant may ever take a buffer again: it is retired, or its free-store entry is lost (R238, R239). -/
def Pool.out (pl : Pool) (i : Nat) : Bool := pl.retired.contains i || pl.lost.contains i

/-- The end of the grantable indices that no grant has reached. -/
def Pool.top (pl : Pool) : Nat := if pl.half = 2 then 262144 else pl.size

/-- The first n entries of the ring that no grant has reached, in ascending order (R223). -/
def Pool.fresh (pl : Pool) (n : Nat) : List Nat :=
  ((List.range' pl.next (min (pl.top - pl.next) (n + pl.retired.length + pl.lost.length))).filter fun i => !pl.out i).take n

/-- Entries of the ring that no grant has reached. -/
def Pool.untouched (pl : Pool) : Nat :=
  (pl.top - pl.next) - ((pl.retired ++ pl.lost.filter fun i => !pl.retired.contains i).filter fun i =>
    decide (pl.next ≤ i) && decide (i < pl.top)).length

/-- F: the free count, of the general part for the on-die pool (R227). -/
def Pool.free (pl : Pool) : Nat :=
  (pl.cache.filter pl.grantable).length + (pl.ring.filter pl.grantable).length + pl.untouched

/-- Raise POOL_LOW or POOL_LOW_CLEAR (Table 8-3). -/
def poolCheck (p : Nat) (s : State) : State :=
  let pl := poolOf s p
  let f := pl.free
  if !pl.isLow && decide (f < pl.low) then
    raise 9 1 poolUnit (pay [(p, 1), (f, 4)]) (modPool p (fun x => { x with isLow := true }) s)
  else if pl.isLow && decide (pl.clear < f) then
    raise 9 2 poolUnit (pay [(p, 1), (f, 4)]) (modPool p (fun x => { x with isLow := false }) s)
  else s

/-- Refill the cache by one batch of 256 entries from the head of the ring (R223). -/
def Pool.refill (pl : Pool) : Pool :=
  let new := pl.fresh 256
  let old := (pl.ring.filter pl.grantable).take (256 - new.length)
  { pl with
    cache := pl.cache ++ new ++ old
    next := match new.getLast? with
      | some l => if new.length < 256 then pl.top else l + 1
      | none => pl.next
    ring := if old.isEmpty then pl.ring else pl.ring.filter fun i => !old.contains i
    base := pl.base + old.length }

/-- Spill the 256 least recently freed entries of the cache to the tail of the ring (R223). -/
def Pool.spill (pl : Pool) : Pool :=
  { pl with cache := pl.cache.take (pl.cache.length - 256), ring := pl.ring ++ pl.cache.drop (pl.cache.length - 256) }

/-- Refill the cache while it holds fewer than 1,024 entries, and spill while it holds more than 3,072, with fuel. -/
def Pool.balanceFor : Nat → Pool → Pool
  | 0, pl => pl
  | f + 1, pl =>
    if pl.cache.length < 1024 then
      let x := pl.refill
      if x.cache.length = pl.cache.length then pl else Pool.balanceFor f x
    else if 3072 < pl.cache.length then Pool.balanceFor f pl.spill
    else pl

/-- Keep the cache within its bounds (R223). -/
def Pool.balance (pl : Pool) : Pool := pl.balanceFor 16

/-- Take one free buffer from the store, none of `no`: from the cache, most recently freed first. -/
def Pool.take (pl : Pool) (no : List Nat) : Option (Nat × Pool) :=
  let ok (x : Pool) (i : Nat) : Bool := x.grantable i && !no.contains i
  match pl.cache.find? (ok pl) with
  | some i => some (i, { pl with cache := pl.cache.erase i }.balance)
  | none =>
    let x := pl.refill
    (x.cache.find? (ok x)).map fun i => (i, { x with cache := x.cache.erase i }.balance)

/-- Put a freed buffer in its free store: of the partition, or the general one; a retired one is withdrawn, and one of a
half that is being withdrawn goes to the ring, the partition taking another cell for it (R236, R239, R240). -/
def Pool.put (pl : Pool) (i : Nat) (part : Bool) : Pool :=
  if part && decide (pl.surplus = 0) then
    if pl.grantable i then { pl with part := i :: pl.part }
    else match pl.take [] with
      | some (j, x) => { x with part := j :: x.part, ring := x.ring ++ [i] }
      | none => { pl with part := i :: pl.part }
  else
    let pl := if part then { pl with surplus := pl.surplus - 1, bufs := tmodify pl.bufs i fun b => { b with part := false } } else pl
    if pl.out i then pl
    else if pl.grantable i then { pl with cache := i :: pl.cache }.balance
    else { pl with ring := pl.ring ++ [i] }

/-- The manager stops granting the cells of a half: they leave the cache, and free cells of the partition in it are replaced
by cells of the other half (R240). -/
def Pool.withdraw (pl : Pool) (h : Nat) : Pool :=
  let pl := { pl with half := h }
  let back := pl.cache.filter fun i => !pl.grantable i
  let early := if h = 1 then (List.range' pl.next (262144 - pl.next)).filter fun i => !pl.out i else []
  let pl := { pl with
    cache := pl.cache.filter pl.grantable, ring := pl.ring ++ back ++ early
    next := if h = 1 then max pl.next 262144 else pl.next }.balance
  (pl.part.filter fun i => !pl.grantable i).foldl (fun pl i => match pl.take [] with
    | some (j, x) => { x with part := x.part.map fun k => if k = i then j else k, ring := x.ring ++ [i] }
    | none => pl) pl

/-- The buffer whose entry lies at a position of the free store: position n of the ring, or the pool's size and n for entry n
of the cache (R238; notes/assumptions/117). -/
def Pool.entryAt (pl : Pool) (pos : Nat) : Option Nat :=
  if pl.size ≤ pos then pl.cache[pos - pl.size]?
  else if pl.next ≤ pos then if pl.out pos then none else some pos
  else pl.ring[(pos + pl.size - pl.base % pl.size) % pl.size]?

/-- The clock of domain 60 (R25). -/
def bufClock (s : State) : Nat := coreClocks (elapsed s)

/-- Buffers released in the running clock, which it grants to no one (R229). -/
def justFreed (s : State) (p : Nat) : List Nat :=
  let pl := poolOf s p
  if pl.recentAt = bufClock s + 1 then pl.recent else []

/-- Unmet on-die reserves with the partition (R240). -/
def dieNeed (s : State) : Nat :=
  (List.range 6).foldl (fun n c => n + ((s.td.die.lims.getD c (0, 0)).1 - s.td.die.held.getD c 0)) s.td.die.p

/-! ### Grants (R227, R228) -/

/-- Cells of the egress share of an egress record (R282). -/
def EgressRec.share (r : EgressRec) : Nat := ceilDiv r.ltx 256 * (2 * r.n + ceilDiv (r.n * r.e) r.i)

/-- Cells of the partition share of a stream (Table 10-4, check 16); a unit of a pair counts D + 250,000 ns (R403). -/
def StreamCfg.share (paired : Bool) (c : StreamCfg) : Nat :=
  ceilDiv c.lrx 256 * (2 * c.n + ceilDiv (c.n * (c.d + if paired then 250000 else 0)) c.i)

/-- Every packet that may hold buffers: at TD ingress and egress, in the queues, and in transmission to the fabric. -/
def bufferedPkts (s : State) : List Pkt :=
  s.td.ingress ++ s.td.egress ++ (s.td.queues.flatMap fun e => e.2.pkts)
    ++ s.fab.tx.filterMap fun e => e.2.cur.map fun c => c.2.1

/-- Cells of FABRIC_RX that deterministic packets hold, those being assembled from cells counted in (R282, R318). -/
def detHeld (s : State) : Nat :=
  (s.fab.rx.filter fun e => bit e.1 0).foldl (fun n e => n + e.2.bufs.length)
    (((bufferedPkts s).filter fun k => k.md.det && k.owner == 1).foldl (fun n k => n + k.bufs.length) 0)

/-- Partition cells that a stream's frames hold (R16). -/
def streamCells (s : State) (i : Nat) : Nat :=
  (((bufferedPkts s).filter fun k => k.md.sValid && k.md.stream == i).flatMap fun k => k.bufs.filter fun b =>
    match tget s.td.die.bufs b with | some x => x.part | none => false).eraseDups.length

/-- Cells set aside out of FABRIC_RX's on-die reserve: the shares of the egress records (R282). -/
def rxShares (s : State) : Nat := s.det.recs.foldl (fun n e => n + e.2.share) 0

/-- The part of FABRIC_RX's on-die reserve that is not in use: what deterministic frames do not hold of the cells set aside for
them, and what is left of the remainder (R227, R282). -/
def rxUnmet (s : State) : Nat :=
  let d := detHeld s
  let rest := ((poolOf s 1).lims.getD 1 (0, 0)).1 - rxShares s
  (rxShares s - d) + (rest - ((poolOf s 1).held.getD 1 0 - d) - (d - rxShares s))

/-- What client c may take of a pool (R227, R282): det says that the request is for a deterministic frame of FABRIC_RX. -/
def avail (s : State) (p c : Nat) (det : Bool) : Nat :=
  let pl := poolOf s p
  let held (d : Nat) : Nat := pl.held.getD d 0
  let due (d : Nat) : Nat := if p = 1 ∧ d = 1 then rxUnmet s else (pl.lims.getD d (0, 0)).1 - held d
  let unmet := (List.range 6).foldl (fun n d => if d = c then n else n + due d) 0
  let own := if p = 1 ∧ c = 1 ∧ !det then rxShares s - detHeld s else 0
  let late := ((justFreed s p).filter fun i => !pl.part.contains i).length
  min (pl.free - late - unmet - own) ((pl.lims.getD c (0, 0)).2 - held c - own)

/-- Grant n buffers of the general part to client c: the buffers and the state. -/
def grantGeneral (p c n : Nat) (s : State) : List Nat × State :=
  (List.range n).foldl (fun (l, s) _ =>
    match (poolOf s p).take (justFreed s p) with
    | some (i, pl) =>
      (l ++ [i], modPool p (fun _ => { pl with
        bufs := tset pl.bufs i { used := true, owner := c, count := 0, part := false, since := bufClock s + 1 }
        held := lmod pl.held c (· + 1) }) s)
    | none => (l, s)) ([], s)

/-- Free cells of the partition that the running clock may grant (R229, R240). -/
def partFree (s : State) : List Nat :=
  s.td.die.part.filter fun i => s.td.die.grantable i && !(justFreed s 1).contains i

/-- Grant n cells of the deterministic partition to client c. -/
def grantPart (c n : Nat) (s : State) : List Nat × State :=
  let l := (partFree s).take n
  (l, modPool 1 (fun pl => { pl with
    part := pl.part.filter fun i => !l.contains i
    bufs := l.foldl (fun b i => tset b i { used := true, owner := c, count := 0, part := true, since := bufClock s + 1 }) pl.bufs }) s)

/-- One client's request at the arbitration point of a pool, of which handed buffers are already granted in the clock:
the buffers granted, whether EMPTY was answered, and the state. `part` asks for the partition, with the stream's room. -/
def arbitrate (p c k handed : Nat) (part : Option Nat) (det : Bool) (s : State) : List Nat × Bool × State :=
  let a := match part with
    | some room => min (partFree s).length room
    | none => avail s p c det
  if a < 1 then ([], true, poolCount p (3 * c + 1) 1 s)
  else
    let g := min k (min a (16 - handed))
    let (l, s) := match part with | some _ => grantPart c g s | none => grantGeneral p c g s
    let s := if l.isEmpty then s else poolCount p (3 * c) l.length (modPool p (fun pl => { pl with last := c }) s)
    (l, false, poolCheck p s)

/-- Clients in the order of a clock: ascending, beginning after the one served last (R228). -/
def clientOrder (last : Nat) (cs : List Nat) : List Nat :=
  let all := (List.range 6).filter fun c => cs.contains c
  all.filter (fun c => decide (last < c)) ++ all.filter fun c => decide (c ≤ last)

/-! ### Releases and replication (R230 to R232) -/

/-- A bad free: counted, and reported at most once for each pool and tide (R232). -/
def badFree (p b id owner kind unit : Nat) (s : State) : State :=
  let s := poolCount p (if kind = 1 then 21 else 22) 1 s
  if (poolOf s p).badTide = s.tm.tide + 1 then poolCount p 23 1 s
  else raise 9 3 unit (pay [(p, 1), (b, 4), (id, 1), (owner, 1), (kind, 1), (unit, 2)])
    (modPool p (fun pl => { pl with badTide := s.tm.tide + 1 }) s)

/-- Free a buffer: its state bit clears and it enters a free store, or it is withdrawn and counted where it is retired
(R239). -/
def bufFree (p b : Nat) (x : Buf) (s : State) : State :=
  let s := if (poolOf s p).retired.contains b then poolCount p 25 1 s else s
  let now := bufClock s + 1
  poolCheck p (modPool p (fun pl =>
    { pl with
      bufs := tset pl.bufs b { x with used := false }
      held := if x.part ∨ 6 ≤ x.owner then pl.held else lmod pl.held x.owner (· - 1)
      recent := if pl.recentAt = now then b :: pl.recent else [b]
      recentAt := now }.put b x.part) s)

/-- The reference unit applies a release of buffer b by client id from a unit; `clk` is the clock of the release, whose own
grants it does not see yet (R231). -/
def bufReleaseAt (clk : Option Nat) (p b id unit : Nat) (s : State) : State :=
  match tget (poolOf s p).bufs b with
  | none => badFree p b id 0 1 unit s
  | some x =>
    if !x.used || clk.any fun c => x.since == c + 1 then badFree p b id x.owner 1 unit s
    else if x.owner = 7 then
      if x.count ≤ 1 then bufFree p b { x with count := 0 } s
      else modPool p (fun pl => { pl with bufs := tset pl.bufs b { x with count := x.count - 1 } }) s
    else if x.owner = id then bufFree p b x s
    else badFree p b id x.owner 2 unit s

/-- A release by a unit of the traffic die itself, which comes in a clock after the grant. -/
def bufRelease (p b id unit : Nat) (s : State) : State := bufReleaseAt none p b id unit s

/-- Release several buffers. -/
def bufReleaseAll (p : Nat) (bs : List Nat) (id unit : Nat) (s : State) : State := bs.foldl (fun s b => bufRelease p b id unit s) s

/-- Copies of a buffer that the count admits, of n asked for (R230). -/
def copiesFor (x : Buf) (n : Nat) : Nat := if x.owner = 7 then min n (255 - x.count) else min n 254

/-- The reference unit applies a replication update: n copies of buffer b (R230). -/
def bufReplicate (p b n : Nat) (s : State) : State :=
  match tget (poolOf s p).bufs b with
  | none => s
  | some x =>
    if !x.used then s
    else
      let m := copiesFor x n
      let s := if m < n then poolCount p 24 (n - m) s else s
      if m = 0 then s
      else modPool p (fun pl => { pl with
        bufs := tset pl.bufs b (if x.owner = 7 then { x with count := x.count + m } else { x with owner := 7, count := m + 1 })
        held := if x.part ∨ 6 ≤ x.owner then pl.held else lmod pl.held x.owner (· - 1) }) s

/-- Put a release into those of a clock, in ascending unit ID and then in order of arrival. -/
def refInsert (r : RefReq) : List RefReq → List RefReq
  | [] => [r]
  | x :: l => if r.unit < x.unit then r :: x :: l else x :: refInsert r l

/-- One clock c of the reference unit of pool p: of what has come by then at most 16 replication updates, every one first, and
at most 16 releases in ascending unit ID; the rest waits in order (R231). -/
def refClock (p c : Nat) (s : State) : State :=
  let here := (poolOf s p).refs.filter fun r => decide (r.clk ≤ c)
  let up := (here.filter fun r => r.copies).take 16
  let down := (here.filter fun r => !r.copies).take 16
  let rest (k : Bool) (l : List RefReq) : List RefReq := (l.filter fun r => r.copies == k).drop 16
  let s := modPool p (fun pl => { pl with
    refs := rest true here ++ rest false here ++ pl.refs.filter fun r => decide (c < r.clk), refAt := c + 1 }) s
  let s := up.foldl (fun s r => bufReplicate p r.b r.n s) s
  (down.foldl (fun l r => refInsert r l) []).foldl (fun s r => bufReleaseAt (some c) p r.b r.n r.unit s) s

/-- The reference unit of pool p applies what came before clock `now`, with fuel. -/
def refSettleFor (p now : Nat) : Nat → State → State
  | 0, s => s
  | f + 1, s =>
    match (poolOf s p).refs.map fun r => r.clk with
    | [] => s
    | k :: ks =>
      let c := max (poolOf s p).refAt (ks.foldl min k)
      if c < now then refSettleFor p now f (refClock p c s) else s

/-- The reference unit of pool p applies what came before clock `now` (R231). -/
def refSettle (p now : Nat) (s : State) : State := refSettleFor p now (poolOf s p).refs.length s

/-- The reference units apply all that has come: a reading command or a boundary finds nothing in their queues. -/
def refSettleAll (s : State) : State :=
  let far (s : State) (p : Nat) : Nat := bufClock s + (poolOf s p).refAt + (poolOf s p).refs.length + 1
  let s := refSettle 0 (far s 0) s
  refSettle 1 (far s 1) s

/-- A release or a replication update comes to the reference unit of pool p (R231). -/
def refPut (p : Nat) (copies : Bool) (b n unit : Nat) (s : State) : State :=
  let s := refSettle p (bufClock s) s
  modPool p (fun pl => { pl with refs := pl.refs ++ [⟨bufClock s, copies, b, n, unit⟩] }) s

/-- The pool of a packet's buffers: on-die for deterministic ones and at TD egress, else HBM (R224). -/
def poolIn (k : Pkt) : Nat := if k.md.det then 1 else 0

/-! ### The deterministic partition (R235, R236) -/

/-- Move n free general cells into the partition, as many as there are: the cells moved, and the state. -/
def partGrow (n : Nat) (s : State) : List Nat × State :=
  let (l, s) := (List.range n).foldl (fun (l, s) _ =>
    match s.td.die.take [] with
    | some (i, pl) => (l ++ [i], modPool 1 (fun _ => pl) s)
    | none => (l, s)) (([] : List Nat), s)
  (l, poolCheck 1 (modPool 1 (fun pl => { pl with part := pl.part ++ l }) s))

/-- Return cells of the partition to the general store: free ones at once, and of those in use as many leave it when they are
released (R236). -/
def partReturn (l : List Nat) (s : State) : State :=
  let pl := s.td.die
  let here := l.filter fun i => pl.part.contains i
  let busy := (l.filter fun i => match tget pl.bufs i with | some x => x.used && x.part | none => false).length
  poolCheck 1 (modPool 1 (fun pl => here.foldl (fun pl i => Pool.put { pl with part := pl.part.erase i } i false)
    { pl with surplus := pl.surplus + busy }) s)

/-- At a boundary the partition size p is in force, and the partition keeps `want` cells, which prepared commits may have
raised: free cells above that return at once, used ones when they are released (R235, R236). -/
def partSet (p want : Nat) (s : State) : State :=
  let pl := s.td.die
  let total := pl.part.length + (pl.bufs.filter fun e => e.2.used && e.2.part).length - pl.surplus
  if want < total then
    let give := (pl.part.drop (pl.part.length - min pl.part.length (total - want)))
    partReturn give (modPool 1 (fun x => { x with p := p, surplus := x.surplus + ((total - want) - give.length) }) s)
  else modPool 1 (fun x => { x with p := p, surplus := x.surplus - min x.surplus (want - total) }) s

end Sys2Proof.Machine
end

