-- ==== Sys2Proof/Machine/QueueOps.lean ====
section
/-! DEFINITION. Operations of the queues: which queue a packet goes to, the tail and WRED checks, buffering, enqueue and
release (spec/09_queues_scheduling.md, R16, R225). -/

namespace Sys2Proof.Machine

open Sys2Proof

/-- Change queue q. -/
def modQueue (q : Nat) (f : Queue → Queue) (s : State) : State := modTd (fun t => { t with queues := tmodify t.queues q f }) s

/-- The unit of the slice that serves queue q (R244, R272, R275). -/
def sliceUnit (s : State) (q : Nat) : Nat := unitOf (40 + servingSlice s q) 0

/-- The unit of the scheduler quarter of port p (R249). -/
def quarterUnit (p : Nat) : Nat := unitOf (56 + p / 16) 0

/-- Whether the slice that serves queue q is fenced: what comes to it is discarded, and it hands out nothing (R22). -/
def sliceFenced (s : State) (q : Nat) : Bool := fenced s (40 + servingSlice s q)

/-- Add n to counter k of queue q (R273). -/
def queueCount (q k n : Nat) (s : State) : State := ctrAdd64 3 q k n s

/-- Add n to a queue and scheduler device counter; `unit` is that of the slice or quarter that counts (R274, R275). -/
def schedCount (unit k n : Nat) (s : State) : State := ctrAdd48 0x0A 6 unit (pay [(k, 1)]) 0x4A 0 k n s

/-- The unit that counts what concerns no queue and no quarter: that of slice 40 (DESIGN CHOICE, notes/assumptions/122). -/
def slicesUnit : Nat := unitOf 40 0

/-- The depth of a queue, bytes (R262). -/
def Queue.depth (x : Queue) : Nat := x.pkts.foldl (fun n k => n + k.md.len) 0

/-- The time base in units of 64 ns, 40 bits (R266). -/
def stamp64 (s : State) : Nat := nowLin s / (64 * nsU) % 2 ^ 40

/-- The delay of a packet of a queue, ns rounded down to a multiple of 64 (R267). -/
def delayOf (s : State) (k : Pkt) : Nat := (stamp64 s + 2 ^ 40 - k.since % 2 ^ 40) % 2 ^ 40 * 64

/-! ### WRED (R263) -/

/-- The next value of a slice's LFSR, x^16 + x^14 + x^13 + x^11 + 1. -/
def lfsrNext (x : Nat) : Nat :=
  let b := (x + x / 4 + x / 8 + x / 32) % 2
  x / 2 + b * 32768

/-- The average depth after one update. -/
def avgNext (avg : Int) (depth w : Nat) : Int := avg + ifloorDiv ((depth : Int) - avg) (2 ^ w : Nat)

/-- WRED of a queue under profile i at an enqueue attempt, its average updated: whether act is set, and the state (R263). -/
def wredEvaluate (profs : Tab Wred) (q i : Nat) (s : State) : Bool × State :=
  match tget profs i, tget s.td.queues q with
  | some w, some x =>
    let avg := x.avg
    let lo : Int := 64 * w.minT
    let hi : Int := 64 * w.maxT
    if avg < lo then (false, s)
    else if hi ≤ avg then (true, s)
    else
      let p := ((w.pmax : Int) * (avg - lo) * 256 / (hi - lo)).toNat
      let h := servingSlice s q
      let r := lfsrNext (s.td.lfsr.getD h 0)
      (decide (r < p), modTd (fun t => { t with lfsr := lset t.lfsr h r }) s)
  | _, _ => (false, s)

/-- The weight with which a queue averages: of the profile of a colour, else of the first profile it names (R263). -/
def avgWeight (c : QueueCfg) (profs : Tab Wred) (i : Nat) : Option Nat :=
  match tget profs i with
  | some w => some w.w
  | none => (c.wred.findSome? fun i => tget profs i).map fun w => w.w

/-- The tail and WRED checks of a best-effort enqueue attempt: none where the packet is dropped, else whether it is marked
(R261 to R264). The average is updated at each attempt, before the decision. -/
def congestion (c : QueueCfg) (profs : Tab Wred) (q : Nat) (m : Meta) (s : State) : Option Bool × State :=
  match tget s.td.queues q with
  | none => (none, s)
  | some x =>
    let i := c.wred.getD m.colour 0
    let s := match avgWeight c profs i with
      | some w => modQueue q (fun x => { x with avg := avgNext x.avg x.depth w }) s
      | none => s
    if 64 * c.tail < x.depth + m.len then (none, queueCount q 9 m.len (queueCount q 4 1 s))
    else
      let (act, s) := if i = 0 then (false, s) else wredEvaluate profs q i s
      if act && !c.ecn then (none, queueCount q 9 m.len (queueCount q 5 1 s)) else (some act, s)

/-! ### Where a packet goes -/

/-- VOQ sets that a packet's ingress epoch selects (R245). -/
def setsFor (s : State) (k : Pkt) : Tab VoqSet :=
  if k.md.inEpoch = s.fwd.epoch then s.td.sets else s.td.oldSets.getD s.td.sets

/-- The set of a system port, with its first queue. -/
def setOf (sets : Tab VoqSet) (dsp : Nat) : Option (Nat × VoqSet) :=
  (sets.find? fun e => e.2.dsp == dsp).map fun e => (8 * e.1, e.2)

/-- Settings of a VOQ and the WRED profiles that a packet's ingress epoch selects (R261). -/
def voqCfgFor (s : State) (k : Pkt) (q : Nat) : QueueCfg × Tab Wred :=
  let cur := match tget s.td.queues q with | some x => x.cfg | none => {}
  if k.md.inEpoch = s.fwd.epoch then (cur, s.td.wred)
  else match s.td.oldQ with
    | some (cs, ws) => (tgetD cs q cur, ws)
    | none => (cur, s.td.wred)

/-- The copies of a packet at TD ingress: the members of its stream, else itself, and its mirror copy (R280, R230). -/
def copiesOf (s : State) (k : Pkt) : List Meta :=
  (if k.md.sValid then
    match tget (streamsIn s (k.md.inEpoch == s.fwd.epoch)) k.md.stream with
    | some st => st.cfg.members.map fun m => (toHop (cfgIn s k.md.inEpoch) (hIdx m.nh) k).md
    | none => []
  else [k.md]) ++ k.also

/-- Check one copy at TD ingress: its VOQ exists and is of its kind, then tail and WRED (R245, R246, R261). -/
def checkCopy (k : Pkt) (m : Meta) (s : State) : Option (Meta × Nat × Bool) × State :=
  match setOf (setsFor s k) m.dsp with
  | none => (none, schedCount slicesUnit 0 1 s)
  | some (first, v) =>
    let q := first + m.cls
    if sliceFenced s q then (none, s)
    else if !thas s.td.queues q then (none, schedCount (sliceUnit s q) 0 1 s)
    else if bit v.mask m.cls != m.det then (none, schedCount (sliceUnit s q) 2 1 s)
    else if m.det then (some (m, q, false), s)
    else
      let (c, ws) := voqCfgFor s k q
      match congestion c ws q m s with
      | (some mark, s) => (some (m, q, mark), s)
      | (none, s) => (none, s)

/-- Check a packet at TD egress: its queue exists and is of its kind, then tail and WRED (R248, R251, R261). -/
def checkEgress (k : Pkt) (s : State) : Option (Meta × Nat × Bool) × State :=
  let q := k.md.queue
  match if sliceFenced s q then none else some (tget s.td.queues q) with
  | none => (none, s)
  | some none => (none, schedCount (sliceUnit s q) 1 1 s)
  | some (some x) =>
    if q < s.td.v then (none, schedCount (sliceUnit s q) 1 1 s)
    else if x.cfg.det != k.md.det then (none, schedCount (sliceUnit s q) 2 1 s)
    else if k.md.det then (some (k.md, q, false), s)
    else match congestion x.cfg s.td.wred q k.md s with
      | (some mark, s) => (some (k.md, q, mark), s)
      | (none, s) => (none, s)

/-- Make the checks of a waiting packet once: the packet with the copies that passed. -/
def planPkt (egress : Bool) (k : Pkt) (s : State) : Pkt × State :=
  match k.plan with
  | some _ => (k, s)
  | none =>
    let (l, s) := if egress then
        let (r, s) := checkEgress k s
        (r.toList, s)
      else (copiesOf s k).foldl (fun (l, s) m =>
        let (r, s) := checkCopy k m s
        (l ++ r.toList, s)) (([] : List (Meta × Nat × Bool)), s)
    ({ k with plan := some l }, s)

/-! ### Buffering (R224, R225, R234) -/

/-- Bytes free in the tail buffer of a VOQ's chain, from the next 64-byte boundary on (R225). -/
def tailRoom (s : State) (q : Nat) : Nat :=
  match tget s.td.queues q with
  | some x => match x.chain with
    | some (_, used) => 1024 - min 1024 (ceilDiv used 64 * 64)
    | none => 0
  | none => 0

/-- Whether a planned packet is packed in its VOQ's chain: best-effort, at TD ingress from the bridge, one copy (R225). -/
def packed (egress : Bool) (k : Pkt) : Bool :=
  !egress && !k.md.det && k.owner == 0 && match k.plan with | some [_] => k.also.isEmpty | _ => false

/-- Buffers that a planned packet still needs. -/
def needOf (egress : Bool) (k : Pkt) (s : State) : Nat :=
  match k.plan with
  | some ((_, q, _) :: _) =>
    let total := if egress || k.md.det then ceilDiv k.md.len 256
      else if packed egress k then ceilDiv (k.md.len - tailRoom s q) 1024
      else ceilDiv k.md.len 1024
    total - k.bufs.length
  | _ => 0

/-- The pool that a packet's buffers come from. -/
def poolFor (egress : Bool) (k : Pkt) : Nat := if egress || k.md.det then 1 else 0

/-- The unit that releases a client's buffers at the traffic die's edges (DESIGN CHOICE: the pool manager itself). -/
def releaser : Nat := poolUnit

/-- Buffers of the HBM pool that packets which have left VOQ q still hold: in transmission to the fabric, and at TD egress
before the local turnaround has copied them (R226). -/
def heldOf (s : State) (q : Nat) : List Nat :=
  (s.fab.tx.flatMap fun e => match e.2.cur with
    | some (v, k, _) => if v = q && !k.md.det then k.bufs else []
    | none => [])
    ++ s.td.egress.flatMap fun k => match k.hbm with
    | some (v, _, l) => if v = q then l else []
    | none => []

/-- Release the HBM buffers of a packet of client id that has left VOQ q: a shared one whoever else holds it, another one
unless a packet of the queue, one that has left it, or the chain that is still written uses it; an empty queue ends its chain
(R225, R226, R231). -/
def chainRelease (q id : Nat) (bufs : List Nat) (s : State) : State :=
  match tget s.td.queues q with
  | none => bufReleaseAll 0 bufs id releaser s
  | some x =>
    let held := heldOf s q
    let ends := x.pkts.isEmpty
    let tail := x.chain.map fun c => c.1
    let shared (b : Nat) : Bool := match tget s.td.hbm.bufs b with | some y => y.owner == 7 | none => false
    let used (b : Nat) : Bool := held.contains b || (x.pkts.any fun y => y.bufs.contains b) || (!ends && tail == some b)
    let s := if ends then modQueue q (fun x => { x with chain := none }) s else s
    let s := bufReleaseAll 0 (bufs.filter fun b => shared b || !used b) id releaser s
    match tail with
    | some b => if ends && !bufs.contains b && !held.contains b then bufRelease 0 b 0 releaser s else s
    | none => s

/-- The HBM buffers from which the turnaround copied a packet are released by the client that allocated them (R226). -/
def hbmDone (k : Pkt) (s : State) : State :=
  match k.hbm with
  | some (q, id, l) => chainRelease q id l s
  | none => s

/-- Release every buffer that a packet holds. -/
def releasePkt (egress : Bool) (k : Pkt) (s : State) : State :=
  hbmDone k (bufReleaseAll (poolFor egress k) k.bufs k.owner releaser s)

/-- Raise RESERVE_DROP at the first one of the PM second, and count it (R16, R307). -/
def reserveDrop (i : Nat) (s : State) : State :=
  match tget s.det.streams i with
  | none => s
  | some st =>
    let s := streamCount i 4 1 s
    let sec := s.tm.tide / 8000 + 1
    if st.reserveSec = sec then s
    else raise 0x0B 6 poolUnit (pay [(handle 0xB0 i, 4)])
      { s with det := { s.det with streams := tset s.det.streams i { st with reserveSec := sec } } }

/-- A packet meets EMPTY: it is dropped, and its buffers are released (R234). -/
def emptyDrop (egress : Bool) (k : Pkt) (s : State) : State :=
  let s := poolCount (poolFor egress k) (3 * k.owner + 2) 1 (releasePkt egress k s)
  if k.md.sValid && !egress then reserveDrop k.md.stream s else s

/-- Room of a partition request: the free share of the packet's stream (R16, R228); none for another pool. -/
def partRoom (egress : Bool) (k : Pkt) (s : State) : Option Nat :=
  if !egress && k.md.det && (k.owner == 0 || k.owner == 4) then
    some (match tget s.det.streams k.md.stream with
      | some st => if k.md.sValid then st.cfg.share (s.twin.st != 0) - streamCells s k.md.stream else 0
      | none => 0)
  else none

/-- Allocate what a planned packet still needs, by one request of at most 16 buffers after the other: the packet, or none
where it met EMPTY (R228, R234). -/
def allocAll (egress : Bool) : Nat → Pkt → State → Option Pkt × State
  | 0, k, s => (some k, s)
  | f + 1, k, s =>
    let n := needOf egress k s
    if n = 0 then (some k, s)
    else
      let room := (partRoom egress k s).map fun r => r - k.bufs.length
      match arbitrate (poolFor egress k) k.owner (min 16 n) 0 room k.md.det s with
      | (l, empty, s) =>
        if empty then (none, emptyDrop egress k s)
        else allocAll egress f { k with bufs := k.bufs ++ l } s

/-! ### Enqueue and release -/

/-- Put a packet at the tail of a queue; a congestion mark set at this enqueue is counted (R264, R266, R273). -/
def queuePut (q : Nat) (mark : Bool) (k : Pkt) (s : State) : State :=
  let k := { k with since := stamp64 s, plan := none, also := [], mark := mark || k.mark, hbm := none }
  let s := if mark then queueCount q 6 1 s else s
  queueCount q 1 k.md.len (queueCount q 0 1 (modQueue q (fun x => { x with pkts := x.pkts ++ [k] })
    (bankEvent (40 + servingSlice s q) 0 16 1 (powTally (64 + 2 * (q % 16 / 2)) 1 s))))

/-- Extend a VOQ's chain by a packet whose new buffers are given: the buffers that hold it (R225). -/
def chainPut (q len : Nat) (new : List Nat) (s : State) : List Nat × State :=
  match tget s.td.queues q with
  | none => (new, s)
  | some x =>
    let room := tailRoom s q
    let (bufs, chain) := match x.chain with
      | some (b, used) =>
        if len ≤ room then ([b], some (b, ceilDiv used 64 * 64 + len))
        else ((if 0 < room then [b] else []) ++ new, match new.getLast? with
          | some l => some (l, (len - room - 1) % 1024 + 1)
          | none => some (b, 1024))
      | none => (new, match new.getLast? with
          | some l => some (l, (len - 1) % 1024 + 1)
          | none => none)
    (bufs, modQueue q (fun x => { x with chain := chain }) s)

/-- Release the buffers of a packet that has left VOQ q (R225, R231). -/
def voqRelease (q : Nat) (k : Pkt) (s : State) : State :=
  if k.md.det then releasePkt false k s else chainRelease q k.owner k.bufs s

/-- Take the head packet of a queue, counting the dequeue (R273). -/
def queueTake (q : Nat) (s : State) : Option Pkt × State :=
  match tget s.td.queues q with
  | none => (none, s)
  | some x => match x.pkts with
    | [] => (none, s)
    | k :: r => (some k, (if decide (q < s.td.v) && !k.md.det then voqCompleted q else id) <| queueCount q 3 k.md.len (queueCount q 2 1 (modQueue q (fun x => { x with pkts := r })
        (bankEvent (40 + servingSlice s q) 1 16 1 (powTally (65 + 2 * (q % 16 / 2)) 1 s)))))

/-- A packet that requested a transmit capture is dropped: its not-sent entry, in the FIFO of the egress port where its
system port is a local line port, else in that of its source port (R345, R431). -/
def capLost (k : Pkt) (s : State) : State :=
  match k.cap with
  | none => s
  | some id =>
    let p := match sysLocal s k.md.dsp with
      | some l => if l < 64 then l else k.md.port
      | none => k.md.port
    tsStore p id 0 false true k.own s

/-- Discard a packet that leaves queue q, counting it at drop counter c and in DROP_BYTES, and release its buffers. -/
def queueDiscard (q c : Nat) (k : Pkt) (s : State) : State :=
  let s := queueCount q 9 k.md.len (queueCount q c 1 s)
  capLost k (if q < s.td.v then voqRelease q k s else releasePkt true k s)

/-- Discard every packet of a queue, counting each at counter c (R271): how many, and the state. -/
def queueFlushAll (q c : Nat) (s : State) : Nat × State :=
  match tget s.td.queues q with
  | none => (0, s)
  | some x =>
    let n := x.pkts.length
    (n, (List.range n).foldl (fun s _ => match tget s.td.queues q with
      | some y => match y.pkts with
        | k :: r => queueDiscard q c k (modQueue q (fun y => { y with pkts := r }) s)
        | [] => s
      | none => s) s)

end Sys2Proof.Machine
end

