-- ==== Sys2Proof/Machine/GateOps.lean ====
section
/-! DEFINITION. Gate lists: the timeline of a port's gates, windows, and the start of a frame (R287 to R292). -/

namespace Sys2Proof.Machine

open Sys2Proof

/-- The entry in force at an offset of the cycle, in 2^-16 ns: its number, gate states and end; the last entry holds
until the cycle ends (R287). -/
def GateList.entryAt (g : GateList) (pos : Nat) : Nat × Nat × Nat := go g.entries 0 0
where
  /-- Walk the entries from number j, which begins at offset off. -/
  go : List (Nat × Nat) → Nat → Nat → Nat × Nat × Nat
    | [], j, _ => (j, 0xFF, g.cycle * nsU)
    | [(st, _)], j, _ => (j, st, g.cycle * nsU)
    | (st, iv) :: r, j, off => if pos < off + iv * nsU then (j, st, off + iv * nsU) else go r (j + 1) (off + iv * nsU)

/-- Gate states of a list's last entry. -/
def GateList.last (g : GateList) : Nat := match g.entries.getLast? with | some (st, _) => st | none => 0xFF

/-- The states of a running list at time x and how long they hold (R287, R294). -/
def GateList.at (g : GateList) (x : Nat) : Nat × Nat :=
  if x < g.t then (g.last, g.t)
  else
    let pos := (x - g.t) % (g.cycle * nsU)
    let (_, st, e) := g.entryAt pos
    (st, x - pos + e)

/-- Gate states of a port at time x, and until when they hold; none for ever (R287, R293). -/
def GatePort.at (g : GatePort) (x : Nat) : Nat × Option Nat :=
  match g.pend, g.run with
  | some n, r =>
    if n.t ≤ x then
      if n.clear then (0xFF, none) else let (st, e) := n.at x; (st, some e)
    else match r with
      | none => (0xFF, some n.t)
      | some r =>
        let whole := r.t + (n.t - r.t) / (r.cycle * nsU) * (r.cycle * nsU)
        if whole ≤ x then (r.last, some n.t)
        else let (st, e) := r.at x; (st, some (min e n.t))
  | none, some r => let (st, e) := r.at x; (st, some e)
  | none, none => (0xFF, none)

/-- The entries over one cycle: states, start and end in 2^-16 ns after the cycle's start (R287). -/
def GateList.segs (g : GateList) : List (Nat × Nat × Nat) := go g.entries 0
where
  /-- The entries from the one that begins at offset off. -/
  go : List (Nat × Nat) → Nat → List (Nat × Nat × Nat)
    | [], _ => []
    | [(st, _)], off => [(st, off, g.cycle * nsU)]
    | (st, iv) :: r, off => (st, off, off + iv * nsU) :: go r (off + iv * nsU)

/-- The first instant from x on at which a running list holds gate c shut: none where it never does. One cycle from x on
shows every state that the list will ever hold. -/
def GateList.shutFrom (g : GateList) (c x : Nat) : Option Nat :=
  if x < g.t ∧ !bit g.last c then some x
  else
    let y := max x g.t
    let n := g.cycle * nsU
    let pos := (y - g.t) % n
    ((g.segs ++ g.segs.map fun e => (e.1, e.2.1 + n, e.2.2 + n)).find? fun e => decide (pos < e.2.2) && !bit e.1 c).map
      fun e => y + (e.2.1 - pos)

/-- The end of the last whole cycle of a running list before the take-over of the list that follows it (R293). -/
def GateList.wholeEnd (r n : GateList) : Nat := min n.t (r.t + (n.t - r.t) / (r.cycle * nsU) * (r.cycle * nsU))

/-- The end of the window of class c that holds instant x, on the timeline that the port will follow, its pending list
included: x itself where the gate is shut there, none for a window without end (R288, R291). -/
def windowEnd (g : GatePort) (c x : Nat) : Option Nat :=
  match g.pend, g.run with
  | none, none => none
  | none, some r => r.shutFrom c x
  | some n, r =>
    let next (y : Nat) : Option Nat := if n.clear then none else n.shutFrom c y
    if n.t ≤ x then next x
    else match r with
      | none => next n.t
      | some r =>
        let w := r.wholeEnd n
        match if x < w then (r.shutFrom c x).filter fun e => decide (e < w) else none with
        | some e => some e
        | none => if max x w < n.t ∧ !bit r.last c then some (max x w) else next n.t

/-- Instants at which a list changes entry, in the two cycles after a (R287). -/
def GateList.edges (g : GateList) (a : Nat) : List Nat :=
  let n := g.cycle * nsU
  let k := (a - g.t) / n
  (List.range 4).flatMap fun j => g.segs.map fun e => g.t + (k + j) * n + e.2.1

/-- Instants up to b at which the gates of a port change, as far as they can bear on b: those of the last two cycles before b and
on either side of a take-over. What changes at all changes in each cycle, so the cycles before leave nothing that these do not. -/
def GatePort.edges (g : GatePort) (b : Nat) : List Nat :=
  let near (l : GateList) (b : Nat) : List Nat := l.edges (b - 2 * l.cycle * nsU)
  (g.run.toList.flatMap fun r => match g.pend with
    | some n => r.wholeEnd n :: near r (min b n.t)
    | none => near r b)
    ++ g.pend.toList.flatMap fun n => n.t :: if n.clear then [] else n.edges n.t ++ near n b

/-- The longest window of class c in a list, ns: none where it has none, and none inside for one without end (R288). -/
def GateList.longest (g : GateList) (c : Nat) : Option (Option Nat) :=
  if g.clear then some none
  else
    let total := (g.entries.dropLast.foldl (fun n e => n + e.2) 0)
    let segs := g.entries.dropLast ++ [(g.last, g.cycle - total)]
    if segs.all fun e => bit e.1 c then some none
    else
      let i := segs.findIdx fun e => !bit e.1 c
      let turned := segs.drop i ++ segs.take i
      let (best, _) := turned.foldl (fun (best, run) e => if bit e.1 c then (max best (run + e.2), run + e.2) else (best, 0)) ((0 : Nat), (0 : Nat))
      if best = 0 then none else some (some best)

/-- The gates of a port as they stand at time c: a pending list whose instant has come runs, and after GATE.CLEAR none does
(R293). -/
def GatePort.settled (g : GatePort) (c : Nat) : GatePort :=
  match g.pend with
  | some n => if n.t ≤ c then { g with run := if n.clear then none else some n, pend := none } else g
  | none => g

/-- Whether a port launches frames at a scheduled start: a list runs or is pending (R289). -/
def gated (s : State) (p : Nat) : Bool :=
  let g := (s.det.gates.getD p {}).settled (nowLin s)
  g.run.isSome || g.pend.isSome

/-- The MAC rate of a port, Mb/s. -/
def macRate (s : State) (p : Nat) : Nat :=
  match tget s.line.ports p with
  | some x => ethSpeed x.mode
  | none => 0

/-- Λ in 2^-16 ns (R289). -/
def launchLead (s : State) : Nat := (if s.fwd.profile = 2 then 600 else 1000) * nsU

/-- The scheduled start of a frame selected at t (R289). -/
def launchAt (s : State) (p t : Nat) : Nat := max (t + launchLead s) (s.det.gates.getD p {}).busy

/-- Time of n bytes at a rate in Mb/s, 2^-16 ns, rounded up. -/
def byteTime (n rate : Nat) : Nat := ceilDiv (n * 8000 * nsU) rate

/-- Whether the gate of class c permits a frame of transmitted length l that is selected at time t to start (R291). -/
def gatePermits (s : State) (p c l t : Nat) : Bool :=
  let st := launchAt s p t
  match windowEnd (s.det.gates.getD p {}) c st with
  | none => true
  | some e => decide (st < e) && decide ((l + 8) * 8000 * nsU ≤ (e - st) * macRate s p)

/-- Whether a frame of transmitted length l is longer than every window of class c in the port's lists (R292). -/
def gateTooLong (s : State) (p c l : Nat) : Bool :=
  let g := s.det.gates.getD p {}
  let ws := (g.run.toList ++ g.pend.toList).filterMap fun x => x.longest c
  !ws.isEmpty && ws.all fun w => match w with
    | none => false
    | some ns => decide (ns * macRate s p < (l + 8) * 8000)

/-- Change the gates of a port. -/
def modGate (p : Nat) (f : GatePort → GatePort) (s : State) : State := { s with det := { s.det with gates := lmod s.det.gates p f } }

/-- A GATE_LIST_PENDING, GATE_LIST_STARTED or GATE_RESTART payload: port handle, time, and what follows (Table 10-12). -/
def gatePay (p t : Nat) : List Byte := leBytes (handle 0x30 p) 4 ++ leBytes (tbLayout t) 10

/-- T of R293 for a list committed at a boundary of time c. -/
def gateTakeover (g : GatePort) (l : GateList) (c : Nat) : Nat :=
  let tmin := c + 2 * tideU
  let e0 := match (g.settled c).run with
    | none => tmin
    | some r => if tmin ≤ r.t then r.t else r.t + ceilDiv (tmin - r.t) (r.cycle * nsU) * (r.cycle * nsU)
  if l.clear then e0 else if e0 ≤ l.base then l.base else l.base + ceilDiv (e0 - l.base) (l.cycle * nsU) * (l.cycle * nsU)

/-- Commit a list for port p at the boundary of tide c, whose time is `at` (R293): it replaces a pending one, and
GATE_LIST_PENDING is raised. -/
def gateCommit (p c ct : Nat) (l : GateList) (s : State) : State :=
  let g := s.det.gates.getD p {}
  let t := gateTakeover g l ct
  raise 0x0B 1 (quarterUnit p) (gatePay p t ++ leBytes c 6)
    (modGate p (fun g => { g.settled ct with pend := some { l with t := t } }) s)

/-- Restart of a list after a step of the time base (R294): cycle 0 begins at or after now. -/
def GateList.restart (g : GateList) (now : Nat) : GateList :=
  { g with t := if now ≤ g.base then g.base else g.base + ceilDiv (now - g.base) (g.cycle * nsU) * (g.cycle * nsU) }

end Sys2Proof.Machine
end

