-- ==== Sys2Proof/Machine/SchedOps.lean ====
section
/-! DEFINITION. The scheduling tree: eligibility, the choice of a node among its children, shapers, and the port and
client nodes (R249 to R260). -/

namespace Sys2Proof.Machine

open Sys2Proof

/-! ### Places in the tree -/

/-- Change a node. -/
def modNode (h : Nat) (f : Node → Node) (s : State) : State := modTd (fun t => { t with nodes := tmodify t.nodes h f }) s

/-- The place and shapers of a node or queue. -/
def schedOf (s : State) (h : Nat) : Option Sched :=
  if hType h = 0xA0 then (tget s.td.queues (hIdx h)).map fun x => x.sch else (tget s.td.nodes h).map fun n => n.sch

/-- Change the place and shapers of a node or queue. -/
def modSched (h : Nat) (f : Sched → Sched) (s : State) : State :=
  if hType h = 0xA0 then modQueue (hIdx h) (fun x => { x with sch := f x.sch }) s
  else modNode h (fun n => { n with sch := f n.sch }) s

/-- The order of a child among its parent's children: its index, then its level (DESIGN CHOICE between levels). -/
def childKey (h : Nat) : Nat := hIdx h * 8 + (hType h - 0xA0)

/-- Children in ascending order. -/
def sortChildren (l : List Nat) : List Nat := (l.foldl (fun t c => tset t (childKey c) c) ([] : Tab Nat)).map fun e => e.2

/-- The children of a node in ascending order. -/
def childrenIn (s : State) (n : Nat) : List Nat :=
  let a := s.td.nodes.foldl (fun t e => if e.2.sch.parent = n then tset t (childKey e.1) e.1 else t) ([] : Tab Nat)
  let b := s.td.queues.foldl (fun t e => if e.2.sch.parent = n then tset t (childKey (handle 0xA0 e.1)) (handle 0xA0 e.1) else t) a
  b.map fun e => e.2

/-- The port of a node, or of the node that a queue hangs below. -/
def portOfNode (s : State) (h : Nat) : Option Nat :=
  if hType h = 0xA0 then
    match tget s.td.queues (hIdx h) with
    | some x => (tget s.td.nodes x.sch.parent).map fun n => n.port
    | none => none
  else (tget s.td.nodes h).map fun n => n.port

/-! ### Shapers (R258, R259) -/

/-- A shaper's tokens brought to time t (R259). -/
def Shaper.refill (x : Shaper) (t : Nat) : Shaper :=
  if x.rate = 0 then x
  else
    let (add, res) := tokensAdd (t - x.last) x.rate x.res
    { x with tok := min (x.tok + add) ((x.burst * 65536 : Nat) : Int), last := t, res := res }

/-- Whether a maximum shaper permits its child. -/
def Shaper.ok (x : Shaper) (t : Nat) : Bool := x.rate == 0 || decide (0 ≤ (x.refill t).tok)

/-- The time at which the tokens of a shaper in debt reach 0: none where they are at least 0 (R256, R259). -/
def Shaper.recovers (x : Shaper) : Option Nat :=
  if x.rate = 0 ∨ 0 ≤ x.tok then none else some (x.last + ceilDiv ((-x.tok).toNat * 8000000000 - x.res) x.rate)

/-- Charge a shaper with len bytes. -/
def Shaper.charge (x : Shaper) (t len : Nat) : Shaper :=
  if x.rate = 0 then x else let y := x.refill t; { y with tok := y.tok - ((len * 65536 : Nat) : Int) }

/-- A new shaper: tokens equal to its burst (R259). -/
def newShaper (rate burst t : Nat) : Shaper :=
  { rate := if rate = 0 then 0 else storedRate rate, burst := burst, tok := ((burst * 65536 : Nat) : Int), last := t }

/-- New settings of a shaper: its tokens carry over, clamped to the new burst (R270). -/
def setShaper (old new : Shaper) (t : Nat) : Shaper :=
  let o := old.refill t
  { o with rate := new.rate, burst := new.burst, tok := min o.tok ((new.burst * 65536 : Nat) : Int), last := t }

/-- Length charged by a node or queue of an adjustment (R260). -/
def charged (len : Nat) (adj : Int) : Nat := max 1 ((len : Int) + adj).toNat

/-! ### Eligibility (R253) -/

/-- Whether a port is held ineligible: powered off under R495. -/
def portHeld (s : State) (p : Nat) : Bool :=
  match tget s.line.ports p with
  | some x => x.poweredOff
  | none => match tget s.tr.ports p with
    | some x => x.poweredOff
    | none => false

/-- Whether queue q, of port p, has a head frame that its slice hands out and the gate permits at time t. -/
def queueGate (s : State) (p q t : Nat) : Bool :=
  match tget s.td.queues q with
  | some x => match x.pkts with
    | k :: _ => !sliceFenced s q && gatePermits s p x.cfg.gate (txLen s p k) t
    | [] => false
  | none => false

/-- Whether a child is eligible at time t (R253), with fuel for the levels. -/
def eligible (s : State) (p t : Nat) : Nat → Nat → Bool
  | 0, _ => false
  | f + 1, h =>
    match schedOf s h with
    | none => false
    | some x => x.max.ok t
        && if hType h = 0xA0 then queueGate s p (hIdx h) t else (childrenIn s h).any fun c => eligible s p t f c

/-- Whether an eligible child's minimum shaper makes it a committed one at time t (R253). -/
def minOk (s : State) (t h : Nat) : Bool :=
  match schedOf s h with
  | some x => decide (0 < x.min.rate) && x.min.ok t
  | none => false

/-- Whether a child is committed at time t (R253). -/
def committed (s : State) (p t h : Nat) : Bool := eligible s p t 5 h && minOk s t h

/-! ### Lists (R255, R256) -/

/-- Whether a child is in band b. -/
def inBand (s : State) (b c : Nat) : Bool :=
  match schedOf s c with
  | some y => y.band == b
  | none => false

/-- The children of node n that woke in a clock other than clk join the tails of the current rounds (R255, R256). -/
def joinWoken (clk n : Nat) (s : State) : State :=
  modNode n (fun x => if x.wakeClk = clk then x else { x with
    wake := [], wakeClk := clk
    cur := (List.range 8).map fun b => x.cur.getD b [] ++ x.wake.filter (inBand s b) }) s

/-- Bring the lists of node n of port p in line at time t: children that are no longer eligible leave with deficit 0, and those
that became eligible wake with one quantum, to join the current round after this clock (R255, R256). -/
def refreshNode (p t n : Nat) (s : State) : State :=
  let s := joinWoken (coreClocks t) n s
  match tget s.td.nodes n with
  | none => s
  | some x =>
    let kids := childrenIn s n
    let el := kids.filter (eligible s p t 5)
    let new := el.filter fun c => !(x.wake.contains c || (x.cur ++ x.nxt).any fun l => l.contains c)
    let s := (kids.filter fun c => !el.contains c).foldl (fun s c => modSched c (fun y => { y with deficit := 0 }) s) s
    let s := new.foldl (fun s c => modSched c (fun y => { y with deficit := 64 * y.quantum }) s) s
    let stay (l : List Nat) : List Nat := l.filter fun c => el.contains c
    modNode n (fun x => { x with cur := x.cur.map stay, nxt := x.nxt.map stay, wake := sortChildren (stay x.wake ++ new) }) s

/-- The nodes of a port's subtree. -/
def nodesOf (s : State) (p : Nat) : List Nat := (s.td.nodes.filter fun e => e.2.port == p).map fun e => e.1

/-- Bring the lists of a port's subtree in line at one time. -/
def refreshAt (p t : Nat) (s : State) : State := (nodesOf s p).foldl (fun s n => refreshNode p t n s) s

/-- The queues of a port's subtree, ascending. -/
def queuesOfPort (s : State) (p : Nat) : List Nat :=
  (s.td.queues.filter fun e => decide (s.td.v ≤ e.1) && portOfNode s (handle 0xA0 e.1) == some p).map fun e => e.1

/-- Instants up to t at which a child of a port's subtree may have become eligible or ineligible by time alone: a shaper recovers,
a gate opens or shuts, or a head frame no longer fits before its window ends (R253). -/
def turningPoints (s : State) (p t : Nat) : List Nat :=
  let lead := launchLead s
  let gates := (s.det.gates.getD p {}).edges (t + lead)
  let fits := (queuesOfPort s p).flatMap fun q => match tget s.td.queues q with
    | some x => match x.pkts with
      | k :: _ => if gates.isEmpty then [] else
        let d := lead + byteTime (txLen s p k + 8) (macRate s p)
        gates.map fun e => e + 1 - d
      | [] => []
    | none => []
  ((nodesOf s p ++ (queuesOfPort s p).map (handle 0xA0)).filterMap fun h => (schedOf s h).bind fun y => y.max.recovers)
    ++ gates.map (fun e => e - lead) ++ fits

/-- Bring the lists of a port's subtree in line up to time t, through every change that time alone has made since they last
were: a child whose gate has shut and opened again has left and woken (R255). -/
def refreshTo (p t : Nat) (s : State) : State :=
  match tget s.td.nodes (handle 0xA1 p) with
  | none => s
  | some x =>
    let points := ((turningPoints s p t).foldl (fun l e => if x.seen < e ∧ e < t then tset l e () else l) ([] : Tab Unit)).map fun e => e.1
    modNode (handle 0xA1 p) (fun x => { x with seen := t }) ((points ++ [t]).foldl (fun s e => refreshAt p e s) s)

/-- Bring the lists of a port's subtree in line. -/
def refreshPort (p : Nat) (s : State) : State := refreshTo p (nowLin s) s

/-- The last instant of the clock of 1.2 GHz before the one that holds time t. -/
def clockBefore (t : Nat) : Nat := ceilDiv (coreClocks t * 10 * nsU) 12 - 1

/-- The lists of a port's subtree as the selections of the clock at time t find them: without what wakes in that clock (R256). -/
def refreshSelect (p t : Nat) (s : State) : State :=
  let s := match tget s.td.nodes (handle 0xA1 p) with
    | some x => if x.seen < clockBefore t then refreshTo p (clockBefore t) s else s
    | none => s
  (nodesOf s p).foldl (fun s n => joinWoken (coreClocks t) n s) s

/-! ### Choosing (R254) -/

/-- The first committed child of a band after rr_ptr, cyclically, among those that the lists hold at time t. -/
def committedChild (s : State) (t : Nat) (x : Node) (b : Nat) : Option Nat :=
  let l := sortChildren ((x.cur.getD b [] ++ x.nxt.getD b []).filter (minOk s t))
  match l.find? fun c => decide (x.rr.getD b 0 < childKey c + 1) with
  | some c => some c
  | none => l.head?

/-- The deficit round robin of one band of node n, with fuel; `cand` gives a child's candidate queue and the state after
choosing it. -/
def drr (n b : Nat) (cand : Nat → State → Option (Nat × State)) : Nat → State → Option (Nat × State)
  | 0, _ => none
  | f + 1, s =>
    match tget s.td.nodes n with
    | none => none
    | some x =>
      match x.cur.getD b [] with
      | [] => none
      | c :: r =>
        match schedOf s c, cand c s with
        | some y, some (q, s') =>
          let len := match tget s.td.queues q with
            | some z => match z.pkts with | k :: _ => charged k.md.len x.sch.adj | [] => 1
            | none => 1
          if len ≤ y.deficit then some (q, modSched c (fun y => { y with deficit := y.deficit - len }) s')
          else
            let s := modSched c (fun y => { y with deficit := y.deficit + 64 * y.quantum }) s
            let nxt := x.nxt.getD b [] ++ [c]
            let (cur, nxt) := if r.isEmpty then (nxt, []) else (r, nxt)
            drr n b cand f (modNode n (fun x => { x with cur := lset x.cur b cur, nxt := lset x.nxt b nxt }) s)
        -- A child whose last candidate has gone is no longer eligible.
        | _, _ => drr n b cand f (modNode n (fun x => { x with cur := lset x.cur b r }) s)

/-- The choice of node n (R254) at time t, with fuel for the levels: the queue, whether the choice was made in pass 1, and
the state. Deterministic queues win over every best-effort child in both passes: where band 0 of a port node has an eligible
child, pass 1 is left out (DEDUCED from R254's text, notes/assumptions). -/
def choose (t : Nat) : Nat → Nat → State → Option (Nat × Bool × State)
  | 0, _, _ => none
  | f + 1, n, s =>
    let cand (c : Nat) (s : State) : Option (Nat × State) :=
      if hType c = 0xA0 then some (hIdx c, s) else (choose t f c s).map fun r => (r.1, r.2.2)
    let first : Bool := match tget s.td.nodes n with
      | some x => decide (x.level = 0) && !((x.cur.getD 0 []).isEmpty && (x.nxt.getD 0 []).isEmpty)
      | none => false
    let pass1 : Option (Nat × Bool × State) := if first then none else (List.range 8).findSome? fun b =>
      match tget s.td.nodes n with
      | none => none
      | some x => match committedChild s t x b with
        | some c =>
          (cand c (modNode n (fun x => { x with rr := lset x.rr b (childKey c + 1) }) s)).map fun r => (r.1, true, r.2)
        | none => none
    pass1.orElse fun _ => (List.range 8).findSome? fun b =>
      match tget s.td.nodes n with
      | none => none
      | some x =>
        let s := if (x.cur.getD b []).isEmpty then
            modNode n (fun x => { x with cur := lset x.cur b (x.nxt.getD b []), nxt := lset x.nxt b [] }) s
          else s
        (drr n b cand (((x.cur.getD b []).length + (x.nxt.getD b []).length + 1) * 260) s).map fun r => (r.1, false, r.2)

/-- The nodes above a node or queue, with itself first, with fuel for the levels. -/
def pathUp (s : State) : Nat → Nat → List Nat
  | 0, _ => []
  | f + 1, h => match schedOf s h with
    | some x => h :: (if x.parent = 0 then [] else pathUp s f x.parent)
    | none => []

/-- Charge the shapers on the path of a packet of len bytes from queue q to its port node (R254, R259, R260). -/
def chargePath (q len : Nat) (s : State) : State :=
  (pathUp s 5 (handle 0xA0 q)).foldl (fun s h => modSched h (fun x =>
    { x with min := x.min.charge (nowLin s) (charged len x.adj), max := x.max.charge (nowLin s) (charged len x.adj) }) s) s

/-! ### Port and client nodes (R252, Table 9-4) -/

/-- Nodes of a level in the quarter of port p (R249). -/
def quarterCount (s : State) (level p : Nat) : Nat :=
  (s.td.nodes.filter fun e => e.2.level == level && e.2.port / 16 == p / 16).length

/-- Give port p its port node with the settings of Table 9-4, or set an existing one to them: its tokens carry over, and a change
that awaits the boundary is void (R252, R270). -/
def portNodePut (p rate : Nat) (s : State) : State :=
  let h := handle 0xA1 p
  let new := newShaper rate 32768 (nowLin s)
  match tget s.td.nodes h with
  | some n =>
    let sch : Sched := { n.sch with adj := 20, min := {}, max := setShaper n.sch.max new (nowLin s) }
    modNode h (fun n => { n with top := rate, sch := sch }) (modTd (fun t => { t with nodePend := terase t.nodePend h }) s)
  | none =>
    let n : Node := { level := 0, port := p, top := rate, seen := nowLin s, sch := { adj := 20, min := {}, max := new } }
    modTd (fun t => { t with nodes := tset t.nodes h n }) s

/-- Handle type of a level. -/
def levelType (l : Nat) : Nat := 0xA1 + l

/-- Instances of a level (Table 9-1). -/
def levelMax (l : Nat) : Nat := if l = 1 then 4096 else if l = 2 then 65536 else 262144

/-- The lowest free index of a level. -/
def nodeIdx (s : State) (l : Nat) (reserved : List Nat) : Option Nat :=
  lowestFreeBut (s.td.nodes.filterMap fun e => if e.2.level = l then some (hIdx e.1, ()) else none) reserved (levelMax l)

/-- The rate of a packet client (R252). -/
def clientRate (o : Odu) : Nat :=
  if o.term = 4 then 10000000000 else if o.term = 5 then 100000000000
  else Config.clientRate o.term ((List.range 320).foldl (fun n i => n + b2n (bit o.slots i)) 0)

/-- Whether the quarter of transport port p has a group-A node left for a packet client (R249, R252). -/
def clientNodeFree (p : Nat) (s : State) : Bool :=
  decide (quarterCount s 1 p < 1024) && (nodeIdx s 1 (reservedIdx s 0xA2)).isSome

/-- Create the group-A node of a packet client on transport port p (R252). -/
def clientNodePut (p client rate : Nat) (s : State) : State :=
  match nodeIdx s 1 (reservedIdx s 0xA2) with
  | some i =>
    let sch : Sched := { parent := handle 0xA1 p, max := newShaper rate 32768 (nowLin s) }
    let n : Node := { level := 1, port := p, client := some client, top := rate, sch := sch }
    modTd (fun t => { t with nodes := tset t.nodes (handle 0xA2 i) n }) s
  | none => s

/-- Delete the group-A node of a packet client; what hung below it has no parent (R252). -/
def clientNodeDrop (client : Nat) (s : State) : State :=
  let gone := (s.td.nodes.filter fun e => e.2.client == some client).map fun e => e.1
  gone.foldl (fun s h => modTd (fun t => { t with
    nodes := tmap (terase t.nodes h) fun _ n => if n.sch.parent = h then { n with sch := { n.sch with parent := 0 } } else n
    queues := tmap t.queues fun _ x => if x.sch.parent = h then { x with sch := { x.sch with parent := 0 } } else x }) s) s

/-- The packet client whose node lies on the path of a queue. -/
def clientOfQueue (s : State) (q : Nat) : Option Nat :=
  (pathUp s 5 (handle 0xA0 q)).findSome? fun h => match tget s.td.nodes h with | some n => n.client | none => none

end Sys2Proof.Machine
end

