-- ==== Sys2Proof/Machine/FabOps.lean ====
section
/-! DEFINITION. Operations of the fabric interface: usable lanes, flits, credit of the VOQs, statuses, tokens and the
local turnaround (R15, R308 to R328). -/

namespace Sys2Proof.Machine

open Sys2Proof

/-- Change the fabric interface. -/
def modFab (f : FabSt → FabSt) (s : State) : State := { s with fab := f s.fab }

/-- The unit of fabric lane l (R308). -/
def fabUnit (l : Nat) : Nat := unitOf (67 + l / 8 % 12) (l % 8)

/-- Add n to device counter k of the fabric (R330). -/
def fabCount (k n : Nat) (s : State) : State := ctrAdd48 0x0C 8 (fabUnit 0) (pay [(255, 1), (k, 1)]) 0x4C 0 k n s

/-- Add n to counter k of fabric lane l (R330). -/
def fabLaneCount (l k n : Nat) (s : State) : State := ctrAdd48 0x0C 8 (fabUnit l) (pay [(l, 1), (k, 1)]) 0x4C (l + 1) k n s

/-! ### Lanes (R308 to R310, R324 to R326) -/

/-- Lane payload rate in Gb/s of octet k, 0 where it is off (R308). -/
def octetRho (s : State) (k : Nat) : Nat :=
  if bit s.fab.octets k then [0, 50, 100, 200].getD (bits s.fab.rates (2 * k + 1) (2 * k)) 0 else 0

/-- Whether fabric lane l is usable: up locally and received up by the far end (R310). -/
def laneUsable (s : State) (l : Nat) : Bool :=
  decide (0 < octetRho s (l / 8)) && !domOut s (67 + l / 8) && match s.fab.lanes[l]? with
    | some x => x.up && x.far
    | none => false

/-- The peer of bundle b in mesh mode (R325). -/
def bundlePeer (s : State) (b : Nat) : Nat := (s.fab.dev + b + 1) % 4

/-- Whether fabric lane l may carry what goes to or comes from device d: in mesh mode it is of the bundle wired to d. -/
def laneWired (s : State) (l d : Nat) : Bool := !s.fab.mesh || bundlePeer s (l / 32) == d

/-- Whether lane l reaches device d (R324). -/
def laneReaches (s : State) (l d : Nat) : Bool :=
  laneUsable s l && laneWired s l d && match s.fab.lanes[l]? with
    | some x => !x.noReach.contains d
    | none => false

/-- The usable lanes that reach device d, ascending. -/
def lanesTo (s : State) (d : Nat) : List Nat := (List.range 96).filter fun l => laneReaches s l d

/-! ### Flits (Tables 11-1 and 11-2, R313) -/

/-- Sixteen bytes whose last is the CRC-8 of the first fifteen; x holds bits [127:8]. -/
def flitOf (x : Nat) : List Byte := beBytes (x * 256 + crc8 x 120) 16

/-- Bits [127:8] of a flit or header. -/
def flitTop (bs : List Byte) : Nat := beNat (bs.take 15)

/-- Whether the CRC-8 of a flit or header holds. -/
def flitOk (bs : List Byte) : Bool := crc8 (flitTop bs) 120 == byteAt bs 15

/-- Field [hi:lo] of a flit, bits numbered as Tables 11-1 and 11-2 number them. -/
def flitBits (bs : List Byte) (hi lo : Nat) : Nat := bits (beNat (bs.take 16)) hi lo

/-- A status flit (Table 11-2). -/
def statusFlit (det : Bool) (cls dev dst sysp backlog ccum g : Nat) : List Byte :=
  flitOf (2 * 2 ^ 116 + b2n det * 2 ^ 115 + cls % 8 * 2 ^ 112 + dev % 1024 * 2 ^ 102 + dst % 1024 * 2 ^ 92
    + sysp % 65536 * 2 ^ 76 + backlog % 2 ^ 24 * 2 ^ 52 + ccum % 2 ^ 24 * 2 ^ 28 + g % 2 ^ 20 * 2 ^ 8)

/-- A token flit (Table 11-2). -/
def tokenFlit (det : Bool) (cls dev dst sysp gcum : Nat) : List Byte :=
  flitOf (3 * 2 ^ 116 + b2n det * 2 ^ 115 + cls % 8 * 2 ^ 112 + dev % 1024 * 2 ^ 102 + dst % 1024 * 2 ^ 92
    + sysp % 65536 * 2 ^ 76 + gcum % 2 ^ 24 * 2 ^ 52)

/-- Send a control flit for VOQ q towards device d, on the lane that the VOQ's hash chooses among the usable lanes that
reach it (R314), where it waits for the next control slot (R316); whether there is one. -/
def sendControl (q d : Nat) (flit : List Byte) (s : State) : Bool × State :=
  let ls := if mayDrive s then lanesTo s d else []
  match ls[Config.voqLane q % ls.length]? with
  | some l => (true, modFab (fun f => { f with lanes := lmod f.lanes l fun x => { x with ctl := x.ctl ++ [flit] } }) s)
  | none => (false, s)

/-- Change a receive flow. -/
def modRx (key : Nat) (f : RxFlow → RxFlow) (s : State) : State := modFab (fun y => { y with rx := tset y.rx key (f (tgetD y.rx key {})) }) s

/-- The packet being assembled is dropped, and its on-die cells are released (R318). -/
def dropOpen (key : Nat) (s : State) : State :=
  let bufs := (tgetD s.fab.rx key {}).bufs
  bufReleaseAll 1 bufs 1 releaser (modRx key (fun f => { f with open_ := none, bufs := [] }) s)

/-! ### Credit of a VOQ (R319) -/

/-- Token state of VOQ q. -/
def credOf (s : State) (q : Nat) : Option (VoqSet × Credit) :=
  match tget s.td.sets (q / 8) with
  | some v => v.cred[q % 8]?.map fun c => (v, c)
  | none => none

/-- Change the token state of VOQ q. -/
def modCred (q : Nat) (f : Credit → Credit) (s : State) : State :=
  modTd (fun t => { t with sets := tmodify t.sets (q / 8) fun v => { v with cred := lmod v.cred (q % 8) f } }) s

/-- C_cum (R319). -/
def Credit.ccum (c : Credit) : Nat := c.sent / 4096 % 2 ^ 24

/-- The credit in bytes, without wrap (R319). -/
def Credit.credit (c : Credit) : Int := 4096 * (c.tokens : Int) - c.sent

/-- The credit on which the start decisions of a clock rest: a token message of the same clock comes after them (R319). -/
def Credit.startCredit (clk : Nat) (c : Credit) : Int := c.credit - if c.lateClk = clk + 1 then 4096 * (c.late : Int) else 0

/-- Cell bytes that a packet of frame length len is charged with (R312, R319). -/
def cellBytes (len : Nat) : Nat := ceilDiv (len + 32) 256 * 256

/-! ### The scheduler's view (R320, R322, R323) -/

/-- Key of a VOQ at the credit scheduler: local destination, ingress device, system port and class. -/
def demandKey (dest dev sysp cls : Nat) : Nat := ((dest * 1024 + dev) * 65536 + sysp) * 8 + cls

/-- Take a status message at local destination dest (R320, R323). -/
def takeStatus (dest dev sysp cls : Nat) (det : Bool) (backlog ccum g : Nat) (s : State) : State :=
  let key := demandKey dest dev sysp cls
  let d := tgetD s.fab.demands key {}
  let d := if !d.seen || decide ((ccum + 2 ^ 24 - d.ccum) % 2 ^ 24 < 2 ^ 23) then
      { d with seen := true, det := det, backlog := backlog, ccum := ccum } else d
  let own := tgetD s.fab.grants key 0
  let sec := s.tm.tide / 8000 + 1
  if own < g then
    let s := fabCount 16 1 s
    let s := if d.misSec = sec then s
      else raise 0x0C 7 (fabUnit 0) (pay [(dev, 2), (sysp, 2), (cls, 1), (g, 4), (own, 4)]) s
    modFab (fun f => { f with demands := tset f.demands key { d with misSec := sec } }) s
  else modFab (fun f => { f with demands := tset f.demands key d }) s

/-- A VOQ sends a status message: over a lane, or to its own scheduler where its system port is local (R320, R15). A set
whose system port has no valid entry sends none (R315). -/
def sendStatus (q : Nat) (s : State) : State :=
  match credOf s q, tget s.td.queues q with
  | some (v, c), some x =>
    match tget s.fab.sysp v.dsp with
    | none => s
    | some (d, l) =>
      let backlog := min (ceilDiv x.depth 64) (2 ^ 24 - 1)
      let det := bit v.mask (q % 8)
      let g := if det then c.g else 0
      let s := modCred q (fun c => { c with lastC := c.ccum, hadBacklog := !x.pkts.isEmpty, lastStatus := elapsed s }) s
      if d = s.fab.dev then takeStatus l d v.dsp (q % 8) det backlog c.ccum g s
      else match sendControl q d (statusFlit det (q % 8) s.fab.dev d v.dsp backlog c.ccum g) s with
        | (true, s) => fabCount 11 1 s
        | (false, s) => s
  | _, _ => s

/-- Send a status where the backlog has changed from or to 0, or C_cum has changed (R320). -/
def statusCheck (q : Nat) (s : State) : State :=
  match credOf s q, tget s.td.queues q with
  | some (_, c), some x => if c.ccum ≠ c.lastC ∨ c.hadBacklog = x.pkts.isEmpty then sendStatus q s else s
  | _, _ => s

/-- Charge VOQ q for the start of a packet (R319). -/
def chargeVoq (q len : Nat) (s : State) : State := modCred q (fun c => { c with sent := c.sent + cellBytes len }) s

/-! ### Local turnaround (R15, R226) -/

/-- Move packets of VOQ q to TD egress while it holds credit and its system port is local, with fuel. -/
def turnaround (q : Nat) : Nat → State → State
  | 0, s => s
  | f + 1, s =>
    match credOf s q with
    | none => s
    | some (v, c) =>
      if (sysLocal s v.dsp).isNone || decide (c.credit ≤ 0) || sliceFenced s q then s
      else match queueTake q s with
        | (none, _) => s
        | (some k, s) =>
          let s := chargeVoq q k.md.len s
          let k := { k with voq := some q }
          let k := if k.md.det then k else { k with owner := 2, bufs := [], hbm := some (q, k.owner, k.bufs) }
          let k := { k with plan := none, since := elapsed s }
          turnaround q f (statusCheck q (modTd (fun t => { t with egress := t.egress ++ [k] }) s))

/-- Serve VOQ q: the local turnaround while credit lasts; a standby dequeues none (R403). -/
def serveVoq (q : Nat) (s : State) : State :=
  match tget s.td.queues q with
  | some x => if mayDrive s then turnaround q x.pkts.length s else s
  | none => s

/-- A token message reaches VOQ q with a G_cum (R321). It comes after the start decisions of its clock (R319); a set whose
system port has no valid entry receives none (R315). -/
def takeToken (q gcum : Nat) (s : State) : State :=
  match credOf s q with
  | none => s
  | some (v, c) =>
    let d := (gcum + 2 ^ 24 - c.gcum) % 2 ^ 24
    if !thas s.fab.sysp v.dsp then s
    else if 1 ≤ d ∧ d < 2 ^ 23 then
      let clk := bufClock s
      serveVoq q (modCred q (fun c => { c with
        gcum := gcum, tokens := c.tokens + d, late := if c.lateClk = clk + 1 then c.late + d else d, lateClk := clk + 1 }) s)
    else fabCount 15 1 s

/-! ### Issuing tokens (R322) -/

/-- The unit of the bucket counts: a byte in 2^-27 x 10^-9 byte. -/
def creditUnit : Nat := 2 ^ 27 * 1000000000

/-- 256 times R_c(p), b/s: the credit factor times the stored maximum rate of the port node, or 800 Gb/s for the host. -/
def creditRate (s : State) (p : Nat) : Nat :=
  (s.fab.dests.getD p {}).factor * if p = 64 then 800000000000 else
    match tget s.td.nodes (handle 0xA1 p) with
    | some n => n.sch.max.rate
    | none => 0

/-- holding(v), signed (R322). -/
def Demand.holding (d : Demand) : Int := signed 24 ((d.gcum + 2 ^ 24 - d.ccum) % 2 ^ 24)

/-- need(v) (R322). -/
def Demand.need (d : Demand) : Int := 64 * (d.backlog : Int) - 4096 * d.holding

/-- Bytes held for local destination p in the egress buffer (R322). -/
def egressHeld (s : State) (p : Nat) : Nat :=
  ((s.td.egress ++ (s.td.queues.filter fun e => decide (s.td.v ≤ e.1)).flatMap fun e => e.2.pkts).filter fun k =>
    sysLocal s k.md.dsp == some p).foldl (fun n k => n + k.md.len) 0

/-- Whether best-effort tokens of local destination p are withheld by backpressure. -/
def backpressure (s : State) (p : Nat) : Bool :=
  let bp := (s.fab.dests.getD p {}).bp
  decide (0 < bp) && decide (bp < egressHeld s p)

/-- Bring the buckets of local destination p to now. -/
def creditRefill (p : Nat) (s : State) : State :=
  let x := s.fab.dests.getD p {}
  let dt := elapsed s - x.last
  let port : Int := min (x.port + (creditRate s p * dt : Nat)) ((4 * 4096 * creditUnit : Nat) : Int)
  modFab (fun f => { f with
    dests := lset f.dests p { x with port := port, last := elapsed s }
    demands := f.demands.map fun e =>
      let g := tgetD f.grants e.1 0
      if e.1 / 2 ^ 29 = p ∧ 0 < g then (e.1, { e.2 with gb := min (e.2.gb + g * 10000000 * 256 * dt) (4096 * creditUnit) })
      else e }) s

/-- The next of some demands after a round-robin position, cyclically. -/
def nextAfter (rr : Nat) (l : Tab Demand) : Option (Nat × Demand) :=
  match l.find? fun e => decide (rr ≤ e.1) with
  | some e => some e
  | none => l.head?

/-- The VOQ that the scheduler of p serves now: its key, and its place among the round robins (8 for guaranteed ones). -/
def creditPick (s : State) (p : Nat) : Option (Nat × Nat) :=
  let x := s.fab.dests.getD p {}
  let able (d : Demand) : Bool := decide (0 < d.need) && decide (d.holding < x.maxOut)
  let mine := s.fab.demands.filter fun e => e.1 / 2 ^ 29 == p && able e.2
  let guaranteed (e : Nat × Demand) : Bool := decide (0 < tgetD s.fab.grants e.1 0)
  match nextAfter (x.rr.getD 8 0) (mine.filter fun e => guaranteed e && decide (4096 * creditUnit ≤ e.2.gb)) with
  | some e => some (e.1, 8)
  | none =>
    if x.port < ((4096 * creditUnit : Nat) : Int) ∨ backpressure s p then none
    else [7, 6, 5, 4, 3, 2, 1, 0].findSome? fun c =>
      (nextAfter (x.rr.getD c 0) (mine.filter fun e => !e.2.det && e.1 % 8 == c)).map fun e => (e.1, c)

/-- Send the latest token message of a VOQ known at the scheduler: over a lane, or to its own VOQ (R321). -/
def sendToken (key : Nat) (s : State) : State :=
  match tget s.fab.demands key with
  | none => s
  | some d =>
    let dev := key / 2 ^ 19 % 1024
    let sysp := key / 8 % 65536
    let cls := key % 8
    if dev = s.fab.dev then
      match setOf s.td.sets sysp with
      | some (first, _) => takeToken (first + cls) d.gcum s
      | none => s
    else match sendControl key dev (tokenFlit d.det cls s.fab.dev dev sysp d.gcum) s with
      | (true, s) => fabCount 13 1 s
      | (false, s) => s

/-- One run of the credit scheduler of local destination p: it runs once in each TD core clock (R322). -/
def creditRun (p : Nat) (s : State) : State :=
  let again := (s.fab.dests.getD p {}).ran = bufClock s + 1
  let s := modFab (fun f => { f with dests := lmod f.dests p fun x => { x with ran := bufClock s + 1 } }) (creditRefill p s)
  match if mayDrive s && !again then creditPick s p else none with
  | none => s
  | some (key, r) =>
    sendToken key (modFab (fun f => { f with
      demands := tmodify f.demands key fun d =>
        { d with gcum := (d.gcum + 1) % 2 ^ 24, gb := if r = 8 then d.gb - 4096 * creditUnit else d.gb }
      dests := lmod f.dests p fun x => { x with port := x.port - ((4096 * creditUnit : Nat) : Int), rr := lset x.rr r (key + 1) } }) s)

/-! ### Reachability (R317, R324, R328) -/

/-- Devices that the system-port table names, the K12 itself left out, ascending. -/
def fabDevices (s : State) : List Nat :=
  (s.fab.sysp.foldl (fun t e => if e.2.1 = s.fab.dev then t else tset t e.2.1 ()) ([] : Tab Unit)).map fun e => e.1

/-- Devices that remote members of the streams name (R328). -/
def streamDevices (s : State) : List Nat :=
  (s.det.streams.foldl (fun t e => e.2.cfg.members.foldl (fun t m =>
    match (tget s.fwd.cfg.nhs (hIdx m.nh)).bind fun nh => tget s.fab.sysp nh.dsp with
    | some (d, _) => if d = s.fab.dev then t else tset t d ()
    | none => t) t) ([] : Tab Unit)).map fun e => e.1

/-- Drop the rest of a packet that is being sent to a device that no usable lane reaches (R317). -/
def dropUnreached (s : State) : State :=
  s.fab.tx.foldl (fun s e => match e.2.cur with
    | none => s
    | some (q, k, _) =>
      if (lanesTo s (e.1 / 2)).isEmpty then
        capLost k <| voqRelease q k (fabCount 10 1 (modFab (fun f => { f with tx := tmodify f.tx e.1 fun x => { x with cur := none } }) s))
      else s) s

/-- Whether the usable lanes that reach a device that a stream names are below k_min (R328). -/
def deviceLow (s : State) (d : Nat) : Bool := decide ((lanesTo s d).length < s.fab.kmin)

/-- Raise what a change of the devices that streams name, or of the lanes that reach them, brings (R328). -/
def lowCheck (s : State) : State :=
  let s := (s.fab.degraded.filter fun d => !deviceLow s d).foldl (fun s d =>
    raise 0x0C 6 (fabUnit 0) (pay [(d, 2)]) (modFab (fun f => { f with degraded := f.degraded.filter fun x => x != d }) s)) s
  ((streamDevices s).filter fun d => deviceLow s d && !s.fab.degraded.contains d).foldl (fun s d =>
    raise 0x0C 5 (fabUnit 0) (pay [(d, 2), ((lanesTo s d).length, 1)]) (modFab (fun f => { f with degraded := f.degraded ++ [d] }) s)) s

/-- The system-port table names other devices: no reach of a device has changed, so no event comes (R324; DEDUCED,
assumption 86). -/
def renamed (s : State) : State :=
  lowCheck (modFab (fun f => { f with unreach := (fabDevices s).filter fun d => (lanesTo s d).isEmpty }) s)

/-- Raise what a change of the usable lanes or of their reach brings (R317, R324, R328). -/
def fabCheck (s : State) : State :=
  let s := dropUnreached s
  lowCheck ((fabDevices s).foldl (fun s d =>
    let out := (lanesTo s d).isEmpty
    if out = s.fab.unreach.contains d then s
    else if out then raise 0x0C 3 (fabUnit 0) (pay [(d, 2)]) (modFab (fun f => { f with unreach := f.unreach ++ [d] }) s)
    else raise 0x0C 4 (fabUnit 0) (pay [(d, 2)]) (modFab (fun f => { f with unreach := f.unreach.filter fun x => x != d }) s)) s)

end Sys2Proof.Machine
end

