-- ==== Sys2Proof/Machine/Admission.lean ====
section
/-! DEFINITION. Admission: the input of R295, the proof of Tables 10-2 and 10-4, and the breakdown of Table 10-6
(spec/10_deterministic_service.md). Times inside a walk are integers: 2^-16 ns times the port's rate in Mb/s. -/

namespace Sys2Proof.Machine

open Sys2Proof

/-! ### Exact fractions -/

/-- A non-negative fraction of ns; its denominator is not 0. -/
structure Frac where
  num : Nat
  den : Nat
  deriving DecidableEq, Repr

/-- A whole number of ns. -/
def Frac.ofNat (n : Nat) : Frac := ⟨n, 1⟩

/-- A quotient; where the divisor is 0 nothing bounds the term, and it counts as 2^64 ns. -/
def Frac.quot (a b : Nat) : Frac := if b = 0 then ⟨2 ^ 64, 1⟩ else ⟨a, b⟩

/-- The sum. -/
def Frac.add (a b : Frac) : Frac := ⟨a.num * b.den + b.num * a.den, a.den * b.den⟩

/-- The sum of a list. -/
def Frac.sum (l : List Frac) : Frac := l.foldl Frac.add ⟨0, 1⟩

/-- Rounded up. -/
def Frac.ceil (a : Frac) : Nat := ceilDiv a.num a.den

/-- Whether a is less than b. -/
def Frac.lt (a b : Frac) : Bool := decide (a.num * b.den < b.num * a.den)

/-! ### The admission input (R295) -/

/-- What the input holds of a line port. -/
structure AdmPort where
  /-- Enabled -/
  en : Bool
  /-- OFF permitted (R495) -/
  off : Bool
  /-- Tolerance T(p) of R488, ns: the larger of the one in force and the one that still counts (R491) -/
  tol : Nat
  /-- Rate in Mb/s, maximum frame length and MACsec bytes, where the port is on a stream path -/
  path : Option (Nat × Nat × Nat)
  deriving DecidableEq, Repr

/-- The admission input: the items of R295 as they would stand. -/
structure AdmIn where
  profile : Nat
  streams : Tab StreamCfg
  recs : Tab EgressRec
  frer : Tab (List Nat)
  /-- Running and pending list of each port that has one -/
  gates : Tab (Option GateList × Option GateList)
  /-- Deterministic queues, and the egress queues that streams and records name: port and settings -/
  queues : Tab (Option Nat × Bool × Nat)
  /-- VOQ sets with deterministic offsets: system port, mask and guarantees in 10 Mb/s -/
  sets : Tab (Nat × Nat × List Nat)
  /-- Next-hops that streams name -/
  nhs : Tab NextHop
  /-- Their encapsulations -/
  encaps : Tab Encap
  ports : Tab AdmPort
  /-- Mesh, F_fixed, tau, k_min, device ID, and the lowest lane payload rate in Gb/s -/
  fabric : List Nat
  /-- Device of each system port that a next-hop names -/
  devs : Tab (Nat × Nat)
  grants : Tab Nat
  /-- Credit factors, backpressure thresholds and max_out -/
  credit : List Nat
  /-- P and W of MEM.SET for the FD -/
  mem : Nat × Nat
  /-- Paired, and in D mode -/
  twin : Bool × Bool
  /-- All settings and the parent of the queues above -/
  cfgs : Tab (QueueCfg × Nat)
  /-- The tolerances set -/
  tols : Tols
  /-- The MACsec settings of the ports on a stream path -/
  secs : Tab SecY
  deriving DecidableEq, Repr

/-- T(p) of a set of tolerances (R488). -/
def portTol (t : Tols) (p : Nat) : Nat :=
  let x := tgetD t.ports p {}
  (List.range 8).foldl (fun n c => if bit x.mask c then min n (t.cls.getD c 0) else n) x.tol

/-- T(p) as admission counts it: a lowered tolerance takes effect two boundaries later (R491). -/
def admTol (s : State) (p : Nat) : Nat :=
  match s.pow.lag with
  | some (_, old) => max (portTol old p) (portTol s.pow.tol p)
  | none => portTol s.pow.tol p

/-- The declaration of a stream as it will be in force. -/
def Stream.eff (y : Stream) : StreamCfg := y.pend.getD y.cfg

/-- A queue's settings as they will be in force. -/
def Queue.eff (x : Queue) : QueueCfg := match x.pend with | some e => e.1 | none => x.cfg

/-- The largest number of bytes that a next-hop's encapsulation adds to a frame (R145, R153). -/
def Encap.grow (e : Encap) : Nat :=
  let labels := 4 * (e.count + if e.entropy then 2 else 0)
  if e.kind = 1 then labels
  else if e.kind = 3 then labels + 14
  else if e.kind = 4 then labels + 18
  else 14 + 40 + if e.count ≤ 1 then 0 else 8 + 16 * e.count

/-- Next-hop indices that the streams name. -/
def namedHops (l : Tab StreamCfg) : List Nat := (l.flatMap fun e => e.2.members.map fun m => hIdx m.nh).eraseDups

/-- The egress queue of a stream's member. -/
def memberQueue (nhs : Tab NextHop) (c : StreamCfg) (m : Member) : Nat :=
  match tget nhs (hIdx m.nh) with
  | some nh => (nh.qbase + c.cls) % 2 ^ 20
  | none => 0

/-- Ports on a stream path: of ingress, of local members, and of egress records. -/
def pathPorts (l : Tab StreamCfg) (r : Tab EgressRec) : List Nat :=
  ((l.flatMap fun e => e.2.port :: (e.2.members.filter fun m => !m.remote).map fun m => m.port) ++ r.map fun e => e.2.port).eraseDups

/-- Bytes that MACsec adds to a protected frame of a port (R75). -/
def macsecGrow (x : Port) : Nat := if x.secY.cipher = 0 then 0 else if x.secY.sciIn then 32 else 24

/-- The input of an Ethernet port. -/
def admPort (s : State) (path : List Nat) (p : Nat) (x : Port) : AdmPort :=
  let cfg := x.pendCfg.getD x.cfg
  { en := x.pendEn.getD x.inService, off := (tgetD s.pow.tol.ports p {}).off, tol := admTol s p
    path := if path.contains p then some (ethSpeed x.mode, cfg.maxLen, macsecGrow x) else none }

/-- The input of a transport port. -/
def admTport (s : State) (path : List Nat) (p : Nat) (x : TPort) : AdmPort :=
  { en := x.pendEn.getD x.enabled, off := (tgetD s.pow.tol.ports p {}).off, tol := admTol s p
    path := if path.contains p then some (Config.tportRate x.mode / 1000000, 9216, 0) else none }

/-- The lowest payload rate of the enabled fabric octets, Gb/s; 0 where none is enabled. -/
def lowestRho (s : State) : Nat :=
  ((List.range 12).map fun k => octetRho s k).foldl (fun n r => if r = 0 then n else if n = 0 then r else min n r) 0

/-- The admission input of a state, every change that awaits a tide boundary counted as made (R295). -/
def admIn (s : State) : AdmIn :=
  let streams := s.det.streams.map fun e => (e.1, e.2.eff)
  let hops := namedHops streams
  let nhs := s.fwd.cfg.nhs.filter fun e => hops.contains e.1
  let named := ((streams.flatMap fun e => e.2.members.map fun m => memberQueue nhs e.2 m) ++ s.det.recs.map fun e => hIdx e.2.queue)
  let path := pathPorts streams s.det.recs
  let chans := nhs.map fun e => e.2.dsp
  { profile := s.fwd.profile, streams := streams, recs := s.det.recs
    frer := s.det.frer.map fun e => (e.1, [b2n e.2.mtch, e.2.h, b2n e.2.takeNo, b2n e.2.dcw, e.2.timeout])
    gates := (s.det.gates.zipIdx).filterMap fun (g, p) =>
      let pend := g.next.getLast?.orElse fun _ => g.pend
      if g.run.isNone && pend.isNone then none else some (p, g.run, pend)
    queues := s.td.queues.filterMap fun e =>
      let c := e.2.eff
      if decide (s.td.v ≤ e.1) && (c.det || named.contains e.1) then some (e.1, portOfNode s (handle 0xA0 e.1), c.det, c.gate) else none
    sets := s.td.sets.filterMap fun e => if e.2.mask = 0 then none else some (e.1, e.2.dsp, e.2.mask, e.2.cred.map fun c => c.g)
    nhs := nhs
    encaps := s.fwd.cfg.encaps.filter fun e => nhs.any fun n => n.2.encap != 0 && hIdx n.2.encap == e.1
    ports := (s.line.ports.map fun e => (e.1, admPort s path e.1 e.2)) ++ s.tr.ports.map fun e => (e.1, admTport s path e.1 e.2)
    fabric := [b2n s.fab.mesh, s.fab.ffixed, s.fab.tau, s.fab.kmin, s.fab.dev, lowestRho s]
    devs := s.fab.sysp.filter fun e => chans.contains e.1
    grants := s.fab.grants
    credit := s.fab.dests.flatMap fun d => [d.factor, d.bp, d.maxOut]
    mem := (s.hbm.fd.p, s.hbm.fd.w)
    twin := (s.twin.st != 0, s.twin.dMode)
    cfgs := s.td.queues.filterMap fun e =>
      if decide (s.td.v ≤ e.1) && (e.2.eff.det || named.contains e.1) then
        some (e.1, e.2.eff, match e.2.pend with | some x => x.2.parent | none => e.2.sch.parent)
      else none
    tols := s.pow.tol
    secs := s.line.ports.filterMap fun e => if path.contains e.1 then some (e.1, e.2.secY) else none }

/-- Gate classes of the queues of each port that are not deterministic, as a mask (h(w) of R300). -/
def softGates (s : State) : Tab Nat :=
  s.td.queues.foldl (fun t e =>
    let c := e.2.eff
    if decide (s.td.v ≤ e.1) && !c.det then
      match portOfNode s (handle 0xA0 e.1) with
      | some p => tset t p (Nat.lor (tgetD t p 0) (2 ^ c.gate))
      | none => t
    else t) []

/-! ### Lengths and the members -/

/-- A frame source on an egress port: n, largest transmitted length, and whether it is the measured one. -/
structure Flow where
  n : Nat
  len : Nat
  i : Nat
  deriving DecidableEq, Repr

/-- L_tx of a member at its largest (R298): the next-hop's encapsulation and tags, the R-TAG and MACsec. -/
def memberLen (a : AdmIn) (c : StreamCfg) (m : Member) : Nat :=
  let hop := tget a.nhs (hIdx m.nh)
  let grow := match hop with
    | some nh => (if nh.dir = 2 then 4 else 0) + if nh.encap = 0 then 0 else
        match tget a.encaps (hIdx nh.encap) with
        | some e => e.grow
        | none => 0
    | none => 0
  let sec := match tget a.ports m.port with
    | some x => match x.path with
      | some (_, _, g) => g
      | none => 0
    | none => 0
  max 64 (c.lrx + grow + (if c.gen = 1 then 6 else 0) + sec)

/-- Rate of a port on a stream path, Mb/s. -/
def AdmIn.rate (a : AdmIn) (p : Nat) : Nat := match (tget a.ports p).bind fun x => x.path with | some (r, _, _) => r | none => 0

/-- Maximum frame length of a port on a stream path. -/
def AdmIn.maxLen (a : AdmIn) (p : Nat) : Nat := match (tget a.ports p).bind fun x => x.path with | some (_, l, _) => l | none => 0

/-- The local members and egress records on a port, each with a key that tells it from the others. -/
def flowsOn (a : AdmIn) (e : Nat) : List ((Nat × Nat) × Flow) :=
  (a.streams.flatMap fun x => (x.2.members.zipIdx).filterMap fun (m, i) =>
    if !m.remote && m.port == e then some ((x.1, i), ⟨x.2.n, memberLen a x.2 m, x.2.i⟩) else none)
  ++ a.recs.filterMap fun r => if r.2.port = e then some ((r.1, 4), ⟨r.2.n, r.2.ltx, r.2.i⟩) else none

/-- Gate class of an egress queue. -/
def AdmIn.gateOf (a : AdmIn) (q : Nat) : Nat := match tget a.queues q with | some (_, _, g) => g | none => 0

/-! ### Timelines (R288, R300) -/

/-- A judged timeline with the instants between which its windows are taken, 2^-16 ns. -/
structure Judged where
  g : GatePort
  lo : Nat
  hi : Nat
  /-- Cycle of a timeline of one list, ns -/
  cycle : Option Nat

/-- The timeline of one list: its third cycle, so that what precedes it is as in every cycle. -/
def judgedList (l : GateList) : Judged :=
  let c := l.cycle * nsU
  ⟨{ run := some l }, l.t + 2 * c, l.t + 3 * c, some l.cycle⟩

/-- The judged timelines of a port: the operating list, the pending one, and the transition, over two cycles before it
and one after (R300). -/
def judgedOf (a : AdmIn) (e : Nat) : List Judged :=
  match tget a.gates e with
  | none => [⟨{}, 0, 0, none⟩]
  | some (run, pend) =>
    let one (l : GateList) : Judged := if l.clear then ⟨{}, 0, 0, none⟩ else judgedList l
    let trans := match pend with
      | some n =>
        let c := max (match run with | some r => r.cycle | none => 0) n.cycle * nsU
        [(⟨{ run := run, pend := some n }, n.t - 2 * c, n.t + c, none⟩ : Judged)]
      | none => []
    run.toList.map one ++ pend.toList.map one ++ trans

/-- Steps that suffice to walk a timeline over a span: no entry is shorter than 8 ns (R287). -/
def spanFuel (d : Nat) : Nat := d / (8 * nsU) + 16

/-- The instants in (lo, hi] at which gate c closes, and the opening of a window without end, where there is one (none
inside: it was open from the start). -/
def closes (g : GatePort) (c hi : Nat) : Nat → Nat → Option (Option Nat) → List Nat × Option (Option Nat)
  | 0, _, since => ([], since)
  | f + 1, x, since =>
    let (st, e) := g.at x
    let isOpen := bit st c
    let here := if since.isSome && !isOpen then [x] else []
    let since' := if !isOpen then none else match since with
      | some o => some o
      | none => some (some x)
    if hi ≤ x then (here, if e.isNone then since' else none)
    else match e with
      | none => (here, since')
      | some y =>
        let (l, inf) := closes g c hi f y since'
        (here ++ l, inf)

/-- The closings of a judged timeline and its window without end. -/
def Judged.closes (j : Judged) (c : Nat) : List Nat × Option (Option Nat) :=
  if j.g.run.isNone && j.g.pend.isNone then ([], some none)
  else
    let start := if bit (j.g.at j.lo).1 c then some none else none
    let (l, inf) := Sys2Proof.Machine.closes j.g c j.hi (spanFuel (j.hi - j.lo)) j.lo start
    -- a class that a list keeps open throughout has one window without end
    if l.isEmpty && start.isSome && j.cycle.isSome then ([], some none) else (l, inf)

/-- The next instant after a moment, up to a limit of steps, at which gate c opens. -/
def nextOpen (g : GatePort) (c : Nat) : Nat → Nat → Bool → Option Nat
  | 0, _, _ => none
  | f + 1, x, was =>
    let (st, e) := g.at x
    if bit st c && !was then some x
    else match e with
      | none => none
      | some y => nextOpen g c f y (bit st c)

/-- Whether some gate of a mask is open at an instant of [x, y). -/
def anyOpen (g : GatePort) (mask y : Nat) : Nat → Nat → Bool
  | 0, _ => false
  | f + 1, x =>
    if y ≤ x then false
    else
      let (st, e) := g.at x
      Nat.land st mask != 0 || match e with
        | none => false
        | some z => anyOpen g mask y f z

/-- Occupancy and gate duration of a length, 2^-16 ns times the rate in Mb/s (R289). -/
def occU (len : Nat) : Nat := (len + 20) * 8000 * nsU
def durU (len : Nat) : Nat := (len + 8) * 8000 * nsU

/-- h(w) at an opening, in the same unit (R300); none: a window open from the start. -/
def hOf (g : GatePort) (soft rate maxLen : Nat) (at_ : Option Nat) : Nat :=
  match at_ with
  | none => if soft = 0 then 0 else occU maxLen
  | some o =>
    if Nat.land (g.at o).1 soft ≠ 0 then occU maxLen
    else
      let x := (o * rate - occU maxLen) / rate
      if anyOpen g soft o (spanFuel (o - x)) x then 96000 * nsU else 0

/-! ### The egress wait (R300) -/

/-- Put frames of a group into a window from t on while they fit before its end: how many are left, and the new t; where
the group ends here, t is the start of its last frame. -/
def fitFrames (n len t close : Nat) : Nat × Nat :=
  if close < t + durU len then (n, t)
  else
    let room := (close - t - durU len) / occU len + 1
    if n ≤ room then (0, t + (n - 1) * occU len) else (n - room, t + room * occU len)

/-- Put groups of frames into a window: the groups left, and t after the last frame placed, or the start of the last
frame of all where none is left. -/
def fitGroups (close : Nat) : List (Nat × Nat) → Nat → List (Nat × Nat) × Nat
  | [], t => ([], t)
  | (n, len) :: r, t =>
    if n = 0 then fitGroups close r t
    else match fitFrames n len t close with
      | (0, t') => if r.isEmpty then ([], t') else fitGroups close r (t' + occU len)
      | (m, t') => ((m, len) :: r, t')

/-- Walk the windows that open after a moment: the start of the last frame of the groups. -/
def placeWalk (g : GatePort) (c rate : Nat) (h : Option Nat → Nat) : Nat → Nat → List (Nat × Nat) → Nat → Option Nat
  | 0, _, _, _ => none
  | f + 1, after, groups, t =>
    match nextOpen g c (spanFuel (4000000000 * nsU)) after true with
    | none => none
    | some o =>
      let t := max t (o * rate + h (some o))
      let r := match windowEnd g c o with
        | some close => fitGroups (close * rate) groups t
        | none => ([], t + (groups.foldl (fun n (e : Nat × Nat) => n + e.1 * occU e.2) 0) - match groups.getLast? with | some e => occU e.2 | none => 0)
      if r.1.isEmpty then some r.2 else placeWalk g c rate h f o r.1 r.2

/-- The egress wait of a flow on a port under gate class c, ns (R300). -/
def egressWait (a : AdmIn) (soft : Tab Nat) (e c : Nat) (key : Nat × Nat) : Frac :=
  let rate := a.rate e
  let all := flowsOn a e
  match all.find? fun x => x.1 == key with
  | none => Frac.ofNat 0
  | some (_, me) =>
    let groups := (all.filter fun x => x.1 != key).map (fun x => (2 * x.2.n, x.2.len)) ++ [(2 * me.n, me.len)]
    let frames := groups.foldl (fun n x => n + x.1) 0
    let mask := tgetD soft e 0
    let worst := (judgedOf a e).foldl (fun w j =>
      let h := hOf j.g mask rate (a.maxLen e)
      let (cs, inf) := j.closes c
      let w := match inf with
        | some o => w.map fun x => max x (h o)
        | none => w
      cs.foldl (fun w close => w.bind fun x =>
        let start := close * rate - durU me.len
        let fuel := (frames + 2) * 1025 + spanFuel (j.hi - j.lo) + 16
        (placeWalk j.g c rate h fuel (start / rate) groups start).map fun t => max x (t - start)) w) (some 0)
    match worst with
    | some x => Frac.quot x (rate * nsU)
    | none => Frac.quot 0 0

/-! ### The terms (Table 10-2) -/

/-- Power allowance of a half (R301): the largest exit time within the smallest tolerance of the ports that contribute; a
port that may be powered off does not (R488, R489). -/
def powerTerm (a : AdmIn) : Nat :=
  let t := a.ports.foldl (fun n e => if e.2.en && !e.2.off then min n e.2.tol else n) 1000000000
  if 10000 ≤ t then 10000 else if 5000 ≤ t then 5000 else if 200 ≤ t then 200 else 0

/-- The VOQ of a member: its set's first queue and its class. -/
def memberVoq (a : AdmIn) (c : StreamCfg) (m : Member) : Option Nat :=
  (tget a.nhs (hIdx m.nh)).bind fun nh => (a.sets.find? fun e => e.2.1 == nh.dsp).map fun e => 8 * e.1 + c.cls

/-- G of a VOQ, 10 Mb/s. -/
def AdmIn.guarantee (a : AdmIn) (q : Nat) : Nat := match tget a.sets (q / 8) with | some (_, _, gs) => gs.getD (q % 8) 0 | none => 0

/-- Streams with a member in a VOQ. -/
def streamsOn (a : AdmIn) (q : Nat) : List StreamCfg :=
  (a.streams.filter fun e => e.2.members.any fun m => memberVoq a e.2 m == some q).map fun e => e.2

/-- Cells of a frame (R327). -/
def frameCells (len : Nat) : Nat := ceilDiv (len + 32) 256

/-- The device that a member's system port lies on. -/
def memberDev (a : AdmIn) (m : Member) : Option Nat :=
  (tget a.nhs (hIdx m.nh)).bind fun nh => (tget a.devs nh.dsp).map fun e => e.1

/-- The other deterministic VOQs with remote members that share a member's lanes, each with its largest cell count
(R327). -/
def lanePeers (a : AdmIn) (q : Option Nat) (dev : Option Nat) : Tab Nat :=
  a.streams.foldl (fun t (e : Nat × StreamCfg) => e.2.members.foldl (fun t m =>
    match memberVoq a e.2 m with
    | some v => if m.remote && some v != q && (a.fabric.getD 0 0 == 0 || memberDev a m == dev) then tset t v (max (tgetD t v 0) (frameCells e.2.lrx)) else t
    | none => t) t) ([] : Tab Nat)

/-- tau of the fabric profile, ns (Table 11-3). -/
def tauOf (a : AdmIn) : Frac :=
  if a.fabric.getD 0 0 = 1 then (Frac.ofNat 2500).add (Frac.quot 139264 (a.fabric.getD 5 0)) else Frac.ofNat (a.fabric.getD 2 0)

/-- Term 4 of a remote member (R327). -/
def fabricTerm (a : AdmIn) (c : StreamCfg) (m : Member) : Frac :=
  let k := max 1 (a.fabric.getD 3 1)
  let fixed := if a.fabric.getD 0 0 = 1 then 1000 else a.fabric.getD 1 0
  let n := ceilDiv (frameCells c.lrx) k + 2 + (lanePeers a (memberVoq a c m) (memberDev a m)).foldl (fun n (e : Nat × Nat) => n + ceilDiv e.2 k) 0
  (Frac.ofNat fixed).add (Frac.quot (n * 2176) (a.fabric.getD 5 0))

/-- The terms of a member's bound: code, value and the handle of the queue that it concerns (Table 10-2). -/
def memberTerms (a : AdmIn) (soft : Tab Nat) (i : Nat) (c : StreamCfg) (mi : Nat) (m : Member) : List (Nat × Frac × Nat) :=
  let q := memberVoq a c m
  let qh := match q with | some v => handle 0xA0 v | none => 0
  let eq := memberQueue a.nhs c m
  let g := match q with | some v => a.guarantee v | none => 0
  let b := (match q with | some v => streamsOn a v | none => []).foldl (fun n (x : StreamCfg) => n + 2 * x.n * (x.lrx + 20)) 0
  let ingress := if a.profile = 2 then 1012 else 1312
  let egress := if a.profile = 2 then 888 else 1288
  let wait := (Frac.quot (800 * (b + 4096)) g).add (if m.remote then tauOf a else Frac.ofNat 0)
  let both (x : Nat) : Frac := Frac.ofNat (if m.remote then x else 2 * x)
  let ser := Frac.quot (8000 * c.lrx) (a.rate c.port)
  [(1, Frac.ofNat (if m.remote then ingress else ingress + egress), 0),
    (2, if m.remote then ser else ser.add (Frac.quot (8000 * memberLen a c m) (a.rate m.port)), 0),
    (3, wait, qh)]
  ++ (if m.remote then [(4, fabricTerm a c m, qh), (6, Frac.ofNat m.e, 0)]
    else [(5, egressWait a soft m.port (a.gateOf eq) (i, mi), handle 0xA0 eq)])
  ++ [(7, both (powerTerm a), 0), (8, both 40, 0), (9, Frac.ofNat (if c.sage then 0 else a.mem.2), 0)]

/-- The egress terms of an egress record (R298). -/
def recordTerms (a : AdmIn) (soft : Tab Nat) (i : Nat) (r : EgressRec) : List (Nat × Frac × Nat) :=
  [(1, Frac.ofNat (if a.profile = 2 then 888 else 1288), 0), (2, Frac.quot (8000 * r.ltx) (a.rate r.port), 0),
    (5, egressWait a soft r.port (a.gateOf (hIdx r.queue)) (i, 4), r.queue), (7, Frac.ofNat (powerTerm a), 0), (8, Frac.ofNat 40, 0)]

/-! ### The breakdown (Table 10-6) -/

/-- The block of Table 10-6. -/
def breakdown (st comp member port h needed avail qh proved : Nat) : List Word :=
  [toWord (st + comp * 2 ^ 16 + member * 2 ^ 24 + port * 2 ^ 26), toWord h, toWord (min needed (2 ^ 32 - 1)),
    toWord (min avail (2 ^ 32 - 1)), toWord qh, toWord 0x0003, toWord proved, 0#32]

/-- A failed check or bound: status, component, member, egress port, handle, needed, available, queue handle. -/
structure Failure where
  st : Nat
  comp : Nat
  member : Nat := 0
  port : Nat := 0
  h : Nat := 0
  needed : Nat
  avail : Nat
  qh : Nat := 0
  deriving DecidableEq, Repr

/-- The failure of a sum above its bound: the largest of the candidate terms, the lower code where two are equal. -/
def boundFailure (ts : List (Nat × Frac × Nat)) (from_ sum bound h member port : Nat) : Failure :=
  let best := (ts.filter fun t => decide (from_ ≤ t.1)).foldl (fun b t => match b with
    | none => some t
    | some x => if x.2.1.lt t.2.1 then some t else some x) (none : Option (Nat × Frac × Nat))
  match best with
  | some (c, _, qh) => { st := 0x0401, comp := c, member := member, port := if c = 5 then port else 0, h := h, needed := sum, avail := bound, qh := qh }
  | none => { st := 0x0401, comp := from_, member := member, h := h, needed := sum, avail := bound }

/-! ### The resource checks (Table 10-4) -/

/-- Frames per second of one pipeline (Table 5-1). -/
def pipeSlots (profile : Nat) : Nat := if profile = 2 then 1050000000 else if profile = 1 then 900000000 else 1200000000

/-- Check 18 for a VOQ: the rate that its streams need against G, Mb/s. -/
def voqRate (a : AdmIn) (q : Nat) : Frac := Frac.sum ((streamsOn a q).map fun x => Frac.quot (8000 * x.n * (x.lrx + 20)) x.i)

/-- Frames per second of the streams of an octet that a filter takes, copies counted (checks 20 and 21). -/
def octetFrames (a : AdmIn) (o : Nat) (sage : Bool) : Frac :=
  Frac.sum ((a.streams.filter fun e => e.2.port / 8 == o && (e.2.sage || !sage)).map fun e => Frac.quot (e.2.copies * e.2.n * 1000000000) e.2.i)

/-- The longest window of a judged timeline of one list, ns: none where it has no end. -/
def Judged.longest (j : Judged) (c : Nat) : Option Nat :=
  match j.g.run with
  | some l => match l.longest c with
    | none => some 0
    | some w => w
  | none => none

/-- Check 22: gate duration against the longest window (R292, R300). -/
def check22 (a : AdmIn) (e c len : Nat) : Option (Nat × Nat) :=
  (judgedOf a e).findSome? fun j =>
    if j.g.pend.isSome then none
    else match j.longest c with
      | none => none
      | some w => if w * a.rate e < (len + 8) * 8000 then some (ceilDiv ((len + 8) * 8000) (a.rate e), w) else none

/-- Frames of a length that the windows opening in one cycle take: none where a window has no end; a window's first frame
waits h (check 23). -/
def windowFrames (g : GatePort) (c rate len hi : Nat) (h : Option Nat → Nat) : Nat → Nat → Option Nat
  | 0, _ => some 0
  | f + 1, x =>
    match nextOpen g c (spanFuel (4000000000 * nsU)) x true with
    | none => some 0
    | some o =>
      if hi < o then some 0
      else match windowEnd g c o with
        | none => none
        | some close =>
          let t := o * rate + h (some o)
          let n := if close * rate < t + durU len then 0 else (close * rate - t - durU len) / occU len + 1
          (windowFrames g c rate len hi h f o).map (· + n)

/-- Check 23: frames needed in a cycle against the frames that its windows take. -/
def check23 (a : AdmIn) (soft : Tab Nat) (e c : Nat) : Option (Nat × Nat) :=
  let fl := flowsOn a e
  let big := fl.foldl (fun n x => max n x.2.len) 0
  let rate := a.rate e
  (judgedOf a e).findSome? fun j => match j.cycle with
    | none => none
    | some cyc =>
      let need := fl.foldl (fun n x => n + x.2.n * ceilDiv cyc x.2.i) 0
      if (j.closes c).2.isSome then none
      else match windowFrames j.g c rate big j.hi (hOf j.g (tgetD soft e 0) rate (a.maxLen e)) (spanFuel (j.hi - j.lo)) j.lo with
        | none => none
        | some n => if n < need then some (need, n) else none

/-- The VOQs of a stream, each with the first member that uses it. -/
def voqsOf (a : AdmIn) (c : StreamCfg) : List (Option Nat × Nat) :=
  (c.members.zipIdx).foldl (fun l (m, i) =>
    let q := memberVoq a c m
    if l.any fun e => e.1 == q then l else l ++ [(q, i)]) []

/-- The first failure of a stream, or the proved bounds of its members (R296). -/
def proveStream (a : AdmIn) (soft : Tab Nat) (i : Nat) (c : StreamCfg) : Failure ⊕ List Nat :=
  let h := handle 0xB0 i
  let ms := c.members.zipIdx
  let f18 := (voqsOf a c).findSome? fun (q, mi) =>
    let need := match q with
      | some v => voqRate a v
      | none => Frac.quot (8000 * c.n * (c.lrx + 20)) c.i
    let g := match q with | some v => a.guarantee v | none => 0
    if (Frac.ofNat (10 * g)).lt need then
      some ({ st := 0x0402, comp := 18, member := mi, h := h, needed := need.ceil, avail := 10 * g
              qh := match q with | some v => handle 0xA0 v | none => 0 } : Failure)
    else none
  let rate (comp limit : Nat) (need : Frac) : Option Failure :=
    if (Frac.ofNat limit).lt need then some { st := 0x0402, comp := comp, h := h, needed := need.ceil, avail := limit } else none
  let f20 := if a.profile = 2 && c.sage then rate 20 150000000 (octetFrames a (c.port / 8) true) else none
  let f21 := rate 21 (pipeSlots a.profile) (octetFrames a (c.port / 8) false)
  let onGate (comp : Nat) (f : Nat → Nat → Nat → Option (Nat × Nat)) : Option Failure := ms.findSome? fun (m, mi) =>
    if m.remote then none
    else
      let eq := memberQueue a.nhs c m
      (f m.port (a.gateOf eq) (memberLen a c m)).map fun (need, av) =>
        { st := 0x0402, comp := comp, member := mi, port := m.port, h := h, needed := need, avail := av, qh := handle 0xA0 eq }
  let f22 := onGate 22 (check22 a)
  let f23 := onGate 23 fun e g _ => check23 a soft e g
  match f18.orElse fun _ => f20.orElse fun _ => f21.orElse fun _ => f22.orElse fun _ => f23 with
  | some f => .inl f
  | none =>
    let bounds := ms.map fun (m, mi) =>
      let ts := memberTerms a soft i c mi m
      (ts, (Frac.sum (ts.map fun t => t.2.1)).ceil, m, mi)
    match bounds.find? fun b => decide (c.d < b.2.1) with
    | some (ts, sum, m, mi) => .inl (boundFailure ts 3 sum c.d h mi m.port)
    | none => .inr (bounds.map fun b => b.2.1)

/-- The first failure of an egress record. -/
def proveRecord (a : AdmIn) (soft : Tab Nat) (i : Nat) (r : EgressRec) : Option Failure :=
  let h := handle 0xB2 i
  let g := a.gateOf (hIdx r.queue)
  let of (comp : Nat) (x : Nat × Nat) : Failure := { st := 0x0402, comp := comp, port := r.port, h := h, needed := x.1, avail := x.2, qh := r.queue }
  match ((check22 a r.port g r.ltx).map (of 22)).orElse fun _ => (check23 a soft r.port g).map (of 23) with
  | some f => some f
  | none =>
    let ts := recordTerms a soft i r
    let sum := (Frac.sum (ts.map fun t => t.2.1)).ceil
    if sum ≤ r.e then none else some (boundFailure ts 1 sum r.e h 0 r.port)

/-! ### The run (R296, R302, R303) -/

/-- What a run of admission answers: the first failure with its breakdown, or P and the proved bounds. -/
inductive Verdict where
  | no (st : Nat) (block : List Word)
  | ok (p : Nat) (bounds : Tab (List Nat)) (proved : Nat)
  deriving DecidableEq, Repr

/-- P: the shares of all streams (check 16). -/
def partitionOf (a : AdmIn) : Nat := a.streams.foldl (fun n e => n + e.2.share a.twin.1) 0

/-- The device-wide checks 16, 17 and 19 (Table 10-4). -/
def deviceChecks (a : AdmIn) (reserve : Nat) : Option Failure :=
  let p := partitionOf a
  let share := a.recs.foldl (fun n e => n + e.2.share) 0
  let hawser := Frac.sum (a.streams.map fun e => Frac.quot (8000 * e.2.n * (e.2.lrx + 32)) e.2.i)
  if 262144 < p then some { st := 0x0402, comp := 16, needed := p, avail := 262144 }
  else if reserve < share then some { st := 0x0402, comp := 17, needed := share, avail := reserve }
  else if a.twin.1 && a.twin.2 && (Frac.ofNat 1200000).lt hawser then some { st := 0x0402, comp := 19, needed := hawser.ceil, avail := 1200000 }
  else none

/-- Prove the streams in ascending index. -/
def proveStreams (a : AdmIn) (soft : Tab Nat) : Nat → List (Nat × StreamCfg) → Tab (List Nat) → (Failure × Nat) ⊕ Tab (List Nat)
  | _, [], acc => .inr acc
  | n, (i, c) :: r, acc => match proveStream a soft i c with
    | .inl f => .inl (f, n)
    | .inr b => proveStreams a soft (n + 1) r (acc ++ [(i, b)])

/-- Prove the egress records in ascending index. -/
def proveRecords (a : AdmIn) (soft : Tab Nat) : Nat → List (Nat × EgressRec) → Option (Failure × Nat)
  | _, [] => none
  | n, (i, x) :: r => match proveRecord a soft i x with
    | some f => some (f, n)
    | none => proveRecords a soft (n + 1) r

/-- A failure's breakdown after n streams and records are proved. -/
def Failure.verdict (f : Failure) (n : Nat) : Verdict :=
  .no f.st (breakdown f.st f.comp f.member f.port f.h f.needed f.avail f.qh n)

/-- Judge the whole set of a state as it would stand (R295, R296). -/
def admJudge (s : State) : Verdict :=
  let a := admIn s
  let soft := softGates s
  match deviceChecks a (s.td.die.lims.getD 1 (0, 0)).1 with
  | some f => f.verdict 0
  | none => match proveStreams a soft 0 a.streams [] with
    | .inl (f, n) => f.verdict n
    | .inr bounds => match proveRecords a soft a.streams.length a.recs with
      | some (f, n) => f.verdict n
      | none => .ok (partitionOf a) bounds (a.streams.length + a.recs.length)

/-- Whether a stream or an egress record is admitted, or staged in any transaction (R295). -/
def admActive (s : State) : Bool :=
  !s.det.streams.isEmpty || !s.det.recs.isEmpty || s.ecs.slots.any fun sl => match sl.cur with
    | some x => x.ops.any fun o => o.op == 0x0B01 || o.op == 0x0B02 || o.op == 0x0B08
    | none => false

/-- Whether a change of the state runs admission: an item of the input differs (R295). -/
def admNeeded (old new : State) : Bool := (admActive old || admActive new) && admIn old != admIn new

/-- Count a run of admission (Table 10-11). -/
def admCount (refused : Bool) (s : State) : State :=
  let s := detCount 4 1 s
  if refused then detCount 5 1 s else s

/-- Keep the bounds that admission proved (STREAM.STATUS). -/
def putBounds (bounds : Tab (List Nat)) (s : State) : State :=
  { s with det := { s.det with streams := tmap s.det.streams fun i y => { y with proved := tgetD bounds i y.proved } } }

/-- Cells of the partition, those that leave it when they are released not counted. -/
def partTotal (s : State) : Nat :=
  let pl := s.td.die
  pl.part.length + (pl.bufs.filter fun e => e.2.used && e.2.part).length - pl.surplus

/-- Grow the partition towards P: the cells moved, the shortfall, and the state (R236). -/
def partRaise (p : Nat) (s : State) : List Nat × Nat × State :=
  let want := p - partTotal s
  -- While a half is withdrawn, the partition and the unmet reserves fit in the other one (R240).
  match partGrow (if s.td.die.half = 0 then want else min want (262144 - dieNeed s)) s with
  | (l, s) => (l, want - l.length, s)

/-- PARTITION_SHORT with the commit tide and the shortfall (R236). -/
def partShort (c short : Nat) (s : State) : State := raise 9 5 poolUnit (pay [(c, 6), (short, 4)]) s

/-- The breakdown of a growth that fails (R236). -/
def shortBlock (p short proved : Nat) : List Word := breakdown 0x0402 16 0 0 0 p (p - short) 0 proved

/-- What admission judges of a direct change: a change of tolerances as it stands once it counts (R295, R491). -/
def admView (old new s : State) : State :=
  if old.pow.tol = new.pow.tol then s else { s with pow := { s.pow with lag := none } }

/-- Admission of a direct change from old to new: a refusal with its response and the state as it was but for the
counters, or the state with the bounds proved and the partition grown (R295, R296, R236). -/
def admitChange (old new : State) : Option (Nat × List Word) × State :=
  if !admNeeded (admView old new old) (admView old new new) then (none, new)
  else match admJudge (admView old new new) with
    | .no st block => (some (st, block), admCount true old)
    | .ok p bounds n =>
      match partRaise p (admCount false new) with
      | (_, 0, s) => (none, putBounds bounds s)
      | (_, short, _) => (some (0x0402, shortBlock p short n), partShort (old.tm.tide + 1) short (admCount true old))

end Sys2Proof.Machine
end

