-- ==== Sys2Proof/Machine/Command.lean ====
section
/-! DEFINITION. How a command runs: acceptance, the checks of R446, staging, completion (R438 to R455). -/

namespace Sys2Proof.Machine

open Sys2Proof

/-! ### Status codes (Table 16-4) -/

def stOk : Nat := 0x0000
def stAccepted : Nat := 0x0001
def stBusy : Nat := 0x0101
def stBadOpcode : Nat := 0x0102
def stBadLength : Nat := 0x0103
def stBadHandle : Nat := 0x0104
def stNotPermitted : Nat := 0x0105
def stTxnConflict : Nat := 0x0201
def stTxnLimit : Nat := 0x0202
def stTxnUnknown : Nat := 0x0203
def stTableFull : Nat := 0x0301
def stDuplicateKey : Nat := 0x0302
def stNotFound : Nat := 0x0303
def stDeadlineUnmet : Nat := 0x0401
def stResourceShort : Nat := 0x0402
def stTimePassed : Nat := 0x0403
def stTwinStale : Nat := 0x0501
def stNotActive : Nat := 0x0502

/-- When a command's checks and effect are made: at once, at staging, or at the commit tide (R454, R455). -/
inductive Phase where
  | direct | stage | commit
  deriving DecidableEq, Repr

/-- What a command's own meaning is given beside its request block. -/
structure Ctx where
  /-- The phase. -/
  ph : Phase
  /-- The mailbox that the command came by. -/
  mb : Nat
  /-- The transaction it is staged in, or 0. -/
  txn : Nat
  /-- The handle reserved at staging, at the commit. -/
  reserved : Nat
  /-- The commit is preparing: the table engines are changed under the new epoch only (R455). -/
  pre : Bool := false

/-- What a command's own meaning answers: status, response block, the state, and the handle a create takes. -/
structure Res where
  status : Nat
  resp : List Word
  st : State
  h : Nat := 0

/-- A command's own meaning. -/
abbrev Act := Ctx → List Word → State → Res

/-- How a command may be staged (R452). -/
inductive Staging where
  /-- Never staged. -/
  | never
  /-- May be staged. -/
  | may
  /-- Must be staged. -/
  | must
  deriving DecidableEq, Repr

/-- A command of the catalogue (R460). -/
structure Cmd where
  /-- Opcode; the area is its high byte. -/
  op : Nat
  /-- Reading command (R449). -/
  reading : Bool := false
  /-- Staging rule. -/
  staging : Staging := .never
  /-- Words the command reads, from its request block (R441). -/
  need : List Word → Nat := fun _ => 0
  /-- The longest request its description allows (R441). -/
  most : Nat := 16384
  /-- Objects the command touches (Table 16-7). -/
  objs : List Word → List (List Nat) := fun _ => []
  /-- Handles the command names (R454). -/
  refs : List Word → List Nat := fun _ => []
  /-- A direct command waits before it runs (R586). -/
  hold : List Word → State → Bool := fun _ _ => false
  /-- The command can change an admission input (R295). -/
  adm : Bool := false
  /-- Its own meaning. -/
  act : Act

/-- Complete with OK and no response. -/
def done (s : State) : Res := ⟨stOk, [], s, 0⟩

/-- Complete with OK and a response. -/
def reply (r : List Word) (s : State) : Res := ⟨stOk, r, s, 0⟩

/-- Complete with a refusal: an empty response and nothing changed (R445). -/
def fail (st : Nat) (s : State) : Res := ⟨st, [], s, 0⟩

/-- Complete a create with OK and the new handle. -/
def created (h : Nat) (s : State) : Res := ⟨stOk, [toWord h], s, h⟩

/-- The object of a command that names a handle in request word 0 (Table 16-7). -/
def objWord0 (q : List Word) : List (List Nat) := [[wd q 0]]

/-- The handle in request word 0 (R454). -/
def refWord0 (q : List Word) : List Nat := [wd q 0]

/-- The object of a device-wide setting (Table 16-7). -/
def objOp (op : Nat) : List Word → List (List Nat) := fun _ => [[0xFFFF, op]]

/-! ### Transactions (R452 to R454) -/

/-- The handle of the transaction of slot i at a generation. -/
def txnHandle (i gen : Nat) : Nat := handle 0x20 (gen * 8 + i)

/-- The slot that a transaction handle names, where it names one that is open, preparing or prepared. -/
def txnSlot (s : State) (h : Nat) : Option (Nat × Txn) :=
  match s.ecs.slots[h % 8]? with
  | some sl =>
    match sl.cur with
    | some x => if hType h = 0x20 ∧ hIdx h / 8 = sl.gen then some (h % 8, x) else none
    | none => none
  | none => none

/-- Replace the transaction of a slot. -/
def putTxn (i : Nat) (x : Option Txn) (s : State) : State :=
  { s with ecs := { s.ecs with slots := lmod s.ecs.slots i fun sl => { sl with cur := x } } }

/-- Every transaction that is open, preparing or prepared, with its handle. -/
def txns (s : State) : List (Nat × Txn) :=
  (s.ecs.slots.zipIdx).filterMap fun (sl, i) => sl.cur.map fun x => (txnHandle i sl.gen, x)

/-- Whether a staged command of any transaction names a handle (R454). -/
def stagedRef (s : State) (h : Nat) : Bool :=
  (txns s).any fun e => e.2.ops.any fun o => o.refs.contains h

/-- Whether a handle is reserved by the transaction in which a command is being staged (R454). -/
def Ctx.reservedHere (x : Ctx) (s : State) (h : Nat) : Bool :=
  decide (x.ph = .stage) && s.ecs.reserved.contains (h, x.txn)

/-- The index a create takes: the reserved one at a commit, else the lowest free one below n (R454). -/
def newIdx {α : Type} (x : Ctx) (ty : Nat) (t : Tab α) (n : Nat) (s : State) : Option Nat :=
  match x.ph with
  | .commit => some (hIdx x.reserved)
  | _ => lowestFreeBut t (reservedIdx s ty) n

/-- Mark the objects of open transactions that a completed direct command changed (R458). -/
def markDirect (keys : List (List Nat)) (s : State) : State :=
  if keys.isEmpty then s
  else { s with ecs := { s.ecs with slots := s.ecs.slots.map fun sl => { sl with cur := sl.cur.map fun x =>
      { x with objs := x.objs.map fun o => if keys.contains o.key then { o with direct := true } else o } } } }

/-! ### The checks of R446 -/

/-- The area of an opcode. -/
def areaOf (op : Nat) : Nat := op / 256

/-- Whether the mailbox may issue the command (R448). -/
def mailboxOk (k : Cmd) (m : Nat) (b : Mailbox) : Bool :=
  m == 0 || (bit b.mask (areaOf k.op) && (k.reading || !b.readOnly))

/-- Whether lifecycle and firmware state serve the command (R450, R514, R528, R536; area 0x14 in spec/17). -/
def gateOk (k : Cmd) (s : State) : Bool :=
  let a := areaOf k.op
  let l := s.id.lifecycle
  if s.id.fwState = 3 then
    if k.reading then a == 1 || a == 0x12 || a == 0x13 else k.op == 0x1206 && l != 4
  else if l = 4 then k.reading && a == 1
  else if k.reading then true
  else if a = 0x11 then
    if k.op = 0x1101 ∨ k.op = 0x1102 then l == 1
    else if k.op = 0x1110 then l == 0 || l == 2 || l == 3
    else if k.op = 0x1122 then l == 0
    else true
  else if a = 0x12 then k.op == 0x1206 || decide (l ≤ 2)
  else if a = 0x10 then decide (l ≤ 2)
  else decide (l ≤ 1)

/-- Whether the unit's twin state serves the command (R391, R393); FAULT.RESET ends the safe state of any unit (R526, R536). -/
def activeOk (k : Cmd) (s : State) : Bool :=
  k.reading || (k.op == 0x1206 && s.id.fwState == 3) || decide (s.twin.st ≤ 1) || areaOf k.op == 0x0F || (decide (0x0321 ≤ k.op) && decide (k.op ≤ 0x0323))

/-- The transaction of an envelope; null reads as 0 (R11, R452). -/
def txnOf (c : Call) : Nat := nullOr c.txn

/-- The status by which the checks of R446 refuse a command, or none. -/
def refuse (k : Cmd) (c : Call) (q : List Word) (s : State) : Option Nat :=
  let b := s.ecs.mbs.getD c.mb {}
  if s.id.fwState = 2 then some stBusy
  else if (match c.src with
      | .mailbox => decide (1016 < q.length)
      | .indirect _ => q.isEmpty || decide (16384 < q.length)
      | .indirectFailed _ => true) || decide (k.most < q.length) || decide (q.length < k.need q) then some stBadLength
  else if !mailboxOk k c.mb b || !gateOk k s
      || (txnOf c != 0 && k.staging == .never) || (txnOf c == 0 && k.staging == .must)
      || (match txnSlot s c.txn with | some (_, x) => x.phase != 0 | none => false) then some stNotPermitted
  else if !activeOk k s then some stNotActive
  else if txnOf c != 0 && (txnSlot s c.txn).isNone then some stTxnUnknown
  else none

/-! ### Completion (R442) -/

/-- Write words into mailbox m from word i on. -/
def mbWrite (m i : Nat) (ws : List Word) (s : State) : State :=
  { s with ecs := { s.ecs with mem := mwriteWords s.ecs.mem (m * 4096 + i * 4) ws } }

/-- Set mailbox m's record. -/
def putMb (m : Nat) (b : Mailbox) (s : State) : State := { s with ecs := { s.ecs with mbs := s.ecs.mbs.set m b } }

/-- Set or clear MB_DONE[m]. -/
def setDone (m : Nat) (v : Bool) (s : State) : State :=
  let x := s.host.mbDone
  let one : Word := 1#32 <<< m
  { s with host := { s.host with
    mbDone := if v then x ||| one else x &&& ~~~one
    doneAt := if v then tset s.host.doneAt m (elapsed s + 1) else terase s.host.doneAt m } }

/-- Free mailbox m, set MB_DONE[m] and signal PF0 vector m once (R442). -/
def releaseMb (m : Nat) (s : State) : State :=
  let b := s.ecs.mbs.getD m {}
  signal 0 m (setDone m true (putMb m { b with owned := false, acc := none, discard := false } s))

/-- Zero the request block of MACSEC.SA_INSTALL in the data area of mailbox m, however the command ends; an indirect
request's block is not there (R73). -/
def zeroRequest (m : Nat) (s : State) : State :=
  match (s.ecs.mbs.getD m {}).acc with
  | some a =>
    if a.op = 0x0321 ∧ !bit (mreadWord s.ecs.mem (m * 4096)).toNat 16 then
      mbWrite m 8 (List.replicate (min 1016 a.q.length) 0#32) s
    else s
  | none => s

/-- Complete the command of mailbox m: the response block, envelope words 5 to 7, MB_DONE and the vector; a
discarded response is not written (R442, R419). -/
def complete (m tag st : Nat) (resp : List Word) (s : State) : State :=
  let b := s.ecs.mbs.getD m {}
  let s := zeroRequest m s
  if b.discard then releaseMb m s
  else
    releaseMb m (mbWrite m 5 [toWord st, toWord (resp.length + tag * 65536), toWord s.tm.tide] (mbWrite m 8 resp s))

/-- The K12 accepts a command in mailbox m, which it owns from now on (R439, R443). -/
def acceptCmd (m : Nat) (a : Accepted) (s : State) : State :=
  let s := putMb m { s.ecs.mbs.getD m {} with owned := true, acc := some a, seq := s.ecs.accepts } s
  { s with ecs := { s.ecs with accepts := s.ecs.accepts + 1 } }

/-- Take mailbox m for a command: the envelope and the request block as the host wrote them, MB_DONE[m] clear (R439). -/
def takeMb (k : Cmd) (c : Call) (q : List Word) (s : State) : State :=
  let (ind, addr, body) := match c.src with
    | .mailbox => (0, 0, q.take 1016)
    | .indirect a => (1, a, [])
    | .indirectFailed a => (1, a, [])
  let s := setDone c.mb false s
  let s := mbWrite c.mb 0 ([toWord (k.op + ind * 65536), toWord (q.length + c.tag * 65536), toWord c.txn] ++ toWords addr 2) s
  let s := mbWrite c.mb 8 body s
  acceptCmd c.mb ⟨k.op, c.tag, c.txn, q⟩ s

/-! ### Running -/

/-- Staging limits (R453). -/
def txnLimits (x : Txn) (n words : Nat) : Bool :=
  decide (x.count + n ≤ 1048576) && decide (x.bytes + 20 + 4 * words ≤ 268435456)

/-- Add objects to a transaction's list; one already listed keeps its marks (R458). -/
def addObjs (l : List TxnObj) (keys : List (List Nat)) : List TxnObj :=
  keys.foldl (fun l k => if l.any fun o => o.key == k then l else l ++ [⟨k, false, []⟩]) l

/-- Reserve the handle of a staged create (R454), and with an ODU that terminates as a packet client the lowest free
client index, under the model's own handle type 0x43 beside it (R90). -/
def reserve (op : Nat) (q : List Word) (new txn : Nat) (s : State) : State :=
  if new = 0 then s
  else
    let client := if op = 0x0410 ∧ 4 ≤ fld q 1 7 4 then lowestFreeBut s.tr.clients (reservedIdx s 0x43) 256 else none
    { s with ecs := { s.ecs with reserved := s.ecs.reserved ++ (new, txn) :: (client.map fun c => (handle 0x43 c, txn)).toList } }

/-- Stage a command in a transaction: its checks that do not depend on the commit tide, the handle it reserves, and
the staged operation (R452 to R454). -/
def stageRun (k : Cmd) (c : Call) (q : List Word) (s : State) : Res :=
  match txnSlot s c.txn with
  | none => fail stTxnUnknown s
  | some (i, x) =>
    if !txnLimits x 1 q.length then fail stTxnLimit s
    else
      let r := k.act ⟨.stage, c.mb, c.txn, 0, false⟩ q s
      if r.status = stOk then
        let s := reserve k.op q r.h c.txn s
        ⟨stOk, r.resp, toTwin (.staged c.txn k.op q r.h) (putTxn i (some { x with
          ops := x.ops ++ [⟨k.op, q, r.h, k.refs q⟩], count := x.count + 1, bytes := x.bytes + 20 + 4 * q.length,
          objs := addObjs x.objs (k.objs q) }) s), r.h⟩
      else ⟨r.status, r.resp, s, 0⟩

/-- Whether a direct command's change is carried to the standby: configuration of areas 0x03 to 0x0C, the MACsec SA
commands left out (R392, R393). -/
def carried (op : Nat) : Bool := decide (0x0300 ≤ op) && decide (op ≤ 0x0CFF) && !(decide (0x0321 ≤ op) && decide (op ≤ 0x0323))

/-- Run a direct command: its own meaning, then admission where it changes an admission input (R295), then the marks
of R458. -/
def directRun (k : Cmd) (c : Call) (q : List Word) (s : State) : Res :=
  let r := k.act ⟨.direct, c.mb, 0, 0, false⟩ q s
  if r.status = stOk ∨ r.status = stAccepted then
    match if k.adm then admitChange s r.st else (none, r.st) with
    | (some (st, resp), s') => ⟨st, if k.op = 0x0B01 then 0#32 :: resp else resp, s', 0⟩
    | (none, s') =>
      if k.reading then { r with st := s' }
      else { r with st := if carried k.op then toTwin (.direct k.op q r.h) (markDirect (k.objs q) s') else markDirect (k.objs q) s' }
  else r

/-- Whether a PORT or TPORT command names a port of an octet that is powered off under R495 and not yet being woken. -/
def wakes (k : Cmd) (q : List Word) (s : State) : Bool :=
  let h := wd q 0
  ((decide (0x0301 ≤ k.op) && decide (k.op ≤ 0x0309) && hType h == 0x30) || (decide (0x0401 ≤ k.op) && decide (k.op ≤ 0x0404) && hType h == 0x32))
    && bit s.pow.offOct (hIdx h / 8) && !bit s.pow.wakeOct (hIdx h / 8)

/-- A PORT or TPORT command that names a port of an octet powered off under R495 powers it on at the next boundary. -/
def wakeNamed (k : Cmd) (q : List Word) (s : State) : State :=
  if wakes k q s then { s with pow := { s.pow with wakeOct := s.pow.wakeOct + 2 ^ (hIdx (wd q 0) / 8) } } else s

/-- Run a command that has passed the checks of R446. -/
def runOp (k : Cmd) (c : Call) (q : List Word) (s : State) : Res :=
  if txnOf c = 0 then directRun k c q (wakeNamed k q s) else stageRun k c q s

/-- Whether a commit is preparing (R455). -/
def preparing (s : State) : Bool := (txns s).any fun e => e.2.phase == 1

/-- Whether an earlier accepted command is still to be staged in the same transaction (R443). -/
def stagedLater (c : Call) (s : State) : Bool :=
  s.ecs.mbs.any fun b => b.owned && decide (b.seq < (s.ecs.mbs.getD c.mb {}).seq) && match b.acc with
    | some a => a.txn == c.txn
    | none => false

/-- Whether a direct command waits, for a preparation to end (R455) or as its own rule says (R586), or a staged one for those
before it (R443). -/
def waits (k : Cmd) (c : Call) (q : List Word) (s : State) : Bool :=
  if txnOf c = 0 then (k.adm && preparing s) || k.hold q s else stagedLater c s

/-- Whether the command is served at all: not while booting. With the MPC failed the pilot answers, in the safe state only the
reading commands of areas 0x01 and 0x12 and FAULT.RESET; with the pilot failed as well nothing does (R524, R528). -/
def served (k : Cmd) (s : State) : Bool :=
  if s.id.fwState = 0 ∨ (s.flt.mpcFailed ∧ s.flt.pilotDead) then false
  else if s.flt.mpcFailed then
    decide (s.id.fwState ≠ 3) || ((k.reading && (areaOf k.op == 1 || areaOf k.op == 0x12)) || k.op == 0x1206)
  else true

/-- Record a failed indirect read (R441): DMA_ERR and DMA_ERROR. -/
def indirectError (c : Call) (s : State) : State :=
  match c.src with
  | .indirectFailed a => pioCount 1 1 { s with host := { s.host with dmaErr := a } }
  | _ => s

/-- Run the command of a mailbox that the K12 owns and complete it. -/
def runOwned (k : Cmd) (c : Call) (q : List Word) (s : State) : State :=
  if !served k s || waits k c q s then s
  else
    let r := runOp k c q s
    complete c.mb c.tag r.status r.resp r.st

/-- The command of mailbox c.mb with envelope c and request block q. Where MB_DOORBELL has accepted it, it runs; in a
mailbox the host owns, the row stands for the whole exchange of R439: the mailbox is taken, the checks of R446 are
made and the command runs. In a mailbox that holds another command nothing happens. -/
def runCommand (k : Cmd) (c : Call) (q : List Word) (s : State) : State :=
  let s := s.atTime c.t
  match s.ecs.mbs[c.mb]? with
  | none => s
  | some b =>
    if b.owned then
      if b.acc = some ⟨k.op, c.tag, c.txn, q⟩ then runOwned k c q s else s
    else if !served k s then s
    else
      let s := indirectError c (takeMb k c q s)
      match refuse k c q s with
      | some st => complete c.mb c.tag st [] s
      | none => runOwned k c q s

end Sys2Proof.Machine
end

