-- ==== Sys2Proof/Machine/Objects.lean ====
section
/-! DEFINITION. Which objects exist and which name which (R11, R454). -/

namespace Sys2Proof.Machine

open Sys2Proof

/-- Whether a handle names an object that exists (R11). -/
def objExists (s : State) (h : Nat) : Bool :=
  let i := hIdx h
  match hType h with
  | 0x30 => thas s.line.ports i
  | 0x31 => thas s.line.sas i
  | 0x32 => thas s.tr.ports i
  | 0x40 => thas s.tr.odus i
  | 0x41 => thas s.tr.paths i
  | 0x42 => thas s.tr.groups i
  | 0x50 => thas s.circuits i
  | 0x60 => thas s.fwd.cfg.nhs i
  | 0x61 => thas s.fwd.cfg.ecmps i
  | 0x62 => decide (i < 1048576)
  | 0x63 => thas s.fwd.cfg.encaps i
  | 0x64 => decide (i < 262400)
  | 0x65 => decide (i < 4096)
  | 0x66 => decide (i < 256)
  | 0x70 => thas s.fwd.cfg.actions i
  | 0x71 => thas s.tab.dill i
  | 0x72 => thas s.tab.groups i
  | 0x73 => match tget s.tab.sage i with
    | some e => (e.v.seen true).isSome
    | none => false
  | 0xA0 => thas s.td.queues i
  | 0xA1 => thas s.td.nodes h
  | 0xA2 => thas s.td.nodes h
  | 0xA3 => thas s.td.nodes h
  | 0xA4 => thas s.td.nodes h
  | 0xA6 => decide (i < 4096)
  | 0xA7 => thas s.td.sets i
  | 0xB0 => thas s.det.streams i
  | 0xB1 => thas s.det.frer i
  | 0xB2 => thas s.det.recs i
  | _ => false

/-- Whether a command may name a handle: it exists, or at staging the same transaction reserved it (R454). -/
def Ctx.knows (x : Ctx) (s : State) (h : Nat) : Bool := objExists s h || x.reservedHere s h

/-- Whether an object is a member of a protection group (R102). -/
def inGroup (s : State) (h : Nat) : Bool := s.tr.groups.any fun e => e.2.worker == h || e.2.protect == h

/-- Whether a circuit is bound to an object. -/
def boundCircuit (s : State) (h : Nat) : Bool := s.circuits.any fun e => e.2.bound == h

/-- The target handle of an action record (Table 5-6). -/
def Action.target (a : Action) : Nat := hwd a.w 1

/-- Whether an action record names a handle as its target. -/
def actionTargets (s : State) (h : Nat) : Bool := s.fwd.cfg.actions.any fun e => e.2.target == h

/-- Whether a next-hop, ECMP group or encapsulation is referenced (Table 5-12, R454). -/
def hopNamed (s : State) (h : Nat) : Bool :=
  actionTargets s h || inGroup s h || stagedRef s h
    || (s.fwd.cfg.ecmps.any fun e => e.2.any fun m => handle 0x60 m.1 == h)
    || (s.fwd.cfg.nhs.any fun e => e.2.encap == h)
    || (s.circuits.any fun e => e.2.cfg.nh == h)
    || s.det.streams.any fun e => e.2.cfg.members.any fun m => m.nh == h

end Sys2Proof.Machine
end

