-- ==== Sys2Proof/Machine/Buffers.lean ====
section
/-! DEFINITION. Commands and events of the buffer pools (spec/08_buffer_pools.md). -/

namespace Sys2Proof.Machine

open Sys2Proof

/-- The clients that may use a pool (Table 8-1). -/
def poolClients (p : Nat) : List Nat := if p = 0 then [0, 3, 5] else [1, 2, 5]

/-- Own meaning of BUF.POOL_SET (R237, Tables 8-2 and 8-3). -/
def actBufPoolSet : Act := fun x q s =>
  let p := fld q 0 0 0
  let c := fld q 0 10 8
  let lim : Nat × Nat := (fld q 1 26 0, fld q 2 26 0)
  let low := fld q 3 26 0
  let clear := fld q 4 26 0
  if !(poolClients p).contains c ∨ clear ≤ low then fail stNotPermitted s
  else if x.ph = .stage then done s
  else
    let lims := lset (poolOf s p).lims c lim
    if (if p = 0 then 125829120 - 1048576 else 262144) < lims.foldl (fun n e => n + e.1) 0 then fail stNotPermitted s
    else done (poolCheck p (modPool p (fun pl => { pl with lims := lims, low := low, clear := clear }) s))

def cmdBufPoolSet : Cmd :=
  { op := 0x0901, staging := .may, need := fun _ => 5, objs := fun q => [[0x0901, fld q 0 0 0, fld q 0 10 8]], act := actBufPoolSet }

/-- BUF.POOL_SET (R237). -/
def execBufPoolSet (c : Call) (q : List Word) (s : State) : Host.Outcome State Fault Refusal :=
  .next (runCommand cmdBufPoolSet c q s)

/-- Own meaning of BUF.POOL_STATUS. -/
def actBufPoolStatus : Act := fun _ q s =>
  let s := refSettleAll s
  let p := fld q 0 0 0
  let pl := poolOf s p
  reply (([pl.free, if p = 1 then pl.p else 0, pl.part.length, pl.retired.length, pl.lost.length] ++ pl.held).map toWord) s

def cmdBufPoolStatus : Cmd := { op := 0x0902, reading := true, need := fun _ => 1, act := actBufPoolStatus }

/-- BUF.POOL_STATUS (R227). -/
def execBufPoolStatus (c : Call) (q : List Word) (s : State) : Host.Outcome State Fault Refusal :=
  .next (runCommand cmdBufPoolStatus c q s)

/-- Own meaning of BUF.INSPECT (R224). -/
def actBufInspect : Act := fun _ q s =>
  let s := refSettleAll s
  let pl := poolOf s (fld q 0 0 0)
  let i := fld q 1 26 0
  if pl.size ≤ i then fail stNotPermitted s
  else
    let b := tgetD pl.bufs i { used := false, owner := 0, count := 0, part := false }
    reply [toWord (b2n b.used + 2 * b.owner + 16 * b.count + 4096 * b2n (pl.retired.contains i))] s

def cmdBufInspect : Cmd := { op := 0x0903, reading := true, need := fun _ => 2, act := actBufInspect }

/-- BUF.INSPECT (R224). -/
def execBufInspect (c : Call) (q : List Word) (s : State) : Host.Outcome State Fault Refusal :=
  .next (runCommand cmdBufInspect c q s)

/-- Own meaning of BUF.COUNTERS (R241). -/
def actBufCounters : Act := fun _ q s =>
  let s := refSettleAll s
  reply (ctrWords s.ctr 0x49 (fld q 0 0 0 + 1) (List.range 27)) s

def cmdBufCounters : Cmd := { op := 0x0904, reading := true, need := fun _ => 2, act := actBufCounters }

/-- BUF.COUNTERS (R241). -/
def execBufCounters (c : Call) (q : List Word) (s : State) : Host.Outcome State Fault Refusal :=
  .next (runCommand cmdBufCounters c q s)

/-! ### Packets that wait for buffers or for a queue -/

/-- Whether a packet that waits at TD ingress is ready: the stream unit has handled it, where it must (R280). -/
def Pkt.ready (k : Pkt) : Bool := !(k.md.sValid && !k.unit)

/-- Packets that wait at TD ingress or at TD egress. -/
def waitingAt (egress : Bool) (s : State) : List Pkt := if egress then s.td.egress else s.td.ingress

/-- Replace the packets that wait at TD ingress or at TD egress. -/
def setWaiting (egress : Bool) (l : List Pkt) (s : State) : State :=
  modTd (fun t => if egress then { t with egress := l } else { t with ingress := l }) s

/-- The first waiting packet of client c that still needs buffers of pool p, after its checks have been made (R261): its
position, from position i on with fuel. -/
def wantsBuffers (egress : Bool) (p c : Nat) : Nat → Nat → State → Option Nat × State
  | 0, _, s => (none, s)
  | f + 1, i, s =>
    match (waitingAt egress s)[i]? with
    | none => (none, s)
    | some k =>
      if k.ready && k.owner == c && poolFor egress k == p then
        match planPkt egress k s with
        | (k, s) =>
          let s := setWaiting egress ((waitingAt egress s).set i k) s
          if 0 < needOf egress k s then (some i, s) else wantsBuffers egress p c f (i + 1) s
      else wantsBuffers egress p c f (i + 1) s

/-- One client's turn in a clock of the arbitration point: n buffers already handed in the clock; how many are handed
after it, and the packet that EMPTY drops (R228, R234). A grant goes to the client's first waiting packet that needs buffers;
what exceeds the need is released at its enqueue. -/
def serveClient (p c k handed : Nat) (s : State) : Nat × Option (Bool × Pkt) × State :=
  let (eg, hit, s) := match wantsBuffers true p c s.td.egress.length 0 s with
    | (some i, s) => (true, some i, s)
    | (none, s) => match wantsBuffers false p c s.td.ingress.length 0 s with
      | (r, s) => (false, r, s)
  match hit.bind fun i => (waitingAt eg s)[i]?.map fun x => (i, x) with
  | none => if p = 1 ∧ (c = 0 ∨ c = 4) then
      match arbitrate p c k handed (some (s.td.die.part.length)) true s with
      | (l, _, s) => (handed + l.length, none, s)
    else match arbitrate p c k handed none false s with
      | (l, _, s) => (handed + l.length, none, s)
  | some (i, x) =>
    let room := (partRoom eg x s).map fun r => r - x.bufs.length
    match arbitrate p c k handed room x.md.det s with
    | (l, empty, s) =>
      if empty then (handed, some (eg, x), setWaiting eg ((waitingAt eg s).eraseIdx i) s)
      else (handed + l.length, none, setWaiting eg ((waitingAt eg s).set i { x with bufs := x.bufs ++ l }) s)

/-- BUFFER_ALLOCATE: one clock of a pool's arbitration point, with the clients that present requests and their k (R228). The
packets that meet EMPTY are dropped, and their buffers enter the free store after the clock's grants (R229, R234). -/
def execBufferAllocate (t pool : Nat) (reqs : List (Nat × Nat)) (s : State) : Host.Outcome State Fault Refusal :=
  let s := s.atTime t
  let p := min pool 1
  let reqs := reqs.filter fun r => !fenced s 60 && decide (r.1 < 6) && decide (1 ≤ r.2) && decide (r.2 ≤ 16)
  let s := refSettle p (bufClock s) s
  let (_, gone, s) := (clientOrder (poolOf s p).last (reqs.map fun r => r.1)).foldl (fun (h, gone, s) c =>
    match reqs.find? fun r => r.1 == c with
    | some (_, k) =>
      let (h, d, s) := serveClient p c k h s
      (h, gone ++ d.toList, s)
    | none => (h, gone, s)) ((0, [], s) : Nat × List (Bool × Pkt) × State)
  .next (gone.foldl (fun s d => capLost d.2 (emptyDrop d.1 d.2 s)) s)

/-- BUFFER_RELEASE: a release of a buffer by a unit that presents a client ID comes to the reference unit, which applies it
with what else its clock brings (R231, R232). -/
def execBufferRelease (t pool b id unit : Nat) (s : State) : Host.Outcome State Fault Refusal :=
  .next (refPut (min pool 1) false b id unit (s.atTime t))

/-- BUFFER_REPLICATE: a replication update of n further copies comes to the reference unit (R230, R231). -/
def execBufferReplicate (t pool b n : Nat) (s : State) : Host.Outcome State Fault Refusal :=
  .next (refPut (min pool 1) true b n 0 (s.atTime t))

end Sys2Proof.Machine
end

