-- ==== Sys2Proof/Machine/Queues.lean ====
section
/-! DEFINITION. Commands and events of the queues and the scheduler (spec/09_queues_scheduling.md). -/

namespace Sys2Proof.Machine

open Sys2Proof

/-! ### Settings (Table 9-3) -/

/-- The port whose subtree a queue is in. -/
def portOfQueue (s : State) (q : Nat) : Option Nat := portOfNode s (handle 0xA0 q)

/-- A shaper as a request sets it: rate in words i and i + 1, burst in word i + 2. -/
def shaperOf (q : List Word) (i t : Nat) : Shaper := newShaper (wd64 q i) (fld q (i + 2) 24 0) t

/-- Place and shapers of QUEUE.CREATE, QUEUE.SET, NODE.CREATE and NODE.SET: words 1 to 8. -/
def schedIn (q : List Word) (t : Nat) : Sched :=
  { parent := hwd q 1, band := fld q 2 2 0, quantum := fld q 2 18 3, adj := signed 8 (fld q 2 31 24),
    min := shaperOf q 3 t, max := shaperOf q 6 t }

/-- Whether the rates and bursts of words 3 to 8 are in range. -/
def shapersOk (q : List Word) : Bool :=
  rateOk (wd64 q 3) && rateOk (wd64 q 6) && decide (fld q 5 24 0 ≤ 16777216) && decide (fld q 8 24 0 ≤ 16777216)

/-- Whether words 2 to 8 are in range. -/
def schedRangeOk (q : List Word) : Bool := decide (1 ≤ fld q 2 18 3) && shapersOk q

/-- The settings of a queue beside its place: word 2 and words 9 to 12. -/
def queueIn (q : List Word) : QueueCfg :=
  { det := flag q 2 19, gate := fld q 2 22 20, ecn := flag q 2 23, tail := wd q 9,
    wred := [fld q 10 7 0, fld q 10 15 8, fld q 10 23 16],
    sampler := if flag q 11 12 then some (fld q 11 11 0) else none, age := fld q 12 21 0 }

/-- Whether words 9 to 12 are in range. -/
def queueRangeOk (c : QueueCfg) : Bool := decide (1 ≤ c.tail) && decide (8 ≤ c.age) && decide (c.age ≤ 2048000)

/-- Whether the WRED profiles that a queue names exist. -/
def wredKnown (s : State) (c : QueueCfg) : Bool :=
  c.wred.all fun i => i == 0 || thas s.td.wred i || thas s.td.wredPend i

/-- Whether a queue's settings keep R251: a deterministic one is in band 0 with no shaper, profile or ECN flag, any other
not in band 0. -/
def queueKindOk (c : QueueCfg) (q : List Word) : Bool :=
  if c.det then fld q 2 2 0 == 0 && wd64 q 3 == 0 && wd64 q 6 == 0 && c.wred.all (fun i => i == 0) && !c.ecn
      && hType (wd q 1) == 0xA1
  else fld q 2 2 0 != 0

/-- The status by which a parent refuses a child, or none (R249 to R251): its level is above the child's, it belongs to
the child's port, and only deterministic queues sit in band 0 of a port node. -/
def parentRefuses (s : State) (parent level band : Nat) (det : Bool) (port : Option Nat) : Option Nat :=
  match tget s.td.nodes parent with
  | none => some stBadHandle
  | some n =>
    if level ≤ n.level then some stNotPermitted
    else if (match port with | some p => n.port != p | none => false) then some stNotPermitted
    else if n.level = 0 ∧ band = 0 ∧ !det then some stNotPermitted
    else none

/-- Settings of a queue or node that replace others: deficit kept, tokens carried over (R270). -/
def Sched.change (old new : Sched) (t : Nat) : Sched :=
  { new with min := setShaper old.min new.min t, max := setShaper old.max new.max t, deficit := old.deficit }

/-- Take a child out of its parent's lists, with deficit 0 (R270). -/
def unlist (h : Nat) (s : State) : State :=
  match schedOf s h with
  | none => s
  | some x => modSched h (fun y => { y with deficit := 0 }) (modNode x.parent (fun n => { n with
      cur := n.cur.map fun l => l.filter fun c => c != h, nxt := n.nxt.map fun l => l.filter fun c => c != h
      wake := n.wake.filter fun c => c != h }) s)

/-- Give a queue or node new place and shapers (R270). -/
def applySched (h : Nat) (new : Sched) (s : State) : State :=
  match schedOf s h with
  | none => s
  | some x =>
    let s := if x.parent = new.parent ∧ x.band = new.band then s else unlist h s
    modSched h (fun y => y.change new (nowLin s)) s

/-- Give a queue its new settings (R270). -/
def applyQueue (q : Nat) (c : QueueCfg) (x : Sched) (s : State) : State :=
  applySched (handle 0xA0 q) x (modQueue q (fun y => { y with cfg := c, pend := none }) s)

/-- The settings of queues, nodes, WRED profiles and sampler groups that await the tide boundary take effect (R270). -/
def schedBoundary (s : State) : State :=
  let s := s.td.queues.foldl (fun s e => match e.2.pend with
    | some (c, x) => applyQueue e.1 c x s
    | none => s) s
  let s := s.td.nodePend.foldl (fun s e => applySched e.1 e.2 s) s
  modTd (fun t => { t with
    nodePend := []
    wred := t.wredPend.foldl (fun w e => tset w e.1 e.2) t.wred, wredPend := []
    samplers := t.samplerPend.foldl (fun w e => tset w e.1 e.2) t.samplers, samplerPend := []
    sampEvents := 0 }) s

/-- Bring the lists of every port in line. -/
def refreshAll (s : State) : State :=
  (s.td.nodes.filter fun e => e.2.level == 0).foldl (fun s e => refreshPort e.2.port s) s

/-! ### Queue space and VOQs -/

/-- Whether a queue is created or reserved in [lo, hi). -/
def queuesIn (s : State) (lo hi : Nat) : Bool :=
  (s.td.queues.any fun e => decide (lo ≤ e.1) && decide (e.1 < hi))
    || ((reservedIdx s 0xA0).any fun i => decide (lo ≤ i) && decide (i < hi))
    || (reservedIdx s 0xA7).any fun i => decide (lo ≤ 8 * i) && decide (8 * i < hi)

/-- Own meaning of QUEUE.SPACE_SET (R243). -/
def actQueueSpaceSet : Act := fun _ q s =>
  let v := fld q 0 18 0
  if v % 8 ≠ 0 ∨ 262144 < v ∨ queuesIn s (min v s.td.v) (max v s.td.v) then fail stNotPermitted s
  else done (modTd (fun t => { t with v := v }) s)

def cmdQueueSpaceSet : Cmd := { op := 0x0A01, need := fun _ => 1, objs := objOp 0x0A01, act := actQueueSpaceSet }

/-- QUEUE.SPACE_SET (R243). -/
def execQueueSpaceSet (c : Call) (q : List Word) (s : State) : Host.Outcome State Fault Refusal :=
  .next (runCommand cmdQueueSpaceSet c q s)

/-- Clear the counters of a new queue (R273). -/
def newQueueCtrs (q : Nat) (s : State) : State := ctrClear 3 q (List.range 10) s

/-- Own meaning of VOQ.CREATE (R245, R246). -/
def actVoqCreate : Act := fun x q s =>
  let dsp := fld q 0 15 0
  let first := fld q 1 19 0
  let mask := fld q 2 7 0
  if first % 8 ≠ 0 ∨ s.td.v < first + 8 ∨ thas s.td.sets (first / 8) ∨ (setOf s.td.sets dsp).isSome
      ∨ (x.ph ≠ .commit ∧ (reservedIdx s 0xA7).contains (first / 8)) then fail stNotPermitted s
  else
    let s := (List.range 8).foldl (fun s c => newQueueCtrs (first + c) s) s
    created (handle 0xA7 (first / 8)) (modTd (fun t => { t with
      sets := tset t.sets (first / 8) { dsp := dsp, mask := mask }
      queues := (List.range 8).foldl (fun qs c => tset qs (first + c) { cfg := { det := bit mask c } }) t.queues }) s)

def cmdVoqCreate : Cmd := { op := 0x0A02, staging := .may, need := fun _ => 3, adm := true, act := actVoqCreate }

/-- VOQ.CREATE (R245). -/
def execVoqCreate (c : Call) (q : List Word) (s : State) : Host.Outcome State Fault Refusal :=
  .next (runCommand cmdVoqCreate c q s)

/-- Own meaning of VOQ.DELETE (R271). -/
def actVoqDelete : Act := fun x q s =>
  let i := hIdx (wd q 0)
  if hType (wd q 0) ≠ 0xA7 ∨ !x.knows s (wd q 0) then fail stBadHandle s
  else if x.ph = .stage then done s
  else if (List.range 8).any fun c => match tget s.td.queues (8 * i + c) with | some y => !y.pkts.isEmpty | none => false then
    fail stNotPermitted s
  else done (modTd (fun t => { t with
    sets := terase t.sets i, queues := (List.range 8).foldl (fun qs c => terase qs (8 * i + c)) t.queues }) s)

def cmdVoqDelete : Cmd :=
  { op := 0x0A03, staging := .may, need := fun _ => 1, objs := objWord0, refs := refWord0, adm := true, act := actVoqDelete }

/-- VOQ.DELETE (R271). -/
def execVoqDelete (c : Call) (q : List Word) (s : State) : Host.Outcome State Fault Refusal :=
  .next (runCommand cmdVoqDelete c q s)

/-! ### Egress queues -/

/-- Own meaning of QUEUE.CREATE (Table 9-3, R249 to R251). -/
def actQueueCreate : Act := fun x q s =>
  let i := fld q 0 19 0
  let c := queueIn q
  let parent := hwd q 1
  if i < s.td.v ∨ thas s.td.queues i ∨ !schedRangeOk q ∨ !queueRangeOk c ∨ !queueKindOk c q
      ∨ (x.ph ≠ .commit ∧ (reservedIdx s 0xA0).contains i) then fail stNotPermitted s
  else if parent ≠ 0 ∧ x.ph = .stage ∧ x.reservedHere s parent then created (handle 0xA0 i) s
  else if x.ph ≠ .stage ∧ !wredKnown s c then fail stNotPermitted s
  else match if parent = 0 then none else parentRefuses s parent 4 (fld q 2 2 0) c.det none with
    | some st => fail st s
    | none =>
      let y : Queue := { cfg := c, sch := schedIn q (nowLin s) }
      created (handle 0xA0 i) (newQueueCtrs i (modTd (fun t => { t with queues := tset t.queues i y }) s))

def cmdQueueCreate : Cmd :=
  { op := 0x0A10, staging := .may, need := fun _ => 13, refs := fun q => [wd q 1], adm := true, act := actQueueCreate }

/-- QUEUE.CREATE (R249). -/
def execQueueCreate (c : Call) (q : List Word) (s : State) : Host.Outcome State Fault Refusal :=
  .next (runCommand cmdQueueCreate c q s)

/-- The queue that a handle names. -/
def queueAt (s : State) (h : Nat) : Option (Nat × Queue) :=
  if hType h = 0xA0 then (tget s.td.queues (hIdx h)).map fun x => (hIdx h, x) else none

/-- Own meaning of QUEUE.SET (R270, Table 9-5). For a VOQ words 1 to 8 are 0 and its kind stays. -/
def actQueueSet : Act := fun x q s =>
  let h := wd q 0
  match queueAt s h with
  | none => if x.reservedHere s h && hType h == 0xA0 then done s else fail stBadHandle s
  | some (i, y) =>
    let c := queueIn q
    if i < s.td.v then
      let c := { c with det := y.cfg.det }
      if (List.range 8).any (fun j => wd q (j + 1) != 0) || !queueRangeOk c || (c.det && c.wred.any fun w => w != 0) then
        fail stNotPermitted s
      else if x.ph = .stage then done s
      else if !wredKnown s c then fail stNotPermitted s
      else if x.ph = .commit then done (applyQueue i c y.sch s)
      else done (modQueue i (fun y => { y with pend := some (c, y.sch) }) s)
    else if !schedRangeOk q || !queueRangeOk c || !queueKindOk c q then fail stNotPermitted s
    else if x.ph = .stage then
      if hwd q 1 = 0 ∨ x.knows s (wd q 1) then done s else fail stBadHandle s
    else if !wredKnown s c || (c.det != y.cfg.det && !y.pkts.isEmpty) then fail stNotPermitted s
    else match if hwd q 1 = 0 then none else parentRefuses s (wd q 1) 4 (fld q 2 2 0) c.det (portOfQueue s i) with
      | some st => fail st s
      | none =>
        let sch := schedIn q (nowLin s)
        if x.ph = .commit then done (applyQueue i c sch s)
        else done (modQueue i (fun y => { y with pend := some (c, sch) }) s)

def cmdQueueSet : Cmd :=
  { op := 0x0A11, staging := .may, need := fun _ => 13, objs := objWord0, refs := fun q => [wd q 0, wd q 1], adm := true
    act := actQueueSet }

/-- QUEUE.SET (R270). -/
def execQueueSet (c : Call) (q : List Word) (s : State) : Host.Outcome State Fault Refusal :=
  .next (runCommand cmdQueueSet c q s)

/-- Own meaning of QUEUE.DELETE (R271): a queue that holds packets, has a parent or belongs to a VOQ set stays. -/
def actQueueDelete : Act := fun x q s =>
  let h := wd q 0
  match queueAt s h with
  | none => if x.reservedHere s h && hType h == 0xA0 then done s else fail stBadHandle s
  | some (i, y) =>
    if i < s.td.v then fail stNotPermitted s
    else if x.ph = .stage then done s
    else if !y.pkts.isEmpty || y.sch.parent != 0 then fail stNotPermitted s
    else done (modTd (fun t => { t with queues := terase t.queues i }) s)

def cmdQueueDelete : Cmd :=
  { op := 0x0A12, staging := .may, need := fun _ => 1, objs := objWord0, refs := refWord0, adm := true, act := actQueueDelete }

/-- QUEUE.DELETE (R271). -/
def execQueueDelete (c : Call) (q : List Word) (s : State) : Host.Outcome State Fault Refusal :=
  .next (runCommand cmdQueueDelete c q s)

/-- Before the packets of queue q change, its port's lists are brought in line with the time that has passed (R255). -/
def queueSettled (q : Nat) (s : State) : State :=
  match if q < s.td.v then none else portOfQueue s q with
  | some p => refreshPort p s
  | none => s

/-- What follows a change of the packets of queue q: a VOQ's status, or the lists of the queue's port. -/
def queueChanged (q : Nat) (s : State) : State :=
  if q < s.td.v then statusCheck q s
  else match portOfQueue s q with
    | some p => refreshPort p s
    | none => s

/-- Own meaning of QUEUE.FLUSH (R271). -/
def actQueueFlush : Act := fun _ q s =>
  match queueAt s (wd q 0) with
  | none => fail stBadHandle s
  | some (i, _) => match queueFlushAll i 8 (queueSettled i s) with
    | (n, s) => reply [toWord n] (queueChanged i s)

def cmdQueueFlush : Cmd := { op := 0x0A13, need := fun _ => 1, objs := objWord0, act := actQueueFlush }

/-- QUEUE.FLUSH (R271). -/
def execQueueFlush (c : Call) (q : List Word) (s : State) : Host.Outcome State Fault Refusal :=
  .next (runCommand cmdQueueFlush c q s)

/-- Tokens of a shaper in bytes, rounded down, as a word. -/
def tokenWord (x : Shaper) (t : Nat) : Word := toWord (unsigned 32 (ifloorDiv (x.refill t).tok 65536))

/-- Own meaning of QUEUE.STATUS (R253, Table 9-5). -/
def actQueueStatus : Act := fun _ q s =>
  match queueAt s (wd q 0) with
  | none => fail stBadHandle s
  | some (i, y) =>
    let t := nowLin s
    let (el, co) := match if s.td.v ≤ i then portOfQueue s i else none with
      | some p => (eligible s p t 5 (wd q 0), committed s p t (wd q 0))
      | none => (false, false)
    reply (toWords y.depth 2 ++ toWords (unsigned 64 y.avg) 2
      ++ [toWord y.pkts.length, toWord (b2n el + 2 * b2n co + 4 * b2n y.depthFlag + 8 * b2n y.delayFlag)]
      ++ toWords y.sch.min.rate 2 ++ toWords y.sch.max.rate 2
      ++ [tokenWord y.sch.min t, tokenWord y.sch.max t, toWord y.sch.deficit]) s

def cmdQueueStatus : Cmd := { op := 0x0A14, reading := true, need := fun _ => 1, act := actQueueStatus }

/-- QUEUE.STATUS (R253). -/
def execQueueStatus (c : Call) (q : List Word) (s : State) : Host.Outcome State Fault Refusal :=
  .next (runCommand cmdQueueStatus c q s)

/-- Own meaning of QUEUE.COUNTERS (R273). -/
def actQueueCounters : Act := fun _ q s =>
  match queueAt s (wd q 0) with
  | none => fail stBadHandle s
  | some (i, _) =>
    reply (ctrWords s.ctr 3 i (List.range 10)) (if flag q 1 0 then ctrClear 3 i (List.range 10) s else s)

def cmdQueueCounters : Cmd := { op := 0x0A15, reading := true, need := fun _ => 2, act := actQueueCounters }

/-- QUEUE.COUNTERS (R273). -/
def execQueueCounters (c : Call) (q : List Word) (s : State) : Host.Outcome State Fault Refusal :=
  .next (runCommand cmdQueueCounters c q s)

/-! ### Nodes -/

/-- Own meaning of NODE.CREATE (R249, Table 9-3). -/
def actNodeCreate : Act := fun x q s =>
  let l := fld q 0 1 0
  let parent := hwd q 1
  if l = 0 ∨ !schedRangeOk q then fail stNotPermitted s
  else if parent = 0 then fail stBadHandle s
  else
    let make (port : Nat) (check : Bool) : Res :=
      if check ∧ [0, 1024, 16384, 65536].getD l 0 ≤ quarterCount s l port then fail stResourceShort s
      else match if x.ph = .commit then some (hIdx x.reserved) else nodeIdx s l (reservedIdx s (levelType l)) with
        | none => fail stResourceShort s
        | some i =>
          let n : Node := { level := l, port := port, sch := schedIn q (nowLin s) }
          created (handle (levelType l) i) (modTd (fun t => { t with nodes := tset t.nodes (handle (levelType l) i) n }) s)
    if x.ph = .stage ∧ x.reservedHere s parent then
      (if levelType l ≤ hType parent ∨ hType parent < 0xA1 then fail stNotPermitted s else make 0 false)
    else match parentRefuses s parent l (fld q 2 2 0) false none, tget s.td.nodes parent with
      | some st, _ => fail st s
      | none, some n => make n.port true
      | none, none => fail stBadHandle s

def cmdNodeCreate : Cmd :=
  { op := 0x0A20, staging := .may, need := fun _ => 9, refs := fun q => [wd q 1], act := actNodeCreate }

/-- NODE.CREATE (R249). -/
def execNodeCreate (c : Call) (q : List Word) (s : State) : Host.Outcome State Fault Refusal :=
  .next (runCommand cmdNodeCreate c q s)

/-- The status by which NODE.SET refuses settings of a node, or none (Table 9-4, R249, R251, R252). -/
def nodeSetRefuses (s : State) (n : Node) (q : List Word) : Option Nat :=
  if n.level = 0 then
    if hwd q 1 ≠ 0 ∨ wd64 q 3 ≠ 0 ∨ wd64 q 6 < 1000 ∨ n.top < wd64 q 6 then some stNotPermitted else none
  else if hwd q 1 = 0 then some stBadHandle
  else if n.client.isSome ∧ storedRate (wd64 q 6) ≠ n.sch.max.rate then some stNotPermitted
  else parentRefuses s (wd q 1) n.level (fld q 2 2 0) false (some n.port)

/-- Own meaning of NODE.SET (R252, R270). -/
def actNodeSet : Act := fun x q s =>
  let h := wd q 0
  match tget s.td.nodes h with
  | none => if x.reservedHere s h && decide (0xA1 ≤ hType h) && decide (hType h ≤ 0xA4) then done s else fail stBadHandle s
  | some n =>
    if !shapersOk q ∨ (n.level ≠ 0 ∧ fld q 2 18 3 = 0) then fail stNotPermitted s
    else if x.ph = .stage ∧ x.reservedHere s (wd q 1) then done s
    else match nodeSetRefuses s n q with
      | some st => fail st s
      | none =>
        if x.ph = .stage then done s
        else
          let y := schedIn q (nowLin s)
          let new := if n.level = 0 then { y with band := n.sch.band, quantum := n.sch.quantum } else y
          if x.ph = .commit then done (applySched h new s)
          else done (modTd (fun t => { t with nodePend := tset t.nodePend h new }) s)

def cmdNodeSet : Cmd :=
  { op := 0x0A21, staging := .may, need := fun _ => 9, objs := objWord0, refs := fun q => [wd q 0, wd q 1], act := actNodeSet }

/-- NODE.SET (R270). -/
def execNodeSet (c : Call) (q : List Word) (s : State) : Host.Outcome State Fault Refusal :=
  .next (runCommand cmdNodeSet c q s)

/-- Whether a setting that awaits the next tide boundary gives a queue or node the parent h (R250, R270). -/
def awaited (s : State) (h : Nat) : Bool :=
  s.td.nodePend.any (fun e => e.2.parent == h) || s.td.queues.any fun e => match e.2.pend with
    | some (_, x) => x.parent == h
    | none => false

/-- Own meaning of NODE.DELETE (R250). -/
def actNodeDelete : Act := fun x q s =>
  let h := wd q 0
  match tget s.td.nodes h with
  | none => if x.reservedHere s h && decide (0xA1 ≤ hType h) && decide (hType h ≤ 0xA4) then done s else fail stBadHandle s
  | some n =>
    if n.level = 0 ∨ n.client.isSome then fail stNotPermitted s
    else if x.ph = .stage then done s
    else if !(childrenIn s h).isEmpty || awaited s h || (x.ph == .direct && stagedRef s h) then fail stNotPermitted s
    else
      let s := unlist h s
      done (modTd (fun t => { t with nodes := terase t.nodes h, nodePend := terase t.nodePend h }) s)

def cmdNodeDelete : Cmd :=
  { op := 0x0A22, staging := .may, need := fun _ => 1, objs := objWord0, act := actNodeDelete }

/-- NODE.DELETE (R250). -/
def execNodeDelete (c : Call) (q : List Word) (s : State) : Host.Outcome State Fault Refusal :=
  .next (runCommand cmdNodeDelete c q s)

/-- Own meaning of NODE.STATUS (R258, Table 9-5). -/
def actNodeStatus : Act := fun _ q s =>
  let h := wd q 0
  match tget s.td.nodes h with
  | none => fail stBadHandle s
  | some n =>
    let kids := childrenIn s h
    let bandOn (b : Nat) : Bool := kids.any fun c =>
      inBand s b c && eligible s n.port (nowLin s) 5 c
    let t := nowLin s
    reply ([toWord kids.length, toWord ((List.range 8).foldl (fun a b => a + b2n (bandOn b) * 2 ^ b) 0)]
      ++ toWords n.sch.min.rate 2 ++ toWords n.sch.max.rate 2
      ++ [tokenWord n.sch.min t, tokenWord n.sch.max t, toWord n.sch.deficit]) s

def cmdNodeStatus : Cmd := { op := 0x0A23, reading := true, need := fun _ => 1, act := actNodeStatus }

/-- NODE.STATUS (R258). -/
def execNodeStatus (c : Call) (q : List Word) (s : State) : Host.Outcome State Fault Refusal :=
  .next (runCommand cmdNodeStatus c q s)

/-! ### WRED profiles and sampler groups -/

/-- Own meaning of WRED.PROFILE_SET (R263, R270). -/
def actWredProfileSet : Act := fun x q s =>
  let i := fld q 0 7 0
  let w : Wred := { minT := wd q 1, maxT := wd q 2, pmax := fld q 3 8 0, w := fld q 3 19 16 }
  if i = 0 ∨ w.maxT ≤ w.minT ∨ 256 < w.pmax then fail stNotPermitted s
  else if x.ph = .stage then done s
  else if x.ph = .commit then done (modTd (fun t => { t with wred := tset t.wred i w }) s)
  else done (modTd (fun t => { t with wredPend := tset t.wredPend i w }) s)

def cmdWredProfileSet : Cmd :=
  { op := 0x0A30, staging := .may, need := fun _ => 4, objs := fun q => [[0x0A30, fld q 0 7 0]], act := actWredProfileSet }

/-- WRED.PROFILE_SET (R263). -/
def execWredProfileSet (c : Call) (q : List Word) (s : State) : Host.Outcome State Fault Refusal :=
  .next (runCommand cmdWredProfileSet c q s)

/-- Own meaning of SAMPLER.GROUP_SET (R268, R269). -/
def actSamplerGroupSet : Act := fun x q s =>
  let g := fld q 0 11 0
  let y : Sampler :=
    { depthBase := fld q 1 15 0, delayBase := fld q 1 31 16, depthHigh := wd q 2, depthClear := wd q 3,
      delayHigh := wd q 4, delayClear := wd q 5 }
  if y.depthBase = 0 ∨ y.delayBase = 0 ∨ y.depthHigh < y.depthClear ∨ y.delayHigh < y.delayClear then fail stNotPermitted s
  else if x.ph = .stage then done s
  else if x.ph = .commit then done (modTd (fun t => { t with samplers := tset t.samplers g y }) s)
  else done (modTd (fun t => { t with samplerPend := tset t.samplerPend g y }) s)

def cmdSamplerGroupSet : Cmd :=
  { op := 0x0A40, staging := .may, need := fun _ => 6, objs := fun q => [[0x0A40, fld q 0 11 0]], act := actSamplerGroupSet }

/-- SAMPLER.GROUP_SET (R268). -/
def execSamplerGroupSet (c : Call) (q : List Word) (s : State) : Host.Outcome State Fault Refusal :=
  .next (runCommand cmdSamplerGroupSet c q s)

/-- Own meaning of SAMPLER.HIST_READ (R268): depth bins, then delay bins. -/
def actSamplerHistRead : Act := fun _ q s =>
  let g := fld q 0 11 0
  reply (ctrWords s.ctr 7 g (List.range 32)) (if flag q 1 0 then ctrClear 7 g (List.range 32) s else s)

def cmdSamplerHistRead : Cmd := { op := 0x0A41, reading := true, need := fun _ => 2, act := actSamplerHistRead }

/-- SAMPLER.HIST_READ (R268). -/
def execSamplerHistRead (c : Call) (q : List Word) (s : State) : Host.Outcome State Fault Refusal :=
  .next (runCommand cmdSamplerHistRead c q s)

/-- Own meaning of SCHED.COUNTERS (R274). -/
def actSchedCounters : Act := fun _ _ s => reply (ctrWords s.ctr 0x4A 0 (List.range 8)) s

def cmdSchedCounters : Cmd := { op := 0x0A50, reading := true, need := fun _ => 1, act := actSchedCounters }

/-- SCHED.COUNTERS (R274). -/
def execSchedCounters (c : Call) (q : List Word) (s : State) : Host.Outcome State Fault Refusal :=
  .next (runCommand cmdSchedCounters c q s)

/-! ### Enqueue (R245, R248, R261) -/

/-- Put the copies of a buffered packet in their VOQs (R225, R230, R245). -/
def enqueueCopies (k : Pkt) (plan : List (Meta × Nat × Bool)) (s : State) : State :=
  let one := packed false k
  let s := if one then s else k.bufs.foldl (fun s b => bufReplicate (poolFor false k) b (plan.length - 1) s) s
  let s := plan.foldl (fun s (m, q, mark) =>
    let (bufs, s) := if one then chainPut q m.len k.bufs s else (k.bufs, s)
    queuePut q mark { k with md := m, bufs := bufs } s) s
  plan.foldl (fun s (_, q, _) => serveVoq q (statusCheck q s)) s

/-- Hand a packet of local destination 64 to its receive ring (R426, R427). -/
def toHost (k : Pkt) (s : State) : State :=
  hostPut (k.md.queue % 64) k.bytes k.ts k.md (releasePkt true k s)

/-- Release the buffers that a packet holds beyond what it needs. -/
def trimBufs (egress : Bool) (k : Pkt) (s : State) : Pkt × State :=
  let n := needOf egress { k with bufs := [] } s
  ({ k with bufs := k.bufs.take n }, bufReleaseAll (poolFor egress k) (k.bufs.drop n) k.owner releaser s)

/-- Check, buffer and enqueue one waiting packet (R261). -/
def enqueuePkt (egress : Bool) (k : Pkt) (s : State) : State :=
  if egress && sysLocal s k.md.dsp == some 64 then toHost k s
  else match planPkt egress k s with
    | (k, s) => match k.plan with
      | none | some [] => capLost k (releasePkt egress k s)
      | some plan => match trimBufs egress k s with
        | (k, s) => match allocAll egress 70 k s with
          | (none, s) => capLost k s
          -- The turnaround has copied the packet: its HBM buffers go (R226).
          | (some k, s) =>
            if egress then plan.foldl (fun s (m, q, mark) => queueChanged q (queuePut q mark { k with md := m } (queueSettled q s))) (hbmDone k s)
            else enqueueCopies k plan s

/-- QUEUE_ENQUEUE: the first packet of a pool client that waits at TD ingress or TD egress is enqueued, after the
existence, kind, tail and WRED checks and its buffers (R245, R248, R261). -/
def execQueueEnqueue (t client : Nat) (egress : Bool) (s : State) : Host.Outcome State Fault Refusal :=
  let s := s.atTime t
  let l := waitingAt egress s
  let i := l.findIdx fun k => k.ready && k.owner == client
  match l[i]? with
  | none => .next s
  | some k =>
    -- The fenced pool manager answers the request of the enqueue unit with the fenced indication (R22).
    if fenced s 60 then .next (fencedReq (40 + servingSlice s k.md.queue) 0 s)
    else .next (enqueuePkt egress k (setWaiting egress (l.eraseIdx i) s))

/-! ### Selection (R253 to R257, R289 to R292) -/

/-- Drop the head frames of a queue that are longer than every window of its class, with fuel (R292). -/
def dropTooLong (p q : Nat) : Nat → State → State
  | 0, s => s
  | f + 1, s =>
    match tget s.td.queues q with
    | none => s
    | some x => match x.pkts with
      | [] => s
      | k :: r =>
        let l := txLen s p k
        if !gateTooLong s p x.cfg.gate l then s
        else
          let s := capLost k (releasePkt true k (detCount 1 1 (modQueue q (fun x => { x with pkts := r }) s)))
          let s := if (s.det.gates.getD p {}).longTide = s.tm.tide + 1 then s
            else raise 0x0B 3 (quarterUnit p) (pay [(handle 0x30 p, 4), (handle 0xA0 q, 4), (l, 4)])
              (modGate p (fun g => { g with longTide := s.tm.tide + 1 }) s)
          dropTooLong p q f s

/-- Drop the head frames of a port that no window can hold. -/
def dropTooLongs (p : Nat) (s : State) : State :=
  if gated s p then
    (queuesOfPort s p).foldl (fun s q => dropTooLong p q (match tget s.td.queues q with | some x => x.pkts.length | none => 0) s) s
  else s

/-- Whether band 0 of a port has a head frame that its gate refuses at time t (R291). -/
def gateBlocked (s : State) (p t : Nat) : Bool :=
  gated s p && (queuesOfPort s p).any fun q => match tget s.td.queues q with
    | some x => x.sch.band == 0 && !x.pkts.isEmpty && !queueGate s p q t
    | none => false

/-- The packet that a port node has chosen from queue q leaves the TD, dealt to the pipelines of its octet alternately; the
isolated TD end of the bridge discards and counts it (R28, R131, R154, R254, R289). -/
def selectPkt (p q : Nat) (committed : Bool) (s : State) : State :=
  match queueTake q s with
  | (none, _) => s
  | (some k, s) =>
    let s := schedCount (quarterUnit p) 4 1 s
    let s := if committed then schedCount (quarterUnit p) 5 1 s else s
    let l := txLen s p k
    let start := if gated s p then some (launchAt s p (nowLin s)) else none
    let s := match start with
      | some st => modGate p (fun g => { g with busy := st + byteTime (l + 20) (macRate s p) }) s
      | none => s
    let out := clientOfQueue s q
    let s := releasePkt true k (chargePath q k.md.len s)
    let o := p / 8
    let b := s.fwd.dealEg.getD o false
    let k := { k with
      md := { k.md with egEpoch := s.fwd.epoch }, bufs := [], since := elapsed s, start := start, outClient := out
      pipe := dealTo s o b }
    let s := modFwd (fun w => { w with dealEg := w.dealEg.set o (!b) }) s
    refreshPort p (if s.flt.isolated then capLost k { s with flt := { s.flt with isoTd := s.flt.isoTd + 1 } }
      else modFwd (fun w => { w with egress := w.egress ++ [(p, k)] }) s)

/-- Selections that the quarter of port p, and port p itself, have made in the clock at time t (R257). -/
def selectionsIn (s : State) (p t : Nat) : Nat × Nat :=
  s.td.nodes.foldl (fun n e =>
    if e.2.level = 0 ∧ e.2.port / 16 = p / 16 ∧ e.2.selClk = coreClocks t then
      (n.1 + e.2.sels.length, if e.2.port = p then e.2.sels.length else n.2)
    else n) (0, 0)

/-- Record a selection of port p: whether its packet came from band 0. -/
def noteSelection (p : Nat) (top : Bool) (s : State) : State :=
  modNode (handle 0xA1 p) (fun x => { x with
    selClk := coreClocks (nowLin s), sels := (if x.selClk = coreClocks (nowLin s) then x.sels else []) ++ [top] }) s

/-- Whether a queue hangs in band 0 of a port node: whether it is deterministic (R251). -/
def topBand (s : State) (q : Nat) : Bool :=
  match tget s.td.queues q with
  | some x => x.cfg.det
  | none => false

/-- Count the clock in which band 0 of a port had a frame that its gate refuses and selected nothing, once (R291). -/
def countDeferral (p : Nat) (s : State) : State :=
  let clk := coreClocks (nowLin s)
  match tget s.td.nodes (handle 0xA1 p) with
  | some x =>
    if (s.det.gates.getD p {}).deferred = clk + 1 ∨ (x.selClk = clk ∧ x.sels.contains true) ∨ !gateBlocked s p (clockBefore (nowLin s)) then s
    else detCount 2 1 (modGate p (fun g => { g with deferred := clk + 1 }) s)
  | none => s

/-- The choice of a port node at time t: its maximum shaper permits it, and the limits of a clock are not reached (R252, R254, R257,
R259). -/
def portChoice (p t : Nat) (s : State) : Option (Nat × Bool × State) :=
  match tget s.td.nodes (handle 0xA1 p) with
  | some x =>
    if x.sch.max.ok (clockBefore t) && decide ((selectionsIn s p t).1 < 4) && decide ((selectionsIn s p t).2 < 2) then
      choose (clockBefore t) 5 (handle 0xA1 p) s
    else none
  | none => none

/-- SCHEDULER_SELECT: a port node selects the next packet of its port, from what the clocks before this one have made eligible
(R254, R256, R291, R292). -/
def execSchedulerSelect (t port : Nat) (s : State) : Host.Outcome State Fault Refusal :=
  let s := dropTooLongs port (s.atTime t)
  if portHeld s port || !mayDrive s || fenced s (56 + port / 16) then .next (refreshPort port s)
  else
    let s := refreshSelect port (nowLin s) s
    match portChoice port (nowLin s) s with
    | some (q, co, u) =>
      .next (selectPkt port q co (noteSelection port (topBand u q) (if topBand u q then u else countDeferral port u)))
    | none => .next (refreshPort port (countDeferral port s))

/-- SHAPER_RECOVERED: the tokens of a shaper have reached 0 and its child wakes (R255, R256). -/
def execShaperRecovered (t h : Nat) (s : State) : Host.Outcome State Fault Refusal :=
  let s := s.atTime t
  match portOfNode s h with
  | some p => .next (refreshPort p s)
  | none => .next s

/-! ### Sampling (R266 to R269) -/

/-- The histogram bin of a value for a base (R268). -/
def histBin (v b : Nat) : Nat := if v < b then 0 else min 15 (Nat.log2 (v / b) + 1)

/-- Raise a threshold event of a queue, within the tide's limit (R269). -/
def sampleEvent (code q g v : Nat) (s : State) : State :=
  if s.td.sampEvents < 4096 then
    raise 0x0A code (sliceUnit s q) (pay [(handle 0xA0 q, 4), (g, 2), (v, 8)]) (modTd (fun t => { t with sampEvents := t.sampEvents + 1 }) s)
  else schedCount (sliceUnit s q) 7 1 s

/-- The depth and delay samples of a visit: histograms, flags and events (R268, R269). -/
def sampleQueue (q depth delay : Nat) (s : State) : State :=
  match (tget s.td.queues q).bind fun x => x.cfg.sampler.map fun g => (x, g) with
  | none => s
  | some (x, g) =>
    let y := tgetD s.td.samplers g {}
    let add (k : Nat) (s : State) : State := ctrPut 7 g k ((ctrGet s 7 g k + 1) % 2 ^ 48) s
    let s := add (16 + histBin delay (64 * y.delayBase)) (add (histBin depth (64 * y.depthBase)) s)
    let s := if 0 < y.depthHigh ∧ 64 * y.depthHigh < depth ∧ !x.depthFlag then
        sampleEvent 1 q g depth (modQueue q (fun x => { x with depthFlag := true }) s)
      else if x.depthFlag ∧ depth ≤ 64 * y.depthClear then
        sampleEvent 2 q g depth (modQueue q (fun x => { x with depthFlag := false }) s)
      else s
    if 0 < y.delayHigh ∧ 64 * y.delayHigh < delay ∧ !x.delayFlag then
      sampleEvent 3 q g delay (modQueue q (fun x => { x with delayFlag := true }) s)
    else if x.delayFlag ∧ delay ≤ 64 * y.delayClear then
      sampleEvent 4 q g delay (modQueue q (fun x => { x with delayFlag := false }) s)
    else s

/-- Discard the head packets of a queue that are at or past its age limit, at most as many as the fuel: how many, and
the state (R266). -/
def ageDrops (q : Nat) : Nat → State → Nat × State
  | 0, s => (0, s)
  | f + 1, s =>
    match tget s.td.queues q with
    | none => (0, s)
    | some x => match x.pkts with
      | [] => (0, s)
      | k :: r =>
        if delayOf s k < x.cfg.age * 125000 then (0, s)
        else match ageDrops q f (queueDiscard q 7 k (modQueue q (fun x => { x with pkts := r }) s)) with
          | (n, s) => (n + 1, s)

/-- SAMPLER_VISIT: the home slice visits queue q (R263, R266 to R269). -/
def execSamplerVisit (t q : Nat) (s : State) : Host.Outcome State Fault Refusal :=
  let s := s.atTime t
  match tget s.td.queues q with
  | none => .next s
  | some x =>
    let s := queueSettled q s
    let depth := x.depth
    let delay := match x.pkts with | k :: _ => delayOf s k | [] => 0
    let s := match x.cfg.wred.findSome? fun i => tget s.td.wred i with
      | some w => modQueue q (fun x => { x with avg := avgNext x.avg depth w.w }) s
      | none => s
    let s := sampleQueue q depth delay s
    match ageDrops q (min 4096 x.pkts.length) s with
    | (n, s) =>
      if n = 0 then .next s
      else
        let s := if x.cfg.det then raise 0x0A 5 (sliceUnit s q) (pay [(handle 0xA0 q, 4), (n, 4)]) s else s
        .next (queueChanged q s)

end Sys2Proof.Machine
end

