-- ==== Sys2Proof/Machine/Streams.lean ====
section
/-! DEFINITION. Commands and events of deterministic service (spec/10_deterministic_service.md); DET.CHECK is with the
transactions. -/

namespace Sys2Proof.Machine

open Sys2Proof

/-- Change deterministic service. -/
def modDet (f : DetSt → DetSt) (s : State) : State := { s with det := f s.det }

/-- Fixed path latency of a profile, ns (R47, Table 1-9). -/
def fixedPath (profile : Nat) : Nat := if profile = 2 then 1900 else 2600

/-! ### Streams (R276 to R279, Table 10-7) -/

/-- Members that a request declares: words 6 on. -/
def membersIn (q : List Word) : List Member :=
  (List.range (fld q 0 11 10 + 1)).map fun i =>
    { nh := wd q (6 + 2 * i), port := fld q (7 + 2 * i) 5 0, remote := flag q (7 + 2 * i) 6, e := fld q (7 + 2 * i) 31 8 }

/-- The declaration of a request (Table 10-7). -/
def streamIn (q : List Word) : StreamCfg :=
  { port := fld q 0 5 0, cls := fld q 0 8 6, sage := flag q 0 9, copies := fld q 0 13 12 + 1, gen := fld q 0 15 14,
    init := fld q 0 31 16, lrx := fld q 1 13 0, n := fld q 2 15 0, i := fld q 3 29 0, d := wd q 4, ctx := hwd q 5,
    members := membersIn q }

/-- Whether the values of a declaration are in range (Table 10-7). -/
def streamRangeOk (s : State) (q : List Word) (c : StreamCfg) : Bool :=
  (!c.sage || s.fwd.profile == 2) && decide (c.gen ≤ 2) && decide (64 ≤ c.lrx) && decide (c.lrx ≤ 16000) && decide (1 ≤ c.n)
    && decide (1000 ≤ c.i) && decide (c.i ≤ 1000000000) && decide (c.d ≤ 1000000000)
    && (c.members.all fun m => if m.remote then decide (1 ≤ m.e) else m.e == 0)
    && (List.range 4).all fun i => decide (i < c.members.length) || hwd q (6 + 2 * i) == 0

/-- Whether the handles of a declaration are known (R11, R454). -/
def streamKnown (x : Ctx) (s : State) (c : StreamCfg) : Bool :=
  (c.ctx == 0 || (hType c.ctx == 0xB1 && x.knows s c.ctx)) && c.members.all fun m => hType m.nh == 0x60 && x.knows s m.nh

/-- Whether every local member's next-hop leads to its named egress port, and every remote one's does not (R279). -/
def streamPathsOk (s : State) (c : StreamCfg) : Bool :=
  c.members.all fun m => m.remote || match tget s.fwd.cfg.nhs (hIdx m.nh) with
    | some nh => sysLocal s nh.dsp == some m.port
    | none => false

/-- Streams that name a recovery context, but one of them. -/
def ctxUsers (s : State) (ctx but : Nat) : Nat :=
  (s.det.streams.filter fun e => e.1 != but && (e.2.pend.getD e.2.cfg).ctx == ctx).length

/-- Objects that exist among streams and egress records (R276). -/
def detObjects (s : State) : Nat := s.det.streams.length + s.det.recs.length

/-- Own meaning of STREAM.CREATE (R276, R279, R297, Table 10-7). -/
def actStreamCreate : Act := fun x q s =>
  let c := streamIn q
  if !streamRangeOk s q c then fail stNotPermitted s
  else if !streamKnown x s c then fail stBadHandle s
  else if c.d < fixedPath s.fwd.profile then
    ⟨stDeadlineUnmet, 0#32 :: breakdown stDeadlineUnmet 1 0 0 0 (fixedPath s.fwd.profile) c.d 0 0, s, 0⟩
  else if x.ph ≠ .stage ∧ (!streamPathsOk s c || (c.ctx != 0 && decide (16 ≤ ctxUsers s c.ctx 0x1000000))) then
    fail stNotPermitted s
  else if 262144 ≤ detObjects s then fail stResourceShort s
  else match newIdx x 0xB0 s.det.streams 262144 s with
    | none => fail stResourceShort s
    | some i =>
      let y : Stream := { cfg := c, seq := c.init, live := x.ph == .commit, pend := if x.ph = .commit then none else some c }
      created (handle 0xB0 i) (ctrClear 4 i (List.range 6) (modDet (fun d => { d with streams := tset d.streams i y }) s))

def cmdStreamCreate : Cmd :=
  { op := 0x0B01, staging := .may, need := fun _ => 14
    refs := fun q => wd q 5 :: (membersIn q).map fun m => m.nh
    adm := true, act := actStreamCreate }

/-- STREAM.CREATE (R279). -/
def execStreamCreate (c : Call) (q : List Word) (s : State) : Host.Outcome State Fault Refusal :=
  .next (runCommand cmdStreamCreate c q s)

/-- Give a stream a new declaration: the sequence continues unless sequence generation changes (R283). -/
def Stream.change (y : Stream) (c : StreamCfg) : Stream :=
  { y with cfg := c, pend := none, live := true, seq := if c.gen = y.cfg.gen then y.seq else c.init }

/-- The stream that a handle names. -/
def streamAt (s : State) (h : Nat) : Option (Nat × Stream) :=
  if hType h = 0xB0 then (tget s.det.streams (hIdx h)).map fun y => (hIdx h, y) else none

/-- Own meaning of STREAM.SET (R297, Table 10-8). -/
def actStreamSet : Act := fun x q s =>
  let c := streamIn (q.drop 1)
  if (streamAt s (wd q 0)).isNone && !(x.reservedHere s (wd q 0) && hType (wd q 0) == 0xB0) then fail stBadHandle s
  else if !streamRangeOk s (q.drop 1) c then fail stNotPermitted s
  else if !streamKnown x s c then fail stBadHandle s
  else if c.d < fixedPath s.fwd.profile then
    ⟨stDeadlineUnmet, breakdown stDeadlineUnmet 1 0 0 (wd q 0) (fixedPath s.fwd.profile) c.d 0 0, s, 0⟩
  else match streamAt s (wd q 0) with
    | none => done s
    | some (i, y) =>
      if x.ph = .stage then done s
      else if !streamPathsOk s c || (c.ctx != 0 && decide (16 ≤ ctxUsers s c.ctx i)) then fail stNotPermitted s
      else done (modDet (fun d => { d with
        streams := tset d.streams i (if x.ph = .commit then y.change c else { y with pend := some c }) }) s)

def cmdStreamSet : Cmd :=
  { op := 0x0B02, staging := .may, need := fun _ => 15, objs := objWord0
    refs := fun q => wd q 0 :: wd (q.drop 1) 5 :: (membersIn (q.drop 1)).map fun m => m.nh
    adm := true, act := actStreamSet }

/-- STREAM.SET (R297). -/
def execStreamSet (c : Call) (q : List Word) (s : State) : Host.Outcome State Fault Refusal :=
  .next (runCommand cmdStreamSet c q s)

/-- Own meaning of STREAM.DELETE: refused while an action record names the stream. -/
def actStreamDelete : Act := fun x q s =>
  let h := wd q 0
  match streamAt s h with
  | none => if x.reservedHere s h && hType h == 0xB0 then done s else fail stBadHandle s
  | some (i, _) =>
    if x.ph = .stage then done s
    else if actionTargets s h || (x.ph == .direct && stagedRef s h) then fail stNotPermitted s
    else done (modDet (fun d => { d with streams := terase d.streams i }) s)

def cmdStreamDelete : Cmd :=
  { op := 0x0B03, staging := .may, need := fun _ => 1, objs := objWord0, adm := true, act := actStreamDelete }

/-- STREAM.DELETE (R276). -/
def execStreamDelete (c : Call) (q : List Word) (s : State) : Host.Outcome State Fault Refusal :=
  .next (runCommand cmdStreamDelete c q s)

/-- Own meaning of STREAM.STATUS (R298). -/
def actStreamStatus : Act := fun _ q s =>
  match streamAt s (wd q 0) with
  | none => fail stBadHandle s
  | some (_, y) =>
    reply (toWord (b2n y.live) :: ((List.range 4).map fun i => toWord (y.proved.getD i 0))
      ++ [toWord (y.cfg.share (s.twin.st != 0)), toWord y.seq]) s

def cmdStreamStatus : Cmd := { op := 0x0B04, reading := true, need := fun _ => 1, act := actStreamStatus }

/-- STREAM.STATUS (R298). -/
def execStreamStatus (c : Call) (q : List Word) (s : State) : Host.Outcome State Fault Refusal :=
  .next (runCommand cmdStreamStatus c q s)

/-- Own meaning of STREAM.COUNTERS (R305). -/
def actStreamCounters : Act := fun _ q s =>
  match streamAt s (wd q 0) with
  | none => fail stBadHandle s
  | some (i, _) => reply (ctrWords s.ctr 4 i (List.range 6)) (if flag q 1 0 then ctrClear 4 i (List.range 6) s else s)

def cmdStreamCounters : Cmd := { op := 0x0B05, reading := true, need := fun _ => 2, act := actStreamCounters }

/-- STREAM.COUNTERS (R305). -/
def execStreamCounters (c : Call) (q : List Word) (s : State) : Host.Outcome State Fault Refusal :=
  .next (runCommand cmdStreamCounters c q s)

/-! ### Egress records (R282) -/

/-- Own meaning of STREAM.EGRESS_CREATE (R282, Table 10-8): the queue is a deterministic one of the port. -/
def actStreamEgressCreate : Act := fun x q s =>
  let r : EgressRec := { port := fld q 0 5 0, queue := wd q 1, ltx := fld q 2 13 0, n := fld q 3 15 0, i := fld q 4 29 0, e := fld q 5 23 0 }
  if hType r.queue ≠ 0xA0 ∨ !x.knows s r.queue then fail stBadHandle s
  else if r.ltx < 64 ∨ 16000 < r.ltx ∨ r.n = 0 ∨ r.i < 1000 ∨ 1000000000 < r.i ∨ r.e = 0 then fail stNotPermitted s
  else
    let kindOk : Bool := match tget s.td.queues (hIdx r.queue) with
      | some y => y.cfg.det && decide (s.td.v ≤ hIdx r.queue) && portOfQueue s (hIdx r.queue) == some r.port
      | none => false
    if x.ph ≠ .stage ∧ !kindOk then fail stNotPermitted s
    else if 262144 ≤ detObjects s then fail stResourceShort s
    else match newIdx x 0xB2 s.det.recs 262144 s with
      | none => fail stResourceShort s
      | some i => created (handle 0xB2 i) (modDet (fun d => { d with recs := tset d.recs i r }) s)

def cmdStreamEgressCreate : Cmd :=
  { op := 0x0B08, staging := .may, need := fun _ => 6, refs := fun q => [wd q 1], adm := true, act := actStreamEgressCreate }

/-- STREAM.EGRESS_CREATE (R282). -/
def execStreamEgressCreate (c : Call) (q : List Word) (s : State) : Host.Outcome State Fault Refusal :=
  .next (runCommand cmdStreamEgressCreate c q s)

/-- Own meaning of STREAM.EGRESS_DELETE (R282). -/
def actStreamEgressDelete : Act := fun x q s =>
  let h := wd q 0
  if hType h = 0xB2 ∧ thas s.det.recs (hIdx h) then
    if x.ph = .stage then done s else done (modDet (fun d => { d with recs := terase d.recs (hIdx h) }) s)
  else if x.reservedHere s h && hType h == 0xB2 then done s
  else fail stBadHandle s

def cmdStreamEgressDelete : Cmd :=
  { op := 0x0B09, staging := .may, need := fun _ => 1, objs := objWord0, adm := true, act := actStreamEgressDelete }

/-- STREAM.EGRESS_DELETE (R282). -/
def execStreamEgressDelete (c : Call) (q : List Word) (s : State) : Host.Outcome State Fault Refusal :=
  .next (runCommand cmdStreamEgressDelete c q s)

/-! ### Recovery contexts (R284 to R286) -/

/-- Settings of FRER.CREATE and FRER.SET in words i and i + 1. -/
def frerIn (q : List Word) (i : Nat) : Frer :=
  { mtch := flag q i 0, h := fld q i 7 1, takeNo := flag q i 8, dcw := flag q i 9, timeout := fld q (i + 1) 16 0 }

/-- Whether settings are in the ranges of Table 10-1. -/
def frerOk (f : Frer) : Bool := decide (1 ≤ f.h) && decide (f.h ≤ 64) && decide (1 ≤ f.timeout) && decide (f.timeout ≤ 80000)

/-- The recovery context that a handle names. -/
def frerAt (s : State) (h : Nat) : Option (Nat × Frer) :=
  if hType h = 0xB1 then (tget s.det.frer (hIdx h)).map fun y => (hIdx h, y) else none

/-- Own meaning of FRER.CREATE (R284, R285). -/
def actFrerCreate : Act := fun x q s =>
  let f := frerIn q 0
  if !frerOk f then fail stNotPermitted s
  else match newIdx x 0xB1 s.det.frer 1048576 s with
    | none => fail stResourceShort s
    | some i => created (handle 0xB1 i) (ctrClear 5 i (List.range 7) (modDet (fun d => { d with frer := tset d.frer i f }) s))

def cmdFrerCreate : Cmd := { op := 0x0B10, staging := .may, need := fun _ => 2, adm := true, act := actFrerCreate }

/-- FRER.CREATE (R284). -/
def execFrerCreate (c : Call) (q : List Word) (s : State) : Host.Outcome State Fault Refusal :=
  .next (runCommand cmdFrerCreate c q s)

/-- Own meaning of FRER.SET: take_any is set (Table 10-8). -/
def actFrerSet : Act := fun x q s =>
  let h := wd q 0
  let f := frerIn q 1
  if !frerOk f then (if (frerAt s h).isSome || x.reservedHere s h then fail stNotPermitted s else fail stBadHandle s)
  else match frerAt s h with
    | none => if x.reservedHere s h && hType h == 0xB1 then done s else fail stBadHandle s
    | some (i, y) =>
      if x.ph = .stage then done s
      else done (modDet (fun d => { d with frer := tset d.frer i { f with seq := y.seq, hist := y.hist, any := true } }) s)

def cmdFrerSet : Cmd :=
  { op := 0x0B11, staging := .may, need := fun _ => 3, objs := objWord0, refs := refWord0, adm := true, act := actFrerSet }

/-- FRER.SET (R284). -/
def execFrerSet (c : Call) (q : List Word) (s : State) : Host.Outcome State Fault Refusal :=
  .next (runCommand cmdFrerSet c q s)

/-- Own meaning of FRER.DELETE: refused while a stream names the context. -/
def actFrerDelete : Act := fun x q s =>
  let h := wd q 0
  match frerAt s h with
  | none => if x.reservedHere s h && hType h == 0xB1 then done s else fail stBadHandle s
  | some (i, _) =>
    if x.ph = .stage then done s
    else if (s.det.streams.any fun e => e.2.cfg.ctx == h || (match e.2.pend with | some c => c.ctx == h | none => false))
        || (x.ph == .direct && stagedRef s h) then fail stNotPermitted s
    else done (modDet (fun d => { d with frer := terase d.frer i }) s)

def cmdFrerDelete : Cmd :=
  { op := 0x0B12, staging := .may, need := fun _ => 1, objs := objWord0, adm := true, act := actFrerDelete }

/-- FRER.DELETE (R284). -/
def execFrerDelete (c : Call) (q : List Word) (s : State) : Host.Outcome State Fault Refusal :=
  .next (runCommand cmdFrerDelete c q s)

/-- Own meaning of FRER.STATUS (R285). -/
def actFrerStatus : Act := fun _ q s =>
  match frerAt s (wd q 0) with
  | none => fail stBadHandle s
  | some (_, y) => reply (toWord (y.seq + b2n y.any * 2 ^ 16) :: toWords y.hist 2) s

def cmdFrerStatus : Cmd := { op := 0x0B13, reading := true, need := fun _ => 1, act := actFrerStatus }

/-- FRER.STATUS (R285). -/
def execFrerStatus (c : Call) (q : List Word) (s : State) : Host.Outcome State Fault Refusal :=
  .next (runCommand cmdFrerStatus c q s)

/-- Own meaning of FRER.COUNTERS (R305). -/
def actFrerCounters : Act := fun _ q s =>
  match frerAt s (wd q 0) with
  | none => fail stBadHandle s
  | some (i, _) => reply (ctrWords s.ctr 5 i (List.range 7)) (if flag q 1 0 then ctrClear 5 i (List.range 7) s else s)

def cmdFrerCounters : Cmd := { op := 0x0B14, reading := true, need := fun _ => 2, act := actFrerCounters }

/-- FRER.COUNTERS (R305). -/
def execFrerCounters (c : Call) (q : List Word) (s : State) : Host.Outcome State Fault Refusal :=
  .next (runCommand cmdFrerCounters c q s)

/-- Own meaning of FRER.RESET (R286). -/
def actFrerReset : Act := fun _ q s =>
  match frerAt s (wd q 0) with
  | none => fail stBadHandle s
  | some (i, y) => done (modDet (fun d => { d with frer := tset d.frer i { y with any := true } }) s)

def cmdFrerReset : Cmd := { op := 0x0B15, need := fun _ => 1, objs := objWord0, act := actFrerReset }

/-- FRER.RESET (R286). -/
def execFrerReset (c : Call) (q : List Word) (s : State) : Host.Outcome State Fault Refusal :=
  .next (runCommand cmdFrerReset c q s)

/-! ### Gate lists (R287, R293) -/

/-- Entries of GATE.SET, from word 6 on. -/
def gateEntriesIn (q : List Word) : List (Nat × Nat) :=
  (List.range (fld q 1 10 0)).map fun i => (fld q (6 + 2 * i) 7 0, fld q (7 + 2 * i) 29 0)

/-- The list of GATE.SET. -/
def gateIn (q : List Word) : GateList :=
  { entries := gateEntriesIn q, cycle := fld q 5 29 0, strict := flag q 1 16, clear := false, t := 0
    base := ((wd q 2 + 2 ^ 32 * fld q 3 15 0) * 1000000000 + fld q 4 29 0) * nsU }

/-- Whether a list is one that R287 allows. -/
def gateOkList (q : List Word) (l : GateList) : Bool :=
  decide (1 ≤ fld q 1 10 0) && decide (fld q 1 10 0 ≤ 1024) && decide (1000 ≤ l.cycle) && decide (l.cycle ≤ 1000000000)
    && decide (fld q 4 29 0 < 1000000000) && (l.entries.all fun e => decide (8 ≤ e.2) && decide (e.2 ≤ 1000000000))
    && decide (l.entries.foldl (fun n e => n + e.2) 0 ≤ l.cycle)

/-- The list of GATE.CLEAR: every gate open, and none runs afterwards. -/
def gateClearList : GateList := { entries := [], cycle := 0, base := 0, strict := false, t := 0, clear := true }

/-- A time as the three words that GATE.SET gives a base in: seconds, and nanoseconds. -/
def gateTimeWords (t : Nat) : List Word := toWords (t / secU) 2 ++ [toWord (t / nsU % 1000000000)]

/-- The status by which a list for port p, committed at a boundary of time ct, is refused, or none (R293). -/
def gateRefuses (s : State) (p ct : Nat) (l : GateList) : Option Nat :=
  let t := gateTakeover (s.det.gates.getD p {}) l ct
  if l.strict ∧ t ≠ l.base then some stTimePassed else if tbWrap ≤ t then some stNotPermitted else none

/-- Commit a gate list for the port of word 0, at the commit tide of a transaction or at the next tide boundary. A staged one is
judged when its commit is prepared, and always applied then (R293, R457). -/
def gateSet (x : Ctx) (q : List Word) (l : GateList) (s : State) : Res :=
  let p := hIdx (wd q 0)
  if x.ph = .stage then done s
  else
    let c := if x.ph = .commit then s.tm.tide else s.tm.tide + 1
    let ct := if x.ph = .commit then s.tm.tideStart else c * tideU
    if x.ph = .commit then done (gateCommit p c ct l s)
    else match gateRefuses s p ct l with
      | some st => fail st s
      | none =>
        let t := gateTakeover (s.det.gates.getD p {}) l ct
        reply (gateTimeWords t) (modGate p (fun g => { g with next := g.next ++ [{ l with t := t }] }) s)

/-- Whether word 0 names an Ethernet port. -/
def gatePortKnown (x : Ctx) (s : State) (h : Nat) : Bool := hType h == 0x30 && x.knows s h

/-- Own meaning of GATE.SET (R287, R293). -/
def actGateSet : Act := fun x q s =>
  if !gatePortKnown x s (wd q 0) then fail stBadHandle s
  else if !gateOkList q (gateIn q) then fail stNotPermitted s
  else gateSet x q (gateIn q) s

def cmdGateSet : Cmd :=
  { op := 0x0B20, staging := .may, need := fun q => 6 + 2 * fld q 1 10 0, objs := objWord0, refs := refWord0, adm := true, act := actGateSet }

/-- GATE.SET (R293). -/
def execGateSet (c : Call) (q : List Word) (s : State) : Host.Outcome State Fault Refusal :=
  .next (runCommand cmdGateSet c q s)

/-- Own meaning of GATE.CLEAR (R293). -/
def actGateClear : Act := fun x q s =>
  if !gatePortKnown x s (wd q 0) then fail stBadHandle s else gateSet x q gateClearList s

def cmdGateClear : Cmd :=
  { op := 0x0B21, staging := .may, need := fun _ => 1, objs := objWord0, refs := refWord0, adm := true, act := actGateClear }

/-- GATE.CLEAR (R293). -/
def execGateClear (c : Call) (q : List Word) (s : State) : Host.Outcome State Fault Refusal :=
  .next (runCommand cmdGateClear c q s)

/-- Own meaning of GATE.STATUS (R287). -/
def actGateStatus : Act := fun _ q s =>
  if hType (wd q 0) ≠ 0x30 ∨ !objExists s (wd q 0) then fail stBadHandle s
  else
    let g := s.det.gates.getD (hIdx (wd q 0)) {}
    let now := nowLin s
    let (entry, cyc) := match g.run with
      | none => (0, 0)
      | some l => if now < l.t then (l.entries.length - 1, 0)
        else ((l.entryAt ((now - l.t) % (l.cycle * nsU))).1, (now - l.t) / (l.cycle * nsU))
    let tw (l : Option GateList) : List Word := gateTimeWords (match l with | some l => l.t | none => 0)
    reply (toWord (b2n g.run.isSome + 2 * b2n g.pend.isSome + entry % 512 * 4) :: tw g.run ++ tw g.pend ++ [toWord cyc]) s

def cmdGateStatus : Cmd := { op := 0x0B22, reading := true, need := fun _ => 1, act := actGateStatus }

/-- GATE.STATUS (R287). -/
def execGateStatus (c : Call) (q : List Word) (s : State) : Host.Outcome State Fault Refusal :=
  .next (runCommand cmdGateStatus c q s)

/-- Own meaning of DET.COUNTERS (R306). -/
def actDetCounters : Act := fun _ _ s => reply (ctrWords s.ctr 0x4B 0 (List.range 6)) s

def cmdDetCounters : Cmd := { op := 0x0B32, reading := true, need := fun _ => 1, act := actDetCounters }

/-- DET.COUNTERS (R306). -/
def execDetCounters (c : Call) (q : List Word) (s : State) : Host.Outcome State Fault Refusal :=
  .next (runCommand cmdDetCounters c q s)

/-- STREAM.CREATE, STREAM.SET, GATE.SET and GATE.CLEAR outside transactions take effect at the tide boundary
(Table 10-7, R293). -/
def detBoundary (s : State) : State :=
  let s := modDet (fun d => { d with streams := tmap d.streams fun _ y => match y.pend with
    | some c => y.change c
    | none => y }) s
  lowCheck <| (List.range 64).foldl (fun s p =>
    let ls := (s.det.gates.getD p {}).next
    ls.foldl (fun s l => gateCommit p s.tm.tide s.tm.tideStart l s) (if ls.isEmpty then s else modGate p (fun g => { g with next := [] }) s)) s

/-- Every gate list restarts at a step of the time base (R294): a pending one restarts in place of the running one. -/
def gatesRestart (s : State) : State :=
  (List.range 64).foldl (fun s p =>
    let g := s.det.gates.getD p {}
    match g.pend.orElse fun _ => g.run with
    | none => s
    | some l =>
      let n := l.restart (nowLin s)
      let g' : GatePort := if l.clear then { g with run := none, pend := none } else { g with run := some n, pend := none }
      let s := modGate p (fun _ => { g' with busy := 0 }) s
      if l.clear then s
      else detCount 3 1 (raise 0x0B 4 (quarterUnit p) (gatePay p n.t) s)) s

/-! ### The stream unit (R280 to R286) -/

/-- The sequence number of a frame: of its R-TAG, or of the d-CW below its MPLS labels (R284). -/
def seqOf (s : State) (dcw : Bool) (k : Pkt) : Option Nat :=
  let (tags, rest) := splitTags (stagTpid s k.md.port) k.bytes.length (k.bytes.drop 12)
  if dcw then
    if half rest 0 = 0x8847 ∨ half rest 0 = 0x8848 then
      let b := rest.drop 2
      let e := labelsEnd b b.length 0
      if e + 4 ≤ b.length ∧ byteAt b e / 16 = 0 then some (half b (e + 2)) else none
    else none
  else (tags.find? fun t => t.1 == 2).map fun t => half t.2 4

/-- 0 bits among the d highest of the h bits of a history. -/
def zerosHigh (hist h d : Nat) : Nat := ((List.range d).filter fun i => !bit hist (h - 1 - i)).length

/-- recover(ctx, frame) of R285: whether the frame passes, the context, and the counters with what they count. -/
def recover (f : Frer) (seq : Option Nat) (now : Nat) : Bool × Frer × List (Nat × Nat) :=
  match seq with
  | none => (f.takeNo, f, [(5, 1)])
  | some n =>
    if f.any then (true, { f with seq := n, hist := 1, any := false, start := now }, [(0, 1)])
    else
      let delta := signed 16 ((n + 65536 - f.seq) % 65536)
      if f.mtch then
        if delta = 0 then (false, f, [(1, 1)])
        else (true, { f with seq := n, start := now }, (if delta = 1 then [] else [(2, 1)]) ++ [(0, 1)])
      else if (f.h : Int) ≤ delta ∨ delta ≤ -(f.h : Int) then (false, f, [(3, 1)])
      else if delta ≤ 0 then
        let b := delta.natAbs
        if bit f.hist b then (false, f, [(1, 1)])
        else (true, { f with hist := f.hist + 2 ^ b, start := now }, [(2, 1), (0, 1)])
      else
        let d := delta.toNat
        (true, { f with hist := (f.hist * 2 ^ d + 1) % 2 ^ f.h, seq := n, start := now },
          (if d = 1 then [] else [(2, 1)]) ++ [(4, zerosHigh f.hist f.h d), (0, 1)])

/-- Recovery of a frame of a stream: whether it passes (R280 step 2). -/
def recoverFrame (ctx : Nat) (k : Pkt) (s : State) : Bool × State :=
  match frerAt s ctx with
  | none => (true, s)
  | some (i, f) =>
    let (ok, f', cs) := recover f (seqOf s f.dcw k) s.tm.bounds
    (ok, cs.foldl (fun s c => ctrAdd64 5 i c.1 c.2 s) (modDet (fun d => { d with frer := tset d.frer i f' }) s))

/-- The frame meter: whether the frame is within n of its window (R280 step 3). -/
def meterFrame (i : Nat) (k : Pkt) (s : State) : Bool × State :=
  match tget s.det.streams i with
  | none => (true, s)
  | some y =>
    let w := k.last / (y.cfg.i * nsU)
    let cnt := if y.win = w then y.cnt + 1 else 1
    let put (y : Stream) (s : State) : State := modDet (fun d => { d with streams := tset d.streams i y }) s
    let y := { y with win := w, cnt := cnt }
    if cnt ≤ y.cfg.n then (true, put y s)
    else
      let sec := s.tm.tide / 8000 + 1
      let s := streamCount i 3 1 s
      if y.excessSec = sec then (false, put y s)
      else (false, raise 0x0B 5 (unitOf (32 + y.cfg.port / 16) 0)
        (pay [(handle 0xB0 i, 4), (tbLayout (w * y.cfg.i * nsU), 10)]) (put { y with excessSec := sec } s))

/-- Sequence generation (R280 step 4, R283): the number goes to the metadata; an R-TAG is pushed at egress. -/
def sequenceFrame (i : Nat) (k : Pkt) (s : State) : Pkt × State :=
  match tget s.det.streams i with
  | none => (k, s)
  | some y =>
    if y.cfg.gen = 0 then (k, s)
    else
      ({ k with md := { k.md with rSeq := y.seq, rTag := if y.cfg.gen = 1 then 2 else k.md.rTag } },
        streamCount i 5 1 (modDet (fun d => { d with streams := tset d.streams i { y with seq := (y.seq + 1) % 65536 } }) s))

/-- The stream unit's handling of one frame: none where it drops it (R280). -/
def streamFrame (k : Pkt) (s : State) : Option Pkt × State :=
  let i := k.md.stream
  match tget s.det.streams i with
  | none => (none, s)
  | some y =>
    if y.cfg.lrx < k.md.len then (none, streamCount i 2 1 s)
    else if k.rep then
      (some { k with unit := true, md := { k.md with rTag := if y.cfg.gen = 1 then 2 else k.md.rTag } }, s)
    -- a replicated frame skips steps 2 to 4 (R386)
    else match recoverFrame y.cfg.ctx k s with
      | (false, s) => (none, s)
      | (true, s) => match meterFrame i k s with
        | (false, s) => (none, s)
        | (true, s) => match sequenceFrame i k s with
          | (k, s) => (some { k with unit := true, dec := none }, replicateFrame false k s)

/-- STREAM_UNIT_FRAME: the stream unit of an octet handles the next identified frame of that octet (R280). -/
def execStreamUnitFrame (t octet : Nat) (s : State) : Host.Outcome State Fault Refusal :=
  let s := s.atTime t
  let i := s.td.ingress.findIdx fun k => k.md.sValid && !k.unit && k.md.port / 8 == octet
  match s.td.ingress[i]? with
  | none => .next s
  | some k => match streamFrame k s with
    | (some k, s) => .next (setWaiting false (s.td.ingress.set i k) s)
    | (none, s) => .next (capLost k (setWaiting false (s.td.ingress.eraseIdx i) s))

/-- FRER_RESET_TIMEOUT: the reset timer of a context runs to 0 without a frame passing (R286). -/
def execFrerResetTimeout (t ctx : Nat) (s : State) : Host.Outcome State Fault Refusal :=
  let s := s.atTime t
  match tget s.det.frer ctx with
  | none => .next s
  | some f =>
    if f.any || decide (s.tm.bounds < f.start + f.timeout) then .next s
    else .next (raise 0x0B 7 mpcUnit (pay [(handle 0xB1 ctx, 4), (f.seq, 2)])
      (ctrAdd64 5 ctx 6 1 (modDet (fun d => { d with frer := tset d.frer ctx { f with any := true } }) s)))

/-- GATE_LIST_STARTED: the pending list of a port takes over at its instant T (R293). -/
def execGateListStarted (t port : Nat) (s : State) : Host.Outcome State Fault Refusal :=
  let s := s.atTime t
  match (s.det.gates.getD port {}).pend with
  | none => .next s
  | some l =>
    if nowLin s < l.t then .next s
    else
      let s := modGate port (fun g => g.settled (nowLin s)) s
      let s := if l.clear then s else raise 0x0B 2 (quarterUnit port) (gatePay port l.t) s
      .next (refreshPort port s)

end Sys2Proof.Machine
end

