-- ==== Sys2Proof/Machine/Fabric.lean ====
section
/-! DEFINITION. Commands and events of the fabric interface (spec/11_fabric_mesh.md). -/

namespace Sys2Proof.Machine

open Sys2Proof

/-! ### Lanes going up and down (R310) -/

/-- A fabric lane comes up or goes down, and its far end with it: FABRIC_LANE_UP or DOWN where it becomes usable or no longer
is (R310). -/
def fabricLane (lane : Nat) (up far : Bool) (cause : Nat) (s : State) : State :=
  match s.fab.lanes[lane]? with
  | none => s
  | some x =>
    let was := laneUsable s lane
    let y : FabLane := { x with
      up := up, far := far, noReach := if up && !x.up then [] else x.noReach, ctl := if up && far then x.ctl else [] }
    let s := modFab (fun f => { f with lanes := f.lanes.set lane y }) s
    let s := if x.up && !up then fabLaneCount lane 7 1 s else s
    let now := laneUsable s lane
    let s := if now && !was then raise 0x0C 1 (fabUnit lane) (pay [(lane, 1)]) s
      else if was && !now then raise 0x0C 2 (fabUnit lane) (pay [(lane, 1), (cause, 1)]) s
      else s
    fabCheck s

/-- The lanes of octet k lose lock: it is switched off, changes its rate, or leaves service (R22, R308, R310). -/
def octetDown (k : Nat) (s : State) : State := (List.range' (8 * k) 8).foldl (fun s l => fabricLane l false false 1 s) s

/-! ### Commands (Table 11-4) -/

/-- Whether the octets' rate codes fit: an enabled octet has a rate, and in mesh mode the four octets of a bundle run at
one rate (R308, R325). -/
def octetRatesOk (mesh : Bool) (en rates : Nat) : Bool :=
  let code (k : Nat) : Nat := if bit en k then bits rates (2 * k + 1) (2 * k) else 0
  (List.range 12).all (fun k => !bit en k || code k != 0)
    && (!mesh || (List.range 3).all fun b =>
      let on := (List.range' (4 * b) 4).filter fun k => bit en k
      on.all fun k => code k == code (on.headD 0))

/-- Own meaning of FABRIC.SET (R315, R325). -/
def actFabricSet : Act := fun _ q s =>
  let mesh := flag q 0 0
  let dev := fld q 0 25 16
  let en := fld q 2 11 0
  let rates := fld q 3 23 0
  let re := fld q 4 14 0
  let rf := fld q 5 9 0
  if !s.td.sets.isEmpty || !octetRatesOk mesh en rates || (mesh && dev != s.id.devid) || decide (re < 100) || decide (20000 < re)
      || decide (rf < 1) || decide (1000 < rf) then fail stNotPermitted s
  else
    -- An octet that goes off or changes its rate loses its lanes (R308, R310).
    let code (e r k : Nat) : Nat := if bit e k then 4 + bits r (2 * k + 1) (2 * k) else 0
    let s := ((List.range 12).filter fun k => code en rates k != code s.fab.octets s.fab.rates k).foldl (fun s k => octetDown k s) s
    done (ecmpUpdate <| fabCheck (modFab (fun f => { f with
      mesh := mesh, dev := dev, alias_ := if flag q 1 31 then some (fld q 1 9 0) else none, octets := en, rates := rates
      reorder := re, refresh := rf }) s))

def cmdFabricSet : Cmd := { op := 0x0C01, need := fun _ => 6, objs := objOp 0x0C01, act := actFabricSet }

/-- FABRIC.SET (R315). -/
def execFabricSet (c : Call) (q : List Word) (s : State) : Host.Outcome State Fault Refusal :=
  .next (runCommand cmdFabricSet c q s)

/-- Own meaning of FABRIC.PROFILE_SET (R327, Table 11-3). -/
def actFabricProfileSet : Act := fun x q s =>
  let k := fld q 2 6 0
  if 1000000 < wd q 0 ∨ 1000000 < wd q 1 ∨ k = 0 ∨ (if s.fab.mesh then 32 else 96) < k then fail stNotPermitted s
  else if x.ph = .stage then done s
  else done (fabCheck (modFab (fun f => { f with ffixed := wd q 0, tau := wd q 1, kmin := k }) s))

def cmdFabricProfileSet : Cmd :=
  { op := 0x0C02, staging := .may, need := fun _ => 3, objs := objOp 0x0C02, adm := true, act := actFabricProfileSet }

/-- FABRIC.PROFILE_SET (R327). -/
def execFabricProfileSet (c : Call) (q : List Word) (s : State) : Host.Outcome State Fault Refusal :=
  .next (runCommand cmdFabricProfileSet c q s)

/-- Own meaning of FABRIC.SYSPORT_SET (R315). -/
def actFabricSysportSet : Act := fun x q s =>
  let first := fld q 0 15 0
  let n := fld q 1 16 0
  let entryOk (i : Nat) : Bool := decide (fld q (2 + i) 22 16 ≤ 64)
  if n = 0 ∨ 65536 < first + n ∨ !(List.range n).all entryOk then fail stNotPermitted s
  else if x.ph = .stage then done s
  else
    let put (t : Tab (Nat × Nat)) (i : Nat) : Tab (Nat × Nat) :=
      if flag q (2 + i) 31 then tset t (first + i) (fld q (2 + i) 9 0, fld q (2 + i) 22 16) else terase t (first + i)
    done (ecmpUpdate <| renamed (modFab (fun f => { f with sysp := (List.range n).foldl put f.sysp }) s))

def cmdFabricSysportSet : Cmd :=
  { op := 0x0C03, staging := .may, need := fun q => 2 + fld q 1 16 0, most := 65538
    objs := fun q => (List.range (fld q 1 16 0)).map fun i => [0x0C03, fld q 0 15 0 + i], act := actFabricSysportSet }

/-- FABRIC.SYSPORT_SET (R315). -/
def execFabricSysportSet (c : Call) (q : List Word) (s : State) : Host.Outcome State Fault Refusal :=
  .next (runCommand cmdFabricSysportSet c q s)

/-- Own meaning of FABRIC.VOQ_GUARANTEE (R323). -/
def actFabricVoqGuarantee : Act := fun x q s =>
  let i := hIdx (wd q 0)
  let c := fld q 1 2 0
  if hType (wd q 0) ≠ 0xA7 ∨ !x.knows s (wd q 0) then fail stBadHandle s
  else match tget s.td.sets i with
    | none => done s
    | some v =>
      if !bit v.mask c then fail stNotPermitted s
      else if x.ph = .stage then done s
      else done (modCred (8 * i + c) (fun y => { y with g := fld q 2 19 0 }) s)

def cmdFabricVoqGuarantee : Cmd :=
  { op := 0x0C04, staging := .may, need := fun _ => 3, objs := objWord0, refs := refWord0, adm := true, act := actFabricVoqGuarantee }

/-- FABRIC.VOQ_GUARANTEE (R323). -/
def execFabricVoqGuarantee (c : Call) (q : List Word) (s : State) : Host.Outcome State Fault Refusal :=
  .next (runCommand cmdFabricVoqGuarantee c q s)

/-- Sum of the grants of local destination p, 10 Mb/s (R323). -/
def grantSum (g : Tab Nat) (p : Nat) : Nat := (g.filter fun e => e.1 / 2 ^ 29 == p).foldl (fun n e => n + e.2) 0

/-- Whether the grants of local destination p fit its credit rate (R323). -/
def grantsFit (s : State) (p : Nat) : Bool := decide (grantSum s.fab.grants p * 10000000 * 256 ≤ creditRate s p)

/-- Own meaning of FABRIC.GRANT_SET (R323). -/
def actFabricGrantSet : Act := fun x q s =>
  let p := fld q 0 6 0
  let g := fld q 4 19 0
  if 64 < p then fail stNotPermitted s
  else if x.ph = .stage then done s
  else
    let key := demandKey p (fld q 1 9 0) (fld q 2 15 0) (fld q 3 2 0)
    let s' := modFab (fun f => { f with
      grants := mset 0 f.grants key g
      demands := if thas f.demands key then f.demands else tset f.demands key { det := true } }) s
    if g = 0 ∨ grantsFit s' p then done s' else fail stResourceShort s

def cmdFabricGrantSet : Cmd :=
  { op := 0x0C05, staging := .may, need := fun _ => 5
    objs := fun q => [[0x0C05, fld q 0 6 0, fld q 1 9 0, fld q 2 15 0, fld q 3 2 0]], adm := true, act := actFabricGrantSet }

/-- FABRIC.GRANT_SET (R323). -/
def execFabricGrantSet (c : Call) (q : List Word) (s : State) : Host.Outcome State Fault Refusal :=
  .next (runCommand cmdFabricGrantSet c q s)

/-- Own meaning of FABRIC.CREDIT_SET (R322, R323). -/
def actFabricCreditSet : Act := fun x q s =>
  let p := fld q 0 6 0
  let f := fld q 1 8 0
  let m := fld q 3 7 0
  if 64 < p ∨ f < 256 ∨ 384 < f ∨ m = 0 then fail stNotPermitted s
  else if x.ph = .stage then done s
  else
    let s' := modFab (fun y => { y with dests := lmod y.dests p fun d => { d with factor := f, bp := fld q 2 24 0, maxOut := m } }) s
    if grantsFit s' p then done s' else fail stResourceShort s

def cmdFabricCreditSet : Cmd :=
  { op := 0x0C06, staging := .may, need := fun _ => 4, objs := fun q => [[0x0C06, fld q 0 6 0]], adm := true, act := actFabricCreditSet }

/-- FABRIC.CREDIT_SET (R322). -/
def execFabricCreditSet (c : Call) (q : List Word) (s : State) : Host.Outcome State Fault Refusal :=
  .next (runCommand cmdFabricCreditSet c q s)

/-- A set of numbers below 32 n as n words, a bit for each. -/
def bitWords (n : Nat) (p : Nat → Bool) : List Word :=
  (List.range n).map fun j => toWord ((List.range 32).foldl (fun a i => a + b2n (p (32 * j + i)) * 2 ^ i) 0)

/-- Own meaning of FABRIC.STATUS (R324): an octet is up where one of its lanes is usable. -/
def actFabricStatus : Act := fun _ _ s =>
  let lanes := (List.range 96).filter (laneUsable s)
  let octs := (List.range 12).foldl (fun a k => a + b2n (lanes.any fun l => l / 8 == k) * 2 ^ k) 0
  let reach (d : Nat) : Bool := lanes.any fun l => laneReaches s l d
  reply (bitWords 3 (fun l => lanes.contains l) ++ [toWord octs] ++ bitWords 32 reach ++ [toWord (b2n ((streamDevices s).any (deviceLow s)))]) s

def cmdFabricStatus : Cmd := { op := 0x0C07, reading := true, act := actFabricStatus }

/-- FABRIC.STATUS (R324). -/
def execFabricStatus (c : Call) (q : List Word) (s : State) : Host.Outcome State Fault Refusal :=
  .next (runCommand cmdFabricStatus c q s)

/-- Own meaning of FABRIC.LANE_REACH (R324). -/
def actFabricLaneReach : Act := fun _ q s =>
  let l := fld q 0 6 0
  match s.fab.lanes[l]? with
  | none => fail stNotPermitted s
  | some x => reply (bitWords 32 fun d => x.up && !x.noReach.contains d) s

def cmdFabricLaneReach : Cmd := { op := 0x0C08, reading := true, need := fun _ => 1, act := actFabricLaneReach }

/-- FABRIC.LANE_REACH (R324). -/
def execFabricLaneReach (c : Call) (q : List Word) (s : State) : Host.Outcome State Fault Refusal :=
  .next (runCommand cmdFabricLaneReach c q s)

/-- Own meaning of FABRIC.COUNTERS (R330). -/
def actFabricCounters : Act := fun _ q s =>
  let l := fld q 1 7 0
  if l = 255 then reply (ctrWords s.ctr 0x4C 0 (List.range 17)) s
  else if l < 96 then reply (ctrWords s.ctr 0x4C (l + 1) (List.range 8)) s
  else fail stNotPermitted s

def cmdFabricCounters : Cmd := { op := 0x0C09, reading := true, need := fun _ => 2, act := actFabricCounters }

/-- FABRIC.COUNTERS (R330). -/
def execFabricCounters (c : Call) (q : List Word) (s : State) : Host.Outcome State Fault Refusal :=
  .next (runCommand cmdFabricCounters c q s)

/-! ### Lanes (R310, R324) -/

/-- FABRIC_LANE_STATE: fabric lane l is up or down locally, and the far end receives it up or not; where usability changes
LANE_UP or LANE_DOWN is raised, with the cause 1 lock, 2 FEC alignment, 3 marker, 4 far end (R310, R324, R328). A lane
that comes up reaches every device. A lane of an octet that is off or out of service stays down. -/
def execFabricLaneState (t lane : Nat) (up far : Bool) (cause : Nat) (s : State) : Host.Outcome State Fault Refusal :=
  .next (if octetRho s (lane / 8) = 0 || domOut s (67 + lane / 8) then s.atTime t else fabricLane lane up far cause (s.atTime t))

/-! ### Arriving flits and cells (R313, R315, R318, R326) -/

/-- What the checks on an arriving flit or cell say. -/
inductive Arrival where
  /-- The lane takes nothing: it is down, or its octet is off or fenced (R22, R310). -/
  | deaf
  /-- It is discarded: device counter, and lane counter where there is one. -/
  | bad (dev : Nat) (lane : Option Nat)
  | good
  deriving DecidableEq, Repr

/-- Whether the K12 takes what is addressed to device d: itself, or while it holds the berth token its alias (R315). -/
def forUs (s : State) (d : Nat) : Bool :=
  d == s.fab.dev || (decide (s.twin.st ≤ 1) && s.fab.alias_ == some d)

/-- Whether fabric lane l takes nothing from the line: it is down, or its octet is off or fenced (R22, R310). -/
def laneDeaf (s : State) (l : Nat) : Bool :=
  octetRho s (l / 8) == 0 || fenced s (67 + l / 8) || match s.fab.lanes[l]? with
    | some x => !x.up
    | none => true

/-- The checks of an arriving flit of a type on a lane, from a source device to a destination device (R313, R315, R326). -/
def judgeFlit (s : State) (lane : Nat) (bs : List Byte) (damaged : Bool) (ty src dst : Nat) : Arrival :=
  if laneDeaf s lane then .deaf
  else if damaged then .bad 3 (some 6)
  else if !flitOk bs then .bad 2 (some 5)
  else if flitBits bs 127 124 ≠ ty then .bad 4 none
  else if !forUs s dst || !laneWired s lane src then .bad 5 none
  else .good

/-- Count a discarded arrival. -/
def countBad (lane dev : Nat) (l : Option Nat) (s : State) : State :=
  let s := fabCount dev 1 s
  match l with
  | some k => fabLaneCount lane k 1 s
  | none => s

/-- STATUS_MESSAGE_RECEIVED: a status flit arrives on a lane (R320, R321, R323): the destination takes it and answers with
the VOQ's latest token message. -/
def execStatusMessageReceived (t lane : Nat) (flit : List Byte) (damaged : Bool) (s : State) :
    Host.Outcome State Fault Refusal :=
  let s := s.atTime t
  let dev := flitBits flit 119 110
  match judgeFlit s lane flit damaged 2 dev (flitBits flit 109 100) with
  | .deaf => .next s
  | .bad c l => .next (countBad lane c l s)
  | .good =>
    let s := fabCount 12 1 s
    let sysp := flitBits flit 99 84
    match tget s.fab.sysp sysp with
    | none => .next s
    | some (_, l) =>
      let cls := flitBits flit 122 120
      let s := takeStatus l dev sysp cls (flitBits flit 123 123 == 1) (flitBits flit 83 60) (flitBits flit 59 36) (flitBits flit 35 16) s
      .next (sendToken (demandKey l dev sysp cls) s)

/-- TOKEN_MESSAGE_RECEIVED: a token flit arrives on a lane (R321). -/
def execTokenMessageReceived (t lane : Nat) (flit : List Byte) (damaged : Bool) (s : State) :
    Host.Outcome State Fault Refusal :=
  let s := s.atTime t
  match judgeFlit s lane flit damaged 3 (flitBits flit 119 110) (flitBits flit 109 100) with
  | .deaf => .next s
  | .bad c l => .next (countBad lane c l s)
  | .good =>
    let s := fabCount 14 1 s
    match setOf s.td.sets (flitBits flit 99 84) with
    | none => .next s
    | some (first, _) => .next (takeToken (first + flitBits flit 122 120) (flitBits flit 83 60) s)

/-- REACHABILITY_RECEIVED: a reachability flit of a fabric element arrives on a lane (R324); in mesh mode no sender is an
element, and the flit is of a type not used by its sender (R313). -/
def execReachabilityReceived (t lane : Nat) (flit : List Byte) (damaged : Bool) (s : State) :
    Host.Outcome State Fault Refusal :=
  let s := s.atTime t
  if laneDeaf s lane then .next s
  else if damaged then .next (countBad lane 3 (some 6) s)
  else if !flitOk flit then .next (countBad lane 2 (some 5) s)
  else if flitBits flit 127 124 ≠ 5 ∨ s.fab.mesh then .next (countBad lane 4 none s)
  else
    let d := flitBits flit 123 114
    let off := flitBits flit 113 113 == 1
    .next (fabCheck (modFab (fun f => { f with lanes := lmod f.lanes lane fun x =>
      { x with noReach := if off then d :: x.noReach.filter (fun y => y != d) else x.noReach.filter fun y => y != d } }) s))

/-- STATUS_REFRESH: the refresh interval of a VOQ has passed while its backlog or its credit is above 0 (R320). -/
def execStatusRefresh (t q : Nat) (s : State) : Host.Outcome State Fault Refusal :=
  let s := s.atTime t
  match credOf s q, tget s.td.queues q with
  | some (_, c), some x =>
    if elapsed s < c.lastStatus + usU s.fab.refresh ∨ (x.pkts.isEmpty ∧ c.credit ≤ 0) then .next s
    else .next (sendStatus q s)
  | _, _ => .next s

/-- CREDIT_TOKEN_ISSUE: a run of the credit scheduler of a local destination (R322). -/
def execCreditTokenIssue (t dest : Nat) (s : State) : Host.Outcome State Fault Refusal :=
  let s := s.atTime t
  if 64 < dest then .next s else .next (creditRun dest s)

/-! ### Transmission (R311, R312, R316, R317) -/

/-- A packet as it goes to another device: what the egress half of the device would not know is done to its bytes
(removal of outer headers and a policer's remark, notes/assumptions). -/
def settlePkt (s : State) (k : Pkt) : Pkt :=
  let b := if k.bytes.length ≤ k.strip then k.bytes else viewOf k
  let b := match k.remark with
    | none => b
    | some m =>
      let (tags, rest) := splitTags (stagTpid s k.md.port) b.length (b.drop 12)
      b.take 12 ++ tags.flatMap (fun t => t.2) ++ rest.take 2 ++ remarkTo m (half rest 0) (rest.drop 2)
  { k with bytes := b, strip := 0, inner := 0, remark := none, md := { k.md with len := b.length + 4 } }

/-- The bytes that a packet's cells carry: its metadata, each word most significant byte first, and its frame (R312). -/
def cellStream (k : Pkt) : List Byte := (k.md.words.flatMap fun w => beBytes w.toNat 4) ++ k.bytes ++ fcsOf k.bytes

/-- A cell (Table 11-1): header and 256 bytes of payload, a last cell filled up with 0. -/
def cellOf (s : State) (d : Nat) (k : Pkt) (seq : Nat) (first last : Bool) (payload : List Byte) : List Byte :=
  flitOf (1 * 2 ^ 116 + b2n k.md.det * 2 ^ 115 + b2n first * 2 ^ 114 + b2n last * 2 ^ 113 + b2n k.mark * 2 ^ 112
      + s.fab.dev % 1024 * 2 ^ 102 + d % 1024 * 2 ^ 92 + k.md.dsp % 65536 * 2 ^ 76 + seq % 2 ^ 20 * 2 ^ 56
      + k.md.queue % 2 ^ 20 * 2 ^ 36 + k.md.cls % 8 * 2 ^ 33 + (payload.length - 1) * 2 ^ 25)
    ++ payload ++ List.replicate (256 - payload.length) 0#8

/-- Change a transmit flow. -/
def modTx (key : Nat) (f : TxFlow → TxFlow) (s : State) : State := modFab (fun y => { y with tx := tset y.tx key (f (tgetD y.tx key {})) }) s

/-- VOQs of device d that may start a packet: deterministic ones, or those of a class (R317, R319), ascending. -/
def startable (s : State) (d : Nat) (det : Bool) (cls : Option Nat) : List Nat :=
  s.td.sets.flatMap fun e => match tget s.fab.sysp e.2.dsp with
    | some (x, _) => if x ≠ d then [] else ((List.range 8).map fun c => 8 * e.1 + c).filter fun q =>
        bit e.2.mask (q % 8) == det && (match cls with | some c => q % 8 == c | none => true)
          && (match tget s.td.queues q, credOf s q with
            | some y, some (_, c) => !y.pkts.isEmpty && decide (0 < c.startCredit (bufClock s)) && !sliceFenced s q
            | _, _ => false)
    | none => []

/-- The next of a list of queues after a round-robin position, cyclically. -/
def nextQueue (rr : Nat) (l : List Nat) : Option Nat :=
  match l.find? fun q => decide (rr ≤ q) with
  | some q => some q
  | none => l.head?

/-- The VOQ from which a flow takes its next packet, and its round robin: deterministic VOQs in round robin, or the highest
class first, in round robin among its VOQs (R317). -/
def flowPick (s : State) (d : Nat) (det : Bool) : Option (Nat × Nat) :=
  let f := tgetD s.fab.tx (2 * d + b2n det) {}
  if det then (nextQueue (f.rr.getD 8 0) (startable s d true none)).map fun q => (q, 8)
  else [7, 6, 5, 4, 3, 2, 1, 0].findSome? fun c => (nextQueue (f.rr.getD c 0) (startable s d false (some c))).map fun q => (q, c)

/-- Whether a flow has a cell to send: of the packet being sent, or of the next one (R317). -/
def flowWaits (s : State) (d : Nat) (det : Bool) : Bool :=
  (tgetD s.fab.tx (2 * d + b2n det) {}).cur.isSome || (flowPick s d det).isSome

/-- Start the next packet of a flow, where none is being sent (R317, R319). -/
def startPacket (d : Nat) (det : Bool) (s : State) : State :=
  let key := 2 * d + b2n det
  let f := tgetD s.fab.tx key {}
  if f.cur.isSome then s
  else
    match flowPick s d det with
    | none => s
    | some (q, r) => match queueTake q s with
      | (none, s) => s
      | (some k, s) =>
        let s := chargeVoq q k.md.len s
        statusCheck q (modTx key (fun f => { f with cur := some (q, settlePkt s k, 0), rr := lset f.rr r (q + 1) }) s)

/-- The lane on which a flow sends its next cell (R316). -/
def flowLane (s : State) (d : Nat) (det : Bool) : Option Nat := nextQueue (tgetD s.fab.tx (2 * d + b2n det) {}).lane (lanesTo s d)

/-- Send the next cell of a flow on lane l (R311, R316). -/
def sendCell (d : Nat) (det : Bool) (l : Nat) (s : State) : State :=
  let key := 2 * d + b2n det
  let f := tgetD s.fab.tx key {}
  match f.cur with
  | none => s
  | some (q, k, sent) =>
    let bs := cellStream k
    let part := (bs.drop sent).take 256
    let last := decide (bs.length ≤ sent + 256)
    let s := emit (.cell l (cellOf s d k f.seq (sent == 0) last part)) s
    let s := fabLaneCount l 0 1 (fabCount 0 1 s)
    let s := modTx key (fun f => { f with
      seq := (f.seq + 1) % 2 ^ 20, lane := l + 1, cur := if last then none else some (q, k, sent + 256) }) s
    if last then voqRelease q k (if k.md.det then voqCompleted q s else s) else s

/-- Devices to which this K12 sends, from the next one of the round robin on. -/
def sendOrder (s : State) : List Nat :=
  let ds := fabDevices s
  ds.filter (fun d => decide (s.fab.txDev ≤ d)) ++ ds.filter fun d => decide (d < s.fab.txDev)

/-- Change fabric lane l. -/
def modFabLane (l : Nat) (f : FabLane → FabLane) (s : State) : State := modFab (fun y => { y with lanes := lmod y.lanes l f }) s

/-- The frame marker of fabric lane l (Table 11-2): it advertises whether the reverse lane is received up (R310). -/
def frameMarker (s : State) (l : Nat) (x : FabLane) : List Byte :=
  flitOf (4 * 2 ^ 116 + s.fab.dev % 1024 * 2 ^ 106 + l % 128 * 2 ^ 98 + b2n x.up * 2 ^ 97 + x.frame % 2 ^ 32 * 2 ^ 56)

/-- Slot 0 of a lane frame: the frame marker, then the control flits that wait, and idle flits (R309, R314). The lane carries cells in
this frame where it is usable at its start (R310). -/
def controlSlot (l : Nat) (s : State) : State :=
  match s.fab.lanes[l]? with
  | none => s
  | some x =>
    let use := laneUsable s l
    let flits := if use then x.ctl.take 16 else []
    emit (.cell l (frameMarker s l x ++ flits.flatten ++ List.replicate (16 * (16 - flits.length)) 0#8))
      (modFabLane l (fun x => { x with frame := (x.frame + 1) % 2 ^ 32, use := use, ctl := if use then x.ctl.drop 16 else [] }) s)

/-- An idle cell slot: an idle flit and 16 zero flits (R309). -/
def idleCell : List Byte := List.replicate 272 0#8

/-- What a cell slot of a lane carries: the next cell of a flow whose turn the lane is, or nothing (R309, R316, R317). -/
def cellSlot (lane : Nat) (s : State) : State :=
  if !laneUsable s lane || !(s.fab.lanes.getD lane {}).use then emit (.cell lane idleCell) s
  else
    let ready (det : Bool) (d : Nat) : Bool := flowLane s d det == some lane && flowWaits s d det
    let order := sendOrder s
    let send (d : Nat) (det : Bool) : State := sendCell d det lane (startPacket d det (modFab (fun f => { f with txDev := d + 1 }) s))
    match order.find? (ready true), order.find? (ready false) with
    | some d, _ => send d true
    | none, some d => send d false
    | none, none => emit (.cell lane idleCell) s

/-- How long n slots of a lane last at a payload rate in Gb/s: 17 flits each (R309). -/
def slotsU (n rho : Nat) : Nat := n * 2176 * nsU / rho

/-- FABRIC_CELL_TRANSMIT: a cell slot of a lane carries the next cell of a flow whose turn the lane is, a deterministic
cell before any best-effort one, devices in round robin; else it is idle. The control slot of a lane frame goes before its first
cell slot, and no slot starts while another is being sent (R309, R310, R316, R317). -/
def execFabricCellTransmit (t lane : Nat) (s : State) : Host.Outcome State Fault Refusal :=
  let s := s.atTime t
  let x := s.fab.lanes.getD lane {}
  let rho := octetRho s (lane / 8)
  if rho = 0 || domOut s (67 + lane / 8) || !mayDrive s || decide (elapsed s < x.due) then .next s
  else
    let s := if x.slot = 0 then controlSlot lane s else s
    let due := elapsed s + slotsU (if x.slot = 0 then 2 else 1) rho
    .next (cellSlot lane (modFabLane lane (fun x => { x with slot := if x.slot = 0 then 2 else (x.slot + 1) % 32, due := due }) s))

/-! ### Reordering and reassembly (R318) -/

/-- A whole packet has been reassembled from cells: it waits at TD egress as one of FABRIC_RX, with the on-die cells that it
occupies (R248, R282, R318). -/
def packetIn (mark : Bool) (bs : List Byte) (bufs : List Nat) (s : State) : State :=
  let ws := (List.range 8).map fun i => toWord (beNat ((bs.drop (4 * i)).take 4))
  let fr := bs.drop 32
  let k : Pkt := { bytes := fr.take (fr.length - 4), md := Meta.ofWords ws, mark := mark, owner := 1, bufs := bufs, since := elapsed s }
  modTd (fun t => { t with egress := t.egress ++ [k] }) s

/-- A lost position: the packet being assembled is dropped, and cells are discarded until the next first cell (R318). -/
def lostCell (key : Nat) (s : State) : State :=
  let s := fabCount 7 1 s
  let s := if (tgetD s.fab.rx key {}).open_.isSome then fabCount 8 1 s else s
  modRx key (fun f => { f with skip := true }) (dropOpen key s)

/-- The packet being assembled occupies the on-die cells of FABRIC_RX that its frame bytes so far take; where it meets EMPTY
it is dropped with what is still to come of it (R228, R234, R318). A fenced pool manager grants none (R22). -/
def rxCells (key : Nat) (s : State) : State :=
  let f := tgetD s.fab.rx key {}
  match f.open_ with
  | none => s
  | some (_, bs) =>
    let need := ceilDiv (bs.length - 32) 256 - f.bufs.length
    if need = 0 ∨ fenced s 60 then s
    else match arbitrate 1 1 (min 16 need) 0 none (bit key 0) s with
      | (l, false, s) => modRx key (fun f => { f with bufs := f.bufs ++ l }) s
      | (_, true, s) => modRx key (fun f => { f with skip := true }) (poolCount 1 5 1 (dropOpen key s))

/-- Reassembly takes a cell in sequence order: header bits and payload (R318). -/
def takeCell (key hdr : Nat) (payload : List Byte) (s : State) : State :=
  let f := tgetD s.fab.rx key {}
  let first := bit hdr 122
  let part := payload.take (bits hdr 40 33 + 1)
  if !first && f.open_.isNone then if f.skip then s else fabCount 9 1 s
  else
    let s := if first then modRx key (fun f => { f with open_ := some (hdr, part), skip := false })
        (dropOpen key (if f.open_.isSome then fabCount 8 1 s else s))
      else modRx key (fun f => { f with open_ := f.open_.map fun o => (o.1, o.2 ++ part) }) s
    let s := rxCells key s
    match bit hdr 121, (tgetD s.fab.rx key {}).open_ with
    | true, some (h0, bs) =>
      packetIn (bit h0 120 || bit hdr 120) bs (tgetD s.fab.rx key {}).bufs (modRx key (fun f => { f with open_ := none, bufs := [] }) s)
    | _, _ => s

/-- Move e of a flow on by one position, whose cell is held or lost (R318). -/
def stepRx (key : Nat) (s : State) : State :=
  let f := tgetD s.fab.rx key {}
  let cell := tget f.held 0
  let s := modRx key (fun f => { f with
    e := (f.e + 1) % 2 ^ 20, held := (terase f.held 0).map fun c => (c.1 - 1, c.2) }) s
  match cell with
  | some (hdr, p) => takeCell key hdr p s
  | none => lostCell key s

/-- Pass on the cells that are held from e on, and note when a gap appears at e (R318), with fuel. -/
def drainRx (key : Nat) : Nat → State → State
  | 0, s => s
  | f + 1, s =>
    let x := tgetD s.fab.rx key {}
    if thas x.held 0 then drainRx key f (stepRx key s)
    else modRx key (fun y => { y with gap := if x.held.isEmpty then 0 else if x.gap = 0 then elapsed s + 1 else x.gap }) s

/-- Positions moved: a gap timer that ran for an earlier e starts anew. -/
def settleRx (key e0 : Nat) (s : State) : State :=
  let s := if (tgetD s.fab.rx key {}).e = e0 then s else modRx key (fun f => { f with gap := 0 }) s
  let s' := drainRx key 4097 s
  if (tgetD s'.fab.rx key {}).e = (tgetD s.fab.rx key {}).e then s'
  else modRx key (fun f => { f with gap := if f.held.isEmpty then 0 else elapsed s + 1 }) s'

/-- Step e of a flow n times. -/
def stepsRx (key : Nat) : Nat → State → State
  | 0, s => s
  | n + 1, s => stepsRx key n (stepRx key s)

/-- FABRIC_CELL_RECEIVED: a cell slot's 272 bytes arrive on a lane (R313, R315, R318, R326). An idle flit changes
nothing. -/
def execFabricCellReceived (t lane : Nat) (cell : List Byte) (damaged : Bool) (s : State) : Host.Outcome State Fault Refusal :=
  let s := s.atTime t
  let src := flitBits cell 119 110
  if !damaged && flitOk cell && flitBits cell 127 124 == 0 then .next s
  else match judgeFlit s lane cell damaged 1 src (flitBits cell 109 100) with
    | .deaf => .next s
    | .bad c l => .next (countBad lane c l s)
    | .good =>
      let s := fabLaneCount lane 1 1 (fabCount 1 1 s)
      let hdr := beNat (cell.take 16)
      let key := 2 * src + flitBits cell 123 123
      let e := (tgetD s.fab.rx key {}).e
      let off := (flitBits cell 83 64 + 2 ^ 20 - e) % 2 ^ 20
      if 2 ^ 19 ≤ off then .next (fabCount 6 1 s)
      else
        let n := off - 4095
        let s := stepsRx key n s
        let s := modRx key (fun f => { f with held := tset f.held (off - n) (hdr, cell.drop 16) }) s
        .next (settleRx key e s)

/-- REORDER_TIMEOUT: the gap at e of a source device and stream has lasted for the reorder timeout and is declared lost
(R318). -/
def execReorderTimeout (t dev : Nat) (det : Bool) (s : State) : Host.Outcome State Fault Refusal :=
  let s := s.atTime t
  let key := 2 * dev + b2n det
  let f := tgetD s.fab.rx key {}
  match f.held with
  | [] => .next s
  | (n, _) :: _ =>
    if f.gap = 0 ∨ elapsed s < f.gap - 1 + s.fab.reorder * nsU then .next s
    else .next (settleRx key f.e (stepsRx key n s))

end Sys2Proof.Machine
end

