-- ==== Sys2Proof/Machine/Gcm.lean ====
section
/-! DEFINITION. The cipher suites GCM-AES-256 and GCM-AES-XPN-256 of MACsec (spec/02_lanes_ethernet.md R70, which names
IEEE 802.1AE): AES (FIPS 197), GCM (SP 800-38D), PRESUMED (assumption 94), and what of a frame is authenticated and encrypted. -/

namespace Sys2Proof.Machine

open Sys2Proof

/-! ### AES-256 -/

/-- The product by x in the field of AES. -/
def aesX (a : Byte) : Byte := if a.getLsbD 7 then (a <<< 1) ^^^ 0x1B#8 else a <<< 1

/-- The product in the field of AES. -/
def aesMul (a b : Byte) : Byte :=
  ((List.range 8).foldl (fun (r : Byte × Byte) i => (if b.getLsbD i then r.1 ^^^ r.2 else r.1, aesX r.2)) (0#8, a)).1

/-- The inverse in the field of AES, 0 for 0: the power 254. -/
def aesInv (a : Byte) : Byte := ((List.range 7).foldl (fun (r : Byte × Byte) _ =>
  let sq := aesMul r.2 r.2
  (aesMul r.1 sq, sq)) (1#8, a)).1

/-- SubBytes of one byte. -/
def aesSub (a : Byte) : Byte :=
  let b := aesInv a
  b ^^^ b.rotateLeft 1 ^^^ b.rotateLeft 2 ^^^ b.rotateLeft 3 ^^^ b.rotateLeft 4 ^^^ 0x63#8

/-- The exclusive or of two lists of bytes. -/
def xorBytes (a b : List Byte) : List Byte := a.zipWith (· ^^^ ·) b

/-- The 60 words of the key schedule of a 32-byte key, newest first. -/
def aesSchedule (key : List Byte) : List (List Byte) :=
  let start := ((List.range 8).map fun i => (key.drop (4 * i)).take 4).reverse
  ((List.range' 8 52).foldl (fun (r : List (List Byte) × Byte) i =>
    let prev := r.1.getD 0 []
    let old := r.1.getD 7 []
    if i % 8 = 0 then
      let rot := (prev.drop 1 ++ prev.take 1).map aesSub
      (xorBytes old (xorBytes rot [r.2, 0#8, 0#8, 0#8]) :: r.1, aesX r.2)
    else if i % 8 = 4 then (xorBytes old (prev.map aesSub) :: r.1, r.2)
    else (xorBytes old prev :: r.1, r.2)) (start, 1#8)).1

/-- Round keys 0 to 14 of a key. -/
def aesKeys (key : List Byte) : List (List Byte) :=
  let ws := (aesSchedule key).reverse
  (List.range 15).map fun i => ((ws.drop (4 * i)).take 4).flatten

/-- ShiftRows on the 16 bytes of the state, column by column. -/
def aesShift (b : List Byte) : List Byte := (List.range 16).map fun i => b.getD ((i + 4 * (i % 4)) % 16) 0#8

/-- MixColumns. -/
def aesMix (b : List Byte) : List Byte :=
  (List.range 16).map fun i =>
    let c (j : Nat) : Byte := b.getD (i / 4 * 4 + (i + j) % 4) 0#8
    aesX (c 0) ^^^ (aesX (c 1) ^^^ c 1) ^^^ c 2 ^^^ c 3

/-- One block under round keys. -/
def aesBlock (ks : List (List Byte)) (b : List Byte) : List Byte :=
  let mid := ((ks.drop 1).take 13).foldl (fun x k => xorBytes (aesMix (aesShift (x.map aesSub))) k) (xorBytes b (ks.getD 0 []))
  xorBytes (aesShift (mid.map aesSub)) (ks.getD 14 [])

/-! ### GCM -/

/-- The product in the field of GHASH. -/
def ghashMul (x y : Nat) : Nat :=
  ((List.range 128).foldl (fun (r : Nat × Nat) i =>
    (if x.testBit (127 - i) then Nat.xor r.1 r.2 else r.1,
     if r.2 % 2 = 1 then Nat.xor (r.2 / 2) (0xE1 * 2 ^ 120) else r.2 / 2)) (0, y)).1

/-- Blocks of 16 bytes, the last one padded with zeros, as numbers. -/
def ghashBlocks (b : List Byte) : List Nat :=
  (List.range ((b.length + 15) / 16)).map fun i =>
    let c := (b.drop (16 * i)).take 16
    beNat (c ++ List.replicate (16 - c.length) 0#8)

/-- GHASH of additional data and ciphertext under H. -/
def ghash (h : Nat) (aad ct : List Byte) : Nat :=
  (ghashBlocks aad ++ ghashBlocks ct ++ [aad.length * 8 * 2 ^ 64 + ct.length * 8]).foldl (fun y x => ghashMul (Nat.xor y x) h) 0

/-- Counter block i of a 96-bit IV. -/
def gcmCounter (iv i : Nat) : List Byte := beBytes (iv % 2 ^ 96) 12 ++ beBytes (i % 2 ^ 32) 4

/-- The key stream over some bytes, from counter 2 on. -/
def gcmStream (ks : List (List Byte)) (iv : Nat) (b : List Byte) : List Byte :=
  xorBytes b ((List.range ((b.length + 15) / 16)).flatMap fun i => aesBlock ks (gcmCounter iv (i + 2)))

/-- The 16-byte tag of additional data and ciphertext. -/
def gcmTag (ks : List (List Byte)) (iv : Nat) (aad ct : List Byte) : List Byte :=
  let h := beNat (aesBlock ks (List.replicate 16 0#8))
  xorBytes (beBytes (ghash h aad ct) 16) (aesBlock ks (gcmCounter iv 1))

/-! ### MACsec frames -/

/-- IEEE 802.1AE protection under a key, an IV and a confidentiality offset: the secure data and ICV of a frame whose
user data begins at byte `data`. What is not encrypted is authenticated with the addresses and the SecTAG. -/
def gcmSeal (sak : List Byte) (iv off : Nat) (encrypt : Bool) (data : Nat) (frame : List Byte) : List Byte :=
  let ks := aesKeys sak
  let clear := if encrypt then data + off else frame.length
  let aad := frame.take clear
  let ct := gcmStream ks iv (frame.drop clear)
  aad.drop data ++ ct ++ gcmTag ks iv aad ct

/-- IEEE 802.1AE validation of a protected frame with its ICV: the user data in clear, or none where the ICV is wrong. -/
def gcmOpen (sak : List Byte) (iv off : Nat) (encrypted : Bool) (data : Nat) (frame : List Byte) : Option (List Byte) :=
  let ks := aesKeys sak
  let body := frame.take (frame.length - 16)
  let clear := if encrypted then data + off else body.length
  let aad := body.take clear
  let ct := body.drop clear
  if gcmTag ks iv aad ct = frame.drop body.length then some (aad.drop data ++ gcmStream ks iv ct) else none

end Sys2Proof.Machine
end

