-- ==== Sys2Proof/Machine/Line.lean ====
section
/-! DEFINITION. Commands of area 0x03: Ethernet ports, lanes and MACsec (spec/02_lanes_ethernet.md), and the link events
of R55 to R57. -/

namespace Sys2Proof.Machine

open Sys2Proof

/-- Lane uses as a staged PORT.CREATE or TPORT.CREATE sees them: the ports that exist and the earlier operations of
the same transaction (R53). -/
def stagedUses (x : Ctx) (s : State) : List LaneUse :=
  let ops := match x.ph, txnSlot s x.txn with
    | .stage, some (_, t) => t.ops
    | _, _ => []
  ops.foldl (fun us o =>
    let w := wd o.q 0
    if o.op = 0x0301 then us ++ [⟨bits w 5 0, ethLanes (bits w 11 8), ethRate (bits w 11 8)⟩]
    else if o.op = 0x0401 then match tpMode (bits w 15 8) with
      | some (n, r, _) => us ++ [⟨bits w 5 0, n, r⟩]
      | none => us
    else if o.op = 0x0302 ∨ o.op = 0x0402 then us.filter fun u => u.port != hIdx w
    else us) (laneUses s)

/-- Words 1 to 4 of Table 2-7. -/
def portCfgOf (q : List Word) : PortCfg :=
  { maxLen := fld q 1 13 0, punt256 := flag q 1 16, filterMode := flag q 1 17, bcast := flag q 1 18,
    stag := fld q 1 20 19, downHold := fld q 2 9 0, upHold := fld q 3 16 0, degThr := wd q 4 }

/-- The ranges of Table 2-7. -/
def portCfgOk (c : PortCfg) : Bool :=
  decide (64 ≤ c.maxLen) && decide (c.maxLen ≤ 16000) && decide (c.stag ≤ 2) && decide (c.downHold ≤ 800)
    && decide (c.upHold ≤ 80000)

/-- Own meaning of PORT.CREATE (R53, R54, Table 2-7). -/
def actPortCreate : Act := fun x q s =>
  let p := fld q 0 5 0
  let mode := fld q 0 11 8
  let f := fld q 0 15 12
  let c := portCfgOf q
  match ethMode mode with
  | none => fail stNotPermitted s
  | some (n, rate, fecs, _) =>
    let fec := if f = 0xF then fecs.headD 0 else f
    if !fecs.contains fec || !portCfgOk c || !laneFree (stagedUses x s) p n rate then fail stNotPermitted s
    else
      let st := { s with
        line := { s.line with ports := tset s.line.ports p { mode := mode, fec := fec, training := flag q 0 16, cfg := c, conds := allFailed fec } }
        ctr := s.ctr.filter fun e => e.1 / 1024 != 2 ^ 32 + p
        snap := s.snap.filter fun e => e.1 / 1024 != 2 ^ 32 + p }
      created (handle 0x30 p) (ecmpUpdate (portNodePut p (ethSpeed mode * 1000000) (parseReset p (twinPortNew p st))))

def cmdPortCreate : Cmd :=
  { op := 0x0301, staging := .may, need := fun _ => 5, adm := true, act := actPortCreate }

/-- PORT.CREATE (R53). -/
def execPortCreate (c : Call) (q : List Word) (s : State) : Host.Outcome State Fault Refusal :=
  .next (runCommand cmdPortCreate c q s)

/-- Run f on the Ethernet port that request word 0 names, or complete with BAD_HANDLE; a handle that the same
transaction reserved passes at staging (R11, R454). -/
def withPort (x : Ctx) (q : List Word) (s : State) (f : Nat → Port → Res) : Res :=
  match portOf s (wd q 0) with
  | some p => f (hIdx (wd q 0)) p
  | none => if x.reservedHere s (wd q 0) && hType (wd q 0) == 0x30 then done s else fail stBadHandle s

/-- A packet that asked for a transmit capture is discarded at port p: its entry has the not-sent flag (R345). -/
def notSent (p : Nat) (k : Pkt) (s : State) : State :=
  match k.cap with
  | some id => tsStore p id 0 false true k.own s
  | none => s

/-- Discard every frame that the FD holds for a port, counting each in TX_LINK_DOWN_DROP (R78). -/
def dropPortFrames (p : Nat) (s : State) : State :=
  let mine := (s.fwd.egress ++ s.fwd.txq).filter fun e => e.1 == p
  mine.foldl (fun s e => notSent p e.2 (macCount p 44 1 s))
    (modFwd (fun w => { w with egress := w.egress.filter fun e => e.1 != p, txq := w.txq.filter fun e => e.1 != p }) s)

/-- Own meaning of PORT.DELETE (R78). -/
def actPortDelete : Act := fun x q s =>
  withPort x q s fun p _ =>
    let s := dropSas p (dropPortFrames p (modPort p (fun y => { y with inService := false, pendEn := none }) s))
    done (ecmpUpdate (protUpdate { s with line := { s.line with ports := terase s.line.ports p } }))

def cmdPortDelete : Cmd :=
  { op := 0x0302, staging := .may, need := fun _ => 1, objs := objWord0, refs := refWord0, adm := true, act := actPortDelete }

/-- PORT.DELETE (R78). -/
def execPortDelete (c : Call) (q : List Word) (s : State) : Host.Outcome State Fault Refusal :=
  .next (runCommand cmdPortDelete c q s)

/-- Own meaning of PORT.ENABLE: refused in loopback or a test; a direct one waits for the next tide boundary (R68). -/
def actPortEnable : Act := fun x q s =>
  withPort x q s fun p y =>
    if x.ph ≠ .stage ∧ y.loop ≠ 0 then fail stNotPermitted s
    else if x.ph = .commit ∧ !portWithheld p s then done (enterService p s)
    else done (modPort p (fun y => { y with pendEn := some true }) s)

def cmdPortEnable : Cmd :=
  { op := 0x0303, staging := .may, need := fun _ => 1, objs := objWord0, refs := refWord0, adm := true, act := actPortEnable }

/-- PORT.ENABLE (R68). -/
def execPortEnable (c : Call) (q : List Word) (s : State) : Host.Outcome State Fault Refusal :=
  .next (runCommand cmdPortEnable c q s)

/-- Own meaning of PORT.DISABLE: out of service at the boundary; the counter mode stays (R68). -/
def actPortDisable : Act := fun x q s =>
  withPort x q s fun p _ =>
    if x.ph = .commit then done (modPort p (fun y => { y with inService := false, pendEn := none }) s)
    else done (modPort p (fun y => { y with pendEn := some false }) s)

def cmdPortDisable : Cmd :=
  { op := 0x0304, staging := .may, need := fun _ => 1, objs := objWord0, refs := refWord0, adm := true, act := actPortDisable }

/-- PORT.DISABLE (R68). -/
def execPortDisable (c : Call) (q : List Word) (s : State) : Host.Outcome State Fault Refusal :=
  .next (runCommand cmdPortDisable c q s)

/-- Own meaning of PORT.SET: the settings of Table 2-7 at the commit tide or the next tide (R56 to R59). -/
def actPortSet : Act := fun x q s =>
  withPort x q s fun p _ =>
    let c := portCfgOf q
    if !portCfgOk c then fail stNotPermitted s
    else if x.ph = .commit then done (applyPortCfg p c s)
    else done (modPort p (fun y => { y with pendCfg := some c }) s)

def cmdPortSet : Cmd :=
  { op := 0x0305, staging := .may, need := fun _ => 5, objs := objWord0, refs := refWord0, adm := true, act := actPortSet }

/-- PORT.SET (R56). -/
def execPortSet (c : Call) (q : List Word) (s : State) : Host.Outcome State Fault Refusal :=
  .next (runCommand cmdPortSet c q s)

/-- Own meaning of PORT.FILTER_SET: one entry of the perfect-match filter (R60, R581). -/
def actPortFilterSet : Act := fun x q s =>
  withPort x q s fun p _ =>
    let a := wd q 2 + 2 ^ 32 * fld q 3 15 0
    done (modPort p (fun y => { y with filter := y.filter.set (fld q 1 2 0) (a, flag q 1 3) }) s)

def cmdPortFilterSet : Cmd :=
  { op := 0x0306, staging := .may, need := fun _ => 4, objs := objWord0, refs := refWord0, act := actPortFilterSet }

/-- PORT.FILTER_SET (R60). -/
def execPortFilterSet (c : Call) (q : List Word) (s : State) : Host.Outcome State Fault Refusal :=
  .next (runCommand cmdPortFilterSet c q s)

/-- Own meaning of PORT.STATUS (Table 2-8). -/
def actPortStatus : Act := fun x q s =>
  withPort x q s fun _ y =>
    reply (toWord (b2n y.up + 2 * b2n (bit y.conds 4) + 4 * b2n (bit y.conds 5) + 8 * b2n y.degrade
      + 16 * b2n y.clearMode + 32 * b2n y.inService) :: toWords y.declTide 2) s

def cmdPortStatus : Cmd := { op := 0x0307, reading := true, need := fun _ => 1, act := actPortStatus }

/-- PORT.STATUS (R55). -/
def execPortStatus (c : Call) (q : List Word) (s : State) : Host.Outcome State Fault Refusal :=
  .next (runCommand cmdPortStatus c q s)

/-- Read counters of a port in index order: the snapshot with its flag, else the live counters, which clear-on-read
mode clears in the same access (R67). -/
def readPortCtrs (p : Nat) (ks : List Nat) (snapshot clearMode : Bool) (s : State) : Res :=
  if snapshot then reply (ctrWords s.snap 1 p ks) s
  else reply (ctrWords s.ctr 1 p ks) (if clearMode then ctrClear 1 p ks s else s)

/-- Own meaning of PORT.COUNTERS: indices 0 to 44 of Table 2-5 (R67). -/
def actPortCounters : Act := fun x q s =>
  withPort x q s fun p y => readPortCtrs p (List.range 45) (flag q 1 0) y.clearMode s

def cmdPortCounters : Cmd := { op := 0x0308, reading := true, need := fun _ => 2, act := actPortCounters }

/-- PORT.COUNTERS (R67). -/
def execPortCounters (c : Call) (q : List Word) (s : State) : Host.Outcome State Fault Refusal :=
  .next (runCommand cmdPortCounters c q s)

/-- Own meaning of PORT.LOOPBACK (R68, R77): entering a mode takes the port out of service; mode 0 ends the test. In
PRBS the response is the checker's error count, a measured value (free value). -/
def actPortLoopback : Act := fun x q s =>
  withPort x q s fun p y =>
    let m := fld q 1 1 0
    let b13 := flag q 1 2
    let same := y.loop == m && (m != 3 || y.prbs13 == b13)
    let s1 := if m = 0 ∨ same then s else outOfService p (if m = 3 then 2 else 1) s
    let s2 := modPort p (fun y => { y with loop := m, prbs13 := if m = 3 then b13 else y.prbs13 }) s1
    if m = 3 then reply [toWord (freeVal s2)] s2.took else done s2

def cmdPortLoopback : Cmd :=
  { op := 0x0309, need := fun _ => 2, objs := objWord0, adm := true, act := actPortLoopback }

/-- PORT.LOOPBACK (R77). -/
def execPortLoopback (c : Call) (q : List Word) (s : State) : Host.Outcome State Fault Refusal :=
  .next (runCommand cmdPortLoopback c q s)

/-- Own meaning of LANE.SET: a change of the lane map only while no lane of the octet belongs to a port (R52). A map that
gives two lanes one physical lane is accepted: the spec names no refusal of it (DESIGN CHOICE, assumption 90). -/
def actLaneSet : Act := fun _ q s =>
  let l := wd q 0
  match s.line.lanes[l]? with
  | none => fail stNotPermitted s
  | some old =>
    let phys := fld q 1 6 4
    if phys ≠ old.phys ∧ (laneUses s).any (fun u => u.port / 8 == l / 8) then fail stNotPermitted s
    else
      let new : Lane :=
        { txInv := flag q 1 0, rxInv := flag q 1 1, training := flag q 1 2, phys := phys, taps := fld q 2 27 0 }
      done { s with line := { s.line with lanes := s.line.lanes.set l new } }

def cmdLaneSet : Cmd := { op := 0x0310, need := fun _ => 3, act := actLaneSet }

/-- LANE.SET (R52). -/
def execLaneSet (c : Call) (q : List Word) (s : State) : Host.Outcome State Fault Refusal :=
  .next (runCommand cmdLaneSet c q s)

/-! ### MACsec -/

/-- Whether any SA of port p is installed. -/
def hasSa (p : Nat) (s : State) : Bool := s.line.sas.any fun e => e.1 / 256 == p

/-- Own meaning of MACSEC.SECY_SET (R79, R80, Table 2-10). -/
def actMacsecSecySet : Act := fun x q s =>
  withPort x q s fun p y =>
    let cipher := fld q 1 1 0
    let xpn := cipher == 2
    let dflt := flag q 1 9
    let thr := wd64 q 5
    let a0 := (y.filter.getD 0 (0, false)).1
    let rangeBad := cipher == 3 || fld q 1 3 2 == 3 || fld q 1 7 6 == 3 || thr == 0 || (!xpn && wd q 6 != 0)
      || (xpn && decide (2 ^ 30 < wd q 2))
    let stateBad := (cipher != y.secY.cipher && hasSa p s) || (cipher != 0 && dflt && a0 == 0)
    if rangeBad || (x.ph != .stage && stateBad) then fail stNotPermitted s
    else
      let secY : SecY := {
        cipher := cipher, confOff := fld q 1 3 2, integ := flag q 1 4, sciIn := flag q 1 5,
        validate := fld q 1 7 6, replay := flag q 1 8, window := wd q 2,
        txSci := if dflt then a0 * 65536 + 1 else wd64 q 3, pnThr := thr,
        bypass := [(fld q 7 15 0, flag q 9 0), (fld q 7 31 16, flag q 9 1),
          (fld q 8 15 0, flag q 9 2), (fld q 8 31 16, flag q 9 3)] }
      done (modPort p (fun y => { y with secY := secY }) s)

def cmdMacsecSecySet : Cmd :=
  { op := 0x0320, staging := .may, need := fun _ => 12, objs := objWord0, refs := refWord0, adm := true, act := actMacsecSecySet }

/-- MACSEC.SECY_SET (R79). -/
def execMacsecSecySet (c : Call) (q : List Word) (s : State) : Host.Outcome State Fault Refusal :=
  .next (runCommand cmdMacsecSecySet c q s)

/-- The index of an SA handle. -/
def saIndex (p : Nat) (tx : Bool) (ch an : Nat) : Nat := p * 256 + b2n tx * 128 + ch * 4 + an

/-- Own meaning of MACSEC.SA_INSTALL: the SAK goes to the security store and the working copy; an occupied AN is
refused (R72, R73). Each SA keeps the SCI it was installed with, and its counters go on from an SA that its AN held before
(DESIGN CHOICE, assumptions 92 and 93). -/
def actMacsecSaInstall : Act := fun x q s =>
  withPort x q s fun p _ =>
    let tx := flag q 1 0
    let i := saIndex p tx (if tx then 0 else fld q 1 11 8) (fld q 1 2 1)
    let sak := wordBytes ((q.drop 10).take 8)
    if thas s.line.sas i then fail stNotPermitted s
    else
      let sa : Sa := { sci := wd64 q 2, pn := wd64 q 4, ssci := wd q 6, salt := wd64 q 7 + 2 ^ 64 * wd q 9, sak := sak, work := sak }
      created (handle 0x31 i) { s with line := { s.line with sas := tset s.line.sas i sa } }

def cmdMacsecSaInstall : Cmd := { op := 0x0321, need := fun _ => 18, objs := objWord0, act := actMacsecSaInstall }

/-- MACSEC.SA_INSTALL (R73). -/
def execMacsecSaInstall (c : Call) (q : List Word) (s : State) : Host.Outcome State Fault Refusal :=
  .next (runCommand cmdMacsecSaInstall c q s)

/-- The SA that a handle of type 0x31 names. -/
def saOf (s : State) (h : Nat) : Option Sa := if hType h = 0x31 then tget s.line.sas (hIdx h) else none

/-- Own meaning of MACSEC.SA_ACTIVATE: a transmit SA becomes the active one (R74); refused on a standby in Y mode
(R393). -/
def actMacsecSaActivate : Act := fun _ q s =>
  match saOf s (wd q 0) with
  | none => fail stBadHandle s
  | some _ =>
    let i := hIdx (wd q 0)
    if !bit i 7 || (decide (2 ≤ s.twin.st) && !s.twin.dMode) then fail stNotPermitted s
    else done (modPort (i / 256) (fun y => { y with activeTx := some (i % 4) }) s)

def cmdMacsecSaActivate : Cmd := { op := 0x0322, need := fun _ => 1, objs := objWord0, act := actMacsecSaActivate }

/-- MACSEC.SA_ACTIVATE (R74). -/
def execMacsecSaActivate (c : Call) (q : List Word) (s : State) : Host.Outcome State Fault Refusal :=
  .next (runCommand cmdMacsecSaActivate c q s)

/-- Own meaning of MACSEC.SA_DELETE: both copies of the key are zeroised; the active transmit SA is refused (R73). -/
def actMacsecSaDelete : Act := fun _ q s =>
  match saOf s (wd q 0) with
  | none => fail stBadHandle s
  | some _ =>
    let i := hIdx (wd q 0)
    let active := match tget s.line.ports (i / 256) with
      | some y => bit i 7 && y.activeTx == some (i % 4)
      | none => false
    if active then fail stNotPermitted s
    else done { s with line := { s.line with sas := terase s.line.sas i } }

def cmdMacsecSaDelete : Cmd := { op := 0x0323, need := fun _ => 1, objs := objWord0, act := actMacsecSaDelete }

/-- MACSEC.SA_DELETE (R73). -/
def execMacsecSaDelete (c : Call) (q : List Word) (s : State) : Host.Outcome State Fault Refusal :=
  .next (runCommand cmdMacsecSaDelete c q s)

/-- Where counter k of Table 16-10 lies among the port's counters: SecY counters by their index, transmit SA counters
from 96, receive SA counters from 128 (R461). -/
def saCtrIndex (i k : Nat) : Nat :=
  if bit i 7 then 96 + 4 * (i % 4) + (k - 90) else 128 + 10 * (i % 64) + (k - 80)

/-- Own meaning of MACSEC.COUNTERS: the SecY's counters for a port handle, one SA's for an SA handle (R461). -/
def actMacsecCounters : Act := fun _ q s =>
  let h := wd q 0
  match portOf s h, saOf s h with
  | some y, _ => readPortCtrs (hIdx h) (List.range' 64 9) (flag q 1 0) y.clearMode s
  | none, some _ =>
    let i := hIdx h
    let p := i / 256
    let clear := match tget s.line.ports p with | some y => y.clearMode | none => false
    let t := if flag q 1 0 then s.snap else s.ctr
    let own := if bit i 7 then List.range' 90 4 else List.range' 80 10
    let resp := (List.range' 80 14).flatMap fun k =>
      if own.contains k then toWords (tgetD t (ctrKey 1 p (saCtrIndex i k)) 0) 2 else [0#32, 0#32]
    reply resp (if clear && !flag q 1 0 then ctrClear 1 p (own.map (saCtrIndex i)) s else s)
  | none, none => fail stBadHandle s

def cmdMacsecCounters : Cmd := { op := 0x0324, reading := true, need := fun _ => 2, act := actMacsecCounters }

/-- MACSEC.COUNTERS (R461). -/
def execMacsecCounters (c : Call) (q : List Word) (s : State) : Host.Outcome State Fault Refusal :=
  .next (runCommand cmdMacsecCounters c q s)

/-! ### Link events -/

/-- Bring what follows a port's link state in line: SyncE outputs, protection groups and
ECMP members (R57, R147, R347). -/
def linkChanged (s : State) : State := ecmpUpdate (protUpdate (syncEUpdate s))

/-- Link training has run on a port created with training: each of its lanes whose training flag is set takes the taps that
the training found, a free value (R52). -/
def trainLanes (p : Nat) (x : Port) (s : State) : State :=
  (List.range (ethLanes x.mode)).foldl (fun s i =>
    match s.line.lanes[p + i]? with
    | some l => if x.training && l.training then
        { s.took with line := { s.line with lanes := s.line.lanes.set (p + i) { l with taps := freeVal s % 2 ^ 28 } } } else s
    | none => s) s

/-- The conditions of R55 that fail on a port change: link training ends as the receiver locks, and a hold starts, goes on
or is abandoned (R52, R55 to R57). -/
def portConditions (port failing : Nat) (s : State) : State :=
  match tget s.line.ports port with
  | none => s
  | some x =>
    let f := if x.fec = 0 then failing % 8 + bits failing 5 4 * 16 else failing % 64
    let y : Port :=
      if x.up then
        if f = 0 then { x with holdOn := false, cause := 0 }
        else if x.holdOn then { x with cause := Nat.lor x.cause f }
        else { x with holdOn := true, holdStart := elapsed s, cause := f }
      else if f = 0 then (if x.holdOn then x else { x with holdOn := true, holdStart := elapsed s })
      else { x with holdOn := false }
    let s := modPort port (fun _ => { y with conds := f }) s
    linkChanged (if x.conds % 4 ≠ 0 ∧ f % 4 = 0 then trainLanes port x s else s)

/-- PORT_CONDITIONS_CHANGE: the conditions of R55 that fail on a port, as a mask (R55 to R57). -/
def execPortConditionsChange (t port failing : Nat) (s : State) : Host.Outcome State Fault Refusal :=
  .next (portConditions port failing (s.atTime t))

/-- LINK_UP: the link-up hold has run with every condition holding; the port is declared up (R56). -/
def execLinkUp (t port : Nat) (s : State) : Host.Outcome State Fault Refusal :=
  let s := s.atTime t
  match tget s.line.ports port with
  | some x => .next (if !x.up && holdReached x (elapsed s) then linkChanged (declareLink port s) else s)
  | none => .next s

/-- LINK_DOWN: the link-down hold has run; the port is declared down with the causes of the hold (R57). -/
def execLinkDown (t port : Nat) (s : State) : Host.Outcome State Fault Refusal :=
  let s := s.atTime t
  match tget s.line.ports port with
  | some x => .next (if x.up && holdReached x (elapsed s) then linkChanged (declareLink port s) else s)
  | none => .next s

end Sys2Proof.Machine
end

