-- ==== Sys2Proof/Machine/MacOps.lean ====
section
/-! DEFINITION. What the MACs do to a frame: counters of either kind of MAC, MACsec in both directions, and PTP corrections
(spec/02_lanes_ethernet.md, spec/12_time_tides.md). -/

namespace Sys2Proof.Machine

open Sys2Proof

/-! ### MAC counters (R66, R90) -/

/-- A MAC: of an Ethernet port, or of packet client c on a transport port (R90). -/
inductive Mac where
  | port (p : Nat)
  | client (c : Nat)
  deriving DecidableEq, Repr

/-- Add n to counter k of a MAC (Table 2-5). -/
def macAdd (m : Mac) (k n : Nat) (s : State) : State :=
  match m with
  | .port p => macCount p k n s
  | .client c => ctrPut 8 c k ((ctrGet s 8 c k + n) % 2 ^ 48) s

/-- Add 1 to several counters of a MAC. -/
def macAdds (m : Mac) (ks : List Nat) (s : State) : State := ks.foldl (fun s k => macAdd m k 1 s) s

/-- The size bin of a length: 0 for 64 to 9 for above 9,216 (Table 2-5). -/
def sizeBin (len : Nat) : Nat :=
  ([64, 127, 255, 511, 1023, 1518, 2047, 4095, 9216].filter fun b => decide (b < len)).length

/-- Whether a destination address is broadcast. -/
def isBroadcast (bs : List Byte) : Bool := beNat (bs.take 6) == 2 ^ 48 - 1

/-- The index of a frame's type among unicast, multicast and broadcast. -/
def castOf (bs : List Byte) : Nat := if isBroadcast bs then 2 else byteAt bs 0 % 2

/-- Whether a frame counts as tagged: its first EtherType is 0x8100 or the port's S-tag TPID (Table 2-4). -/
def isTagged (s : State) (p : Nat) (bs : List Byte) : Bool := half bs 12 == 0x8100 || half bs 12 == stagTpid s p

/-! ### MACsec (R70 to R76) -/

/-- The IV of a frame: SCI and PN, or with XPN the SSCI and the 64-bit PN, XORed with the salt. -/
def macsecIv (xpn : Bool) (a : Sa) (sci pn : Nat) : Nat :=
  if xpn then Nat.xor (a.ssci * 2 ^ 64 + pn) a.salt else sci * 2 ^ 32 + pn % 2 ^ 32

/-- Confidentiality offset of a SecY, bytes. -/
def SecY.offset (y : SecY) : Nat := if y.confOff = 1 then 30 else if y.confOff = 2 then 50 else 0

/-- The next PN of a transmit SA would exceed its range: the SA is used no more (R75). -/
def saExhaust (p i : Nat) (a : Sa) (s : State) : State :=
  raise 3 0x11 (macUnit p) (pay [(handle 0x30 p, 4), (handle 0x31 i, 4)])
    { s with line := { s.line with sas := tset s.line.sas i { a with exhausted := true } } }

/-- What the SecY makes of a frame to transmit: the frame as it leaves, or none for one discarded; and the state. -/
def macsecProtect (p : Nat) (bs : List Byte) (s : State) : Option (List Byte) × State :=
  match tget s.line.ports p with
  | none => (some bs, s)
  | some x =>
    let y := x.secY
    if y.cipher = 0 then (some bs, s)
    else if !protectedOn s p bs then (some bs, macCount p 70 1 s)
    else match x.activeTx with
      | none => (none, s)
      | some an =>
        let i := saIndex p true 0 an
        match tget s.line.sas i with
        | none => (none, s)
        | some a =>
          let xpn := decide (y.cipher = 2)
          let top := if xpn then 2 ^ 64 - 1 else 2 ^ 32 - 1
          if a.exhausted then (none, macCount p 72 1 s)
          else if top < a.pn then (none, macCount p 72 1 (saExhaust p i a s))
          else
            let user := bs.drop 12
            let n := user.length
            let tci := b2n y.sciIn * 32 + b2n (!y.integ) * 12 + an
            let tag := beBytes 0x88E5 2 ++ beBytes tci 1 ++ beBytes (if n < 48 then n else 0) 1 ++ beBytes (a.pn % 2 ^ 32) 4
              ++ (if y.sciIn then beBytes y.txSci 8 else [])
            let out := bs.take 12 ++ tag
              ++ gcmSeal a.work (macsecIv xpn a y.txSci a.pn) y.offset (!y.integ) (12 + tag.length) (bs.take 12 ++ tag ++ user)
            let next := a.pn + 1
            let thr := decide (y.pnThr ≤ next) && !a.thrRaised
            let sa : Sa := { a with pn := next, thrRaised := a.thrRaised || thr }
            let s := { s with line := { s.line with sas := tset s.line.sas i sa } }
            let s := if thr then raise 3 0x10 (macUnit p) (pay [(handle 0x30 p, 4), (handle 0x31 i, 4), (next, 8)]) s else s
            let s := if top < next then saExhaust p i sa s else s
            let k (c : Nat) : Nat := saCtrIndex i c
            let s := macCount p (k (if y.integ then 92 else 93)) n (macCount p (k (if y.integ then 90 else 91)) 1 s)
            (some out, s)

/-- A received SecTAG, its fields and where the secure data begins. -/
structure SecTag where
  sc : Bool
  es : Bool
  scb : Bool
  c : Bool
  e : Bool
  an : Nat
  sl : Nat
  pn : Nat
  sci : Nat
  data : Nat

/-- The SecTAG of a frame whose EtherType is 0x88E5, or none where it is not valid (R70, IEEE 802.1AE). -/
def secTagOf (xpn : Bool) (bs : List Byte) : Option SecTag :=
  let t := byteAt bs 14
  let sc := bit t 5
  let data := if sc then 28 else 20
  let sl := byteAt bs 15
  let pn := beNat ((bs.drop 16).take 4)
  let bad := bit t 7 || (sc && (bit t 6 || bit t 4)) || (bit t 3 && !bit t 2) || decide (48 ≤ sl)
    || decide (bs.length < data + 16 + sl) || (!xpn && decide (pn = 0))
  if bad then none
  else some { sc := sc, es := bit t 6, scb := bit t 4, c := bit t 2, e := bit t 3, an := t % 4, sl := sl, pn := pn
              sci := if sc then beNat ((bs.drop 20).take 8) else beNat ((bs.drop 6).take 6) * 65536 + b2n (!bit t 4)
              data := data }

/-- Receive SAs of a port. -/
def rxSas (s : State) (p : Nat) : Tab Sa := s.line.sas.filter fun e => e.1 / 256 == p && !bit e.1 7

/-- The SCI of a received frame: given, formed of its source address, or that of the only receive channel. -/
def rxSci (s : State) (p : Nat) (g : SecTag) : Option Nat :=
  if g.sc || g.es then some g.sci
  else match (rxSas s p).map fun e => e.2.sci with
    | a :: r => if r.all fun b => b == a then some a else none
    | [] => none

/-- The full PN of a received frame: with XPN its upper half is recovered from the lowest acceptable PN. -/
def fullPn (xpn : Bool) (low pn : Nat) : Nat :=
  if !xpn then pn
  else
    let up := low / 2 ^ 32
    (if bit low 31 && !bit pn 31 then up + 1 else up) * 2 ^ 32 + pn

/-- What the SecY makes of a received frame: the frame for the parser, or none for one discarded (MACSEC_VALIDATE, R70).
`trunc`: the frame is truncated, so its integrity check fails (R62). -/
def macsecValidate (p : Nat) (trunc : Bool) (bs : List Byte) (s : State) : Option (List Byte) × State :=
  match tget s.line.ports p with
  | none => (some bs, s)
  | some x =>
    let y := x.secY
    let et := half bs 12
    let strict := decide (y.validate = 2)
    if y.cipher = 0 ∨ et = 0x888E ∨ (y.bypass.any fun b => b.2 && b.1 == et) then (some bs, s)
    else if et ≠ 0x88E5 then
      if strict then (none, macCount p 65 1 s) else (some bs, macCount p 64 1 s)
    else
      let xpn := decide (y.cipher = 2)
      match secTagOf xpn bs with
      | none => (none, macCount p 66 1 s)
      | some g =>
        let n := if g.sl = 0 then bs.length - g.data - 16 else g.sl
        let bare := bs.take 12 ++ (bs.drop g.data).take n
        let sci := rxSci s p g
        let chan := (rxSas s p).filter fun e => some e.2.sci == sci
        if chan.isEmpty then
          if strict || g.c then (none, macCount p 68 1 s) else (some bare, macCount p 67 1 s)
        else match chan.find? fun e => e.1 % 4 == g.an with
          | none =>
            let i := (chan.headD (0, ⟨0, 0, 0, 0, [], [], false, false⟩)).1 / 4 * 4 + g.an
            if strict || g.c then (none, macCount p (saCtrIndex i 83) 1 s) else (some bare, macCount p (saCtrIndex i 84) 1 s)
          | some (i, a) =>
            let pn := fullPn xpn a.pn g.pn
            let k (c : Nat) (s : State) : State := macCount p (saCtrIndex i c) 1 s
            let late := decide (pn < a.pn)
            if y.replay && late then (none, k 85 s)
            else
              let opened := if trunc then none
                else (gcmOpen a.work (macsecIv xpn a a.sci pn) y.offset g.e g.data (bs.take (g.data + n + 16))).map fun u => bs.take 12 ++ u
              let low := max a.pn (pn + 1 - y.window)
              let s' := { s with line := { s.line with sas := tset s.line.sas i { a with pn := low } } }
              if y.validate = 0 then
                if g.c then (match opened with | some f => (some f, k 87 s') | none => (none, k 82 s)) else (some bare, k 87 s')
              else match opened with
                | none => if strict || g.c then (none, k 82 s) else (some bare, k 81 s)
                | some f =>
                  let s' := macCount p (saCtrIndex i (if g.c then 89 else 88)) n s'
                  (some f, k (if late then 86 else 80) s')

/-! ### PTP in the transmit MAC (R341 to R343) -/

/-- Where a PTP message lies in a frame, with the offsets of its header and of its UDP checksum (R340). -/
def ptpAt (s : State) (port : Nat) (bs : List Byte) : Option (Nat × Option Nat) :=
  let vlan (i : Nat) : Nat := if half bs i = 0x8100 ∨ half bs i = stagTpid s port then i + 4 else i
  let i := vlan (vlan 12)
  let udp (u : Nat) : Option (Nat × Option Nat) :=
    if half bs (u + 2) = 319 ∨ half bs (u + 2) = 320 then some (u + 8, if half bs (u + 6) = 0 then none else some (u + 6)) else none
  if half bs i = 0x88F7 then some (i + 2, none)
  else if half bs i = 0x0800 ∧ byteAt bs (i + 2) = 0x45 ∧ byteAt bs (i + 11) = 17 then udp (i + 22)
  else if half bs i = 0x86DD ∧ byteAt bs (i + 8) = 17 then udp (i + 42)
  else none

/-- Write a field of n 16-bit words at byte i and update the UDP checksum incrementally (R342, RFC 1624). -/
def putPtp (bs : List Byte) (i n v : Nat) (sum : Option Nat) : List Byte :=
  (List.range n).foldl (fun bs j =>
    let new := v / 65536 ^ (n - 1 - j) % 65536
    let bs' := putBytes bs (i + 2 * j) (beBytes new 2)
    match sum with
    | some c =>
      let x := csumAfter (half bs c) (half bs (i + 2 * j)) new
      putBytes bs' c (beBytes (if x = 0 then 0xFFFF else x) 2)
    | none => bs') bs

/-- correctionField after an addition, in 2^-16 ns. -/
def addCorrection (bs : List Byte) (h v : Nat) (sum : Option Nat) : List Byte :=
  putPtp bs (h + 8) 4 ((beNat ((bs.drop (h + 8)).take 8) + v) % 2 ^ 64) sum

/-- One-step insertion and the correction of a transparent clock in a frame for port p, whose transmit timestamp is the
linear value tx: the frame, and whether it changed (R341, R343). -/
def ptpCorrect (p : Nat) (k : Pkt) (tx : Nat) (s : State) : Option (Nat × List Byte) :=
  match ptpAt s p k.bytes with
  | none => none
  | some (h, sum) =>
    if k.oneStep then
      let ns := tx / nsU
      let v := (ns / 1000000000) % 2 ^ 48 * 2 ^ 32 + ns % 1000000000
      some (4, addCorrection (putPtp k.bytes (h + 34) 5 v sum) h (tx % nsU) sum)
    else if (s.tm.ports.getD p {}).ptpMode = 1 ∧ byteAt k.bytes h % 16 ≤ 3 ∧ !k.md.injected ∧ !k.own then
      some (2, addCorrection k.bytes h ((ns32 tx + 2 ^ 32 - k.md.arrival) % 2 ^ 32 * 65536) sum)
    else none

end Sys2Proof.Machine
end

