-- ==== Sys2Proof/Machine/Mac.lean ====
section
/-! DEFINITION. Frames in and out: the receive MAC, the egress half of the pipelines, launch and the transmit MAC
(spec/02_lanes_ethernet.md, spec/05_forwarding_pipeline.md R153, spec/10_deterministic_service.md R289). -/

namespace Sys2Proof.Machine

open Sys2Proof

/-! ### Receive (R60 to R63, R90) -/

/-- The address filter (R60). -/
def filterAccepts (x : Port) (bs : List Byte) : Bool :=
  !x.cfg.filterMode || (isBroadcast bs && x.cfg.bcast)
    || (x.filter.any fun e => e.2 && e.1 == beNat (bs.take 6)) || (half bs 12 == 0x888E && decide (x.secY.cipher ≠ 0))

/-- Bytes in the ingress buffer of an octet (R133). -/
def octetFill (s : State) (o : Nat) : Nat :=
  (((s.fwd.pipes.getD (2 * o) {}).waiting ++ (s.fwd.pipes.getD (2 * o + 1) {}).waiting).map fun k => k.md.len).sum

/-- A frame that has passed the MAC enters its octet's ingress buffer with its metadata (R131, R339). -/
def macDeliver (port : Nat) (client : Option Nat) (bs : List Byte) (len : Nat) (trunc : Bool) (dur : Nat) (seq : Option Nat × Nat)
    (s : State) : State :=
  if !forwards s then s else
  let off := (s.tm.ports.getD port {}).rxOff
  let ts := ((nowLin s : Int) - dur + off).toNat
  let o := port / 8
  let s := octetPut port {
    bytes := bs, ts := tbLayout ts, last := nowLin s, seq := seq.1, fcs := seq.2
    md := { port := port, isClient := client.isSome, client := client.getD 0, len := len, trunc := trunc, arrival := ns32 ts } } s
  powPeak (4 * o + 2) (octetFill s o) (powTally (4 * o) 1 s)

/-- Number a frame that a line port passes to its address filter, and note it for the manifest of a pair in Y mode
(R397). -/
def seqFrame (port fcs : Nat) (s : State) : Option Nat × State :=
  match s.twin.ports[port]? with
  | none => (none, s)
  | some x =>
    let note := s.twin.st ≠ 0 ∧ forwards s ∧ !s.twin.dMode
    (some x.seq, { s with twin := { s.twin with ports := s.twin.ports.set port { x with
      seq := (x.seq + 1) % 2 ^ 48
      frames := if note then x.frames ++ [⟨x.seq, nowLin s, fcs, none⟩] else x.frames } } })

/-- What the MAC does with a received frame of a port: classification and counting (Table 2-3), filter, MACsec (R61). -/
def macReceive (m : Mac) (port : Nat) (bs : List Byte) (good aborted : Bool) (dur : Nat) (s : State) : State :=
  let len := bs.length + 4
  let s := bwAdd port 2 1 (bwAdd port 0 len (macAdd m 1 1 (macAdd m 0 len (frameSeen port s))))
  let ep := match m with | .port p => tget s.line.ports p | .client _ => none
  let client := match m with | .port _ => none | .client c => some c
  let max := match ep with | some x => x.cfg.maxLen | none => 9216
  let live := match ep with | some x => x.inService | none => true
  if aborted then macAdd m 23 1 s
  else if len < 64 then macAdd m (if good then 19 else 20) 1 s
  else
    let trunc := decide (max < len)
    if trunc && !good then macAdds m [21, 17] s
    else if !good then macAdd m 17 1 s
    else
      let s := if trunc then macAdd m 21 1 s
        else macAdds m ([2 + sizeBin len, 12 + castOf bs] ++ if isTagged s port bs then [16] else []) s
      let pause := !trunc && (payloadOf (stagTpid s port) bs).1 == 0x8808
      let bs := if trunc then bs.take (max - 4) else bs
      let len := if trunc then max else len
      if pause then macAdd m 15 1 s
      else if decide (2 ≤ s.twin.st) && s.twin.dMode then twinCount 11 1 s
      else
        let fcs := leNat (fcsOf bs)
        let (seq, s) := if trunc then (none, s) else seqFrame port fcs s
        match ep with
        | none => if live then macDeliver port client bs len trunc dur (seq, fcs) s else s
        | some x =>
          if !filterAccepts x bs then macAdd m 22 1 s
          else match macsecValidate port trunc bs s with
            | (none, s) => s
            | (some f, s) => if live then macDeliver port client f (if trunc then len else f.length + 4) trunc dur (seq, fcs) s else s

/-- Whether a cluster that serves the MAC of port p, or of a packet client, is fenced (Tables 1-1 and 1-2). -/
def macFenced (s : State) (p : Nat) (client : Option Nat) : Bool :=
  fenced s (24 + p / 8) || fenced s (if client.isSome || thas s.tr.ports p then 36 else 32 + p / 16)

/-- FRAME_RECEIVED: a frame without its FCS completes at the MAC of an Ethernet port, or of a packet client of a
transport port; `good` whether its FCS is right, `aborted` whether a link condition failed during it, `dur` the time
since its first bit passed the PCS (R58, R61); a fenced cluster discards it (R22). Nothing is received in a loopback or PRBS test, or where the frame's
start found the port down (R58, R77). -/
def execFrameReceived (t port : Nat) (client : Option Nat) (frame : List Byte) (good aborted : Bool) (dur : Nat) (s : State) :
    Host.Outcome State Fault Refusal :=
  let s := s.atTime t
  if macFenced s port client then .next s else
  match client with
  | none =>
    match tget s.line.ports port with
    | some x =>
      .next (if x.loop ≠ 0 ∨ x.poweredOff ∨ (!x.up ∧ !aborted) then s
        else macReceive (.port port) port frame good (aborted || decide (x.conds ≠ 0)) dur s)
    | none => .next s
  | some c =>
    match tget s.tr.clients c, tget s.tr.ports port with
    | some cl, some tp => .next (if tp.enabled ∧ oduPort s 5 (handle 0x40 cl.odu) = port ∧ (cl.up ∨ aborted) then macReceive (.client c) port frame good aborted dur s else s)
    | _, _ => .next s

/-! ### Egress (R153, R252) -/

/-- Whether the FD may send a frame that leaves by a port, or by a client of it (R58, R90). -/
def txOpen (s : State) (p : Nat) (client : Option Nat) : Bool :=
  match tget s.line.ports p with
  | some x => x.up && x.inService && decide (x.loop = 0)
  | none => match tget s.tr.ports p, client with
    | some tp, some c => tp.enabled && match tget s.tr.clients c with | some cl => cl.up | none => false
    | _, _ => false

/-- The MAC by which a packet leaves port p. -/
def macOf (s : State) (p : Nat) (k : Pkt) : Option Mac :=
  if thas s.line.ports p then some (.port p)
  else if thas s.tr.ports p then k.outClient.map .client else none

/-- EGRESS_PIPELINE_PASS: the egress half edits the oldest packet dequeued for a port and hands it to the MAC (R153).
While no port of the number exists the packet is discarded uncounted (R252); on one that is not up and in service it
is discarded whole (R58). The FD bridge end accepts it while domain 39 is ON; it, or the pipeline, discards it while
fenced (R14, R22). -/
def execEgressPipelinePass (t port : Nat) (s : State) : Host.Outcome State Fault Refusal :=
  let s := s.atTime t
  match s.fwd.egress.find? fun e => e.1 == port with
  | none => .next s
  | some e =>
    let k := e.2
    let pipe := k.pipe
    if (domOf s 39).st ≠ 0 then .next (if (domOf s 39).st = 6 ∧ fenced s 39 then
        notSent port k (modFwd (fun w => { w with egress := w.egress.erase e }) s) else wakeDom 39 s) else
    let s := modFwd (fun w => { w with egress := w.egress.erase e }) (powTally (4 * (port / 8) + 1) 1 s)
    if fenced s 39 || fenced s pipe then .next (notSent port k s) else
    match macOf s port k with
    | none => .next (notSent port k s)
    | some m =>
      if !txOpen s port k.outClient then .next (notSent port k (macAdd m 44 1 s))
      else
        let x := egressEdit s (cfgEg s k.md.egEpoch) port k
        let s := samplePackets pipe 1 k.md.words (bankEvent pipe 10 16 1 (pipeCount pipe 17 x.exc s))
        match x.drop with
        | some .edit => .next (notSent port k s)
        | some .ttl => .next (notSent port k (pipeCount pipe 18 1 s))
        | some .notEct => .next (notSent port k (schedCount (sliceUnit s k.md.queue) 3 1 s))
        | none => .next (modFwd (fun w => { w with txq := w.txq ++ [(port, { k with bytes := x.bytes })] }) s)

/-! ### Transmit (R64, R74, R75, R339 to R345) -/

/-- Transmit a frame by a MAC: PTP, MACsec, padding, length, counting and capture. `cut`: the port goes down or leaves
service while the frame is being sent (R58). TX_UNICAST to TX_TAGGED judge the frame before MACsec, the octets and the bins
after it (DESIGN CHOICE for the former, assumption 91). -/
def macSend (m : Mac) (port : Nat) (k : Pkt) (cut : Bool) (s : State) : State :=
  let tx := ((k.start.getD (nowLin s) : Int) + (s.tm.ports.getD port {}).txOff).toNat
  let sealed := protectedOn s port k.bytes
  let (k, s) := match ptpCorrect port k tx s with
    | none => (k, s)
    | some (c, bs) => if sealed then (k, timeCount port 3 1 s) else ({ k with bytes := bs }, timeCount port c 1 s)
  match macsecProtect port k.bytes s with
  | (none, s) => notSent port k s
  | (some f, s) =>
    let body := f ++ List.replicate (60 - f.length) 0#8
    let len := body.length + 4
    let max := match tget s.line.ports port, m with
      | some x, .port _ => x.cfg.maxLen
      | _, _ => 9216
    if max < len then notSent port k (macAdd m 43 1 (if sealed then macCount port 71 1 s else s))
    else
      let s := match k.cap with
        | some id => tsStore port id (tbLayout tx) cut false k.own s
        | none => s
      if cut then macAdd m 44 1 s
      else
        let s := macAdds m ([28, 29 + sizeBin len, 39 + castOf k.bytes] ++ if isTagged s port k.bytes then [42] else [])
          (bwAdd port 3 1 (bwAdd port 1 len (macAdd m 27 len s)))
        let s := match k.voq with
          | some q => if k.md.det then voqCompleted q s else s
          | none => s
        if mayDrive s then emit (.frame port (body ++ fcsOf body)) (frameSeen port s) else frameSeen port s

/-- Send the oldest frame that waits for a port and satisfies a condition; a fenced cluster discards it (R22). -/
def sendNext (port : Nat) (cut : Bool) (which : Pkt → Bool) (s : State) : State :=
  match s.fwd.txq.find? fun e => e.1 == port && which e.2 with
  | none => s
  | some e =>
    let s := modFwd (fun w => { w with txq := w.txq.erase e }) s
    match macOf s port e.2 with
    | none => notSent port e.2 s
    | some m =>
      if macFenced s port e.2.outClient then notSent port e.2 s
      else if txOpen s port e.2.outClient then macSend m port e.2 cut s
      else notSent port e.2 (macAdd m 44 1 s)

/-- Send the message that Enenhild originates on a port, at most at the set rate (TIME.ORIGINATE, R344): it has taken the
captures of the messages before. On a gated port it waits for its scheduled start as every frame does (R289). -/
def originate (port : Nat) (cut : Bool) (s : State) : State :=
  let x := s.tm.ports.getD port {}
  if x.origRate = 0 ∨ (x.origLast ≠ 0 ∧ elapsed s < x.origLast - 1 + secU / x.origRate) ∨ !thas s.line.ports port
      ∨ !txOpen s port none then s
  else
    let s := modTimePort port (fun x => { x with origLast := elapsed s + 1, fifo := x.fifo.filter fun e => !e.own }) s
    let k : Pkt := { bytes := x.origTemplate, md := {}, own := true, cap := some 0 }
    if gated s port then
      let st := launchAt s port (nowLin s)
      let len := max 64 (k.bytes.length + macsecBytes s port k.bytes + 4)
      modFwd (fun w => { w with txq := w.txq ++ [(port, { k with start := some st })] })
        (modGate port (fun g => { g with busy := st + byteTime (len + 20) (macRate s port) }) s)
    else macSend (.port port) port k cut s

/-- MAC_TRANSMIT_FRAME: the first bit of the oldest frame that waits for the MAC of a port leaves, of a frame without a
scheduled start; with `own`, of the message that Enenhild originates (R64, R344). -/
def execMacTransmitFrame (t port : Nat) (cut own : Bool) (s : State) : Host.Outcome State Fault Refusal :=
  let s := s.atTime t
  .next (if own then originate port cut s else sendNext port cut (fun k => k.start.isNone) s)

/-- The earliest scheduled start among the frames that wait for a port (R289). -/
def firstStart (s : State) (p : Nat) : Option Nat :=
  (s.fwd.txq.filterMap fun e => if e.1 = p then e.2.start else none).foldl (fun n x => match n with
    | some y => some (min x y)
    | none => some x) none

/-- FRAME_LAUNCH: on a gated port the frame with the earliest scheduled start s is launched: its first bit leaves at s, and it is
held until then (R289). -/
def execFrameLaunch (t port : Nat) (cut : Bool) (s : State) : Host.Outcome State Fault Refusal :=
  let s := s.atTime t
  match firstStart s port with
  | none => .next s
  | some x => .next (if nowLin s < x then s else sendNext port cut (fun k => k.start == some x) s)

/-! ### Stale packets (R156) -/

/-- Count and report the stale packets of one pipeline and segment (R156). -/
def staleReport (seg p n : Nat) (s : State) : State :=
  if n = 0 then s else raise 6 4 (unitOf p 0) (pay [(p, 1), (seg, 1), (n, 4)]) (pipeCount p 15 n s)

/-- EPOCH_STALE: 10 us after a commit's boundary, packets that still carry a segment's old epoch are dropped, and its old
versions retire (R156). -/
def execEpochStale (t seg : Nat) (s : State) : Host.Outcome State Fault Refusal :=
  let s := s.atTime t
  let now := s.fwd.epoch
  if s.tm.sub < usU 10 ∨ (if seg = 0 then s.fwd.oldIn.isNone else s.fwd.oldEg.isNone) then .next s
  else if seg = 0 then
    let ns := (List.range 16).map fun p => (p, staleIn s p)
    let gone := (s.fwd.pipes.flatMap fun x => x.recirc.filter fun k => k.md.inEpoch != now)
      ++ (s.fwd.reorder ++ s.td.ingress).filter fun k => k.md.inEpoch != now
    let s := modFwd (fun w => { w with
      pipes := w.pipes.map fun x => { x with recirc := x.recirc.filter fun k => k.md.inEpoch == now }
      reorder := w.reorder.filter fun k => k.md.inEpoch == now }) s
    let s := modTd (fun t => { t with ingress := t.ingress.filter fun k => k.md.inEpoch == now }) s
    let s := gone.foldl (fun s k => capLost k (releasePkt false k s)) s
    .next (reorderRelease (retireIn (ns.foldl (fun s e => staleReport 0 e.1 e.2 s) s)))
  else
    let ns := (List.range 16).map fun p => (p, staleEg s p)
    let gone := s.fwd.egress.filter fun e => e.2.md.egEpoch != now
    let s := modFwd (fun w => { w with egress := w.egress.filter fun e => e.2.md.egEpoch == now }) s
    let s := gone.foldl (fun s e => notSent e.1 e.2 s) s
    .next (retireEg (ns.foldl (fun s e => staleReport 1 e.1 e.2 s) s))

end Sys2Proof.Machine
end

