-- ==== Sys2Proof/Machine/FaultOps.lean ====
section
/-! DEFINITION. Operations of faults and recovery: error reports, fences, zeroisation, the last-breath record and the safe
state (spec/20_faults_recovery.md). -/

namespace Sys2Proof.Machine

open Sys2Proof

/-! ### Records (Table 15-5, R532) -/

/-- An event record as 8 words (Table 15-5). -/
def EventRec.words (phase : Bool) (e : EventRec) : List Word :=
  let p := packWords (e.payload.take 20)
  [toWord (b2n phase * 2 ^ 31 + e.cls % 128 * 65536 + e.code), toWord (e.tide / 2 ^ 32 % 65536 * 65536 + e.unit), toWord e.tide]
    ++ (List.range 5).map fun i => p.getD i 0#32

/-- Raise an event that the fault log keeps too (R532). -/
def raiseLogged (code unit : Nat) (payload : List Byte) (s : State) : State :=
  let w := EventRec.words false ⟨0x12, code, unit, s.tm.tide, payload⟩
  raise 0x12 code unit payload { s with aon := { s.aon with log := (w :: s.aon.log).take 64 } }

/-- Count a fault counter (R537). -/
def faultCount (k n : Nat) (s : State) : State := ctrAdd48 0x12 8 (aonUnit 0) (pay [(k, 1)]) 0x52 0 k n s

/-- Count a self-test counter (R515). -/
def testCount (k n : Nat) (s : State) : State := ctrAdd48 0x11 6 mpcUnit (pay [(k, 1)]) 0x51 0 k n s

/-! ### Zeroisation (R504) -/

/-- Zeroise the whole security store and every working copy: no SA is left (R503, R504). -/
def zeroise (cause : Nat) (s : State) : State :=
  let s := { s with line := { s.line with sas := [], ports := tmap s.line.ports fun _ x => { x with activeTx := none } } }
  raise 0x11 5 (aonUnit 0) (pay [(cause, 1)]) (testCount 5 1 s)

/-! ### The last-breath record (R530, Table 20-7) -/

/-- Domains whose fences are raised, bit per domain. -/
def fencedBits (s : State) : Nat := (List.range 80).foldl (fun n d => if fenced s d then n + 2 ^ d else n) 0

/-- The last-breath record for a cause, made from the state at entry. -/
def lastBreath (cause : Nat) (s : State) : List Byte :=
  let log := s.aon.log.flatMap wordBytes
  let q := (s.host.evQueue.take 59).flatMap fun e => wordBytes (e.words false)
  let body := leBytes 0x1A57B0E7 4 ++ [1#8] ++ leBytes cause 1 ++ leBytes s.twin.st 1 ++ [0#8]
    ++ leBytes Config.udn.toNat 8 ++ leBytes s.tm.tide 8 ++ leBytes (nowTb s) 10 ++ [0#8, 0#8]
    ++ leBytes s.twin.lastSent 8 ++ leBytes s.twin.lastCommit 8 ++ leBytes s.id.fwVersion 4 ++ leBytes s.flt.recoveries 4
    ++ leBytes (fencedBits s) 10 ++ List.replicate 58 0#8
    ++ log ++ List.replicate (2048 - log.length) 0#8
    ++ q ++ List.replicate (1888 - q.length) 0#8 ++ List.replicate 28 0#8
  body ++ leBytes (crc32c body) 4

/-! ### The safe state (R526, R527) -/

/-- Whether cluster d lies on a die: the FD, or with `td` the TD (Table 1-5). -/
def onDie (td : Bool) (d : Nat) : Bool := if td then decide (40 ≤ d) else decide (d < 40)

/-- Every cluster of a die returns to its reset state, with its power domain; the fences of an error that is not permanent
and a sounding end with it (R27, R513, R521). -/
def dieClear (td : Bool) (s : State) : State :=
  let s := if td then
      { s with
        td := {}, det := {}
        fab := { s.fab with lanes := List.replicate 96 {}, demands := [], tx := [], rx := [] }
        twin := { s.twin with hawser := false, rx := [], timeSent := none }
        ctr := s.ctr.filter fun e => keeps true e.1 }
    else
      { s with
        line := {}, tr := {}, circuits := [], fwd := {}, tab := {}, learn := {}
        ctr := s.ctr.filter fun e => keeps false e.1 }
  { s with
    pow := { s.pow with doms := s.pow.doms.zipIdx.map fun (x, d) => if onDie td d then {} else x }
    flt := { s.flt with fences := s.flt.fences.filter fun e => !onDie td e.1 || e.2.perm }
    test := { s.test with run := s.test.run.filter fun r => !onDie td r.dom }
    snap := [] }
where
  /-- Whether the reset of the die leaves a counter: those of MAIN, AON and the other die (Table 15-7). -/
  keeps (td : Bool) (k : Nat) : Bool :=
    let g := k / 1024 / 2 ^ 32
    let fdStack := decide (5 ≤ k / 1024 % 2 ^ 32)
    !(if td then [3, 4, 5, 7, 0x49, 0x4A, 0x4B, 0x4C].contains g || (g == 0x4E && !fdStack)
      else [1, 2, 6, 0x46, 0x47, 0x48].contains g || (g == 0x4E && fdStack))

/-- Bridge isolation rises; both ends must retrain before it falls (R28). -/
def isolate (s : State) : State := { s with flt := { s.flt with isolated := true, retrained := 0 } }

/-- Die reset of both dies, with the stacks in self-refresh (R27, R28, Table 20-6). -/
def dieReset (s : State) : State :=
  let s := isolate (dieClear true (isolate (dieClear false s)))
  { s with hbm := { s.hbm with stks := s.hbm.stks.map fun x => { x with selfRefresh := true } } }

/-- Whether the PCI Express link is up: LINK_STATUS shows a rate (Table 15-3). -/
def pcieUp (s : State) : Bool := decide (s.host.linkStatus.toNat % 8 ≠ 0)

/-- Enter the safe state for a cause; the cause that enters first stays (R526, R527, R530, R531). -/
def enterSafe (cause : Nat) (s : State) : State :=
  if s.id.fwState = 3 then s
  else
    let s := raiseLogged 6 (aonUnit 0) (pay [(cause, 1)]) { s with
      id := { s.id with fwState := 3 }
      flt := { s.flt with cause := cause, faultN := true }
      aon := { s.aon with safeCount := s.aon.safeCount + 1 } }
    let r := lastBreath cause s
    let s := { s with
      aon := { s.aon with own := some r }
      boot := { s.boot with load := none, twinLoad := false, swap := 0, convert := false }
      test := { s.test with run := none, asked := [], scan := false }
      tel := { s.tel with dumps := s.tel.dumps.map fun d => { d with cfg := { d.cfg with en := false }, pend := none } }
      twin := { s.twin with killOut := false, inFirst := s.twin.killIn, takeAt := 0, detector := 0, switch := none, contest := none } }
    let s := if s.id.twinEn then setTwinFree 4 s else s
    let s := if s.id.twinEn then emit (.hawser (.control (.lastBreath r))) s else s
    let s := zeroise 3 s
    let s := if s.flt.lbOn && pcieUp s then hostWrite s.flt.lbAddr r s else s
    let s := if s.flt.lbOn then raise 0x12 7 (aonUnit 0) (pay [(cause, 1), (b2n (pcieUp s), 1)]) s else s
    syncEUpdate (dieReset s)

/-! ### Errors (R517 to R522) -/

/-- Severity of an error kind (Table 20-2). -/
def severityOf (k : Nat) : Nat := if k = 1 then 0 else if k ≤ 4 then 1 else if k ≤ 8 then 2 else 3

/-- Level of an error kind (Table 20-2). -/
def levelOf (k : Nat) : Nat :=
  if k ≤ 3 then 0 else if k = 4 then 2 else if k ≤ 7 then 1 else if k = 8 then 4 else if k ≤ 12 then 3 else 4

/-- The home of a unit ID. -/
def homeOfUnit (unit : Nat) : Nat := unit / 2 ^ 13

/-- The cluster of a unit ID. -/
def clusterOf (unit : Nat) : Nat := unit / 64 % 128

/-- Whether a cluster is of the forwarding path (R404). -/
def forwardingPath (d : Nat) : Bool := decide (d ≤ 35) || (decide (37 ≤ d) && decide (d ≤ 62))

/-- Count and report an error under the limits of R519. -/
def errorReport (unit kind detail : Nat) (s : State) : State :=
  let sev := severityOf kind
  let key := unit * 65536 + kind
  let r := tgetD s.flt.reports key {}
  let n := min (2 ^ 32 - 1) (r.count + 1)
  let held := r.tide != 0 && (if sev = 0 then (r.tide - 1) / 8000 == s.tm.tide / 8000
    else if sev = 1 then r.tide - 1 == s.tm.tide else false)
  let s := faultCount sev 1 s
  if held then faultCount 4 1 { s with flt := { s.flt with reports := tset s.flt.reports key { r with count := n } } }
  else
    let s := { s with flt := { s.flt with reports := tset s.flt.reports key { count := 0, tide := s.tm.tide + 1 } } }
    let p := pay [(sev, 1), (levelOf kind, 1), (kind, 2), (detail, 8), (n, 4), (0, 4)]
    if 2 ≤ sev then raiseLogged 1 unit p s else raise 0x12 1 unit p s

/-- The earliest tide that a planned switchover may name (R409). -/
def earliestSwitch (s : State) : Nat :=
  let named (n : Nat) : Bool := (txns s).any fun e => (e.2.phase == 2 || e.2.named) && e.2.c == n
  ((List.range 64).map (fun i => s.tm.tide + 2 + i)).find? (fun n => !named n && !named (n + 1)) |>.getD (s.tm.tide + 2)

/-- Whether a segment of Sage quad i lies in a segment group (R487). -/
def quadUsed (s : State) (i : Nat) : Bool :=
  s.tab.groups.any fun e => decide (e.2.first < 4 * i + 4) && decide (4 * i < e.2.first + e.2.count)

/-- Whether the fencing of a cluster starts a planned switchover (R522). -/
def switchoverCluster (s : State) (d : Nat) : Bool :=
  (decide (16 ≤ d) && decide (d ≤ 19) && (quadUsed s (d - 16)))
    || (decide (20 ≤ d) && decide (d ≤ 36)) || d == 39 || (decide (56 ≤ d) && decide (d ≤ 62))
    || (decide (67 ≤ d) && decide (d ≤ 78) && (streamDevices s).any fun v =>
      decide (((lanesTo s v).filter fun l => l / 8 != d - 67).length < s.fab.kmin))

/-- Fence a cluster after a cluster-fatal error: the fourth in an hour is permanent; a pair's active may start a planned
switchover (R521, R522). -/
def fenceCluster (d : Nat) (s : State) : State :=
  let s := if 67 ≤ d ∧ d ≤ 78 then octetDown (d - 67) s else if d = 79 then hawserFails s else s
  let hour := 3600 * secU
  let past := s.flt.reinits.filter fun e => decide (elapsed s < e.2 + hour)
  let perm := decide (3 ≤ (past.filter fun e => e.1 == d).length)
  let s := { s with flt := { s.flt with
    fences := tset s.flt.fences d ⟨perm, elapsed s⟩
    reinits := if perm then past else past ++ [(d, elapsed s)] } }
  let s := raise 0x12 2 (unitOf d 63) (pay [(d, 1), (b2n perm, 1)]) (moveSlices s)
  -- Granting goes on from the other on-die half (R22, R23).
  let s := if d = 61 ∨ d = 62 then modPool 1 (fun pl => pl.withdraw (d - 60)) s else s
  if s.twin.st = 1 ∧ s.twin.peer = 2 ∧ s.twin.switch.isNone ∧ switchoverCluster s d then
    { s with twin := { s.twin with switch := some { n := earliestSwitch s } } }
  else s

/-- An error of contained or higher severity in a forwarding-path cluster makes the unit suspect (R404). -/
def noteSuspect (s : State) : State :=
  { s with flt := { s.flt with suspects := elapsed s :: s.flt.suspects.filter fun e => decide (elapsed s < e + 8 * tideU) } }

/-- An error: counted, reported and acted on by its severity; one that is cluster-fatal elsewhere is die-fatal in an HBM
controller cluster, and reported as kind 0x000B (R374, R517 to R519). -/
def errorAct (unit err detail : Nat) (s : State) : State :=
  let d := clusterOf unit
  let stack := hbmDomain d && severityOf err == 2
  let kind := if stack then 0xB else err
  let s := errorReport unit kind detail s
  let sev := severityOf kind
  let s := if sev ≤ 1 then bankEvent (if d < 80 then d else if homeOfUnit unit = 4 then 80 else 81) (unit % 64) (3 + sev) 1 s else s
  let s := if 1 ≤ sev ∧ forwardingPath d then noteSuspect s else s
  if stack then
    let i := if d = 37 then 4 else if d = 38 then 5 else d - 63
    let s := { s with hbm := { s.hbm with stks := lmod s.hbm.stks i fun x => { x with st := 3 } } }
    enterSafe 1 (raise 0x0E 5 unit (pay [(i, 1)]) s)
  else if sev = 3 then
    enterSafe (if kind = 0xD then 2 else if kind = 0xE then 3 else if kind = 0xF then 4 else 1) s
  else if sev = 2 ∧ d < 80 then
    if thas s.flt.fences d then s else fenceCluster d s
  else s
where
  /-- HBM controller clusters. -/
  hbmDomain (d : Nat) : Bool := d == 37 || d == 38 || (decide (63 ≤ d) && decide (d ≤ 66))

end Sys2Proof.Machine
end

