-- ==== Sys2Proof/Machine/Transport.lean ====
section
/-! DEFINITION. Commands and events of area 0x04: transport ports, ODUs, SDH paths, supervision and protection
(spec/03_transport_framing.md). -/

namespace Sys2Proof.Machine

open Sys2Proof

/-- OTUC slices of all transport ports (R84). -/
def otucSum (s : State) : Nat := s.tr.ports.foldl (fun a e => a + match tpMode e.2.mode with | some (_, _, n, _) => n | none => 0) 0

/-- STM-1 equivalents over native SDH ports and demapped STM-N signals (R84). -/
def stmSum (s : State) : Nat :=
  s.tr.ports.foldl (fun a e => a + match tpMode e.2.mode with | some (_, _, _, n) => n | none => 0) 0
    + s.tr.odus.foldl (fun a e => a + termStm e.2.term) 0

/-- Own meaning of TPORT.CREATE (R82 to R84). -/
def actTportCreate : Act := fun x q s =>
  let p := fld q 0 5 0
  let mode := fld q 0 15 8
  match tpMode mode with
  | none => fail stNotPermitted s
  | some (n, rate, sl, stm) =>
    if !laneFree (stagedUses x s) p n rate then fail stNotPermitted s
    else if x.ph ≠ .stage ∧ (32 < otucSum s + sl ∨ 256 < stmSum s + stm) then fail stResourceShort s
    else
      let st := { s with tr := { s.tr with
        ports := tset s.tr.ports p { mode := mode, loopTiming := flag q 0 16, s1 := fld q 1 7 0 } } }
      created (handle 0x32 p) (portNodePut p (Config.tportRate mode) (parseReset p (twinPortNew p st)))

def cmdTportCreate : Cmd := { op := 0x0401, staging := .may, need := fun _ => 2, adm := true, act := actTportCreate }

/-- TPORT.CREATE (R82). -/
def execTportCreate (c : Call) (q : List Word) (s : State) : Host.Outcome State Fault Refusal :=
  .next (runCommand cmdTportCreate c q s)

/-- Run f on the transport port that request word 0 names. -/
def withTport (x : Ctx) (q : List Word) (s : State) (f : Nat → TPort → Res) : Res :=
  let h := wd q 0
  match if hType h = 0x32 then tget s.tr.ports (hIdx h) else none with
  | some p => f (hIdx h) p
  | none => if x.reservedHere s h && hType h == 0x32 then done s else fail stBadHandle s

/-- Change transport port p. -/
def modTport (p : Nat) (f : TPort → TPort) (s : State) : State :=
  { s with tr := { s.tr with ports := tmodify s.tr.ports p f } }

/-- Own meaning of TPORT.DELETE: refused for a member of a group or a port with ODU or path objects. -/
def actTportDelete : Act := fun x q s =>
  withTport x q s fun p _ =>
    let h := handle 0x32 p
    if x.ph ≠ .stage ∧ (inGroup s h ∨ !(childrenOf s h).isEmpty) then fail stNotPermitted s
    else done { s with tr := { s.tr with ports := terase s.tr.ports p } }

def cmdTportDelete : Cmd :=
  { op := 0x0402, staging := .may, need := fun _ => 1, objs := objWord0, refs := refWord0, adm := true, act := actTportDelete }

/-- TPORT.DELETE (R82). -/
def execTportDelete (c : Call) (q : List Word) (s : State) : Host.Outcome State Fault Refusal :=
  .next (runCommand cmdTportDelete c q s)

/-- Put a transport port in or out of service; a record during which it was disabled is incomplete: one that it leaves
disabled is so at its end, and one in which it was enabled after its first boundary from then (R10, R101). Out of service it
carries frames no longer (R495). -/
def tportService (p : Nat) (on : Bool) (s : State) : State :=
  (fun s => if on then s else frameSeen p s) <| modTport p (fun y => { y with
    enabled := on, pendEn := none
    mon := { y.mon with incomplete := y.mon.incomplete || (on && !y.enabled && s.tm.tide != s.tm.pmFirst) } }) s

/-- Own meaning of TPORT.ENABLE: at the commit tide or the next tide. -/
def actTportEnable : Act := fun x q s =>
  withTport x q s fun p _ =>
    if x.ph = .commit ∧ !portWithheld p s ∧ !circuitsWithheld s then done (tportService p true s) else done (modTport p (fun y => { y with pendEn := some true }) s)

def cmdTportEnable : Cmd :=
  { op := 0x0403, staging := .may, need := fun _ => 1, objs := objWord0, refs := refWord0, adm := true, act := actTportEnable }

/-- TPORT.ENABLE (R82). -/
def execTportEnable (c : Call) (q : List Word) (s : State) : Host.Outcome State Fault Refusal :=
  .next (runCommand cmdTportEnable c q s)

/-- Own meaning of TPORT.DISABLE: at the commit tide or the next tide. -/
def actTportDisable : Act := fun x q s =>
  withTport x q s fun p _ =>
    if x.ph = .commit then done (tportService p false s) else done (modTport p (fun y => { y with pendEn := some false }) s)

def cmdTportDisable : Cmd :=
  { op := 0x0404, staging := .may, need := fun _ => 1, objs := objWord0, refs := refWord0, adm := true, act := actTportDisable }

/-- TPORT.DISABLE (R82). -/
def execTportDisable (c : Call) (q : List Word) (s : State) : Host.Outcome State Fault Refusal :=
  .next (runCommand cmdTportDisable c q s)

/-! ### ODUs -/

/-- Slots of an ODU server and the ODU kinds it carries (Table 3-3); the depth of its clients below the ODU of the OTU. -/
structure OduServer where
  slots : Nat
  kinds : List Nat
  depth : Nat

/-- What a kind of ODU carries (Table 3-3). -/
def oduCarries (kind : Nat) : Option (Nat × List Nat) :=
  match kind with
  | 5 => some (80, [0, 1, 2, 3, 4, 6])
  | 4 => some (32, [0, 1, 2, 3, 6])
  | 2 => some (8, [0, 1, 6])
  | 1 => some (2, [0])
  | _ => none

/-- Multiplexing stages of an ODU below the ODU of its OTU. -/
def oduDepth (s : State) : Nat → Nat → Nat
  | 0, _ => 0
  | n + 1, h =>
    match tget s.tr.odus (hIdx h) with
    | some o =>
      if hType o.server = 0x40 then oduDepth s n o.server + 1
      else match tget s.tr.ports (hIdx o.server) with
        | some p => if p.mode = 0x30 ∧ o.kind = 5 then 0 else 1
        | none => 1
    | none => 0

/-- The server of a new ODU: an OTN port serves the tributary slots of its ODUCn, or those of its ODU4, or that ODU4
itself; an ODU without a termination serves its own (Table 3-3). -/
def oduServer (s : State) (h kind : Nat) : Option OduServer :=
  match hType h with
  | 0x32 =>
    match tget s.tr.ports (hIdx h) with
    | some p =>
      match tpMode p.mode with
      | some (_, _, n, _) =>
        if n = 0 then none
        else if p.mode = 0x30 then if kind = 5 then some ⟨80, [5], 0⟩ else some ⟨80, [0, 1, 2, 3, 4, 6], 1⟩
        else some ⟨20 * n, [0, 1, 2, 3, 4, 5, 6], 1⟩
      | none => none
    | none => none
  | _ =>
    match tget s.tr.odus (hIdx h) with
    | some o =>
      match oduCarries o.kind with
      | some (n, ks) => if o.term = 0 then some ⟨n, ks, oduDepth s 4 h + 1⟩ else none
      | none => none
    | none => none

/-- The kind that a row of Table 3-4 terminates. -/
def termKind (t : Nat) : Option Nat :=
  match t with
  | 1 => some 1 | 2 => some 2 | 3 => some 4 | 4 => some 3 | 5 => some 5 | 6 => some 6 | 7 => some 6 | _ => none

/-- Number of set bits among the low n. -/
def popCount (x n : Nat) : Nat := (List.range n).foldl (fun a i => a + b2n (bit x i)) 0

/-- The tributary slot bitmap of words 2 to 11. -/
def slotBits (q : List Word) : Nat := (List.range 10).foldl (fun a i => a + wd q (2 + i) * 2 ^ (32 * i)) 0

/-- The packet client index a new client takes: at a commit the one reserved beside its ODU's handle (R90, R454). -/
def newClient (x : Ctx) (s : State) : Option Nat :=
  match x.ph with
  | .commit => (((s.ecs.reserved.dropWhile fun e => e.1 != x.reserved).drop 1).head?).map fun e => hIdx e.1
  | _ => lowestFreeBut s.tr.clients (reservedIdx s 0x43) 256

/-- Packet client c comes to be, up, with counters that start at 0 (R90). -/
def clientPut (c odu : Nat) (s : State) : State :=
  parseReset (256 + c) { s with
    tr := { s.tr with clients := tset s.tr.clients c ⟨odu, true⟩ }
    ctr := s.ctr.filter fun e => e.1 / 1024 != 8 * 2 ^ 32 + c
    snap := s.snap.filter fun e => e.1 / 1024 != 8 * 2 ^ 32 + c }

/-- Own meaning of ODU.CREATE (R88 to R90, Table 3-14). -/
def actOduCreate : Act := fun x q s =>
  let h := wd q 0
  let kind := fld q 1 3 0
  let term := fld q 1 7 4
  let count := fld q 1 16 8
  let bm := slotBits q
  let isClient := decide (4 ≤ term)
  let termBad := term != 0 && termKind term != some kind
  if (hType h ≠ 0x32 ∧ hType h ≠ 0x40) ∨ !x.knows s h then fail stBadHandle s
  else if 6 < kind ∨ termBad ∨ count < 1 ∨ 320 < count ∨ popCount bm 320 ≠ count ∨ (term = 7 ∧ 80 < count) then
    fail stNotPermitted s
  else
    let srv := oduServer s h kind
    let bad := match srv with
      | none => objExists s h
      | some v => !v.kinds.contains kind || decide (2 < v.depth) || decide (2 ^ v.slots ≤ bm)
          || s.tr.odus.any fun e => e.2.server == h && Nat.land e.2.slots bm != 0
    if bad then fail stNotPermitted s
    else if x.ph ≠ .stage ∧ 256 < stmSum s + termStm term then fail stResourceShort s
    else
      match newIdx x 0x40 s.tr.odus 4096 s, newClient x s with
      | none, _ => fail stResourceShort s
      | some i, ci =>
        if isClient && (ci.isNone || !clientNodeFree (oduPort s 5 h) s) then fail stResourceShort s
        else
          let o : Odu := {
            server := h, kind := kind, term := term, slots := bm, tpn := fld q 12 8 0, expPt := fld q 13 7 0,
            client := if isClient then ci else none }
          let s1 := { s with tr := { s.tr with odus := tset s.tr.odus i o } }
          let s2 := match o.client with
            | some c => clientNodePut (oduPort s 5 h) c (clientRate o) (clientPut c i s1)
            | none => s1
          let s3 := clientsUpdate (spreadSsf 2 (handle 0x40 i) (putDefect (handle 0x40 i) 12 (downFail s h) s2))
          ⟨stOk, [toWord (handle 0x40 i), match o.client with | some c => toWord (c + 2 ^ 31) | none => 0#32], s3, handle 0x40 i⟩

def cmdOduCreate : Cmd :=
  { op := 0x0410, staging := .may, need := fun _ => 14, objs := objWord0, refs := refWord0, act := actOduCreate }

/-- ODU.CREATE (R88). -/
def execOduCreate (c : Call) (q : List Word) (s : State) : Host.Outcome State Fault Refusal :=
  .next (runCommand cmdOduCreate c q s)

/-- Own meaning of ODU.DELETE: refused with clients, circuits or a group; its packet client index is freed (R90). -/
def actOduDelete : Act := fun x q s =>
  let h := wd q 0
  match if hType h = 0x40 then tget s.tr.odus (hIdx h) else none with
  | none => if x.reservedHere s h && hType h == 0x40 then done s else fail stBadHandle s
  | some o =>
    if x.ph ≠ .stage ∧ (!(childrenOf s h).isEmpty ∨ inGroup s h ∨ boundCircuit s h) then fail stNotPermitted s
    else
      let cs := match o.client with | some c => terase s.tr.clients c | none => s.tr.clients
      let s := match o.client with | some c => clientNodeDrop c s | none => s
      done { s with tr := { s.tr with odus := terase s.tr.odus (hIdx h), clients := cs } }

def cmdOduDelete : Cmd :=
  { op := 0x0411, staging := .may, need := fun _ => 1, objs := objWord0, refs := refWord0, act := actOduDelete }

/-- ODU.DELETE (R90). -/
def execOduDelete (c : Call) (q : List Word) (s : State) : Host.Outcome State Fault Refusal :=
  .next (runCommand cmdOduDelete c q s)

/-! ### SDH paths -/

/-- STM-1 equivalents of an SDH server: an SDH port, or an ODU that terminates in the SDH engine. -/
def stmOf (s : State) (h : Nat) : Nat :=
  match hType h with
  | 0x32 => match tget s.tr.ports (hIdx h) with
    | some p => (match tpMode p.mode with | some (_, _, _, n) => n | none => 0)
    | none => 0
  | 0x40 => match tget s.tr.odus (hIdx h) with | some o => termStm o.term | none => 0
  | _ => 0

/-- The VC-4 or VC-3 that carries a VC-12: the path that the server handle names, or the one at the AU of an SDH
server, the VC-4 first (DEDUCED, notes/assumptions). -/
def vc12Server (s : State) (h au : Nat) : Option (Nat × Path) :=
  match hType h with
  | 0x41 => match tget s.tr.paths (hIdx h) with
    | some p => if p.kind ≤ 1 then some (h, p) else none
    | none => none
  | _ => (([0, 1].flatMap fun k => s.tr.paths.filter fun e => e.2.server == h && e.2.kind == k && e.2.au == au).head?).map
      fun e => (handle 0x41 e.1, e.2)

/-- Own meaning of SDH.PATH_CREATE (R92, Table 3-14). -/
def actSdhPathCreate : Act := fun x q s =>
  let h := wd q 0
  let kind := fld q 1 1 0
  let au := fld q 1 11 2
  let tu := fld q 1 16 12
  let tug := fld q 1 18 17
  let ty := hType h
  let mk (srv : Nat) : Res :=
    match newIdx x 0x41 s.tr.paths (2 ^ 24) s with
    | none => fail stNotPermitted s
    | some i =>
      let s1 := { s with tr := { s.tr with paths := tset s.tr.paths i { server := srv, kind := kind, au := au, tu12 := tu, tug3 := tug, label := fld q 2 7 0 } } }
      created (handle 0x41 i) (putDefect (handle 0x41 i) 12 (downFail s (failFrom s srv)) s1)
  if (ty ≠ 0x32 ∧ ty ≠ 0x40 ∧ ty ≠ 0x41) ∨ !x.knows s h then fail stBadHandle s
  else if kind = 3 then fail stNotPermitted s
  else if kind = 2 then
    if 20 < tu ∨ 2 < tug then fail stNotPermitted s
    else match vc12Server s h au with
      | none => if x.ph = .stage then mk h else fail stNotPermitted s
      | some (ph, p) =>
        if (p.kind = 1 ∧ tug ≠ 0)
            ∨ s.tr.paths.any (fun e => e.2.server == ph && e.2.kind == 2 && e.2.tu12 == tu && e.2.tug3 == tug) then
          fail stNotPermitted s
        else mk ph
  else
    let n := stmOf s h
    let ovf := if kind = 0 then decide (n ≤ au) else decide (3 * n ≤ au)
    let clash := s.tr.paths.any fun e => e.2.server == h &&
      (if kind = 0 then (e.2.kind == 0 && e.2.au == au) || (e.2.kind == 1 && e.2.au / 3 == au)
       else (e.2.kind == 1 && e.2.au == au) || (e.2.kind == 0 && e.2.au == au / 3))
    if ty = 0x41 ∨ (objExists s h ∧ ovf) ∨ clash then fail stNotPermitted s else mk h

def cmdSdhPathCreate : Cmd :=
  { op := 0x0418, staging := .may, need := fun _ => 3, objs := objWord0, refs := refWord0, act := actSdhPathCreate }

/-- SDH.PATH_CREATE (R92). -/
def execSdhPathCreate (c : Call) (q : List Word) (s : State) : Host.Outcome State Fault Refusal :=
  .next (runCommand cmdSdhPathCreate c q s)

/-- Own meaning of SDH.PATH_DELETE: refused with VC-12s, a circuit or a group. -/
def actSdhPathDelete : Act := fun x q s =>
  let h := wd q 0
  match if hType h = 0x41 then tget s.tr.paths (hIdx h) else none with
  | none => if x.reservedHere s h && hType h == 0x41 then done s else fail stBadHandle s
  | some _ =>
    if x.ph ≠ .stage ∧ (!(childrenOf s h).isEmpty ∨ inGroup s h ∨ boundCircuit s h) then fail stNotPermitted s
    else done { s with tr := { s.tr with paths := terase s.tr.paths (hIdx h) } }

def cmdSdhPathDelete : Cmd :=
  { op := 0x0419, staging := .may, need := fun _ => 1, objs := objWord0, refs := refWord0, act := actSdhPathDelete }

/-- SDH.PATH_DELETE (R92). -/
def execSdhPathDelete (c : Call) (q : List Word) (s : State) : Host.Outcome State Fault Refusal :=
  .next (runCommand cmdSdhPathDelete c q s)

/-! ### Supervision commands -/

/-- Run f on the supervised object of request word 0. -/
def withMon (x : Ctx) (q : List Word) (s : State) (f : Nat → Mon → Res) : Res :=
  let h := wd q 0
  match if hType h = 0x44 then none else monOf s h with
  | some m => f h m
  | none => if x.reservedHere s h && [0x32, 0x40, 0x41].contains (hType h) then done s else fail stBadHandle s

/-- Whether a trace format and comparison mode fit an object (R95, Table 3-8). -/
def traceOk (s : State) (h fmt mode : Nat) : Bool :=
  if isSdhObj s h then
    let vc12 := match hType h with
      | 0x41 => (match tget s.tr.paths (hIdx h) with | some p => p.kind == 2 | none => false)
      | _ => false
    (fmt == 0 || (fmt == 1 && !vc12)) && (mode == 0 || mode == 4)
  else fmt == 2 && decide (mode ≤ 3)

/-- Own meaning of TRACE.SET (R95 to R97). The 15 characters of a 16-byte trace are bytes 1 to 15 of the request's 64, and
byte 0 is formed by the K12 (DESIGN CHOICE, notes/assumptions/98: the table gives the 64 bytes only). -/
def actTraceSet : Act := fun x q s =>
  let fmt := fld q 1 1 0
  let mode := fld q 1 4 2
  let persist := fld q 1 23 7
  withMon x q s fun h m =>
    if !traceOk s h fmt mode ∨ 80000 < persist then fail stNotPermitted s
    else
      let tx := wordBytes ((q.drop 2).take 16)
      let ex := wordBytes ((q.drop 18).take 16)
      let s1 := modMon h (fun m => { m with
        trFmt := fmt, trMode := mode, timEn := flag q 1 5, acc5 := flag q 1 6,
        persist := persist, txTrace := if fmt = 0 then trace16 (tx.drop 1) else tx, expTrace := ex }) s
      done (defectsChanged h (timJudge h (ex != m.expTrace) s1))

def cmdTraceSet : Cmd :=
  { op := 0x0420, staging := .may, need := fun _ => 34, objs := objWord0, refs := refWord0, act := actTraceSet }

/-- TRACE.SET (R97). -/
def execTraceSet (c : Call) (q : List Word) (s : State) : Host.Outcome State Fault Refusal :=
  .next (runCommand cmdTraceSet c q s)

/-- Own meaning of TRACE.GET (R96). -/
def actTraceGet : Act := fun x q s =>
  withMon x q s fun _ m =>
    reply (toWord (b2n (bit m.defects 6)) :: packWords ((m.accTrace ++ List.replicate 64 0#8).take 64)) s

def cmdTraceGet : Cmd := { op := 0x0421, reading := true, need := fun _ => 1, act := actTraceGet }

/-- TRACE.GET (R96). -/
def execTraceGet (c : Call) (q : List Word) (s : State) : Host.Outcome State Fault Refusal :=
  .next (runCommand cmdTraceGet c q s)

/-- Own meaning of MON.SET: the parameters of Table 3-7 that apply to the object (R94). -/
def actMonSet : Act := fun x q s =>
  let dt := fld q 1 6 0
  let dm := fld q 1 11 8
  let e := fld q 1 14 12
  let d := fld q 1 19 16
  withMon x q s fun h _ =>
    if isSdhObj s h then
      if e < 3 ∨ 5 < e ∨ d < 5 ∨ 9 < d then fail stNotPermitted s
      else done (defectsChanged h (modMon h (fun m => { m with exc := e, deg := d, excEn := flag q 1 20 }) s))
    else if dt < 1 ∨ 100 < dt ∨ dm < 2 ∨ 10 < dm then fail stNotPermitted s
    else done (modMon h (fun m => { m with degThr := dt, degM := dm }) s)

def cmdMonSet : Cmd :=
  { op := 0x0422, staging := .may, need := fun _ => 2, objs := objWord0, refs := refWord0, act := actMonSet }

/-- MON.SET (R94). -/
def execMonSet (c : Call) (q : List Word) (s : State) : Host.Outcome State Fault Refusal :=
  .next (runCommand cmdMonSet c q s)

/-- The received S1 of a demapped STM-N, 0 for every other object. -/
def sectS1 (s : State) (h : Nat) : Nat := match monOf s (failFrom s h) with
  | some m => if failFrom s h = h then 0 else m.rxLabel
  | none => 0

/-- Own meaning of DEFECT.STATUS: word 1 holds the received S1 or payload type; for an ODU that terminates in the SDH engine
the payload type in [7:0] and the S1 in [15:8] (DESIGN CHOICE, notes/assumptions/95). -/
def actDefectStatus : Act := fun x q s =>
  withMon x q s fun h m => reply [toWord m.defects, toWord (m.rxLabel + 256 * sectS1 s h)] s

def cmdDefectStatus : Cmd := { op := 0x0423, reading := true, need := fun _ => 1, act := actDefectStatus }

/-- DEFECT.STATUS (R93). -/
def execDefectStatus (c : Call) (q : List Word) (s : State) : Host.Outcome State Fault Refusal :=
  .next (runCommand cmdDefectStatus c q s)

/-- A performance record as its 8 words (Table 3-10). -/
def pmWords (r : PmRec) : List Word :=
  [toWord r.bip, toWord r.eb, toWord r.bei, toWord r.feb, toWord (r.pj + r.nj * 65536),
    toWord (r.flags + b2n r.unlocked * 2 ^ 24 + b2n r.incomplete * 2 ^ 25 + b2n r.saturated * 2 ^ 26)] ++ toWords r.first 2

/-- Own meaning of PM.READ (R99): the retained records from the wanted tide on, oldest first. -/
def actPmRead : Act := fun x q s =>
  let n := fld q 3 9 0
  withMon x q s fun _ m =>
    if n < 1 ∨ 112 < n then fail stNotPermitted s
    else
      let rs := (m.recs.filter fun r => decide (wd64 q 1 ≤ r.first)).take n
      if rs.isEmpty then fail stNotFound s else reply (toWord rs.length :: rs.flatMap pmWords) s

def cmdPmRead : Cmd := { op := 0x0430, reading := true, need := fun _ => 4, act := actPmRead }

/-- PM.READ (R99). -/
def execPmRead (c : Call) (q : List Word) (s : State) : Host.Outcome State Fault Refusal :=
  .next (runCommand cmdPmRead c q s)

/-! ### Protection groups -/

/-- The rate of an ODUflex in units of 1.25 Gb/s: its slots of 5G in an ODUCn, of 1.25G elsewhere (Table 3-3). -/
def flexRate (s : State) (o : Odu) : Nat :=
  let big := match if hType o.server = 0x32 then tget s.tr.ports (hIdx o.server) else none with
    | some x => x.mode != 0x30
    | none => false
  popCount o.slots 320 * if big then 4 else 1

/-- Whether the members of a group of types 1 to 4 have the right type and are equal (Table 3-11). -/
def membersEqual (s : State) (ty a b : Nat) : Bool :=
  match ty with
  | 1 => match tget s.tr.odus (hIdx a), tget s.tr.odus (hIdx b) with
    | some x, some y => x.kind == y.kind && (x.kind != 6 || flexRate s x == flexRate s y)
    | _, _ => false
  | 2 => match tget s.tr.ports (hIdx a), tget s.tr.ports (hIdx b) with
    | some x, some y => x.mode == y.mode && isSdhMode x.mode
    | _, _ => false
  | _ => match tget s.tr.paths (hIdx a), tget s.tr.paths (hIdx b) with
    | some x, some y => x.kind == y.kind
    | _, _ => false

/-- The handle type of the members of a group type (Table 3-11). -/
def memberType (ty : Nat) : Nat := match ty with | 1 => 0x40 | 2 => 0x32 | _ => 0x41

/-- Own meaning of PROT.CREATE (R102, Table 3-13). -/
def actProtCreate : Act := fun x q s =>
  let ty := fld q 0 3 0
  let w := wd q 1
  let p := wd q 2
  let tw := wd q 3
  let tp := wd q 4
  let hold := fld q 5 16 0
  let wtr := fld q 6 22 0
  let isNh (h : Nat) : Bool := hType h == 0x60 || hType h == 0x61
  let isTrig (h : Nat) : Bool := hType h == 0x30 || hType h == 0x40
  if ty < 1 ∨ 5 < ty ∨ (flag q 0 4 ∧ ty ≠ 2) ∨ (ty ≠ 5 ∧ (tw ≠ 0 ∨ tp ≠ 0)) ∨ 80000 < hold ∨ 5760000 < wtr
      ∨ (ty = 5 ∧ (!isNh w ∨ !isNh p)) then fail stNotPermitted s
  else if !x.knows s w ∨ !x.knows s p ∨ (ty ≠ 5 ∧ (hType w ≠ memberType ty ∨ hType p ≠ memberType ty))
      ∨ (ty = 5 ∧ (!isTrig tw ∨ !isTrig tp ∨ !x.knows s tw ∨ !x.knows s tp)) then fail stBadHandle s
  else if w = p ∨ (x.ph ≠ .stage ∧ (inGroup s w ∨ inGroup s p))
      ∨ (ty ≠ 5 ∧ objExists s w ∧ objExists s p ∧ !membersEqual s ty w p) then fail stNotPermitted s
  else match newIdx x 0x42 s.tr.groups 4096 s with
    | none => fail stResourceShort s
    | some i =>
      let g : Prot := {
        ty := ty, bidir := flag q 0 4, revert := flag q 0 5, sdTrig := flag q 0 6, worker := w, protect := p,
        trigW := tw, trigP := tp, holdOff := hold, wtr := wtr }
      let s1 := { s with tr := { s.tr with groups := tset s.tr.groups i g } }
      created (handle 0x42 i) (if s.twin.st ≤ 1 then protStep i s1 else s1)

def cmdProtCreate : Cmd :=
  { op := 0x0440, staging := .may, need := fun _ => 7, refs := fun q => [wd q 1, wd q 2, wd q 3, wd q 4], act := actProtCreate }

/-- PROT.CREATE (R102). -/
def execProtCreate (c : Call) (q : List Word) (s : State) : Host.Outcome State Fault Refusal :=
  .next (runCommand cmdProtCreate c q s)

/-- Run f on the protection group of request word 0. -/
def withProt (x : Ctx) (q : List Word) (s : State) (f : Nat → Prot → Res) : Res :=
  let h := wd q 0
  match if hType h = 0x42 then tget s.tr.groups (hIdx h) else none with
  | some g => f (hIdx h) g
  | none => if x.reservedHere s h && hType h == 0x42 then done s else fail stBadHandle s

/-- Own meaning of PROT.DELETE: the worker is selected, then the group removed (R107). -/
def actProtDelete : Act := fun x q s =>
  withProt x q s fun i g =>
    let s1 := putProt i g { g with side := false } s
    done { s1 with tr := { s1.tr with groups := terase s1.tr.groups i } }

def cmdProtDelete : Cmd :=
  { op := 0x0441, staging := .may, need := fun _ => 1, objs := objWord0, refs := refWord0, act := actProtDelete }

/-- PROT.DELETE (R107). -/
def execProtDelete (c : Call) (q : List Word) (s : State) : Host.Outcome State Fault Refusal :=
  .next (runCommand cmdProtDelete c q s)

/-- The rank of a PROT.REQUEST code (Table 3-12). -/
def requestRank (c : Nat) : Nat := match c with | 1 => 1 | 2 => 3 | 3 => 6 | 4 => 6 | _ => 8

/-- Own meaning of PROT.REQUEST (R103): a request below the highest standing one is refused; CLEAR removes LO, FS,
MS and EXER and ends WTR. -/
def actProtRequest : Act := fun x q s =>
  let c := fld q 1 2 0
  withProt x q s fun i g =>
    if 5 < c ∨ (c = 5 ∧ !(g.ty == 2 && g.bidir)) then fail stNotPermitted s
    else if c = 0 then
      done (putProt i g (protSelect s.tm.bounds false { g with lo := false, fs := false, ms := 0, exer := false, wtrAt := none }) s)
    else if (topRequest g).1 < requestRank c then fail stNotPermitted s
    else
      let g' := match c with
        | 1 => { g with lo := true }
        | 2 => { g with fs := true }
        | 3 => { g with ms := 1 }
        | 4 => { g with ms := 2 }
        | _ => { g with exer := true }
      done (putProt i g (protSelect s.tm.bounds (workerBad g) g') s)

def cmdProtRequest : Cmd := { op := 0x0442, need := fun _ => 2, objs := objWord0, act := actProtRequest }

/-- PROT.REQUEST (R103). -/
def execProtRequest (c : Call) (q : List Word) (s : State) : Host.Outcome State Fault Refusal :=
  .next (runCommand cmdProtRequest c q s)

/-- Own meaning of PROT.STATUS. -/
def actProtStatus : Act := fun x q s =>
  withProt x q s fun _ g =>
    reply [toWord (b2n g.side + 2 * g.rank + 32 * b2n (g.fop != 0)),
      toWord (match g.wtrAt with | some e => e - s.tm.bounds | none => 0), toWord (g.rxK1 + 256 * g.rxK2)] s

def cmdProtStatus : Cmd := { op := 0x0443, reading := true, need := fun _ => 1, act := actProtStatus }

/-- PROT.STATUS (R103). -/
def execProtStatus (c : Call) (q : List Word) (s : State) : Host.Outcome State Fault Refusal :=
  .next (runCommand cmdProtStatus c q s)

/-! ### Events -/

/-- Where the lanes of a transport port find their framing (R85). -/
def takeLanes (h : Nat) (lanes : List (Option Nat)) (s : State) : State :=
  if hType h = 0x32 then modTport (hIdx h) (fun x => if x.mode = 0x22 then { x with lanesAt := lanes.take 4 } else x) s else s

/-- A defect's persistence has elapsed on an object: its accepted label and its lanes are as received, and the defect, where it
applies to the object and its framing bears it out, is declared or clears (R85, R93, R98). -/
def defectRow (h b : Nat) (rx : DefectNote) (on : Bool) (s : State) : State :=
  let s := takeLabel h rx.label s
  let s := if b = 1 then takeLanes h rx.lanes s else s
  let s := if defectApplies s h b && framingFits s h b on rx.lanes then putDefect h b on s else s
  defectsChanged h s

/-- DEFECT_SET: a defect's declaration persistence has elapsed on an object; `rx` is the received S1, payload type or
signal label as now accepted and, for LOF of mode 0x22, where each lane finds its framing (R85, R93, R98). A fenced
domain 36 takes nothing (R22). -/
def execDefectSet (t h b : Nat) (rx : DefectNote) (s : State) : Host.Outcome State Fault Refusal :=
  let s := s.atTime t
  .next (if fenced s 36 then s else defectRow h b rx true s)

/-- DEFECT_CLEAR: a defect's clearing persistence has elapsed on an object (R93, R98). -/
def execDefectClear (t h b : Nat) (rx : DefectNote) (s : State) : Host.Outcome State Fault Refusal :=
  let s := s.atTime t
  .next (if fenced s 36 then s else defectRow h b rx false s)

/-- TRACE_ACCEPTED: a trace received identically in consecutive periods becomes the accepted one where they reach A and
its CRC-7 holds; one that differs from the previous raises TRACE_ACCEPTED (R96, R97). -/
def execTraceAccepted (t h : Nat) (trace : TraceRun) (s : State) : Host.Outcome State Fault Refusal :=
  let s := s.atTime t
  match if fenced s 36 then none else monOf s h with
  | none => .next s
  | some m =>
    if trace.periods < (if m.acc5 then 5 else 3) ∨ !traceSound s h m trace.bytes then .next s else
    let s1 := modMon h (fun m => { m with accTrace := trace.bytes }) s
    let s2 := if m.accTrace = trace.bytes then s1
      else raise 4 3 monUnit (leBytes (objHandle h) 4 ++ (trace.bytes ++ List.replicate 16 0#8).take 16) s1
    .next (timJudge h false s2)

/-- TIM_PERSISTENCE_EXPIRY: an accepted trace has differed for the persistence; TIM is declared (R96). -/
def execTimPersistenceExpiry (t h : Nat) (s : State) : Host.Outcome State Fault Refusal :=
  let s := s.atTime t
  .next (if fenced s 36 then s else timJudge h false s)

/-- HOLDOFF_EXPIRY: hold-off timers of a group that are due expire at the boundary (R104). -/
def execHoldoffExpiry (t group : Nat) (s : State) : Host.Outcome State Fault Refusal :=
  let s := s.atTime t
  match if fenced s 36 then none else tget s.tr.groups group with
  | none => .next s
  | some g =>
    let g' := protHoldExpire s.tm.bounds (protRaw s g) g
    .next (if s.twin.st ≤ 1 then putProt group g (protSelect s.tm.bounds (workerBad g) g') s else s)

/-- WTR_EXPIRY: wait-to-restore ends and a revertive group reverts (R104). -/
def execWtrExpiry (t group : Nat) (s : State) : Host.Outcome State Fault Refusal :=
  let s := s.atTime t
  match if fenced s 36 then none else tget s.tr.groups group with
  | none => .next s
  | some g =>
    match g.wtrAt with
    | some e => .next (if e ≤ s.tm.bounds ∧ s.twin.st ≤ 1
        then putProt group g (protSelect s.tm.bounds false { g with wtrAt := none }) s else s)
    | none => .next s

/-- Whether a K1 request code is valid (G.841, PRESUMED: the codes it leaves unused are invalid). -/
def k1Valid (k1 : Nat) : Bool := !([0x9, 0x7, 0x5, 0x3] : List Nat).contains (k1 / 16) && decide (k1 % 16 ≤ 1)

/-- Set the APS_FOP cause of a group, raising APS_FOP or APS_FOP_CLEAR at a change (R106). -/
def setFop (i cause : Nat) (s : State) : State :=
  match tget s.tr.groups i with
  | none => s
  | some g =>
    if g.fop = cause then s
    else
      let s1 := { s with tr := { s.tr with groups := tset s.tr.groups i { g with fop := cause } } }
      if cause = 0 then raise 4 0x12 mpcUnit (pay [(handle 0x42 i, 4)]) s1
      else raise 4 0x11 mpcUnit (pay [(handle 0x42 i, 4), (cause, 1)]) s1

/-- APS_K_BYTES_ACCEPTED: a K1/K2 value received in 3 identical frames is accepted and Enenhild answers (R106). -/
def execApsKBytesAccepted (t group k1 k2 : Nat) (s : State) : Host.Outcome State Fault Refusal :=
  let s := s.atTime t
  match if fenced s 36 then none else tget s.tr.groups group with
  | none => .next s
  | some g =>
    if !g.bidir then .next s
    else
      let s1 := { s with tr := { s.tr with groups := tset s.tr.groups group { g with rxK1 := k1 % 256, rxK2 := k2 % 256 } } }
      let cause := if bit k2 3 || k2 % 8 == 4 then 1 else if !k1Valid (k1 % 256) then 3
        else if g.fop = 2 ∧ k2 / 16 % 16 ≠ b2n g.side then 2 else 0
      let s2 := setFop group cause s1
      match tget s2.tr.groups group with
      | some g2 => .next (if s.twin.st ≤ 1 then putProt group g2 (protSelect s.tm.bounds (workerBad g2) g2) s2 else s2)
      | none => .next s2

/-- APS_BRIDGE_TIMEOUT: the far-end bridge has not agreed with the local request for 50 ms; the group goes on as
unidirectional (R106). -/
def execApsBridgeTimeout (t group : Nat) (s : State) : Host.Outcome State Fault Refusal :=
  let s := s.atTime t
  match tget s.tr.groups group with
  | some g =>
    let due := match g.bridgeAt with | some e => decide (e ≤ s.tm.bounds) | none => false
    if !due || fenced s 36 || g.fop != 0 then .next s
    else .next (if s.twin.st ≤ 1 then protStep group (setFop group 2 s) else setFop group 2 s)
  | none => .next s

end Sys2Proof.Machine
end

