-- ==== Sys2Proof/Machine/PowerOps.lean ====
section
/-! DEFINITION. Operations of the power domains and the governor (spec/18_power_governor.md). -/

namespace Sys2Proof.Machine

open Sys2Proof

/-! ### Domains (R484, Table 18-2) -/

/-- Line and fabric octets, and the hawser: SerDes domains. -/
def isLink (d : Nat) : Bool := (decide (24 ≤ d) && decide (d ≤ 31)) || (decide (67 ≤ d) && decide (d ≤ 78))

/-- States that Table 18-2 allows a domain beside OFF, shallowest first, with their exit times in ns. -/
def domStates (d : Nat) : List (Nat × Nat) :=
  if isLink d then [(0, 0), (3, 5000)]
  else if d = 79 then [(0, 0)]
  else if d == 37 || d == 38 || d == 39 || d == 60 || (decide (63 ≤ d) && decide (d ≤ 66)) then [(0, 0), (1, 200)]
  else [(0, 0), (1, 200), (2, 10000)]

/-- ON full load, ON no load, IDLE, and RETAIN or QUIET power of a domain, mW (Table 18-2). -/
def domPower (d : Nat) : Nat × Nat × Nat × Nat :=
  if d ≤ 15 then (5500, 1600, 1000, 300) else if d ≤ 19 then (9600, 800, 500, 200)
  else if d ≤ 23 then (5000, 1800, 1100, 600) else if d ≤ 31 then (7500, 7500, 0, 1500)
  else if d ≤ 35 then (6000, 1500, 900, 300) else if d = 36 then (8000, 2000, 1200, 400)
  else if d ≤ 38 then (9000, 3500, 2100, 0) else if d = 39 then (4000, 1000, 600, 0)
  else if d ≤ 55 then (2500, 700, 400, 150) else if d ≤ 59 then (3000, 800, 500, 200)
  else if d = 60 then (3000, 1000, 600, 0) else if d ≤ 62 then (5000, 2000, 1200, 800)
  else if d ≤ 66 then (12000, 3500, 2100, 0) else if d ≤ 78 then (5800, 5800, 0, 1200) else (6000, 6000, 0, 0)

/-- Where the time spent in a state counts: ON, IDLE, RETAIN or QUIET, OFF; none for the rest (R497). -/
def spentIndex (st : Nat) : Option Nat :=
  if st ≤ 2 then some st else if st = 3 then some 2 else if st = 4 then some 3 else none

/-- The time in the present state is added to the tide's account. -/
def Domain.settle (x : Domain) (now : Nat) : Domain :=
  match spentIndex x.st with
  | some i => { x with spent := lmod x.spent i (· + (now - x.since)), since := now }
  | none => { x with since := now }

/-- A domain changes state. -/
def setDom (d st : Nat) (s : State) : State :=
  let x := domOf s d
  if x.st = st then modDom d (fun x => { x with wake := 0 }) s
  else
    let s := modDom d (fun x => { x.settle (elapsed s) with st := st, wake := 0 }) s
    if st = 4 then raise 0x10 1 govUnit (pay [(d, 1), (1, 1)]) s
    else if x.st = 4 then raise 0x10 1 govUnit (pay [(d, 1), (0, 1)]) s
    else s

/-! ### Tolerances (R488, R489) -/

/-- Power settings of port p. -/
def Tols.port (t : Tols) (p : Nat) : PowerPort := tgetD t.ports p {}

/-- T(p) (R488). -/
def Tols.tolOf (t : Tols) (p : Nat) : Nat :=
  (List.range 8).foldl (fun m c => if bit (t.port p).mask c then min m (t.cls.getD c 0) else m) (t.port p).tol

/-- The ports that exist, with whether each is enabled and not powered off. -/
def portList (s : State) : List (Nat × Bool) :=
  (s.line.ports.map fun e => (e.1, e.2.inService && !e.2.poweredOff)) ++ s.tr.ports.map fun e => (e.1, e.2.enabled && !e.2.poweredOff)

/-- Whether a domain serves port p (Table 18-2). -/
def serves (s : State) (d p : Nat) : Bool :=
  if d ≤ 15 then p / 8 == d / 2
  else if 24 ≤ d ∧ d ≤ 31 then p / 8 == d - 24
  else if 32 ≤ d ∧ d ≤ 35 then p / 16 == d - 32
  else if d = 36 then thas s.tr.ports p
  else if 56 ≤ d ∧ d ≤ 59 then p / 16 == d - 56
  else d != 79

/-- Clusters of the egress path, and those that a takeover must find ready (R489). -/
def takeoverPath (d : Nat) : Bool :=
  decide (d ≤ 15) || (decide (24 ≤ d) && decide (d ≤ 35)) || d == 39 || (decide (40 ≤ d) && decide (d ≤ 59)) || d == 61 || d == 62
    || (decide (67 ≤ d) && decide (d ≤ 78))

/-- T(d) under given tolerances (R489), with the ports that `more` enables. -/
def tolDom (t : Tols) (s : State) (d : Nat) (more : List Nat := []) : Nat :=
  let m := (portList s).foldl (fun m e =>
    if (e.2 || more.contains e.1) && serves s d e.1 then min m (t.tolOf e.1) else m) 1000000000
  if 2 ≤ s.twin.st ∧ takeoverPath d then min m (max t.tk 2000) else m

/-! ### Work (R487) -/

/-- Whether a line octet's domain is OFF by the configuration. -/
def octetOff (s : State) (k : Nat) : Bool := bit s.pow.offOct k || !(portList s).any fun e => e.1 / 8 == k

/-- Whether a PF1 transmit ring that is enabled injects into octet k's pipeline b (R135, R487). -/
def injects (s : State) (p : Nat) : Bool :=
  (s.host.tx.zipIdx).any fun (r, n) => r.enable && 2 * (n % 8) + n % 2 == p

/-- A domain has no configured work (R487). -/
def noWork (s : State) (d : Nat) : Bool :=
  if d ≤ 15 then octetOff s (d / 2) && !injects s d
  else if d ≤ 19 then !quadHeld (d - 16)
  else if d ≤ 23 then false
  else if d ≤ 31 then !(portList s).any fun e => e.1 / 8 == d - 24
  else if d ≤ 35 then !s.line.ports.any fun e => e.1 / 16 == d - 32 && !e.2.poweredOff
  else if d = 36 then s.tr.ports.isEmpty && s.circuits.isEmpty
  else if 56 ≤ d ∧ d ≤ 59 then !(portList s).any fun e => e.1 / 16 == d - 56
  else if 67 ≤ d ∧ d ≤ 78 then !bit s.fab.octets (d - 67)
  else if d = 79 then !s.id.twinEn
  else false
where
  /-- A segment of Sage quad i lies in a group. -/
  quadHeld (i : Nat) : Bool :=
    s.tab.groups.any fun e => decide (e.2.first < 4 * i + 4) && decide (4 * i < e.2.first + e.2.count)

/-- The deepest state beside OFF whose exit time a tolerance allows (R490). -/
def floorFor (d tol : Nat) : Nat := (domStates d).foldl (fun f e => if e.2 ≤ tol then e.1 else f) 0

/-! ### The governor at a tide boundary (R490 to R492) -/

/-- POWER.TOL_SET as a change of tolerances. -/
def tolIn (q : List Word) (t : Tols) : Tols := { t with cls := (List.range 8).map fun i => wd q i, tk := wd q 8 }

/-- The port settings of POWER.PORT_SET. -/
def powerPortIn (q : List Word) : PowerPort :=
  { tol := wd q 1, mask := fld q 2 7 0, off := flag q 2 8, delay := fld q 3 26 0 }

/-- The tolerances in force from tide N + 1, with the commits named for it (R491). -/
def tolsNext (s : State) : Tols :=
  (txns s).foldl (fun t e =>
    if e.2.phase = 2 ∧ e.2.c = s.tm.tide + 1 then
      e.2.ops.foldl (fun t o =>
        if o.op = 0x1001 then tolIn o.q t
        else if o.op = 0x1002 then { t with ports := tset t.ports (hIdx (wd o.q 0)) (powerPortIn o.q) }
        else t) t
    else t) s.pow.tol

/-- The ports that the commits named for tide N + 1 enable (R491). -/
def portsNext (s : State) : List Nat :=
  (txns s).flatMap fun e =>
    if e.2.phase = 2 ∧ e.2.c = s.tm.tide + 1 then
      e.2.ops.filterMap fun o => if o.op = 0x0303 ∨ o.op = 0x0403 then some (hIdx (wd o.q 0)) else none
    else []

/-- Set the floor of one domain at a tide boundary (R490). -/
def governDom (next : Tols) (more : List Nat) (d : Nat) (s : State) : State :=
  let x := domOf s d
  if 4 < x.st then s
  else
    let f := if noWork s d then 4
      else if 24 ≤ d ∧ d ≤ 31 ∧ bit s.pow.offOct (d - 24) then 4
      else min (floorFor d (tolDom s.pow.tol s d)) (floorFor d (tolDom next s d more))
    let f := if 2 ≤ s.boot.swap ∧ x.floor < f then x.floor else f
    let s := if f = x.floor then s
      else powCount 127 0 1 (modDom d (fun x => { x with floor := f, floorTide := s.tm.tide }) s)
    if f = 4 then (if x.st = 4 then modDom d (fun x => { x with wake := 0 }) s else setDom d 4 s)
    else if x.st = 4 then wakeDom d s
    else if f < x.st then setDom d f s
    else s

/-- GOVERNOR_FLOORS: the floors of every domain, frozen while the MPC recovers (R490, R524). -/
def governorFloors (s : State) : State :=
  if s.flt.mpcFailed then s
  else
    let next := tolsNext s
    let more := portsNext s
    (List.range 80).foldl (fun s d => governDom next more d s) s

/-- TIDES counters of the tide that ends: the state held longest, the shallower one where a tide is split evenly (R497). -/
def tideStates (s : State) : State :=
  (List.range 80).foldl (fun s d =>
    let x := (domOf s d).settle (elapsed s)
    let best := (List.range 4).foldl (fun (b : Nat × Nat) i => if b.2 < x.spent.getD i 0 then (i, x.spent.getD i 0) else b) (0, 0)
    let s := modDom d (fun _ => { x with spent := [0, 0, 0, 0] }) s
    if best.2 = 0 then s else powCount d (1 + best.1) 1 s) s

/-! ### Concentration (R494) -/

/-- Slots of one pipeline in a tide (Table 5-1). -/
def tideSlots (s : State) : Nat := if s.fwd.slots = 1 then 112500 else if s.fwd.slots = 2 then 131250 else 150000

/-- Concentration of an octet (kind 0) or slice pair (kind 1) begins or ends. -/
def concentrate (kind i : Nat) (on : Bool) (s : State) : State :=
  let flip (x : Nat) : Nat := if on then (if bit x i then x else x + 2 ^ i) else if bit x i then x - 2 ^ i else x
  let s := { s with pow := if kind = 0 then { s.pow with octOn := flip s.pow.octOn } else { s.pow with pairOn := flip s.pow.pairOn } }
  raise 0x10 2 govUnit (pay [(i, 1), (kind, 1), (b2n on, 1)]) (powCount 127 (if on then 1 else 2) 1 (moveSlices s))

/-- CONCENTRATION at a boundary, from what the tide before measured (R494). -/
def concentrationBoundary (s : State) : State :=
  let m (k : Nat) : Nat := tgetD s.pow.tally k 0
  let cap := tideSlots s * 2 / 5
  let s := (List.range 8).foldl (fun s k =>
    let on := bit s.pow.octOn k
    let en := bit s.pow.octEn k
    if on && !en && !bit s.pow.unconc k then concentrate 0 k false s
    else if !on && en && decide (m (4 * k) ≤ cap) && decide (m (4 * k + 1) ≤ cap) && decide (m (4 * k + 2) ≤ 8192) then
      concentrate 0 k true s
    else s) s
  let s := (List.range 8).foldl (fun s j =>
    let on := bit s.pow.pairOn j
    let en := bit s.pow.pairEn j
    let e := m (64 + 2 * j)
    let d := m (65 + 2 * j)
    if on && (!en || decide (180000 < e) || decide (180000 < d)) then concentrate 1 j false s
    else if !on && en && decide (e ≤ 120000) && decide (d ≤ 120000) then concentrate 1 j true s
    else s) s
  let peaks := (List.range 8).foldl (fun t k => let f := octetFill s k; if f = 0 then t else tset t (4 * k + 2) f) ([] : Tab Nat)
  { s with pow := { s.pow with tally := peaks } }

/-! ### Ports permitted off (R495) -/

/-- Whether a frame is held in an egress queue of port p. -/
def framesHeld (s : State) (p : Nat) : Bool :=
  s.td.queues.any fun e => decide (s.td.v ≤ e.1) && !e.2.pkts.isEmpty && portOfNode s (handle 0xA0 e.1) == some p

/-- Whether a port is a member of a protection group or lies on the path of an admitted stream (R495). -/
def neverOff (s : State) (p : Nat) : Bool :=
  (s.tr.groups.any fun e => [e.2.worker, e.2.protect, e.2.trigW, e.2.trigP].any fun h => (hType h == 0x30 || hType h == 0x32) && hIdx h == p)
    || (s.det.streams.any fun e => e.2.cfg.port == p || e.2.cfg.members.any fun m => !m.remote && m.port == p)
    || s.det.recs.any fun e => e.2.port == p

/-- Ports of octet k of either kind, with whether each always has frames: a transport port in service has. -/
def octetPorts (s : State) (k : Nat) : List (Nat × Bool) :=
  ((s.line.ports.map fun e => (e.1, false)) ++ s.tr.ports.map fun e => (e.1, e.2.enabled)).filter fun e => e.1 / 8 == k

/-- Whether octet k may enter OFF now: every port of it permits OFF and has had no frame for its off delay. -/
def mayPowerOff (s : State) (k : Nat) : Bool :=
  let ps := octetPorts s k
  !ps.isEmpty && ps.all fun e =>
    let x := s.pow.tol.port e.1
    x.off && !e.2 && !neverOff s e.1 && decide (tgetD s.pow.frameTide e.1 0 + x.delay ≤ s.tm.tide) && !framesHeld s e.1

/-- PORT_POWER_OFF: every port of octet k is powered off and declared down; a transport port receives nothing, so LOS. -/
def powerOff (k : Nat) (s : State) : State :=
  let s := (s.line.ports.filter fun e => e.1 / 8 == k).foldl (fun s e =>
    let p := e.1
    let s := modPort p (fun x => { x with
      poweredOff := true, conds := allFailed x.fec, holdOn := false, cause := Nat.lor x.cause (allFailed x.fec) }) s
    let s := if e.2.up then declareLink p s else s
    raise 0x10 3 govUnit (pay [(handle 0x30 p, 4)]) (powCount 127 3 1 s)) s
  let s := (s.tr.ports.filter fun e => e.1 / 8 == k).foldl (fun s e =>
    let s := putDefect (handle 0x32 e.1) 0 true (modTport e.1 (fun x => { x with poweredOff := true }) s)
    raise 0x10 3 govUnit (pay [(handle 0x32 e.1, 4)]) (powCount 127 3 1 s)) s
  linkChanged { s with pow := { s.pow with offOct := s.pow.offOct + 2 ^ k } }

/-- PORT_POWER_ON: the ports of octet k train again. -/
def powerOn (k : Nat) (s : State) : State :=
  let s := (s.line.ports.filter fun e => e.1 / 8 == k && e.2.poweredOff).foldl (fun s e =>
    raise 0x10 4 govUnit (pay [(handle 0x30 e.1, 4)]) (powCount 127 4 1 (modPort e.1 (fun x => { x with poweredOff := false }) s))) s
  let s := (s.tr.ports.filter fun e => e.1 / 8 == k && e.2.poweredOff).foldl (fun s e =>
    raise 0x10 4 govUnit (pay [(handle 0x32 e.1, 4)]) (powCount 127 4 1 (modTport e.1 (fun x => { x with poweredOff := false }) s))) s
  { s with pow := { s.pow with offOct := s.pow.offOct - 2 ^ k } }

/-- Octets power off and on at a tide boundary (R495); nothing is lowered during a swap or while the MPC recovers (R474,
R524). -/
def portPowerBoundary (s : State) : State :=
  let s := (List.range 8).foldl (fun s k =>
    if bit s.pow.offOct k then
      let ps := octetPorts s k
      if bit s.pow.wakeOct k || ps.isEmpty || (ps.any fun e => !(s.pow.tol.port e.1).off || neverOff s e.1 || framesHeld s e.1) then
        powerOn k s
      else s
    else if mayPowerOff s k && decide (s.boot.swap < 2) && !s.flt.mpcFailed then powerOff k s
    else s) s
  { s with pow := { s.pow with wakeOct := 0 } }

/-! ### Waking a half of a path (R301, R493) -/

/-- The domains of one half of the path of port p (R301). -/
def halfPath (p : Nat) (egress : Bool) : List Nat :=
  let k := p / 8
  let common := [24 + k, 32 + p / 16, 2 * k, 2 * k + 1, 39]
  if egress then common ++ [56 + p / 16, 61, 62] ++ List.range' 40 16
  else common ++ List.range' 16 8

/-- Halves of the paths of admitted streams: the ingress half of a stream's port, the egress half of each local member's and of
each egress record's. -/
def streamHalves (s : State) : List (Nat × Bool) :=
  (s.det.streams.flatMap fun e => (e.2.cfg.port, false) ::
      e.2.cfg.members.filterMap fun m => if m.remote then none else some (m.port, true))
    ++ s.det.recs.map fun e => (e.2.port, true)

/-- The domains that a wake of domain d wakes with it, beside those of the half that its traffic names (R301, R493). -/
def wokenWith (s : State) (d : Nat) : List Nat :=
  if (domOf s d).st = 0 ∨ 3 < (domOf s d).st then []
  else (streamHalves s).flatMap fun e => let h := halfPath e.1 e.2; if h.contains d then h else []

/-- The entry delay of a state, 2^-16 ns (R492). -/
def entryDelay (st : Nat) : Nat := if st = 1 then 256 * nsU else if st = 2 then usU 20 else usU 10

end Sys2Proof.Machine
end

