-- ==== Sys2Proof/Machine/BootOps.lean ====
section
/-! DEFINITION. Operations of start-up, reset and the flash directory (spec/17_startup_upgrade.md, R31, R532). -/

namespace Sys2Proof.Machine

open Sys2Proof

/-! ### The directory (R465, Table 17-2) -/

/-- The current directory as its 8 words. -/
def dirWords (f : FlashSt) : List Word :=
  let a := f.slots.getD 0 {}
  let b := f.slots.getD 1 {}
  let w := [toWord 0xD1EC0B12, toWord f.seq, toWord (f.pref + 2 * a.st + 16 * b.st + 128 * f.oneShot), toWord a.version,
    toWord b.version, toWord (a.sec % 256 + 256 * (b.sec % 256)), 0#32]
  w ++ [toWord (crc32c (wordBytes w))]

/-- Write the directory: the other copy takes the new record with the sequence number increased by 1. -/
def dirWrite (f : FlashSt → FlashSt) (s : State) : State :=
  let old := dirWords s.flash
  let n := f s.flash
  { s with flash := { n with seq := s.flash.seq + 1, copy1 := !s.flash.copy1, other := some old } }

def slotAt (s : State) (i : Nat) : ImageSlot := s.flash.slots.getD i {}

/-- Write the directory with a slot in a new state. -/
def slotState (i st : Nat) (s : State) : State := dirWrite (fun f => { f with slots := lmod f.slots i fun x => { x with st := st } }) s

/-- UPGRADE_FAILED (Table 17-8). -/
def upgradeFailed (slot cause : Nat) (s : State) : State := raise 0x14 3 mpcUnit (pay [(slot, 1), (cause, 1)]) s

/-- REVERTED (Table 17-8). -/
def reverted (slot cause : Nat) (s : State) : State := raise 0x14 4 (aonUnit 0) (pay [(slot, 1), (cause, 1)]) s

/-- FIRMWARE_READY: FW_STATE becomes 1 with the image of a slot running (R463). -/
def firmwareReady (slot : Nat) (s : State) : State :=
  let x := slotAt s slot
  let s := { s with id := { s.id with fwState := 1, image := slot, fwVersion := x.version } }
  raise 1 1 mpcUnit (pay [(x.version, 4), (slot, 1)]) s

/-! ### Reset (R31, R532, R536) -/

/-- The state that PORST_N leaves: what AON retains, the flash and fuses, the levels that the board drives, and what has
left the K12 stay as they are. -/
def porst (s : State) : State :=
  let r : State := {}
  { r with
    id := { lifecycle := s.id.lifecycle }
    aon := s.aon
    flash := s.flash
    hbm := { record := s.hbm.record }
    twin := { killIn := s.twin.killIn }
    board := { rails := s.board.rails, perst := s.board.perst, clkLost := s.board.clkLost }
    host := { mem := s.host.mem }
    wire := s.wire
    fresh := s.fresh
    pending := s.pending }

/-- Whether the image of slot i verifies: its bytes do, as the pilot has found, its key slot is not revoked, and its security
version is at least the fused minimum (R466). -/
def verifies (i : Nat) (s : State) : Bool :=
  let x := slotAt s i
  s.boot.verified.getD i false && decide (s.flash.minSec ≤ x.sec) && !bit s.flash.revoked x.key

/-- The pilot tries the slots of its order: the first that is bootable and verifies is started, the others are marked BAD;
with none left the package enters the safe state (R469). -/
def bootNext : List Nat → State → State
  | [], s => enterSafe 6 { s with boot := { s.boot with order := [], slot := none } }
  | i :: r, s =>
    let st := (slotAt s i).st
    if (st = 2 ∨ st = 3 ∨ st = 4) ∧ verifies i s then
      { s with boot := { s.boot with order := r, slot := some i, start := elapsed s } }
    else bootNext r (upgradeFailed i 1 (slotState i 5 s))

/-- boot() of R469. -/
def bootStart (verified : List Bool) (s : State) : State :=
  let one := s.flash.oneShot
  let s := { s with boot := { s.boot with verified := verified } }
  let order := if one = 0 then [] else [one - 1]
  let s := if one = 0 then s else dirWrite (fun f => { f with oneShot := 0 }) s
  let order := if order.contains s.flash.pref then order else order ++ [s.flash.pref]
  let other := 1 - s.flash.pref
  let order := if (slotAt s other).st = 4 ∧ !order.contains other then order ++ [other] else order
  bootNext order s

/-- SURVEY ends: the device is COMMISSIONED again (R499, R500). -/
def surveyEnd (s : State) : State :=
  if s.id.lifecycle = 2 then
    raise 0x11 4 (aonUnit 0) (pay [(2, 1), (1, 1)]) { s with id := { s.id with lifecycle := 1 } }
  else s

/-- Reset and start again, as PORST_N and its release do (R536, R507, R479). -/
def packageReset (devid : Nat) (twinEn : Bool) (verified : List Bool) (s : State) : State :=
  let s := porst s
  let s := { s with id := { s.id with devid := devid, twinEn := twinEn }, boot := { s.boot with held := false } }
  bootStart verified (surveyEnd s)

/-! ### Firmware ready (R467, R471) -/

/-- Initialise a pool: every buffer free but the retired ones, those that were in use among them counted now, the ring in
ascending order, the partition refilled (R223, R238, R239). -/
def poolInit (p : Nat) (s : State) : State :=
  let pl := poolOf s p
  let n := (pl.retired.filter fun b => match tget pl.bufs b with | some x => x.used | none => false).length
  let s := poolCount p 25 n (modPool p (fun pl => { pl with
    bufs := [], cache := [], next := 0, ring := [], base := 0, part := [], surplus := 0, recent := [], recentAt := 0, refs := []
    held := [0, 0, 0, 0, 0, 0], lost := [], half := 0 }.balance) s)
  if p = 1 then (partGrow s.td.die.p s).2 else poolCheck p s

/-- The MPC lowers bridge isolation once both ends have retrained (R28). -/
def lowerIsolation (s : State) : State :=
  if s.flt.retrained = 3 then { s with flt := { s.flt with isolated := false } } else s

/-- The state at firmware ready after a start (R471): stores filled, LFSRs seeded, mailboxes free, clusters with work ON,
the bridge ends trained, isolation down and FAULT_N released; a paired unit is COLD. -/
def readyState (s : State) : State :=
  let s := poolInit 1 (poolInit 0 s)
  let s := { s with
    td := { s.td with lfsr := (List.range 16).map fun i => Config.lfsrSeed i % 65536 }
    host := { s.host with mbDone := (0xFFFFFFFF : Word) }
    ecs := { s.ecs with mbs := List.replicate 32 {} }
    twin := { s.twin with st := if s.id.twinEn then 4 else 0 }
    flt := { s.flt with faultN := false, retrained := 3 }
    boot := { s.boot with ready := true } }
  let s := lowerIsolation s
  (List.range 80).foldl (fun s d => if noWork s d then s else setDom d 0 (modDom d (fun x => { x with floor := 0 }) s)) s

end Sys2Proof.Machine
end

