-- ==== Sys2Proof/Machine/Pipeline.lean ====
section
/-! DEFINITION. Commands of area 0x06 (spec/05_forwarding_pipeline.md). -/

namespace Sys2Proof.Machine

open Sys2Proof

/-- Discard every open transaction with a cause, raising TXN_DISCARDED (R459). -/
def discardTxns (cause : Nat) (s : State) : State :=
  (txns s).foldl (fun s (h, x) =>
    if x.phase = 0 then
      raise 2 2 mpcUnit (pay [(h, 4), (cause, 1)])
        { putTxn (h % 8) none s with ecs := { (putTxn (h % 8) none s).ecs with
            reserved := s.ecs.reserved.filter fun r => r.2 != h } }
    else s) s

/-- Whether every line port is disabled for forwarding (R45). -/
def portsOff (s : State) : Bool :=
  (s.line.ports.all fun e => !e.2.inService) && s.tr.ports.all fun e => !e.2.enabled

/-- Own meaning of PROFILE.SET (R45, R46, R169, R459). -/
def actProfileSet : Act := fun _ q s =>
  let p := fld q 0 1 0
  if p = 3 ∨ !portsOff s ∨ !drained s ∨ (txns s).any (fun e => e.2.phase != 0) then fail stNotPermitted s
  else if p = s.fwd.profile then done s
  else if s.tab.dill.any (fun e => decide (bucketsMax p < e.2.base + 2 ^ e.2.k)) then fail stResourceShort s
  else
    let old := s.fwd.profile
    let s := modFwd (fun w => { w with profile := p }) (discardTables p (discardTxns 3 s))
    done (raise 6 1 mpcUnit (pay [(old, 1), (p, 1)]) (modLearn (fun l => { l with slots := [], queue := [] }) s))

def cmdProfileSet : Cmd := { op := 0x0601, need := fun _ => 1, objs := objOp 0x0601, adm := true, act := actProfileSet }

/-- PROFILE.SET (R45). -/
def execProfileSet (c : Call) (q : List Word) (s : State) : Host.Outcome State Fault Refusal :=
  .next (runCommand cmdProfileSet c q s)

/-- Own meaning of PROFILE.GET. -/
def actProfileGet : Act := fun _ _ s => reply [toWord s.fwd.profile] s

def cmdProfileGet : Cmd := { op := 0x0602, reading := true, act := actProfileGet }

/-- PROFILE.GET (R44). -/
def execProfileGet (c : Call) (q : List Word) (s : State) : Host.Outcome State Fault Refusal :=
  .next (runCommand cmdProfileGet c q s)

/-- Words of one parser entry of a kind: node, transition, extraction descriptor (Tables 5-2 to 5-4). -/
def parserWords (kind : Nat) : Nat := if kind = 0 then 3 else if kind = 1 then 2 else 1

/-- Entries of the tables of a parser program (R136). -/
def parserSize (kind : Nat) : Nat := if kind = 0 then 256 else if kind = 1 then 1024 else 2048

/-- Whether an entry's values are in the range that Tables 5-2 to 5-4 give (R137). -/
def parserEntryOk (kind : Nat) (w : List Word) : Bool :=
  if kind = 0 then
    decide (fld w 0 27 16 ≤ 2047) && decide (1 ≤ fld w 0 7 0) && decide (fld w 0 7 0 ≤ 254)
      && decide (fld w 1 20 16 ≤ 16) && decide (fld w 1 15 4 ≤ 2047) && decide (fld w 2 17 16 ≤ 2)
      && decide (fld w 2 3 0 ≤ 8)
  else if kind = 1 then true
  else decide (fld w 0 11 0 ≤ 2047)

/-- Words i to i + n − 1 of a request. -/
def wordsAt (q : List Word) (i n : Nat) : List Word := (List.range n).map fun j => toWord (wd q (i + j))

/-- Own meaning of PARSER.LOAD: written to the inactive bank of the transaction's commit (R137, R139). -/
def actParserLoad : Act := fun x q s =>
  let kind := fld q 0 1 0
  let first := fld q 0 12 2
  let n := fld q 0 22 13
  let k := parserWords kind
  let entry (j : Nat) : List Word := wordsAt q (1 + j * k) k
  if kind = 3 ∨ parserSize kind < first + n ∨ !(List.range n).all (fun j => parserEntryOk kind (entry j)) then
    fail stNotPermitted s
  else if x.ph = .stage then done s
  else
    let put (t : Tab (List Word)) : Tab (List Word) := (List.range n).foldl (fun t j => tset t (first + j) (entry j)) t
    done (setCfg true (fun c =>
      if kind = 0 then { c with nodes := put c.nodes }
      else if kind = 1 then { c with trans := put c.trans }
      else { c with extr := put c.extr }) s)

def cmdParserLoad : Cmd :=
  { op := 0x0603, staging := .must, need := fun q => 1 + fld q 0 22 13 * parserWords (fld q 0 1 0)
    objs := fun _ => [[0x0603]], act := actParserLoad }

/-- PARSER.LOAD (R139). -/
def execParserLoad (c : Call) (q : List Word) (s : State) : Host.Outcome State Fault Refusal :=
  .next (runCommand cmdParserLoad c q s)

/-- The parse source of a port or packet client handle: port p, or 256 + c (R585). -/
def parseSource (s : State) (h : Nat) : Option Nat :=
  match hType h with
  | 0x30 => if thas s.line.ports (hIdx h) then some (hIdx h) else none
  | 0x32 => if thas s.tr.ports (hIdx h) then some (hIdx h) else none
  | 0x40 => (s.tr.clients.find? fun e => e.2.odu == hIdx h).map fun e => 256 + e.1
  | _ => none

/-- Own meaning of PARSER.PORT_SET (R133, R138, R585). -/
def actParserPortSet : Act := fun x q s =>
  if x.ph = .stage ∧ x.reservedHere s (wd q 0) then (if fld q 1 9 8 = 3 then fail stNotPermitted s else done s)
  else match parseSource s (wd q 0) with
  | none => fail stBadHandle s
  | some k =>
    if fld q 1 9 8 = 3 then fail stNotPermitted s
    else if x.ph = .stage then done s
    else
      let p : ParsePort :=
        { start := fld q 1 7 0, exc := fld q 1 9 8, prio := fld q 1 12 10, pre := flag q 1 13, map := wd q 2 }
      done (modFwd (fun w => { w with parse := tset w.parse k p }) s)

def cmdParserPortSet : Cmd :=
  { op := 0x0604, staging := .may, need := fun _ => 3, objs := fun q => [[wd q 0]], refs := fun q => [wd q 0], act := actParserPortSet }

/-- PARSER.PORT_SET (R585). -/
def execParserPortSet (c : Call) (q : List Word) (s : State) : Host.Outcome State Fault Refusal :=
  .next (runCommand cmdParserPortSet c q s)

/-- Own meaning of IF.SET (R140, Table 5-7). -/
def actIfSet : Act := fun x q s =>
  if hType (wd q 0) ≠ 0x64 ∨ 262400 ≤ hIdx (wd q 0) then fail stBadHandle s
  else if x.ph = .stage then done s
  else
    let r : IfRec := { valid := flag q 1 20, cls := fld q 1 19 16, vrf := fld q 1 15 0, dom := fld q 2 19 0 }
    done (setCfg (x.ph == .commit) (fun c => { c with ifs := tset c.ifs (hIdx (wd q 0)) r }) s)

def cmdIfSet : Cmd :=
  { op := 0x0605, staging := .may, need := fun _ => 3, objs := fun q => [[wd q 0]], act := actIfSet }

/-- IF.SET (R140). -/
def execIfSet (c : Call) (q : List Word) (s : State) : Host.Outcome State Fault Refusal :=
  .next (runCommand cmdIfSet c q s)

/-- Selector words of LKP.KEY_SET. -/
def selectorsOf (q : List Word) : List Nat := (List.range (fld q 1 4 0)).map fun i => fld q (2 + i) 14 0

/-- Whether a key profile of selectors is one that some engine can use: 1 to 16 selectors, each within its source and at
most 80 bytes in all (R142). -/
def keySetOk (sels : List Nat) : Bool :=
  decide (1 ≤ sels.length) && decide (sels.length ≤ 16)
    && (sels.all fun w => decide (bits w 7 0 + bits w 13 8 + 1 ≤ if bit w 14 then 32 else 256))
    && decide (sels.foldl (fun n w => n + bits w 13 8 + 1) 0 ≤ 80)

/-- Width of a Sage key by entry width code, bytes (R142). -/
def sageBytes (w : Nat) : Nat := 20 * 2 ^ w

/-- Whether a program keeps the rules of R142, R164, R179 and R185 for the key profiles it names. -/
def progOk (s : State) (c : FwdCfg) (p : Prog) : Bool :=
  (match p.sorrel with | some k => keyLen c k == 4 || keyLen c k == 16 | none => true)
    && (match p.dill1 with | some (_, k) => decide (keyLen c k ≤ 20) | none => true)
    && (match p.dill2 with | some (_, k) => decide (keyLen c k ≤ 20) | none => true)
    && (match p.sage with
      | some (k, g) => match tget s.tab.groups g with
        | some gr => decide (keyLen c k ≤ sageBytes gr.width)
            && decide (gr.width = 0 ∨ sageBytes (gr.width - 1) < keyLen c k)
        | none => false
      | none => true)
    && (match p.learn with | some k => decide (keyLen c k ≤ 9) | none => true)

/-- Whether a lookup program names key profile i. -/
def namesKey (p : Prog) (i : Nat) : Bool :=
  p.sorrel == some i || (p.dill1.map Prod.snd) == some i || (p.dill2.map Prod.snd) == some i
    || (p.sage.map Prod.fst) == some i || p.learn == some i

/-- Own meaning of LKP.KEY_SET: refused also where a program that names it would break R142 or R164. -/
def actLkpKeySet : Act := fun x q s =>
  let i := hIdx (wd q 0)
  let sels := selectorsOf q
  if hType (wd q 0) ≠ 0x66 ∨ 256 ≤ i then fail stBadHandle s
  else if !keySetOk sels then fail stNotPermitted s
  else if x.ph = .stage then done s
  else
    let c := { s.fwd.cfg with keys := tset s.fwd.cfg.keys i sels }
    if c.progs.any (fun e => namesKey e.2 i && !progOk s c e.2) then fail stNotPermitted s
    else done (setCfg (x.ph == .commit) (fun c => { c with keys := tset c.keys i sels }) s)

def cmdLkpKeySet : Cmd :=
  { op := 0x0606, staging := .may, need := fun q => 2 + fld q 1 4 0, objs := fun q => [[wd q 0]], act := actLkpKeySet }

/-- LKP.KEY_SET (R142). -/
def execLkpKeySet (c : Call) (q : List Word) (s : State) : Host.Outcome State Fault Refusal :=
  .next (runCommand cmdLkpKeySet c q s)

/-- The lookup program of LKP.PROGRAM_SET words 1 to 6: a Dill lookup is table [7:0], key profile [15:8], enable [16];
Sage is key profile [7:0], group [11:8], enable [16] (notes/assumptions: the spec gives no bits for these). -/
def progOf (q : List Word) (learn : Option Nat) : Prog :=
  { sorrel := if flag q 1 8 then some (fld q 1 7 0) else none
    dill1 := if flag q 2 16 then some (fld q 2 7 0, fld q 2 15 8) else none
    dill2 := if flag q 3 16 then some (fld q 3 7 0, fld q 3 15 8) else none
    onMiss := flag q 3 31
    sage := if flag q 4 16 then some (fld q 4 7 0, fld q 4 11 8) else none
    miss := wd q 5
    ctr := if flag q 6 26 then some (fld q 6 25 0) else none
    learn := learn }

/-- Whether a program names a Dill table or a segment group that does not exist. -/
def progUnknown (s : State) (p : Prog) : Bool :=
  (match p.dill1 with | some (t, _) => !thas s.tab.dill t | none => false)
    || (match p.dill2 with | some (t, _) => !thas s.tab.dill t | none => false)
    || (match p.sage with | some (_, g) => !thas s.tab.groups g | none => false)
    || match p.missRec with | some a => !thas s.fwd.cfg.actions a | none => false

/-- Whether a program names the reserved Sage group outside TIME, where index 15 is no group (R185). -/
def reservedNamed (s : State) (p : Prog) : Bool :=
  match p.sage with
  | some (_, g) => g == 15 && s.fwd.profile != 2 && !thas s.tab.groups 15
  | none => false

/-- Own meaning of LKP.PROGRAM_SET (R141, R142, R164, R179). -/
def actLkpProgramSet : Act := fun x q s =>
  let i := hIdx (wd q 0)
  let p := progOf q (tgetD s.fwd.cfg.progs i {}).learn
  if hType (wd q 0) ≠ 0x65 ∨ 4096 ≤ i then fail stBadHandle s
  else if (p.missRec.isNone ∧ 4 < p.miss % 16) ∨ reservedNamed s p then fail stNotPermitted s
  else if x.ph = .stage then done s
  else if progUnknown s p then fail stBadHandle s
  else if !progOk s s.fwd.cfg p then fail stNotPermitted s
  else done (setCfg (x.ph == .commit) (fun c => { c with progs := tset c.progs i p }) s)

/-- The Dill tables, the Sage group and the miss action's record that LKP.PROGRAM_SET names count as references (R454). -/
def refsProgram (q : List Word) : List Nat :=
  (if flag q 2 16 then [handle 0x71 (fld q 2 7 0)] else []) ++ (if flag q 3 16 then [handle 0x71 (fld q 3 7 0)] else [])
    ++ (if flag q 4 16 then [handle 0x72 (fld q 4 11 8)] else []) ++ if hType (wd q 5) = 0x70 then [wd q 5] else []

/-- A program that names a group with segments in the Sage quad under a sounding waits for its end (R509). -/
def holdLkpProgramSet (q : List Word) (s : State) : Bool :=
  match idleSounding s, (progOf q none).sage with
  | some d, some (_, g) => match tget s.tab.groups g with
    | some x => decide (16 ≤ d) && decide (d ≤ 19) && decide (x.first < 4 * (d - 16) + 4) && decide (4 * (d - 16) < x.first + x.count)
    | none => false
  | _, _ => false

def cmdLkpProgramSet : Cmd :=
  { op := 0x0607, staging := .may, need := fun _ => 7, objs := fun q => [[wd q 0]], refs := refsProgram
    hold := holdLkpProgramSet, act := actLkpProgramSet }

/-- LKP.PROGRAM_SET (R141). -/
def execLkpProgramSet (c : Call) (q : List Word) (s : State) : Host.Outcome State Fault Refusal :=
  .next (runCommand cmdLkpProgramSet c q s)

/-- The next-hop of words i + 1 to i + 5, with a destination system port. -/
def nhOf (q : List Word) (dsp i : Nat) : NextHop :=
  { dsp := dsp, qbase := fld q i 19 0, encap := hwd q (i + 1), dmac := wd q (i + 2) + 2 ^ 32 * fld q (i + 3) 15 0
    vid := fld q (i + 4) 11 0, dir := fld q (i + 4) 13 12 }

/-- Whether an encapsulation handle may be named. -/
def encapOk (x : Ctx) (s : State) (h : Nat) : Bool := hType h == 0 || (hType h == 0x63 && x.knows s h)

/-- Own meaning of NH.CREATE. -/
def actNhCreate : Act := fun x q s =>
  let nh := nhOf q (fld q 0 15 0) 1
  if !encapOk x s nh.encap then fail stBadHandle s
  else match newIdx x 0x60 s.fwd.cfg.nhs 1048576 s with
    | none => fail stResourceShort s
    | some i =>
      if x.ph = .stage then created (handle 0x60 i) s
      else created (handle 0x60 i) (setCfg (x.ph == .commit) (fun c => { c with nhs := tset c.nhs i nh }) s)

def cmdNhCreate : Cmd :=
  { op := 0x0610, staging := .may, need := fun _ => 6, refs := fun q => [wd q 2], act := actNhCreate }

/-- NH.CREATE (R145). -/
def execNhCreate (c : Call) (q : List Word) (s : State) : Host.Outcome State Fault Refusal :=
  .next (runCommand cmdNhCreate c q s)

/-- Own meaning of NH.SET: words 1 to 5 as NH.CREATE, the destination system port stays (Table 5-12). -/
def actNhSet : Act := fun x q s =>
  let h := wd q 0
  if hType h ≠ 0x60 ∨ !x.knows s h ∨ !encapOk x s (wd q 2) then fail stBadHandle s
  else if x.ph = .stage then done s
  else done (ecmpUpdate (setCfg (x.ph == .commit) (fun c =>
    { c with nhs := tmodify c.nhs (hIdx h) fun old => nhOf q old.dsp 1 }) s))

def cmdNhSet : Cmd :=
  { op := 0x0611, staging := .may, need := fun _ => 6, objs := fun q => [[wd q 0]], refs := fun q => [wd q 0, wd q 2]
    adm := true, act := actNhSet }

/-- NH.SET (R145). -/
def execNhSet (c : Call) (q : List Word) (s : State) : Host.Outcome State Fault Refusal :=
  .next (runCommand cmdNhSet c q s)

/-- Own meaning of NH.DELETE: refused while referenced. -/
def actNhDelete : Act := fun x q s =>
  let h := wd q 0
  if hType h ≠ 0x60 ∨ !x.knows s h then fail stBadHandle s
  else if x.ph = .stage then done s
  else if hopNamed (if x.ph = .commit then { s with ecs := { s.ecs with slots := [] } } else s) h then fail stNotPermitted s
  else done (setCfg (x.ph == .commit) (fun c => { c with nhs := terase c.nhs (hIdx h) }) s)

def cmdNhDelete : Cmd :=
  { op := 0x0612, staging := .may, need := fun _ => 1, objs := fun q => [[wd q 0]], refs := fun q => [wd q 0], adm := true, act := actNhDelete }

/-- NH.DELETE (R155). -/
def execNhDelete (c : Call) (q : List Word) (s : State) : Host.Outcome State Fault Refusal :=
  .next (runCommand cmdNhDelete c q s)

/-- Whether an encapsulation asks only for supported functions (R145, Table 5-8): at most 12 labels or 10 SIDs, a DetNet
encapsulation of one S-label at least. -/
def encapKindOk (q : List Word) : Bool :=
  let kind := fld q 0 3 0
  let n := fld q 0 7 4
  decide (1 ≤ n) && (((kind == 1 || kind == 3 || kind == 4) && decide (n ≤ 12)) || (kind == 2 && decide (n ≤ 10)))

/-- Own meaning of ENCAP.CREATE. -/
def actEncapCreate : Act := fun x q s =>
  if !encapKindOk q then fail stNotPermitted s
  else match newIdx x 0x63 s.fwd.cfg.encaps 262144 s with
    | none => fail stResourceShort s
    | some i =>
      let e : Encap := { kind := fld q 0 3 0, count := fld q 0 7 4, pipe := flag q 0 8, entropy := flag q 0 9
                         ws := wordsAt q 1 40 }
      if x.ph = .stage then created (handle 0x63 i) s
      else created (handle 0x63 i) (setCfg (x.ph == .commit) (fun c => { c with encaps := tset c.encaps i e }) s)

def cmdEncapCreate : Cmd :=
  { op := 0x0613, staging := .may, act := actEncapCreate
    need := fun q => 1 + if fld q 0 3 0 = 2 then 4 * fld q 0 7 4 else fld q 0 7 4 }

/-- ENCAP.CREATE (R145). -/
def execEncapCreate (c : Call) (q : List Word) (s : State) : Host.Outcome State Fault Refusal :=
  .next (runCommand cmdEncapCreate c q s)

/-- Own meaning of ENCAP.DELETE. -/
def actEncapDelete : Act := fun x q s =>
  let h := wd q 0
  if hType h ≠ 0x63 ∨ !x.knows s h then fail stBadHandle s
  else if x.ph = .stage then done s
  else if hopNamed (if x.ph = .commit then { s with ecs := { s.ecs with slots := [] } } else s) h then fail stNotPermitted s
  else done (setCfg (x.ph == .commit) (fun c => { c with encaps := terase c.encaps (hIdx h) }) s)

def cmdEncapDelete : Cmd :=
  { op := 0x0614, staging := .may, need := fun _ => 1, objs := fun q => [[wd q 0]], refs := fun q => [wd q 0], act := actEncapDelete }

/-- ENCAP.DELETE (R145). -/
def execEncapDelete (c : Call) (q : List Word) (s : State) : Host.Outcome State Fault Refusal :=
  .next (runCommand cmdEncapDelete c q s)

/-- Member entries in use in all ECMP groups. -/
def ecmpEntries (s : State) : Nat := s.fwd.cfg.ecmps.foldl (fun n e => n + e.2.length) 0

/-- Members named in words from i on. -/
def membersOf (q : List Word) (i n : Nat) (marks : Bool) : List (Nat × Bool) :=
  (List.range n).map fun j => (wd q (i + j) % if marks then 2 ^ 31 else 2 ^ 32, marks && flag q (i + j) 31)

/-- Own meaning of ECMP.CREATE (R146). -/
def actEcmpCreate : Act := fun x q s =>
  let n := fld q 0 9 0
  let ms := membersOf q 1 n false
  if n < 1 ∨ 512 < n then fail stNotPermitted s
  else if ms.any (fun m => hType m.1 != 0x60 || !x.knows s m.1) then fail stBadHandle s
  else if x.ph ≠ .stage ∧ 1048576 < ecmpEntries s + n then fail stResourceShort s
  else match newIdx x 0x61 s.fwd.cfg.ecmps 65536 s with
    | none => fail stResourceShort s
    | some i =>
      if x.ph = .stage then created (handle 0x61 i) s
      else created (handle 0x61 i) (ecmpUpdate (setCfg (x.ph == .commit) (fun c =>
        { c with ecmps := tset c.ecmps i (ms.map fun m => (hIdx m.1, false)) }) s))

def cmdEcmpCreate : Cmd :=
  { op := 0x0618, staging := .may, need := fun q => 1 + fld q 0 9 0
    refs := fun q => (membersOf q 1 (fld q 0 9 0) false).map Prod.fst, act := actEcmpCreate }

/-- ECMP.CREATE (R146). -/
def execEcmpCreate (c : Call) (q : List Word) (s : State) : Host.Outcome State Fault Refusal :=
  .next (runCommand cmdEcmpCreate c q s)

/-- Own meaning of ECMP.SET_MEMBERS: [31] of each word marks the member down (R147). -/
def actEcmpSetMembers : Act := fun x q s =>
  let h := wd q 0
  let n := fld q 1 9 0
  let ms := membersOf q 2 n true
  if hType h ≠ 0x61 ∨ !x.knows s h then fail stBadHandle s
  else if n < 1 ∨ 512 < n then fail stNotPermitted s
  else if ms.any (fun m => hType m.1 != 0x60 || !x.knows s m.1) then fail stBadHandle s
  else if x.ph = .stage then done s
  else if 1048576 < ecmpEntries s + n - (tgetD s.fwd.cfg.ecmps (hIdx h) []).length then fail stNotPermitted s
  else done (ecmpUpdate (setCfg (x.ph == .commit) (fun c =>
    { c with ecmps := tset c.ecmps (hIdx h) (ms.map fun m => (hIdx m.1, m.2)) }) s))

def cmdEcmpSetMembers : Cmd :=
  { op := 0x0619, staging := .may, need := fun q => 2 + fld q 1 9 0, objs := fun q => [[wd q 0]]
    refs := fun q => wd q 0 :: (membersOf q 2 (fld q 1 9 0) true).map Prod.fst, act := actEcmpSetMembers }

/-- ECMP.SET_MEMBERS (R147). -/
def execEcmpSetMembers (c : Call) (q : List Word) (s : State) : Host.Outcome State Fault Refusal :=
  .next (runCommand cmdEcmpSetMembers c q s)

/-- Own meaning of ECMP.DELETE. -/
def actEcmpDelete : Act := fun x q s =>
  let h := wd q 0
  if hType h ≠ 0x61 ∨ !x.knows s h then fail stBadHandle s
  else if x.ph = .stage then done s
  else if hopNamed (if x.ph = .commit then { s with ecs := { s.ecs with slots := [] } } else s) h then fail stNotPermitted s
  else done (ecmpUpdate (setCfg (x.ph == .commit) (fun c => { c with ecmps := terase c.ecmps (hIdx h) }) s))

def cmdEcmpDelete : Cmd :=
  { op := 0x061A, staging := .may, need := fun _ => 1, objs := fun q => [[wd q 0]], refs := fun q => [wd q 0], act := actEcmpDelete }

/-- ECMP.DELETE (R146). -/
def execEcmpDelete (c : Call) (q : List Word) (s : State) : Host.Outcome State Fault Refusal :=
  .next (runCommand cmdEcmpDelete c q s)

/-- Own meaning of HASH.SET (R146). -/
def actHashSet : Act := fun x q s =>
  if x.ph = .stage then done s
  else done (modFwd (fun w => { w with seed := toWord (wd q 0), sym := flag q 1 0 }) s)

def cmdHashSet : Cmd := { op := 0x061B, staging := .may, need := fun _ => 2, objs := objOp 0x061B, act := actHashSet }

/-- HASH.SET (R146). -/
def execHashSet (c : Call) (q : List Word) (s : State) : Host.Outcome State Fault Refusal :=
  .next (runCommand cmdHashSet c q s)

/-- Policer settings in Table 5-11 words 1 to 8. -/
def polOf (q : List Word) : PolCfg :=
  { tr := flag q 1 0, aware := flag q 1 1, det := flag q 1 2, green := fld q 1 5 4, yellow := fld q 1 7 6
    red := fld q 1 9 8, adj := signed 7 (fld q 1 22 16), cir := storedRate (wd64 q 2), pir := storedRate (wd64 q 4)
    cbs := fld q 6 24 0, ebs := fld q 7 24 0, remap := fld q 8 23 0 }

/-- The ranges of Table 5-11. -/
def polOk (q : List Word) : Bool :=
  decide (fld q 1 5 4 ≤ 2) && decide (fld q 1 7 6 ≤ 2) && decide (fld q 1 9 8 ≤ 2) && rateOk (wd64 q 2)
    && rateOk (wd64 q 4) && decide (fld q 6 24 0 ≤ 16777216) && decide (fld q 7 24 0 ≤ 16777216)

/-- Own meaning of POLICER.SET (R148, R150). -/
def actPolicerSet : Act := fun x q s =>
  let i := hIdx (wd q 0)
  if hType (wd q 0) ≠ 0x62 ∨ 1048576 ≤ i then fail stBadHandle s
  else if !polOk q then fail stNotPermitted s
  else if x.ph = .stage then done s
  else
    let c := polOf q
    done (polClamp i c (setCfg (x.ph == .commit) (fun w => { w with pols := tset w.pols i c }) s))

def cmdPolicerSet : Cmd :=
  { op := 0x0620, staging := .may, need := fun _ => 9, objs := fun q => [[wd q 0]], act := actPolicerSet }

/-- POLICER.SET (R148). -/
def execPolicerSet (c : Call) (q : List Word) (s : State) : Host.Outcome State Fault Refusal :=
  .next (runCommand cmdPolicerSet c q s)

/-- Own meaning of POLICER.READ: the stored settings and the token counts as the bank last left them (R148). -/
def actPolicerRead : Act := fun _ q s =>
  let i := hIdx (wd q 0)
  if hType (wd q 0) ≠ 0x62 ∨ 1048576 ≤ i then fail stBadHandle s
  else
    let c := tgetD s.fwd.cfg.pols i {}
    let k := tgetD s.fwd.toks i {}
    reply ([toWord (wd q 0), toWord (b2n c.tr + 2 * b2n c.aware + 4 * b2n c.det + c.green * 2 ^ 4 + c.yellow * 2 ^ 6
        + c.red * 2 ^ 8 + unsigned 7 c.adj * 2 ^ 16)]
      ++ toWords c.cir 2 ++ toWords c.pir 2 ++ [toWord c.cbs, toWord c.ebs, toWord c.remap] ++ toWords k.tc 2
      ++ toWords k.te 2) s

def cmdPolicerRead : Cmd := { op := 0x0621, reading := true, need := fun _ => 1, act := actPolicerRead }

/-- POLICER.READ (R148). -/
def execPolicerRead (c : Call) (q : List Word) (s : State) : Host.Outcome State Fault Refusal :=
  .next (runCommand cmdPolicerRead c q s)

/-- Own meaning of STATS.READ: four words per counter (R152). -/
def actStatsRead : Act := fun _ q s =>
  let i := fld q 0 25 0
  let n := fld q 1 9 0
  if n < 1 ∨ 254 < n ∨ 67108864 < i + n then fail stNotPermitted s
  else reply ((List.range' i n).flatMap fun k =>
    toWords (tgetD s.fwd.stats (2 * k) 0) 2 ++ toWords (tgetD s.fwd.stats (2 * k + 1) 0) 2) s

def cmdStatsRead : Cmd := { op := 0x0628, reading := true, need := fun _ => 2, act := actStatsRead }

/-- STATS.READ (R152). -/
def execStatsRead (c : Call) (q : List Word) (s : State) : Host.Outcome State Fault Refusal :=
  .next (runCommand cmdStatsRead c q s)

/-- Own meaning of STATS.CLEAR. -/
def actStatsClear : Act := fun x q s =>
  let i := fld q 0 25 0
  let n := fld q 1 25 0
  if 67108864 < i + n then fail stNotPermitted s
  else if x.ph = .stage then done s
  else done (modFwd (fun w => { w with stats := w.stats.filter fun e => !(decide (i ≤ e.1 / 2) && decide (e.1 / 2 < i + n)) }) s)

/-- The conflict object of STATS.CLEAR: each index of its range (Table 16-7), named by its bounds. -/
def cmdStatsClear : Cmd :=
  { op := 0x0629, staging := .may, need := fun _ => 2, act := actStatsClear
    objs := fun q => (List.range (fld q 1 25 0)).map fun j => [0x0629, fld q 0 25 0 + j] }

/-- STATS.CLEAR (R152). -/
def execStatsClear (c : Call) (q : List Word) (s : State) : Host.Outcome State Fault Refusal :=
  .next (runCommand cmdStatsClear c q s)

/-- Own meaning of PIPE.SET: W and the policers of reasons 0x01 to 0x09; a null handle polices nothing (R134, R158). -/
def actPipeSet : Act := fun x q s =>
  let w := fld q 0 5 0
  let hs := (List.range 9).map fun i => hwd q (1 + i)
  if hs.any (fun h => h != 0 && (hType h != 0x62 || decide (1048576 ≤ hIdx h))) then fail stBadHandle s
  else if w < 2 then fail stNotPermitted s
  else if x.ph = .stage then done s
  else done (modFwd (fun f => { f with
    w := w, punt := (hs.zipIdx).foldl (fun t (h, i) => mset 0 t (i + 1) h) f.punt }) s)

def cmdPipeSet : Cmd := { op := 0x0630, staging := .may, need := fun _ => 10, objs := objOp 0x0630, act := actPipeSet }

/-- PIPE.SET (R158). -/
def execPipeSet (c : Call) (q : List Word) (s : State) : Host.Outcome State Fault Refusal :=
  .next (runCommand cmdPipeSet c q s)

/-- Own meaning of PIPE.COUNTERS: current values, the snapshot flag ignored (R67, R159). -/
def actPipeCounters : Act := fun _ q s => reply (ctrWords s.ctr 0x46 (fld q 0 3 0 + 1) (List.range 19)) s

def cmdPipeCounters : Cmd := { op := 0x0631, reading := true, need := fun _ => 2, act := actPipeCounters }

/-- PIPE.COUNTERS (R159). -/
def execPipeCounters (c : Call) (q : List Word) (s : State) : Host.Outcome State Fault Refusal :=
  .next (runCommand cmdPipeCounters c q s)

end Sys2Proof.Machine
end

