-- ==== Sys2Proof/Machine/Boot.lean ====
section
/-! DEFINITION. Commands and events of start-up and upgrade (spec/17_startup_upgrade.md). -/

namespace Sys2Proof.Machine

open Sys2Proof

/-! ### Reset and start-up -/

/-- PORST_N_ASSERT: PORST_N goes low (R31). -/
def execPorstNAssert (t : Nat) (s : State) : Host.Outcome State Fault Refusal := .next (porst (s.atTime t))

/-- PORST_N_RELEASE: the straps are sampled, SURVEY ends, and the pilot starts an image; `verified` says whether the images
of slots A and B verify under R466 (R30, R467, R469, R499). -/
def execPorstNRelease (t devid : Nat) (twinEn : Bool) (verified : List Bool) (s : State) : Host.Outcome State Fault Refusal :=
  let s := s.atTime t
  .next (if s.boot.held then packageReset (devid % 4) twinEn verified s else s)

/-- BOOT_SLOT_TIMEOUT: the started slot has not reached firmware ready within 3,000 ms; it is marked BAD and the next one is
tried (R469). -/
def execBootSlotTimeout (t : Nat) (s : State) : Host.Outcome State Fault Refusal :=
  let s := s.atTime t
  match s.boot.slot with
  | some i =>
    if s.id.fwState = 0 ∧ !s.boot.held ∧ s.boot.start + msU 3000 ≤ elapsed s then
      .next (bootNext s.boot.order (upgradeFailed i 3 (slotState i 5 { s with boot := { s.boot with slot := none } })))
    else .next s
  | none => .next s

/-- FIRMWARE_READY: Enenhild reaches firmware ready with the initial state of R471, once every stack has been trained; an
image started as a one-shot slot is on trial (R463, R467, R469, R478). -/
def execFirmwareReady (t : Nat) (s : State) : Host.Outcome State Fault Refusal :=
  let s := s.atTime t
  match s.boot.slot with
  | some i =>
    if s.id.fwState ≠ 0 ∨ s.boot.held ∨ s.hbm.stks.any (fun x => x.st == 0) then .next s
    else
      let s := readyState s
      let s := if (slotAt s i).st = 2 then slotState i 3 s else s
      .next (firmwareReady i s)
  | none => .next s

/-! ### Commands (Table 17-7) -/

/-- Whether a command with the twin flag can reach the twin. -/
def twinReach (s : State) : Bool := s.id.twinEn && s.twin.hawser

/-- The slot that a load writes: not the preferred one (R472). -/
def loadSlot (s : State) : Nat := 1 - s.flash.pref

/-- Own meaning of UPGRADE.LOAD (R472). -/
def actUpgradeLoad : Act := fun _ q s =>
  let len := fld q 2 24 0
  if len < 512 ∨ 25165824 < len then fail stBadLength s
  else if flag q 3 0 then
    if !twinReach s then fail stNotPermitted s
    else if s.boot.twinLoad then fail stBusy s
    else ⟨stAccepted, [], emit (.hawser (.bulk 0x1401 q 0)) { s with boot := { s.boot with twinLoad := true } }, 0⟩
  else
    let i := loadSlot s
    if s.boot.load.isSome then fail stBusy s
    else if s.id.image = i ∨ (slotAt s i).st = 3 then fail stNotPermitted s
    else ⟨stAccepted, [], { slotState i 1 s with boot := { s.boot with load := some (i, {}) } }, 0⟩

def cmdUpgradeLoad : Cmd := { op := 0x1401, need := fun _ => 4, act := actUpgradeLoad }

/-- UPGRADE.LOAD (R472). -/
def execUpgradeLoad (c : Call) (q : List Word) (s : State) : Host.Outcome State Fault Refusal :=
  .next (runCommand cmdUpgradeLoad c q s)

/-- Whether a hot activation of slot i is permitted (R473): a loaded image of hot class, its staging format that of the
running one while a transaction is open, and on a pair each unit's version at least the other's twin compatibility. -/
def hotOk (s : State) (i : Nat) : Bool :=
  let x := slotAt s i
  let r := slotAt s s.id.image
  x.st == 2 && !x.reboot && (x.staging == r.staging || (txns s).isEmpty)
    && (!s.id.twinEn || (decide (s.boot.twinCompat ≤ x.version) && decide (x.compat ≤ s.boot.twinVersion)))

/-- Own meaning of UPGRADE.ACTIVATE (R473, R477, R479). -/
def actUpgradeActivate : Act := fun _ q s =>
  let hot := flag q 0 0
  let dst := fld q 1 11 0
  let i := loadSlot s
  let x := slotAt s i
  if 3600 < dst then fail stNotPermitted s
  else if flag q 0 1 then
    if !twinReach s then fail stNotPermitted s
    else ⟨stAccepted, [], emit (.hawser (.config (.direct 0x1402 q 0))) s, 0⟩
  else if !(x.st == 2 || x.st == 3) || s.id.image == i || s.boot.swap != 0 then fail stNotPermitted s
  else if hot then
    if !hotOk s i then fail stNotPermitted s
    else ⟨stAccepted, [], { s with boot := { s.boot with swap := 1, swapTo := i, swapBack := false, confirm := dst } }, 0⟩
  else if s.twin.st ≤ 1 && !flag q 0 2 then fail stNotPermitted s
  else ⟨stAccepted, [], { dirWrite (fun f => { f with oneShot := i + 1 }) s with flt := { s.flt with resetAt := elapsed s + 1 } }, 0⟩

def cmdUpgradeActivate : Cmd := { op := 0x1402, need := fun _ => 2, act := actUpgradeActivate }

/-- UPGRADE.ACTIVATE (R473). -/
def execUpgradeActivate (c : Call) (q : List Word) (s : State) : Host.Outcome State Fault Refusal :=
  .next (runCommand cmdUpgradeActivate c q s)

/-- Own meaning of UPGRADE.CONFIRM (R478). -/
def actUpgradeConfirm : Act := fun _ q s =>
  if flag q 0 0 then
    if !twinReach s then fail stNotPermitted s else done (emit (.hawser (.config (.direct 0x1403 q 0))) s)
  else
    let i := s.id.image
    if (slotAt s i).st ≠ 3 ∨ s.id.fwState ≠ 1 then fail stNotPermitted s
    else
      let s := dirWrite (fun f => { f with
        pref := i, slots := lmod f.slots i fun x => { x with st := 4 }, minSec := max f.minSec (f.slots.getD i {}).sec }) s
      done { s with boot := { s.boot with confirmEnd := 0 } }

def cmdUpgradeConfirm : Cmd := { op := 0x1403, need := fun _ => 1, act := actUpgradeConfirm }

/-- UPGRADE.CONFIRM (R478). -/
def execUpgradeConfirm (c : Call) (q : List Word) (s : State) : Host.Outcome State Fault Refusal :=
  .next (runCommand cmdUpgradeConfirm c q s)

/-- Own meaning of UPGRADE.STATUS (Table 17-7). -/
def actUpgradeStatus : Act := fun _ _ s =>
  let busy := if s.boot.load.isSome || s.boot.twinLoad then 1 else if s.boot.swap ≠ 0 then 2 else if s.boot.convert then 3 else 0
  reply (dirWords s.flash ++ [toWord s.flash.minSec, toWord busy]) s

def cmdUpgradeStatus : Cmd := { op := 0x1404, reading := true, act := actUpgradeStatus }

/-- UPGRADE.STATUS (R465). -/
def execUpgradeStatus (c : Call) (q : List Word) (s : State) : Host.Outcome State Fault Refusal :=
  .next (runCommand cmdUpgradeStatus c q s)

/-- Own meaning of UPGRADE.PROFILE (R480): the standby of a pair converts to another profile, where its tables and its
admission fit. -/
def actUpgradeProfile : Act := fun _ q s =>
  let p := fld q 0 1 0
  let reserved := s.det.streams.any fun e => e.2.cfg.sage
  if p = 3 ∨ s.twin.st ≠ 1 ∨ s.twin.peer ≠ 2 ∨ (reserved ∧ p ≠ 2) ∨ (p = 2 ∧ sageReservedClash s) then fail stNotPermitted s
  else if !tablesFit p s then fail stResourceShort s
  else
    let s' := { s with fwd := { s.fwd with profile := p } }
    let start (s : State) : Res :=
      ⟨stAccepted, [], emit (.hawser (.config (.direct 0x1405 q 0))) { s with boot := { s.boot with convert := true } }, 0⟩
    if !admNeeded s s' then start s
    else match admJudge s' with
      | .no st r => ⟨st, r, admCount true s, 0⟩
      | .ok _ _ _ => start (admCount false s)
where
  /-- A group of the present profile lies in the segments that TIME reserves (R185). -/
  sageReservedClash (s : State) : Bool :=
    s.fwd.profile != 2 && s.tab.groups.any fun e => decide (8 < e.2.first + e.2.count) || e.1 == 15

def cmdUpgradeProfile : Cmd := { op := 0x1405, need := fun _ => 1, act := actUpgradeProfile }

/-- UPGRADE.PROFILE (R480). -/
def execUpgradeProfile (c : Call) (q : List Word) (s : State) : Host.Outcome State Fault Refusal :=
  .next (runCommand cmdUpgradeProfile c q s)

/-! ### Loads -/

/-- UPGRADE_LOADED: the image, with its header, has been written, read back and verified or not under R466; with a load on
the twin its end is reported (R472). -/
def execUpgradeLoaded (t : Nat) (img : ImageHeader) (verified : Bool) (s : State) : Host.Outcome State Fault Refusal :=
  let s := s.atTime t
  match s.boot.load with
  | some (i, _) =>
    let ok := verified && decide (s.flash.minSec ≤ img.sec) && !bit s.flash.revoked img.key
    let x : ImageSlot :=
      { st := if ok then 2 else 5, version := img.version, sec := img.sec, reboot := img.reboot, compat := img.compat,
        staging := img.staging, key := img.key }
    let s := dirWrite (fun f => { f with slots := f.slots.set i x }) { s with boot := { s.boot with load := none } }
    .next (raise 0x14 1 mpcUnit (pay [(i, 1), (img.version, 4), (b2n (!ok), 1)]) s)
  | none => .next { s with boot := { s.boot with twinLoad := false } }

/-! ### Hot swap (R473 to R477) -/

/-- SWAP_BEGIN: the accepted swap begins in the first clock of a tide in which no command is running (R451, R473). -/
def execSwapBegin (t : Nat) (s : State) : Host.Outcome State Fault Refusal :=
  let s := s.atTime t
  if s.boot.swap = 1 ∧ s.id.fwState = 1 ∧ coreClocks s.tm.sub = 0 ∧ s.ecs.mbs.all (fun b => !b.owned) then
    .next { s with id := { s.id with fwState := 2 }, boot := { s.boot with swap := 2, swapStart := s.tm.bounds } }
  else .next s

/-- SWAP_HANDOVER: at one boundary the time-critical services move to the new image, or it has failed its checks and the
old image goes on (R474, R476). -/
def execSwapHandover (t : Nat) (ok : Bool) (s : State) : Host.Outcome State Fault Refusal :=
  let s := s.atTime t
  if s.boot.swap ≠ 2 then .next s
  else if ok then .next { s with boot := { s.boot with swap := 3 } }
  else
    let i := s.boot.swapTo
    let s := { s with boot := { s.boot with swap := 0, swapBack := false } }
    .next (firmwareReady s.id.image (upgradeFailed i 2 (slotState i 5 s)))

/-- SWAP_DONE: the swap completes; the new image is on trial, or after a confirm timeout the preferred one runs again and
the trial slot is LOADED (R475, R477). -/
def execSwapDone (t : Nat) (s : State) : Host.Outcome State Fault Refusal :=
  let s := s.atTime t
  if s.boot.swap ≠ 3 then .next s
  else
    let i := s.boot.swapTo
    let back := s.boot.swapBack
    let s := if back then slotState s.id.image 2 s else slotState i 3 s
    let s := { s with boot := { s.boot with
      swap := 0, swapBack := false
      confirmEnd := if back ∨ s.boot.confirm = 0 then 0 else s.tm.bounds + 8000 * s.boot.confirm + 1 } }
    let s := raise 0x14 2 mpcUnit (pay [(i, 1), ((slotAt s i).version, 4)]) s
    let s := firmwareReady i s
    .next (if back then reverted i 2 s else s)

/-- CONFIRM_TIMEOUT: the trial image has not been confirmed in time; the K12 swaps back to the preferred slot (R477). -/
def execConfirmTimeout (t : Nat) (s : State) : Host.Outcome State Fault Refusal :=
  let s := s.atTime t
  if s.boot.confirmEnd ≠ 0 ∧ s.boot.confirmEnd ≤ s.tm.bounds + 1 ∧ s.boot.swap = 0 ∧ (slotAt s s.id.image).st = 3 then
    .next { s with boot := { s.boot with confirmEnd := 0, swap := 1, swapTo := s.flash.pref, swapBack := true } }
  else .next s

end Sys2Proof.Machine
end

