-- ==== Sys2Proof/Machine/Circuit.lean ====
section
/-! DEFINITION. Commands and events of area 0x05: E1 circuits, packetisation and playout
(spec/04_circuit_emulation.md). -/

namespace Sys2Proof.Machine

open Sys2Proof

/-- Change circuit i. -/
def modCircuit (i : Nat) (f : Circuit → Circuit) (s : State) : State :=
  { s with circuits := tmodify s.circuits i f }

/-- Add n to counter k of circuit i (R127). -/
def circuitCount (i k n : Nat) (s : State) : State :=
  match tget s.circuits i with
  | some c =>
    if c.clearMode then ctrPut 2 i k ((ctrGet s 2 i k + n) % 2 ^ 48) s
    else ctrAdd48 5 6 (unitOf 36 11) (pay [(handle 0x50 i, 4), (k, 1)]) 2 i k n s
  | none => s

/-- Add to a 16-bit count of a record: the sum and whether it saturates (R101). -/
def sat16 (a n : Nat) : Nat × Bool := if a + n ≤ 65535 then (a + n, false) else (65535, true)

/-- Words 1 to 7 of Table 4-6. -/
def circuitCfgOf (q : List Word) : CircuitCfg :=
  { cesop := flag q 1 0, timing := fld q 1 2 1, rtp := flag q 1 3, rtpFast := flag q 1 4,
    n := fld q 1 10 5 + 1, c := fld q 1 16 11 + 1, f := fld q 1 22 17 + 1, idle := fld q 1 31 24,
    slots := wd q 2, label := fld q 3 19 0, tc := fld q 3 22 20, ttl := fld q 3 31 24, nh := wd q 4,
    seq0 := fld q 5 15 0, lopsThr := fld q 5 26 16, ssrc := wd q 6, pt := fld q 7 6 0 }

/-- The ranges of Table 4-6 and the options of Table 4-1. -/
def circuitCfgOk (c : CircuitCfg) : Bool :=
  c.timing != 3 && (c.timing != 1 || (c.rtp && c.rtpFast)) && decide (c.n ≤ c.c) && decide (c.n ≤ c.f) && decide (c.f ≤ c.c)
    && (if c.cesop then !bit c.slots 0 && c.slots != 0 else c.slots == 0)
    && decide (16 ≤ c.label) && decide (1 ≤ c.lopsThr) && decide (c.lopsThr ≤ 1024) && decide (96 ≤ c.pt)

/-- Whether an object may have a circuit: a VC-12 path, or a type 3 or 4 group of VC-12 paths (R109). -/
def bindable (s : State) (h : Nat) : Bool :=
  let isVc12 (p : Nat) : Bool := hType p == 0x41 && match tget s.tr.paths (hIdx p) with | some x => x.kind == 2 | none => false
  match hType h with
  | 0x41 => isVc12 h
  | 0x42 => match tget s.tr.groups (hIdx h) with
    | some g => (g.ty == 3 || g.ty == 4) && isVc12 g.worker && isVc12 g.protect
    | none => false
  | _ => false

/-- Own meaning of CIRCUIT.CREATE (R109 to R111, Table 4-6). -/
def actCircuitCreate : Act := fun x q s =>
  let b := hwd q 0
  let c := circuitCfgOf q
  if (b ≠ 0 ∧ !x.knows s b) ∨ hType c.nh ≠ 0x60 ∨ !x.knows s c.nh then fail stBadHandle s
  else if !circuitCfgOk c ∨ (b ≠ 0 ∧ ((objExists s b ∧ !bindable s b) ∨ (x.ph ≠ .stage ∧ boundCircuit s b))) then
    fail stNotPermitted s
  else match newIdx x 0x50 s.circuits 16384 s with
    | none => fail stResourceShort s
    | some i =>
      let s := { s with
        ctr := s.ctr.filter fun e => e.1 / 1024 != 2 * 2 ^ 32 + i
        snap := s.snap.filter fun e => e.1 / 1024 != 2 * 2 ^ 32 + i }
      created (handle 0x50 i) { s with circuits := tset s.circuits i { bound := b, cfg := c } }

def cmdCircuitCreate : Cmd :=
  { op := 0x0501, staging := .may, need := fun _ => 8, refs := fun q => [wd q 0, wd q 4], act := actCircuitCreate }

/-- CIRCUIT.CREATE (R109). -/
def execCircuitCreate (c : Call) (q : List Word) (s : State) : Host.Outcome State Fault Refusal :=
  .next (runCommand cmdCircuitCreate c q s)

/-- Run f on the circuit of request word 0. -/
def withCircuit (x : Ctx) (q : List Word) (s : State) (f : Nat → Circuit → Res) : Res :=
  let h := wd q 0
  match if hType h = 0x50 then tget s.circuits (hIdx h) else none with
  | some c => f (hIdx h) c
  | none => if x.reservedHere s h && hType h == 0x50 then done s else fail stBadHandle s

/-- Own meaning of CIRCUIT.DELETE. -/
def actCircuitDelete : Act := fun x q s =>
  withCircuit x q s fun i _ => done { s with circuits := terase s.circuits i }

def cmdCircuitDelete : Cmd :=
  { op := 0x0502, staging := .may, need := fun _ => 1, objs := objWord0, refs := refWord0, act := actCircuitDelete }

/-- CIRCUIT.DELETE (R109). -/
def execCircuitDelete (c : Call) (q : List Word) (s : State) : Host.Outcome State Fault Refusal :=
  .next (runCommand cmdCircuitDelete c q s)

/-- A circuit enters service: its counters accumulate, and playout waits for the start condition (R122, R127). A record in
which it was disabled after its first boundary is incomplete (R10, R101, R128). -/
def circuitStart (i : Nat) (s : State) : State :=
  match tget s.circuits i with
  | none => s
  | some c =>
    let s := if c.clearMode then
        let keep := s.snap.filter fun e => e.1 / 1024 != 2 * 2 ^ 32 + i
        { s with
          snap := (instCtrs s.ctr 2 i).foldl (fun t e => tset t e.1 e.2) keep
          ctr := s.ctr.filter fun e => e.1 / 1024 != 2 * 2 ^ 32 + i }
      else s
    modCircuit i (fun c => { c with
      enabled := true, pendEn := none, clearMode := false, playing := false, held := [], last := none, quiet := 0, exp := none
      heard := elapsed s, rate := 0, rtpLast := none, clamped := false, clampTide := false, phase := 0
      cur := { c.cur with incomplete := c.cur.incomplete || (!c.enabled && s.tm.tide != s.tm.pmFirst) } }) s

/-- A circuit leaves service (R129). -/
def circuitStop (i : Nat) (s : State) : State :=
  modCircuit i (fun c => { c with
    enabled := false, pendEn := none, playing := false, held := [], coll := [], store := [], taken := none }) s

/-- Own meaning of CIRCUIT.ENABLE: at the commit tide or the next tide. -/
def actCircuitEnable : Act := fun x q s =>
  withCircuit x q s fun i _ =>
    done (if x.ph = .commit ∧ !circuitsWithheld s then circuitStart i s else modCircuit i (fun c => { c with pendEn := some true }) s)

def cmdCircuitEnable : Cmd :=
  { op := 0x0503, staging := .may, need := fun _ => 1, objs := objWord0, refs := refWord0, act := actCircuitEnable }

/-- CIRCUIT.ENABLE (R122). -/
def execCircuitEnable (c : Call) (q : List Word) (s : State) : Host.Outcome State Fault Refusal :=
  .next (runCommand cmdCircuitEnable c q s)

/-- Own meaning of CIRCUIT.DISABLE: at the commit tide or the next tide. -/
def actCircuitDisable : Act := fun x q s =>
  withCircuit x q s fun i _ =>
    done (if x.ph = .commit then circuitStop i s else modCircuit i (fun c => { c with pendEn := some false }) s)

def cmdCircuitDisable : Cmd :=
  { op := 0x0504, staging := .may, need := fun _ => 1, objs := objWord0, refs := refWord0, act := actCircuitDisable }

/-- CIRCUIT.DISABLE (R129). -/
def execCircuitDisable (c : Call) (q : List Word) (s : State) : Host.Outcome State Fault Refusal :=
  .next (runCommand cmdCircuitDisable c q s)

/-- Own meaning of CIRCUIT.SET: structural settings only while disabled (R129). Word 0 names the circuit and no word its
binding, which therefore never changes (DESIGN CHOICE, notes/assumptions/103). -/
def actCircuitSet : Act := fun x q s =>
  let n := circuitCfgOf q
  withCircuit x q s fun i c =>
    let o := c.cfg
    let structural := n.cesop != o.cesop || n.timing != o.timing || n.n != o.n || n.c != o.c || n.f != o.f || n.slots != o.slots
    if hType n.nh ≠ 0x60 ∨ !x.knows s n.nh then fail stBadHandle s
    else if !circuitCfgOk n ∨ (x.ph ≠ .stage ∧ c.enabled ∧ structural) then fail stNotPermitted s
    else if x.ph = .commit then done (modCircuit i (fun c => { c with cfg := n, pendCfg := none }) s)
    else done (modCircuit i (fun c => { c with pendCfg := some n }) s)

def cmdCircuitSet : Cmd :=
  { op := 0x0505, staging := .may, need := fun _ => 8, objs := objWord0, refs := fun q => [wd q 0, wd q 4], act := actCircuitSet }

/-- CIRCUIT.SET (R129). -/
def execCircuitSet (c : Call) (q : List Word) (s : State) : Host.Outcome State Fault Refusal :=
  .next (runCommand cmdCircuitSet c q s)

/-- Own meaning of CIRCUIT.STATUS. -/
def actCircuitStatus : Act := fun x q s =>
  withCircuit x q s fun _ c =>
    reply ([toWord (b2n c.enabled + 2 * b2n c.playing + 4 * b2n c.lops + 8 * b2n c.lLast + 16 * b2n c.noAlign),
      toWord c.held.length] ++ toWords (unsigned 64 c.p) 2) s

def cmdCircuitStatus : Cmd := { op := 0x0506, reading := true, need := fun _ => 1, act := actCircuitStatus }

/-- CIRCUIT.STATUS (R121). -/
def execCircuitStatus (c : Call) (q : List Word) (s : State) : Host.Outcome State Fault Refusal :=
  .next (runCommand cmdCircuitStatus c q s)

/-- Own meaning of CIRCUIT.COUNTERS (R127). -/
def actCircuitCounters : Act := fun x q s =>
  withCircuit x q s fun i c =>
    let ks := List.range 16
    if flag q 1 0 then reply (ctrWords s.snap 2 i ks) s
    else reply (ctrWords s.ctr 2 i ks) (if c.clearMode then ctrClear 2 i ks s else s)

def cmdCircuitCounters : Cmd := { op := 0x0507, reading := true, need := fun _ => 2, act := actCircuitCounters }

/-- CIRCUIT.COUNTERS (R127). -/
def execCircuitCounters (c : Call) (q : List Word) (s : State) : Host.Outcome State Fault Refusal :=
  .next (runCommand cmdCircuitCounters c q s)

/-- A circuit record as its 8 words (Table 4-5). -/
def circuitRecWords (r : CircuitRec) : List Word :=
  [toWord r.lost, toWord (r.late + r.malformed * 65536), toWord (r.rep + r.dis * 65536), toWord (r.irep + r.idis * 65536),
    toWord (r.idle + r.low % 128 * 65536 + r.high % 128 * 2 ^ 24),
    toWord (b2n r.lops + 2 * b2n r.l + 4 * b2n r.r + 8 * b2n r.restart + b2n r.unlocked * 2 ^ 24
      + b2n r.incomplete * 2 ^ 25 + b2n r.saturated * 2 ^ 26)] ++ toWords r.first 2

/-- Own meaning of CIRCUIT.PM_READ (R128). -/
def actCircuitPmRead : Act := fun x q s =>
  let n := fld q 3 9 0
  withCircuit x q s fun _ c =>
    if n < 1 ∨ 112 < n then fail stNotPermitted s
    else
      let rs := (c.recs.filter fun r => decide (wd64 q 1 ≤ r.first)).take n
      if rs.isEmpty then fail stNotFound s else reply (toWord rs.length :: rs.flatMap circuitRecWords) s

def cmdCircuitPmRead : Cmd := { op := 0x0508, reading := true, need := fun _ => 4, act := actCircuitPmRead }

/-- CIRCUIT.PM_READ (R128). -/
def execCircuitPmRead (c : Call) (q : List Word) (s : State) : Host.Outcome State Fault Refusal :=
  .next (runCommand cmdCircuitPmRead c q s)

/-! ### TDM to packet (R110 to R117, R120) -/

/-- Bytes of one frame in a packet: 32 in SAToP, T in CESoPSN (R112). -/
def frameBytes (c : CircuitCfg) : Nat := if c.cesop then popCount c.slots 32 else 32

/-- The 19.44 MHz count of the time base (R115): 2,430 to a tide, from the time base's zero (DESIGN CHOICE,
notes/assumptions/101). -/
def rtpTicks (s : State) : Nat := nowLin s * 1944 / (100000 * nsU) % 2 ^ 32

/-- The RTP timestamp of the first frame of a packet: the count of frames at 8 kHz, or that of the time base (R115). -/
def rtpStamp (c : Circuit) (frames : List TdmFrame) : Nat :=
  if c.cfg.rtpFast then (match frames with | f :: _ => f.stamp | [] => 0) else c.txFrames % 2 ^ 32

/-- The pseudowire packet of a circuit for N frames (R113, Table 4-2). -/
def pwPacket (c : Circuit) (frames : List TdmFrame) : List Byte :=
  let l := frames.any fun f => f.l
  let body := frames.flatMap fun f => f.bytes
  let payload := if l then body.map fun _ => 0xFF#8 else body
  let len := 4 + (if c.cfg.rtp then 12 else 0) + payload.length
  let lenField := if len < 64 then len else 0
  let seq := c.txSeq.getD c.cfg.seq0
  beBytes (c.cfg.label * 4096 + c.cfg.tc * 512 + 256 + c.cfg.ttl) 4
    ++ beBytes (b2n l * 2 ^ 27 + b2n c.lops * 2 ^ 26 + lenField * 2 ^ 16 + seq) 4
    ++ (if c.cfg.rtp then beBytes (0x80 * 256 + c.cfg.pt) 2 ++ beBytes seq 2
        ++ beBytes (rtpStamp c frames) 4 ++ beBytes c.cfg.ssrc 4 else [])
    ++ payload

/-- The VC-12 that a circuit receives from: its path, or the selected member of its group (R110). -/
def circuitPath (s : State) (c : Circuit) : Nat :=
  match hType c.bound with
  | 0x42 => match tget s.tr.groups (hIdx c.bound) with
    | some g => if g.side then g.protect else g.worker
    | none => 0
  | _ => c.bound

/-- The VC-12s that a circuit transmits to: its path, or both members of its group (R110). -/
def circuitTargets (s : State) (c : Circuit) : List Nat :=
  match hType c.bound with
  | 0x41 => [c.bound]
  | 0x42 => match tget s.tr.groups (hIdx c.bound) with
    | some g => [g.worker, g.protect]
    | none => []
  | _ => []

/-- The transport port below a VC-12: its VC-4 or VC-3, and that one's server (R82, R131). -/
def pathPort (s : State) : Nat → Nat → Nat
  | 0, h => oduPort s 5 h
  | n + 1, h => match if hType h = 0x41 then tget s.tr.paths (hIdx h) else none with
    | some p => pathPort s n p.server
    | none => oduPort s 5 h

/-- The packet of a circuit as it waits for its octet's pipelines: an MPLS frame marked as coming from a circuit, whose edit
index names the circuit's next-hop (R113, R131). -/
def circuitPkt (s : State) (c : Circuit) (pkt : List Byte) : Pkt :=
  let bs := List.replicate 12 0#8 ++ beBytes 0x8847 2 ++ pkt
  { bytes := bs, own := true, last := nowLin s
    md := { fromCkt := true, port := pathPort s 2 (circuitPath s c), cls := c.cfg.tc, len := bs.length + 4, edit := hIdx c.cfg.nh
            egEpoch := s.fwd.epoch, inEpoch := s.fwd.epoch, arrival := ns32 (nowLin s) } }

/-- Send the packet of the frames collected (R116). -/
def sendPacket (i : Nat) (s : State) : State :=
  match tget s.circuits i with
  | none => s
  | some c =>
    let k := circuitPkt s c (pwPacket c c.coll)
    let l := c.coll.any fun f => f.l
    let s := modCircuit i (fun c => { c with
      coll := [], txSeq := some ((c.txSeq.getD c.cfg.seq0 + 1) % 65536), txFrames := c.txFrames + c.coll.length }) s
    circuitCount i 1 (b2n l) (circuitCount i 0 1 (octetPut k.md.port k s))

/-- Raise CIRCUIT_SLIP at the first slip of the PM second, the repeats and the discards so far in 2 bytes each (R130; DESIGN
CHOICE, notes/assumptions/105: Table 4-8 gives no width, and the record holds 16 bits of each). -/
def noteSlip (i : Nat) (s : State) : State :=
  match tget s.circuits i with
  | some c =>
    if c.slipped then s
    else raise 5 3 (unitOf 36 12) (pay [(handle 0x50 i, 4), (c.cur.rep + c.cur.irep, 2), (c.cur.dis + c.cur.idis, 2)])
      (modCircuit i (fun c => { c with slipped := true }) s)
  | none => s

/-- Change the running record of circuit i. -/
def modRec (i : Nat) (f : CircuitRec → CircuitRec) (s : State) : State :=
  modCircuit i (fun c => { c with cur := f c.cur }) s

/-- One frame of the G.704 alignment supervision of G.706 (R112, PRESUMED: three consecutive incorrect FAS lose alignment; a
FAS, a frame with bit 2 of TS0 set and a FAS again regain it). -/
def alignStep (ts0 : Nat) (c : Circuit) : Circuit :=
  let fas := ts0 % 128 == 0x1B
  if c.noAlign then
    if c.hunt = 2 then
      (if fas then { c with noAlign := false, hunt := 0, fasDue := some false, fasBad := 0 } else { c with hunt := 0 })
    else if c.hunt = 1 ∧ bit ts0 6 then { c with hunt := 2 }
    else { c with hunt := b2n fas }
  else match c.fasDue with
    | none => { c with fasDue := some !fas }
    | some false => { c with fasDue := some true }
    | some true =>
      let bad := if fas then 0 else c.fasBad + 1
      { c with fasDue := some false, fasBad := bad % 3, noAlign := decide (3 ≤ bad), hunt := 0 }

/-- What a packet carries of the 32 bytes of an E1 frame: all of them, or the selected timeslots (R112). -/
def carriedBytes (c : CircuitCfg) (frame : List Byte) : List Byte :=
  if c.cesop then ((List.range 32).filter fun t => bit c.slots t).map fun t => frame.getD t 0#8
  else (List.range 32).map fun t => frame.getD t 0#8

/-- Whether a frame taken now carries the L condition: SF of the VC-12, or a loss of E1 frame alignment (R117). -/
def lNow (s : State) (c : Circuit) : Bool := sigFail s (circuitPath s c) false || (c.cfg.cesop && c.noAlign)

/-- Whether circuit i takes frames from a VC-12: the one it receives from, while it is enabled (R109, R110). -/
def takesFrom (s : State) (c : Circuit) (path : Nat) : Bool :=
  c.enabled && c.bound != 0 && circuitPath s c == path && !fenced s 36

/-- A frame of the VC-12 that circuit i receives from: G.704 alignment is supervised and the frame formed (R112, R117). -/
def tdmTake (i : Nat) (frame : List Byte) (s : State) : Option TdmFrame × State :=
  let s := modCircuit i (fun c => if c.cfg.cesop then alignStep (byteAt frame 0) c else c) s
  match tget s.circuits i with
  | some c => (some ⟨carriedBytes c.cfg frame, lNow s c, rtpTicks s⟩, s)
  | none => (none, s)

/-- An ingress store that holds more than 2 frames discards its oldest (R120). -/
def storeFull (i : Nat) (s : State) : State :=
  match tget s.circuits i with
  | none => s
  | some c =>
    if c.store.length ≤ 2 then s
    else
      let s := modCircuit i (fun c => { c with store := c.store.drop 1 }) s
      let s := modRec i (fun r => { r with idis := (sat16 r.idis 1).1, saturated := r.saturated || (sat16 r.idis 1).2 }) s
      noteSlip i (circuitCount i 13 1 s)

/-- Put a frame into the ingress store without judging it full. -/
def storePut (i : Nat) (f : Option TdmFrame) (s : State) : State := modCircuit i (fun c => { c with store := c.store ++ f.toList }) s

/-- VC12_FRAME_COMPLETE: an E1 frame completes from a VC-12 that a circuit may receive from: 256 bits, or in CESoPSN one
G.704 frame from TS0 on (R110, R112, R116, R120). A frame that completes in the clock of a tide boundary comes with the
boundary (R123). -/
def execVc12FrameComplete (t circuit path : Nat) (frame : List Byte) (s : State) : Host.Outcome State Fault Refusal :=
  let s := s.atTime t
  match tget s.circuits circuit with
  | none => .next s
  | some c =>
    if !takesFrom s c path then .next s
    else
      let r := tdmTake circuit frame s
      if c.cfg.timing = 0 then .next (storeFull circuit (storePut circuit r.1 r.2))
      else
        let s := modCircuit circuit (fun c => { c with coll := c.coll ++ r.1.toList }) r.2
        .next (if c.cfg.n ≤ c.coll.length + 1 then sendPacket circuit s else s)

/-- The packetiser of a frame-aligned circuit takes one frame from the ingress store, or repeats the last; where none was
ever taken the repeat is all ones with L (R117, R120; DESIGN CHOICE, notes/assumptions/102). -/
def packetiserTake (i : Nat) (s : State) : State :=
  match tget s.circuits i with
  | none => s
  | some c =>
    let put (f : TdmFrame) (r : List TdmFrame) (s : State) : State :=
      let f := { f with l := f.l || lNow s c, stamp := rtpTicks s }
      modCircuit i (fun c => { c with store := r, taken := some f, coll := c.coll ++ [f] }) s
    match c.store with
    | f :: r => put f r s
    | [] =>
      let s := put (c.taken.getD ⟨List.replicate (frameBytes c.cfg) 0xFF#8, true, 0⟩) [] s
      let s := modRec i (fun r => { r with irep := (sat16 r.irep 1).1, saturated := r.saturated || (sat16 r.irep 1).2 }) s
      noteSlip i (circuitCount i 12 1 s)

/-- A tide boundary of a frame-aligned circuit: at a multiple of N it sends the frames of the N boundaries before; then the
packetiser takes a frame, the store judged empty with the frames that complete in this clock and full after (R116, R120,
R123). -/
def circuitBoundary (tide : Nat) (e1 : List (Nat × Nat × List Byte)) (i : Nat) (s : State) : State :=
  match tget s.circuits i with
  | none => s
  | some c =>
    if !c.enabled || c.bound == 0 || c.cfg.timing != 0 || fenced s 36 then s
    else
      let s := if tide % c.cfg.n ≠ 0 then s
        else if c.coll.length = c.cfg.n then sendPacket i s else modCircuit i (fun c => { c with coll := [] }) s
      let s := (e1.filter fun e => e.1 == i && takesFrom s c e.2.1).foldl (fun s e =>
        let r := tdmTake i e.2.2 s
        storePut i r.1 r.2) s
      storeFull i (packetiserTake i s)

/-! ### Packet to TDM (R121 to R126) -/

/-- Insert a frame by position; one already held is kept (R121). -/
def heldInsert : List (Int × List Byte) → Int → List Byte → List (Int × List Byte)
  | [], p, f => [(p, f)]
  | (a, g) :: r, p, f => if p < a then (p, f) :: (a, g) :: r else if p = a then (a, g) :: r else (a, g) :: heldInsert r p f

/-- Whether a position is held. -/
def heldHas (l : List (Int × List Byte)) (p : Int) : Bool := l.any fun e => e.1 == p

/-- The number of frames at consecutive positions from the lowest held (R122). -/
def heldRun : List (Int × List Byte) → Nat
  | [] => 0
  | [_] => 1
  | (a, _) :: (b, f) :: r => if b = a + 1 then heldRun ((b, f) :: r) + 1 else 1

/-- The buffer restarts (R124): held frames discarded, BUFFER_RESTART counted, CIRCUIT_RESTART raised with a cause; `keep`
are frames that arrive after it. -/
def circuitRestart (i cause : Nat) (keep : List (Int × List Byte)) (s : State) : State :=
  let s := modCircuit i (fun c => { c with held := keep, playing := false, last := none, cur := { c.cur with restart := true } }) s
  raise 5 4 (unitOf 36 12) (pay [(handle 0x50 i, 4), (cause, 1)]) (circuitCount i 14 1 s)

/-- Count n playout discards of circuit i. -/
def slipDiscard (i n : Nat) (s : State) : State :=
  circuitCount i 11 n (modRec i (fun r => { r with dis := (sat16 r.dis n).1, saturated := r.saturated || (sat16 r.dis n).2 }) s)

/-- Judge the buffer full: a frame-aligned circuit advances P step by step, a SLIP_DISCARD each, until the highest frame
lies inside the window; a through-timed one restarts and keeps, of the arriving frames `fresh`, the first that found no room
and those after it (R122, R124). CIRCUIT_SLIP comes with the first step (R130). -/
def judgeFull (i : Nat) (fresh : List (Int × List Byte)) (s : State) : State :=
  match tget s.circuits i with
  | none => s
  | some c =>
    match c.held.getLast? with
    | none => s
    | some (top, _) =>
      let base := if c.playing then c.p else match c.held with | (a, _) :: _ => a | [] => c.p
      if top < base + c.cfg.c then s
      else if c.cfg.timing ≠ 0 then circuitRestart i 2 (fresh.filter fun e => decide (base + c.cfg.c ≤ e.1)) s
      else
        let p := top - c.cfg.c + 1
        let n := (p - base).toNat
        let s := modCircuit i (fun c => { c with p := p, held := c.held.filter fun e => decide (p ≤ e.1) }) s
        slipDiscard i (n - 1) (noteSlip i (slipDiscard i 1 s))

/-- The recovered clock of a through-timed circuit as found, clamped to +-50 ppm; RECOVERY_CLAMP is raised when the clamping
begins (R118). -/
def takeRate (i : Nat) (raw : Int) (s : State) : State :=
  match tget s.circuits i with
  | none => s
  | some c =>
    let out := decide (raw < -50000) || decide (50000 < raw)
    let s := modCircuit i (fun c => { c with
      rate := max (-50000) (min 50000 raw), clamped := out, clampTide := c.clampTide || out }) s
    if out && !c.clamped then
      raise 5 5 (unitOf 36 12) (pay [(handle 0x50 i, 4), (Config.clampSign (decide (raw < 0)) % 256, 1)]) s
    else s

/-- The tides in which the recovered clock was clamped are counted (R118). -/
def clampCount (i : Nat) (s : State) : State :=
  match tget s.circuits i with
  | none => s
  | some c =>
    if !c.clampTide then s
    else circuitCount i 15 1 (modCircuit i (fun c => { c with clampTide := c.clamped }) s)

/-- Begin playout where the start condition holds (R122). While LOPS stands this clears it, and on clearing it restarts the
buffer, whose cause is a free value since Table 4-8 has none for it (R125). -/
def judgeStart (i : Nat) (s : State) : State :=
  match tget s.circuits i with
  | none => s
  | some c =>
    match c.held with
    | [] => s
    | (a, _) :: _ =>
      if c.playing || decide (heldRun c.held < c.cfg.f) then s
      else
        let s := modCircuit i (fun c => { c with playing := true, p := a, lops := false }) s
        if c.lops then
          circuitRestart i (freeVal s % 256) [] (raise 5 2 (unitOf 36 12) (pay [(handle 0x50 i, 4)]) s.took)
        else s

/-- The extended sequence number of a received 16-bit number: within [e - 32,768, e + 32,768) (R121). -/
def extendSeq (e : Int) (seq : Nat) : Int := e - 32768 + ((seq : Int) - (e - 32768)) % 65536

/-- Split a payload into frames of k bytes. -/
def splitFrames (k : Nat) : Nat → List Byte → List (List Byte)
  | 0, _ => []
  | n + 1, bs => bs.take k :: splitFrames k n (bs.drop k)

/-- Differential timing recovers the clock from the timestamps of two accepted packets (R118). -/
def takeStamp (i : Nat) (pos : Int) (stamp : Nat) (s : State) : State :=
  match tget s.circuits i with
  | none => s
  | some c =>
    let s := modCircuit i (fun c => { c with rtpLast := some (pos, stamp) }) s
    match c.rtpLast with
    | some (p, w) => if p < pos then takeRate i (Config.recoverDiff c.rate (pos - p).toNat ((stamp + 2 ^ 32 - w) % 2 ^ 32)) s else s
    | none => s

/-- Take a pseudowire packet, from its control word on, into the playout buffer, without judging it full (R121): the
arriving frames and the state. The first packet after an enable is taken at its own number with nothing lost, and a packet
all of whose frames are held already counts in RX_LATE and RX_PACKETS (DESIGN CHOICE, notes/assumptions/104). -/
def pwAccept (i : Nat) (pkt : List Byte) (s : State) : List (Int × List Byte) × State :=
  match tget s.circuits i with
  | none => ([], s)
  | some c =>
    if !c.enabled || c.bound == 0 then ([], circuitCount i 8 1 s)
    else
      let cw := beNat (pkt.take 4)
      let len := bits cw 21 16
      let pkt := if len = 0 then pkt else pkt.take len
      let hdr := 4 + if c.cfg.rtp then 12 else 0
      let payload := pkt.drop hdr
      let k := frameBytes c.cfg
      let l := bit cw 27
      let malformed := decide (pkt.length < hdr) || bits cw 31 28 != 0 || bits cw 23 22 != 0
        || !(payload.length == k * c.cfg.n || (l && payload.isEmpty))
      if malformed then
        ([], circuitCount i 5 1 (modRec i (fun r => { r with
          malformed := (sat16 r.malformed 1).1, saturated := r.saturated || (sat16 r.malformed 1).2 }) s))
      else
        let seq := cw % 65536
        let ext : Int := match c.exp with | some e => extendSeq e seq | none => (seq : Int)
        let lost := match c.exp with | some e => (ext - e).toNat | none => 0
        let exp : Int := match c.exp with | some e => max e (ext + 1) | none => ext + 1
        let pos : Int := ext * c.cfg.n
        let frames := if l then List.replicate c.cfg.n (List.replicate k 0xFF#8) else splitFrames k c.cfg.n payload
        let placed := (frames.zipIdx).map fun (f, j) => (pos + (j : Int), f)
        let s := modRec i (fun r => { r with lost := min (2 ^ 32 - 1) (r.lost + lost), saturated := r.saturated || decide (2 ^ 32 ≤ r.lost + lost) }) s
        let s := circuitCount i 3 lost (modCircuit i (fun c => { c with exp := some exp }) s)
        let late (s : State) := circuitCount i 4 1 (modRec i (fun r => { r with
          late := (sat16 r.late 1).1, saturated := r.saturated || (sat16 r.late 1).2 }) s)
        let live := placed.filter fun e => !c.playing || decide (c.p ≤ e.1)
        if live.isEmpty then ([], late s)
        else
          let dup := live.any fun e => heldHas c.held e.1
          let fresh := live.filter fun e => !heldHas c.held e.1
          let s := modCircuit i (fun c => { c with
            held := fresh.foldl (fun h e => heldInsert h e.1 e.2) c.held, quiet := 0, heard := elapsed s, lLast := l,
            cur := { c.cur with l := c.cur.l || l, r := c.cur.r || bit cw 26 } }) s
          let s := if dup then late s else s
          let s := if c.cfg.timing = 1 then takeStamp i pos (beNat ((pkt.drop 8).take 4)) s else s
          let s := circuitCount i 2 1 s
          let s := circuitCount i 6 (b2n l) s
          (fresh, circuitCount i 7 (b2n (bit cw 26)) s)

/-- An E1 frame as handed to the mapper: CESoPSN places its timeslots, generates TS0 and fills the rest with the idle
byte (R112, R126). -/
def e1Frame (c : Circuit) (f : List Byte) : List Byte :=
  if !c.cfg.cesop then f
  else
    let idle := BitVec.ofNat 8 c.cfg.idle
    let ts (t : Nat) : Byte :=
      if t = 0 then (if c.nfas then 0xDF#8 else 0x9B#8)
      else if bit c.cfg.slots t then f.getD (popCount c.cfg.slots t) idle
      else idle
    (List.range 32).map ts

/-- Hand an E1 frame to the mappers of the VC-12s that a circuit transmits to, with the justification that the recovered
clock steers (R110, R112, R118). -/
def handE1 (i : Nat) (f : List Byte) (s : State) : State :=
  match tget s.circuits i with
  | none => s
  | some c =>
    let ph := if c.cfg.timing = 0 then 0 else c.phase + 256 * c.rate
    let just : Int := if 10 ^ 9 ≤ ph then 1 else if ph ≤ -10 ^ 9 then -1 else 0
    let e := e1Frame c f
    let s := (circuitTargets s c).foldl (fun s h =>
      { s with tr := { s.tr with paths := tmodify s.tr.paths (hIdx h) fun x => { x with e1 := e, just := just } } }) s
    modCircuit i (fun c => { c with nfas := !c.nfas, phase := ph - just * 10 ^ 9 }) s

/-- Play one frame out at a playout instant (R109, R119, R122, R124, R125, R129). -/
def playOne (i : Nat) (s : State) : State :=
  match tget s.circuits i with
  | none => s
  | some c =>
    let idleF := List.replicate (frameBytes c.cfg) (BitVec.ofNat 8 c.cfg.idle)
    let idleCount (s : State) : State := circuitCount i 9 1 (modRec i (fun r => { r with
      idle := (sat16 r.idle 1).1, saturated := r.saturated || (sat16 r.idle 1).2 }) s)
    if c.bound = 0 ∨ fenced s 36 then s
    else if !c.enabled then handE1 i idleF s
    else
      let fill := min c.held.length c.cfg.c
      let s := modCircuit i (fun c => { c with
        quiet := c.quiet + 1, cur := { c.cur with low := min c.cur.low fill, high := max c.cur.high fill } }) s
      let s := if c.cfg.timing = 2 then takeRate i (Config.recoverAdapt c.rate fill) s else s
      if !c.playing then idleCount (handE1 i idleF s)
      else match c.held with
        | [] =>
          if c.cfg.timing = 0 then
            let s := handE1 i (c.last.getD idleF) s
            let s := modRec i (fun r => { r with rep := (sat16 r.rep 1).1, saturated := r.saturated || (sat16 r.rep 1).2 }) s
            noteSlip i (circuitCount i 10 1 s)
          else circuitRestart i 1 [] (idleCount (handE1 i idleF s))
        | (a, f) :: r =>
          if a = c.p then handE1 i f (modCircuit i (fun c => { c with held := r, p := c.p + 1, last := some f }) s)
          else idleCount (handE1 i idleF (modCircuit i (fun c => { c with p := c.p + 1 }) s))

/-- The pseudowire packet that reaches a circuit next, and the state without it (R113). -/
def nextPw (i : Nat) (s : State) : Option (List Byte) × State :=
  match s.fwd.toCkt.find? fun e => e.1 == i with
  | some e => (some e.2, modFwd (fun w => { w with toCkt := w.toCkt.erase e }) s)
  | none => (none, s)

/-- A playout instant, with a packet that completes in the same clock as one step: the buffer is judged empty with its frames
and full after the played-out frame has left (R123). -/
def playStep (i : Nat) (pkt : Option (List Byte)) (s : State) : State :=
  let s := match pkt with
    | some b =>
      let r := pwAccept i b s
      judgeStart i (judgeFull i r.1 (playOne i (judgeStart i r.2)))
    | none => playOne i s
  modCircuit i (fun c => { c with played := true }) s

/-- Whether the frame of the running tide of a frame-aligned circuit is still to be played (R119). -/
def playDue (s : State) (i : Nat) : Bool :=
  match tget s.circuits i with
  | some c => c.cfg.timing == 0 && !c.played
  | none => false

/-- Whether it is the first clock of the tide in domain 36, whose core clock is 1.2 GHz (R25, R119). -/
def firstClock (s : State) : Bool := decide (coreClocks s.tm.sub = 0)

/-- Whether a circuit is timed through: its recovered clock gives its playout instants (R118, R119). -/
def throughTimed (s : State) (i : Nat) : Bool :=
  match tget s.circuits i with
  | some c => c.cfg.timing != 0
  | none => false

/-- PSEUDOWIRE_RECEIVED: the oldest pseudowire packet that a termination has handed to a circuit reaches it (R113, R121,
R122). In the first clock of a tide its arrival and the playout of a frame-aligned circuit are one step, after it the
tide's frame has left before; with `instant`, a playout instant of a through-timed circuit is in the same clock (R119,
R123). -/
def execPseudowireReceived (t circuit : Nat) (instant : Bool) (s : State) : Host.Outcome State Fault Refusal :=
  let s := s.atTime t
  if fenced s 36 then .next s
  else match nextPw circuit s with
    | (none, _) => .next s
    | (some pkt, s) =>
      if (playDue s circuit && firstClock s) || (instant && throughTimed s circuit) then .next (playStep circuit (some pkt) s)
      else
        let s := if playDue s circuit then playStep circuit none s else s
        let r := pwAccept circuit pkt s
        .next (judgeStart circuit (judgeFull circuit r.1 r.2))

/-- CIRCUIT_PLAYOUT: a playout instant of a circuit, `arrival` whether a packet completes in the same clock. A frame-aligned
circuit has one, in the first clock of each tide (R119, R122, R123). -/
def execCircuitPlayout (t circuit : Nat) (arrival : Bool) (s : State) : Host.Outcome State Fault Refusal :=
  let s := s.atTime t
  match if fenced s 36 then none else tget s.circuits circuit with
  | none => .next s
  | some c =>
    if c.cfg.timing = 0 ∧ (c.played ∨ !firstClock s) then .next s
    else if arrival then .next (playStep circuit (nextPw circuit s).1 (nextPw circuit s).2)
    else .next (playStep circuit none s)

/-- Whether no packet has been accepted for the LOPS threshold: playout instants, or in through-timed modes frame periods of
125 us (R125). -/
def lopsDue (s : State) (c : Circuit) : Bool :=
  if c.cfg.timing = 0 then decide (c.cfg.lopsThr ≤ c.quiet) else decide (c.heard + c.cfg.lopsThr * tideU ≤ elapsed s)

/-- LOPS_SET: no packet has been accepted for the LOPS threshold; LOPS is declared (R125). -/
def execLopsSet (t circuit : Nat) (s : State) : Host.Outcome State Fault Refusal :=
  let s := s.atTime t
  match if fenced s 36 then none else tget s.circuits circuit with
  | some c =>
    .next (if c.enabled && c.bound != 0 && !c.lops && lopsDue s c then
        raise 5 1 (unitOf 36 12) (pay [(handle 0x50 circuit, 4)])
          (modCircuit circuit (fun c => { c with lops := true, playing := false, cur := { c.cur with lops := true } }) s)
      else s)
  | none => .next s

end Sys2Proof.Machine
end

