-- ==== Sys2Proof/Machine/Tables.lean ====
section
/-! DEFINITION. Commands of area 0x07: Dill, Sorrel, Sage and action records (spec/06_table_engines.md). -/

namespace Sys2Proof.Machine

open Sys2Proof

/-- The object that a command names by the handle in request word 0 (Table 16-7). -/
def objHead (q : List Word) : List (List Nat) := [[wd q 0]]

/-- The handle of an action record in request word i, as an index; none where it is no action record (R163). -/
def actionIn (x : Ctx) (q : List Word) (i : Nat) (s : State) : Option Nat :=
  if hType (wd q i) = 0x70 ∧ x.knows s (wd q i) then some (hIdx (wd q i)) else none

/-! ### Dill -/

/-- The key in request words i to i + 4, byte 0 most significant (Table 6-5). -/
def dillKey (q : List Word) (i : Nat) : Nat := beNat (wordBytes ((List.range 5).map fun j => toWord (wd q (i + j))))

/-- The Dill table of a handle. -/
def dillTab (s : State) (h : Nat) : Option (Nat × DillTab) :=
  if hType h = 0x71 then (tget s.tab.dill (hIdx h)).map fun t => (hIdx h, t) else none

/-- The conflict object of a Dill entry (Table 16-7). -/
def dillObj (q : List Word) : List (List Nat) := [[0x71, hIdx (wd q 0), dillKey q 1]]

/-- Whether a key is present for a command being staged: the current table and the transaction's earlier operations
(R177). -/
def stagedPresent (x : Ctx) (s : State) (h key : Nat) (now : Bool) : Bool :=
  match txnSlot s x.txn with
  | some (_, t) => t.ops.foldl (fun p o =>
      if wd o.q 0 = h ∧ dillKey o.q 1 = key then
        if o.op = 0x0702 ∨ o.op = 0x0703 then true else if o.op = 0x0704 then false else p
      else p) now
  | none => now

/-- Run f on the Dill table of request word 0. -/
def withDill (q : List Word) (s : State) (f : Nat → DillTab → Res) : Res :=
  match dillTab s (wd q 0) with
  | some (t, tb) => f t tb
  | none => fail stBadHandle s

/-- Write a new version of a Dill entry: a direct change, or under the new epoch of the preparing transaction (R176). -/
def dillChange (x : Ctx) (v : Option DillVal) (p : Place) (e : DillEntry) (s : State) : State :=
  let w := if x.pre then e.v.push x.txn v else e.v.direct v
  let s := placeHeal p s
  if w.free then dillFree p s else dillPut p { e with v := w } s

/-- Own meaning of DILL.TABLE_CREATE (R169): the lowest free aligned range. -/
def actDillTableCreate : Act := fun _ q s =>
  let i := fld q 0 7 0
  let k := fld q 0 12 8
  if k < 4 ∨ 23 < k ∨ thas s.tab.dill i then fail stNotPermitted s
  else
    match (List.range (bucketsMax s.fwd.profile / 2 ^ k)).find? fun j =>
        s.tab.dill.all fun e => decide (j * 2 ^ k + 2 ^ k ≤ e.2.base) || decide (e.2.base + 2 ^ e.2.k ≤ j * 2 ^ k) with
    | none => fail stResourceShort s
    | some j =>
      reply [toWord (handle 0x71 i), toWord (j * 2 ^ k)]
        (modTab (fun t => { t with dill := tset t.dill i { k := k, base := j * 2 ^ k, seed := toWord (wd q 1) } }) s)

def cmdDillTableCreate : Cmd := { op := 0x0701, need := fun _ => 2, act := actDillTableCreate }

/-- DILL.TABLE_CREATE (R169). -/
def execDillTableCreate (c : Call) (q : List Word) (s : State) : Host.Outcome State Fault Refusal :=
  .next (runCommand cmdDillTableCreate c q s)

/-- Own meaning of DILL.INSERT (R171, R176, R177, R586). -/
def actDillInsert : Act := fun x q s =>
  withDill q s fun t tb =>
    let key := dillKey q 1
    let b := bucketOf tb key
    match actionIn x q 6 s with
    | none => fail stBadHandle s
    | some a =>
      let v : DillVal := { act := a, cookie := toWord (wd q 8), static := flag q 7 0 }
      let at? := dillAt s t tb key
      let now := match at? with | some (_, e) => (e.v.seen true).isSome | none => false
      match x.ph with
      | .stage =>
        if stagedPresent x s (wd q 0) key now then fail stDuplicateKey s
        else reply (match at?.map Prod.fst <|> dillPlace s t b with
          | some p => placeWords p b
          | none => [toWord (2 ^ 30), 0#32]) s
      | .commit =>
        if !x.pre then done s
        else
          match at? with
          | some (p, e) =>
            match e.v.val with
            | some old => if old.learned && !old.static then done (dillChange x (some v) p e s) else fail stDuplicateKey s
            | none => done (dillChange x (some v) p e s)
          | none =>
            match dillPlace s t b with
            | some p => done (dillNew p t b { key := key, v := ⟨some v, [(x.txn, none)]⟩ } (placeHeal p s))
            | none => fail stTableFull s
      | .direct =>
        match at? with
        | some _ => fail stDuplicateKey s
        | none =>
          match dillPlace s t b with
          | some p => reply (placeWords p b) (dillNew p t b { key := key, v := ⟨some v, []⟩ } (placeHeal p s))
          | none => fail stTableFull s

/-- A direct DILL.INSERT waits while a commit has deleted the key and its retirement is due (R586). -/
def holdDillInsert (q : List Word) (s : State) : Bool :=
  match dillTab s (wd q 0) with
  | some (t, tb) => match dillAt s t tb (dillKey q 1) with
    | some (_, e) => e.v.dead
    | none => false
  | none => false

def cmdDillInsert : Cmd :=
  { op := 0x0702, staging := .may, need := fun _ => 9, objs := dillObj, refs := fun q => [wd q 0, wd q 6]
    hold := holdDillInsert, act := actDillInsert }

/-- DILL.INSERT (R171). -/
def execDillInsert (c : Call) (q : List Word) (s : State) : Host.Outcome State Fault Refusal :=
  .next (runCommand cmdDillInsert c q s)

/-- Change the entry of a key for DILL.MODIFY and DILL.DELETE (R176, R177). -/
def dillUpdate (x : Ctx) (q : List Word) (s : State) (f : DillVal → Option DillVal) : Res :=
  withDill q s fun t tb =>
    let key := dillKey q 1
    let at? := dillAt s t tb key
    match x.ph with
    | .stage =>
      let now := match at? with | some (_, e) => (e.v.seen true).isSome | none => false
      if stagedPresent x s (wd q 0) key now then done s else fail stNotFound s
    | .commit =>
      if !x.pre then done s
      else match at? with
        | some (p, e) => match e.v.val with
          | some v => done (dillChange x (f v) p e s)
          | none => fail stNotFound s
        | none => fail stNotFound s
    | .direct =>
      match at? with
      | some (p, e) => match e.v.seen true with
        | some v => done (dillChange x (f v) p e s)
        | none => fail stNotFound s
      | none => fail stNotFound s

/-- Own meaning of DILL.MODIFY: words 6 and 7 and the static bit (R176). -/
def actDillModify : Act := fun x q s =>
  match actionIn x q 6 s with
  | none => fail stBadHandle s
  | some a => dillUpdate x q s fun v => some { v with act := a, cookie := toWord (wd q 8), static := flag q 7 0 }

def cmdDillModify : Cmd :=
  { op := 0x0703, staging := .may, need := fun _ => 9, objs := dillObj, refs := fun q => [wd q 0, wd q 6], act := actDillModify }

/-- DILL.MODIFY (R176). -/
def execDillModify (c : Call) (q : List Word) (s : State) : Host.Outcome State Fault Refusal :=
  .next (runCommand cmdDillModify c q s)

/-- Own meaning of DILL.DELETE (R171, R176). -/
def actDillDelete : Act := fun x q s => dillUpdate x q s fun _ => none

def cmdDillDelete : Cmd :=
  { op := 0x0704, staging := .may, need := fun _ => 6, objs := dillObj, refs := fun q => [wd q 0], act := actDillDelete }

/-- DILL.DELETE (R171). -/
def execDillDelete (c : Call) (q : List Word) (s : State) : Host.Outcome State Fault Refusal :=
  .next (runCommand cmdDillDelete c q s)

/-- Whether a lookup program or a learn profile names a Dill table (Table 6-6, R194). -/
def dillNamed (s : State) (t : Nat) : Bool :=
  (s.fwd.cfg.progs.any fun e =>
    (match e.2.dill1 with | some (x, _) => x == t | none => false)
      || match e.2.dill2 with | some (x, _) => x == t | none => false)
    || s.learn.profs.any fun e => e.2.table == t

/-- Own meaning of DILL.TABLE_DELETE: every entry and overflow entry is freed. -/
def actDillTableDelete : Act := fun _ q s =>
  withDill q s fun t _ =>
    if dillNamed s t || stagedRef s (wd q 0) then fail stNotPermitted s
    else
      let s := { s with learn := { s.learn with slots := s.learn.slots.filter fun m => m.table != t } }
      done (overCheck (modTab (fun st => { st with
      dill := terase st.dill t
      buckets := st.buckets.filter fun e => e.1 / 4 / 2 ^ 23 != t
      ovf := st.ovf.filter fun e => e.2.1 != t
      held := st.held.filter fun h => h.table != t }) s))

def cmdDillTableDelete : Cmd := { op := 0x0705, need := fun _ => 1, objs := objHead, act := actDillTableDelete }

/-- DILL.TABLE_DELETE (R454). -/
def execDillTableDelete (c : Call) (q : List Word) (s : State) : Host.Outcome State Fault Refusal :=
  .next (runCommand cmdDillTableDelete c q s)

/-- Own meaning of DILL.STATUS. -/
def actDillStatus : Act := fun _ q s =>
  withDill q s fun t tb =>
    reply [toWord (s.tab.buckets.filter fun e => e.1 / 4 / 2 ^ 23 == t).length,
      toWord (s.tab.ovf.filter fun e => e.2.1 == t).length, toWord (overFree s % 65536), toWord tb.failed.length] s

def cmdDillStatus : Cmd := { op := 0x0706, reading := true, need := fun _ => 1, act := actDillStatus }

/-- DILL.STATUS (R172). -/
def execDillStatus (c : Call) (q : List Word) (s : State) : Host.Outcome State Fault Refusal :=
  .next (runCommand cmdDillStatus c q s)

/-! ### Sorrel -/

/-- Family and prefix length in request word 0 are in range (R167). -/
def routeOk (q : List Word) : Bool := decide (fld q 0 31 24 ≤ if flag q 0 16 then 128 else 32)

/-- The address in request words 1 to 4: bits [127:96] in word 1, IPv4 in word 1 only (Table 6-6). -/
def routeAddr (q : List Word) : Nat :=
  if flag q 0 16 then ((wd q 1 * 2 ^ 32 + wd q 2) * 2 ^ 32 + wd q 3) * 2 ^ 32 + wd q 4 else wd q 1

/-- The route that request words 0 to 4 identify (R167). -/
def routeIn (q : List Word) : Nat := routeKey (fld q 0 15 0) (flag q 0 16) (fld q 0 31 24) (routeAddr q)

/-- The conflict object of a route (Table 16-7). -/
def routeObj (q : List Word) : List (List Nat) := [[0x72, routeIn q]]

/-- Write a new version of a route (R168). -/
def routeChange (x : Ctx) (k : Nat) (v : Option Nat) (s : State) : State :=
  let l := tgetD s.tab.routes k ⟨none, []⟩
  let w := if x.pre then l.push x.txn v else l.direct v
  sorrelCheck (modTab (fun t => { t with routes := if w.free then terase t.routes k else tset t.routes k w }) s)

/-- The version of a route that a command judges: the newest while a commit prepares, the visible one otherwise. -/
def routeNow (x : Ctx) (k : Nat) (s : State) : Option Nat :=
  let l := tgetD s.tab.routes k ⟨none, []⟩
  if x.pre then l.val else l.seen true

/-- Own meaning of SORREL.ADD (R166, R167, R586). -/
def actSorrelAdd : Act := fun x q s =>
  let k := routeIn q
  if !routeOk q then fail stNotPermitted s
  else
    match actionIn x q 5 s with
    | none => fail stBadHandle s
    | some a =>
      if x.ph = .stage ∨ (x.ph = .commit ∧ !x.pre) then done s
      else if (routeNow x k s).isSome ∨ (!x.pre ∧ (tgetD s.tab.routes k ⟨none, []⟩).staged) then fail stDuplicateKey s
      else if !thas s.tab.routes k ∧ unitsMax s < unitsUsed s + routeUnits k then fail stTableFull s
      else done (routeChange x k (some a) s)

/-- A direct SORREL.ADD waits while a commit has deleted the route and its retirement is due (R586). -/
def holdSorrelAdd (q : List Word) (s : State) : Bool :=
  match tget s.tab.routes (routeIn q) with
  | some l => l.dead
  | none => false

def cmdSorrelAdd : Cmd :=
  { op := 0x0710, staging := .may, need := fun _ => 6, objs := routeObj, refs := fun q => [wd q 5]
    hold := holdSorrelAdd, act := actSorrelAdd }

/-- SORREL.ADD (R167). -/
def execSorrelAdd (c : Call) (q : List Word) (s : State) : Host.Outcome State Fault Refusal :=
  .next (runCommand cmdSorrelAdd c q s)

/-- Own meaning of SORREL.SET (R167). -/
def actSorrelSet : Act := fun x q s =>
  let k := routeIn q
  if !routeOk q then fail stNotPermitted s
  else
    match actionIn x q 5 s with
    | none => fail stBadHandle s
    | some a =>
      if x.ph = .stage ∨ (x.ph = .commit ∧ !x.pre) then done s
      else if (routeNow x k s).isNone then fail stNotFound s
      else done (routeChange x k (some a) s)

def cmdSorrelSet : Cmd :=
  { op := 0x0711, staging := .may, need := fun _ => 6, objs := routeObj, refs := fun q => [wd q 5], act := actSorrelSet }

/-- SORREL.SET (R167). -/
def execSorrelSet (c : Call) (q : List Word) (s : State) : Host.Outcome State Fault Refusal :=
  .next (runCommand cmdSorrelSet c q s)

/-- Own meaning of SORREL.DELETE (R167). -/
def actSorrelDelete : Act := fun x q s =>
  let k := routeIn q
  if !routeOk q then fail stNotPermitted s
  else if x.ph = .stage ∨ (x.ph = .commit ∧ !x.pre) then done s
  else if (routeNow x k s).isNone then fail stNotFound s
  else done (routeChange x k none s)

def cmdSorrelDelete : Cmd :=
  { op := 0x0712, staging := .may, need := fun _ => 5, objs := routeObj, act := actSorrelDelete }

/-- SORREL.DELETE (R167). -/
def execSorrelDelete (c : Call) (q : List Word) (s : State) : Host.Outcome State Fault Refusal :=
  .next (runCommand cmdSorrelDelete c q s)

/-- Own meaning of SORREL.GET. -/
def actSorrelGet : Act := fun x q s =>
  if !routeOk q then fail stNotPermitted s
  else match routeNow x (routeIn q) s with
    | some a => reply [toWord (handle 0x70 a)] s
    | none => fail stNotFound s

def cmdSorrelGet : Cmd := { op := 0x0713, reading := true, need := fun _ => 5, act := actSorrelGet }

/-- SORREL.GET (R167). -/
def execSorrelGet (c : Call) (q : List Word) (s : State) : Host.Outcome State Fault Refusal :=
  .next (runCommand cmdSorrelGet c q s)

/-- Own meaning of SORREL.MATCH: the longest match of the current epoch (R164). -/
def actSorrelMatch : Act := fun _ q s =>
  match sorrelFind s true (fld q 0 15 0) (flag q 0 16) (routeAddr q) with
  | some (l, a) => reply [toWord (l + 2 ^ 31), toWord (handle 0x70 a)] s
  | none => reply [0#32, 0#32] s

def cmdSorrelMatch : Cmd := { op := 0x0714, reading := true, need := fun _ => 5, act := actSorrelMatch }

/-- SORREL.MATCH (R164). -/
def execSorrelMatch (c : Call) (q : List Word) (s : State) : Host.Outcome State Fault Refusal :=
  .next (runCommand cmdSorrelMatch c q s)

/-- Own meaning of SORREL.STATUS (R166). -/
def actSorrelStatus : Act := fun _ _ s =>
  let live := s.tab.routes.filter fun e => (e.2.seen true).isSome
  reply [toWord (unitsUsed s), toWord (unitsMax s), toWord (live.filter fun e => !routeSix e.1).length,
    toWord (live.filter fun e => routeSix e.1).length] s

def cmdSorrelStatus : Cmd := { op := 0x0715, reading := true, act := actSorrelStatus }

/-- SORREL.STATUS (R166). -/
def execSorrelStatus (c : Call) (q : List Word) (s : State) : Host.Outcome State Fault Refusal :=
  .next (runCommand cmdSorrelStatus c q s)

/-! ### Sage -/

/-- Whether a new group keeps the rules of R179 and R185. -/
def groupOk (s : State) (g : SageGroup) : Bool :=
  decide (g.width ≤ 2) && decide (1 ≤ g.count) && decide (g.count ≤ 16) && decide (g.first + g.count ≤ 16)
    && decide (3 ≤ g.logH) && decide (g.logH ≤ 8)
    && decide (g.first % 2 ^ g.width = 0) && decide (g.count % 2 ^ g.width = 0)
    && (s.tab.groups.all fun e => decide (g.first + g.count ≤ e.2.first) || decide (e.2.first + e.2.count ≤ g.first))
    && (s.fwd.profile != 2 || decide (g.first + g.count ≤ 8))

/-- Own meaning of SAGE.GROUP_CREATE (R179, R182). -/
def actSageGroupCreate : Act := fun _ q s =>
  let g : SageGroup := { first := fld q 0 3 0, count := fld q 0 8 4, width := fld q 0 10 9, logH := fld q 0 14 11 }
  match lowestFree s.tab.groups 16 with
  | some i =>
    if groupOk s g then
      reply [toWord (handle 0x72 i), toWord g.size, toWord g.usable]
        (modTab (fun t => { t with groups := tset t.groups i g }) s)
    else fail stNotPermitted s
  | none => fail stNotPermitted s

def cmdSageGroupCreate : Cmd := { op := 0x0720, need := fun _ => 1, act := actSageGroupCreate }

/-- SAGE.GROUP_CREATE (R179). -/
def execSageGroupCreate (c : Call) (q : List Word) (s : State) : Host.Outcome State Fault Refusal :=
  .next (runCommand cmdSageGroupCreate c q s)

/-- The Sage group of a handle. -/
def sageGroup (s : State) (h : Nat) : Option (Nat × SageGroup) :=
  if hType h = 0x72 then (tget s.tab.groups (hIdx h)).map fun g => (hIdx h, g) else none

/-- Own meaning of SAGE.GROUP_DELETE: with its entries. -/
def actSageGroupDelete : Act := fun _ q s =>
  match sageGroup s (wd q 0) with
  | none => fail stBadHandle s
  | some (i, _) =>
    if groupNamed s i || (s.fwd.profile == 2 && i == 15) || stagedRef s (wd q 0) then fail stNotPermitted s
    else done (modTab (fun t => { t with
      groups := terase t.groups i, sage := t.sage.filter fun e => e.2.grp != i }) s)

def cmdSageGroupDelete : Cmd := { op := 0x0721, need := fun _ => 1, objs := objHead, act := actSageGroupDelete }

/-- SAGE.GROUP_DELETE (R179). -/
def execSageGroupDelete (c : Call) (q : List Word) (s : State) : Host.Outcome State Fault Refusal :=
  .next (runCommand cmdSageGroupDelete c q s)

/-- A value or mask of n words from word i, byte 0 least significant (Table 6-6). -/
def sageField (q : List Word) (i n : Nat) : Nat := leNat (wordBytes ((List.range n).map fun j => toWord (wd q (i + j))))

/-- Own meaning of SAGE.INSERT (R181 to R184). -/
def actSageInsert : Act := fun x q s =>
  match sageGroup s (wd q 0) with
  | none => fail stBadHandle s
  | some (gi, g) =>
    if q.length < 3 + 2 * g.words then fail stBadLength s
    else
      match actionIn x q 2 s with
      | none => fail stBadHandle s
      | some a =>
        match newIdx x 0x73 s.tab.sage 262144 s with
        | none => fail stResourceShort s
        | some i =>
          if x.ph = .commit ∧ !x.pre then done s
          else
            let mask := sageField q (3 + g.words) g.words
            let e : SageEntry := { grp := gi, pos := 0, prio := wd q 1, value := Nat.land (sageField q 3 g.words) mask
                                   mask := mask, v := ⟨some a, if x.pre then [(x.txn, none)] else []⟩ }
            match occPlace (sageOcc s gi) (2 ^ g.logH) (g.size / 2 ^ g.logH) (wd q 1) with
            | none =>
              if x.ph = .stage then ⟨stOk, [toWord (handle 0x73 i), 0#32, 0#32, 0#32], s, handle 0x73 i⟩
              else fail stTableFull s
            | some p =>
              let resp := [toWord (handle 0x73 i), toWord (g.addr p.pos), toWord (p.moves + p.borrowed * 2 ^ 16),
                toWord p.spread]
              if x.ph = .stage then ⟨stOk, resp, s, handle 0x73 i⟩
              else
                let s := tabCount 11 (p.moves + p.borrowed + p.spread) (sageMoveTo p.occ s)
                ⟨stOk, resp, modTab (fun t => { t with sage := tset t.sage i { e with pos := p.pos } }) s, handle 0x73 i⟩

def cmdSageInsert : Cmd :=
  { op := 0x0722, staging := .may, need := fun _ => 3, refs := fun q => [wd q 0, wd q 2], act := actSageInsert }

/-- SAGE.INSERT (R182). -/
def execSageInsert (c : Call) (q : List Word) (s : State) : Host.Outcome State Fault Refusal :=
  .next (runCommand cmdSageInsert c q s)

/-- The Sage entry of a handle. -/
def sageEntry (s : State) (h : Nat) : Option (Nat × SageEntry) :=
  if hType h = 0x73 then
    match tget s.tab.sage (hIdx h) with
    | some e => some (hIdx h, e)
    | none => none
  else none

/-- Write a new version of a Sage entry (R184, R190). -/
def sageChange (x : Ctx) (i : Nat) (e : SageEntry) (v : Option Nat) (s : State) : State :=
  let w := if x.pre then e.v.push x.txn v else e.v.direct v
  modTab (fun t => { t with sage := if w.free then terase t.sage i else tset t.sage i { e with v := w } }) s

/-- Change the Sage entry that request word 0 names. -/
def sageUpdate (x : Ctx) (q : List Word) (s : State) (v : Option Nat) : Res :=
  if x.ph = .stage then (if hType (wd q 0) = 0x73 ∧ x.knows s (wd q 0) then done s else fail stBadHandle s)
  else if x.ph = .commit ∧ !x.pre then done s
  else
    match sageEntry s (wd q 0) with
    | none => fail stBadHandle s
    | some (i, e) =>
      if (if x.pre then e.v.val else e.v.seen true).isNone then fail stBadHandle s else done (sageChange x i e v s)

/-- Own meaning of SAGE.MODIFY (R181). -/
def actSageModify : Act := fun x q s =>
  match actionIn x q 1 s with
  | none => fail stBadHandle s
  | some a => sageUpdate x q s (some a)

def cmdSageModify : Cmd :=
  { op := 0x0723, staging := .may, need := fun _ => 2, objs := objHead, refs := fun q => [wd q 0, wd q 1], act := actSageModify }

/-- SAGE.MODIFY (R181). -/
def execSageModify (c : Call) (q : List Word) (s : State) : Host.Outcome State Fault Refusal :=
  .next (runCommand cmdSageModify c q s)

/-- Own meaning of SAGE.DELETE (R184, R190). -/
def actSageDelete : Act := fun x q s => sageUpdate x q s none

def cmdSageDelete : Cmd :=
  { op := 0x0724, staging := .may, need := fun _ => 1, objs := objHead, refs := fun q => [wd q 0], act := actSageDelete }

/-- SAGE.DELETE (R190). -/
def execSageDelete (c : Call) (q : List Word) (s : State) : Host.Outcome State Fault Refusal :=
  .next (runCommand cmdSageDelete c q s)

/-- Own meaning of SAGE.READ. -/
def actSageRead : Act := fun _ q s =>
  match sageEntry s (wd q 0) with
  | none => fail stBadHandle s
  | some (_, e) =>
    match e.v.seen true, tget s.tab.groups e.grp with
    | some a, some g =>
      let (v1, v0) := e.v.vis s.fwd.epoch
      reply ([toWord e.prio, toWord (g.addr e.pos), toWord (handle 0x70 a), toWord (b2n v1 * 2 + b2n v0)]
        ++ toWords e.value g.words ++ toWords e.mask g.words) s
    | _, _ => fail stBadHandle s

def cmdSageRead : Cmd := { op := 0x0725, reading := true, need := fun _ => 1, act := actSageRead }

/-- SAGE.READ (R181). -/
def execSageRead (c : Call) (q : List Word) (s : State) : Host.Outcome State Fault Refusal :=
  .next (runCommand cmdSageRead c q s)

/-- Own meaning of SAGE.STATUS (R188, R189). -/
def actSageStatus : Act := fun _ q s =>
  match sageGroup s (wd q 0) with
  | none => fail stBadHandle s
  | some (i, g) =>
    let occ := sageOcc s i
    let h := 2 ^ g.logH
    reply [toWord occ.length, toWord g.usable,
      toWord ((List.range (g.size / h)).filter fun j => holesOf occ h j == 1).length,
      toWord (throttle s), toWord (s.tab.step.getD 0 0), toWord (s.tab.step.getD 1 0)] s

def cmdSageStatus : Cmd := { op := 0x0726, reading := true, need := fun _ => 1, act := actSageStatus }

/-- SAGE.STATUS (R188). -/
def execSageStatus (c : Call) (q : List Word) (s : State) : Host.Outcome State Fault Refusal :=
  .next (runCommand cmdSageStatus c q s)

/-! ### Action records -/

/-- The status by which an action record is refused, or OK (Table 5-6). -/
def actionCheck (x : Ctx) (s : State) (a : Action) : Nat :=
  let h := a.target
  if 4 < fld a.w 0 3 0 then stNotPermitted
  else if h = 0 then stOk
  else if !([0x42, 0x50, 0x60, 0x61, 0xB0].contains (hType h) && x.knows s h) then stBadHandle
  else
    match hType h, tget s.tr.groups (hIdx h) with
    | 0x42, some g => if g.ty = 5 then stOk else stNotPermitted
    | _, _ => stOk

/-- Words i to i + 3 of a request as an action record. -/
def actionOf (q : List Word) (i : Nat) : Action := ⟨(List.range 4).map fun j => toWord (wd q (i + j))⟩

/-- Own meaning of ACTION.CREATE (R163). -/
def actActionCreate : Act := fun x q s =>
  let a := actionOf q 0
  let st := actionCheck x s a
  if st ≠ stOk then fail st s
  else
    match newIdx x 0x70 s.fwd.cfg.actions 2097152 s with
    | none => fail stResourceShort s
    | some i =>
      if x.ph = .stage then created (handle 0x70 i) s
      else created (handle 0x70 i) (setCfg (x.ph == .commit) (fun c => { c with actions := tset c.actions i a }) s)

def cmdActionCreate : Cmd :=
  { op := 0x0730, staging := .may, need := fun _ => 4, refs := fun q => [wd q 1], act := actActionCreate }

/-- ACTION.CREATE (R163). -/
def execActionCreate (c : Call) (q : List Word) (s : State) : Host.Outcome State Fault Refusal :=
  .next (runCommand cmdActionCreate c q s)

/-- Own meaning of ACTION.SET: in place, versioned when staged (R163). -/
def actActionSet : Act := fun x q s =>
  let a := actionOf q 1
  if !(hType (wd q 0) = 0x70 ∧ x.knows s (wd q 0)) then fail stBadHandle s
  else
    let st := actionCheck x s a
    if st ≠ stOk then fail st s
    else if x.ph = .stage then done s
    else done (setCfg (x.ph == .commit) (fun c => { c with actions := tset c.actions (hIdx (wd q 0)) a }) s)

def cmdActionSet : Cmd :=
  { op := 0x0731, staging := .may, need := fun _ => 5, objs := objHead, refs := fun q => [wd q 0, wd q 2], act := actActionSet }

/-- ACTION.SET (R163). -/
def execActionSet (c : Call) (q : List Word) (s : State) : Host.Outcome State Fault Refusal :=
  .next (runCommand cmdActionSet c q s)

/-- Own meaning of ACTION.DELETE: refused while referenced (R163, R454). -/
def actActionDelete : Act := fun x q s =>
  if !(hType (wd q 0) = 0x70 ∧ x.knows s (wd q 0)) then fail stBadHandle s
  else if x.ph = .stage then done s
  else if actionNamed s (hIdx (wd q 0)) || (x.ph == .direct && stagedRef s (wd q 0)) then fail stNotPermitted s
  else done (setCfg (x.ph == .commit) (fun c => { c with actions := terase c.actions (hIdx (wd q 0)) }) s)

def cmdActionDelete : Cmd :=
  { op := 0x0732, staging := .may, need := fun _ => 1, objs := objHead, refs := fun q => [wd q 0], act := actActionDelete }

/-- ACTION.DELETE (R163). -/
def execActionDelete (c : Call) (q : List Word) (s : State) : Host.Outcome State Fault Refusal :=
  .next (runCommand cmdActionDelete c q s)

/-- Own meaning of TABLE.COUNTERS: current values, the snapshot flag ignored (R67, R191). -/
def actTableCounters : Act := fun _ _ s => reply (ctrWords s.ctr 0x47 0 (List.range 13)) s

def cmdTableCounters : Cmd := { op := 0x0740, reading := true, need := fun _ => 1, act := actTableCounters }

/-- TABLE.COUNTERS (R191). -/
def execTableCounters (c : Call) (q : List Word) (s : State) : Host.Outcome State Fault Refusal :=
  .next (runCommand cmdTableCounters c q s)

end Sys2Proof.Machine
end

