-- ==== Sys2Proof/Machine/Learn.lean ====
section
/-! DEFINITION. Learning and table upkeep: the commands of area 0x08 and of search, command lists and compare, and the
events of the learn engine and the walkers (spec/07_learning_table_upkeep.md). -/

namespace Sys2Proof.Machine

open Sys2Proof

/-! ### Profiles, domains, ports and programs -/

/-- Buckets of all learn tables together: B of R207, with the profiles given. -/
def learnBuckets (s : State) (profs : Tab LearnProf) : Nat :=
  s.tab.dill.foldl (fun n e => if profs.any fun p => p.2.table == e.1 && decide (1 ≤ p.2.mode) then n + 2 ^ e.2.k else n) 0

/-- Whether a sweep period meets the bounds of R193 and R207 with the profiles given; a profile that no command has set
holds the default aging time of Table 7-1. -/
def sweepOk (s : State) (sw : Nat) (profs : Tab LearnProf) : Bool :=
  decide (learnBuckets s profs ≤ sw * 2000) && (profs.all fun p => decide (p.2.age ≤ 255 * sw))
    && (decide (255 ≤ profs.length) || decide (({} : LearnProf).age ≤ 255 * sw))

/-- Own meaning of LEARN.PROFILE_SET (R193, R207, Table 7-1). -/
def actLearnProfileSet : Act := fun x q s =>
  let i := fld q 0 7 0
  let p : LearnProf :=
    { mode := fld q 0 9 8, notify := flag q 0 10, refresh := flag q 0 11, table := fld q 0 19 12, flap := fld q 0 21 20
      age := wd q 1, limit := fld q 2 7 0, window := fld q 2 24 8, hold := fld q 3 22 0 }
  if i = 0 ∨ p.mode = 3 ∨ p.flap = 3 ∨ (p.age ≠ 0 ∧ p.age < 8000) ∨ p.window = 0 ∨ 80000 < p.window ∨ p.hold = 0
      ∨ 5760000 < p.hold then fail stNotPermitted s
  else if x.ph = .stage then done s
  else
    let old := tgetD s.learn.profs i {}
    if (old.table ≠ p.table ∧ s.learn.doms.any fun e => e.2 == i) ∨ !thas s.tab.dill p.table
        ∨ !sweepOk s s.learn.sweep (tset s.learn.profs i p) then fail stNotPermitted s
    else done (modLearn (fun l => { l with profs := tset l.profs i p }) s)

def cmdLearnProfileSet : Cmd :=
  { op := 0x0801, staging := .may, need := fun _ => 4, act := actLearnProfileSet
    objs := fun q => [[0x0801, fld q 0 7 0]] }

/-- LEARN.PROFILE_SET (R193). -/
def execLearnProfileSet (c : Call) (q : List Word) (s : State) : Host.Outcome State Fault Refusal :=
  .next (runCommand cmdLearnProfileSet c q s)

/-- Own meaning of LEARN.DOMAIN_SET: each domain of the range names the profile. -/
def actLearnDomainSet : Act := fun x q s =>
  let a := fld q 0 19 0
  let n := fld q 1 20 0
  let p := fld q 2 7 0
  if n = 0 ∨ 1048576 < a + n then fail stNotPermitted s
  else if x.ph = .stage then done s
  else
    done (modLearn (fun l => { l with
      doms := (l.doms.filter fun e => decide (e.1 < a)) ++ (if p = 0 then [] else (rangeFrom a n).map fun d => (d, p))
        ++ l.doms.filter fun e => decide (a + n ≤ e.1) }) s)

def cmdLearnDomainSet : Cmd :=
  { op := 0x0802, staging := .may, need := fun _ => 3, act := actLearnDomainSet
    objs := fun q => (List.range (fld q 1 20 0)).map fun j => [0x0802, fld q 0 19 0 + j] }

/-- LEARN.DOMAIN_SET (R193). -/
def execLearnDomainSet (c : Call) (q : List Word) (s : State) : Host.Outcome State Fault Refusal :=
  .next (runCommand cmdLearnDomainSet c q s)

/-- The line port that a handle names, Ethernet or transport (R200). -/
def linePort (s : State) (h : Nat) : Option Nat :=
  if (hType h = 0x30 ∨ hType h = 0x32) ∧ objExists s h then some (hIdx h) else none

/-- Own meaning of LEARN.PORT_SET (R200). -/
def actLearnPortSet : Act := fun x q s =>
  let a := hwd q 2
  if !x.knows s (wd q 0) || !(hType (wd q 0) == 0x30 || hType (wd q 0) == 0x32)
      || !(a == 0 || (hType a == 0x70 && x.knows s a)) then fail stBadHandle s
  else if 1048576 < fld q 1 20 0 then fail stNotPermitted s
  else if x.ph = .stage then done s
  else done (modLearn (fun l => { l with
    ports := lset l.ports (hIdx (wd q 0)) { limit := fld q 1 20 0, drop := flag q 1 24, act := a } }) s)

def cmdLearnPortSet : Cmd :=
  { op := 0x0803, staging := .may, need := fun _ => 3, act := actLearnPortSet, objs := objHead
    refs := fun q => [wd q 0, wd q 2] }

/-- LEARN.PORT_SET (R200). -/
def execLearnPortSet (c : Call) (q : List Word) (s : State) : Host.Outcome State Fault Refusal :=
  .next (runCommand cmdLearnPortSet c q s)

/-- Own meaning of LEARN.PORT_STATUS: learned(p) and pending(p). -/
def actLearnPortStatus : Act := fun _ q s =>
  match linePort s (wd q 0) with
  | some p => reply [toWord (learnedOf s p), toWord (pendingOf s p)] s
  | none => fail stBadHandle s

def cmdLearnPortStatus : Cmd := { op := 0x0804, reading := true, need := fun _ => 1, act := actLearnPortStatus }

/-- LEARN.PORT_STATUS (R200). -/
def execLearnPortStatus (c : Call) (q : List Word) (s : State) : Host.Outcome State Fault Refusal :=
  .next (runCommand cmdLearnPortStatus c q s)

/-- Own meaning of LEARN.FLUSH_PORT: at most four flushes run at once; move mode needs the learn action record of the
port it names (R212, R213). -/
def actLearnFlushPort : Act := fun _ q s =>
  let mv := flag q 1 0
  match linePort s (wd q 0), if mv then linePort s (wd q 3) else some 0 with
  | some p, some n =>
    if mv && (learnAction s n).isNone then fail stNotPermitted s
    else if 4 ≤ s.learn.flushes.length then fail stBusy s
    else
      let i := s.learn.nextFlush
      let f : Flush := { port := p, move := if mv then some n else none, dom := if flag q 1 1 then some (fld q 2 19 0) else none }
      ⟨stAccepted, [toWord i], modLearn (fun l => { l with
        flushes := tset l.flushes i f, nextFlush := (i + 1) % 2 ^ 32 }) s, 0⟩
  | _, _ => fail stBadHandle s

def cmdLearnFlushPort : Cmd := { op := 0x0805, need := fun _ => 4, objs := objHead, act := actLearnFlushPort }

/-- LEARN.FLUSH_PORT (R212). -/
def execLearnFlushPort (c : Call) (q : List Word) (s : State) : Host.Outcome State Fault Refusal :=
  .next (runCommand cmdLearnFlushPort c q s)

/-- Own meaning of LEARN.PROGRAM_SET (R195). -/
def actLearnProgramSet : Act := fun x q s =>
  let i := hIdx (wd q 0)
  let kp := fld q 1 15 8
  if hType (wd q 0) ≠ 0x65 ∨ 4096 ≤ i then fail stBadHandle s
  else if x.ph = .stage then done s
  else if flag q 1 0 && decide (9 < keyLen s.fwd.cfg kp) then fail stNotPermitted s
  else done (setCfg (x.ph == .commit) (fun c => { c with
    progs := tset c.progs i { tgetD c.progs i {} with learn := if flag q 1 0 then some kp else none } }) s)

def cmdLearnProgramSet : Cmd :=
  { op := 0x0806, staging := .may, need := fun _ => 2, objs := objHead, refs := fun q => [wd q 0], act := actLearnProgramSet }

/-- LEARN.PROGRAM_SET (R195). -/
def execLearnProgramSet (c : Call) (q : List Word) (s : State) : Host.Outcome State Fault Refusal :=
  .next (runCommand cmdLearnProgramSet c q s)

/-- Own meaning of LEARN.DEVICE_SET: S and the policers of reasons 0x10 and 0x11 (R207, R209). -/
def actLearnDeviceSet : Act := fun _ q s =>
  let sw := fld q 0 16 0
  let ok (h : Nat) : Bool := h == 0 || (hType h == 0x62 && decide (hIdx h < 1048576))
  if !ok (hwd q 1) || !ok (hwd q 2) then fail stBadHandle s
  else if sw < 4000 ∨ 80000 < sw ∨ !sweepOk s sw s.learn.profs then fail stNotPermitted s
  else done (modFwd (fun w => { w with punt := mset 0 (mset 0 w.punt 0x10 (hwd q 1)) 0x11 (hwd q 2) })
    (modLearn (fun l => { l with sweep := sw }) s))

def cmdLearnDeviceSet : Cmd := { op := 0x0807, need := fun _ => 3, objs := objOp 0x0807, act := actLearnDeviceSet }

/-- LEARN.DEVICE_SET (R207). -/
def execLearnDeviceSet (c : Call) (q : List Word) (s : State) : Host.Outcome State Fault Refusal :=
  .next (runCommand cmdLearnDeviceSet c q s)

/-- Own meaning of LEARN.COUNTERS: current values, the snapshot flag ignored (R67, R220). -/
def actLearnCounters : Act := fun _ _ s => reply (ctrWords s.ctr 0x48 0 (List.range 18)) s

def cmdLearnCounters : Cmd := { op := 0x0808, reading := true, need := fun _ => 1, act := actLearnCounters }

/-- LEARN.COUNTERS (R220). -/
def execLearnCounters (c : Call) (q : List Word) (s : State) : Host.Outcome State Fault Refusal :=
  .next (runCommand cmdLearnCounters c q s)

/-! ### Search and iteration (R210, R211) -/

/-- Own meaning of DILL.SEARCH: the entry of a key as visible to the current epoch. -/
def actDillSearch : Act := fun _ q s =>
  withDill q s fun t tb =>
    match dillAt s t tb (dillKey q 1) with
    | some (p, e) =>
      if (e.v.seen true).isNone then fail stNotFound s
      else reply (placeWords p (bucketOf tb (dillKey q 1)) ++ dillWords e s.fwd.epoch) s
    | none => fail stNotFound s

def cmdDillSearch : Cmd := { op := 0x0750, reading := true, need := fun _ => 6, act := actDillSearch }

/-- DILL.SEARCH (R210). -/
def execDillSearch (c : Call) (q : List Word) (s : State) : Host.Outcome State Fault Refusal :=
  .next (runCommand cmdDillSearch c q s)

/-- Positions of one bucket in a walk: entries 0 to 3, then overflow index + 4. -/
def walkSpan : Nat := 2 ^ 17

/-- Whether an entry passes the filters of DILL.NEXT. -/
def walkFilter (q : List Word) (e : DillEntry) : Bool :=
  match e.v.seen true with
  | none => false
  | some v => (!flag q 3 8 || v.learned) && (!flag q 3 9 || (v.learned && v.port == fld q 3 21 16))
      && (!flag q 3 10 || keyDomain e.key == fld q 4 19 0)

/-- The entries of table t in walk order, keyed by bucket and position (R210). -/
def walkOf (s : State) (t : Nat) (q : List Word) : Tab (Place × DillEntry) :=
  (dillAll s).foldl (fun w e =>
    if e.2.1 = t ∧ walkFilter q e.2.2.2 then
      let pos := match e.1 with | .bucket k => k % 4 | .ovf i => i + 4
      tset w (e.2.2.1 * walkSpan + pos) (e.1, e.2.2.2)
    else w) []

/-- Whether a hold is that of a mailbox's walk at a cursor. -/
def WalkHold.is (h : WalkHold) (t b mb cur : Nat) : Bool := h.table == t && h.bucket == b && h.mb == mb && h.cur == cur

/-- Let the overflow moves into a bucket go on, held back at a cursor of a walk (R211). -/
def walkRelease (t b mb cur : Nat) (s : State) : State :=
  if s.tab.held.any fun h => h.is t b mb cur then
    overFill t b (modTab (fun st => { st with held := st.held.filter fun h => !h.is t b mb cur }) s)
  else s

/-- The place at which a walk goes on: where its last response ended within the bucket, else the first entry of the bucket
at overflow index 0 and that overflow entry at another (R210, R211; notes/assumptions/114). -/
def walkFrom (s : State) (t b mb cur : Nat) : Nat :=
  match s.tab.held.find? fun h => h.is t b mb cur with
  | some h => h.pos
  | none => if cur = 0 then 0 else cur + 4

/-- The entries that a walk has still to answer, from its cursor on (R210, R211). -/
def walkLeft (s : State) (t mb : Nat) (q : List Word) : Tab (Place × DillEntry) :=
  (walkOf s t q).filter fun e => decide (fld q 1 22 0 * walkSpan + walkFrom s t (fld q 1 22 0) mb (fld q 2 15 0) ≤ e.1)

/-- Where a walk of table tb goes on after n of the entries left: the bucket, and the place within it where the response ends
inside a bucket, else 0 (R210). -/
def walkOn (tb : DillTab) (n : Nat) (w : Tab (Place × DillEntry)) : Nat × Nat :=
  match w.drop n with
  | e :: _ => (e.1 / walkSpan, if (match (w.take n).getLast? with | some l => l.1 / walkSpan | none => 2 ^ tb.k) = e.1 / walkSpan
      then e.1 % walkSpan else 0)
  | [] => (2 ^ tb.k, 0)

/-- Hold back the overflow moves where a walk goes on inside a bucket, and let those at its last cursor go on (R211). -/
def walkHold (t mb b cur : Nat) (dest : Nat × Nat) (s : State) : State :=
  let s := if 0 < dest.2 then
      modTab (fun st => { st with held := (st.held.filter fun h => !h.is t dest.1 mb (dest.2 - 4)) ++
        [⟨t, dest.1, mb, dest.2 - 4, dest.2, elapsed s + secU⟩] }) s
    else s
  if 0 < dest.2 ∧ dest.1 = b ∧ dest.2 - 4 = cur then s else walkRelease t b mb cur s

/-- Own meaning of DILL.NEXT (R210, R211). -/
def actDillNext : Act := fun x q s =>
  withDill q s fun t tb =>
    let b := fld q 1 22 0
    let cur := fld q 2 15 0
    let n := fld q 3 6 0
    if n = 0 ∨ 100 < n ∨ 2 ^ tb.k ≤ b then fail stNotPermitted s
    else
      let w := walkLeft s t x.mb q
      let dest := walkOn tb n w
      reply ([toWord dest.1, toWord (dest.2 - 4), toWord (w.take n).length] ++ (w.take n).flatMap fun e =>
        (placeWords e.2.1 (e.1 / walkSpan)).take 1 ++ dillWords e.2.2 s.fwd.epoch) (walkHold t x.mb b cur dest s)

def cmdDillNext : Cmd := { op := 0x0751, reading := true, need := fun _ => 5, act := actDillNext }

/-- DILL.NEXT (R210). -/
def execDillNext (c : Call) (q : List Word) (s : State) : Host.Outcome State Fault Refusal :=
  .next (runCommand cmdDillNext c q s)

/-- DILL_NEXT_HOLD_EXPIRY: 8,000 tides after a response that ended in bucket b of table tab, its overflow moves go on
(R211). -/
def execDillNextHoldExpiry (t tab b : Nat) (s : State) : Host.Outcome State Fault Refusal :=
  let s := s.atTime t
  let due (h : WalkHold) : Bool := h.table == tab && h.bucket == b && decide (h.till ≤ elapsed s)
  if s.tab.held.any due then
    .next (overFill tab b (modTab (fun st => { st with held := st.held.filter fun h => !due h }) s))
  else .next s

/-! ### Command lists (R214 to R216) -/

/-- Own meaning of TABLE.CMDLIST: the list is accepted; its records run at CMDLIST_DONE. -/
def actTableCmdlist : Act := fun x q s =>
  let n := fld q 2 20 0
  if n = 0 ∨ 1048576 < n then fail stBadLength s
  else if hwd q 5 ≠ 0 ∧ (txnSlot s (wd q 5)).isNone then fail stTxnUnknown s
  else if hwd q 5 != 0 && (match txnSlot s (wd q 5) with | some (_, x) => x.phase != 0 | none => false) then fail stNotPermitted s
  else if hwd q 5 != 0 && (match txnSlot s (wd q 5) with | some (_, x) => decide (1048576 ≤ x.count) | none => false) then fail stTxnLimit s
  else if 4 ≤ s.learn.lists.length then fail stBusy s
  else
    let i := s.learn.nextList
    ⟨stAccepted, [toWord i], modLearn (fun l => { l with
      nextList := (i + 1) % 2 ^ 32
      lists := tset l.lists i { addr := wd64 q 0, count := n, stop := flag q 2 31, res := wd64 q 3, txn := hwd q 5, mb := x.mb } }) s, 0⟩

def cmdTableCmdlist : Cmd := { op := 0x0760, need := fun _ => 6, act := actTableCmdlist }

/-- TABLE.CMDLIST (R214). -/
def execTableCmdlist (c : Call) (q : List Word) (s : State) : Host.Outcome State Fault Refusal :=
  .next (runCommand cmdTableCmdlist c q s)

/-- The commands that a list may hold (R214). -/
def listCmds : List Cmd :=
  [cmdDillInsert, cmdDillModify, cmdDillDelete, cmdSorrelAdd, cmdSorrelSet, cmdSorrelDelete, cmdSageInsert, cmdSageModify,
   cmdSageDelete, cmdActionCreate, cmdActionSet, cmdActionDelete]

/-- Run one record with the effect of the single command, the checks of R446 among it: its status, response and the state;
none while the record waits (R215, R586). -/
def runRecord (l : CmdList) (op : Nat) (q : List Word) (s : State) : Option (Nat × List Word × State) :=
  match listCmds.find? fun k => k.op == op with
  | none => some (stBadOpcode, [], s)
  | some k =>
    let c : Call := { t := s.tm.sub, mb := l.mb, tag := 0, txn := l.txn, src := .mailbox }
    match refuse k c q s with
    | some st => some (st, [], s)
    | none =>
      if waits k c q s then none
      else
        let r := runOp k c q s
        some (r.status, r.resp, r.st)

/-- Records and their results so far. -/
structure ListRun where
  /-- State after the records -/
  st : State
  /-- Words of the list that follow -/
  rest : List Word
  /-- Records run -/
  ran : Nat := 0
  /-- Records whose status is not OK -/
  bad : Nat := 0
  /-- The list has ended -/
  stop : Bool := false

/-- Run the next record of a list and write its result (R215, R216). -/
def listStep (l : CmdList) (i : Nat) (r : ListRun) : Option ListRun :=
  if r.stop then some { r with st := hostWriteWords (l.res + 16 * i) [0#32, 0#32, 0#32, 0#32] r.st }
  else
    let n := fld r.rest 0 23 16
    match runRecord l (fld r.rest 0 15 0) ((r.rest.drop 1).take n) r.st with
    | none => none
    | some (st, resp, s) =>
      let word (j : Nat) : Word := resp.getD j 0#32
      some { st := hostWriteWords (l.res + 16 * i) [toWord (st + 2 ^ 31), word 0, word 1, word 2] (learnCount 13 1 s)
             rest := r.rest.drop (n + 1), ran := r.ran + 1, bad := r.bad + b2n (st != stOk)
             stop := (l.stop && st != stOk) || st == stTxnLimit }

/-- CMDLIST_DONE: a list has run, with the records as read from host memory (R214 to R216). Nothing happens while one of
its records waits, or while no firmware serves commands. -/
def execCmdlistDone (t id : Nat) (records : List Word) (s : State) : Host.Outcome State Fault Refusal :=
  let s := s.atTime t
  match tget s.learn.lists id with
  | none => .next s
  | some l =>
    match if served cmdTableCmdlist s then (List.range l.count).foldl (fun r i => r.bind (listStep l i)) (some { st := s, rest := records })
        else none with
    | none => .next s
    | some r => .next (raise 8 7 mpcUnit (pay [(id, 4), (r.ran, 4), (r.bad, 4)])
        (modLearn (fun x => { x with lists := terase x.lists id }) r.st))

/-! ### Compare and repair (R217 to R219) -/

/-- Own meaning of TABLE.COMPARE_SET. -/
def actTableCompareSet : Act := fun x q s =>
  withDill q s fun t _ =>
    if x.ph = .stage then done s
    else done (modDill t (fun d => { d with compare := flag q 1 0, inclLearned := flag q 1 1, repair := flag q 1 2 }) s)

def cmdTableCompareSet : Cmd :=
  { op := 0x0770, staging := .may, need := fun _ => 2, objs := objHead, refs := fun q => [wd q 0], act := actTableCompareSet }

/-- TABLE.COMPARE_SET (R217). -/
def execTableCompareSet (c : Call) (q : List Word) (s : State) : Host.Outcome State Fault Refusal :=
  .next (runCommand cmdTableCompareSet c q s)

/-- Pages of a table: 32 buckets each. -/
def DillTab.pageCount (t : DillTab) : Nat := max 1 (2 ^ t.k / 32)

/-- Own meaning of TABLE.DIGEST_LOAD. -/
def actTableDigestLoad : Act := fun x q s =>
  withDill q s fun t tb =>
    let a := fld q 1 17 0
    let n := fld q 2 9 0
    if n = 0 ∨ 1000 < n ∨ tb.pageCount < a + n then fail stNotPermitted s
    else if x.ph = .stage then done s
    else done (modDill t (fun d => { d with
      digests := (List.range n).foldl (fun m j => tset m (a + j) (toWord (wd q (3 + j)))) d.digests }) s)

def cmdTableDigestLoad : Cmd :=
  { op := 0x0771, staging := .may, need := fun q => 3 + fld q 2 9 0, refs := fun q => [wd q 0], act := actTableDigestLoad
    objs := fun q => (List.range (fld q 2 9 0)).map fun j => [0x0771, hIdx (wd q 0), fld q 1 17 0 + j] }

/-- TABLE.DIGEST_LOAD (R217). -/
def execTableDigestLoad (c : Call) (q : List Word) (s : State) : Host.Outcome State Fault Refusal :=
  .next (runCommand cmdTableDigestLoad c q s)

/-- Own meaning of TABLE.COMPARE_STATUS. -/
def actTableCompareStatus : Act := fun _ q s =>
  withDill q s fun _ tb =>
    reply ([toWord tb.lastPages, toWord tb.mism, toWord tb.repaired] ++ toWords tb.sweepTide 2) s

def cmdTableCompareStatus : Cmd := { op := 0x0772, reading := true, need := fun _ => 1, act := actTableCompareStatus }

/-- TABLE.COMPARE_STATUS (R218). -/
def execTableCompareStatus (c : Call) (q : List Word) (s : State) : Host.Outcome State Fault Refusal :=
  .next (runCommand cmdTableCompareStatus c q s)

/-- The Dill entries of a page, with their places and buckets. -/
def pageEntries (s : State) (t page : Nat) : List (Place × Nat × DillEntry) :=
  (dillAll s).filterMap fun e => if e.2.1 = t ∧ e.2.2.1 / 32 = page then some (e.1, e.2.2.1, e.2.2.2) else none

/-- One entry of a page's canonical form: 32 bytes (R217). -/
def canonBytes (key : Nat) (v : DillVal) : List Byte :=
  keyBytes key ++ beBytes v.act 3 ++ [BitVec.ofNat 8 (b2n v.static * 128 + b2n v.learned * 64 + v.port)]
    ++ beBytes v.cookie.toNat 4 ++ beBytes 0 4

/-- Digest of a canonical form, keyed by key in ascending order; an empty page digests to 0 (R217). -/
def canonDigest (m : Tab DillVal) : Nat := if m.isEmpty then 0 else crc32c (m.flatMap fun e => canonBytes e.1 e.2)

/-- The canonical form of a page (R217). -/
def pageCanon (s : State) (t : Nat) (tb : DillTab) (page : Nat) : Tab DillVal :=
  (pageEntries s t page).foldl (fun m e => match e.2.2.v.seen true with
    | some v => if v.learned && !tb.inclLearned then m else tset m e.2.2.key v
    | none => m) []

/-- Whether the twin can repair a page of a table: it is WARM behind a link that is up, so it is not TWIN_STALE, and every
commit that it takes part in has its verdict, so it shares the commit tide (R219; notes/assumptions/115). -/
def repairable (s : State) (tb : DillTab) : Bool :=
  tb.repair && s.twin.st == 1 && s.twin.hawser && s.twin.peer == 2 && s.twin.acks.isEmpty

/-- The page that the compare walker visits next: the first at or after its place, in ascending table and page order
(R218). -/
def nextPage (s : State) : Option (Nat × Nat) :=
  let (a, p) := s.learn.walk
  (s.tab.dill.filter fun e => e.2.compare).findSome? fun e =>
    if e.1 = a ∧ p < e.2.pageCount then some (a, p) else if a < e.1 then some (e.1, 0) else none

/-- The pages that the running sweep still owes after a skip: those of tables that are still compared. -/
def owed (s : State) : List (Nat × Nat) :=
  s.learn.skipped.filter fun x => match tget s.tab.dill x.1 with
    | some d => d.compare
    | none => false

/-- End of a sweep once every page has been visited: SWEEP_DONE, and the counts of the sweep roll (R218). -/
def sweepEnd (s : State) : State :=
  if (nextPage s).isNone && (owed s).isEmpty then
    let en := s.tab.dill.filter fun e => e.2.compare
    let n := en.foldl (fun a e => a + e.2.pages) 0
    let bad := en.foldl (fun a e => a + e.2.sweepBad) 0
    raise 8 0x0A mpcUnit (pay [(n, 4), (bad, 4)]) (modLearn (fun l => { l with walk := (0, 0), skipped := [] })
      (modTab (fun st => { st with
        dill := tmap st.dill fun _ d => { d with lastPages := d.pages, pages := 0, sweepBad := 0, sweepTide := s.tm.tide } }) s))
  else s

/-- The walker takes page (tab, page): the next one in order, or one that it skipped; none where it visits another. -/
def takePage (tab page : Nat) (s : State) : Option State :=
  if nextPage s = some (tab, page) then some (modLearn (fun l => { l with walk := (tab, page + 1) }) s)
  else if (owed s).contains (tab, page) then
    some (modLearn (fun l => { l with skipped := l.skipped.filter fun x => x != (tab, page) }) s)
  else none

/-- COMPARE_PAGE_VISIT: the walker visits a page; the read of a bucket of it may return uncorrectable data, and `twin` is the
twin's digest of the page where it answers (R175, R217 to R219). -/
def execComparePageVisit (t tab page : Nat) (unc : Option Nat) (twin : Option Nat) (s : State) : Host.Outcome State Fault Refusal :=
  let s := s.atTime t
  match tget s.tab.dill tab, if mayDrive s then takePage tab page s else none with
  | some tb, some s =>
    if (pageEntries s tab page).any fun e => e.2.2.v.open then
      .next (modLearn (fun l => { l with skipped := l.skipped ++ [(tab, page)] }) s)
    else match unc with
    | some b => .next (sweepEnd (pageFail tab (page * 32 + b) (tabCount 7 1 s)))
    | none =>
      match tget tb.digests page with
      | none => .next (sweepEnd s)
      | some yours =>
        let mine := canonDigest (pageCanon s tab tb page)
        let s := learnCount 14 1 (modDill tab (fun d => { d with pages := d.pages + 1 }) s)
        let s := if mine = yours.toNat then s
          else
            let rep := repairable s tb && twin == some yours.toNat
            raise 8 8 mpcUnit (pay [(tab, 1), (page, 3), (mine, 4), (yours.toNat, 4), (b2n rep, 1)])
              (learnCount 15 1 (modDill tab (fun d => { d with mism := d.mism + 1, sweepBad := d.sweepBad + 1 }) s))
        .next (sweepEnd s)
  | _, _ => .next s

/-- Rewrite a page to a canonical form by single entry writes (R219). -/
def pageRewrite (tab page : Nat) (tb : DillTab) (m : Tab DillVal) (s : State) : State :=
  let s := (pageEntries s tab page).foldl (fun s e => match e.2.2.v.seen true with
    | some v =>
      if (v.learned && !tb.inclLearned) || thas m e.2.2.key then s else dillFree e.1 s
    | none => s) s
  m.foldl (fun s e =>
    let b := bucketOf tb e.1
    if b / 32 ≠ page then s
    else match dillAt s tab tb e.1 with
      | some (p, x) => dillPut p { x with v := ⟨some e.2, []⟩ } s
      | none => match dillPlace s tab b with
        | some p => dillNew p tab b { key := e.1, v := ⟨some e.2, []⟩ } s
        | none => s) s

/-- TWIN_PAGE_REPAIR: the twin's canonical form of a mismatched or failed page arrives; a form whose digest is the loaded
one replaces the page (R219). -/
def execTwinPageRepair (t tab page : Nat) (form : List (Nat × Nat × Nat × Nat)) (s : State) : Host.Outcome State Fault Refusal :=
  let s := s.atTime t
  match tget s.tab.dill tab with
  | none => .next s
  | some tb =>
    let m : Tab DillVal := form.foldl (fun m e => tset m (e.1 % 2 ^ 160)
      { act := e.2.1 % 2 ^ 24, cookie := toWord e.2.2.2, static := bit e.2.2.1 7, learned := bit e.2.2.1 6, port := bits e.2.2.1 5 0 }) []
    if repairable s tb && (tget tb.digests page).map BitVec.toNat == some (canonDigest m)
        && !(pageEntries s tab page).any (fun e => e.2.2.v.open) then
      let s := pageRewrite tab page tb m s
      .next (raise 8 9 mpcUnit (pay [(tab, 1), (page, 3)]) (learnCount 16 1 (modDill tab (fun d => { d with
        failed := d.failed.filter fun p => p != page, bad := d.bad.filter fun b => b / 32 != page
        repaired := d.repaired + 1 }) s)))
    else .next s

/-! ### The learn engine (R197 to R204) -/

/-- Apply a learn request against its bucket as it stands (R198). -/
def learnApply (r : LearnReq) (tb : DillTab) (s : State) : State :=
  let pr := profOf s (keyDomain r.key)
  match dillAt s r.table tb r.key with
  | some (p, e) =>
    if e.v.open then learnCount 8 1 s
    else
      match e.v.seen true with
      | none => s
      | some v =>
        if v.static || v.port == r.src then setHit p s
        else if lockedEntry s r.table r.key then learnCount 10 1 s
        else stationMove r.table p e v r.src s
  | none =>
    let b := bucketOf tb r.key
    match learnAction s r.src with
    | none => s
    | some a =>
      match dillPlace s r.table b with
      | none => learnCount 7 1 s
      | some p =>
        let v : DillVal := { act := a, cookie := 0#32, static := false, learned := true, port := r.src }
        let s := learnLog 1 r.table r.key [a, r.src] (learnCount 1 1 (dillNew p r.table b { key := r.key, v := ⟨some v, []⟩, hit := true } s))
        if pr.notify then raise 8 1 mpcUnit (learnPay r.table r.key [r.src]) s else s

/-- LEARN_REQUEST_APPLY: the learn engine applies request i of the queue; an earlier request for its bucket goes first
(R197, R198). -/
def execLearnRequestApply (t i : Nat) (s : State) : Host.Outcome State Fault Refusal :=
  let s := s.atTime t
  match if mayDrive s then s.learn.queue[i]? else none with
  | none => .next s
  | some r =>
    match tget s.tab.dill r.table with
    | none => .next (modLearn (fun l => { l with queue := l.queue.eraseIdx i }) s)
    | some tb =>
      if (s.learn.queue.take i).any fun x => x.table == r.table && bucketOf tb x.key == bucketOf tb r.key then .next s
      else .next (learnApply r tb (modLearn (fun l => { l with queue := l.queue.eraseIdx i }) s))

/-- FLAP_CLEAR: at the boundary at which the lock of an entry expires (R203). -/
def execFlapClear (t tab key : Nat) (s : State) : Host.Outcome State Fault Refusal :=
  let s := s.atTime t
  match slotOf s tab key with
  | some m =>
    if m.lock ≠ 0 ∧ m.lock ≤ s.tm.tide + 1 then .next (raise 8 5 mpcUnit (learnPay tab key []) (slotDrop tab key s))
    else .next s
  | none => .next s

/-- MOVE_WINDOW_END: a tracker slot is freed when its window ends unlocked (R201, R202). -/
def execMoveWindowEnd (t tab key : Nat) (s : State) : Host.Outcome State Fault Refusal :=
  let s := s.atTime t
  match slotOf s tab key with
  | some m =>
    if m.lock = 0 ∧ m.start + (profOf s (keyDomain key)).window ≤ s.tm.tide then .next (slotDrop tab key s) else .next s
  | none => .next s

/-! ### Aging (R206, R207) -/

/-- The Dill entries of a bucket, with those of the overflow store tagged to it. -/
def bucketEntries (s : State) (t b : Nat) : List (Place × DillEntry) :=
  (dillAll s).filterMap fun e => if e.2.1 = t ∧ e.2.2.1 = b then some (e.1, e.2.2.2) else none

/-- The sweeper visits one entry (R207). -/
def ageEntry (tab : Nat) (pe : Place × DillEntry) (s : State) : State :=
  let (p, e) := pe
  match e.v.seen true with
  | none => s
  | some v =>
    let pr := profOf s (keyDomain e.key)
    if e.v.open || !v.learned || v.static || pr.age == 0 then s
    else if e.hit then dillPut p { e with hit := false, age := 0 } s
    else
      let age := min (e.age + 1) 255
      if ceilDiv pr.age s.learn.sweep ≤ age then
        let s := learnLog 3 tab e.key [] (learnCount 3 1 (dillFree p s))
        if pr.notify then raise 8 3 mpcUnit (learnPay tab e.key [v.port]) s else s
      else dillPut p { e with age := age } s

/-- SWEEP_VISIT: the sweeper visits a bucket of a learn table. The overflow entries are visited before the bucket's own,
so that an entry that moves into the bucket is not visited twice (R171, R207). -/
def execSweepVisit (t tab b : Nat) (s : State) : Host.Outcome State Fault Refusal :=
  let s := s.atTime t
  if isLearnTable s tab && mayDrive s then
    let es := bucketEntries s tab b
    let ovf := es.filter fun e => match e.1 with | .ovf _ => true | _ => false
    let own := es.filter fun e => match e.1 with | .ovf _ => false | _ => true
    .next ((ovf ++ own).foldl (fun s e => ageEntry tab e s) s)
  else .next s

/-! ### Flushes (R212, R213) -/

/-- The walker visits a bucket for a flush. -/
def flushBucket (id tab b : Nat) (s : State) : State :=
  match tget s.learn.flushes id with
  | none => s
  | some f =>
    if f.seen.contains (tab * 2 ^ 23 + b) then s
    else
      let es := (bucketEntries s tab b).filter fun e => match e.2.v.seen true with
        | some v => v.learned && !v.static && v.port == f.port && match f.dom with
          | some d => keyDomain e.2.key == d
          | none => true
        | none => false
      let ovf := es.filter fun e => match e.1 with | .ovf _ => true | _ => false
      let own := es.filter fun e => match e.1 with | .ovf _ => false | _ => true
      let s := (ovf ++ own).foldl (fun s e =>
        learnCount 12 1 (match f.move with
          | some n => learnLog 2 tab e.2.key [((learnAction s n).getD 0), n] (moveEntry e.1 e.2 n s)
          | none =>
            let s := learnLog 4 tab e.2.key [] s
            let v := e.2.v.direct none
            if v.free then dillFree e.1 s else dillPut e.1 { e.2 with v := v } s)) s
      modLearn (fun l => { l with
        flushes := tset l.flushes id { f with changed := f.changed + es.length, seen := f.seen ++ [tab * 2 ^ 23 + b] } }) s

/-- FLUSH_WALKER_VISIT: the walker of a flush visits a bucket of a learn table (R212). -/
def execFlushWalkerVisit (t id tab b : Nat) (s : State) : Host.Outcome State Fault Refusal :=
  let s := s.atTime t
  .next (if isLearnTable s tab && mayDrive s then flushBucket id tab b s else s)

/-- FLUSH_DONE: the walker has visited every bucket; those that hold entries and have not been visited are visited now,
and FLUSH_DONE reports the entries changed (R213). -/
def execFlushDone (t id : Nat) (s : State) : Host.Outcome State Fault Refusal :=
  let s := s.atTime t
  if !thas s.learn.flushes id || !mayDrive s then .next s
  else
    let s := (dillAll s).foldl (fun s e => if isLearnTable s e.2.1 then flushBucket id e.2.1 e.2.2.1 s else s) s
    match tget s.learn.flushes id with
    | some f => .next (raise 8 6 mpcUnit (pay [(id, 4), (f.changed, 4)]) (modLearn (fun l => { l with flushes := terase l.flushes id }) s))
    | none => .next s

end Sys2Proof.Machine
end

