-- ==== Sys2Proof/Machine/TxnOps.lean ====
section
/-! DEFINITION. Operations of transactions that other families use: discarding one, and what preparation has changed of
the table engines (R453, R455, R457). -/

namespace Sys2Proof.Machine

open Sys2Proof

/-- Change every layered item of the table engines. -/
def tablesMap (fr : Layered Nat → Layered Nat) (fd : Layered DillVal → Layered DillVal) (t : TableSt) : TableSt :=
  { t with
    routes := (tmap t.routes fun _ l => fr l).filter fun e => !e.2.free
    sage := (tmap t.sage fun _ e => { e with v := fr e.v }).filter fun e => !e.2.v.free
    buckets := tmap t.buckets fun _ e => { e with v := fd e.v }
    ovf := tmap t.ovf fun _ e => (e.1, e.2.1, { e.2.2 with v := fd e.2.2.v }) }


/-- Remove what transaction x changed of the table engines under its new epoch (R457). -/
def tablesUndo (x : Nat) (s : State) : State :=
  dillSweep (sorrelCheck { s with tab := tablesMap (Layered.undo x) (Layered.undo x) s.tab })

/-- The commit of transaction x applies to the table engines (R457). -/
def tablesApply (x : Nat) (s : State) : State :=
  dillSweep (sorrelCheck { s with tab := tablesMap (Layered.apply x) (Layered.apply x) s.tab })

/-- Change the transaction of slot i. -/
def modTxn (i : Nat) (f : Txn → Txn) (s : State) : State :=
  { s with ecs := { s.ecs with slots := lmod s.ecs.slots i fun sl => { sl with cur := sl.cur.map f } } }

/-- The transaction of slot i with its handle. -/
def txnAt (s : State) (i : Nat) : Option (Nat × Txn) :=
  (s.ecs.slots[i]?).bind fun sl => sl.cur.map fun x => (txnHandle i sl.gen, x)

/-- A commit has failed: it makes no conflict. -/
def unmarkCommit (h : Nat) (s : State) : State :=
  { s with ecs := { s.ecs with slots := s.ecs.slots.map fun sl => { sl with cur := sl.cur.map fun x =>
      { x with objs := x.objs.map fun o => { o with commits := o.commits.filter fun c => c != h } } } } }

/-- The preparation of slot i is undone at once: the tables, the cells moved for it, and what it had come to; it makes no conflict (R236, R457). -/
def unprepare (i : Nat) (s : State) : State :=
  match txnAt s i with
  | none => s
  | some (h, x) =>
    modTxn i (fun x => { x with
      phase := 0, c := 0, named := false, part := none, moved := [], bounds := [], olds := 0, own := none, twin := none })
      (partReturn x.moved (unmarkCommit h (tablesUndo h s)))

/-- Give up the handles that a transaction's staged creates reserved (R454). -/
def unreserve (h : Nat) (s : State) : State :=
  { s with ecs := { s.ecs with reserved := s.ecs.reserved.filter fun e => e.2 != h } }

/-- Discard the transaction of a slot: a preparation is undone and its TXN.COMMIT completes with a status (R453, R457). -/
def discardTxn (i st : Nat) (s : State) : State :=
  match s.ecs.slots[i]? with
  | none => s
  | some sl => match sl.cur with
    | none => s
    | some x =>
      let h := txnHandle i sl.gen
      let s := putTxn i none (unreserve h (unprepare i s))
      if x.phase = 1 then
        match (s.ecs.mbs.getD x.mb {}).acc with
        | some a => complete x.mb a.tag st [] s
        | none => s
      else s

end Sys2Proof.Machine
end

