-- ==== Sys2Proof/Machine/HbmOps.lean ====
section
/-! DEFINITION. Operations of the HBM controllers: the address map, sparing and degraded mode, consequences of
uncorrectable reads, and the write queues (spec/13_hbm_memory.md). -/

namespace Sys2Proof.Machine

open Sys2Proof

/-! ### The map (R355 to R358) -/

/-- One GiB. -/
def gib : Nat := 2 ^ 30

/-- The power domain of a stack (Table 13-1). -/
def stackDomain (i : Nat) : Nat := if i < 4 then 63 + i else 33 + i

/-- The unit of channel c of a stack's controller; 63 is its cluster controller (Table 20-4). -/
def stackUnit (i c : Nat) : Nat := unitOf (stackDomain i) c

/-- The granule within its region, the channel and the SID of a stack address (Table 13-2). -/
def stackPlace (a : Nat) : Nat × Nat × Nat :=
  if a < 24 * gib then
    let sid := a / (8 * gib)
    let g := (a - 8 * gib * sid) / 1024
    (g, g % 32, sid)
  else
    let g := (a - 24 * gib) / 1024
    (g, g % 28, 3)

/-- The logical rank of a stack address (R356, R357). -/
def rankOf (a : Nat) : Nat := let (_, c, sid) := stackPlace a; 4 * c + sid

/-- The offset within its rank of a stack address (Table 13-2). -/
def rankOffset (a : Nat) : Nat :=
  let (g, _, sid) := stackPlace a
  g / (if sid = 3 then 28 else 32) * 1024 + a % 1024

/-- Stack and stack address of an FD HBM address (R358). -/
def fdPlace (a : Nat) : Nat × Nat := (4 + a / 1024 % 2, a / 2048 * 1024 + a % 1024)

/-- The FD HBM address of an address of stack 4 or 5 (R358). -/
def fdAddr (i a : Nat) : Nat := a / 1024 * 2048 + (i - 4) * 1024 + a % 1024

/-- The spares of a stack (R356). -/
def spareRanks : List Nat := [115, 119, 123, 127]

def stackAt (s : State) (i : Nat) : Stack := s.hbm.stks.getD i {}

def modStack (i : Nat) (f : Stack → Stack) (s : State) : State :=
  { s with hbm := { s.hbm with stks := lmod s.hbm.stks i f } }

def modChan (i c : Nat) (f : HbmChan → HbmChan) (s : State) : State := modStack i (fun x => { x with chans := lmod x.chans c f }) s

/-- Settings of a stack's controller. -/
def memCfg (s : State) (i : Nat) : MemCfg := if i < 4 then s.hbm.td else s.hbm.fd

/-- Add n to memory counter k of stack i (R378). -/
def hbmCount (i k n : Nat) (s : State) : State :=
  ctrAdd48 0x0E 0xA (stackUnit i 63) (pay [(i, 1), (k, 1)]) 0x4E (i + 1) k n s

/-- The remap entry of a logical rank. -/
def Stack.entry (x : Stack) (r : Nat) : Remap := x.map.getD r ⟨4, r⟩

/-- A logical rank is backed: on its own rank, a spare or a donor's rank, or migrating (Table 13-5). -/
def Stack.backed (x : Stack) (r : Nat) : Bool := decide ((x.entry r).st ≤ 3)

/-- Free spares: not failed, serving no logical rank and no migration's target. -/
def Stack.freeSpares (x : Stack) : List Nat :=
  spareRanks.filter fun p => !x.failed.contains p && !(x.map.any fun e => e.phys == p && decide (e.st ≤ 3) && e.st != 0)
    && !x.migs.any fun m => m.target == p

/-- Write the remap record of a stack to the flash (R375). -/
def remapRecord (i : Nat) (s : State) : State :=
  let x := stackAt s i
  { s with hbm := { s.hbm with record := tset s.hbm.record i ⟨x.map, x.failed, x.donors⟩ } }

/-! ### Sparing and degraded mode (R371 to R375) -/

/-- Retire buffers of the HBM pool: free ones are withdrawn at once (R239). -/
def poolRetire (l : List Nat) (s : State) : State :=
  let pl := s.td.hbm
  let new := l.filter fun b => !pl.retired.contains b
  let isFree (b : Nat) : Bool := match tget pl.bufs b with | some x => !x.used | none => true
  let n := (new.filter isFree).length
  poolCheck 0 (poolCount 0 25 n (modPool 0 (fun pl => { pl with
    retired := (pl.retired.filter fun b => decide (b < new.headD 0)) ++
      ((new ++ pl.retired.filter fun b => decide (new.headD 0 ≤ b)).mergeSort fun a b => decide (a ≤ b))
    cache := pl.cache.filter fun b => !new.contains b
    ring := pl.ring.filter fun b => !new.contains b }.balance) s))

/-- The buffers of a TD stack that lie in its SID-3 rank of channel c (R222, R357, R374). -/
def donorBuffers (i c : Nat) : List Nat := (List.range 262144).map fun j => 4 * (24117248 + c + 28 * j) + i

/-- The running migration's target is set in the entry (R373, Table 13-5). -/
def startMig (i : Nat) (s : State) : State :=
  match (stackAt s i).migs with
  | m :: _ => modStack i (fun x => { x with map := x.map.set m.rank ⟨3, m.target⟩ }) s
  | [] => s

/-- The next donor: the SID-3 logical rank of the highest channel from 27 down that is still backed and is not itself
being moved (R374). -/
def Stack.nextDonor (x : Stack) (r : Nat) : Option Nat :=
  ((List.range 28).reverse.map fun c => 4 * c + 3).find? fun d => d != r && x.backed d && !x.migs.any fun m => m.rank == d

/-- A stack is lost: STACK_FAILED, and die-fatal (R374). -/
def stackFailed (i : Nat) (s : State) : State :=
  let u := stackUnit i 63
  errorAct u 0xB i (raise 0x0E 5 u (pay [(i, 1)]) (modStack i (fun x => { x with st := 3 }) s))

/-- A donor is taken: its rank is unbacked, its queued writes are discarded, and its buffers retire (R374, R239). -/
def takeDonor (i d : Nat) (s : State) : State :=
  let s := modStack i (fun x => { x with
    st := 2, donors := x.donors ++ [d], map := x.map.set d ⟨4, (x.entry d).phys⟩
    chans := lmod x.chans (d / 4) fun c => { c with wq := c.wq.filter fun w => rankOf (64 * w.line) != d } }) s
  let s := if i < 4 then poolRetire (donorBuffers i (d / 4)) s else s
  let s := remapRecord i s
  raise 0x0E 4 (stackUnit i 63) (pay [(i, 1), (d, 1), (256 * (stackAt s i).donors.length, 4)]) s

/-- Take logical rank r of stack i out of service for a cause: a spare or a donor becomes its target. A channel failed at
training is taken out without migration (R359, R371). -/
def rankOut (i r cause : Nat) (migrate : Bool) (s : State) : State :=
  let x := stackAt s i
  let e := x.entry r
  if 2 < e.st ∨ (x.migs.any fun m => m.rank == r) then s
  else
    let s := raise 0x0E 2 (stackUnit i 63) (pay [(i, 1), (r, 1), (e.phys, 1), (cause, 1)])
      (modStack i (fun x => { x with failed := if x.failed.contains e.phys then x.failed else x.failed ++ [e.phys] }) s)
    match (stackAt s i).freeSpares with
    | p :: _ => place p false e.phys s
    | [] => match (stackAt s i).nextDonor r with
      | some d =>
        let p := ((stackAt s i).entry d).phys
        place p true e.phys (takeDonor i d s)
      | none => stackFailed i s
where
  /-- The target serves the rank, at once or after its migration. -/
  place (p : Nat) (donor : Bool) (old : Nat) (s : State) : State :=
    if migrate then
      let first := (stackAt s i).migs.isEmpty
      let s := modStack i (fun x => { x with migs := x.migs ++ [⟨r, old, p, donor⟩] }) s
      if first then startMig i s else s
    else remapRecord i (modStack i (fun x => { x with map := x.map.set r ⟨if donor then 2 else 1, p⟩ }) s)

/-- A corrected read of a rank: CE_THRESHOLD once in its window, and predictive sparing (R372). -/
def rankCe (i r : Nat) (s : State) : State :=
  let n := tgetD (stackAt s i).ce r 0 + 1
  let c := memCfg s i
  let s := modStack i (fun x => { x with ce := tset x.ce r n }) s
  if c.ce = 0 ∨ n ≤ c.ce ∨ (stackAt s i).ceHit.contains r then s
  else
    let s := raise 0x0E 6 (stackUnit i 63) (pay [(i, 1), (r, 1), (n, 4)]) (modStack i (fun x => { x with ceHit := x.ceHit ++ [r] }) s)
    if c.pred ∧ 2 ≤ (stackAt s i).freeSpares.length then rankOut i r 4 true s else s

/-! ### Poison and contents (R367) -/

def poisonAdd (i line : Nat) (s : State) : State :=
  modStack i (fun x => { x with poison := if x.poison.contains line then x.poison else x.poison ++ [line] }) s

def poisonClear (i line : Nat) (s : State) : State := modStack i (fun x => { x with poison := x.poison.filter fun l => l != line }) s

/-! ### Consequences of an uncorrectable read (Table 13-4) -/

/-- A packet whose buffers an uncorrectable read has hit: counted and its buffers released (R369, R374). -/
def pktLost (i q : Nat) (k : Pkt) (donor : Bool) (s : State) : State :=
  capLost k (voqRelease q k (hbmCount i (if donor then 11 else 10) (if donor then 0 else 1) s))

/-- The packet that reads HBM pool buffer b: the one in transmission to the fabric that holds it, else the first of VOQ q
that does (R369). -/
def bufUnreadable (i b q : Nat) (donor : Bool) (s : State) : State :=
  match s.fab.tx.find? fun e => match e.2.cur with
      | some (_, k, _) => !k.md.det && k.bufs.contains b
      | none => false with
  | some (d, f) => match f.cur with
    | some (v, k, _) => pktLost i v k donor (modFab (fun x => { x with tx := tset x.tx d { f with cur := none } }) s)
    | none => s
  | none => match tget s.td.queues q with
    | none => s
    | some x => match x.pkts.find? fun k => !k.md.det && k.bufs.contains b with
      | none => s
      | some k => queueFix (pktLost i q k donor (modQueue q (fun y => { y with pkts := y.pkts.erase k }) s))
where
  /-- The VOQ's backlog has changed. -/
  queueFix (s : State) : State := if q < s.td.v then statusCheck q s else s

/-- A queue whose chain or state cannot be read is flushed; the buffers that its chain no longer reaches stay allocated
(Table 13-4). -/
def queueStranded (i q : Nat) (s : State) : State :=
  match tget s.td.queues q with
  | none => s
  | some x =>
    let bufs := ((x.pkts.filter fun k => !k.md.det).flatMap fun k => k.bufs).eraseDups
    let keep := s.td.hbm
    match queueFlushAll q 8 s with
    | (_, s) =>
      -- The buffers of best-effort packets were reached through the chain only: they keep their state bits.
      let s := modPool 0 (fun _ => keep) s
      let s := hbmCount i 12 bufs.length (modQueue q (fun y => { y with chain := none }) s)
      if q < s.td.v then statusCheck q s else s

/-- A page of a Dill table fails: DILL_READ_ERROR (R175). -/
def dillLineLost (b : Nat) (s : State) : State :=
  match s.tab.dill.find? fun e => decide (e.2.base ≤ b) && decide (b < e.2.base + 2 ^ e.2.k) with
  | none => s
  | some (t, d) => pageFail t (b - d.base) s

/-- A performance or circuit record cannot be read: record n of the object of a handle reads counts 0 and incomplete
(Table 13-4). -/
def recordLost (h n : Nat) (s : State) : State :=
  if hType h = 0x50 then modCircuit (hIdx h) (fun c => { c with
    recs := lmod c.recs n fun r => { low := 0, first := r.first, incomplete := true } }) s
  else modMon h (fun m => { m with
    recs := lmod m.recs n fun r => { r with bip := 0, eb := 0, bei := 0, feb := 0, pj := 0, nj := 0, incomplete := true } }) s

/-- The free-store entry at a ring or cache position is lost: its buffer is granted no more (R238). -/
def bufferLost (p pos : Nat) (s : State) : State :=
  match (poolOf s p).entryAt pos with
  | none => s
  | some b =>
    let s := poolCount p 26 1 (modPool p (fun pl => { pl with
      lost := pl.lost ++ [b], cache := pl.cache.erase b, ring := pl.ring.erase b }.balance) s)
    poolCheck p (raise 9 4 poolUnit (pay [(p, 1), (pos, 4)]) s)

/-- The consequence of an uncorrectable read of stack address a for its user: `subj` and `sub` name what the line held
where the address alone does not (Table 13-4). -/
def unreadable (i a : Nat) (donor : Bool) (subj sub : Nat) (s : State) : State :=
  let mib := 2 ^ 20
  if i < 4 then
    if a < 120 * mib then bufferLost 0 (a / 4 * 4 + i) s
    else if 240 * mib ≤ a ∧ a < 260 * mib then
      hbmCount i 13 1 (ctrClear 3 (4 * ((a - 240 * mib) / 80) + i) (List.range 10) s)
    else if a < gib then queueStranded i subj s
    else bufUnreadable i (4 * ((a - gib) / 1024) + i) subj donor s
  else
    let f := fdAddr i a
    if f < gib then dillLineLost (f / 128) s
    else if f < 2 * gib then
      let k := (f - gib) / 16
      hbmCount i 13 1 { s with fwd := { s.fwd with stats := terase (terase s.fwd.stats (2 * k)) (2 * k + 1) } }
    else if f < 3 * gib then poisonClear i (a / 64) s
    else if f < 5 * gib then
      match s.ecs.slots[subj]? with
      | some sl => match sl.cur with
        | some x =>
          if x.phase = 2 then s
          else
            let h := txnHandle subj sl.gen
            raise 2 2 mpcUnit (pay [(h, 4), (1, 1)]) (raise 0x0E 9 (stackUnit i 63) (pay [(h, 4)]) (discardTxn subj stTxnUnknown s))
        | none => s
      | none => s
    else if f < 7 * gib then recordLost subj sub s
    else s

/-! ### The write queue (R363, R364, R374) -/

/-- A queued write reaches the stack: discarded where its rank is unbacked; a write of the whole line clears poison. -/
def issueWrite (i : Nat) (w : HbmWrite) (s : State) : State :=
  if !(stackAt s i).backed (rankOf (64 * w.line)) then s
  else
    let s := modStack i (fun x => { x with mem := w.bytes.foldl (fun m b => mwrite m (64 * w.line + b.1) b.2) x.mem }) s
    if w.whole then poisonClear i w.line s else s

/-- Issue the n oldest queued writes of a channel. -/
def issueWrites (i c : Nat) : Nat → State → State
  | 0, s => s
  | n + 1, s => match ((stackAt s i).chans.getD c {}).wq with
    | [] => s
    | w :: r => issueWrites i c n (issueWrite i w (modChan i c (fun x => { x with wq := r }) s))

/-- Drain a channel's write queue where it must be drained: to 16 entries at most and none that has waited over 10 us
(R364). -/
def drain (i c : Nat) (s : State) : State :=
  let x := (stackAt s i).chans.getD c {}
  let old := (x.wq.filter fun w => decide (w.since + usU 10 ≤ elapsed s)).length
  if x.window ∨ (x.wq.length < 48 ∧ old = 0) then s
  else issueWrites i c (max (x.wq.length - 16) old) (hbmCount i 16 1 s)

/-- Bytes of a queued write with newer ones over them. -/
def overBytes (old new : List (Nat × Byte)) : List (Nat × Byte) := new.foldl (fun t b => tset t b.1 b.2) old

/-- Queue a write: none where the queue is full and holds no write of the line (R363, R364). -/
def queueWrite (i c line : Nat) (bs : List (Nat × Byte)) (s : State) : Option State :=
  let x := (stackAt s i).chans.getD c {}
  if x.wq.any fun w => w.line == line then
    some (modChan i c (fun x => { x with wq := x.wq.map fun w => if w.line = line then { w with bytes := overBytes w.bytes bs } else w }) s)
  else if 64 ≤ x.wq.length then none
  else some (modChan i c (fun x => { x with wq := x.wq ++ [⟨line, bs, elapsed s⟩] }) s)

/-! ### Temperature (R362) -/

/-- One threshold of HBM_TEMP: the new mark, and the event where it changes. -/
def tempStep (i thr : Nat) (temp : Int) (hot : Bool) (s : State) : Bool × State :=
  let up := !hot && decide ((thr : Int) ≤ temp)
  let down := hot && decide (temp ≤ (thr : Int) - 3)
  if up || down then
    (up, raise 0x0E 8 (stackUnit i 63) (pay [(i, 1), (unsigned 8 temp, 1), (thr, 1), (b2n up, 1)]) s)
  else (hot, s)

end Sys2Proof.Machine
end

