-- ==== Sys2Proof/Machine/Fault.lean ====
section
/-! DEFINITION. Commands and events of faults and recovery (spec/20_faults_recovery.md). -/

namespace Sys2Proof.Machine

open Sys2Proof

/-! ### Commands (Table 20-11) -/

/-- Own meaning of FAULT.STATUS. -/
def actFaultStatus : Act := fun _ _ s =>
  reply ([toWord (s.id.fwState + 8 * s.flt.cause + 2048 * b2n s.flt.mpcFailed), toWord s.flt.recoveries, toWord s.aon.safeCount]
    ++ toWords (fencedBits s) 3) s

def cmdFaultStatus : Cmd := { op := 0x1201, reading := true, act := actFaultStatus }

/-- FAULT.STATUS (R526). -/
def execFaultStatus (c : Call) (q : List Word) (s : State) : Host.Outcome State Fault Refusal :=
  .next (runCommand cmdFaultStatus c q s)

/-- Own meaning of FAULT.LOG_READ: unused entries read 0 (R532). -/
def actFaultLogRead : Act := fun _ q s =>
  let i := fld q 0 5 0
  let n := fld q 0 12 6
  if n < 1 ∨ 64 < i + n then fail stNotPermitted s
  else reply ((List.range' i n).flatMap fun j => s.aon.log.getD j (List.replicate 8 0#32)) s

def cmdFaultLogRead : Cmd := { op := 0x1202, reading := true, need := fun _ => 1, act := actFaultLogRead }

/-- FAULT.LOG_READ (R532). -/
def execFaultLogRead (c : Call) (q : List Word) (s : State) : Host.Outcome State Fault Refusal :=
  .next (runCommand cmdFaultLogRead c q s)

/-- Own meaning of FAULT.LAST_BREATH_SET (R531). -/
def actFaultLastBreathSet : Act := fun _ q s =>
  let a := wd64 q 0
  if a % 4096 ≠ 0 then fail stNotPermitted s
  else done { s with flt := { s.flt with lbAddr := a, lbOn := flag q 2 0 } }

def cmdFaultLastBreathSet : Cmd :=
  { op := 0x1203, need := fun _ => 3, objs := objOp 0x1203, act := actFaultLastBreathSet }

/-- FAULT.LAST_BREATH_SET (R531). -/
def execFaultLastBreathSet (c : Call) (q : List Word) (s : State) : Host.Outcome State Fault Refusal :=
  .next (runCommand cmdFaultLastBreathSet c q s)

/-- Own meaning of FAULT.LAST_BREATH_READ (R530). -/
def actFaultLastBreathRead : Act := fun _ q s =>
  match if flag q 0 0 then s.aon.twin else s.aon.own with
  | some r => reply (packWords ((r.drop (if flag q 0 1 then 2048 else 0)).take 2048)) s
  | none => fail stNotFound s

def cmdFaultLastBreathRead : Cmd := { op := 0x1204, reading := true, need := fun _ => 1, act := actFaultLastBreathRead }

/-- FAULT.LAST_BREATH_READ (R530). -/
def execFaultLastBreathRead (c : Call) (q : List Word) (s : State) : Host.Outcome State Fault Refusal :=
  .next (runCommand cmdFaultLastBreathRead c q s)

/-- Own meaning of FAULT.CLUSTER_REINIT: a fenced cluster will be re-initialised (R521). -/
def actFaultClusterReinit : Act := fun _ q s =>
  let d := fld q 0 6 0
  match tget s.flt.fences d with
  | none => fail stNotPermitted s
  | some f => ⟨stAccepted, [], { s with flt := { s.flt with fences := tset s.flt.fences d { f with perm := false } } }, 0⟩

def cmdFaultClusterReinit : Cmd := { op := 0x1205, need := fun _ => 1, objs := objOp 0x1205, act := actFaultClusterReinit }

/-- FAULT.CLUSTER_REINIT (R521). -/
def execFaultClusterReinit (c : Call) (q : List Word) (s : State) : Host.Outcome State Fault Refusal :=
  .next (runCommand cmdFaultClusterReinit c q s)

/-- Own meaning of FAULT.RESET: the package resets 1 ms later (R536). -/
def actFaultReset : Act := fun _ q s =>
  if s.id.fwState ≠ 3 ∧ wd q 0 ≠ Config.udn.toNat % 2 ^ 32 then fail stNotPermitted s
  else done { s with flt := { s.flt with resetAt := elapsed s + msU 1 + 1 } }

def cmdFaultReset : Cmd := { op := 0x1206, need := fun _ => 1, act := actFaultReset }

/-- FAULT.RESET (R536). -/
def execFaultReset (c : Call) (q : List Word) (s : State) : Host.Outcome State Fault Refusal :=
  .next (runCommand cmdFaultReset c q s)

/-- Own meaning of FAULT.COUNTERS (R537). -/
def actFaultCounters : Act := fun _ _ s => reply (ctrWords s.ctr 0x52 0 (List.range 7)) s

def cmdFaultCounters : Cmd := { op := 0x1207, reading := true, need := fun _ => 1, act := actFaultCounters }

/-- FAULT.COUNTERS (R537). -/
def execFaultCounters (c : Call) (q : List Word) (s : State) : Host.Outcome State Fault Refusal :=
  .next (runCommand cmdFaultCounters c q s)

/-! ### Errors and clusters -/

/-- The cluster under a sounding past its withdrawal: its errors are not reported (R512). -/
def soundingMasks (s : State) (d : Nat) : Bool :=
  match s.test.run with
  | some r => r.dom == d && decide (1 ≤ r.phase)
  | none => false

/-- ERROR_DETECTED: a check of a unit fails with an error of Table 20-2, and `detail` names what failed. A lost free-store
entry also leaves its pool (R238, R517 to R519). -/
def execErrorDetected (t unit kind detail : Nat) (s : State) : Host.Outcome State Fault Refusal :=
  let s := s.atTime t
  if s.boot.held ∨ kind < 1 ∨ 15 < kind ∨ soundingMasks s (clusterOf unit) then .next s
  else
    let s := errorAct unit kind detail s
    .next (if kind = 2 ∧ (unit = unitOf 60 2 ∨ unit = unitOf 60 3) then bufferLost (unit - unitOf 60 2) detail s else s)

/-- The lists of a node as they stand after its scheduler quarter has started empty: the children wake again (DESIGN CHOICE,
notes/assumptions/123). -/
def emptyLists (n : Node) : Node :=
  { n with rr := List.replicate 8 0, cur := List.replicate 8 [], nxt := List.replicate 8 [], wake := [], sels := [] }

/-- What the cells of an on-die half held is lost: h is 0 for domain 61, 1 for domain 62. -/
def halfLost (h : Nat) (s : State) : State :=
  let hit (die : Bool) (k : Pkt) : Bool := die && k.bufs.any fun b => decide (b / 262144 = h)
  let s := s.td.queues.foldl (fun s e =>
    let die (k : Pkt) : Bool := decide (s.td.v ≤ e.1) || k.md.det
    let gone := e.2.pkts.filter fun k => hit (die k) k
    gone.foldl (fun s k => capLost k (if e.1 < s.td.v then voqRelease e.1 k s else releasePkt true k s))
      (modQueue e.1 (fun x => { x with pkts := x.pkts.filter fun k => !hit (die k) k }) s)) s
  let out := s.td.egress.filter (hit true)
  let s := out.foldl (fun s k => capLost k (releasePkt true k s)) (modTd (fun t => { t with egress := t.egress.filter fun k => !hit true k }) s)
  let rx := s.fab.rx.filter fun e => e.2.bufs.any fun b => decide (b / 262144 = h)
  let s := rx.foldl (fun s e => modRx e.1 (fun f => { f with skip := true }) (dropOpen e.1 s)) s
  let into := s.td.ingress.filter fun k => hit k.md.det k
  into.foldl (fun s k => capLost k (releasePkt false k s))
    (modTd (fun t => { t with ingress := t.ingress.filter fun k => !hit k.md.det k }) s)

/-- What the re-initialisation of a cluster does to its state (R161, R223, R504, R521): a pipeline and the FD bridge end
start empty, the cache lines and hit bits of an SLM quarter go, a port group's working copies are loaded again, the pool
manager's stores are filled afresh, and what its buffers held is lost; a scheduler quarter's lists start empty, and what the
cells of an on-die half held is lost. -/
def reinit (d : Nat) (s : State) : State :=
  if d ≤ 15 then
    let x := s.fwd.pipes.getD d {}
    reorderRelease ((x.waiting ++ x.recirc).foldl (fun s k => capLost k s) (modPipe d (fun _ => {}) s))
  else if 20 ≤ d ∧ d ≤ 23 then slmClear (d - 20) s
  else if d = 39 then
    s.fwd.reorder.foldl (fun s k => capLost k s)
      (modLearn (fun l => { l with queue := [] }) (modFwd (fun w => { w with reorder := [] }) s))
  else if d = 60 then
    let gone := bufferedPkts s
    let s := modTd (fun t => { t with
      ingress := [], egress := [], queues := tmap t.queues fun _ x => { x with pkts := [], chain := none } }) s
    let s := modFab (fun f => { f with
      tx := tmap f.tx fun _ x => { x with cur := none }
      rx := tmap f.rx fun _ x => { x with open_ := none, bufs := [], skip := x.skip || x.open_.isSome } }) s
    refreshAll (gone.foldl (fun s k => capLost k s) (poolInit 1 (poolInit 0 s)))
  else if 56 ≤ d ∧ d ≤ 59 then
    refreshAll (modTd (fun t => { t with nodes := tmap t.nodes fun _ n => if n.port / 16 = d - 56 then emptyLists n else n }) s)
  else if d = 61 ∨ d = 62 then
    modPool 1 (fun pl => { pl with half := 0 }) (halfLost (d - 61) s)
  else if 32 ≤ d ∧ d ≤ 35 then
    { s with line := { s.line with sas := tmap s.line.sas fun i x => if i / 256 / 16 = d - 32 then { x with work := x.sak } else x } }
  else s

/-- CLUSTER_RESTORED: the re-initialisation of a fenced cluster has completed, and it returns to service in the first clock of
a tide (R521). -/
def execClusterRestored (t d : Nat) (s : State) : Host.Outcome State Fault Refusal :=
  let s := s.atTime t
  match tget s.flt.fences d with
  | none => .next s
  | some f =>
    if f.perm ∨ s.id.fwState = 3 ∨ coreClocks s.tm.sub ≠ 0 then .next s
    else
      let s := moveSlices (reinit d { s with flt := { s.flt with fences := terase s.flt.fences d } })
      .next (raise 0x12 3 (unitOf d 63) (pay [(d, 1)]) (faultCount 5 1 s))

/-! ### The MPC and the pilot -/

/-- A command running at an MPC failure completes with BUSY; a running TXN.COMMIT leaves its transaction open, with its
preparation undone (R524). -/
def abortCommands (s : State) : State :=
  let s := (txns s).foldl (fun s (h, x) => if x.phase = 1 then unprepare (h % 8) s else s) s
  (List.range 32).foldl (fun s m => match (s.ecs.mbs.getD m {}).acc with
    | some a => if (s.ecs.mbs.getD m {}).owned then complete m a.tag stBusy [] s else s
    | none => s) s

/-- The pilot resets the MPC and restarts it on the preferred slot: the commands that ran are aborted, a trial image reverts, and
firmware reports that it is restarting until it runs again (R476, R523). -/
def mpcRestart (s : State) : State :=
  let s := abortCommands s
  let trial := if s.boot.swap = 3 ∧ !s.boot.swapBack then some s.boot.swapTo
    else if (slotAt s s.id.image).st = 3 then some s.id.image else none
  let pref := s.flash.pref
  let s := match trial with
    | some i => reverted pref 1 (slotState i 5 s)
    | none => s
  { s with
    id := { s.id with fwState := 2, image := pref }
    boot := { s.boot with swap := 0, swapBack := false, load := none, twinLoad := false, confirmEnd := 0 }
    test := { s.test with run := s.test.run.map fun r => { r with phase := 2, pass := false } } }

/-- MPC_FAILED: a core missed its watchdog restart (1), MPC memory is uncorrectable (2) or a swap handover failed (3): the
pilot resets the MPC and restarts it on the preferred slot; the fourth failure in an hour is final (R476, R523, R524). -/
def execMpcFailed (t cause : Nat) (s : State) : Host.Outcome State Fault Refusal :=
  let s := s.atTime t
  if s.boot.held ∨ !s.boot.ready ∨ s.flt.mpcFailed ∨ (cause = 3 ∧ s.boot.swap ≠ 3) then .next s
  else if s.id.fwState = 3 then .next { s with flt := { s.flt with mpcFailed := true } }
  else
    let now := elapsed s
    let times := (s.flt.mpcTimes.filter fun x => decide (now < x + 3600 * secU)) ++ [now]
    let s := errorReport (mainUnit 0) 8 0 s
    let s := raiseLogged 4 (aonUnit 0) (pay [(cause, 1), (times.length, 1)]) { s with flt := { s.flt with mpcTimes := times, mpcFailed := true } }
    .next (if 4 ≤ times.length then enterSafe 5 s else mpcRestart s)

/-- MPC_RECOVERED: the MPC runs again (R524). -/
def execMpcRecovered (t : Nat) (s : State) : Host.Outcome State Fault Refusal :=
  let s := s.atTime t
  if !s.flt.mpcFailed ∨ s.id.fwState ≠ 2 then .next s
  else
    let i := s.id.image
    let s := faultCount 6 1 { s with flt := { s.flt with mpcFailed := false, recoveries := min (2 ^ 32 - 1) (s.flt.recoveries + 1) } }
    .next (firmwareReady i (protUpdate (raise 0x12 5 (aonUnit 0) (pay [(i, 1)]) s)))

/-- PILOT_LOCKSTEP_MISMATCH: the pilot cores disagree (R525). -/
def execPilotLockstepMismatch (t : Nat) (s : State) : Host.Outcome State Fault Refusal :=
  let s := s.atTime t
  .next (if s.boot.held then s else errorAct (aonUnit 0) 0xD 0 { s with flt := { s.flt with pilotDead := true } })

/-- PILOT_WATCHDOG_EXPIRY: the pilot has not restarted its own watchdog (R525). -/
def execPilotWatchdogExpiry (t : Nat) (s : State) : Host.Outcome State Fault Refusal :=
  let s := s.atTime t
  .next (if s.boot.held then s else errorAct (aonUnit 1) 0xE 0 { s with flt := { s.flt with pilotDead := true } })

/-- POWER_WARNING: PFW_N has been low for 500 ns; it is ignored while PORST_N is low (R529, Table 22-6). -/
def execPowerWarning (t : Nat) (s : State) : Host.Outcome State Fault Refusal :=
  let s := s.atTime t
  .next (if s.boot.held then s else errorAct (aonUnit 2) 0xF 0 s)

/-- PACKAGE_RESET: 1 ms after FAULT.RESET has completed, or for a reboot at once, the package resets as at PORST_N and
starts again; `verified` as in PORST_N_RELEASE (R479, R536). -/
def execPackageReset (t : Nat) (verified : List Bool) (s : State) : Host.Outcome State Fault Refusal :=
  let s := s.atTime t
  if s.flt.resetAt = 0 ∨ elapsed s + 1 < s.flt.resetAt then .next s
  else .next (packageReset s.id.devid s.id.twinEn verified s)

/-- AON_POWER_CYCLE: an AON rail leaves its range and returns: what AON retains is cleared with everything else, and
SURVEY is left (R499, R532, R571). -/
def execAonPowerCycle (t : Nat) (s : State) : Host.Outcome State Fault Refusal :=
  let s := porst (s.atTime t)
  .next { s with aon := {}, id := { s.id with lifecycle := if s.id.lifecycle = 2 then 1 else s.id.lifecycle } }

end Sys2Proof.Machine
end

