-- ==== Sys2Proof/Machine/Board.lean ====
section
/-! DEFINITION. Sensors, the AVSBus, I2C0 and JTAG (spec/22_electrical_package.md, R26, R188). -/

namespace Sys2Proof.Machine

open Sys2Proof

/-! ### Thermal sensors (R26, R188, R562) -/

/-- The row of Table 6-4 that a temperature calls for. -/
def sageRow (temp : Int) : Nat := if 105 ≤ temp then 3 else if 100 ≤ temp then 2 else if 95 ≤ temp then 1 else 0

/-- The throttle step that awaits the next boundary after a reading, from the step in force and the one that awaits
(R188): it rises to the row reached, and falls one step below the row's entry threshold less 3 degrees. -/
def sageStep (temp : Int) (inForce waits : Nat) : Nat :=
  if waits < sageRow temp then sageRow temp
  else if waits = inForce ∧ 0 < inForce ∧ temp < 87 + 5 * (inForce : Int) then inForce - 1
  else waits

/-- THERMAL_SENSOR_READ: the four sensors of a region (0 FD-W, 1 FD-E, 2 TD-W, 3 TD-E) are read, each with whether its
self-check passes (R26, R188, R562). -/
def execThermalSensorRead (t region : Nat) (sensors : List (Int × Bool)) (s : State) : Host.Outcome State Fault Refusal :=
  let s := s.atTime t
  if s.boot.held ∨ 4 ≤ region ∨ sensors.length ≠ 4 then .next s
  else
    let valid (x : Int × Bool) : Bool := x.2 && decide (-40 ≤ x.1) && decide (x.1 ≤ 150)
    let s := (sensors.zipIdx).foldl (fun s (x, i) => if valid x then s else errorAct (aonUnit (6 + 4 * region + i)) 4 0 s) s
    let good := sensors.filter valid
    let temp : Int := if good.length < 2 then 106 else good.foldl (fun m x => max m x.1) (-40)
    let s := { s with board := { s.board with temp := s.board.temp.set region temp } }
    let s := if region < 2 then
        { s with tab := { s.tab with nextStep := lmod s.tab.nextStep region fun w => sageStep temp (s.tab.step.getD region 0) w } }
      else s
    .next (if 115 ≤ temp then errorAct (aonUnit (6 + 4 * region)) 0xC 0 s else s)

/-- SAGE_THROTTLE_STEP at a tide boundary: step changes apply, and the 25 % step alarms (R188). -/
def sageBoundary (s : State) : State :=
  (List.range 2).foldl (fun s r =>
    let old := s.tab.step.getD r 0
    let new := s.tab.nextStep.getD r 0
    if old = new then s
    else
      let u := aonUnit (6 + 4 * r)
      let temp := unsigned 8 (s.board.temp.getD r 0)
      let s := raise 7 5 u (pay [(r, 1), (old, 1), (new, 1), (temp, 1)]) (modTab (fun t => { t with step := lset t.step r new }) s)
      if new = 3 then raise 7 6 u (pay [(r, 1), (temp, 1)]) s else s) s

/-! ### The AVSBus (R558) -/

/-- The target of a rail at its k-th recomputation: rounded up to 5 mV and clamped. -/
def avsTarget (rail k : Nat) : Nat :=
  max 700 (min 800 (5 * ceilDiv (Config.avsBase rail + Config.avsOffset rail k) 5000))

/-- AVS_WRITE at a tide boundary: targets are recomputed every 8,000 tides, and each rail moves by at most 5 mV; `nak` names
the rails whose regulator does not acknowledge (R558). -/
def avsBoundary (nak : List Nat) (s : State) : State :=
  if s.id.fwState ≠ 1 ∨ s.flt.mpcFailed then s
  else
    let fresh := !s.board.avsOn || s.tm.bounds % 8000 == 0
    (List.range 2).foldl (fun s r =>
      let x := s.board.rails.getD r {}
      let target := if fresh then avsTarget r (s.tm.bounds / 8000) else x.target
      let mv := if x.mv < target then min target (x.mv + 5) else max target (x.mv - 5)
      let put (y : Rail) (s : State) : State := { s with board := { s.board with rails := s.board.rails.set r y, avsOn := true } }
      if mv = x.mv then put { x with target := target } s
      else
        let s := emit (.avs r mv) s
        put { mv := if nak.contains r then x.mv else mv, target := target } s) s

/-! ### I2C0 (R570) -/

/-- A register of I2C0 (Table 22-7). -/
def i2cReg (s : State) (o : Nat) : Nat :=
  if o = 0 then 0xB0
  else if o = 1 then b2n Config.ordering + 2 * s.id.lifecycle + 16 * s.id.devid + 64 * b2n s.id.twinEn
  else if o = 2 then s.id.fwState
  else if o = 3 then s.flt.cause
  else if 4 ≤ o ∧ o ≤ 7 then unsigned 8 (s.board.temp.getD (o - 4) 0)
  else if o = 8 then min 255 s.aon.safeCount
  else 0

/-- I2C0_ACCESS: a transaction on I2C0 writes bytes, the first of them the register offset, and then reads `n` bytes; while
the pilot is not running the target does not acknowledge (R570). -/
def execI2c0Access (t : Nat) (write : List Nat) (n : Nat) (s : State) : Host.Outcome State Fault Refusal :=
  let s := s.atTime t
  if s.boot.held ∨ s.flt.pilotDead then .next { s with board := { s.board with i2cOut := none } }
  else
    let off := match write with | o :: _ => o % 256 | [] => s.board.i2cOff
    let out := (List.range n).map fun i => i2cReg s ((off + i) % 256)
    .next { s with board := { s.board with i2cOff := (off + n) % 256, i2cOut := some out } }

/-! ### JTAG (R571, R572) -/

/-- Whether the TAP accepts an instruction: 0 BYPASS, 1 IDCODE, 2 SAMPLE/PRELOAD, 3 HIGHZ, 4 EXTEST, 5 EXTEST_PULSE,
6 EXTEST_TRAIN, 7 CLAMP, any other a test instruction of Vearazal, which needs an empty security store (R504, R571). -/
def tapAccepts (s : State) (i : Nat) : Bool :=
  let l := s.id.lifecycle
  let lab := l == 0 || l == 2 || l == 3
  if i ≤ 3 then true
  else if i ≤ 7 then lab || (l == 1 && s.boot.held)
  else lab && s.line.sas.isEmpty

/-- JTAG_INSTRUCTION: an instruction is loaded into the TAP; a refused one is replaced by BYPASS. Outside DRYDOCK and
RETURNED, boundary scan drives KILL_OUT low (R571, R572). -/
def execJtagInstruction (t i : Nat) (s : State) : Host.Outcome State Fault Refusal :=
  let s := s.atTime t
  let i := if tapAccepts s i then i else 0
  let s := { s with aon := { s.aon with tap := i } }
  let s := if i = 1 then emit (.tdo 0x1A0128E5) s else s
  .next (if scanning s then { s with twin := { s.twin with killOut := false } } else s)

/-- TRST_N_ASSERT: the TAP is reset (R571). -/
def execTrstNAssert (t : Nat) (s : State) : Host.Outcome State Fault Refusal :=
  .next { s.atTime t with aon := { s.aon with tap := 1 } }

end Sys2Proof.Machine
end

