-- ==== Sys2Proof/Machine/Device.lean ====
section
/-! DEFINITION. Device commands (spec/16_command_interface.md, Table 16-8). -/

namespace Sys2Proof.Machine

open Sys2Proof

/-- Register ID (Table 15-3, offset 0x0000). -/
def regId (s : State) : Nat :=
  0xB0 + b2n Config.ordering * 2 ^ 8 + s.id.lifecycle * 2 ^ 9 + s.id.devid * 2 ^ 12 + b2n s.id.twinEn * 2 ^ 14

/-- Own meaning of DEVICE.INFO: the identity registers, the admission algorithm version (R304) and the ECS version. -/
def actDeviceInfo : Act := fun _ _ s =>
  reply [toWord (regId s), toWord s.id.fwVersion, Config.udn.setWidth 32, (Config.udn >>> 32).setWidth 32,
    toWord 0x0003, toWord 0x01] s

def cmdDeviceInfo : Cmd := { op := 0x0101, reading := true, act := actDeviceInfo }

/-- DEVICE.INFO (R460, Table 16-8). -/
def execDeviceInfo (c : Call) (q : List Word) (s : State) : Host.Outcome State Fault Refusal :=
  .next (runCommand cmdDeviceInfo c q s)

/-- Own meaning of DEVICE.MAILBOX_SET: only from mailbox 0, for mailboxes 1 to 31, mask bits 1 to 21 (R448). -/
def actDeviceMailboxSet : Act := fun x q s =>
  let m := fld q 0 4 0
  let mask := wd q 1
  if x.mb ≠ 0 ∨ m = 0 ∨ bit mask 0 ∨ 2 ^ 22 ≤ mask then fail stNotPermitted s
  else done (putMb m { s.ecs.mbs.getD m {} with mask := mask, readOnly := flag q 2 0 } s)

def cmdDeviceMailboxSet : Cmd := { op := 0x0102, need := fun _ => 3, act := actDeviceMailboxSet }

/-- DEVICE.MAILBOX_SET (R448, Table 16-8). -/
def execDeviceMailboxSet (c : Call) (q : List Word) (s : State) : Host.Outcome State Fault Refusal :=
  .next (runCommand cmdDeviceMailboxSet c q s)

/-- Own meaning of DEVICE.MAILBOX_GET; mailbox 0 serves every area and its flag is clear. -/
def actDeviceMailboxGet : Act := fun _ q s =>
  let m := fld q 0 4 0
  let b := s.ecs.mbs.getD m {}
  if m = 0 then reply [toWord 0x003FFFFE, 0#32] s
  else reply [toWord b.mask, toWord (b2n b.readOnly)] s

def cmdDeviceMailboxGet : Cmd := { op := 0x0103, reading := true, need := fun _ => 1, act := actDeviceMailboxGet }

/-- DEVICE.MAILBOX_GET (R448, Table 16-8). -/
def execDeviceMailboxGet (c : Call) (q : List Word) (s : State) : Host.Outcome State Fault Refusal :=
  .next (runCommand cmdDeviceMailboxGet c q s)

/-- Own meaning of DEVICE.ECHO: the same words. -/
def actDeviceEcho : Act := fun _ q s => reply q s

def cmdDeviceEcho : Cmd := { op := 0x0104, reading := true, most := 1016, act := actDeviceEcho }

/-- DEVICE.ECHO (R441, Table 16-8). -/
def execDeviceEcho (c : Call) (q : List Word) (s : State) : Host.Outcome State Fault Refusal :=
  .next (runCommand cmdDeviceEcho c q s)

end Sys2Proof.Machine
end

