-- ==== Sys2Proof/Machine/Hbm.lean ====
section
/-! DEFINITION. Commands and events of the HBM controllers (spec/13_hbm_memory.md). -/

namespace Sys2Proof.Machine

open Sys2Proof

/-! ### Commands (Table 13-6) -/

/-- Own meaning of MEM.SET: settings of one die's controllers, in effect at once. -/
def actMemSet : Act := fun _ q s =>
  let p := fld q 1 16 0
  let w := fld q 2 11 0
  let h := fld q 4 7 0
  if p < 64 ∨ 80000 < p ∨ w < 500 ∨ 4000 < w ∨ h < 1 ∨ 168 < h then fail stNotPermitted s
  else
    let c : MemCfg := { p := p, w := w, ce := fld q 3 15 0, pred := flag q 3 16, scrub := h }
    done { s with hbm := if flag q 0 0 then { s.hbm with td := c } else { s.hbm with fd := c } }

def cmdMemSet : Cmd :=
  { op := 0x0E01, staging := .may, need := fun _ => 5, objs := fun q => [[0xFFFF, 0x0E01, fld q 0 0 0]], adm := true, act := actMemSet }

/-- MEM.SET (R360). -/
def execMemSet (c : Call) (q : List Word) (s : State) : Host.Outcome State Fault Refusal :=
  .next (runCommand cmdMemSet c q s)

/-- Own meaning of MEM.STATUS. -/
def actMemStatus : Act := fun _ q s =>
  let i := fld q 0 2 0
  if 6 ≤ i then fail stNotPermitted s
  else
    let x := stackAt s i
    reply [toWord (x.st + 4 * x.freeSpares.length + 256 * x.donors.length + 8192 * b2n (!x.migs.isEmpty)),
      toWord x.failed.length, toWord (256 * x.donors.length), toWord (unsigned 8 x.temp)] s

def cmdMemStatus : Cmd := { op := 0x0E02, reading := true, need := fun _ => 1, act := actMemStatus }

/-- MEM.STATUS (R374). -/
def execMemStatus (c : Call) (q : List Word) (s : State) : Host.Outcome State Fault Refusal :=
  .next (runCommand cmdMemStatus c q s)

/-- A remap entry as a word (Table 13-5). -/
def Remap.word (e : Remap) : Word := toWord (e.st * 2 ^ 29 + e.phys % 128 * 256)

/-- Own meaning of MEM.REMAP_READ. -/
def actMemRemapRead : Act := fun _ q s =>
  let i := fld q 0 2 0
  if 6 ≤ i then fail stNotPermitted s else reply ((stackAt s i).map.map Remap.word) s

def cmdMemRemapRead : Cmd := { op := 0x0E03, reading := true, need := fun _ => 1, act := actMemRemapRead }

/-- MEM.REMAP_READ (R370). -/
def execMemRemapRead (c : Call) (q : List Word) (s : State) : Host.Outcome State Fault Refusal :=
  .next (runCommand cmdMemRemapRead c q s)

/-- Own meaning of MEM.SPARE: a rank on its own or a spare rank moves to a spare, never to a donor (R377). -/
def actMemSpare : Act := fun _ q s =>
  let i := fld q 0 2 0
  let r := fld q 1 6 0
  if 6 ≤ i then fail stNotPermitted s
  else
    let x := stackAt s i
    if 1 < (x.entry r).st ∨ (x.migs.any fun m => m.rank == r) ∨ x.freeSpares.isEmpty then fail stNotPermitted s
    else done (rankOut i r 5 true s)

def cmdMemSpare : Cmd := { op := 0x0E04, need := fun _ => 2, objs := objOp 0x0E04, act := actMemSpare }

/-- MEM.SPARE (R377). -/
def execMemSpare (c : Call) (q : List Word) (s : State) : Host.Outcome State Fault Refusal :=
  .next (runCommand cmdMemSpare c q s)

/-- Own meaning of MEM.TRAIN_REPORT. -/
def actMemTrainReport : Act := fun _ q s =>
  let i := fld q 0 2 0
  let c := fld q 1 4 0
  if 6 ≤ i then fail stNotPermitted s
  else
    let x := (stackAt s i).chans.getD c {}
    reply ([toWord (b2n x.trained + 16 * x.lanes), toWord x.rdWin, toWord x.wrWin] ++ toWords x.lastWin 2) s

def cmdMemTrainReport : Cmd := { op := 0x0E05, reading := true, need := fun _ => 2, act := actMemTrainReport }

/-- MEM.TRAIN_REPORT (R359). -/
def execMemTrainReport (c : Call) (q : List Word) (s : State) : Host.Outcome State Fault Refusal :=
  .next (runCommand cmdMemTrainReport c q s)

/-- Own meaning of MEM.COUNTERS (R378). -/
def actMemCounters : Act := fun _ q s =>
  let i := fld q 0 2 0
  if 6 ≤ i then fail stNotPermitted s else reply (ctrWords s.ctr 0x4E (i + 1) (List.range 19)) s

def cmdMemCounters : Cmd := { op := 0x0E06, reading := true, need := fun _ => 2, act := actMemCounters }

/-- MEM.COUNTERS (R378). -/
def execMemCounters (c : Call) (q : List Word) (s : State) : Host.Outcome State Fault Refusal :=
  .next (runCommand cmdMemCounters c q s)

/-! ### Training -/

/-- HBM_TRAINING_DONE: training of a stack ends after `ms` milliseconds; by channel, whether its lanes passed, the lanes
repaired and its read and write windows in ps. A window below 20 % of the unit interval of 125 ps fails the channel, and
so does another geometry the stack; the remap record is applied, and each rank of a failed channel is taken out of service
(R355, R359, R375). -/
def execHbmTrainingDone (t stack ms : Nat) (geometry : Bool) (chans : List (Bool × Nat × Nat × Nat)) (s : State) :
    Host.Outcome State Fault Refusal :=
  let s := s.atTime t
  if 6 ≤ stack ∨ (stackAt s stack).st ≠ 0 then .next s
  else if !geometry then .next (stackFailed stack s)
  else
    let cs := (List.range 32).map fun c => chans.getD c (false, 0, 0, 0)
    let okOf (c : Bool × Nat × Nat × Nat) : Bool := c.1 && decide (25 ≤ c.2.2.1) && decide (25 ≤ c.2.2.2)
    let s := modStack stack (fun x => { x with
      selfRefresh := false
      chans := (x.chans.zip cs).map fun (x, c) => { x with trained := okOf c, lanes := c.2.1 % 16, rdWin := c.2.2.1, wrWin := c.2.2.2 } }) s
    let s := match tget s.hbm.record stack with
      | some r => modStack stack (fun x => { x with map := r.map, failed := r.failed, donors := r.donors, migs := [] }) s
      | none => s
    let s := if stack < 4 then (stackAt s stack).donors.foldl (fun s d => poolRetire (donorBuffers stack (d / 4)) s) s else s
    let bad := (List.range 32).filter fun c => !okOf (cs.getD c (false, 0, 0, 0))
    -- A rank of a failed channel that serves no logical rank (a spare) only fails.
    let s := bad.foldl (fun s c => modStack stack (fun x => { x with
      failed := x.failed ++ (spareRanks.filter fun p => p / 4 == c && !x.failed.contains p) }) s) s
    let s := (bad.flatMap fun c => (List.range 4).map fun d => 4 * c + d).foldl (fun s p =>
      match ((stackAt s stack).map.zipIdx).find? fun e => e.1.phys == p && decide (e.1.st ≤ 2) with
      | some (_, r) => rankOut stack r 3 false s
      | none => s) s
    if (stackAt s stack).st = 3 then .next s
    else
      let lanes := cs.foldl (fun n c => n + c.2.1) 0
      .next (raise 0x0E 1 (stackUnit stack 63) (pay [(stack, 1), (32 - bad.length, 1), (lanes, 4), (ms, 4)])
        (modStack stack (fun x => { x with st := if x.donors.isEmpty then 1 else 2 }) s))

/-! ### Requests, windows, scrubbing and sparing -/

/-- Replays of a command: at most two are counted, and a third error is an uncorrectable command error on its rank, or on
each rank of the channel (R366): whether the command failed, and the state. -/
def replayed (i a replays : Nat) (whole : Bool) (s : State) : Bool × State :=
  let s := if replays = 0 then s else hbmCount i 6 (min 2 replays) s
  if replays < 3 then (false, s)
  else
    let c := rankOf a / 4
    let rs := if whole then (List.range 4).map fun d => 4 * c + d else [rankOf a]
    (true, rs.foldl (fun s r => rankOut i r 2 true s) (hbmCount i 7 1 s))

/-- A corrected read: 1 by the stack, 2 by SECDED (R365, R372). -/
def corrected (i a res : Nat) (s : State) : State :=
  rankCe i (rankOf a) (errorAct (stackUnit i (rankOf a / 4)) 1 a (hbmCount i (res + 1) 1 s))

/-- A read is served: its line's queued bytes over the stack's, or marked uncorrectable (R363 to R369). -/
def serveRead (i a len res subj sub : Nat) (s : State) : State :=
  let s := hbmCount i 0 1 s
  let r := rankOf a
  let c := r / 4
  let line := a / 64
  let wq := ((stackAt s i).chans.getD c {}).wq
  let bytes (x : Stack) (ovf : List (Nat × Byte)) : List Byte :=
    (List.range len).map fun o => match tget ovf (a % 64 + o) with | some b => b | none => mread x.mem (a + o)
  let answer (v : Option (List Byte)) (s : State) : State := modStack i (fun x => { x with answer := v }) s
  -- A queued write answers a read, unless it leaves the line poisoned or its rank is unbacked (R363, R367, R374).
  let answers (w : HbmWrite) : Bool := w.line == line && (stackAt s i).backed r
    && (!(stackAt s i).poison.contains line || w.whole)
  match wq.find? answers with
  | some w => hbmCount i 17 1 (answer (some (bytes (stackAt s i) w.bytes)) s)
  | none =>
    if !(stackAt s i).backed r then
      let s := hbmCount i 11 (if i < 4 ∧ gib ≤ a then 0 else 1) (answer none s)
      let n := ctrGet s 0x4E (i + 1) 11
      let s := unreadable i a true subj sub s
      -- A read that hit no packet is counted all the same.
      if i < 4 ∧ gib ≤ a ∧ ctrGet s 0x4E (i + 1) 11 = n then hbmCount i 11 1 s else s
    else if (stackAt s i).poison.contains line then
      unreadable i a false subj sub (errorAct (stackUnit i c) 3 a (hbmCount i 9 1 (answer none s)))
    else if res = 3 then
      let s := errorAct (stackUnit i c) 3 a (hbmCount i 4 1 (answer none s))
      rankOut i r 1 true (unreadable i a false subj sub s)
    else
      let s := answer (some (bytes (stackAt s i) [])) s
      if res = 0 then s else corrected i a res s

/-- A request takes effect on its channel, which is in no retraining window (R363 to R369); a writer that finds the queue full
waits. -/
def request (i : Nat) (w : HbmWait) (s : State) : State :=
  let c := rankOf w.addr / 4
  match w.write with
  | some bs =>
    let bs := ((bs.take (64 - w.addr % 64)).zipIdx).map fun (b, o) => (w.addr % 64 + o, b)
    -- A full queue must drain first; in a window it cannot, and the writer waits (R360, R364).
    match (queueWrite i c (w.addr / 64) bs s).orElse fun _ => queueWrite i c (w.addr / 64) bs (drain i c s) with
    | none => modChan i c (fun x => { x with wait := x.wait ++ [w] }) s
    | some s => drain i c (replayed i w.addr w.replays w.whole (hbmCount i 1 1 s)).2
  | none =>
    match replayed i w.addr w.replays w.whole (drain i c s) with
    | (true, s) => s
    | (false, s) => serveRead i w.addr (min w.len (64 - w.addr % 64)) w.res w.subj w.sub s

/-- Whether a request waits: its channel is in a window and it is a read that no queued write answers, or one to the same line
waits already (R360, R363). -/
def mustWait (ch : HbmChan) (w : HbmWait) : Bool :=
  (ch.wait.any fun y => y.addr / 64 == w.addr / 64)
    || (ch.window && w.write.isNone && !ch.wq.any fun y => y.line == w.addr / 64)

/-- HBM_REQUEST: a request to stack address `addr` on its channel: a write of bytes, or a read of `len` bytes of one line
whose data the stack delivers correct (0), corrected by the stack (1), corrected by SECDED (2) or uncorrectable (3).
`replays` counts the parity errors of its command (for a command to the whole channel where `whole`), `idle` the queued
writes issued in idle slots before it; `subj` and `sub` name what the line holds (R360, R363 to R369). -/
def execHbmRequest (t stack addr : Nat) (write : Option (List Byte)) (len res replays : Nat) (whole : Bool) (idle subj sub : Nat)
    (s : State) : Host.Outcome State Fault Refusal :=
  let s := s.atTime t
  let x := stackAt s stack
  let c := rankOf addr / 4
  let ch := x.chans.getD c {}
  let w : HbmWait := ⟨addr, write, len, res, replays, whole, subj, sub⟩
  if 6 ≤ stack ∨ 31 * gib ≤ addr ∨ x.st = 0 ∨ x.st = 3 ∨ x.selfRefresh then .next s
  else
    let s := if ch.window then s else issueWrites stack c idle s
    .next (if mustWait ch w then modChan stack c (fun x => { x with wait := x.wait ++ [w] }) s else request stack w s)

/-- The requests that waited for a window take effect, oldest first (R360, R363). -/
def requestsHeld (i c : Nat) (s : State) : State :=
  (((stackAt s i).chans.getD c {}).wait).foldl (fun s w => request i w s) (modChan i c (fun x => { x with wait := [] }) s)

/-- The window of a channel ends: one that has reached W keeps the previous settings and is an overrun, and the third in a row
raises RETRAIN_FAIL (R360). The write queue drains where it must, and what waited takes effect. -/
def windowOver (i c : Nat) (reached : Bool) (s : State) : State :=
  let x := (stackAt s i).chans.getD c {}
  let s := modChan i c (fun x => { x with window := false, ovf := if reached && x.ovf != 2 then x.ovf + 1 else 0 }) s
  let s := if reached then hbmCount i 15 1 s else s
  let s := if reached && x.ovf == 2 then raise 0x0E 7 (stackUnit i 63) (pay [(i, 1), (c, 1)]) s else s
  requestsHeld i c (drain i c s)

/-- The retraining windows that begin at a tide boundary; no window outlasts its tide, and the writes that have waited too long
are drained (R360, R364). -/
def retrainStarts (s : State) : State :=
  (List.range 6).foldl (fun s i =>
    let p := (memCfg s i).p
    let o := if i = 5 then p / 64 else 0
    (List.range 32).foldl (fun s c =>
      let x := (stackAt s i).chans.getD c {}
      let s := if x.window then windowOver i c true s else if x.wq.isEmpty then s else drain i c s
      if s.tm.tide % p = c * (p / 32) + o ∧ 1 ≤ (stackAt s i).st ∧ (stackAt s i).st ≤ 2 then
        hbmCount i 14 1 (modChan i c (fun x => { x with window := true, lastWin := s.tm.tide }) s)
      else s) s) s

/-- RETRAIN_WINDOW_END: the window of a channel ends (R360). -/
def execRetrainWindowEnd (t stack chan : Nat) (s : State) : Host.Outcome State Fault Refusal :=
  let s := s.atTime t
  let x := (stackAt s stack).chans.getD chan {}
  .next (if x.window then windowOver stack chan (decide ((memCfg s stack).w * nsU ≤ (s.tm.tide - x.lastWin) * tideU + s.tm.sub)) s else s)

/-- SCRUB_READ: the patrol scrubber reads the line at `addr`; a pass ends at the last line of the stack (R368). -/
def execScrubRead (t stack addr res : Nat) (s : State) : Host.Outcome State Fault Refusal :=
  let s := s.atTime t
  let x := stackAt s stack
  let r := rankOf addr
  if 6 ≤ stack ∨ 31 * gib ≤ addr ∨ x.st = 0 ∨ x.st = 3 ∨ x.selfRefresh ∨ (x.chans.getD (r / 4) {}).window then .next s
  else
    let s := if !x.backed r then s
      else if x.poison.contains (addr / 64) then hbmCount stack 9 1 s
      else if res = 3 then
        rankOut stack r 1 true (errorAct (stackUnit stack 33) 3 addr (hbmCount stack 5 1 s))
      else if res = 0 then s
      else corrected stack addr res s
    .next (if addr / 64 + 1 = 31 * gib / 64 then hbmCount stack 18 1 s else s)

/-- RANK_MIGRATED: the running migration completes, with the lines that were written to the target as poisoned; the entry
and the record are set, and the next migration starts (R373, R375). -/
def execRankMigrated (t stack : Nat) (poisoned : List Nat) (s : State) : Host.Outcome State Fault Refusal :=
  let s := s.atTime t
  match (stackAt s stack).migs with
  | [] => .next s
  | m :: ms =>
    let lines := (poisoned.filter fun l => rankOf (64 * l) == m.rank).eraseDups
    let s := lines.foldl (fun s l => poisonAdd stack l s) (hbmCount stack 8 lines.length s)
    let s := modStack stack (fun x => { x with map := x.map.set m.rank ⟨if m.donor then 2 else 1, m.target⟩, migs := ms }) s
    let s := raise 0x0E 3 (stackUnit stack 63) (pay [(stack, 1), (m.rank, 1), (m.target, 1), (lines.length, 4)])
      (remapRecord stack s)
    .next (startMig stack s)

/-- CE_WINDOW_END: the hourly window of a logical rank, of 28,800,000 tides, ends, and the next begins (R372). -/
def execCeWindowEnd (t stack rank : Nat) (s : State) : Host.Outcome State Fault Refusal :=
  let s := s.atTime t
  .next (if s.tm.bounds < tgetD (stackAt s stack).ceFrom rank 0 + 28800000 then s
    else modStack stack (fun x => { x with
      ce := terase x.ce rank, ceHit := x.ceHit.filter fun r => r != rank, ceFrom := tset x.ceFrom rank s.tm.bounds }) s)

/-- HBM_TEMP: a stack reports its temperature (R362). -/
def execHbmTemp (t stack : Nat) (temp : Int) (s : State) : Host.Outcome State Fault Refusal :=
  let s := modStack stack (fun x => { x with temp := temp }) (s.atTime t)
  if 6 ≤ stack then .next s
  else
    let (a, s) := tempStep stack 85 temp (stackAt s stack).hot85 s
    let (b, s) := tempStep stack 95 temp (stackAt s stack).hot95 s
    .next (modStack stack (fun x => { x with hot85 := a, hot95 := b }) s)

end Sys2Proof.Machine
end

