-- ==== Sys2Proof/Machine/Telem.lean ====
section
/-! DEFINITION. Telemetry commands and events: banks, bandwidth windows, dumps, user grants
(spec/21_telemetry_counters.md, R435). -/

namespace Sys2Proof.Machine

open Sys2Proof

/-! ### Counter banks (R543 to R547) -/

/-- Whether a bank's page is granted to users (R435). -/
def bankGranted (s : State) (b : Nat) : Bool := s.host.grants.contains (0x6000 + b)

/-- Own meaning of TELEM.BANK_SET: it takes effect at the next tide boundary (R544). -/
def actTelemBankSet : Act := fun _ q s =>
  let b := fld q 0 6 0
  let i := fld q 0 10 8
  let x : Sel := { ev := fld q 1 11 0, en := flag q 1 12, sample := flag q 1 13, period := wd64 q 2 }
  let mayPoll := (decide (b ≤ 15) && packetEvent (x.ev / 64) (x.ev % 64)) || (b == 80 && mpcEvent (x.ev / 64) (x.ev % 64))
  if 81 < b ∨ !bankEventOk b x.ev ∨ (x.sample ∧ (!mayPoll ∨ x.period < 1024 ∨ 2 ^ 47 < x.period))
      ∨ (bankGranted s b ∧ privilegedEvent b x.ev) then fail stNotPermitted s
  else done (modBank b (fun y => { y with pend := tset y.pend i x }) s)

def cmdTelemBankSet : Cmd := { op := 0x1301, need := fun _ => 4, objs := objOp 0x1301, act := actTelemBankSet }

/-- TELEM.BANK_SET (R544). -/
def execTelemBankSet (c : Call) (q : List Word) (s : State) : Host.Outcome State Fault Refusal :=
  .next (runCommand cmdTelemBankSet c q s)

/-- Own meaning of TELEM.BANK_READ (Table 21-1). -/
def actTelemBankRead : Act := fun _ q s =>
  let b := fld q 0 6 0
  if 81 < b then fail stNotPermitted s else reply ((bankOf s b).fields.flatMap fun v => toWords v 2) s

def cmdTelemBankRead : Cmd := { op := 0x1302, reading := true, need := fun _ => 1, act := actTelemBankRead }

/-- TELEM.BANK_READ (R539). -/
def execTelemBankRead (c : Call) (q : List Word) (s : State) : Host.Outcome State Fault Refusal :=
  .next (runCommand cmdTelemBankRead c q s)

/-- At a tide boundary the selections that wait take effect (R544). -/
def bankBoundary (s : State) : State :=
  let apply (x : Bank) : Bank := x.pend.foldl (fun x e => { x with
    sel := x.sel.set e.1 e.2
    pc := x.pc.set e.1 (if e.2.sample then 2 ^ 48 - e.2.period else 0)
    want := x.want.filter fun w => w.1 != e.1 }) { x with pend := [] }
  modTel (fun t => { t with samples := 0, banks := tmap t.banks fun _ x => apply x }) s

/-- SAMPLE_MPC: counter i of bank 80 wraps in sample mode, and an instruction of its core at `addr` is sampled (R545,
R546). -/
def execSampleMpc (t i addr : Nat) (s : State) : Host.Outcome State Fault Refusal :=
  let s := s.atTime t
  let sel := (bankOf s 80).sel.getD i {}
  if !(sel.en && sel.sample && mpcEvent (sel.ev / 64) (sel.ev % 64)) then .next s
  else
    let s := modBank 80 (fun x => { x with pc := x.pc.set i (2 ^ 48 - sel.period) }) s
    let dropped := (bankOf s 80).dropped
    match sampleAllowed 80 s with
    | (true, s) => .next (raise 0x13 1 (bankUnit 80) (pay [(i, 1), (sel.ev / 64, 1), (0, 2), (addr, 8), (dropped, 4)])
        (modBank 80 (fun x => { x with dropped := 0 }) s))
    | (false, s) => .next s

/-! ### User grants (R435, R547) -/

/-- Whether Table 15-7 has a counter group. -/
def groupKnown (g : Nat) : Bool := (decide (1 ≤ g) && decide (g ≤ 7)) || (decide (0x46 ≤ g) && decide (g ≤ 0x4F)) || g == 0x55 || g == 0x60

/-- Own meaning of TELEM.USER_GRANT (R435, R547). -/
def actTelemUserGrant : Act := fun _ q s =>
  let g := fld q 0 7 0
  let b := fld q 0 15 8
  let on := flag q 0 16
  let x := bankOf s b
  let priv := (x.sel ++ x.pend.map Prod.snd).any fun e => e.en && privilegedEvent b e.ev
  if !groupKnown g ∨ (g = 0x60 ∧ (81 < b ∨ (on ∧ (80 ≤ b ∨ priv)))) then fail stNotPermitted s
  else
    let k := if g = 0x60 then 0x6000 + b else g
    let rest := s.host.grants.filter fun x => x != k
    done { s with host := { s.host with grants := if on then rest ++ [k] else rest } }

def cmdTelemUserGrant : Cmd := { op := 0x1340, need := fun _ => 1, objs := objOp 0x1340, act := actTelemUserGrant }

/-- TELEM.USER_GRANT (R435). -/
def execTelemUserGrant (c : Call) (q : List Word) (s : State) : Host.Outcome State Fault Refusal :=
  .next (runCommand cmdTelemUserGrant c q s)

/-! ### Bandwidth windows (R548, R549) -/

/-- Change the window of port p. -/
def modWindow (p : Nat) (f : Window → Window) (s : State) : State := modTel (fun t => { t with bw := lmod t.bw p f }) s

/-- Own meaning of TELEM.BW_SET: W changes at a boundary, peaks are cleared at once; the W in force is no change (R549). -/
def actTelemBwSet : Act := fun _ q s =>
  let h := wd q 0
  let p := hIdx h
  let w := fld q 1 12 0
  if !((hType h == 0x30 && thas s.line.ports p) || (hType h == 0x32 && thas s.tr.ports p)) then fail stBadHandle s
  else if w = 0 ∨ 8000 < w then fail stNotPermitted s
  else done (modWindow p (fun x => { x with next := if w = x.w then none else some w, peak := if flag q 1 16 then [0, 0] else x.peak }) s)

def cmdTelemBwSet : Cmd := { op := 0x1310, need := fun _ => 2, objs := objWord0, act := actTelemBwSet }

/-- TELEM.BW_SET (R549). -/
def execTelemBwSet (c : Call) (q : List Word) (s : State) : Host.Outcome State Fault Refusal :=
  .next (runCommand cmdTelemBwSet c q s)

/-- Whether port p is in service. -/
def portServes (s : State) (p : Nat) : Bool :=
  match tget s.line.ports p, tget s.tr.ports p with
  | some x, _ => x.inService
  | none, some x => x.enabled
  | none, none => false

/-- BANDWIDTH_WINDOW_LATCH at boundary n, after a tide that was a bridging tide or not: the windows that end are latched,
and a W that waits is taken over at a multiple of it (R548, R549). -/
def bwBoundary (n : Nat) (bridging : Bool) (s : State) : State :=
  let one (x : Window) (p : Nat) : Window :=
    let serves := portServes s p
    let x := { x with open_ := x.open_ || bridging || !serves }
    let change := match x.next with
      | some w => n % w == 0
      | none => false
    if n % x.w ≠ 0 ∧ !change then x
    else
      let inc := x.open_ || change
      { x with
        last := x.cur, cur := [0, 0, 0, 0], ended := n, wLast := x.w, inc := inc, open_ := !serves
        peak := if inc then x.peak else [max (x.peak.getD 0 0) (x.cur.getD 0 0), max (x.peak.getD 1 0) (x.cur.getD 1 0)]
        w := if change then x.next.getD x.w else x.w
        next := if change then none else x.next }
  modTel (fun t => { t with bw := (t.bw.zipIdx).map fun (x, p) => one x p }) s

/-- A window that opens at boundary n is incomplete from its start where the port is out of service then; a port that enters
service at that boundary has served the whole window (R10, R548). -/
def bwOpened (n : Nat) (s : State) : State :=
  modTel (fun t => { t with bw := (t.bw.zipIdx).map fun (x, p) => if x.ended = n then { x with open_ := !portServes s p } else x }) s

/-! ### Dumps (R550 to R554) -/

/-- B of a dump stream, bytes (R553). -/
def DumpCfg.bytes (c : DumpCfg) : Nat := c.ranges.foldl (fun n r => n + 8 + 4096 * r.2) 64

/-- Whether the sum of B / Q over some streams is at most 1,500,000 bytes a tide (R553). -/
def dumpRateOk (cs : List DumpCfg) : Bool :=
  let (n, d) := cs.foldl (fun (a : Nat × Nat) c => (a.1 * c.q + c.bytes * a.2, a.2 * c.q)) (0, 1)
  decide (n ≤ 1500000 * d)

/-- Settings of TELEM.DUMP_SET. -/
def dumpCfgOf (q : List Word) : DumpCfg :=
  { en := flag q 0 8, notify := flag q 0 9, q := fld q 1 18 0, addr := wd64 q 2, slots := fld q 4 4 0, size := fld q 4 31 8
    ranges := (List.range (fld q 5 4 0)).map fun i => (fld q (6 + 2 * i) 18 0, fld q (7 + 2 * i) 18 0) }

/-- Whether settings that enable a stream keep the bounds of R550 and R553; its ranges are pages of PF2 BAR0. -/
def dumpCfgOk (c : DumpCfg) : Bool :=
  decide (8 ≤ c.q) && decide (c.q ≤ 480000) && decide (2 ≤ c.slots) && decide (c.slots ≤ 16) && c.addr % 4096 == 0
    && decide (1 ≤ c.ranges.length) && decide (c.ranges.length ≤ 16) && decide (c.bytes ≤ c.size * 4096)
    && c.ranges.all fun r => decide (r.1 + r.2 ≤ 524288)

/-- Own meaning of TELEM.DUMP_SET: it takes effect at the next tide boundary (R550, R553). -/
def actTelemDumpSet : Act := fun _ q s =>
  let i := fld q 0 1 0
  let c := dumpCfgOf q
  let others := ((s.tel.dumps.zipIdx).filter fun e => e.2 != i).map fun e => e.1.pend.getD e.1.cfg
  if c.en && !(dumpCfgOk c && dumpRateOk (c :: others.filter fun x => x.en)) then fail stNotPermitted s
  else done (modTel (fun t => { t with dumps := lmod t.dumps i fun d => { d with pend := some c } }) s)

def cmdTelemDumpSet : Cmd :=
  { op := 0x1320, need := fun q => 6 + 2 * fld q 5 4 0, objs := fun q => [[0x1320, fld q 0 1 0]], act := actTelemDumpSet }

/-- TELEM.DUMP_SET (R553). -/
def execTelemDumpSet (c : Call) (q : List Word) (s : State) : Host.Outcome State Fault Refusal :=
  .next (runCommand cmdTelemDumpSet c q s)

/-- Own meaning of TELEM.DUMP_STATUS (Table 21-7). -/
def actTelemDumpStatus : Act := fun _ q s =>
  let d := s.tel.dumps.getD (fld q 0 1 0) {}
  reply ([toWord (b2n d.cfg.en + 2 * b2n d.writing.isSome)] ++ toWords d.seq 2 ++ toWords d.latch 2 ++ [toWord d.skipped]) s

def cmdTelemDumpStatus : Cmd := { op := 0x1321, reading := true, need := fun _ => 1, act := actTelemDumpStatus }

/-- TELEM.DUMP_STATUS (R550). -/
def execTelemDumpStatus (c : Call) (q : List Word) (s : State) : Host.Outcome State Fault Refusal :=
  .next (runCommand cmdTelemDumpStatus c q s)

/-- The bytes of the pages of a range, after its two words (R552). -/
def rangeBytes (s : State) (r : Nat × Nat) : List Byte :=
  wordBytes [toWord r.1, toWord r.2] ++ (List.range r.2).flatMap fun i => (List.range 512).flatMap fun f => leBytes (pf2Field s (r.1 + i) f) 8

/-- A record as it stands when it is whole: header with its CRC, and data (Table 21-6). -/
def dumpRecord (i : Nat) (d : Dump) (s : State) : List Byte :=
  let data := d.cfg.ranges.flatMap (rangeBytes s)
  let tb := nowTb s
  let head := [toWord 0x7E1E0013, toWord (i * 2 + d.cfg.ranges.length * 256)] ++ toWords d.seq 2 ++ toWords s.tm.tide 2
    ++ toWords tb 2 ++ [toWord (tb / 2 ^ 64 % 65536 + b2n (!timeLocked s) * 2 ^ 16 + b2n d.basis * 2 ^ 17),
      toWord d.skips, toWord data.length, toWord d.cfg.q, 0#32, 0#32, 0#32]
  let crc := crc32c (wordBytes head ++ data)
  wordBytes (head ++ [toWord crc]) ++ data

/-- DUMP_LATCH at boundary n: settings that wait are taken over, and the streams whose period divides n latch
(R550, R553); the writing of a record begins with header word 1, busy (R552). -/
def dumpBoundary (n : Nat) (s : State) : State :=
  (List.range 4).foldl (fun s i =>
    let s := modTel (fun t => { t with dumps := lmod t.dumps i fun d => match d.pend with
      | some c =>
        if c.en && !d.cfg.en then { d with cfg := c, pend := none, seq := 0, skips := 0, writing := none }
        else { d with cfg := c, pend := none, writing := if c.en then d.writing else none }
      | none => d }) s
    let d := s.tel.dumps.getD i {}
    if !d.cfg.en || n % d.cfg.q != 0 || s.id.fwState == 3 then s
    else if d.writing.isSome then
      telCount 1 1 (modTel (fun t => { t with dumps := lmod t.dumps i fun d =>
        { d with latch := n, skipped := min (2 ^ 32 - 1) (d.skipped + 1), skips := min (2 ^ 32 - 1) (d.skips + 1) } }) s)
    else
      let r := dumpRecord i d s
      let a := d.cfg.addr + d.seq % d.cfg.slots * d.cfg.size * 4096
      hostWrite (a + 4) (busyWord (r.drop 4)) (modTel (fun t => { t with dumps := lmod t.dumps i fun d =>
        { d with latch := n, slot := a, writing := some r, skips := 0, basis := false } }) s)) s
where
  /-- Header word 1 with the busy bit set (R552). -/
  busyWord (bs : List Byte) : List Byte := (bs.take 1).map (fun b => b ||| 1#8) ++ (bs.drop 1).take 3

/-- DUMP_RECORD_WRITTEN: the record that a stream latched is in host memory, or its DMA failed at an address (R552,
R554). -/
def execDumpRecordWritten (t i : Nat) (failed : Option Nat) (s : State) : Host.Outcome State Fault Refusal :=
  let s := s.atTime t
  match s.tel.dumps[i]? with
  | none => .next s
  | some d =>
    match d.writing, failed with
    | none, _ => .next s
    | some _, some a =>
      let s := modTel (fun t => { t with dumps := lmod t.dumps i fun d => { d with cfg := { d.cfg with en := false }, writing := none } }) s
      let s := pioCount 1 1 { s with host := { s.host with dmaErr := a } }
      .next (raise 0x13 4 (mainUnit 10) (pay [(i, 1)]) s)
    | some r, none =>
      let s := hostWrite d.slot r s
      let s := modTel (fun t => { t with dumps := lmod t.dumps i fun d => { d with writing := none, seq := (d.seq + 1) % 2 ^ 64 } }) s
      let s := telCount 2 r.length (telCount 0 1 s)
      .next (if d.cfg.notify then raise 0x13 3 (mainUnit 10) (pay [(i, 1), (0, 3), (d.seq, 8), (d.latch, 8)]) s else s)

/-! ### Counters (R555) -/

/-- Own meaning of TELEM.COUNTERS: always accumulating, so the snapshot flag is ignored (R555, R67). -/
def actTelemCounters : Act := fun _ _ s => reply (ctrWords s.ctr 0x53 0 (List.range 5)) s

def cmdTelemCounters : Cmd := { op := 0x1330, reading := true, need := fun _ => 1, act := actTelemCounters }

/-- TELEM.COUNTERS (R555). -/
def execTelemCounters (c : Call) (q : List Word) (s : State) : Host.Outcome State Fault Refusal :=
  .next (runCommand cmdTelemCounters c q s)

end Sys2Proof.Machine
end

