-- ==== Sys2Proof/Machine/HostOps.lean ====
section
/-! DEFINITION. Operations of the host attachment: registers, rings, moderated sources and resets
(spec/15_host_pcie.md). Host memory is one memory: a row that makes the K12 read it carries what the host has put there
since the last such row. -/

namespace Sys2Proof.Machine

open Sys2Proof

/-- Change the host attachment's state. -/
def modHost (f : HostIf → HostIf) (s : State) : State := { s with host := f s.host }

/-- What the host has written to its own memory. -/
def hostFed (fed : List (Nat × List Byte)) (s : State) : State := fed.foldl (fun s e => hostWrite e.1 e.2 s) s

/-- An aligned 8-byte address read from host memory by DMA. -/
def hostAddr (s : State) (a : Nat) : Nat := leNat (mreadBytes s.host.mem a 8)

/-! ### Field writes (R5, R7, R583) -/

/-- What a write of v makes of a field that holds old: the value after it, and the number of LOCK_VIOL counts. A locked
field refuses another value (R7); a value outside the field's range leaves it unchanged (R583). -/
def fieldWrite (locked ok : Bool) (old v : Nat) : Nat × Nat :=
  if v = old then (old, 0) else if locked || !ok then (old, 1) else (v, 0)

/-- Count n register-lock violations. -/
def lockViols (n : Nat) (s : State) : State := (List.range n).foldl (fun s _ => lockViol s) s

/-- A write to a moderation register: M has 12 bits; U is at most 1,000 us (R421, R583). -/
def modWrite (m : Moderation) (v : Nat) : Moderation × Nat :=
  let u := fieldWrite false (decide (bits v 25 16 ≤ 1000)) m.u (bits v 25 16)
  ({ m with m := bits v 11 0, u := u.1 }, u.2)

/-- Replace the low (hi = false) or the high 32 bits of an address (R2). -/
def halfPut (hi : Bool) (a v : Nat) : Nat := if hi then a % 2 ^ 32 + v * 2 ^ 32 else a / 2 ^ 32 * 2 ^ 32 + v

/-- A write to one half of a ring address, whose low half holds bits [31:align] (R423). -/
def addrWrite (locked hi : Bool) (align a v : Nat) : Nat × Nat :=
  let v := if hi then v else v / 2 ^ align * 2 ^ align
  let r := fieldWrite locked true (if hi then a / 2 ^ 32 else a % 2 ^ 32) v
  (halfPut hi a r.1, r.2)

/-! ### PF0 registers (Table 15-3) -/

/-- A write to EVR_CTRL: the ring size is locked while the ring is enabled, the DMA fault is W1C, and Enable from 0 to 1
sets the counts to 0 (R423, R583). -/
def evrCtrlWrite (v : Nat) (s : State) : State :=
  let h := s.host
  let k := fieldWrite h.evrEnable (decide (12 ≤ bits v 4 0) && decide (bits v 4 0 ≤ 20)) h.evrLog (bits v 4 0)
  let up := bit v 31 && !h.evrEnable
  lockViols k.2 (modHost (fun h => { h with
    evrLog := k.1, evrFault := h.evrFault && (!bit v 30 || h.faultAt == elapsed s + 1), evrEnable := bit v 31
    evrProducer := if up then 0#32 else h.evrProducer
    evrConsumer := if up then 0#32 else h.evrConsumer
    evrMod := if up then { h.evrMod with unsig := 0 } else h.evrMod }) s)

/-- A write to EVR_CONSUMER: a value that would make the difference exceed the ring or fall below 0 is ignored (R424). -/
def evrConsumerWrite (v : Nat) (s : State) : State :=
  if 2 ^ s.host.evrLog < (s.host.evrProducer - toWord v).toNat then lockViol s
  else modHost (fun h => { h with evrConsumer := toWord v }) s

/-- A read of EVR_LOST, which clears it (R5). -/
def evrLostRead (s : State) : State := modHost (fun h => { h with answer := [h.evrLost], evrLost := 0#32 }) s

/-- A write to TSR_CONSUMER (R346). -/
def tsrConsumerWrite (v : Nat) (s : State) : State := modHost (fun h => { h with tsrConsumer := toWord v }) s

/-- The MB_DONE bits that hardware sets at this very instant, which a write does not clear (R6). -/
def doneNow (s : State) : Word :=
  s.host.doneAt.foldl (fun w e => if e.2 = elapsed s + 1 then w ||| (1#32 <<< e.1) else w) 0#32

/-- A write to MB_DONE: the host takes the mailboxes whose bits it sets (R439), but for those that set at the same instant
(R6). -/
def mbDoneWrite (v : Nat) (s : State) : State :=
  modHost (fun h => { h with mbDone := h.mbDone &&& (~~~(toWord v) ||| doneNow s) }) s

/-- A doorbell or a write that mailbox m refuses: LOCK_VIOL, and MAILBOX_LOCK for at most one per mailbox and tide
(R440). -/
def mbRefuse (m cause : Nat) (s : State) : State :=
  let b := s.ecs.mbs.getD m {}
  let s := lockViol s
  if b.lockTide = s.tm.tide + 1 then s
  else raise 1 2 (mainUnit 11) (pay [(m, 1), (cause, 1)]) (putMb m { b with lockTide := s.tm.tide + 1 } s)

/-- A write of a word into the mailboxes, at offset o from their base (R438, R440). -/
def mbHostWrite (o v : Nat) (s : State) : State :=
  let m := o / 4096
  if (s.ecs.mbs.getD m {}).owned then mbRefuse m 2 s
  else { s with ecs := { s.ecs with mem := mwriteWord s.ecs.mem o (toWord v) } }

/-- The offsets of the PF0 registers (Table 15-3). -/
def pf0Listed : List Nat :=
  [0x0, 0x4, 0x8, 0xC, 0x10, 0x18, 0x1C, 0x20, 0x100, 0x104, 0x200, 0x204, 0x208, 0x20C, 0x210, 0x214, 0x218, 0x300, 0x304,
    0x308, 0x400, 0x410, 0x420, 0x424]

/-- The value that a read of a PF0 register returns; reserved ranges read as 0 (Table 15-3, R420). -/
def pf0Read (s : State) (o : Nat) : Word :=
  let h := s.host
  let modv (m : Moderation) : Nat := m.m + m.u * 65536
  if 0x10000 ≤ o ∧ o < 0x30000 then mreadWord s.ecs.mem (o - 0x10000)
  else toWord (match o with
    | 0x0 => 0xB0 + b2n Config.ordering * 2 ^ 8 + s.id.lifecycle * 2 ^ 9 + s.id.devid * 2 ^ 12 + b2n s.id.twinEn * 2 ^ 14
    | 0x4 => s.id.fwVersion
    | 0x8 => Config.udn.toNat
    | 0xC => Config.udn.toNat / 2 ^ 32
    | 0x10 => s.id.fwState + s.id.image * 8
    | 0x18 => s.tm.tide
    | 0x1C => s.tm.tide / 2 ^ 32
    | 0x20 => h.scratch.toNat
    | 0x104 => h.mbDone.toNat
    | 0x200 => h.evrBase
    | 0x204 => h.evrBase / 2 ^ 32
    | 0x208 => h.evrLog + b2n h.evrFault * 2 ^ 30 + b2n h.evrEnable * 2 ^ 31
    | 0x20C => h.evrProducer.toNat
    | 0x210 => h.evrConsumer.toNat
    | 0x214 => modv h.evrMod
    | 0x218 => h.evrLost.toNat
    | 0x300 => h.tsrProducer.toNat
    | 0x304 => h.tsrConsumer.toNat
    | 0x308 => modv h.tsrMod
    | 0x400 => h.lockViol.toNat
    | 0x410 => h.linkStatus.toNat
    | 0x420 => h.dmaErr
    | 0x424 => h.dmaErr / 2 ^ 32
    | _ => 0)

/-! ### PF1 registers (Table 15-4) -/

/-- Change receive (tx = false) or transmit ring r. -/
def modRing (tx : Bool) (r : Nat) (f : Ring → Ring) (s : State) : State :=
  modHost (fun h => if tx then { h with tx := lmod h.tx r f } else { h with rx := lmod h.rx r f }) s

/-- Ring r of a direction. -/
def ringOf (tx : Bool) (r : Nat) (s : State) : Ring := ((if tx then s.host.tx else s.host.rx)[r]?).getD {}

/-- A write to a ring's CTRL: ring and buffer size are locked while it is enabled; Enable from 0 to 1 sets its counts to
0 (R423, R583). -/
def ringCtrlWrite (tx : Bool) (r v : Nat) (s : State) : State :=
  let x := ringOf tx r s
  let k := fieldWrite x.enable (decide (8 ≤ bits v 4 0) && decide (bits v 4 0 ≤ 16)) x.logSize (bits v 4 0)
  let b := if tx then (x.bufSize, 0)
    else fieldWrite x.enable (decide (1 ≤ bits v 14 8) && decide (bits v 14 8 ≤ 64)) x.bufSize (bits v 14 8)
  let up := bit v 31 && !x.enable
  lockViols (min 1 (k.2 + b.2)) (modRing tx r (fun x => { x with
    logSize := k.1, bufSize := b.1, enable := bit v 31
    tail := if up then 0#32 else x.tail
    head := if up then 0#32 else x.head
    cmp := if up then 0#32 else x.cmp
    mdr := if up then { x.mdr with unsig := 0 } else x.mdr }) s)

/-- A write to a ring's TAIL (R428, R432). -/
def tailWrite (tx : Bool) (r v : Nat) (s : State) : State := modRing tx r (fun x => { x with tail := toWord v }) s

/-- A write to a register of a ring's block at offset o (Table 15-4); an unlisted offset is a reserved range (R420). -/
def ringWrite (tx : Bool) (r o v : Nat) (s : State) : State :=
  let x := ringOf tx r s
  match o with
  | 0x00 => let a := addrWrite x.enable false 6 x.base v; lockViols a.2 (modRing tx r (fun x => { x with base := a.1 }) s)
  | 0x04 => let a := addrWrite x.enable true 6 x.base v; lockViols a.2 (modRing tx r (fun x => { x with base := a.1 }) s)
  | 0x08 => let a := addrWrite x.enable false 3 x.aux v; lockViols a.2 (modRing tx r (fun x => { x with aux := a.1 }) s)
  | 0x0C => let a := addrWrite x.enable true 3 x.aux v; lockViols a.2 (modRing tx r (fun x => { x with aux := a.1 }) s)
  | 0x10 => ringCtrlWrite tx r v s
  | 0x14 => tailWrite tx r v s
  | 0x18 => s
  | 0x1C => s
  | 0x20 => let m := modWrite x.mdr v; lockViols m.2 (modRing tx r (fun x => { x with mdr := m.1 }) s)
  | 0x24 =>
    let k := fieldWrite false (decide (bits v 7 0 ≤ 191)) x.vector (bits v 7 0)
    lockViols k.2 (modRing tx r (fun x => { x with vector := k.1 }) s)
  | _ => pioCount 3 1 s

/-- The value that a read of a PF1 register returns (Table 15-4, R420). -/
def pf1Read (s : State) (o : Nat) : Word :=
  if 0x8000 ≤ o then 0#32
  else
    let tx := decide (0x4000 ≤ o)
    let x := ringOf tx (o % 0x4000 / 0x100) s
    toWord (match o % 0x100 with
      | 0x00 => x.base
      | 0x04 => x.base / 2 ^ 32
      | 0x08 => x.aux
      | 0x0C => x.aux / 2 ^ 32
      | 0x10 => x.logSize + (if tx then 0 else x.bufSize * 2 ^ 8) + b2n x.enable * 2 ^ 31
      | 0x14 => x.tail.toNat
      | 0x18 => x.head.toNat
      | 0x1C => if tx then 0 else x.cmp.toNat
      | 0x20 => x.mdr.m + x.mdr.u * 65536
      | 0x24 => x.vector
      | _ => 0)

/-- A write to an MSI-X table, at a byte offset: address, data, and the mask bit of the vector control word; an entry that
is unmasked while its pending bit is set sends its message (R420, R421). -/
def msixWrite (fn o v : Nat) (s : State) : State :=
  let n := o / 16
  if (if fn = 0 then 64 else 192) ≤ n then s
  else
    let e := tgetD s.host.msix (msixKey fn n) {}
    let e' := match o % 16 / 4 with
      | 0 => { e with addr := halfPut false e.addr v }
      | 1 => { e with addr := halfPut true e.addr v }
      | 2 => { e with data := toWord v }
      | _ => { e with masked := bit v 0 }
    let fire := e.pend && !e'.masked
    let s := modHost (fun h => { h with msix := tset h.msix (msixKey fn n) { e' with pend := e.pend && !fire } }) s
    if fire then emit (.msix fn n) s else s

/-! ### Moderated sources (R421) -/

/-- Write back a transmit ring's HEAD (R432). -/
def headBack (r : Nat) (s : State) : State :=
  let x := ringOf true r s
  hostWriteWords x.aux [x.head] s

/-- Signal a source if it is due: 0 the event ring, 1 the timestamp ring, 2 + r receive ring r, 66 + r transmit ring r,
which writes HEAD back as well (R421, R432, Table 15-2). -/
def moderate (src : Nat) (s : State) : State :=
  let now := elapsed s
  if src = 0 then
    if s.host.evrMod.due now then signal 0 32 (modHost (fun h => { h with evrMod := h.evrMod.signalled }) s) else s
  else if src = 1 then
    if s.host.tsrMod.due now then signal 0 33 (modHost (fun h => { h with tsrMod := h.tsrMod.signalled }) s) else s
  else
    let tx := decide (66 ≤ src)
    let r := if tx then src - 66 else src - 2
    if 64 ≤ r then s
    else if (ringOf tx r s).mdr.due now then
      let s := modRing tx r (fun x => { x with mdr := x.mdr.signalled }) s
      signal 1 (ringOf tx r s).vector (if tx then headBack r s else s)
    else s

/-! ### The event ring (R424, R425) -/

/-- The words of an event record with its phase bit (Table 15-5). -/
def eventWords (e : EventRec) (phase : Bool) : List Word :=
  [toWord (b2n phase * 2 ^ 31 + e.cls % 128 * 2 ^ 16 + e.code % 65536), toWord (e.unit % 65536 + e.tide / 2 ^ 32 % 65536 * 65536), toWord e.tide]
    ++ packWords ((e.payload ++ List.replicate 20 0#8).take 20)

/-- Whether the event ring is full (R424). -/
def evrFull (s : State) : Bool := decide (2 ^ s.host.evrLog ≤ (s.host.evrProducer - s.host.evrConsumer).toNat)

/-- Write a record at the producer's position (R424). -/
def eventWrite (e : EventRec) (s : State) : State :=
  let h := s.host
  let n := h.evrProducer.toNat
  let s := hostWriteWords (h.evrBase + 32 * (n % 2 ^ h.evrLog)) (eventWords e (n / 2 ^ h.evrLog % 2 == 0)) s
  moderate 0 (modHost (fun h => { h with evrProducer := h.evrProducer + 1#32, evrMod := h.evrMod.wrote (elapsed s) }) s)

/-! ### Resets (R419) -/

/-- Reset a PF1 ring: the registers that Table 15-4 marks, the frames held for it dropped and counted (R419). -/
def ringReset (tx : Bool) (r : Nat) (s : State) : State :=
  let x := ringOf tx r s
  let s := if tx ∨ x.fifo.isEmpty then s else ringCount r 3 x.fifo.length s
  modRing tx r (fun x => { x with
    base := 0, aux := 0, logSize := 8, bufSize := 8, enable := false, mdr := {}, vector := if tx then 64 + r else r, fifo := [] }) s

/-- The mailboxes after a reset of PF0: those that the K12 does not own are done; a running command's response is
discarded; masks are full and flags clear (R419, R439, R448). -/
def mailboxReset (s : State) : State :=
  let s := modHost (fun h => { h with mbDone := 0#32 }) s
  let s := (List.range 32).foldl (fun s m => if (s.ecs.mbs.getD m {}).owned then s else setDone m true s) s
  { s with ecs := { s.ecs with mbs := s.ecs.mbs.map fun b => { b with
      discard := b.owned, mask := 0x003FFFFE, readOnly := false } } }

/-- Reset one function: host-facing state only (R419, R554). -/
def functionReset (fn : Nat) (s : State) : State :=
  let s := modHost (fun h => { h with
    cfg := h.cfg.filter fun e => e.1 / 4096 != fn
    msix := h.msix.filter fun e => e.1 / 256 != fn }) s
  if fn = 0 then
    let s := modHost (fun h => { h with
      scratch := 0#32, evrBase := 0, evrLog := 12, evrFault := false, faultAt := 0, evrEnable := false, evrMod := {}, evrLost := 0#32
      tsrEnable := false, tsrStopped := false, tsrProducer := 0#32, tsrConsumer := 0#32, tsrMod := {}, dmaErr := 0 }) s
    let off (d : Dump) : Dump := { d with cfg := { d.cfg with en := false }, pend := none, writing := none }
    mailboxReset { s with tel := { s.tel with dumps := s.tel.dumps.map off } }
  else if fn = 1 then
    (List.range 64).foldl (fun s r => ringReset true r (ringReset false r s)) s
  else modHost (fun h => { h with grants := [] }) s

/-! ### Host reads of the user aperture (R435) -/

/-- Whether a page of the user aperture is granted. -/
def granted (s : State) (x : Nat) : Bool :=
  let g := pf2Group x
  g != 0 && s.host.grants.contains g

/-- A read of n bytes at address a of the user aperture, judged page by page: the bytes and the pages denied; fuel bounds
the pages. -/
def userRead (s : State) : Nat → Nat → Nat → List Byte × Nat
  | 0, _, _ => ([], 0)
  | fuel + 1, a, n =>
    if n = 0 then ([], 0)
    else
      let k := min n (4096 - a % 4096)
      let (bs, d) := userRead s fuel (a + k) (n - k)
      if granted s (a / 4096) then ((List.range k).map (fun i => pf2Byte s (a + i)) ++ bs, d)
      else (List.replicate k 0#8 ++ bs, d + 1)

/-! ### Receive rings (R428, R429) -/

/-- The completion of a frame (Table 15-6). -/
def rxCompletion (x : Ring) (status bytes used : Nat) (f : HostFrame) : List Word :=
  let n := x.cmp.toNat
  [toWord (b2n (n / 2 ^ x.logSize % 2 == 0) * 2 ^ 31 + status * 65536 + bytes), toWord (x.head.toNat % 2 ^ x.logSize + used * 65536),
    toWord f.ts, toWord (f.ts / 2 ^ 32), toWord (f.ts / 2 ^ 64 % 65536), 0#32, 0#32, 0#32] ++ f.md

/-- Write bytes into the buffers of a ring from position i on, filling each before the next (R428); fuel bounds the
buffers. -/
def fillBuffers (x : Ring) : Nat → Nat → List Byte → State → State
  | 0, _, _, s => s
  | fuel + 1, i, bs, s =>
    if bs.isEmpty then s
    else
      let a := hostAddr s (x.base + 8 * ((x.head.toNat + i) % 2 ^ x.logSize))
      fillBuffers x fuel (i + 1) (bs.drop (256 * x.bufSize)) (hostWrite a (bs.take (256 * x.bufSize)) s)

/-- n bytes of which nothing is known. -/
def freeBytes (n : Nat) (s : State) : List Byte × State :=
  ((List.range n).map fun i => BitVec.ofNat 8 (Config.freeNat (s.fresh + i)), { s with fresh := s.fresh + n })

/-- Deliver the oldest frame of receive ring r, whole, or drop it where the posted buffers do not hold it (R428, R429). -/
def rxDeliver (r : Nat) (s : State) : State :=
  let x := ringOf false r s
  let avail := (x.tail - x.head).toNat
  match x.fifo with
  | [] => s
  | f :: rest =>
    if !x.enable || ringsWithheld s || avail = 0 then s
    else
      let need := max 1 (ceilDiv f.bytes.length (256 * x.bufSize))
      let ok := decide (need ≤ avail)
      let used := min need avail
      let bytes := if ok then f.bytes.length else used * 256 * x.bufSize
      let (bs, s) := if ok then (f.bytes, s) else freeBytes bytes s
      let s := fillBuffers x used 0 bs s
      let s := hostWriteWords (x.aux + 64 * (x.cmp.toNat % 2 ^ x.logSize)) (rxCompletion x (b2n !ok) bytes used f) s
      let s := modRing false r (fun x => { x with
        fifo := rest, cmp := x.cmp + 1#32, head := x.head + toWord used, mdr := x.mdr.wrote (elapsed s) }) s
      moderate (2 + r) (if ok then ringCount r 1 bytes (ringCount r 0 1 s) else ringCount r 2 1 s)

/-! ### Transmit rings (R430 to R432) -/

/-- Descriptor at count n of a transmit ring (Table 15-8). -/
def descOf (s : State) (x : Ring) (n : Nat) : List Word := mreadWords s.host.mem (x.base + 32 * (n % 2 ^ x.logSize)) 8

/-- The frame that begins at a ring's HEAD, from its descriptors i on, of those posted: its descriptors, and whether a
descriptor with first set ended it; none where it is not posted whole (R430, R432). -/
def txFrame (s : State) (x : Ring) : Nat → Nat → Option (List (List Word) × Bool)
  | 0, _ => none
  | fuel + 1, i =>
    let d := descOf s x (x.head.toNat + i)
    if i ≠ 0 ∧ flag d 2 14 then some ([], true)
    else if flag d 2 15 then some ([d], false)
    else (txFrame s x fuel (i + 1)).map fun e => (d :: e.1, e.2)

/-- The frame at the head of transmit ring r, where a whole one is posted; a ring full of descriptors that end no frame
holds one frame that spans them all. -/
def txHead (s : State) (r : Nat) : Option (List (List Word) × Bool) :=
  let x := ringOf true r s
  let n := (x.tail - x.head).toNat
  if !x.enable ∨ ringsWithheld s ∨ n = 0 then none
  else match txFrame s x (min n (2 ^ x.logSize)) 0 with
    | some e => some e
    | none => if 2 ^ x.logSize ≤ n then some ((List.range (2 ^ x.logSize)).map fun i => descOf s x (x.head.toNat + i), false) else none

/-- The transmit ring served next: the first in turn with a whole frame posted (R432). -/
def txTurn (s : State) : Option (Nat × List (List Word) × Bool) :=
  ((List.range 64).map fun i => (s.host.txNext + i) % 64).findSome? fun r => (txHead s r).map fun e => (r, e)

/-- Whether the K12 drops a frame for its descriptors (R432). -/
def txBad (s : State) (ds : List (List Word)) (again : Bool) : Bool :=
  let d := ds.headD []
  let local_ := match sysLocal s (fld d 4 15 0) with
    | some l => decide (l < 64)
    | none => false
  again || decide (64 < ds.length) || decide (16000 < ds.foldl (fun n d => n + fld d 2 13 0) 0) || decide (2 ≤ fld d 3 1 0)
    || (fld d 3 1 0 == 1 && flag d 3 9 && !local_)

/-- Inject a frame by lookup: pass 1 in the recirculation queue of pipeline 2k + (n mod 2), k = n mod 8 (R135, R431). -/
def injectLookup (r : Nat) (k : Pkt) (s : State) : State :=
  { s with fwd := { s.fwd with pipes := lmod s.fwd.pipes (2 * (r % 8) + r % 2) fun x => { x with
      recirc := x.recirc ++ [{ k with md := { k.md with pass := 1 } }] } } }

/-- Serve the transmit ring whose turn it is (R430 to R432). -/
def txServe (s : State) : State :=
  match txTurn s with
  | none => s
  | some (r, ds, again) =>
    let d := ds.headD []
    let bs := ds.flatMap fun d => mreadBytes s.host.mem (wd64 d 0) (fld d 2 13 0)
    let bad := txBad s ds again
    let s := modHost (fun h => { h with txNext := (r + 1) % 64 }) s
    let k : Pkt := {
      bytes := bs
      md := { injected := true, port := if fld d 3 1 0 = 0 then fld d 3 7 2 else 0, len := bs.length + 4
              inEpoch := s.fwd.epoch, egEpoch := s.fwd.epoch, arrival := ns32 (nowLin s) }
      ts := nowTb s, since := elapsed s, owner := 3, oneStep := flag d 3 8
      cap := if flag d 3 9 then some (fld d 3 31 16) else none }
    let direct : Meta := { k.md with dsp := fld d 4 15 0, cls := fld d 4 18 16, queue := fld d 5 19 0, edit := fld d 6 23 0 }
    let s :=
      if bad then
        let s := ringCount r 18 1 s
        if (ringOf true r s).faultTide = s.tm.tide + 1 then s
        else raise 0x15 2 (mainUnit 6) (pay [(1, 1), (r, 1), (1, 1), (2, 1)]) (modRing true r (fun x => { x with faultTide := s.tm.tide + 1 }) s)
      else
        let s := ringCount r 17 bs.length (ringCount r 16 1 s)
        if fld d 3 1 0 = 0 then injectLookup r k s
        else { s with td := { s.td with ingress := s.td.ingress ++ [{ k with md := direct }] } }
    let s := modRing true r (fun x => { x with head := x.head + toWord ds.length, mdr := x.mdr.wrote (elapsed s) }) s
    let x := ringOf true r s
    if x.mdr.due (elapsed s) then moderate (66 + r) s else if x.head = x.tail then headBack r s else s

/-! ### DMA errors (R433) -/

/-- A DMA request of a ring failed at address a: source as in moderate. The ring that issued it stops. -/
def dmaFail (src a : Nat) (s : State) : State :=
  let note (fn ring dir : Nat) (s : State) : State :=
    raise 0x15 2 (mainUnit 6) (pay [(fn, 1), (ring, 1), (dir, 1), (1, 1)])
      (pioCount 1 1 (modHost (fun h => { h with dmaErr := a }) s))
  if src = 0 then
    if s.host.evrEnable then
      signal 0 32 (note 0 0 0 (modHost (fun h => { h with evrFault := true, faultAt := elapsed s + 1, evrEnable := false }) s))
    else s
  else if src = 1 then
    if s.host.tsrEnable && !s.host.tsrStopped then note 0 1 0 (modHost (fun h => { h with tsrStopped := true }) s) else s
  else
    let tx := decide (66 ≤ src)
    let r := if tx then src - 66 else src - 2
    if decide (64 ≤ r) || !(ringOf tx r s).enable then s
    else note 1 r (b2n tx) (modRing tx r (fun x => { x with enable := false, fifo := x.fifo.drop 1 }) s)

end Sys2Proof.Machine
end

