-- ==== Sys2Proof/Machine/Pio.lean ====
section
/-! DEFINITION. The commands of ECS area 0x15 (Table 15-10). -/

namespace Sys2Proof.Machine

open Sys2Proof

/-- Own meaning of PIO.RING_MAP: reason 0 is refused; staged, it applies at the commit tide (R427). -/
def actPioRingMap : Act := fun x q s =>
  if fld q 0 7 0 = 0 then fail stNotPermitted s
  else if x.ph = .stage then done s
  else done (modHost (fun h => { h with ringMap := mset 0 h.ringMap (fld q 0 7 0) (fld q 1 5 0) }) s)

def cmdPioRingMap : Cmd :=
  { op := 0x1501, staging := .may, need := fun _ => 2, objs := fun q => [[0x1501, fld q 0 7 0]], act := actPioRingMap }

/-- PIO.RING_MAP (R427). -/
def execPioRingMap (c : Call) (q : List Word) (s : State) : Host.Outcome State Fault Refusal :=
  .next (runCommand cmdPioRingMap c q s)

/-- Own meaning of PIO.COUNTERS: a ring's counters in index order, or the device's (R436); always accumulating, so the
snapshot flag is ignored (R67). -/
def actPioCounters : Act := fun _ q s =>
  if 64 < fld q 0 6 0 then fail stNotPermitted s
  else if fld q 0 6 0 = 64 then reply (ctrWords s.ctr 0x55 0 [0, 1, 2, 3]) s
  else reply (ctrWords s.ctr 0x55 (fld q 0 6 0 + 1) [0, 1, 2, 3, 16, 17, 18]) s

def cmdPioCounters : Cmd := { op := 0x1502, reading := true, need := fun _ => 2, act := actPioCounters }

/-- PIO.COUNTERS (R436). -/
def execPioCounters (c : Call) (q : List Word) (s : State) : Host.Outcome State Fault Refusal :=
  .next (runCommand cmdPioCounters c q s)

end Sys2Proof.Machine
end

