-- ==== Sys2Proof/Machine/Power.lean ====
section
/-! DEFINITION. Commands and events of the power governor (spec/18_power_governor.md). -/

namespace Sys2Proof.Machine

open Sys2Proof

/-- A direct change of tolerances: admission counts the old ones until the boundary after the next (R491). -/
def tolChange (x : Ctx) (t : Tols) (s : State) : State :=
  let old := match s.pow.lag with | some (_, o) => o | none => s.pow.tol
  { s with pow := { s.pow with tol := t, lag := if x.ph = .direct then some (2, old) else none } }

/-- Own meaning of POWER.TOL_SET (R488). -/
def actPowerTolSet : Act := fun x q s =>
  if (List.range 9).any fun i => decide (1000000000 < wd q i) then fail stNotPermitted s
  else if x.ph = .stage then done s
  else done (tolChange x (tolIn q s.pow.tol) s)

def cmdPowerTolSet : Cmd :=
  { op := 0x1001, staging := .may, need := fun _ => 9, objs := objOp 0x1001, adm := true, act := actPowerTolSet }

/-- POWER.TOL_SET (R488). -/
def execPowerTolSet (c : Call) (q : List Word) (s : State) : Host.Outcome State Fault Refusal :=
  .next (runCommand cmdPowerTolSet c q s)

/-- Own meaning of POWER.PORT_SET (R488, R495). -/
def actPowerPortSet : Act := fun x q s =>
  let h := wd q 0
  let p := hIdx h
  let y := powerPortIn q
  if !((hType h == 0x30 || hType h == 0x32) && x.knows s h) then fail stBadHandle s
  else if 1000000000 < y.tol ∨ y.delay < 8 ∨ 80000000 < y.delay then fail stNotPermitted s
  else if x.ph = .stage then done s
  else if y.off && neverOff s p then fail stNotPermitted s
  else done (tolChange x { s.pow.tol with ports := tset s.pow.tol.ports p y } s)

def cmdPowerPortSet : Cmd :=
  { op := 0x1002, staging := .may, need := fun _ => 4, objs := objWord0, refs := refWord0, adm := true, act := actPowerPortSet }

/-- POWER.PORT_SET (R495). -/
def execPowerPortSet (c : Call) (q : List Word) (s : State) : Host.Outcome State Fault Refusal :=
  .next (runCommand cmdPowerPortSet c q s)

/-- Own meaning of POWER.CONCENTRATE_SET (R494). -/
def actPowerConcentrateSet : Act := fun x q s =>
  if x.ph = .stage then done s
  else done { s with pow := { s.pow with octEn := fld q 0 7 0, pairEn := fld q 0 15 8 } }

def cmdPowerConcentrateSet : Cmd :=
  { op := 0x1003, staging := .may, need := fun _ => 1, objs := objOp 0x1003, act := actPowerConcentrateSet }

/-- POWER.CONCENTRATE_SET (R494). -/
def execPowerConcentrateSet (c : Call) (q : List Word) (s : State) : Host.Outcome State Fault Refusal :=
  .next (runCommand cmdPowerConcentrateSet c q s)

/-- Whether domain d is concentrated away (Table 18-4). -/
def concentratedAway (s : State) (d : Nat) : Bool :=
  if d ≤ 15 then d % 2 == 1 && bit s.pow.octOn (d / 2)
  else decide (40 ≤ d) && decide (d ≤ 55) && d % 2 == 1 && bit s.pow.pairOn ((d - 40) / 2)

/-- Own meaning of POWER.DOMAIN_STATUS. -/
def actPowerDomainStatus : Act := fun _ q s =>
  let d := fld q 0 6 0
  if 80 ≤ d then fail stNotPermitted s
  else
    let x := domOf s d
    reply ([toWord (x.st + 8 * x.floor + 64 * b2n (noWork s d) + 128 * b2n (concentratedAway s d)), toWord (tolDom s.pow.tol s d)]
      ++ toWords x.floorTide 2) s

def cmdPowerDomainStatus : Cmd := { op := 0x1004, reading := true, need := fun _ => 1, act := actPowerDomainStatus }

/-- POWER.DOMAIN_STATUS (R484). -/
def execPowerDomainStatus (c : Call) (q : List Word) (s : State) : Host.Outcome State Fault Refusal :=
  .next (runCommand cmdPowerDomainStatus c q s)

/-- The estimated power of a domain, mW (Table 18-2). -/
def domEstimate (s : State) (d : Nat) : Nat :=
  let (full, none_, idle, low) := domPower d
  match (domOf s d).st with
  | 0 => none_ + (full - none_) * min 1000 (Config.loadOf d s.tm.tide) / 1000
  | 1 => idle
  | 2 => low
  | 3 => low
  | 5 => idle
  | 6 => none_
  | _ => 0

/-- Own meaning of POWER.STATUS: the estimate with MAIN and AON, concentration, and octets powered off. -/
def actPowerStatus : Act := fun _ _ s =>
  let main := 12000 + 8000 * min 1000 (Config.loadOf 127 s.tm.tide) / 1000
  let total := (List.range 80).foldl (fun n d => n + domEstimate s d) (main + 1000)
  reply [toWord total, toWord (s.pow.octOn + 256 * s.pow.pairOn), toWord s.pow.offOct] s

def cmdPowerStatus : Cmd := { op := 0x1005, reading := true, act := actPowerStatus }

/-- POWER.STATUS (R496). -/
def execPowerStatus (c : Call) (q : List Word) (s : State) : Host.Outcome State Fault Refusal :=
  .next (runCommand cmdPowerStatus c q s)

/-- Own meaning of POWER.COUNTERS (R497). -/
def actPowerCounters : Act := fun _ q s =>
  let d := fld q 0 6 0
  if 80 ≤ d ∧ d ≠ 127 then fail stNotPermitted s
  else reply (ctrWords s.ctr 0x50 (if d = 127 then 0 else d + 1) (List.range 5)) s

def cmdPowerCounters : Cmd := { op := 0x1006, reading := true, need := fun _ => 2, act := actPowerCounters }

/-- POWER.COUNTERS (R497). -/
def execPowerCounters (c : Call) (q : List Word) (s : State) : Host.Outcome State Fault Refusal :=
  .next (runCommand cmdPowerCounters c q s)

/-! ### Events -/

/-- Whether a line port or the MPC has traffic to send across the bridge: a packet in front of or behind it, or a command
that a mailbox holds (R14). -/
def bridgeTraffic (s : State) : Bool :=
  (s.fwd.pipes.any fun p => !p.waiting.isEmpty || !p.recirc.isEmpty) || !s.fwd.reorder.isEmpty || !s.fwd.egress.isEmpty
    || s.ecs.mbs.any fun m => m.owned

/-- DOMAIN_ENTER_FLOOR: a domain that has had no request for the entry delay enters its floor (R492). OFF is entered
at tide boundaries only (R487, R490), and nothing during a swap (R474); domain 39 stays ON while there is traffic for the bridge (R14). -/
def execDomainEnterFloor (t d : Nat) (s : State) : Host.Outcome State Fault Refusal :=
  let s := s.atTime t
  let x := domOf s d
  .next (if s.boot.swap < 2 ∧ x.wake = 0 ∧ x.st < x.floor ∧ x.floor < 4 ∧ max x.asked x.since + entryDelay x.floor ≤ elapsed s ∧ !(d == 39 && bridgeTraffic s) then setDom d x.floor s else s)

/-- DOMAIN_WAKE: a request to a domain wakes it in the same clock, and traffic for a port every domain of that half of its
path (R492, R493). -/
def execDomainWake (t d : Nat) (path : Option (Nat × Bool)) (s : State) : Host.Outcome State Fault Refusal :=
  let s := s.atTime t
  let ds := d :: wokenWith s d ++ match path with | some (p, eg) => halfPath p eg | none => []
  .next (ds.foldl (fun s d => if (domOf s d).st ≤ 3 then wakeDom d s else s) s)

/-- DOMAIN_WAKE_DONE: a waking domain accepts work, the FD bridge end what waits for it; a concentration that waited for it
ends (R14, R484, R494). -/
def execDomainWakeDone (t d : Nat) (s : State) : Host.Outcome State Fault Refusal :=
  let s := s.atTime t
  if (domOf s d).wake = 0 then .next s
  else .next (reorderRelease (deconcentrated d (setDom d 0 s)))
where
  /-- Alternate dealing resumes where the domain is the woken sibling of a concentrated octet. -/
  deconcentrated (d : Nat) (s : State) : State :=
    if d ≤ 15 ∧ d % 2 = 1 ∧ bit s.pow.unconc (d / 2) then
      { s with pow := { s.pow with unconc := s.pow.unconc - 2 ^ (d / 2), octOn := s.pow.octOn - (if bit s.pow.octOn (d / 2) then 2 ^ (d / 2) else 0) } }
    else s

/-- DECONCENTRATE: the ingress buffer of concentrated octet k, or the egress backlog of pipeline 2k, exceeds 16 KiB:
pipeline 2k + 1 is woken, and alternate dealing resumes when it accepts work (R494). -/
def execDeconcentrate (t k : Nat) (s : State) : Host.Outcome State Fault Refusal :=
  let s := s.atTime t
  let backlog := ((s.fwd.egress.filter fun e => e.1 / 8 == k).map fun e => e.2.md.len).sum
  if 8 ≤ k ∨ !bit s.pow.octOn k ∨ bit s.pow.unconc k ∨ (octetFill s k ≤ 16384 ∧ backlog ≤ 16384) then .next s
  else
    let d := 2 * k + 1
    let s := raise 0x10 2 govUnit (pay [(k, 1), (0, 1), (0, 1)]) (powCount 127 2 1 s)
    if (domOf s d).st = 0 then .next { s with pow := { s.pow with octOn := s.pow.octOn - 2 ^ k } }
    else .next (wakeDom d { s with pow := { s.pow with unconc := s.pow.unconc + 2 ^ k } })

end Sys2Proof.Machine
end

