-- ==== Sys2Proof/Machine/SelfTest.lean ====
section
/-! DEFINITION. Commands and events of the self-test and the lifecycle (spec/19_self_test_lifecycle.md). -/

namespace Sys2Proof.Machine

open Sys2Proof

/-! ### Slices (R505, R506) -/

/-- The run time of a set, us; set 0 runs within 2 ms. -/
def runTime (d k : Nat) : Nat := if k = 0 then min 2000 (Config.setTime d 0) else Config.setTime d k

/-- Sets of a slice that fit its budget. -/
def setsFit (s : State) (d : Nat) : List Nat :=
  (List.range 4).filter fun k => decide (runTime d k ≤ (s.test.slices.getD d {}).budget)

/-- The set after k in the rotation. -/
def nextSet (s : State) (d k : Nat) : Nat := ((setsFit s d).find? fun j => decide (k < j)).getD 0

def modSlice (d : Nat) (f : Slice → Slice) (s : State) : State := { s with test := { s.test with slices := lmod s.test.slices d f } }

/-! ### Eligibility (R376, R509, Table 19-4) -/

/-- A standby with standby soundings enabled. -/
def standbySounds (s : State) : Bool := decide (2 ≤ s.twin.st) && s.test.standby

/-- Ports that are neither disabled nor powered off. -/
def busyPorts (s : State) : List Nat :=
  ((s.line.ports.filter fun e => e.2.inService && !e.2.poweredOff).map fun e => e.1)
    ++ (s.tr.ports.filter fun e => e.2.enabled).map fun e => e.1

def ringsOff (s : State) : Bool := (s.host.rx ++ s.host.tx).all fun r => !r.enable

def queuesEmpty (s : State) : Bool := s.td.queues.all fun e => e.2.pkts.isEmpty

/-- Whether cluster d may be sounded (Table 19-4). -/
def soundEligible (s : State) (d : Nat) : Bool :=
  let busy := busyPorts s
  let stand := standbySounds s
  let idle := busy.isEmpty
  if thas s.flt.fences d || (setsFit s d).isEmpty then false
  else if d ≤ 15 then !domOut s (if d % 2 = 0 then d + 1 else d - 1)
  else if d ≤ 19 then stand || !(s.tab.groups.any fun e => groupNamed s e.1 &&
    decide (e.2.first < 4 * (d - 16) + 4) && decide (4 * (d - 16) < e.2.first + e.2.count))
  else if d ≤ 23 then stand || idle
  else if d ≤ 31 then stand || busy.all fun p => p / 8 != d - 24
  else if d ≤ 35 then stand || busy.all fun p => p / 16 != d - 32
  else if d = 36 then stand || ((s.tr.ports.all fun e => !e.2.enabled) && s.circuits.all fun e => !e.2.enabled)
  else if d == 37 || d == 38 || (decide (63 ≤ d) && decide (d ≤ 66)) then
    decide (2 ≤ s.twin.st) || (idle && ringsOff s && queuesEmpty s)
  else if d = 39 then stand || (idle && ringsOff s)
  else if d ≤ 55 then !domOut s (if d % 2 = 0 then d + 1 else d - 1)
  else if d ≤ 59 then stand || ((busy.all fun p => p / 16 != d - 56) && s.td.queues.all fun e =>
    e.2.pkts.isEmpty || decide (e.1 < s.td.v) || (match portOfNode s (handle 0xA0 e.1) with | some p => p / 16 != d - 56 | none => true))
  else if d = 60 then (stand || (idle && ringsOff s)) && queuesEmpty s
  else if d ≤ 62 then !domOut s (123 - d) && decide (dieNeed s ≤ 262144)
  else if d ≤ 78 then stand || (streamDevices s).all fun v =>
    decide (s.fab.kmin ≤ ((lanesTo s v).filter fun l => l / 8 != d - 67).length)
  else !s.id.twinEn || s.twin.peer == 4 || !s.twin.hawser

/-! ### Commands (Table 19-5) -/

/-- Own meaning of SOUND.SET (R506, R511). -/
def actSoundSet : Act := fun _ q s =>
  let h := fld q 0 6 2
  let d := fld q 1 6 0
  let b := fld q 2 14 0
  if h < 1 ∨ 24 < h ∨ (79 < d ∧ d ≠ 127) ∨ b < 500 ∨ 20000 < b then fail stNotPermitted s
  else
    let t := s.test
    let restart := flag q 0 0 && (!t.enable || t.hours != h)
    let slices := if d = 127 then t.slices.map fun x => { x with budget := b } else lmod t.slices d fun x => { x with budget := b }
    let slices := if restart then slices.map fun x => { x with done := 0, overduePeriod := 0 } else slices
    done { s with test := { t with
      enable := flag q 0 0, standby := flag q 0 1, hours := h, slices := slices, start := if restart then s.tm.bounds else t.start } }

def cmdSoundSet : Cmd := { op := 0x1101, need := fun _ => 3, act := actSoundSet }

/-- SOUND.SET (R511). -/
def execSoundSet (c : Call) (q : List Word) (s : State) : Host.Outcome State Fault Refusal :=
  .next (runCommand cmdSoundSet c q s)

/-- Own meaning of SOUND.NOW (R511). -/
def actSoundNow : Act := fun _ q s =>
  let d := fld q 0 6 0
  if 79 < d ∨ !soundEligible s d then fail stNotPermitted s
  else ⟨stAccepted, [], { s with test := { s.test with asked := if s.test.asked.contains d then s.test.asked else s.test.asked ++ [d] } }, 0⟩

def cmdSoundNow : Cmd := { op := 0x1102, need := fun _ => 1, act := actSoundNow }

/-- SOUND.NOW (R511). -/
def execSoundNow (c : Call) (q : List Word) (s : State) : Host.Outcome State Fault Refusal :=
  .next (runCommand cmdSoundNow c q s)

/-- Own meaning of SOUND.STATUS. -/
def actSoundStatus : Act := fun _ q s =>
  let d := fld q 0 6 0
  if 79 < d then fail stNotPermitted s
  else
    let x := s.test.slices.getD d {}
    let out := x.failed || match s.test.run with | some r => r.dom == d | none => false
    reply ([toWord (b2n out + 2 * b2n x.failed + 4 * x.next + 16 * b2n x.overdue)] ++ toWords x.last 2 ++ [toWord x.budget]) s

def cmdSoundStatus : Cmd := { op := 0x1103, reading := true, need := fun _ => 1, act := actSoundStatus }

/-- SOUND.STATUS (R508). -/
def execSoundStatus (c : Call) (q : List Word) (s : State) : Host.Outcome State Fault Refusal :=
  .next (runCommand cmdSoundStatus c q s)

/-- Own meaning of SOUND.SLICE_INFO (R506). -/
def actSoundSliceInfo : Act := fun _ q s =>
  let d := fld q 0 6 0
  if 81 < d then fail stNotPermitted s else reply ((List.range 4).map fun k => toWord (runTime d k)) s

def cmdSoundSliceInfo : Cmd := { op := 0x1104, reading := true, need := fun _ => 1, act := actSoundSliceInfo }

/-- SOUND.SLICE_INFO (R506). -/
def execSoundSliceInfo (c : Call) (q : List Word) (s : State) : Host.Outcome State Fault Refusal :=
  .next (runCommand cmdSoundSliceInfo c q s)

/-- Own meaning of SCAN.FULL: everything is zeroised, the transmitters are squelched, and every object is lost as its
cluster is tested; no die reset is issued outside the safe state (R27, R507). -/
def actScanFull : Act := fun _ _ s =>
  let s := zeroise 2 s
  ⟨stAccepted, [], dieClear true (dieClear false { s with aon := { s.aon with scan := none }, test := { s.test with scan := true, run := none, asked := [] } }), 0⟩

def cmdScanFull : Cmd := { op := 0x1110, act := actScanFull }

/-- SCAN.FULL (R507). -/
def execScanFull (c : Call) (q : List Word) (s : State) : Host.Outcome State Fault Refusal :=
  .next (runCommand cmdScanFull c q s)

/-- Own meaning of SCAN.RESULT (R507). -/
def actScanResult : Act := fun _ _ s =>
  match s.aon.scan with
  | none => fail stNotFound s
  | some (bits, first, sig) =>
    let w := match first with
      | some (d, k) => d + 256 * k
      | none => 2 ^ 31
    reply (toWords bits 11 ++ [toWord w] ++ toWords sig 2) s

def cmdScanResult : Cmd := { op := 0x1111, reading := true, act := actScanResult }

/-- SCAN.RESULT (R507). -/
def execScanResult (c : Call) (q : List Word) (s : State) : Host.Outcome State Fault Refusal :=
  .next (runCommand cmdScanResult c q s)

/-- Own meaning of LIFECYCLE.CHALLENGE: a new nonce, a free value (R501). -/
def actLifecycleChallenge : Act := fun _ _ s =>
  let n := freeVal s % 2 ^ 128
  let s := s.took
  reply (toWords n 4) { s with test := { s.test with nonce := some n, nonceEnd := s.tm.bounds + 480000 } }

def cmdLifecycleChallenge : Cmd := { op := 0x1120, act := actLifecycleChallenge }

/-- LIFECYCLE.CHALLENGE (R501). -/
def execLifecycleChallenge (c : Call) (q : List Word) (s : State) : Host.Outcome State Fault Refusal :=
  .next (runCommand cmdLifecycleChallenge c q s)

/-- Whether a lifecycle transition is one of Table 19-2, and whether it needs an authorisation. -/
def lifeMove (old new : Nat) : Option Bool :=
  if old = 4 then none
  else if new = 4 then some false
  else if old = 0 ∧ new = 1 then some false
  else if old = 1 ∧ new = 2 then some true
  else if old = 2 ∧ new = 1 then some false
  else if (old = 1 ∨ old = 2) ∧ new = 3 then some true
  else if old = 3 ∧ new = 0 then some true
  else none

/-- Whether the authorisation block of a LIFECYCLE.SET is accepted (R501, Table 19-3). -/
def authorised (s : State) (target : Nat) (b : List Word) : Bool :=
  wd b 0 == 0xA07E0012 && wd64 b 1 == Config.udn.toNat && fld b 3 2 0 == target
    && (match s.test.nonce with
      | some n => wd64 b 4 + 2 ^ 64 * wd64 b 6 == n && decide (s.tm.bounds < s.test.nonceEnd)
      | none => false)
    && (target != 2 || (decide (8000 ≤ wd b 8) && decide (wd b 8 ≤ 691200000)))
    && Config.authValid (b.take 91)

/-- Own meaning of LIFECYCLE.SET (R500, Table 19-2). -/
def actLifecycleSet : Act := fun _ q s =>
  let new := fld q 0 2 0
  let old := s.id.lifecycle
  match lifeMove old new with
  | none => fail stNotPermitted s
  | some auth =>
    let block := q.drop 2
    if (auth && !authorised s new block) || (new == 4 && wd q 1 != Config.udn.toNat % 2 ^ 32)
        || (old == 3 && new == 0 && decide (3 ≤ s.flash.drydocks)) then fail stNotPermitted s
    else
      let s := if old = 2 ∧ new = 1 then s else zeroise 1 s
      let s := if auth then { s with test := { s.test with nonce := none } } else s
      let s := if new = 2 then { s with test := { s.test with surveyEnd := s.tm.bounds + wd block 8 } } else s
      let s := if new = 3 ∨ (old = 3 ∧ new = 0) then { s with hbm := { s.hbm with record := [] } } else s
      let s := if old = 3 ∧ new = 0 then { s with flash := { s.flash with drydocks := s.flash.drydocks + 1 } } else s
      let s := if new = 4 then { s with flash := { s.flash with revoked := 15 } } else s
      done (raise 0x11 4 (aonUnit 0) (pay [(old, 1), (new, 1)]) { s with id := { s.id with lifecycle := new } })

def cmdLifecycleSet : Cmd :=
  { op := 0x1121, act := actLifecycleSet
    need := fun q => let t := fld q 0 2 0; if t = 2 ∨ t = 3 ∨ t = 0 then (if q.length < 1 then 1 else 93) else 2 }

/-- LIFECYCLE.SET (R500). -/
def execLifecycleSet (c : Call) (q : List Word) (s : State) : Host.Outcome State Fault Refusal :=
  .next (runCommand cmdLifecycleSet c q s)

/-- Own meaning of LIFECYCLE.KEY_REVOKE (R502). -/
def actLifecycleKeyRevoke : Act := fun _ q s =>
  let k := fld q 0 1 0
  let left := (List.range 4).filter fun j => !bit s.flash.revoked j
  if (slotAt s s.flash.pref).key = k ∨ left = [k] then fail stNotPermitted s
  else done { s with flash := { s.flash with revoked := if bit s.flash.revoked k then s.flash.revoked else s.flash.revoked + 2 ^ k } }

def cmdLifecycleKeyRevoke : Cmd := { op := 0x1122, need := fun _ => 1, act := actLifecycleKeyRevoke }

/-- LIFECYCLE.KEY_REVOKE (R502). -/
def execLifecycleKeyRevoke (c : Call) (q : List Word) (s : State) : Host.Outcome State Fault Refusal :=
  .next (runCommand cmdLifecycleKeyRevoke c q s)

/-- Own meaning of SELFTEST.COUNTERS (R515). -/
def actSelftestCounters : Act := fun _ _ s => reply (ctrWords s.ctr 0x51 0 (List.range 6)) s

def cmdSelftestCounters : Cmd := { op := 0x1130, reading := true, need := fun _ => 1, act := actSelftestCounters }

/-- SELFTEST.COUNTERS (R515). -/
def execSelftestCounters (c : Call) (q : List Word) (s : State) : Host.Outcome State Fault Refusal :=
  .next (runCommand cmdSelftestCounters c q s)

/-! ### Events of the lifecycle -/

/-- NONCE_EXPIRY: a nonce expires 480,000 tides after its issue (R501). -/
def execNonceExpiry (t : Nat) (s : State) : Host.Outcome State Fault Refusal :=
  let s := s.atTime t
  .next (if s.test.nonceEnd ≤ s.tm.bounds then { s with test := { s.test with nonce := none } } else s)

/-- SURVEY_VALIDITY_END: the validity of the authorisation ends (R500, R501). -/
def execSurveyValidityEnd (t : Nat) (s : State) : Host.Outcome State Fault Refusal :=
  let s := s.atTime t
  .next (if s.test.surveyEnd ≤ s.tm.bounds then surveyEnd s else s)

/-- SCAN_FULL_RUN_DONE: the full scan has run: its result record is written and the package resets. `bits` are the pass
bits, `first` the first failing slice and set with its signature; `verified` as in PORST_N_RELEASE (R507). -/
def execScanFullRunDone (t bits : Nat) (first : Option (Nat × Nat)) (sig : Nat) (verified : List Bool) (s : State) :
    Host.Outcome State Fault Refusal :=
  let s := s.atTime t
  if !s.test.scan then .next s
  else
    let s := { s with aon := { s.aon with scan := some (bits, first, sig) } }
    .next (packageReset s.id.devid s.id.twinEn verified s)

/-! ### Soundings (R508 to R513) -/

/-- Tides of a schedule period. -/
def soundPeriod (s : State) : Nat := s.test.hours * 28800000

/-- Whether the schedule calls for slice d: its turn has come in this period, it has not been sounded in it, and it has not
failed (R511, R513). -/
def soundDue (s : State) (d : Nat) : Bool :=
  let b := s.tm.bounds - s.test.start
  let p := soundPeriod s
  let x := s.test.slices.getD d {}
  s.test.enable && !x.failed && decide (d * p / 80 ≤ b % p) && (x.done == 0 || decide (x.done - 1 < s.test.start + b / p * p))

/-- SOUNDING_START: in the first clock of a tide a sounding of cluster d begins to withdraw its work (R508 to R512). -/
def execSoundingStart (t d : Nat) (s : State) : Host.Outcome State Fault Refusal :=
  let s := s.atTime t
  let now := s.test.asked.contains d
  if coreClocks s.tm.sub ≠ 0 ∨ 79 < d ∨ s.test.run.isSome ∨ s.id.lifecycle ≠ 1 ∨ s.id.fwState ≠ 1 ∨ !soundEligible s d
      ∨ !(now || soundDue s d) then .next s
  else
    let x := s.test.slices.getD d {}
    let s := if 67 ≤ d ∧ d ≤ 78 then octetDown (d - 67) s else if d = 79 then hawserFails s else s
    let set := if (setsFit s d).contains x.next then x.next else nextSet s d x.next
    let serves (p : Nat) : Bool := (decide (24 ≤ d) && decide (d ≤ 31) && p / 8 == d - 24) || (decide (32 ≤ d) && decide (d ≤ 35) && p / 16 == d - 32)
    let mine := s.line.ports.filter fun e => serves e.1
    let ports := (mine.filter fun e => e.2.inService).map fun e => e.1
    let s := { s with test := { s.test with
      asked := s.test.asked.filter fun e => e != d
      run := some { dom := d, phase := 0, set := set, start := s.tm.bounds, again := false, now := now, ports := ports } } }
    let s := testCount 0 1 (setDom d 6 s)
    let s := mine.foldl (fun s e => outOfService e.1 3 s) s
    let s := if d = 61 ∨ d = 62 then modPool 1 (fun pl => pl.withdraw (d - 60)) s else s
    let s := match hbmStack d with
      | some i => modStack i (fun x => { x with selfRefresh := true }) s
      | none => s
    let s := if 67 ≤ d ∧ d ≤ 78 then fabCheck s else s
    .next (skipFlags d (moveSlices s))
where
  /-- The stack of an HBM controller domain. -/
  hbmStack (d : Nat) : Option Nat :=
    if d = 37 then some 4 else if d = 38 then some 5 else if 63 ≤ d ∧ d ≤ 66 then some (d - 63) else none
  /-- A standby that sounds a cluster of a forwarding path sets skip flags (R510). -/
  skipFlags (d : Nat) (s : State) : State :=
    if s.twin.st < 2 then s
    else if (16 ≤ d ∧ d ≤ 23) ∨ d = 39 ∨ (56 ≤ d ∧ d ≤ 62) ∨ (67 ≤ d ∧ d ≤ 78) then
      skipDevice s
    else (List.range 64).foldl (fun s p => if serves s d p && forwardingPath d then skipPort p s.tm.tide s else s) s

/-- Whether the withdrawn cluster holds no work (R508). -/
def holdsNone (s : State) (d : Nat) : Bool :=
  if d ≤ 15 then let x := s.fwd.pipes.getD d {}; x.waiting.isEmpty && x.recirc.isEmpty
  else if 40 ≤ d ∧ d ≤ 55 then s.td.queues.all fun e => e.1 % 16 != d - 40 || servingSlice s e.1 != d - 40
  else if d = 61 ∨ d = 62 then
    s.td.die.bufs.all fun e => !e.2.used || (decide (262144 ≤ e.1) != (d == 62))
  else true

/-- SOUNDING_WITHDRAWN: the cluster holds no work: its fences rise, a port group's working copies are zeroised, and the
test runs (R504, R508). -/
def execSoundingWithdrawn (t : Nat) (s : State) : Host.Outcome State Fault Refusal :=
  let s := s.atTime t
  match s.test.run with
  | none => .next s
  | some r =>
    if r.phase ≠ 0 ∨ !holdsNone s r.dom then .next s
    else
      let s := { s with test := { s.test with run := some { r with phase := 1 } } }
      .next (if 32 ≤ r.dom ∧ r.dom ≤ 35 then
        { s with line := { s.line with sas := tmap s.line.sas fun i x =>
            if i / 256 / 16 = r.dom - 32 then { x with work := List.replicate 32 0#8 } else x } }
        else s)

/-- The withdrawal of an on-die half is given up: granting resumes (R240). -/
def postpone (d : Nat) (s : State) : State :=
  testCount 2 1 (setDom d 0 (modPool 1 (fun pl => { pl with half := 0 }) { s with test := { s.test with run := none } }))

/-- SOUNDING_POSTPONED: an on-die half is not free within 8 tides: granting resumes (R240, Table 19-4). -/
def execSoundingPostponed (t : Nat) (s : State) : Host.Outcome State Fault Refusal :=
  let s := s.atTime t
  match s.test.run with
  | none => .next s
  | some r =>
    if r.phase ≠ 0 ∨ !(r.dom == 61 || r.dom == 62) ∨ s.tm.bounds < r.start + 8 ∨ holdsNone s r.dom then .next s
    else .next (postpone r.dom s)

/-- A withdrawal of an on-die half is given up where the partition and the unmet reserves no longer fit in the other one
(R240). -/
def soundingFit (s : State) : State :=
  match s.test.run with
  | some r => if r.phase = 0 ∧ (r.dom = 61 ∨ r.dom = 62) ∧ 262144 < dieNeed s then postpone r.dom s else s
  | none => s

/-- SOUNDING_TEST_DONE: a pattern set finishes with a signature that equals the golden value or not: the cluster is
re-initialised, the set is repeated once, or the cluster stays fenced (R508, R513). -/
def execSoundingTestDone (t sig : Nat) (golden : Bool) (s : State) : Host.Outcome State Fault Refusal :=
  let s := s.atTime t
  match s.test.run with
  | none => .next s
  | some r =>
    if r.phase ≠ 1 then .next s
    else if golden then .next { s with test := { s.test with run := some { r with phase := 2 } } }
    else if !r.again then .next { s with test := { s.test with run := some { r with again := true } } }
    else
      let d := r.dom
      let s := raise 0x11 2 mpcUnit (pay [(d, 1), (r.set, 1), (sig, 8)]) (testCount 1 1 s)
      let s := modSlice d (fun x => { x with failed := true }) { s with test := { s.test with run := none } }
      if errorAct.hbmDomain d then .next (errorAct (unitOf d 63) 7 sig s)
      else
        let s := errorReport (unitOf d 63) 7 sig s
        let s := if forwardingPath d then noteSuspect s else s
        .next (if s.twin.st = 1 ∧ s.twin.peer = 2 ∧ s.twin.switch.isNone ∧ switchoverCluster s d then
          { s with twin := { s.twin with switch := some { n := earliestSwitch s } } } else s)

/-- SOUNDING_OVERDUE: a slice has not been sounded by the end of its period (R511). -/
def execSoundingOverdue (t d : Nat) (s : State) : Host.Outcome State Fault Refusal :=
  let s := s.atTime t
  let p := soundPeriod s
  let k := (s.tm.bounds - s.test.start) / p
  let x := s.test.slices.getD d {}
  if 79 < d ∨ !s.test.enable ∨ k = 0 ∨ x.failed ∨ x.overduePeriod = k
      ∨ (x.done ≠ 0 ∧ s.test.start + (k - 1) * p ≤ x.done - 1) then .next s
  else .next (raise 0x11 3 mpcUnit (pay [(d, 1)]) (testCount 4 1 (modSlice d (fun x => { x with overdue := true, overduePeriod := k }) s)))

/-- The K12 issues PORT.ENABLE itself on a standby, at the return boundary (R68, R510). -/
def reenable (p : Nat) (s : State) : State :=
  match tget s.line.ports p with
  | some x => if x.loop = 0 then enterService p s else s
  | none => s

/-- A re-initialised cluster returns to service at a tide boundary (R508, R510, R513); an aborted sounding returns its
cluster without a result (R512). -/
def soundingReturn (s : State) : State :=
  match s.test.run with
  | none => s
  | some r =>
    if r.phase ≠ 2 then s
    else
      let d := r.dom
      let still := (s.test.slices.getD d {}).failed && !r.pass
      let s := moveSlices (reinit d (setDom d (if still then 6 else 0) { s with test := { s.test with run := none } }))
      let s := match execSoundingStart.hbmStack d with
        | some i => modStack i (fun x => { x with selfRefresh := false }) s
        | none => s
      let s := if 67 ≤ d ∧ d ≤ 78 then fabCheck s else s
      let s := if 2 ≤ s.twin.st then r.ports.foldl (fun s p => reenable p s) s else s
      if !r.pass then s
      else
        let s := modSlice d (fun x => { x with
          next := nextSet s d r.set, failed := false, overdue := false, last := s.tm.tide, done := s.tm.bounds + 1 }) s
        raise 0x11 1 mpcUnit (pay [(d, 1), (r.set, 1), (s.tm.bounds - r.start, 2)]) s

end Sys2Proof.Machine
end

