-- ==== Sys2Proof/Machine/Time.lean ====
section
/-! DEFINITION. Commands and events of area 0x0D: the time base, PTP, SyncE, PPS, ToD and tides
(spec/12_time_tides.md). -/

namespace Sys2Proof.Machine

open Sys2Proof

/-- A time-base value as words 1 to 3 of Table 12-3. -/
def tbWords (v : Nat) : List Word := [toWord v, toWord (v / 2 ^ 32), toWord (v / 2 ^ 64)]

/-- Own meaning of TIME.GET (Table 12-5). -/
def actTimeGet : Act := fun _ _ s => reply (tbWords (nowTb s) ++ toWords s.tm.tide 2) s

def cmdTimeGet : Cmd := { op := 0x0D01, reading := true, act := actTimeGet }

/-- TIME.GET (R332). -/
def execTimeGet (c : Call) (q : List Word) (s : State) : Host.Outcome State Fault Refusal :=
  .next (runCommand cmdTimeGet c q s)

/-- Own meaning of TIME.ADJUST (R333, R334). -/
def actTimeAdjust : Act := fun _ q s =>
  let phi := signed 32 (wd q 0)
  let valid := flag q 1 0
  let rate := fld q 1 9 1
  let phase := signed 64 (wd64 q 2)
  if tideSource s ≠ 0 ∨ phi < -32768000 ∨ 32768000 < phi
      ∨ (valid = true ∧ (rate < 1 ∨ 500 < rate ∨ phase < -(secU : Int) ∨ (secU : Int) < phase)) then fail stNotPermitted s
  else
    let keep := s.tm.slew.map fun v => { v with phase := slewRemaining s, start := elapsed s }
    let new := if valid then some ⟨phase, rate, elapsed s⟩ else keep
    done { s with tm := { s.tm with phi := phi, slew := new } }

def cmdTimeAdjust : Cmd := { op := 0x0D02, need := fun _ => 4, act := actTimeAdjust }

/-- TIME.ADJUST (R334). -/
def execTimeAdjust (c : Call) (q : List Word) (s : State) : Host.Outcome State Fault Refusal :=
  .next (runCommand cmdTimeAdjust c q s)

/-- Own meaning of TIME.STEP (R336, R584). -/
def actTimeStep : Act := fun _ q s =>
  let b := s.tm.tide + 1
  let off := flag q 0 0
  let raw := wd q 1 + 2 ^ 32 * wd q 2 + 2 ^ 64 * fld q 3 15 0
  let t : Int := if off then (b * tideU : Int) + signed 80 raw else tbLinear raw
  if commitNamed s ∨ tideSource s ≠ 0 ∨ (off = false ∧ 1000000000 ≤ bits raw 45 16) ∨ t < 0 ∨ (tbWrap : Int) ≤ t then
    fail stNotPermitted s
  else
    let t' := t.toNat
    reply (toWords b 2 ++ toWords (bridgeEnd t' - 1) 2 ++ tbWords (tbLayout t'))
      { s with tm := { s.tm with step := some ⟨off, flag q 0 1, t', b⟩ } }

def cmdTimeStep : Cmd := { op := 0x0D03, need := fun _ => 4, act := actTimeStep }

/-- TIME.STEP (R336). -/
def execTimeStep (c : Call) (q : List Word) (s : State) : Host.Outcome State Fault Refusal :=
  .next (runCommand cmdTimeStep c q s)

/-- Own meaning of TIME.STATE_SET: between LOCKED and HOLDOVER (R335). -/
def actTimeStateSet : Act := fun _ q s =>
  let v := fld q 0 1 0
  if s.tm.st = 0 ∨ tideSource s ≠ 0 ∨ (v ≠ 1 ∧ v ≠ 2) then fail stNotPermitted s else done (setTimeState v s)

def cmdTimeStateSet : Cmd := { op := 0x0D04, need := fun _ => 1, act := actTimeStateSet }

/-- TIME.STATE_SET (R335). -/
def execTimeStateSet (c : Call) (q : List Word) (s : State) : Host.Outcome State Fault Refusal :=
  .next (runCommand cmdTimeStateSet c q s)

/-- Own meaning of TIME.STATUS (R584, Table 12-5). -/
def actTimeStatus : Act := fun _ _ s =>
  reply ([toWord (s.tm.st + 4 * tideSource s + 16 * b2n s.tm.tideInLost + 32 * b2n (slewRemaining s != 0)
      + 64 * b2n s.tm.step.isSome), toWord (unsigned 32 s.tm.phi)]
    ++ toWords (unsigned 64 (slewRemaining s)) 2 ++ [toWord (unsigned 32 s.tm.lastDiff)]) s

def cmdTimeStatus : Cmd := { op := 0x0D05, reading := true, act := actTimeStatus }

/-- TIME.STATUS (R584). -/
def execTimeStatus (c : Call) (q : List Word) (s : State) : Host.Outcome State Fault Refusal :=
  .next (runCommand cmdTimeStatus c q s)

/-- Whether a signed port offset lies within ±10,000 ns (R339). -/
def offsetOk (x : Int) : Bool := decide (-655360000 ≤ x) && decide (x ≤ 655360000)

/-- Own meaning of TIME.PORT_SET (R339, R341). -/
def actTimePortSet : Act := fun x q s =>
  let mode := fld q 1 1 0
  let rx := signed 32 (wd q 2)
  let tx := signed 32 (wd q 3)
  withPort x q s fun p _ =>
    if mode = 3 ∨ !offsetOk rx ∨ !offsetOk tx then fail stNotPermitted s
    else done (modTimePort p (fun y => { y with ptpMode := mode, rxOff := rx, txOff := tx }) s)

def cmdTimePortSet : Cmd :=
  { op := 0x0D10, staging := .may, need := fun _ => 4, objs := objWord0, refs := refWord0, act := actTimePortSet }

/-- TIME.PORT_SET (R341). -/
def execTimePortSet (c : Call) (q : List Word) (s : State) : Host.Outcome State Fault Refusal :=
  .next (runCommand cmdTimePortSet c q s)

/-- Own meaning of TIME.TSRING_SET (R346, R433): the ring starts at the new address with its counts 0. -/
def actTimeTsringSet : Act := fun _ q s =>
  let h := s.host
  let out := s.tm.ports.any (fun p => p.fifo.any fun e => !e.own) || h.tsrProducer != h.tsrConsumer
  if h.tsrEnable && !h.tsrStopped && out then fail stNotPermitted s
  else done { s with host := { h with
    tsrBase := wd64 q 0, tsrEnable := true, tsrStopped := false, tsrProducer := 0#32, tsrConsumer := 0#32 } }

def cmdTimeTsringSet : Cmd := { op := 0x0D11, need := fun _ => 2, act := actTimeTsringSet }

/-- TIME.TSRING_SET (R346). -/
def execTimeTsringSet (c : Call) (q : List Word) (s : State) : Host.Outcome State Fault Refusal :=
  .next (runCommand cmdTimeTsringSet c q s)

/-- Own meaning of TIME.ORIGINATE (R344, Table 12-5). -/
def actTimeOriginate : Act := fun x q s =>
  withPort x q s fun p _ =>
    let rate := fld q 1 7 0
    let len := fld q 2 9 0
    if 128 < rate then fail stNotPermitted s
    else done (modTimePort p (fun y => { y with
      origRate := rate, origTemplate := (wordBytes (q.drop 3)).take len }) s)

def cmdTimeOriginate : Cmd :=
  { op := 0x0D12, need := fun q => 3 + ceilDiv (fld q 2 9 0) 4, objs := objWord0, act := actTimeOriginate }

/-- TIME.ORIGINATE (R344). -/
def execTimeOriginate (c : Call) (q : List Word) (s : State) : Host.Outcome State Fault Refusal :=
  .next (runCommand cmdTimeOriginate c q s)

/-- Own meaning of TIME.PPS_SET (R348). -/
def actTimePpsSet : Act := fun _ q s =>
  let off := signed 32 (wd q 0)
  let w := fld q 1 8 0
  if off < -10000 ∨ 10000 < off ∨ w < 1 ∨ 500 < w then fail stNotPermitted s
  else done { s with tm := { s.tm with ppsOffset := off, ppsWidth := w } }

def cmdTimePpsSet : Cmd := { op := 0x0D20, need := fun _ => 2, act := actTimePpsSet }

/-- TIME.PPS_SET (R348). -/
def execTimePpsSet (c : Call) (q : List Word) (s : State) : Host.Outcome State Fault Refusal :=
  .next (runCommand cmdTimePpsSet c q s)

/-- Own meaning of TIME.TOD_SET (R348). -/
def actTimeTodSet : Act := fun _ q s => done { s with tm := { s.tm with todTx := flag q 0 0, todRx := flag q 0 1 } }

def cmdTimeTodSet : Cmd := { op := 0x0D21, need := fun _ => 1, act := actTimeTodSet }

/-- TIME.TOD_SET (R348). -/
def execTimeTodSet (c : Call) (q : List Word) (s : State) : Host.Outcome State Fault Refusal :=
  .next (runCommand cmdTimeTodSet c q s)

/-- Own meaning of TIME.SYNCE_SET (R347). -/
def actTimeSynceSet : Act := fun _ q s =>
  let i := fld q 0 0 0
  let lane := fld q 0 7 1
  let dv := fld q 0 9 8
  if 64 ≤ lane ∨ dv = 3 then fail stNotPermitted s
  else done (syncEUpdate { s with tm := { s.tm with synce := lmod s.tm.synce i fun o =>
    { o with lane := lane, div := dv, squelch := flag q 0 10, enable := flag q 0 11 } } })

def cmdTimeSynceSet : Cmd := { op := 0x0D22, need := fun _ => 1, act := actTimeSynceSet }

/-- TIME.SYNCE_SET (R347). -/
def execTimeSynceSet (c : Call) (q : List Word) (s : State) : Host.Outcome State Fault Refusal :=
  .next (runCommand cmdTimeSynceSet c q s)

/-- Own meaning of TIME.TIDE_SET (R349, R351): refused while a commit tide is named. -/
def actTimeTideSet : Act := fun _ q s =>
  let src := fld q 0 1 0
  let d := fld q 1 14 0
  if 2 ≤ src ∨ 20000 < d ∨ commitNamed s then fail stNotPermitted s
  else done { s with tm := { s.tm with source := src, chain := d, tideInBad := 0, tideInLost := false, alignFault := false } }

def cmdTimeTideSet : Cmd := { op := 0x0D30, need := fun _ => 2, act := actTimeTideSet }

/-- TIME.TIDE_SET (R349). -/
def execTimeTideSet (c : Call) (q : List Word) (s : State) : Host.Outcome State Fault Refusal :=
  .next (runCommand cmdTimeTideSet c q s)

/-- Own meaning of TIME.COUNTERS: always accumulating, so the snapshot flag is ignored (R353, R67). -/
def actTimeCounters : Act := fun _ q s =>
  let p := fld q 1 6 0
  if p = 127 then reply (ctrWords s.ctr 0x4D 0 (List.range 5)) s
  else if p < 64 then reply (ctrWords s.ctr 0x4D (p + 1) (List.range 5)) s
  else fail stNotPermitted s

def cmdTimeCounters : Cmd := { op := 0x0D40, reading := true, need := fun _ => 2, act := actTimeCounters }

/-- TIME.COUNTERS (R353). -/
def execTimeCounters (c : Call) (q : List Word) (s : State) : Host.Outcome State Fault Refusal :=
  .next (runCommand cmdTimeCounters c q s)

/-! ### Events -/

/-- PHASE_SLEW_DONE: a slew that has added its whole offset ends (R334). -/
def execPhaseSlewDone (t : Nat) (s : State) : Host.Outcome State Fault Refusal :=
  let s := s.atTime t
  .next (if slewRemaining s = 0 then { s with tm := { s.tm with slew := none } } else s)

/-- TIDE_IN_LOST: more than 8 consecutive frames failed; the follower enters holdover (R351). -/
def execTideInLost (t : Nat) (s : State) : Host.Outcome State Fault Refusal :=
  let s := s.atTime t
  .next (if tideSource s = 1 ∧ 8 < s.tm.tideInBad ∧ s.tm.tideInLost = false then
      raise 0x0D 5 tbUnit (pay [(s.tm.lastGood, 6)]) (setTimeState 2 { s with tm := { s.tm with tideInLost := true } })
    else s)

/-- PPS_IN_CAPTURE: the time-base value of a rising edge of PPS_IN is reported (R348). -/
def execPpsInCapture (t : Nat) (s : State) : Host.Outcome State Fault Refusal :=
  let s := s.atTime t
  .next (raise 0x0D 3 tbUnit (pay [(nowTb s, 10)]) (timeCount 127 0 1 s))

/-- PPS_OUT_EDGE: PPS_OUT rises, once, at a whole second plus the offset, and stays high for its width (R348). -/
def execPpsOutEdge (t : Nat) (s : State) : Host.Outcome State Fault Refusal :=
  let s := s.atTime t
  .next (if s.id.fwState ≠ 3 ∧ s.tm.ppsEdge ≠ nowLin s + 1 ∧ ((nowLin s : Int) - s.tm.ppsOffset * 65536) % (secU : Int) = 0 then
      emit (.pps (nowLin s) s.tm.ppsWidth) { s with tm := { s.tm with ppsEdge := nowLin s + 1, todDue := true } }
    else s)

/-- TOD_TX_MESSAGE: within 100 ms after a PPS_OUT edge the time event message of that edge is sent (R348). -/
def execTodTxMessage (t : Nat) (s : State) : Host.Outcome State Fault Refusal :=
  let s := s.atTime t
  .next (if s.id.fwState ≠ 3 ∧ s.tm.todTx ∧ s.tm.todDue ∧ s.tm.ppsEdge ≠ 0 ∧ nowLin s < s.tm.ppsEdge - 1 + msU 100 then
      emit (.tod ((s.tm.ppsEdge - 1) / nsU)) { s with tm := { s.tm with todDue := false } }
    else s)

/-- TOD_RX: a message arrives on TOD_RX; a valid one is passed to the host and not acted on (R348). -/
def execTodRx (t : Nat) (bytes : List Byte) (valid : Bool) (s : State) : Host.Outcome State Fault Refusal :=
  let s := s.atTime t
  .next (if !s.tm.todRx then s
    else if valid then raise 0x0D 4 tbUnit (bytes.take 20) (timeCount 127 1 1 s)
    else timeCount 127 2 1 s)

/-- TSR_MERGER_WRITE: the merger moves the oldest general entry of a port to the host ring, unless the ring is full,
disabled or stopped (R344, R346, R433). -/
def execTsrMergerWrite (t : Nat) (port : Nat) (s : State) : Host.Outcome State Fault Refusal :=
  let s := s.atTime t
  let h := s.host
  let x := s.tm.ports.getD port {}
  .next (if !h.tsrEnable || h.tsrStopped || decide (65536 ≤ (h.tsrProducer - h.tsrConsumer).toNat) then s
    else match x.fifo.find? fun e => !e.own with
      | none => s
      | some e =>
        let n := h.tsrProducer.toNat
        let s := hostWriteWords (h.tsrBase + 16 * (n % 65536)) (tsWords port (n / 65536 % 2 == 0) e) s
        let s := tsRoom port (modTimePort port (fun y => { y with fifo := y.fifo.erase e }) s)
        let m := h.tsrMod.wrote (elapsed s)
        let s := { s with host := { s.host with tsrProducer := h.tsrProducer + 1#32, tsrMod := m } }
        if m.due (elapsed s) then signal 0 33 { s with host := { s.host with tsrMod := m.signalled } } else s)

end Sys2Proof.Machine
end

