-- ==== Sys2Proof/Machine/Checkpoint.lean ====
section
/-! DEFINITION. Checkpoint items of a twin pair: their keys, their values, and how a standby takes one
(spec/14_twin_redundancy.md, Table 14-5, R395, R396). -/

namespace Sys2Proof.Machine

open Sys2Proof

/-- A signed count as a field of a checkpoint item. -/
def ckInt (x : Int) : Nat := unsigned 64 x

/-- The signed count of such a field. -/
def ckSigned (x : Nat) : Int := signed 64 (x % 2 ^ 64)

/-- A gate list as fields (item kind 0x05). -/
def ckGate (l : Option GateList) : List Nat :=
  match l with
  | none => [0]
  | some g => [1, g.cycle, g.base, b2n g.strict, g.t, b2n g.clear, g.entries.length] ++ g.entries.flatMap fun e => [e.1, e.2]

/-- Pairs of a flat list. -/
def pairsOf : List Nat → List (Nat × Nat)
  | a :: b :: r => (a, b) :: pairsOf r
  | _ => []

/-- A gate list from its fields, and what follows them. -/
def gateOfCk : List Nat → Option GateList × List Nat
  | 1 :: cycle :: base :: strict :: t :: clear :: n :: r =>
    (some { entries := pairsOf (r.take (2 * n)), cycle := cycle, base := base, strict := strict == 1, t := t, clear := clear == 1 },
      r.drop (2 * n))
  | _ :: r => (none, r)
  | [] => (none, [])

/-- A shaper's fields. -/
def ckShaper (x : Shaper) : List Nat := [ckInt x.tok, x.last, x.res]

/-- A shaper with tokens, time and remainder of an item. -/
def shaperOfCk (x : Shaper) (v : List Nat) : Shaper := { x with tok := ckSigned (v.getD 0 0), last := v.getD 1 0, res := v.getD 2 0 }

/-- Index of an item of kind 0x08 that is a VOQ known at the credit scheduler; a local VOQ has its queue ID. -/
def ckDemand (key : Nat) : Nat := 2 ^ 24 + key

/-- Index of an item of kind 0x09 that is an ECMP group; a protection group has its index. -/
def ckEcmp (g : Nat) : Nat := 2 ^ 23 + g

/-- Index of an item of kind 0x12 that is a statistics counter half; a counter of a group has its key. -/
def ckStat (k : Nat) : Nat := 2 ^ 80 + k

/-- Own value of an item (Table 14-5); none where the unit has no such object. -/
def ckRead (s : State) (kind i : Nat) : List Nat :=
  match kind with
  | 0x02 => match tget s.det.frer i with
    | some f => [f.seq, f.hist, b2n f.any, f.start]
    | none => []
  | 0x03 => match tget s.det.streams i with
    | some y => [y.win, y.cnt, y.seq]
    | none => []
  | 0x04 => match tget s.circuits i with
    | some c => [c.txSeq.getD c.cfg.seq0, ckInt c.p, b2n c.lops, b2n c.playing]
    | none => []
  | 0x05 => match s.det.gates[i]? with
    | some g => ckGate g.run ++ ckGate g.pend
    | none => []
  | 0x06 => let t := tgetD s.fwd.toks i {}; [t.tc, t.te, t.last, t.resC, t.resP]
  | 0x10 => let t := tgetD s.fwd.toks i {}; [t.tc, t.te, t.last, t.resC, t.resP]
  | 0x07 => match tget s.td.nodes (handle 0xA1 i) with
    | some n => ckShaper n.sch.min ++ ckShaper n.sch.max
    | none => []
  | 0x08 =>
    if 2 ^ 24 ≤ i then match tget s.fab.demands (i - 2 ^ 24) with
      | some d => [d.gcum]
      | none => []
    else match credOf s i with
      | some (_, c) => [c.gcum, c.tokens, c.sent]
      | none => []
  | 0x09 =>
    if 2 ^ 23 ≤ i then s.fwd.excluded.filter fun k => k / 512 == i - 2 ^ 23
    else match tget s.tr.groups i with
      | some g => [b2n g.side, g.present, match g.wtrAt with | some w => w + 1 | none => 0] ++ g.holds.flatMap fun e => [e.1, e.2]
      | none => []
  | 0x0A => match tget s.line.ports i with
    | some x => (match x.activeTx with | some an => an | none => 4) ::
        (List.range 4).map fun an => match tget s.line.sas (saIndex i true 0 an) with | some a => a.pn | none => 0
    | none => []
  | 0x11 =>
    if hType i = 0xA0 then match tget s.td.queues (hIdx i) with
      | some x => ckShaper x.sch.min ++ ckShaper x.sch.max ++ [x.sch.deficit]
      | none => []
    else match tget s.td.nodes i with
      | some n => ckShaper n.sch.min ++ ckShaper n.sch.max ++ [n.sch.deficit] ++ n.rr
      | none => []
  | 0x12 => if 2 ^ 80 ≤ i then [tgetD s.fwd.stats (i - 2 ^ 80) 0] else [tgetD s.ctr i 0]
  | _ => []

/-- Set an item to a value; an object that the unit does not have is left out. -/
def ckWrite (kind i : Nat) (v : List Nat) (s : State) : State :=
  let at_ (k : Nat) : Nat := v.getD k 0
  match kind with
  | 0x02 => modDet (fun d => { d with frer := tmodify d.frer i fun f =>
      { f with seq := at_ 0, hist := at_ 1, any := at_ 2 == 1, start := at_ 3 } }) s
  | 0x03 => modDet (fun d => { d with streams := tmodify d.streams i fun y => { y with win := at_ 0, cnt := at_ 1, seq := at_ 2 } }) s
  | 0x04 => { s with circuits := tmodify s.circuits i fun c =>
      { c with txSeq := some (at_ 0), p := ckSigned (at_ 1), lops := at_ 2 == 1, playing := at_ 3 == 1 } }
  | 0x05 =>
    let (run, r) := gateOfCk v
    let (pend, _) := gateOfCk r
    modDet (fun d => { d with gates := lmod d.gates i fun g => { g with run := run, pend := pend } }) s
  | 0x06 => modFwd (fun w => { w with toks := tset w.toks i ⟨at_ 0, at_ 1, at_ 2, at_ 3, at_ 4⟩ }) s
  | 0x10 => modFwd (fun w => { w with toks := tset w.toks i ⟨at_ 0, at_ 1, at_ 2, at_ 3, at_ 4⟩ }) s
  | 0x07 => modTd (fun t => { t with nodes := tmodify t.nodes (handle 0xA1 i) fun n => { n with
      sch := { n.sch with min := shaperOfCk n.sch.min v, max := shaperOfCk n.sch.max (v.drop 3) } } }) s
  | 0x08 =>
    if 2 ^ 24 ≤ i then modFab (fun f => { f with demands := tset f.demands (i - 2 ^ 24) { tgetD f.demands (i - 2 ^ 24) {} with gcum := at_ 0 } }) s
    else modCred i (fun c => { c with gcum := at_ 0, tokens := at_ 1, sent := at_ 2 }) s
  | 0x09 =>
    if 2 ^ 23 ≤ i then modFwd (fun w => { w with excluded := (w.excluded.filter fun k => k / 512 != i - 2 ^ 23) ++ v }) s
    else { s with tr := { s.tr with groups := tmodify s.tr.groups i fun g =>
      { g with side := at_ 0 == 1, present := at_ 1, wtrAt := if at_ 2 = 0 then none else some (at_ 2 - 1), holds := pairsOf (v.drop 3) } } }
  | 0x0A =>
    let s := modPort i (fun x => { x with activeTx := if at_ 0 < 4 then some (at_ 0) else none }) s
    (List.range 4).foldl (fun s an =>
      { s with line := { s.line with sas := tmodify s.line.sas (saIndex i true 0 an) fun a => { a with pn := at_ (an + 1) } } }) s
  | 0x11 =>
    let sch (x : Sched) : Sched := { x with min := shaperOfCk x.min v, max := shaperOfCk x.max (v.drop 3), deficit := at_ 6 }
    if hType i = 0xA0 then modTd (fun t => { t with queues := tmodify t.queues (hIdx i) fun x => { x with sch := sch x.sch } }) s
    else modTd (fun t => { t with nodes := tmodify t.nodes i fun n => { n with sch := sch n.sch, rr := v.drop 7 } }) s
  | 0x12 =>
    if 2 ^ 80 ≤ i then modFwd (fun w => { w with stats := mset 0 w.stats (i - 2 ^ 80) (at_ 0) }) s
    else { s with ctr := mset 0 s.ctr i (at_ 0) }
  | _ => s

/-- Widths of the counters, sequence numbers, token counts and credit counters among an item's fields; a field of any
other kind has none (R396). -/
def ckWidths (kind i : Nat) : List (Option Nat) :=
  match kind with
  | 0x03 => [none, some 16, some 16]
  | 0x04 => [some 16]
  | 0x06 => [some 41, some 41]
  | 0x10 => [some 41, some 41]
  | 0x07 => [some 64, none, none, some 64]
  | 0x08 => if 2 ^ 24 ≤ i then [some 24] else [some 24, some 64, some 64]
  | 0x11 => [some 64, none, none, some 64, none, none, some 64]
  | 0x12 => [some (if 2 ^ 80 ≤ i || i / 1024 / 2 ^ 32 == 4 then 64 else 48)]
  | _ => []

/-- Whether a policer is deterministic (item kind 0x06 or 0x10). -/
def ckDetPolicer (s : State) (i : Nat) : Bool := (tgetD s.fwd.cfg.pols i {}).det

/-- Keys of every class A item: kind and index. -/
def ckKeysA (s : State) : List (Nat × Nat) :=
  (s.det.frer.map fun e => (0x02, e.1)) ++ (s.det.streams.map fun e => (0x03, e.1)) ++ (s.circuits.map fun e => (0x04, e.1))
    ++ ((List.range 64).map fun p => (0x05, p)) ++ ((s.fwd.toks.filter fun e => ckDetPolicer s e.1).map fun e => (0x06, e.1))
    ++ ((s.td.nodes.filter fun e => hType e.1 == 0xA1).map fun e => (0x07, hIdx e.1))
    ++ (s.td.sets.flatMap fun e => (List.range 8).map fun c => (0x08, 8 * e.1 + c)) ++ (s.fab.demands.map fun e => (0x08, ckDemand e.1))
    ++ (s.tr.groups.map fun e => (0x09, e.1)) ++ (s.fwd.cfg.ecmps.map fun e => (0x09, ckEcmp e.1))
    ++ (if s.twin.dMode then [] else s.line.ports.map fun e => (0x0A, e.1))

/-- Keys of the class B items whose object index is r modulo 1,024 (R395). -/
def ckKeysB (s : State) (r : Nat) : List (Nat × Nat) :=
  let turn (i : Nat) : Bool := i % 1024 == r
  ((s.fwd.toks.filter fun e => turn e.1 && !ckDetPolicer s e.1).map fun e => (0x10, e.1))
    ++ ((s.td.nodes.filter fun e => turn (hIdx e.1)).map fun e => (0x11, e.1))
    ++ ((s.td.queues.filter fun e => decide (s.td.v ≤ e.1) && turn e.1).map fun e => (0x11, handle 0xA0 e.1))
    ++ ((s.fwd.stats.filter fun e => turn (e.1 / 2)).map fun e => (0x12, ckStat e.1))
    ++ ((s.ctr.filter fun e => let g := e.1 / 1024 / 2 ^ 32; decide (2 ≤ g) && decide (g ≤ 4) && turn (e.1 / 1024 % 2 ^ 32)).map fun e => (0x12, e.1))

/-- The items of some keys with their values. -/
def ckItems (s : State) (keys : List (Nat × Nat)) : List CkItem := keys.map fun k => (k.1, k.2, ckRead s k.1 k.2)

/-- A field of the active's value plus the standby's own change since the boundary, in the arithmetic of the field; any
other field is the active's (R396). -/
def ckMerge : List (Option Nat) → List Nat → List Nat → List Nat → List Nat
  | _, [], _, _ => []
  | ws, v :: vs, was, now =>
    let x := match ws.headD none, was, now with
      | some w, a :: _, b :: _ => (v + (b + 2 ^ w - a % 2 ^ w)) % 2 ^ w
      | _, _, _ => v
    x :: ckMerge ws.tail vs was.tail now.tail

/-- Apply a learn result of the active (item kind 0x01): 1 learn, 2 move, 3 age, 4 flush (R393). -/
def ckLearn (v : List Nat) (s : State) : State :=
  let tab := v.getD 1 0
  let key := v.getD 2 0
  match tget s.tab.dill tab with
  | none => s
  | some tb =>
    let entry : DillVal := { act := v.getD 3 0, cookie := 0#32, static := false, learned := true, port := v.getD 4 0 }
    match v.getD 0 0, dillAt s tab tb key with
    | 1, some (p, e) => dillPut p { e with v := { e.v with val := some entry } } s
    | 1, none => match dillPlace s tab (bucketOf tb key) with
      | some p => dillNew p tab (bucketOf tb key) { key := key, v := ⟨some entry, []⟩, hit := true } s
      | none => s
    | 2, some (p, e) => match e.v.val with
      | some w => dillPut p { e with hit := true, v := { e.v with val := some { w with act := entry.act, port := entry.port } } } s
      | none => s
    | 3, some (p, _) => dillFree p s
    | 4, some (p, e) =>
      let w := e.v.direct none
      if w.free then dillFree p s else dillPut p { e with v := w } s
    | _, _ => s

/-- The standby takes one item of the checkpoint of a tide (R396). -/
def ckTake (tide : Nat) (it : CkItem) (s : State) : State :=
  let (kind, i, v) := it
  if kind = 1 then ckLearn v s
  else if s.twin.dMode then ckWrite kind i v s
  else
    let was := match s.twin.hist.find? fun e => e.1 == tide with
      | some e => match e.2.find? fun x => x.1 == kind && x.2.1 == i with
        | some x => x.2.2
        | none => []
      | none => []
    if was = v then s
    else
      let s := ckWrite kind i (ckMerge (ckWidths kind i) v was (ckRead s kind i)) s
      twinCount 4 1 (if kind = 9 then skipDevice s else s)

end Sys2Proof.Machine
end

