-- ==== Sys2Proof/Machine/TwinOps.lean ====
section
/-! DEFINITION. Operations of the twin pair: states and the berth token, manifests and their comparison, decisions
(spec/14_twin_redundancy.md). -/

namespace Sys2Proof.Machine

open Sys2Proof

/-- DEVID[0] of the unit that is ACTIVE, as this unit sees it. -/
def activeId (s : State) : Nat := if s.twin.st = 1 then s.id.devid % 2 else 1 - s.id.devid % 2

/-- The optical transmitters that TXEN enables: bit j for line lanes 4j to 4j + 3 (R385). -/
def txen (s : State) : Nat :=
  (List.range 16).foldl (fun m j =>
    if mayDrive s && !scanning s && ((List.range 4).any fun i => (laneOwner s (4 * j + i)).isSome) then m + 2 ^ j else m) 0

/-! ### States (R387 to R389, R410) -/

/-- Enter COLD: nothing of a join, a contest or a takeover goes on. -/
def goCold (s : State) : State :=
  setTwinFree 4 (modTwin (fun x => { x with
    killOut := false, takeAt := 0, detector := 0, switch := none, contest := none, undecided := false
    rx := [], hist := [], join := 0, rotate := 0 }) s)

/-- w of R389, 2^-16 ns. -/
def takeWait (s : State) : Nat := max 2000 (min s.pow.tol.tk 123000) * nsU

/-- A unit that takes the token aborts a running sounding: its cluster returns at the next boundary (R512). -/
def abortSounding (s : State) : State :=
  match s.test.run with
  | some r => testCount 3 1 { s with test := { s.test with run := some { r with phase := 2, pass := false } } }
  | none => s

/-- The governor brings the clusters of the line and fabric paths to ON for a unit that takes the token (R389). -/
def pathOn (s : State) : State :=
  ((List.range 80).filter fun d => takeoverPath d && decide ((domOf s d).st ≠ 0) && decide ((domOf s d).st ≤ 3)).foldl
    (fun s d => wakeDom d s) s

/-- Raise KILL_OUT: the unit takes the token and becomes ACTIVE after w (R388, R389). -/
def berthTake (cold : Bool) (s : State) : State :=
  abortSounding <| pathOn (modTwin (fun x => { x with
    killOut := !scanning s, inFirst := x.killIn, takeAt := elapsed s + takeWait s + 1, cold := cold }) s)

/-- A takeover is decided by a detector; TAKEOVER_DECIDED raises KILL_OUT (R406). A COLD unit decides none. -/
def decideTakeover (detector : Nat) (s : State) : State :=
  if (s.twin.st = 2 ∨ s.twin.st = 3 ∨ s.twin.st = 5) ∧ s.twin.takeAt = 0 ∧ s.twin.detector = 0 then
    modTwin (fun x => { x with detector := detector }) s
  else s

/-- The active finds its standby failed (Table 14-9). -/
def standbyFailed (detector : Nat) (s : State) : State :=
  if s.twin.st = 1 ∧ s.twin.peer ≠ 4 then twinRaise 0xA (pay [(Config.detectorCode detector % 256, 1)]) (modTwin (fun x => { x with peer := 4 }) s) else s

/-- A detector declares the twin failed: a standby takes over, the active gives its standby up (Table 14-9). -/
def twinFailed (detector : Nat) (s : State) : State :=
  if s.twin.st = 1 then standbyFailed detector s else decideTakeover detector s

/-- 64-byte frames that a port can carry in 3 tides (R393). -/
def pnReserve (s : State) (p : Nat) : Nat :=
  match tget s.line.ports p with
  | some x => ceilDiv (ethSpeed x.mode * 1000000 * 375) (672 * 1000000)
  | none => 0

/-- Add the reserve of R393 to the next PN of every transmit SA. -/
def pnAdvance (s : State) : State :=
  let more (i : Nat) (a : Sa) : Sa := if bit i 7 then { a with pn := a.pn + pnReserve s (i / 256) } else a
  { s with line := { s.line with sas := tmap s.line.sas more } }

/-! ### Suspicion (R404) -/

/-- Elapsed time of boundary b, from the running tide's. -/
def boundaryAt (s : State) (b : Nat) : Nat := s.tm.elapsed - (s.tm.tide - b) * tideU

/-- Whether this unit is suspect for tide n: an error in [boundary n - 1, the comparison instant) (R402, R404). -/
def suspectFor (s : State) (n : Nat) : Bool :=
  s.flt.suspects.any fun e => decide (boundaryAt s (n - 1) ≤ e) && decide (e < boundaryAt s (n + 1) + usU 100)

/-! ### Manifests (R397 to R402) -/

/-- An entry of a manifest (Table 14-6). -/
def mfEntry (port : Nat) (skip : Bool) (cut n fcs digest : Nat) : List Word :=
  [toWord (b2n skip * 64 + port % 64)] ++ toWords (cut % 2 ^ 48) 2 ++ [toWord n, toWord fcs] ++ toWords digest 2

/-- A manifest (Table 14-6). -/
def mfWords (tide : Nat) (skip suspect : Bool) (es : List (List Word)) : List Word :=
  toWords tide 2 ++ [toWord (b2n skip + 2 * b2n suspect + 4 * es.length)] ++ es.flatten

/-- Entry i of a manifest. -/
def mfAt (w : List Word) (i : Nat) : List Word := (w.drop (3 + 7 * i)).take 7

/-- The entries of a manifest. -/
def mfEntries (w : List Word) : List (List Word) := (List.range (fld w 2 8 2)).map (mfAt w)

/-- The entry of a port in a manifest. -/
def mfPort (w : List Word) (p : Nat) : Option (List Word) := (mfEntries w).find? fun e => fld e 0 5 0 == p

/-- cut(p, N) in an entry. -/
def mfCut (e : List Word) : Nat := wd64 e 1 % 2 ^ 48

/-- A retained manifest of a tide. -/
def mfOf (l : List (Nat × List Word)) (n : Nat) : Option (List Word) := (l.find? fun e => e.1 == n).map Prod.snd

/-- Retain a manifest for 64 tides (R402). -/
def mfKeep (l : List (Nat × List Word)) (n : Nat) (w : List Word) : List (Nat × List Word) :=
  (n, w) :: (l.filter fun e => e.1 != n).take 63

/-- Whether the unit sets the device skip flag for tide n (R400). -/
def devSkip (s : State) (n : Nat) : Bool := s.twin.skips.any fun k => k == n || k + 1 == n

/-- The line ports that exist, of either kind. -/
def linePorts (s : State) : List Nat := (List.range 64).filter fun p => thas s.line.ports p || thas s.tr.ports p

/-- Digest and number of the frames of a range, and the FCS of the last one (R398, R399). -/
def mfSum (fs : List Covered) (lo hi : Nat) : Nat × Nat × Nat :=
  let r := fs.filter fun f => decide (lo ≤ f.seq) && decide (f.seq < hi)
  (r.foldl (fun d f => (d + f.h.getD 0) % 2 ^ 64) 0, r.length,
    match fs.find? fun f => f.seq + 1 == hi with
    | some f => f.fcs
    | none => 0)

/-- The active cuts tide n, which has ended, on one port and makes its entry (R397). -/
def cutPort (n p : Nat) (es : List (List Word) × State) : List (List Word) × State :=
  let (es, s) := es
  let x := s.twin.ports.getD p {}
  let cut := match x.frames.find? fun f => decide (s.tm.tideStart ≤ f.last) with
    | some f => f.seq
    | none => if s.twin.dMode then x.rep else x.seq
  let lo := match x.cut with
    | some (m, c) => if m + 1 = n then c else cut
    | none => cut
  let (digest, count, fcs) := mfSum x.frames lo cut
  let y := { x with cut := some (n, cut), frames := x.frames.filter fun f => decide (cut ≤ f.seq + 1) }
  (es ++ [mfEntry p (x.skips.contains n) cut count fcs digest], modTwin (fun t => { t with ports := t.ports.set p y }) s)

/-- The active makes and sends its manifest of the tide before the running one (R402). -/
def sendManifest (s : State) : State :=
  let n := s.tm.tide - 1
  if s.twin.st ≠ 1 ∨ s.twin.mfSent = n + 1 ∨ s.tm.tide = 0 then s
  else
    let (es, s) := (linePorts s).foldl (fun e p => cutPort n p e) (([] : List (List Word)), s)
    let w := mfWords n (devSkip s n) (suspectFor s n) es
    let s := modTwin (fun t => { t with own := mfKeep t.own n w, mfSent := n + 1 }) s
    if s.twin.hawser then emit (.hawser (.manifest w)) s else s

/-- What the standby has found while it compares a tide. -/
structure Compared where
  /-- Own entries. -/
  own : List (List Word) := []
  /-- Ports that differ, with own and twin digest. -/
  bad : List (Nat × Nat × Nat) := []
  /-- Ports compared and ports skipped. -/
  done : Nat := 0
  skipped : Nat := 0

/-- The frame with which the standby realigns, among 16 on either side of its own number q (R399). -/
def realignAt (fs : List Covered) (q fcs : Nat) : Option Nat :=
  let at_ (n : Nat) : Bool := fs.any fun f => f.seq == n && f.fcs == fcs
  ((List.range 16).flatMap fun i => (if i + 1 ≤ q then [q - (i + 1)] else []) ++ [q + (i + 1)]).find? at_

/-- The standby compares one entry of the active's manifest of tide n (R399, R400, R402). -/
def comparePort (n : Nat) (prev : Option (List Word)) (skipAll : Bool) (e : List Word) (r : Compared × State) : Compared × State :=
  let (c, s) := r
  let p := fld e 0 5 0
  let x := s.twin.ports.getD p {}
  match prev.bind fun w => mfPort w p with
  | none => (c, s)
  | some e0 =>
    let own (k : Nat) : Nat := if s.twin.dMode then k else ((k : Int) + x.off).toNat
    let lo := own (mfCut e0)
    let hi := own (mfCut e)
    let (digest, count, fcs) := mfSum x.frames lo hi
    let entry := mfEntry p (x.skips.contains n) (mfCut e) count fcs digest
    let keep := x.frames.filter fun f => decide (hi ≤ f.seq + 40)
    let s := modTwin (fun t => { t with ports := t.ports.set p { x with frames := keep } }) s
    if !s.twin.dMode && decide (mfCut e0 < mfCut e) && fcs != wd e 4 then
      match realignAt x.frames (hi - 1) (wd e 4) with
      | some q =>
        let off : Int := (q : Int) - ((mfCut e : Int) - 1)
        let s := modTwin (fun t => { t with ports := lmod t.ports p fun y => { y with off := off } }) s
        ({ c with own := c.own ++ [entry], skipped := c.skipped + 1 }, twinCount 3 1 (skipPort p n s))
      | none => ({ c with own := c.own ++ [entry] }, goStale 3 s)
    else if skipAll || flag e 0 6 || x.skips.contains n then ({ c with own := c.own ++ [entry], skipped := c.skipped + 1 }, s)
    else
      let bad := count != wd e 3 || digest != wd64 e 5
      ({ c with own := c.own ++ [entry], done := c.done + 1, bad := if bad then c.bad ++ [(p, digest, wd64 e 5)] else c.bad }, s)

/-! ### Decisions (R404, R405) -/

/-- The referee gives no verdict: the active keeps the token, and the standby is STALE (R405). -/
def undecided (n : Nat) (s : State) : State :=
  goStale 4 (twinRaise 6 (pay [(n, 6)]) (modTwin (fun x => { x with contest := none, undecided := true }) s))

/-- A unit is found faulty on a basis: DECISION; where it is the active the standby takes over, else the standby enters
COLD (R404). -/
def faulty (activeIs : Bool) (basis : Nat) (s : State) : State :=
  let id := if activeIs then activeId s else 1 - activeId s
  let s := twinRaise 5 (pay [(id, 1), (basis, 1)]) (modTwin (fun x => { x with contest := none, undecided := false }) s)
  if activeIs then (if s.twin.st = 1 then s else decideTakeover 3 s)
  else if s.twin.st = 1 then modTwin (fun x => { x with peer := 4 }) s
  else goCold s

/-- Whether the referee can decide. -/
def refereeReady (s : State) : Bool := s.twin.referee && !s.twin.vectors.isEmpty

/-- Decide a mismatch of tide n by evidence, or leave it to the referee (R404). -/
def decide_ (n : Nat) (s : State) : State :=
  let mine := suspectFor s n
  let theirs := s.twin.susp.contains n
  let active := if s.twin.st = 1 then mine else theirs
  let standby := if s.twin.st = 1 then theirs else mine
  if active && !standby then faulty true 1 s
  else if standby && !active then faulty false 1 s
  else if refereeReady s then modTwin (fun x => { x with contest := some { tide := n } }) s
  else undecided n s

/-- Settle a contest when both referee results are known (R405). -/
def settleContest (s : State) : State :=
  match s.twin.contest with
  | some c => match c.own, c.twin with
    | some own, some twin =>
      if own = twin then undecided c.tide s else faulty ((!own) == (s.twin.st == 1)) 2 s
    | _, _ => s
  | none => s

/-- The decision record's h that pipeline p makes of a referee frame, with fuel for its passes (R405). -/
def refereePass (p port : Nat) : Nat → Pkt → State → Option Nat
  | 0, _, _ => none
  | f + 1, k, s =>
    let s := (ingressPass p [] k s).1
    match (s.twin.ports.getD port {}).frames.head?.bind fun c => c.h with
    | some h => some h
    | none => match (s.fwd.pipes.getD p {}).recirc.getLast? with
      | some k => refereePass p port f k s
      | none => none

/-- Whether a vector passes in every pipeline: its frame is formed and judged there and discarded, so nothing of the state
changes (R405). -/
def vectorPasses (s : State) (v : Vector) : Bool :=
  let (prio, pre) := classify s v.port v.port v.bytes
  let k : Pkt := { bytes := v.bytes, md := { port := v.port, len := v.bytes.length + 4 }, prio := prio, pre := pre, seq := some 0 }
  let s := modTwin (fun x => { x with st := 2, dMode := true, ports := x.ports.set v.port { frames := [⟨0, 0, 0, none⟩] } }) s
  let s := modFwd (fun w => { w with pipes := w.pipes.map fun x => { x with recirc := [] } }) s
  (List.range 16).all fun p => refereePass p v.port 5 k s == some v.h

/-! ### Joining (R413, R414) -/

/-- Whether a unit can join: the hawser link is up and the twin is ACTIVE in the same mode (R413). -/
def canJoin (s : State) : Bool := s.twin.hawser && s.twin.peer == 1 && s.twin.peerD == s.twin.dMode

/-- Whether each unit's version is at least the other's twin compatibility (R479). -/
def versionsFit (s : State) : Bool :=
  decide (s.boot.twinCompat ≤ s.id.fwVersion) && decide ((slotAt s s.id.image).compat ≤ s.boot.twinVersion)

/-- Take a profile as a profile change does: tables and learning lose their contents (R46, R480, R481). -/
def takeProfile (p : Nat) (s : State) : State :=
  if p = s.fwd.profile then s
  else
    let old := s.fwd.profile
    let s := modFwd (fun w => { w with profile := p }) (discardTables p s)
    raise 6 1 mpcUnit (pay [(old, 1), (p, 1)]) (modLearn (fun l => { l with slots := [], queue := [] }) s)

/-- What the bulk copy replaces is discarded: versioned items, tables, learning, streams and gates, buffers, queues and
nodes other than those of ports and packet clients, and transactions (R414). -/
def joinClear (s : State) : State :=
  let s := (txns s).foldl (fun s e => tablesUndo e.1 (unreserve e.1 (putTxn (e.1 % 8) none s))) s
  let nodes := s.td.nodes.filter fun e => e.2.level == 0 || e.2.client.isSome
  let s := modFwd (fun w => { w with
    cfg := {}, oldIn := none, oldEg := none, toks := [], excluded := [], egress := []
    pipes := w.pipes.map fun x => { x with waiting := [], recirc := [] } }) s
  let s := { s with tab := {}, learn := {}, det := {}, td := { nodes := nodes, lfsr := s.td.lfsr, moves := s.td.moves } }
  poolInit 1 (poolInit 0 s)

/-- Begin the bulk copy, or begin it again (R414). -/
def startCopy (s : State) : State :=
  joinClear (modTwin (fun x => { x with join := 1, rotate := 0, rx := [], hist := [], own := [], twin := [], undecided := false }) s)

/-- Begin to join: SYNCING in the active's profile, and the bulk copy (R414, R481). -/
def startJoin (s : State) : State := setTwinFree 3 (takeProfile s.twin.peerProfile (startCopy s))

/-- A standby begins to convert to a profile: SYNCING, and a bulk copy into the new split (R480). -/
def startConvert (p : Nat) (s : State) : State :=
  let s := { s with boot := { s.boot with convert := true, oldProfile := s.fwd.profile } }
  setTwinFree 3 (takeProfile p (startCopy s))

end Sys2Proof.Machine
end

