-- ==== Sys2Proof/Machine/TwinCmd.lean ====
section
/-! DEFINITION. Commands of the twin pair (spec/14_twin_redundancy.md, Table 14-10). -/

namespace Sys2Proof.Machine

open Sys2Proof

/-- A twin command's own meaning on a paired unit; a solo unit refuses it (R380). -/
def onPair (f : Act) : Act := fun x q s => if s.id.twinEn then f x q s else fail stNotPermitted s

/-- Own meaning of TWIN.SET (R413, Table 14-10). -/
def actTwinSet : Act := onPair fun _ q s =>
  if s.twin.st ≠ 4 then fail stNotPermitted s
  else done (modTwin (fun x => { x with dMode := flag q 0 0, auto := flag q 0 1, referee := flag q 0 2, mismatch := false }) s)

/-- TWIN.SET (R413). -/
def cmdTwinSet : Cmd := { op := 0x0F01, need := fun _ => 1, objs := objOp 0x0F01, act := actTwinSet }

/-- TWIN.SET (R413). -/
def execTwinSet (c : Call) (q : List Word) (s : State) : Host.Outcome State Fault Refusal :=
  .next (runCommand cmdTwinSet c q s)

/-- Own meaning of TWIN.STATUS (R380, Table 14-10). -/
def actTwinStatus : Act := fun _ _ s =>
  let kill := b2n s.twin.killIn * 2 ^ 8 + b2n s.twin.killOut * 2 ^ 9
  if s.id.twinEn then
    let x := s.twin
    let w := x.st + x.peer * 8 + b2n x.hawser * 2 ^ 6 + b2n (decide (x.moorIn ≠ 0) && !x.hbLost) * 2 ^ 7 + kill
      + b2n x.dMode * 2 ^ 10 + x.stale * 2 ^ 11
    reply (toWord w :: (toWords x.lastCk 2 ++ toWords x.lastMf 2)) s
  else reply [toWord kill, 0#32, 0#32, 0#32, 0#32] s

/-- TWIN.STATUS (R380). -/
def cmdTwinStatus : Cmd := { op := 0x0F02, reading := true, act := actTwinStatus }

/-- TWIN.STATUS (R380). -/
def execTwinStatus (c : Call) (q : List Word) (s : State) : Host.Outcome State Fault Refusal :=
  .next (runCommand cmdTwinStatus c q s)

/-- Own meaning of TWIN.SWITCH (R409). -/
def actTwinSwitch : Act := onPair fun _ q s =>
  let n := wd64 q 0
  let named := (txns s).any fun e => (e.2.phase == 2 || e.2.named) && (e.2.c == n || e.2.c == n + 1)
  if s.twin.st ≠ 1 then fail stNotActive s
  else if s.twin.peer = 5 then fail stTwinStale s
  else if s.twin.peer ≠ 2 ∨ n < s.tm.tide + 2 ∨ named then fail stNotPermitted s
  else done (modTwin (fun x => { x with switch := some { n := n } }) s)

/-- TWIN.SWITCH (R409). -/
def cmdTwinSwitch : Cmd := { op := 0x0F03, need := fun _ => 2, objs := objOp 0x0F03, act := actTwinSwitch }

/-- TWIN.SWITCH (R409). -/
def execTwinSwitch (c : Call) (q : List Word) (s : State) : Host.Outcome State Fault Refusal :=
  .next (runCommand cmdTwinSwitch c q s)

/-- Own meaning of TWIN.FORCE: take the token, or yield it (R387). -/
def actTwinForce : Act := onPair fun _ q s =>
  if flag q 0 0 then done (if s.twin.st = 1 then goCold s else s)
  else if s.twin.st = 1 ∨ s.twin.takeAt ≠ 0 then done s
  else done (berthTake true (modTwin (fun x => { x with detector := 0 }) s))

/-- TWIN.FORCE (R387). -/
def cmdTwinForce : Cmd := { op := 0x0F04, need := fun _ => 1, objs := objOp 0x0F04, act := actTwinForce }

/-- TWIN.FORCE (R387). -/
def execTwinForce (c : Call) (q : List Word) (s : State) : Host.Outcome State Fault Refusal :=
  .next (runCommand cmdTwinForce c q s)

/-- Raise MODE_MISMATCH once for the twin's present report (R413). -/
def modeMismatch (s : State) : State :=
  if s.twin.mismatch || s.twin.peerD == s.twin.dMode then s
  else twinRaise 0xF (pay [(b2n s.twin.peerD, 1)]) (modTwin (fun x => { x with mismatch := true }) s)

/-- Raise VERSION_MISMATCH once for the twin's present report (R479). -/
def versionMismatch (s : State) : State :=
  if s.twin.mismatch then s
  else raise 0x14 5 mpcUnit (pay [(s.id.fwVersion, 4), (s.boot.twinVersion, 4)]) (modTwin (fun x => { x with mismatch := true }) s)

/-- A unit that the mode or the versions keep from joining its ACTIVE twin reports it (R413, R479). -/
def joinFails (s : State) : State :=
  if !s.twin.hawser || s.twin.peer != 1 then s else if s.twin.peerD != s.twin.dMode then modeMismatch s else versionMismatch s

/-- Own meaning of TWIN.JOIN (R413). -/
def actTwinJoin : Act := onPair fun _ _ s =>
  if s.twin.st ≠ 4 then fail stNotPermitted s
  else if canJoin s && versionsFit s then done (startJoin s)
  else fail stNotPermitted (joinFails s)

/-- TWIN.JOIN (R413). -/
def cmdTwinJoin : Cmd := { op := 0x0F05, objs := objOp 0x0F05, act := actTwinJoin }

/-- TWIN.JOIN (R413). -/
def execTwinJoin (c : Call) (q : List Word) (s : State) : Host.Outcome State Fault Refusal :=
  .next (runCommand cmdTwinJoin c q s)

/-- Words that TWIN.REFEREE_LOAD reads. -/
def vectorNeed (q : List Word) : Nat := if flag q 0 8 then 5 + ceilDiv (fld q 4 8 0) 4 else 1

/-- Own meaning of TWIN.REFEREE_LOAD (R405). -/
def actTwinRefereeLoad : Act := onPair fun _ q s =>
  let i := fld q 0 5 0
  if !flag q 0 8 then done (modTwin (fun x => { x with vectors := terase x.vectors i }) s)
  else
    let n := fld q 4 8 0
    if n < 60 ∨ 256 < n then fail stBadLength s
    else done (modTwin (fun x => { x with
      vectors := tset x.vectors i ⟨fld q 1 5 0, wd64 q 2, (wordBytes (q.drop 5)).take n⟩ }) s)

/-- TWIN.REFEREE_LOAD (R405). -/
def cmdTwinRefereeLoad : Cmd := { op := 0x0F06, need := vectorNeed, objs := objOp 0x0F06, act := actTwinRefereeLoad }

/-- TWIN.REFEREE_LOAD (R405). -/
def execTwinRefereeLoad (c : Call) (q : List Word) (s : State) : Host.Outcome State Fault Refusal :=
  .next (runCommand cmdTwinRefereeLoad c q s)

/-- Own meaning of TWIN.DECIDE: the faulty unit of an undecided mismatch is named, and its twin is told (R405). -/
def actTwinDecide : Act := onPair fun _ q s =>
  if !s.twin.undecided then fail stNotPermitted s
  else
    let s := if s.twin.hawser then emit (.hawser (.config (.direct 0x0F07 q 0))) s else s
    done (faulty (fld q 0 0 0 == activeId s) 3 s)

/-- TWIN.DECIDE (R405). -/
def cmdTwinDecide : Cmd := { op := 0x0F07, need := fun _ => 1, objs := objOp 0x0F07, act := actTwinDecide }

/-- TWIN.DECIDE (R405). -/
def execTwinDecide (c : Call) (q : List Word) (s : State) : Host.Outcome State Fault Refusal :=
  .next (runCommand cmdTwinDecide c q s)

/-- Own meaning of TWIN.MANIFEST_READ: own entry and the twin's (R402). -/
def actTwinManifestRead : Act := onPair fun _ q s =>
  let of (l : List (Nat × List Word)) : Option (List Word) := (mfOf l (wd64 q 0)).bind fun w => mfPort w (fld q 2 5 0)
  match of s.twin.own, of s.twin.twin with
  | some a, some b => reply (a ++ b) s
  | _, _ => fail stNotFound s

/-- TWIN.MANIFEST_READ (R402). -/
def cmdTwinManifestRead : Cmd := { op := 0x0F08, reading := true, need := fun _ => 3, act := actTwinManifestRead }

/-- TWIN.MANIFEST_READ (R402). -/
def execTwinManifestRead (c : Call) (q : List Word) (s : State) : Host.Outcome State Fault Refusal :=
  .next (runCommand cmdTwinManifestRead c q s)

/-- Own meaning of TWIN.COUNTERS: always accumulating, so the snapshot flag is ignored (R415). -/
def actTwinCounters : Act := onPair fun _ _ s => reply (ctrWords s.ctr 0x4F 0 (List.range 16)) s

/-- TWIN.COUNTERS (R415). -/
def cmdTwinCounters : Cmd := { op := 0x0F09, reading := true, need := fun _ => 1, act := actTwinCounters }

/-- TWIN.COUNTERS (R415). -/
def execTwinCounters (c : Call) (q : List Word) (s : State) : Host.Outcome State Fault Refusal :=
  .next (runCommand cmdTwinCounters c q s)

end Sys2Proof.Machine
end

