-- ==== Sys2Proof/Machine/Catalog.lean ====
section
/-! DEFINITION. The opcode catalogue (R460, Table 16-9): every command but those of area 0x02 and DET.CHECK and DET.EXPORT,
which are with the transactions. -/

namespace Sys2Proof.Machine

open Sys2Proof

/-- Area 0x01. -/
def areaDevice : List Cmd :=
  [cmdDeviceInfo, cmdDeviceMailboxSet, cmdDeviceMailboxGet, cmdDeviceEcho]

/-- Area 0x03. -/
def areaLine : List Cmd :=
  [cmdPortCreate, cmdPortDelete, cmdPortEnable, cmdPortDisable, cmdPortSet, cmdPortFilterSet, cmdPortStatus,
   cmdPortCounters, cmdPortLoopback, cmdLaneSet, cmdMacsecSecySet, cmdMacsecSaInstall, cmdMacsecSaActivate,
   cmdMacsecSaDelete, cmdMacsecCounters]

/-- Area 0x04. -/
def areaTransport : List Cmd :=
  [cmdTportCreate, cmdTportDelete, cmdTportEnable, cmdTportDisable, cmdOduCreate, cmdOduDelete, cmdSdhPathCreate,
   cmdSdhPathDelete, cmdTraceSet, cmdTraceGet, cmdMonSet, cmdDefectStatus, cmdPmRead, cmdProtCreate, cmdProtDelete,
   cmdProtRequest, cmdProtStatus]

/-- Area 0x05. -/
def areaCircuit : List Cmd :=
  [cmdCircuitCreate, cmdCircuitDelete, cmdCircuitEnable, cmdCircuitDisable, cmdCircuitSet, cmdCircuitStatus,
   cmdCircuitCounters, cmdCircuitPmRead]

/-- Area 0x06. -/
def areaPipe : List Cmd :=
  [cmdProfileSet, cmdProfileGet, cmdParserLoad, cmdParserPortSet, cmdIfSet, cmdLkpKeySet, cmdLkpProgramSet,
   cmdNhCreate, cmdNhSet, cmdNhDelete, cmdEncapCreate, cmdEncapDelete, cmdEcmpCreate, cmdEcmpSetMembers, cmdEcmpDelete,
   cmdHashSet, cmdPolicerSet, cmdPolicerRead, cmdStatsRead, cmdStatsClear, cmdPipeSet, cmdPipeCounters]

/-- Area 0x07. -/
def areaTables : List Cmd :=
  [cmdDillTableCreate, cmdDillInsert, cmdDillModify, cmdDillDelete, cmdDillTableDelete, cmdDillStatus, cmdSorrelAdd,
   cmdSorrelSet, cmdSorrelDelete, cmdSorrelGet, cmdSorrelMatch, cmdSorrelStatus, cmdSageGroupCreate,
   cmdSageGroupDelete, cmdSageInsert, cmdSageModify, cmdSageDelete, cmdSageRead, cmdSageStatus, cmdActionCreate,
   cmdActionSet, cmdActionDelete, cmdTableCounters, cmdDillSearch, cmdDillNext, cmdTableCmdlist, cmdTableCompareSet,
   cmdTableDigestLoad, cmdTableCompareStatus]

/-- Area 0x08. -/
def areaLearn : List Cmd :=
  [cmdLearnProfileSet, cmdLearnDomainSet, cmdLearnPortSet, cmdLearnPortStatus, cmdLearnFlushPort, cmdLearnProgramSet,
   cmdLearnDeviceSet, cmdLearnCounters]

/-- Area 0x09. -/
def areaBuf : List Cmd :=
  [cmdBufPoolSet, cmdBufPoolStatus, cmdBufInspect, cmdBufCounters]

/-- Area 0x0A. -/
def areaQueue : List Cmd :=
  [cmdQueueSpaceSet, cmdVoqCreate, cmdVoqDelete, cmdQueueCreate, cmdQueueSet, cmdQueueDelete, cmdQueueFlush,
   cmdQueueStatus, cmdQueueCounters, cmdNodeCreate, cmdNodeSet, cmdNodeDelete, cmdNodeStatus, cmdWredProfileSet,
   cmdSamplerGroupSet, cmdSamplerHistRead, cmdSchedCounters]

/-- Area 0x0B. -/
def areaDet : List Cmd :=
  [cmdStreamCreate, cmdStreamSet, cmdStreamDelete, cmdStreamStatus, cmdStreamCounters, cmdStreamEgressCreate,
   cmdStreamEgressDelete, cmdFrerCreate, cmdFrerSet, cmdFrerDelete, cmdFrerStatus, cmdFrerCounters, cmdFrerReset,
   cmdGateSet, cmdGateClear, cmdGateStatus, cmdDetCounters]

/-- Area 0x0C. -/
def areaFabric : List Cmd :=
  [cmdFabricSet, cmdFabricProfileSet, cmdFabricSysportSet, cmdFabricVoqGuarantee, cmdFabricGrantSet,
   cmdFabricCreditSet, cmdFabricStatus, cmdFabricLaneReach, cmdFabricCounters]

/-- Area 0x0D. -/
def areaTime : List Cmd :=
  [cmdTimeGet, cmdTimeAdjust, cmdTimeStep, cmdTimeStateSet, cmdTimeStatus, cmdTimePortSet, cmdTimeTsringSet,
   cmdTimeOriginate, cmdTimePpsSet, cmdTimeTodSet, cmdTimeSynceSet, cmdTimeTideSet, cmdTimeCounters]

/-- Area 0x0E. -/
def areaMem : List Cmd :=
  [cmdMemSet, cmdMemStatus, cmdMemRemapRead, cmdMemSpare, cmdMemTrainReport, cmdMemCounters]

/-- Area 0x0F. -/
def areaTwin : List Cmd :=
  [cmdTwinSet, cmdTwinStatus, cmdTwinSwitch, cmdTwinForce, cmdTwinJoin, cmdTwinRefereeLoad, cmdTwinDecide,
   cmdTwinManifestRead, cmdTwinCounters]

/-- Area 0x10. -/
def areaPower : List Cmd :=
  [cmdPowerTolSet, cmdPowerPortSet, cmdPowerConcentrateSet, cmdPowerDomainStatus, cmdPowerStatus, cmdPowerCounters]

/-- Area 0x11. -/
def areaTest : List Cmd :=
  [cmdSoundSet, cmdSoundNow, cmdSoundStatus, cmdSoundSliceInfo, cmdScanFull, cmdScanResult, cmdLifecycleChallenge,
   cmdLifecycleSet, cmdLifecycleKeyRevoke, cmdSelftestCounters]

/-- Area 0x12. -/
def areaFault : List Cmd :=
  [cmdFaultStatus, cmdFaultLogRead, cmdFaultLastBreathSet, cmdFaultLastBreathRead, cmdFaultClusterReinit,
   cmdFaultReset, cmdFaultCounters]

/-- Area 0x13. -/
def areaTelem : List Cmd :=
  [cmdTelemBankSet, cmdTelemBankRead, cmdTelemBwSet, cmdTelemDumpSet, cmdTelemDumpStatus, cmdTelemCounters,
   cmdTelemUserGrant]

/-- Area 0x14. -/
def areaUpgrade : List Cmd :=
  [cmdUpgradeLoad, cmdUpgradeActivate, cmdUpgradeConfirm, cmdUpgradeStatus, cmdUpgradeProfile]

/-- Area 0x15. -/
def areaPio : List Cmd :=
  [cmdPioRingMap, cmdPioCounters]

/-- The commands that a transaction or a mailbox may name, those of area 0x02, DET.CHECK and DET.EXPORT left out. -/
def baseCatalog : List Cmd :=
  areaDevice ++ areaLine ++ areaTransport ++ areaCircuit ++ areaPipe ++ areaTables ++ areaLearn ++ areaBuf ++ areaQueue ++ areaDet ++ areaFabric
    ++ areaTime ++ areaMem ++ areaTwin ++ areaPower ++ areaTest ++ areaFault ++ areaTelem ++ areaUpgrade ++ areaPio

/-- The command of an opcode. -/
def baseCmd (op : Nat) : Option Cmd := baseCatalog.find? fun k => k.op == op

/-- The command of an opcode that a transaction may hold (R452): no other is replayed at a commit. -/
def stageCmd (op : Nat) : Option Cmd := (baseCmd op).filter fun k => k.staging != .never

/-- The command of an opcode whose change the active carries to its standby: a staged one or a direct configuration change (R392). -/
def twinCmd (op : Nat) : Option Cmd := (baseCmd op).filter fun k => carried op || k.staging != .never

end Sys2Proof.Machine
end

