-- ==== Sys2Proof/Machine/Txn.lean ====
section
/-! DEFINITION. Transactions: TXN commands, preparation, commit, and DET.CHECK and DET.EXPORT, which judge one
(spec/16_command_interface.md, R295, R303, R304, R392). -/

namespace Sys2Proof.Machine

open Sys2Proof

/-! ### The plain commands (Table 16-8) -/

/-- Open a transaction in slot i (R453). -/
def openTxn (i : Nat) (s : State) : State :=
  { s with ecs := { s.ecs with slots := lmod s.ecs.slots i fun sl =>
      { gen := if sl.used then (sl.gen + 1) % 2 ^ 21 else sl.gen, used := true, cur := some {} } } }

/-- Own meaning of TXN.BEGIN: the lowest free slot (R453). -/
def actTxnBegin : Act := fun _ _ s =>
  match (List.range 8).find? fun i => (txnAt s i).isNone with
  | none => fail stTxnLimit s
  | some i =>
    let s := openTxn i s
    match txnAt s i with
    | some (h, _) => reply [toWord h] (toTwin (.opened h) s)
    | none => fail stTxnLimit s

def cmdTxnBegin : Cmd := { op := 0x0201, act := actTxnBegin }

/-- TXN.BEGIN (R453). -/
def execTxnBegin (c : Call) (q : List Word) (s : State) : Host.Outcome State Fault Refusal :=
  .next (runCommand cmdTxnBegin c q s)

/-- Close an open transaction: its staged commands and reserved handles go (R454, R459). -/
def rollBack (h : Nat) (s : State) : State := unreserve h (putTxn (h % 8) none s)

/-- Own meaning of TXN.ROLLBACK. -/
def actTxnRollback : Act := fun _ q s =>
  match txnSlot s (wd q 0) with
  | none => fail stTxnUnknown s
  | some (_, x) => if x.phase ≠ 0 then fail stNotPermitted s else done (toTwin (.rolledBack (wd q 0)) (rollBack (wd q 0) s))

def cmdTxnRollback : Cmd := { op := 0x0203, need := fun _ => 1, act := actTxnRollback }

/-- TXN.ROLLBACK (R459). -/
def execTxnRollback (c : Call) (q : List Word) (s : State) : Host.Outcome State Fault Refusal :=
  .next (runCommand cmdTxnRollback c q s)

/-- Own meaning of TXN.STATUS. -/
def actTxnStatus : Act := fun _ q s =>
  match txnSlot s (wd q 0) with
  | none => fail stTxnUnknown s
  | some (_, x) => reply ([toWord x.phase, toWord x.count, toWord x.bytes] ++ toWords (if x.phase = 2 then x.c else 0) 2) s

def cmdTxnStatus : Cmd := { op := 0x0204, reading := true, need := fun _ => 1, act := actTxnStatus }

/-- TXN.STATUS. -/
def execTxnStatus (c : Call) (q : List Word) (s : State) : Host.Outcome State Fault Refusal :=
  .next (runCommand cmdTxnStatus c q s)

/-- Own meaning of TXN.LIST. -/
def actTxnList : Act := fun _ _ s =>
  reply ((List.range 8).map fun i => match txnAt s i with | some (h, _) => toWord h | none => 0#32) s

def cmdTxnList : Cmd := { op := 0x0205, reading := true, act := actTxnList }

/-- TXN.LIST. -/
def execTxnList (c : Call) (q : List Word) (s : State) : Host.Outcome State Fault Refusal :=
  .next (runCommand cmdTxnList c q s)

/-! ### Running staged operations -/

/-- The state as it will stand at boundary c, for checks that depend on the commit tide. -/
def atBoundary (c : Nat) (s : State) : State :=
  { s with tm := { s.tm with
    tide := c, tideStart := if c = s.tm.tide then s.tm.tideStart else c * tideU % tbWrap, sub := 0 } }

/-- Run staged operations in order: the state, or the first that fails with its index, opcode and status. -/
def replay (h mb : Nat) (pre : Bool) : Nat → List StagedOp → State → Except (Nat × Nat × Nat) State
  | _, [], s => .ok s
  | i, o :: r, s =>
    match stageCmd o.op with
    | none => .error (i, o.op, stBadOpcode)
    | some k =>
      let a := k.act ⟨.commit, mb, h, o.reserved, pre⟩ o.q s
      if a.status = stOk then replay h mb pre (i + 1) r a.st else .error (i, o.op, a.status)

/-- Run staged operations in order, passing over any that no longer applies (R457: nothing undoes a prepared commit). -/
def replayAll (h mb : Nat) (pre : Bool) (ops : List StagedOp) (s : State) : State :=
  ops.foldl (fun s o => match stageCmd o.op with
    | none => s
    | some k =>
      let a := k.act ⟨.commit, mb, h, o.reserved, pre⟩ o.q s
      if a.status = stOk then a.st else s) s

/-- The prepared transactions in order of commit tide, then of slot. -/
def preparedTxns (s : State) : List (Nat × Txn) :=
  ((txns s).filter fun e => e.2.phase == 2).mergeSort fun a b => decide (a.2.c ≤ b.2.c)

/-- The state as it would stand once every prepared commit has applied (R455 step 3). -/
def withPrepared (s : State) : State :=
  (preparedTxns s).foldl (fun s e => replayAll e.1 e.2.mb false e.2.ops (atBoundary (max s.tm.tide e.2.c) s)) s

/-! ### Conflicts (R458) -/

/-- The first staged operation of a transaction that names a conflicting object: its index and opcode. -/
def conflictOf (x : Txn) : Option (Nat × Nat) :=
  let bad := (x.objs.filter fun o => o.direct || !o.commits.isEmpty).map fun o => o.key
  if bad.isEmpty then none
  else (x.ops.zipIdx).findSome? fun (o, i) => match baseCmd o.op with
    | some k => if (k.objs o.q).any fun key => bad.contains key then some (i, o.op) else none
    | none => none

/-- A TXN.COMMIT of transaction h, which names these objects, is received: other transactions that have staged a command
on one of them meet a conflict. -/
def markCommit (h : Nat) (objs : List TxnObj) (s : State) : State :=
  let note (o : TxnObj) : TxnObj := if objs.any (fun p => p.key == o.key) then { o with commits := o.commits ++ [h] } else o
  let other (sl : TxnSlot) : TxnSlot := { sl with cur := sl.cur.map fun x => { x with objs := x.objs.map note } }
  { s with ecs := { s.ecs with slots := (s.ecs.slots.zipIdx).map fun (sl, i) => if txnHandle i sl.gen = h then sl else other sl } }

/-! ### Preparation (R455, R456, R162, R236) -/

/-- Opcodes of the staged commands that change an SLM item of Table 6-1 or a Dill entry's result words: interface records,
key profiles, lookup programs, next-hops, encapsulations, ECMP groups, Dill modifies, routes, the Sage action map and action
records (R162). -/
def versionOps : List Nat :=
  [0x0605, 0x0606, 0x0607, 0x0611, 0x0612, 0x0614, 0x0619, 0x061A, 0x0703, 0x0711, 0x0712, 0x0723, 0x0731, 0x0732, 0x0806]

/-- Old versions that a commit keeps. -/
def oldVersions (x : Txn) : Nat := (x.ops.filter fun o => versionOps.contains o.op).length

/-- What a preparation comes to: a failure with its status and response, or the transaction prepared. -/
inductive Prep where
  | failed (st : Nat) (resp : List Word) (s : State)
  | ready (x : Txn) (s : State)

/-- Statuses of a deferred check whose response names the staged operation (Table 16-8). -/
def opResponse (i op st : Nat) : List Word := if st = stTimePassed then [] else [toWord i, toWord op]

/-- The tables as a preparation leaves them, with the counters and events of area 0x07 that it made. -/
def takeTables (from_ s : State) : State :=
  let new := (from_.host.evQueue.drop s.host.evQueue.length).filter fun e => e.cls == 7
  let s := { s with tab := from_.tab, ctr := (s.ctr.filter fun e => e.1 / 1024 / 2 ^ 32 != 0x47) }
  let s := (from_.ctr.filter fun e => e.1 / 1024 / 2 ^ 32 == 0x47).foldl (fun s e => { s with ctr := tset s.ctr e.1 e.2 }) s
  new.foldl (fun s e => raise e.cls e.code e.unit e.payload s) s

/-- The twin's profile, while the units of a pair run different ones (R481). -/
def otherProfile (s : State) : Option Nat :=
  if s.twin.st = 1 ∧ (s.twin.peer = 2 ∨ s.twin.peer = 3) ∧ s.twin.peerProfile ≠ s.fwd.profile then some s.twin.peerProfile else none

/-- Admission under both profiles of a pair whose units run different ones (R481). -/
def admBoth (s : State) : Verdict :=
  match admJudge s, otherProfile s with
  | .ok p bounds n, some f => match admJudge { s with fwd := { s.fwd with profile := f } } with
    | .ok p' _ _ => .ok (max p p') bounds n
    | v => v
  | v, _ => v

/-- Whether the tables fit the twin's profile as well (R481). -/
def fitsBoth (s : State) : Bool :=
  match otherProfile s with
  | some f => tablesFit f s
  | none => true

/-- Admission over the staged changes of a transaction and every prepared commit: what it answers, none where R295 asks for
no run. -/
def admitTxn (h c : Nat) (x : Txn) (s : State) : Option Verdict :=
  let old := withPrepared s
  let new := replayAll h x.mb false x.ops (atBoundary (max old.tm.tide c) old)
  if admNeeded old new then some (admBoth new) else none

/-- The first staged gate list of a transaction that R293 refuses at commit tide c, beside the prepared commits: its index, opcode
and status. -/
def gateLate (c : Nat) (x : Txn) (s : State) : Option (Nat × Nat × Nat) :=
  let s := atBoundary c (withPrepared s)
  (x.ops.zipIdx).findSome? fun (o, i) =>
    if o.op = 0x0B20 ∨ o.op = 0x0B21 then
      (gateRefuses s (hIdx (wd o.q 0)) s.tm.tideStart (if o.op = 0x0B20 then gateIn o.q else gateClearList)).map fun st => (i, o.op, st)
    else none

/-- Prepare the transaction of slot i for commit tide c (R455). -/
def prepare (i c : Nat) (s : State) : Prep :=
  match txnAt s i with
  | none => .failed stTxnUnknown [] s
  | some (h, x) =>
    match replay h x.mb true 0 x.ops (atBoundary c s) with
    | .error (j, op, st) => .failed st (opResponse j op st) s
    | .ok pre =>
      match gateLate c x s with
      | some (j, op, st) => .failed st (opResponse j op st) s
      | none => match conflictOf x with
      | some (j, op) => .failed stTxnConflict (opResponse j op stTxnConflict) s
      | none =>
        let olds := oldVersions x
        if 1048576 < (preparedTxns s).foldl (fun n e => n + e.2.olds) olds ∨ !fitsBoth pre then .failed stResourceShort [] s
        else match admitTxn h c x s with
          | none => .ready { x with c := c, olds := olds } (takeTables pre s)
          | some (.no st block) => .failed st block (admCount true s)
          | some (.ok p bounds n) =>
            match partRaise p (admCount false s) with
            | (l, 0, s) => .ready { x with c := c, olds := olds, part := some p, bounds := bounds, moved := l } (takeTables pre s)
            | (_, short, _) => .failed stResourceShort (shortBlock p short n) (partShort c short (admCount false s))

/-- Complete the TXN.COMMIT that waits for a transaction, where this unit runs one. -/
def completeCommit (mb st : Nat) (resp : List Word) (s : State) : State :=
  match (s.ecs.mbs.getD mb {}).acc with
  | some a => if a.op = 0x0202 then complete mb a.tag st resp s else s
  | none => s

/-- A commit fails: what it pre-applied goes, the cells moved for it return, the transaction stays open and unchanged, and
TXN.COMMIT completes (R457, R236). -/
def failCommit (i st : Nat) (resp : List Word) (s : State) : State :=
  match txnAt s i with
  | none => s
  | some (_, x) => completeCommit x.mb st resp (unprepare i s)

/-- The transaction is prepared and its TXN.COMMIT completes with OK (R457). -/
def commitPrepared (i : Nat) (s : State) : State :=
  match txnAt s i with
  | none => s
  | some (_, x) =>
    completeCommit x.mb stOk (toWords x.c 2 ++ [toWord x.count]) (modTxn i (fun x => { x with phase := 2, own := none, twin := none }) s)

/-- Whether the pair's other unit takes part in a commit (R392). -/
def commitPaired (s : State) : Bool :=
  (decide (s.twin.st = 1) && s.twin.hawser && (s.twin.peer == 2 || s.twin.peer == 3))
    || ((decide (s.twin.st = 2) || decide (s.twin.st = 3)) && s.twin.hawser)

/-- Settle a commit of a pair once both verdicts are known (R392): both accept, or nothing is applied, and where they differ
VERDICT_DIFF is raised. -/
def settleCommit (i : Nat) (s : State) : State :=
  match txnAt s i with
  | none => s
  | some (h, x) => match x.own, x.twin with
    | some (a, ra), some (b, rb) =>
      if a = stOk ∧ b = stOk then commitPrepared i s
      else
        let s := if (a = stOk) ≠ (b = stOk) then twinRaise 0xC (pay [(h, 4)]) s else s
        if a = stOk then failCommit i b rb s else failCommit i a ra s
    | _, _ => s

/-- This unit's verdict on a commit: alone it is the outcome; on a pair it goes to the twin, and the commit settles when
both are known (R392). -/
def ownVerdict (i st : Nat) (resp : List Word) (s : State) : State :=
  match txnAt s i with
  | none => s
  | some (h, _) =>
    if commitPaired s then
      settleCommit i (emit (.hawser (.config (.verdict h st resp))) (modTxn i (fun x => { x with own := some (st, resp) }) s))
    else if st = stOk then commitPrepared i s
    else failCommit i st resp s

/-- Preparation of slot i comes to its end (R455 to R457). -/
def finishPrep (i : Nat) (s : State) : State :=
  match txnAt s i with
  | none => s
  | some (_, x) =>
    let c := if x.named then x.c else s.tm.tide + 3
    match prepare i c s with
    | .failed st resp s => ownVerdict i st resp s
    | .ready y s => ownVerdict i stOk (toWords y.c 2 ++ [toWord y.count]) (modTxn i (fun _ => y) s)

/-- COMMIT_PREPARATION_DONE: a preparation is done; one that reaches boundary C - 2 is late (R456). -/
def execCommitPreparationDone (t slot : Nat) (s : State) : Host.Outcome State Fault Refusal :=
  let s := s.atTime t
  match txnAt s slot with
  | none => .next s
  | some (_, x) =>
    if x.phase ≠ 1 ∨ x.own.isSome then .next s
    else if x.named ∧ x.c ≤ s.tm.tide + 2 then .next (ownVerdict slot stTimePassed [] s)
    else .next (finishPrep slot s)

/-- COMMIT_TIME_PASSED: boundary C - 2 finds a preparation incomplete (R456). -/
def execCommitTimePassed (t slot : Nat) (s : State) : Host.Outcome State Fault Refusal :=
  let s := s.atTime t
  match txnAt s slot with
  | none => .next s
  | some (_, x) =>
    if x.phase = 1 ∧ x.own.isNone ∧ x.named ∧ x.c ≤ s.tm.tide + 2 then .next (ownVerdict slot stTimePassed [] s) else .next s

/-- PARTITION_SHORT: within 1 ms of its start a preparation has not moved all the cells that P needs (R236); nothing
happens where the cells are there. -/
def execPartitionShort (t slot : Nat) (s : State) : Host.Outcome State Fault Refusal :=
  let s := s.atTime t
  match txnAt s slot with
  | none => .next s
  | some (h, x) =>
    if x.phase ≠ 1 ∨ x.own.isSome then .next s
    else
      let c := if x.named then x.c else s.tm.tide + 3
      match admitTxn h c x s with
      | some (.ok p _ n) =>
        match partRaise p s with
        | (_, 0, _) => .next s
        | (_, short, _) => .next (ownVerdict slot stResourceShort (shortBlock p short n) (partShort c short (admCount false s)))
      | _ => .next s

/-! ### TXN.COMMIT (R455, R456) -/

/-- The spreading moves of a transaction's staged Sage inserts, each on the tables as those before it leave them (R182,
Table 16-6). -/
def spreadMoves (h : Nat) (x : Txn) (s : State) : Nat :=
  (x.ops.foldl (fun (p : Nat × State) o => match stageCmd o.op with
    | none => p
    | some k =>
      let a := k.act ⟨.commit, x.mb, h, o.reserved, true⟩ o.q p.2
      (p.1 + (if o.op = 0x0722 then wd a.resp 3 else 0), a.st)) (0, s)).1

/-- The bound of Table 16-6 for a transaction, ns. -/
def prepBound (h : Nat) (x : Txn) (s : State) : Nat :=
  let num (ops : List Nat) : Nat := (x.ops.filter fun o => ops.contains o.op).length
  let adm := admitTxn h (s.tm.tide + 3) x s
  let grows := match adm with
    | some (.ok p _ _) => decide (s.td.die.p < p)
    | _ => false
  1000000 + 100 * x.count + 150 * num [0x0710, 0x0711, 0x0712] + 5000 * num [0x0722, 0x0724] + 20 * spreadMoves h x s
    + (if adm.isSome then 40000000 else 0) + if grows then 1000000 else 0

/-- Whether a transaction stages a gate list, so that C is fixed at the start (R456). -/
def stagesGates (x : Txn) : Bool := x.ops.any fun o => o.op == 0x0B20 || o.op == 0x0B21

/-- TXN.COMMIT begins: what it completes with at once, or the state with the transaction preparing (R456). -/
def beginCommit (mb : Nat) (q : List Word) (s : State) : Nat ⊕ State :=
  match txnSlot s (wd q 0) with
  | none => .inl stTxnUnknown
  | some (i, x) =>
    let c := wd64 q 2
    let named := flag q 1 0
    if x.phase ≠ 0 then .inl stNotPermitted
    else if named ∧ c ≤ s.tm.tide + 2 then .inl stTimePassed
    else
      let h := wd q 0
      let fixed := if named then c else if stagesGates x then s.tm.tide + ceilDiv (prepBound h x s) 125000 + 3 else 0
      let s := markCommit h x.objs (putTxn i (some { x with phase := 1, c := fixed, named := named || stagesGates x, mb := mb }) s)
      .inr (toTwin (.commit h fixed) s)

/-- TXN.COMMIT is listed in the catalogue for the checks of R446; what it does is beginCommit. -/
def cmdTxnCommit : Cmd := { op := 0x0202, need := fun q => if flag q 1 0 then 4 else 2, act := fun _ _ s => fail stTxnUnknown s }

/-- Run a TXN.COMMIT whose mailbox the K12 owns: the mailbox stays owned until the commit is prepared or has failed. -/
def runCommit (c : Call) (q : List Word) (s : State) : State :=
  if !served cmdTxnCommit s then s
  else match beginCommit c.mb q s with
    | .inl st => complete c.mb c.tag st [] s
    | .inr s => s

/-- Whether the commit that a mailbox's command asked for is preparing. -/
def commitRuns (mb : Nat) (s : State) : Bool := (txns s).any fun e => e.2.phase == 1 && e.2.mb == mb

/-- TXN.COMMIT as a row: the whole exchange of R439 where the host owns the mailbox, or the start of the accepted command. -/
def runTxnCommit (c : Call) (q : List Word) (s : State) : State :=
  let s := s.atTime c.t
  match s.ecs.mbs[c.mb]? with
  | none => s
  | some b =>
    if b.owned then
      if b.acc = some ⟨0x0202, c.tag, c.txn, q⟩ ∧ !commitRuns c.mb s then runCommit c q s else s
    else if !served cmdTxnCommit s then s
    else
      let s := indirectError c (takeMb cmdTxnCommit c q s)
      match refuse cmdTxnCommit c q s with
      | some st => complete c.mb c.tag st [] s
      | none => runCommit c q s

/-- TXN.COMMIT (R455, R456). -/
def execTxnCommit (c : Call) (q : List Word) (s : State) : Host.Outcome State Fault Refusal :=
  .next (runTxnCommit c q s)

/-! ### Commits at a tide boundary (R154, R457) -/

/-- The epoch flips: the old versions of what the segments read stay until the old epoch retires (R154 to R156). -/
def flipEpoch (s : State) : State :=
  let s := if s.fwd.oldIn.isSome then retireIn s else s
  let s := if s.fwd.oldEg.isSome then retireEg s else s
  let s := modFwd (fun w => { w with epoch := !w.epoch, oldIn := some w.cfg, oldEg := some w.cfg }) s
  { s with
    det := { s.det with oldStreams := some s.det.streams }
    fab := { s.fab with oldSysp := some s.fab.sysp }
    td := { s.td with
      oldSets := some s.td.sets
      oldQ := some ((s.td.queues.filter fun e => decide (e.1 < s.td.v)).map fun e => (e.1, e.2.cfg), s.td.wred) } }

/-- Apply a prepared transaction at its boundary (R457): the tables show what was pre-applied, every other staged command
takes effect, and TXN_APPLIED is raised. -/
def applyTxn (h : Nat) (x : Txn) (s : State) : State :=
  let s := replayAll h x.mb false x.ops (tablesApply h s)
  let s := unreserve h (putTxn (h % 8) none s)
  let s := putBounds x.bounds s
  let s := if x.ops.any fun o => o.op == 0x0603 then raise 6 6 mpcUnit (pay [(x.c, 6)]) s else s
  raise 2 1 mpcUnit (pay [(h, 4), (x.c, 8), (x.count, 4)]) { s with twin := { s.twin with lastCommit := x.c } }

/-- The commits of a boundary (R457): those that name it apply together under one flip. -/
def commitBoundary (s : State) : State :=
  let due := (txns s).filter fun e => e.2.phase == 2 && decide (e.2.c ≤ s.tm.tide)
  if due.isEmpty then s else due.foldl (fun s e => applyTxn e.1 e.2 s) (flipEpoch s)

/-- P after a boundary: the shares of the streams in force and awaited; the partition keeps the cells moved for commits that
are prepared or await a verdict of the pair (R235, R236). -/
def partBoundary (s : State) : State :=
  let p := partitionOf (admIn s)
  partSet p ((txns s).foldl (fun n e => max n (e.2.part.getD 0)) p) s

/-! ### DET.CHECK and DET.EXPORT (R303, R304) -/

/-- The state that a transaction, or none, would leave beside the prepared commits. -/
def asCommitted (h : Nat) (s : State) : Option State :=
  let base := withPrepared s
  if h = 0 then some base
  else (txnSlot s h).map fun (_, x) => if x.phase = 2 then base else replayAll h 32 false x.ops (atBoundary (max base.tm.tide (s.tm.tide + 3)) base)

/-- Own meaning of DET.CHECK: admission that changes nothing but its counters (Table 10-11). -/
def actDetCheck : Act := fun _ q s =>
  match asCommitted (hwd q 0) s with
  | none => fail stTxnUnknown s
  | some n => match admJudge n with
    | .no st block => ⟨st, block, admCount true s, 0⟩
    | .ok _ _ k => reply (breakdown 0 0 0 0 0 0 0 0 k) (admCount false s)

def cmdDetCheck : Cmd := { op := 0x0B30, reading := true, need := fun _ => 1, act := actDetCheck }

/-- DET.CHECK (R303). -/
def execDetCheck (c : Call) (q : List Word) (s : State) : Host.Outcome State Fault Refusal :=
  .next (runCommand cmdDetCheck c q s)

/-- Own meaning of DET.EXPORT: the admission input goes to host memory. The spec gives neither the layout nor the length of
the export: both are free values. -/
def actDetExport : Act := fun _ q s =>
  match asCommitted (hwd q 3) s with
  | none => fail stTxnUnknown s
  | some _ =>
    let n := freeVal s % 2 ^ 32
    if wd q 2 < n then fail stBadLength s.took
    else
      let (bs, s') := freeBytes n s.took
      reply [toWord n, 0x0003#32] (hostWrite (wd64 q 0) bs s')

def cmdDetExport : Cmd := { op := 0x0B31, reading := true, need := fun _ => 4, act := actDetExport }

/-- DET.EXPORT (R304). -/
def execDetExport (c : Call) (q : List Word) (s : State) : Host.Outcome State Fault Refusal :=
  .next (runCommand cmdDetExport c q s)

/-! ### The whole catalogue and the doorbell (R439 to R441, R446, R460) -/

/-- Every command of revision B0. -/
def catalog : List Cmd :=
  [cmdTxnBegin, cmdTxnCommit, cmdTxnRollback, cmdTxnStatus, cmdTxnList, cmdDetCheck, cmdDetExport] ++ baseCatalog

/-- Accept the doorbell of mailbox m: the envelope and the request block are read once; a command that the checks of R446
refuse completes at once, and any other runs when its own row comes. -/
def acceptMb (m : Nat) (failed : Option Nat) (s : State) : State :=
  let env := mreadWords s.ecs.mem (m * 4096) 5
  let op := fld env 0 15 0
  let n := fld env 1 14 0
  let ind := flag env 0 16
  let src : Source := if !ind then .mailbox else match failed with
    | some a => .indirectFailed a
    | none => .indirect (wd64 env 3)
  let q := if !ind then mreadWords s.ecs.mem (m * 4096 + 32) (min n 1017)
    else if failed.isSome then [] else mreadWords s.host.mem (wd64 env 3) n
  let c : Call := { t := s.tm.sub, mb := m, tag := fld env 1 31 16, txn := wd env 2, src := src }
  let s := indirectError c (acceptCmd m ⟨op, c.tag, c.txn, q⟩ s)
  if s.id.fwState = 2 then complete m c.tag stBusy [] s
  else match catalog.find? fun k => k.op == op with
    | none => complete m c.tag stBadOpcode [] s
    | some k => match refuse k c q s with
      | some st => complete m c.tag st [] s
      | none => s

/-- A write to MB_DOORBELL: each mailbox it names is accepted or refused, in ascending number (R440); while nothing
serves commands none is accepted. -/
def doorbell (v : Nat) (failed : Tab Nat) (s : State) : State :=
  if s.id.fwState = 0 ∨ (s.flt.mpcFailed ∧ s.flt.pilotDead) then s
  else (List.range 32).foldl (fun s m =>
    if !bit v m then s
    else if (s.ecs.mbs.getD m {}).owned || bit s.host.mbDone.toNat m then mbRefuse m 1 s
    else acceptMb m (tget failed m) s) s

/-- MB_DOORBELL: a write of v to the doorbell. `fed` is what the host has put in its memory; `failed` names mailboxes whose
indirect read fails, with the address (R439 to R441). -/
def execMbDoorbell (t v : Nat) (fed : List (Nat × List Byte)) (failed : List (Nat × Nat)) (s : State) : Host.Outcome State Fault Refusal :=
  .next (doorbell v failed (hostFed fed (s.atTime t)))

end Sys2Proof.Machine
end

