-- ==== Sys2Proof/Machine/Host.lean ====
section
/-! DEFINITION. Register accesses, resets and ring events of the host attachment (spec/15_host_pcie.md). -/

namespace Sys2Proof.Machine

open Sys2Proof

/-! ### Register accesses (R5, R420, Tables 15-3 and 15-4) -/

/-- MB_DONE: a write of v to it (R439). -/
def execMbDone (t v : Nat) (s : State) : Host.Outcome State Fault Refusal := .next (mbDoneWrite v (s.atTime t))

/-- EVR_CTRL: a write of v to it (R423). -/
def execEvrCtrl (t v : Nat) (s : State) : Host.Outcome State Fault Refusal := .next (evrCtrlWrite v (s.atTime t))

/-- EVR_CONSUMER: a write of v to it (R424). -/
def execEvrConsumer (t v : Nat) (s : State) : Host.Outcome State Fault Refusal := .next (evrConsumerWrite v (s.atTime t))

/-- EVR_LOST: a read of it, which clears it (R5). -/
def execEvrLost (t : Nat) (s : State) : Host.Outcome State Fault Refusal := .next (evrLostRead (s.atTime t))

/-- TSR_CONSUMER: a write of v to it (R346). -/
def execTsrConsumer (t v : Nat) (s : State) : Host.Outcome State Fault Refusal := .next (tsrConsumerWrite v (s.atTime t))

/-- RING_CTRL: a write of v to the CTRL of receive or transmit ring `ring` (R423). -/
def execRingCtrl (t : Nat) (tx : Bool) (ring v : Nat) (s : State) : Host.Outcome State Fault Refusal :=
  .next (ringCtrlWrite tx ring v (s.atTime t))

/-- RX_TAIL: a write of v to the TAIL of a receive ring (R428). -/
def execRxTail (t ring v : Nat) (s : State) : Host.Outcome State Fault Refusal := .next (tailWrite false ring v (s.atTime t))

/-- TX_TAIL: a write of v to the TAIL of a transmit ring (R432). -/
def execTxTail (t ring v : Nat) (s : State) : Host.Outcome State Fault Refusal := .next (tailWrite true ring v (s.atTime t))

/-- A write to a PF0 register (Table 15-3); an unlisted offset is a reserved range (R420). -/
def pf0Write (o v : Nat) (s : State) : State :=
  let h := s.host
  if 0x10000 ≤ o ∧ o < 0x30000 then mbHostWrite (o - 0x10000) v s
  else match o with
    | 0x20 => modHost (fun h => { h with scratch := toWord v }) s
    | 0x100 => doorbell v [] s
    | 0x104 => mbDoneWrite v s
    | 0x200 => let a := addrWrite h.evrEnable false 5 h.evrBase v; lockViols a.2 (modHost (fun h => { h with evrBase := a.1 }) s)
    | 0x204 => let a := addrWrite h.evrEnable true 5 h.evrBase v; lockViols a.2 (modHost (fun h => { h with evrBase := a.1 }) s)
    | 0x208 => evrCtrlWrite v s
    | 0x210 => evrConsumerWrite v s
    | 0x214 => let m := modWrite h.evrMod v; lockViols m.2 (modHost (fun h => { h with evrMod := m.1 }) s)
    | 0x304 => tsrConsumerWrite v s
    | 0x308 => let m := modWrite h.tsrMod v; lockViols m.2 (modHost (fun h => { h with tsrMod := m.1 }) s)
    | _ => if pf0Listed.contains o then s else pioCount 3 1 s

/-- A write to a PF1 register (Table 15-4, R420). -/
def pf1Write (o v : Nat) (s : State) : State :=
  if 0x8000 ≤ o then pioCount 3 1 s
  else ringWrite (decide (0x4000 ≤ o)) (o % 0x4000 / 0x100) (o % 0x100) v s

/-- REGISTER_WRITE: a write of 4 bytes to a BAR at an offset (R5, R420); beyond the BAR it does not reach the K12. -/
def execRegisterWrite (t : Nat) (bar : Bar) (off v : Nat) (s : State) : Host.Outcome State Fault Refusal :=
  let s := s.atTime t
  let o := off / 4 * 4
  let v := v % 2 ^ 32
  .next (match bar with
    | .pf0Regs => if 0x40000 ≤ o then s else pf0Write o v s
    | .pf1Regs => if 0x10000 ≤ o then s else pf1Write o v s
    | .pf0Msix => if 0x1000 ≤ o then s else msixWrite 0 o v s
    | .pf1Msix => if 0x1000 ≤ o then s else msixWrite 1 o v s
    | .pf2Priv => if 2 ^ 31 ≤ o then s else pioCount 3 1 s
    | .pf2User => if 2 ^ 31 ≤ o then s else pioCount 3 1 s)

/-- PF2_USER_READ: a read of n bytes at an offset of the user aperture, judged page by page; the bytes go to the host as
words (R434, R435). -/
def execPf2UserRead (t off n : Nat) (s : State) : Host.Outcome State Fault Refusal :=
  let s := s.atTime t
  let n := min n 4096
  let a := off % 2 ^ 31
  let (bs, denied) := userRead s 3 a n
  let s := if denied = 0 then s else pioCount 2 denied s
  .next (modHost (fun h => { h with answer := packWords (bs ++ List.replicate ((4 - bs.length % 4) % 4) 0#8) }) s)

/-- PCIE_CONFIG_REQUEST: a configuration read, or a write of a word, at an offset of a function's configuration space
(R418): retry status until firmware ready; then a read returns what was last written, or what the K12 holds there. -/
def execPcieConfigRequest (t fn off : Nat) (write : Option Nat) (s : State) : Host.Outcome State Fault Refusal :=
  let s := s.atTime t
  let key := fn % 3 * 4096 + off % 4096 / 4 * 4
  .next (if s.id.fwState = 0 then emit (.configRetry fn off) s
    else match write with
      | some v => modHost (fun h => { h with cfg := tset h.cfg key (toWord v), answer := [] }) s
      | none => modHost (fun h => { h with answer := [tgetD h.cfg key (toWord (Config.pcieConfig key))] }) s)

/-! ### Resets and the link (R417 to R419) -/

/-- PERST_N_ASSERT: every function and the link status are reset; forwarding and every ECS object are not (R31, R419). -/
def execPerstNAssert (t : Nat) (s : State) : Host.Outcome State Fault Refusal :=
  .next (modHost (fun h => { h with linkStatus := 0#32 }) (functionReset 2 (functionReset 1 (functionReset 0 (s.atTime t)))))

/-- FUNCTION_LEVEL_RESET of function fn (R419). -/
def execFunctionLevelReset (t fn : Nat) (s : State) : Host.Outcome State Fault Refusal :=
  let s := s.atTime t
  .next (if 3 ≤ fn then s else functionReset fn s)

/-- LINK_STATUS takes a value; LINK_CHANGE is raised at a change (R418, R437). -/
def pcieLink (v : Word) (s : State) : State :=
  if v = s.host.linkStatus then s
  else raise 0x15 3 (mainUnit 5) (pay [(v.toNat, 4)]) (modHost (fun h => { h with linkStatus := v }) s)

/-- PCIE_LINK_CHANGE: the link trains or changes: rate code (0 down), width and FLIT mode; LINK_CHANGE is raised at a change
(R418, R437). -/
def execPcieLinkChange (t rate width : Nat) (flit : Bool) (s : State) : Host.Outcome State Fault Refusal :=
  .next (pcieLink (toWord (rate % 8 + width % 32 * 16 + b2n flit * 512)) (s.atTime t))

/-! ### Rings (R424 to R433) -/

/-- RX_FRAME_DELIVERY: the oldest frame of a receive ring's FIFO goes to its buffers; `fed` is what the host has put in its
memory (R428, R429). -/
def execRxFrameDelivery (t ring : Nat) (fed : List (Nat × List Byte)) (s : State) : Host.Outcome State Fault Refusal :=
  let s := hostFed fed (s.atTime t)
  .next (if 64 ≤ ring then s else rxDeliver ring s)

/-- TX_RING_FRAME: the transmit ring whose turn it is gives a frame; `fed` is what the host has put in its memory (R430 to
R432). -/
def execTxRingFrame (t : Nat) (fed : List (Nat × List Byte)) (s : State) : Host.Outcome State Fault Refusal :=
  .next (txServe (hostFed fed (s.atTime t)))

/-- DMA_ERROR: a DMA request of a source failed at an address: 0 the event ring, 1 the timestamp ring, 2 + r receive ring r,
66 + r transmit ring r (R433). -/
def execDmaError (t src addr : Nat) (s : State) : Host.Outcome State Fault Refusal := .next (dmaFail src addr (s.atTime t))

/-- EVENT_RECORD_WRITE: the oldest waiting event goes to the event ring while it is enabled and not full; after discards
EVENTS_LOST goes first (R424, R425). -/
def execEventRecordWrite (t : Nat) (s : State) : Host.Outcome State Fault Refusal :=
  let s := s.atTime t
  .next (if !s.host.evrEnable || evrFull s then s
    else if 0 < s.host.evDiscarded then
      eventWrite ⟨0x15, 1, mainUnit 10, s.tm.tide, pay [(s.host.evDiscarded, 4)]⟩ (modHost (fun h => { h with evDiscarded := 0 }) s)
    else match s.host.evQueue with
      | [] => s
      | e :: r => eventWrite e (modHost (fun h => { h with evQueue := r }) s))

/-- MSIX_MODERATION_TIMEOUT: U has passed since the oldest unsignalled record of a source, named as for DMA_ERROR
(R421). -/
def execMsixModerationTimeout (t src : Nat) (s : State) : Host.Outcome State Fault Refusal := .next (moderate src (s.atTime t))

end Sys2Proof.Machine
end

