-- ==== Sys2Proof/Machine/Twin.lean ====
section
/-! DEFINITION. Events of the twin pair (spec/14_twin_redundancy.md): hawser link and records, checkpoints, commits of a
pair, manifests, detectors, takeovers, switchovers and joining. -/

namespace Sys2Proof.Machine

open Sys2Proof

/-! ### Records that wait for their step -/

/-- The oldest waiting record of a kind, taken from the others. -/
def rxTake (kind : TwinRec → Bool) (s : State) : Option TwinRec × State :=
  match s.twin.rx.find? kind with
  | some r => (some r, modTwin (fun x => { x with rx := x.rx.erase r }) s)
  | none => (none, s)

/-- Whether the unit is a standby whose records act at once: WARM, or SYNCING after the bulk copy (Table 14-4, R414). -/
def standbyApplies (s : State) : Bool := s.twin.st == 2 || (s.twin.st == 3 && s.twin.join != 1)

/-- Run one operation that the active's record carries: a create takes the handle it has on the active. An operation that the
active does not carry (R392) changes nothing. -/
def replayOne (op : Nat) (q : List Word) (h : Nat) (s : State) : State :=
  match twinCmd op with
  | none => s
  | some k =>
    let r := k.act ⟨if h = 0 then .direct else .commit, 32, 0, h, false⟩ q s
    if r.status = stOk ∨ r.status = stAccepted then r.st else s

/-- An upgrade command that the active sends to its twin, as the twin's own (R472, R473, R478, R480). -/
def twinUpgrade (op : Nat) (q : List Word) (s : State) : State :=
  let unflag (i b : Nat) : List Word := q.set i (toWord (wd q i - b2n (flag q i b) * 2 ^ b))
  match op with
  | 0x1401 => (actUpgradeLoad ⟨.direct, 32, 0, 0, false⟩ (unflag 3 0) s).st
  | 0x1402 => (actUpgradeActivate ⟨.direct, 32, 0, 0, false⟩ (unflag 0 1) s).st
  | 0x1403 => (actUpgradeConfirm ⟨.direct, 32, 0, 0, false⟩ (unflag 0 0) s).st
  | 0x1405 => if s.twin.st = 2 then startConvert (fld q 0 1 0) s else s
  | _ => s

/-- The unit becomes ACTIVE: it takes tide source OWN, and dequeues its VOQs against the credit it holds
(R349, R387, R406). -/
def becomeActive (s : State) : State :=
  let s := modTwin (fun x => { x with
    takeAt := 0, detector := 0, cold := false, switch := none, join := 0, rotate := 0, contest := none, undecided := false
    rx := [], hist := [], completed := [], sent := [], learned := [] }) { s with tm := { s.tm with source := 0 } }
  let s := setTwinFree 1 s
  ((s.td.queues.filter fun e => decide (e.1 < s.td.v)).map Prod.fst).foldl (fun s q => serveVoq q s) s

/-- A standby that holds the release record and has applied the checkpoint of tide N - 1 raises KILL_OUT (R409). -/
def switchReady (s : State) : State :=
  match s.twin.switch with
  | some w =>
    if w.released ∧ s.twin.st = 2 ∧ !s.twin.killOut ∧ s.twin.lastCk + 1 = w.n then
      abortSounding (modTwin (fun x => { x with killOut := !scanning s, inFirst := x.killIn }) s)
    else s
  | none => s

/-! ### The hawser link (R383, R410, R411, R414) -/

/-- HAWSER_LINK_STATE: the link is up, or a lane or the records have failed, with lane and cause (R383). -/
def execHawserLinkState (t : Nat) (up : Bool) (lane cause : Nat) (s : State) : Host.Outcome State Fault Refusal :=
  let s := s.atTime t
  if !s.id.twinEn ∨ s.twin.hawser = up ∨ (up ∧ domOut s 79) then .next s
  else
    let s := modTwin (fun x => { x with hawser := up }) s
    if up then
      let s := sendHealth (twinRaise 2 [] s)
      .next (if s.twin.st = 3 ∧ s.twin.join = 1 then startCopy s else s)
    else .next (linkDown (twinRaise 3 (pay [(lane, 1), (cause, 1)]) (modTwin (fun x => { x with query := 0 }) s)))

/-! ### Records (R384) -/

/-- A health answer of the twin (Table 14-9, R412 to R414). -/
def takeHealth (st mode version compat profile : Nat) (s : State) : State :=
  let x := s.twin
  let was := x.peer
  let same := x.peer == st && x.peerD == (mode == 1) && s.boot.twinVersion == version && x.peerProfile == profile
  let asked := decide (x.query ≠ 0)
  let s := modTwin (fun x => { x with
    peer := st, peerD := mode == 1, peerProfile := profile, query := 0, mismatch := x.mismatch && same })
    { s with boot := { s.boot with twinVersion := version, twinCompat := compat } }
  let line := Config.mooringLine (1 - s.id.devid % 2) % 256
  let s := if asked && s.twin.hbLost then twinRaise 0xB (pay [(line, 1)]) s else s
  -- The next checkpoint carries every class A item to a unit that begins to join (R414).
  let s := if s.twin.st = 1 ∧ st = 3 ∧ was ≠ 3 then emit .bulkCopy (modTwin (fun x => { x with sent := [] }) s) else s
  let s := if s.twin.st = 1 ∧ st = 2 ∧ s.boot.convert then { s with boot := { s.boot with convert := false } } else s
  match s.twin.switch with
  | some w =>
    if w.released ∧ s.twin.st = 2 ∧ !s.twin.killOut ∧ st = 1 ∧ w.n < s.tm.tide then
      let s := modTwin (fun x => { x with switch := none }) s
      if profile = s.fwd.profile then s else startConvert profile s
    else s
  | none => s

/-- The active learns how the standby's comparison of a tide came out, and corrects its evidence (R402, R404). -/
def takeCompared (n : Nat) (ports : List Nat) (s : State) : State :=
  if s.twin.st ≠ 1 then s
  else
    let s := modTwin (fun x => { x with lastMf := n }) s
    let s := emit (.hawser (.control (.evidence n (suspectFor s n)))) s
    if ports.isEmpty then s else decide_ n s

/-- The twin corrects its evidence for a tide; a decision that has not been made yet is made again (R404). -/
def takeEvidence (n : Nat) (suspect : Bool) (s : State) : State :=
  let s := modTwin (fun x => { x with susp := if suspect then n :: (x.susp.filter (· != n)).take 63 else x.susp.filter (· != n) }) s
  match s.twin.contest with
  | some c => if c.tide = n ∧ c.own.isNone then decide_ n (modTwin (fun x => { x with contest := none }) s) else s
  | none => s

/-- A control record (Table 14-2). -/
def takeControl (c : TwinControl) (s : State) : State :=
  match c with
  | .query => if s.flt.mpcFailed || s.flt.pilotDead then s else sendHealth s
  | .health st mode version compat profile => takeHealth st mode version compat profile s
  | .release n => if s.twin.st = 2 then switchReady (modTwin (fun x => { x with switch := some ⟨n, true⟩ }) s) else s
  | .evidence n suspect => takeEvidence n suspect s
  | .compared n ports => takeCompared n ports s
  | .referee n pass => match s.twin.contest with
    | some d => if d.tide = n then settleContest (modTwin (fun x => { x with contest := some { d with twin := some pass } }) s) else s
    | none => s
  | .lastBreath _ => modTwin (fun x => { x with rx := x.rx ++ [.control c] }) s

/-- A manifest of the twin is kept for 64 tides, with its evidence (R402, R404). -/
def takeManifest (w : List Word) (s : State) : State :=
  let n := wd64 w 0
  let s := modTwin (fun x => { x with twin := mfKeep x.twin n w }) s
  takeEvidence n (flag w 2 1) s

/-- A record whose header and bytes are good: some kinds act at once, the others wait for their own step. -/
def takeRecord (r : TwinRec) (len : Nat) (s : State) : State :=
  let wait (s : State) : State := modTwin (fun x => { x with rx := x.rx ++ [r] }) s
  match r with
  | .idle => s
  | .manifest w => takeManifest w s
  | .control c => takeControl c s
  | .bulk op q h =>
    let s := twinCount 15 len s
    if op = 0x1401 then twinUpgrade op q s else if s.twin.st = 3 ∧ s.twin.join = 1 then replayOne op q h s else s
  | .time _ => wait (modTwin (fun x => { x with timeArr := nowLin s }) s)
  | .config _ => wait s
  | .frame _ _ => if standbyApplies s then wait s else s
  | .sample _ _ => if standbyApplies s then wait s else s
  | .summary _ => if standbyApplies s then wait s else s
  | .checkpoint _ _ _ => if s.twin.st = 2 ∨ s.twin.st = 3 then wait s else s

/-- HAWSER_RECORD_RECEIVED: a record with its header; a failed CRC-8, a byte in an uncorrectable codeword or a type that is
not used discards it, and in D mode sets the device skip flag (R384, R400). -/
def execHawserRecordReceived (t header : Nat) (damaged : Bool) (record : TwinRec) (s : State) : Host.Outcome State Fault Refusal :=
  let s := s.atTime t
  if !s.id.twinEn ∨ !s.twin.hawser ∨ fenced s 79 then .next s
  else if damaged ∨ crc8 (bits header 31 8) 24 ≠ bits header 7 0 ∨ 0xA ≤ bits header 31 28 then
    let s := twinCount 7 1 s
    .next (if s.twin.dMode ∧ 2 ≤ s.twin.st then skipDevice s else s)
  else if bits header 31 28 ≠ record.ty then .next s
  else .next (takeRecord record (bits header 27 14) s)

/-- Packet of a replicated frame or sample with metadata `ws`, as a frame of its source port (R386, R397). -/
def takeReplica (sample : Bool) (ws : List Word) (bytes : List Byte) (s : State) : State :=
  let m := Meta.ofWords ws
  let x := s.twin.ports.getD m.port {}
  let low : Int := (x.rep : Int) - 4096
  let n := (low + (m.repSeq - low) % 8192).toNat % 2 ^ 48
  let fcs := leNat (fcsOf bytes)
  let y := { x with rep := (n + 1) % 2 ^ 48, frames := x.frames ++ [⟨n, nowLin s, fcs, none⟩] }
  let s := modTwin (fun t => { t with ports := t.ports.set m.port y }) s
  let k : Pkt := {
    bytes := bytes, seq := some n, fcs := fcs, rep := true, last := nowLin s, pre := !sample
    md := { port := m.port, isClient := m.isClient, client := m.client, len := m.len, arrival := m.arrival, rSeq := m.rSeq } }
  dealIn (m.port / 8) { k with prio := (classify s (sourceOf k) m.port bytes).1 } s

/-- DET_FRAME_RECORD: the standby takes the oldest replicated frame or sample (R386). -/
def execDetFrameRecord (t : Nat) (s : State) : Host.Outcome State Fault Refusal :=
  let s := s.atTime t
  match rxTake (fun r => r.ty == 1 || r.ty == 2) s with
  | (some (.frame ws bytes), s) => .next (twinCount 6 1 (if s.twin.dMode && forwards s then takeReplica false ws bytes s else s))
  | (some (.sample ws bytes), s) => .next (if s.twin.dMode && forwards s then takeReplica true ws bytes s else s)
  | _ => .next s

/-- CHECKPOINT_APPLY: the standby applies the oldest received checkpoint; while the bulk copy runs it is held, and a
STALE or COLD unit applies none (R396, R414). -/
def execCheckpointApply (t : Nat) (s : State) : Host.Outcome State Fault Refusal :=
  let s := s.atTime t
  if s.twin.st = 3 ∧ s.twin.join = 1 then .next s
  else match rxTake (fun r => r.ty == 5) s with
    | (some (.checkpoint n classB items), s) =>
      if !standbyApplies s then .next s
      else
        let s := items.foldl (fun s it => ckTake n it s) s
        .next (if classB then s else switchReady (modTwin (fun x => { x with lastCk := n }) s))
    | _ => .next s

/-! ### Commits of a pair (R392) -/

/-- Record a staged operation of the active (R392, R454). -/
def stageRecord (h op : Nat) (q : List Word) (new : Nat) (s : State) : State :=
  match txnSlot s h with
  | none => s
  | some (i, x) =>
    let s := reserve op q new h s
    match baseCmd op with
    | none => s
    | some k => putTxn i (some { x with
        ops := x.ops ++ [⟨op, q, new, k.refs q⟩], count := x.count + 1, bytes := x.bytes + 20 + 4 * q.length
        objs := addObjs x.objs (k.objs q) }) s

/-- Take a transaction slot with the handle it has on the active. -/
def openRecord (h : Nat) (s : State) : State :=
  { s with ecs := { s.ecs with slots := lmod s.ecs.slots (h % 8) fun _ => { gen := hIdx h / 8, used := true, cur := some { mb := 32 } } } }

/-- The twin's verdict on a commit; on a standby the active's acceptance carries C (R392, R457). -/
def takeVerdict (h st : Nat) (resp : List Word) (s : State) : State :=
  match txnSlot s h with
  | none => s
  | some (i, x) =>
    if x.phase ≠ 1 then s
    else
      let s := modTxn i (fun x => { x with
        twin := some (st, resp)
        c := if 2 ≤ s.twin.st ∧ st = stOk then wd64 resp 0 else x.c
        named := x.named || (decide (2 ≤ s.twin.st) && st == stOk) }) s
      settleCommit i s

/-- What a configuration record says. -/
def takeConfig (c : TwinConfig) (s : State) : State :=
  let standby := standbyApplies s
  match c with
  | .opened h => if standby then openRecord h s else s
  | .staged h op q new => if standby then stageRecord h op q new s else s
  | .rolledBack h => if standby then (match txnSlot s h with | some _ => rollBack h s | none => s) else s
  | .commit h c => if !standby then s else match txnSlot s h with
    | some (i, x) => markCommit h x.objs (putTxn i (some { x with phase := 1, c := c, named := c != 0, mb := 32 }) s)
    | none => s
  | .verdict h st resp => if standby || s.twin.st == 1 then takeVerdict h st resp s else s
  | .direct op q h =>
    if op = 0x0F07 then (if s.twin.undecided then faulty (fld q 0 0 0 == activeId s) 3 s else s)
    else if 0x1400 ≤ op then twinUpgrade op q s
    else if standby then replayOne op q h s else s

/-- CONFIGURATION_RECORD: the oldest configuration record acts; while the bulk copy runs it is held (R392, R414). -/
def execConfigurationRecord (t : Nat) (s : State) : Host.Outcome State Fault Refusal :=
  let s := s.atTime t
  if s.twin.st = 3 ∧ s.twin.join = 1 then .next s
  else match rxTake (fun r => r.ty == 6) s with
    | (some (.config c), s) => .next (takeConfig c s)
    | _ => .next s

/-- COMMIT_ACK_TIMEOUT: boundary C - 2 finds no verdict of the twin on the commit of a slot: the active applies it alone, and
the standby is STALE with cause commit missed (R392). -/
def execCommitAckTimeout (t slot : Nat) (s : State) : Host.Outcome State Fault Refusal :=
  let s := s.atTime t
  match txnAt s slot with
  | none => .next s
  | some (h, x) => match x.own, x.twin with
    | some (st, resp), none =>
      if x.phase ≠ 1 ∨ s.tm.tide + 2 < x.c then .next s
      else if s.twin.st = 1 then
        let s := goStale 2 s
        .next (if st = stOk then commitPrepared slot s else failCommit slot st resp s)
      else .next (goStale 2 (tablesUndo h (rollBack h s)))
    | _, _ => .next s

/-! ### Completion summaries (R403) -/

/-- Release n head packets of VOQ q, as many as there are: how many there were, and the state. -/
def trimHead (q : Nat) : Nat → State → Nat × State
  | 0, s => (0, s)
  | n + 1, s => match queueTake q s with
    | (none, s) => (0, s)
    | (some k, s) =>
      let (m, s) := trimHead q n (voqRelease q k s)
      (m + 1, s)

/-- Release head packets of VOQ q until it is not deeper than a depth in 64-byte units, with fuel. -/
def trimDeep (q depth : Nat) : Nat → State → State
  | 0, s => s
  | f + 1, s => match tget s.td.queues q with
    | none => s
    | some x =>
      if ceilDiv x.depth 64 ≤ depth then s
      else match queueTake q s with
        | (none, s) => s
        | (some k, s) => trimDeep q depth f (twinCount 10 1 (voqRelease q k s))

/-- The standby trims one VOQ. -/
def trimVoq (q n depth : Nat) (s : State) : State :=
  let (m, s) := trimHead q n s
  let s := twinCount 9 (n - m) (twinCount 8 m s)
  match tget s.td.queues q with
  | some x => trimDeep q depth x.pkts.length s
  | none => s

/-- COMPLETION_SUMMARY_TRIM: the standby trims its VOQs by the oldest completion summary (Table 14-7). -/
def execCompletionSummaryTrim (t : Nat) (s : State) : Host.Outcome State Fault Refusal :=
  let s := s.atTime t
  match rxTake (fun r => r.ty == 4) s with
  | (some (.summary w), s) =>
    if !standbyApplies s then .next s
    else .next ((List.range (wd w 2)).foldl (fun s i => trimVoq (fld w (3 + 3 * i) 19 0) (wd w (4 + 3 * i)) (wd w (5 + 3 * i)) s) s)
  | _ => .next s

/-! ### Manifests and the referee (R402, R404, R405) -/

/-- Report a comparison of tide n: counters, the standby's own manifest and result to the active, MANIFEST_MISMATCH for the
lowest port that differs, and the decision (R402, R404, R416). -/
def reportCompared (n : Nat) (c : Compared) (s : State) : State :=
  let w := mfWords n (devSkip s n) (suspectFor s n) c.own
  let s := modTwin (fun x => { x with own := mfKeep x.own n w, lastMf := n }) s
  let s := twinCount 2 c.skipped (twinCount 1 c.bad.length (twinCount 0 c.done s))
  let s := if s.twin.hawser then emit (.hawser (.control (.compared n (c.bad.map Prod.fst)))) (emit (.hawser (.manifest w)) s) else s
  let low := c.bad.foldl (fun (m : Option (Nat × Nat × Nat)) e => match m with
    | some x => if e.1 < x.1 then some e else some x
    | none => some e) none
  -- The active corrects its evidence before the decision (R404).
  let judge (s : State) : State :=
    if s.twin.hawser then modTwin (fun x => { x with contest := some { tide := n, wait := true } }) s else decide_ n s
  match low with
  | some (p, a, b) => judge (twinRaise 4 (pay [(n, 6), (p, 1), (0, 1), (a % 2 ^ 32, 4), (b % 2 ^ 32, 4)]) s)
  | none => s

/-- MANIFEST_COMPARE: at the comparison instant, 100 us after the boundary, a WARM standby compares the tide before
(R400, R402). -/
def execManifestCompare (t : Nat) (s : State) : Host.Outcome State Fault Refusal :=
  let s := s.atTime t
  let n := s.tm.tide - 1
  if s.twin.st ≠ 2 ∨ s.tm.sub < usU 100 ∨ s.tm.tide = 0 ∨ n ≤ s.twin.lastMf ∨ s.twin.switch.isSome then .next s
  else match mfOf s.twin.twin n with
    | none =>
      if s.twin.hawser then .next (reportCompared n { bad := (linePorts s).map fun p => (p, 0, 0) } s) else .next s
    | some w =>
      let skipAll := flag w 2 0 || devSkip s n
      let (c, s) := (mfEntries w).foldl (fun r e => comparePort n (mfOf s.twin.twin (n - 1)) skipAll e r) (({} : Compared), s)
      .next (if s.twin.st = 2 then reportCompared n c s else s)

/-- A decision whose evidence has not been corrected by the boundary is made on what is known (R404). -/
def lateDecision (s : State) : State :=
  match s.twin.contest with
  | some c => if c.wait ∧ c.tide + 2 ≤ s.tm.tide then decide_ c.tide (modTwin (fun x => { x with contest := none }) s) else s
  | none => s

/-- REFEREE_RUN: at the boundary after the comparison instant each unit runs every valid vector and reports pass or fail
(R405). -/
def execRefereeRun (t : Nat) (s : State) : Host.Outcome State Fault Refusal :=
  let s := lateDecision (s.atTime t)
  match s.twin.contest with
  | none => .next s
  | some c =>
    if c.own.isSome ∨ s.tm.tide < c.tide + 2 then .next s
    else
      let pass := s.twin.vectors.all fun e => vectorPasses s e.2
      let s := twinCount 13 1 (modTwin (fun x => { x with contest := some { c with own := some pass } }) s)
      .next (settleContest (if s.twin.hawser then emit (.hawser (.control (.referee c.tide pass))) s else s))

/-! ### Detectors (Table 14-9) -/

/-- MOORING_INPUT_EDGE: the twin's heartbeat counts as received again (R390). -/
def execMooringInputEdge (t : Nat) (s : State) : Host.Outcome State Fault Refusal :=
  let s := s.atTime t
  .next (if s.id.twinEn then modTwin (fun x => { x with moorIn := elapsed s + 1, hbLost := false }) s else s)

/-- HEARTBEAT_LOST: no edge for 150 us. With the hawser up the twin's pilot is queried, else nothing is done (R390, R411,
R412). -/
def execHeartbeatLost (t : Nat) (s : State) : Host.Outcome State Fault Refusal :=
  let s := s.atTime t
  if !s.id.twinEn ∨ s.twin.hbLost ∨ elapsed s < (s.twin.moorIn - 1) + usU 150 then .next s
  else
    let s := twinCount 12 1 (modTwin (fun x => { x with hbLost := true }) s)
    if s.twin.hawser then .next (emit (.hawser (.control .query)) (modTwin (fun x => { x with query := elapsed s + 1 }) s))
    else .next (twinRaise 9 [] s)

/-- HEALTH_QUERY_TIMEOUT: no health answer within 20 us of the query (Table 14-9). -/
def execHealthQueryTimeout (t : Nat) (s : State) : Host.Outcome State Fault Refusal :=
  let s := s.atTime t
  if s.twin.query = 0 ∨ elapsed s < s.twin.query - 1 + usU 20 then .next s
  else .next (twinFailed 2 (modTwin (fun x => { x with query := 0 }) s))

/-- The boundary or midpoint of a tide at which it is now, in half tides from PORST_N, plus 1; 0 at any other instant (R390). -/
def halfTide (s : State) : Nat :=
  if coreClocks s.tm.sub = 0 then 2 * s.tm.bounds + 1
  else if coreClocks s.tm.sub = coreClocks (tideLen s / 2) then 2 * s.tm.bounds + 2
  else 0

/-- MOORING_TOGGLE: the pilot toggles its mooring output once at each boundary and midpoint, while its watchdog on the MPC is
satisfied and the unit is not in the safe state (R390); by the midpoint the active has sent its manifest (R402). -/
def execMooringToggle (t : Nat) (s : State) : Host.Outcome State Fault Refusal :=
  let s := s.atTime t
  let h := halfTide s
  if !s.id.twinEn ∨ s.flt.mpcFailed ∨ s.flt.pilotDead ∨ s.id.fwState = 3 ∨ h = 0 ∨ s.twin.moorAt = h then .next s
  else
    let s := modTwin (fun x => { x with moor := !x.moor, moorAt := h }) s
    let s := emit (.moor s.twin.moor) s
    .next (if h % 2 = 0 then sendManifest s else s)

/-- A TAKEOVER record (Table 14-12). -/
def takeoverEvent (cold : Bool) (detector : Nat) (s : State) : State :=
  twinRaise 7 (pay [(s.tm.tide, 6), (b2n cold, 1), (Config.detectorCode detector % 256, 1)]) s

/-- KILL_IN_RISE: where KILL_OUT is high the later riser wins, and of two in one pilot clock unit 0: the other goes dark,
drops KILL_OUT and enters COLD (R388). -/
def execKillInRise (t : Nat) (same : Bool) (s : State) : Host.Outcome State Fault Refusal :=
  let s := s.atTime t
  let out := s.twin.killOut
  let s := modTwin (fun x => { x with killIn := true, inFirst := same && s.id.devid % 2 == 0 }) s
  if !s.id.twinEn ∨ !out ∨ s.twin.inFirst then .next s
  else
    let was := s.twin.st
    let s := goCold s
    .next (if was = 1 then takeoverEvent (freeVal s % 2 == 1) (freeVal s.took) s.took.took else s)

/-- KILL_IN_FALL: the twin's release. Without a release record it is a failure, if the hawser link or the heartbeat works;
with both failed, which has raised TWIN_ISOLATED, no unit takes the token (R388, R411, Table 14-9). -/
def execKillInFall (t : Nat) (s : State) : Host.Outcome State Fault Refusal :=
  let s := s.atTime t
  let was := s.twin.killIn
  let s := modTwin (fun x => { x with killIn := false, inFirst := false }) s
  if !s.id.twinEn ∨ !was ∨ s.twin.st = 1 ∨ s.twin.switch.isSome then .next s
  else if s.twin.hawser ∨ (s.twin.moorIn ≠ 0 ∧ !s.twin.hbLost) then .next (decideTakeover 1 s)
  else .next s

/-- LAST_BREATH_RECEIVED: the twin's last-breath record arrives: it is kept, and the release detector decides
(R530, R531, Table 14-9). -/
def execLastBreathReceived (t : Nat) (s : State) : Host.Outcome State Fault Refusal :=
  let s := s.atTime t
  let is (r : TwinRec) : Bool := match r with
    | .control (.lastBreath _) => true
    | _ => false
  match rxTake is s with
  | (some (.control (.lastBreath bytes)), s) =>
    .next (twinFailed 1 (twinRaise 0x10 (bytes.take 16) { s with aon := { s.aon with twin := some bytes } }))
  | _ => .next s

/-! ### Takeover and switchover (R406, R409) -/

/-- TAKEOVER_DECIDED: the standby raises KILL_OUT at the decision; its open transactions are discarded (R406, R459). The
takeover is cold where the unit was not WARM. -/
def execTakeoverDecided (t : Nat) (s : State) : Host.Outcome State Fault Refusal :=
  let s := s.atTime t
  if s.twin.detector = 0 ∨ s.twin.takeAt ≠ 0 ∨ s.twin.st ≤ 1 ∨ s.twin.st = 4 then .next s
  else .next (discardTxns 2 (berthTake (s.twin.st != 2) s))

/-- TAKEOVER_ACTIVATE: w after KILL_OUT rose the unit is ACTIVE. A takeover in Y mode first advances the PNs; it is counted
and reported (R389, R393, R406). -/
def execTakeoverActivate (t : Nat) (s : State) : Host.Outcome State Fault Refusal :=
  let s := s.atTime t
  if s.twin.takeAt = 0 ∨ !s.twin.killOut ∨ elapsed s < s.twin.takeAt - 1 then .next s
  else
    let (detector, cold) := (s.twin.detector, s.twin.cold)
    if detector = 0 then .next (becomeActive s)
    else
      let s := if s.twin.dMode then s else pnAdvance s
      .next (takeoverEvent cold detector (twinCount 14 1 (becomeActive s)))

/-- SWITCH_FAILED: the standby has not become ACTIVE by boundary N + 2: the old active raises KILL_OUT again and resumes
(R409). -/
def execSwitchFailed (t : Nat) (s : State) : Host.Outcome State Fault Refusal :=
  let s := s.atTime t
  match s.twin.switch with
  | none => .next s
  | some w =>
    if !w.released ∨ s.twin.st ≠ 2 ∨ s.twin.killOut ∨ s.twin.peer = 1 ∨ s.tm.tide < w.n + 2 then .next s
    else
      let s := modTwin (fun x => { x with killOut := !scanning s, inFirst := x.killIn }) s
      .next (twinRaise 0xD (pay [(w.n, 6)]) (becomeActive s))

/-! ### Joining (R413, R414, R480) -/

/-- BULK_COPY_DONE: the copy is complete; the rotation begins at the next boundary. -/
def execBulkCopyDone (t : Nat) (s : State) : Host.Outcome State Fault Refusal :=
  let s := s.atTime t
  .next (if s.twin.st = 3 ∧ s.twin.join = 1 then modTwin (fun x => { x with join := 2, rotate := 1025 }) s else s)

/-- TWIN_WARM: after a whole class B rotation the unit is WARM (R414). -/
def execTwinWarm (t : Nat) (s : State) : Host.Outcome State Fault Refusal :=
  let s := s.atTime t
  .next (if s.twin.st = 3 ∧ s.twin.join = 2 ∧ s.twin.rotate = 0 ∧ !s.boot.convert then
      twinRaise 0xE (pay [(s.tm.tide, 6)]) (setTwinFree 2 (modTwin (fun x => { x with join := 0 }) s))
    else s)

/-- PROFILE_CONVERTED: the standby has its copy in the new profile and returns to WARM (R480). -/
def execProfileConverted (t : Nat) (s : State) : Host.Outcome State Fault Refusal :=
  let s := s.atTime t
  .next (if s.twin.st = 3 ∧ s.twin.join = 2 ∧ s.boot.convert then
      let s := setTwinFree 2 (modTwin (fun x => { x with join := 0, rotate := 0 }) { s with boot := { s.boot with convert := false } })
      raise 0x14 6 mpcUnit (pay [(s.boot.oldProfile, 1), (s.fwd.profile, 1)]) s
    else s)

/-- AUTO_JOIN: a COLD unit with auto-join, or a STALE one that awaits no decision, begins to join (R410, R413). -/
def execAutoJoin (t : Nat) (s : State) : Host.Outcome State Fault Refusal :=
  let s := s.atTime t
  if !s.twin.auto ∨ !(s.twin.st = 4 ∨ (s.twin.st = 5 ∧ s.twin.stale ≠ 4)) ∨ !s.id.twinEn ∨ s.id.fwState ≠ 1 then .next s
  else .next (if canJoin s && versionsFit s then startJoin s else joinFails s)

/-! ### The twin at a tide boundary (R394 to R396, R403, R409, R414) -/

/-- The completion summary of tide n (Table 14-7). -/
def summaryWords (n : Nat) (s : State) : List Word :=
  toWords n 2 ++ [toWord s.twin.completed.length] ++ s.twin.completed.flatMap fun e =>
    [toWord e.1, toWord e.2, toWord (match tget s.td.queues e.1 with | some x => min (2 ^ 32 - 1) (ceilDiv x.depth 64) | none => 0)]

/-- The active closes the checkpoints of tide n and sends them with the completion summary (R395, R403). -/
def checkpointClose (n : Nat) (s : State) : State :=
  let now := ckItems s (ckKeysA s)
  let items := s.twin.learned ++ now.filter fun it => !s.twin.sent.contains it
  let b := ckItems s (ckKeysB s (n % 1024))
  let live := s.twin.hawser && (s.twin.peer == 2 || s.twin.peer == 3)
  let s := if live then
      let s := emit (.hawser (.checkpoint n false items)) s
      let s := if b.isEmpty then s else emit (.hawser (.checkpoint n true b)) s
      let s := if s.twin.completed.isEmpty then s else emit (.hawser (.summary (summaryWords n s))) s
      modTwin (fun x => { x with lastSent := n }) s
    else s
  modTwin (fun x => { x with sent := now, learned := [], completed := [] }) s

/-- The active releases the token at boundary N of a planned switchover (R409). -/
def switchRelease (s : State) : State :=
  match s.twin.switch with
  | some w =>
    if s.twin.st = 1 ∧ !w.released ∧ w.n ≤ s.tm.tide then
      let s := emit (.hawser (.control (.release w.n))) (sendManifest s)
      setTwinFree 2 (modTwin (fun x => { x with killOut := false, switch := some { w with released := true } }) s)
    else s
  | none => s

/-- A standby at a boundary: it records its own values, counts its rotation, sends its time-exchange record, and becomes
ACTIVE where a switchover has released the token (R394, R396, R409, R414). -/
def standbyBoundary (n : Nat) (s : State) : State :=
  let s := if s.twin.st = 2 ∨ s.twin.st = 3 then
      let items := ckItems s (ckKeysA s ++ ckKeysB s (n % 1024))
      modTwin (fun x => { x with hist := ((n, items) :: x.hist).take 3, rotate := x.rotate - 1 }) s
    else s
  let s := if s.twin.hawser then emit (.hawser (.time none)) (modTwin (fun x => { x with timeSent := some (nowLin s) }) s) else s
  match s.twin.switch with
  | some w => if w.released ∧ s.twin.killOut ∧ w.n + 1 ≤ s.tm.tide then becomeActive s else s
  | none => s

/-- What a pair does at the boundary that ends tide n. -/
def twinBoundary (n : Nat) (s : State) : State :=
  if s.twin.st = 0 then s
  else if s.twin.st = 1 then switchRelease (checkpointClose n s)
  else standbyBoundary n s

end Sys2Proof.Machine
end

