-- ==== Sys2Proof/Machine/Tide.lean ====
section
/-! DEFINITION. The tide boundary and what takes effect at it (R10, R40, R41), the step of the time base (R337), and the loss
of a reference clock (R564). -/

namespace Sys2Proof.Machine

open Sys2Proof

/-! ### Counts of the tide that ends -/

/-- Add the counts of an object's tide (Table 3-10). -/
def PmCount.plus (x : PmCount) (v : List Nat) : PmCount :=
  let at_ (i : Nat) : Nat := v.getD i 0
  { bip := x.bip + at_ 0, eb := x.eb + at_ 1, bei := x.bei + at_ 2, feb := x.feb + at_ 3, pj := x.pj + at_ 4, nj := x.nj + at_ 5
    blocks := x.blocks + at_ 6 }

/-- The PCS and FEC counters of an Ethernet port, from 256 on of a packet client (R90), and from 512 on of a fabric lane (R330); and a
port's register of corrected symbols (R58, R59, Table 2-5). -/
def takeFec (p : Nat) (v : List Nat) (s : State) : State :=
  if 512 ≤ p ∧ p < 608 then
    [(2, 1), (3, 2), (4, 3)].foldl (fun s (e : Nat × Nat) =>
      if v.getD e.2 0 = 0 then s else fabLaneCount (p - 512) e.1 (v.getD e.2 0) s) s
  else
  let mac : Option Mac := if thas s.line.ports p then some (.port p)
    else if 256 ≤ p ∧ thas s.tr.clients (p - 256) then some (.client (p - 256)) else none
  match mac with
  | none => s
  | some m =>
    let s := [(18, 0), (24, 1), (25, 2), (26, 3)].foldl (fun s (e : Nat × Nat) =>
      if v.getD e.2 0 = 0 then s else macAdd m e.1 (v.getD e.2 0) s) s
    modPort p (fun x => { x with secSymbols := x.secSymbols + v.getD 3 0 }) s

/-- A bank's field grows by what its domain's clocks have counted; nothing counts in a tide in
which the domain was never ON or was fenced throughout, and a programmable counter counts while it is enabled (R540, R541). -/
def takeBank (e : Nat × Nat × Nat) (s : State) : State :=
  let (b, f, n) := e
  let idle := decide (b < 80) && (((domOf s b).settle (elapsed s)).spent.getD 0 0 == 0
    || match tget s.flt.fences b with
      | some f => decide (f.since + tideU ≤ elapsed s)
      | none => false)
  if 81 < b ∨ idle then s
  else if f = 0 then modBank b (fun x => { x with cycles := (x.cycles + n) % 2 ^ 48 }) s
  else if f = 1 then (if b ≤ 15 then s else modBank b (fun x => { x with slots := (x.slots + n) % 2 ^ 48 }) s)
  else if ((bankOf s b).sel.getD (f - 2) {}).en then bankAdd b (f - 2) n s
  else s

/-- What the ended tide has counted is added. -/
def takeMeasured (m : Measured) (s : State) : State :=
  let s := m.pm.foldl (fun s e => modMon e.1 (fun x => { x with cur := x.cur.plus e.2 }) s) s
  let s := defectsChangedAll (m.labels.map Prod.fst) (m.labels.foldl (fun s e => takeLabel e.1 e.2 s) s)
  let s := m.fec.foldl (fun s e => takeFec e.1 e.2 s) s
  let s := (s.circuits.map Prod.fst).foldl (fun s i => clampCount i (if playDue s i then playStep i none s else s)) s
  m.bank.foldl (fun s e => takeBank e s) s

/-! ### PM seconds (R42, R59, R94, R99 to R101, R128) -/

/-- The record that closes an object's second (Table 3-10). -/
def pmRecord (first : Nat) (unlocked incomplete : Bool) (m : Mon) : PmRec :=
  let c := m.cur
  let cap (w x : Nat) : Nat := min (2 ^ w - 1) x
  { bip := cap 32 c.bip, eb := cap 32 c.eb, bei := cap 32 c.bei, feb := cap 32 c.feb, pj := cap 16 c.pj, nj := cap 16 c.nj
    flags := m.flags, unlocked := unlocked, incomplete := incomplete || m.incomplete
    saturated := ([c.bip, c.eb, c.bei, c.feb].any fun x => decide (2 ^ 32 ≤ x)) || decide (2 ^ 16 ≤ c.pj) || decide (2 ^ 16 ≤ c.nj)
    first := first }

/-- Add a record to the latest 900. -/
def keep900 {α : Type} (l : List α) (x : α) : List α := (l ++ [x]).drop (l.length + 1 - 900)

/-- Close an object's second; a demapped STM-N keeps no records, for R99 gives them to ports, ODUs and paths. -/
def pmClose (first : Nat) (unlocked incomplete keep : Bool) (m : Mon) : Mon :=
  { m with
    recs := if keep then keep900 m.recs (pmRecord first unlocked incomplete m) else m.recs
    cur := {}, flags := m.defects, incomplete := false }

/-- The layer of an SDH object for Poisson detection: 16, 64 or 256 for a multiplex section, else 0 VC-4, 1 VC-3, 2 VC-12. -/
def sdhLayer (s : State) (h : Nat) : Nat :=
  match hType h with
  | 0x41 => match tget s.tr.paths (hIdx h) with | some x => x.kind | none => 0
  | 0x44 => match tget s.tr.odus (hIdx h) with | some x => termStm x.term | none => 0
  | _ => match tget s.tr.ports (hIdx h) with | some x => if x.mode = 0x20 then 16 else if x.mode = 0x21 then 64 else 256 | none => 0

/-- EXC and DEG of an SDH object after a second, by the Poisson detection of G.783 at its ratios (R94). -/
def sdhJudge (h bip : Nat) (s : State) : State :=
  match monOf s h with
  | none => s
  | some m =>
    let l := sdhLayer s h
    putDefect h 9 (Config.poisson l m.deg (bit m.defects 9) bip) (putDefect h 10 (Config.poisson l m.exc (bit m.defects 10) bip) s)

/-- DEG of an OTN object after a second: DEGM bad seconds declare it, DEGM good ones clear it (R94). -/
def degJudge (h : Nat) (bad : Bool) (s : State) : State :=
  match monOf s h with
  | none => s
  | some m =>
    let on := bit m.defects 9
    if bad = on then modMon h (fun x => { x with degRun := 0 }) s
    else if m.degRun + 1 < m.degM then modMon h (fun x => { x with degRun := m.degRun + 1 }) s
    else putDefect h 9 (!on) (modMon h (fun x => { x with degRun := 0 }) s)

/-- Whether an object is of the OTN. -/
def isOtn (s : State) (h : Nat) : Bool := hType h == 0x40 || (hType h == 0x32 && !isSdhObj s h)

/-- Close the second of one object and judge its degradation, before any consequence of either (R94, R101, R103). -/
def pmLatchObj (incomplete : Bool) (h : Nat) (s : State) : State :=
  match monOf s h with
  | none => s
  | some m =>
    let off := match if hType h = 0x32 then tget s.tr.ports (hIdx h) else none with
      | some x => !x.enabled
      | none => false
    let bad := decide (m.degThr * m.cur.blocks < 100 * m.cur.eb) || decide (m.flags - b2n (bit m.flags 9) * 2 ^ 9 ≠ 0)
    let s := modMon h (pmClose s.tm.pmFirst (!timeLocked s) (incomplete || off) (hType h != 0x44)) s
    if isOtn s h then degJudge h bad s else sdhJudge h m.cur.bip s

/-- Close the second of one circuit (R128). -/
def circuitClose (first : Nat) (unlocked incomplete : Bool) (c : Circuit) : Circuit :=
  { c with
    recs := keep900 c.recs { c.cur with first := first, unlocked := unlocked, incomplete := c.cur.incomplete || incomplete || !c.enabled }
    cur := { incomplete := false, lops := c.lops }, slipped := false }

/-- FEC_DEGRADE at the end of a second of one port (R59). -/
def fecDegrade (p : Nat) (s : State) : State :=
  match tget s.line.ports p with
  | none => s
  | some x =>
    let n := x.secSymbols
    let s := modPort p (fun x => { x with secSymbols := 0 }) s
    if x.cfg.degThr = 0 then s
    else if x.cfg.degThr < n then
      let s := modPort p (fun x => { x with goodSecs := 0, degrade := true }) s
      if x.degrade then s else raise 3 3 (macUnit p) (pay [(handle 0x30 p, 4), (min n (2 ^ 32 - 1), 4)]) s
    else if !x.degrade then s
    else if x.goodSecs + 1 < 10 then modPort p (fun x => { x with goodSecs := x.goodSecs + 1 }) s
    else degradeClear p s

/-- Every object's second closes, one that a step cuts short as incomplete (R42, R99, R338). -/
def pmLatch (incomplete : Bool) (s : State) : State :=
  let hs := (s.tr.ports.map fun e => handle 0x32 e.1) ++ (s.tr.odus.map fun e => handle 0x40 e.1)
    ++ (s.tr.odus.map fun e => sectHandle e.1) ++ s.tr.paths.map fun e => handle 0x41 e.1
  let s := hs.foldl (fun s h => pmLatchObj incomplete h s) s
  let s := { s with circuits := tmap s.circuits fun _ c => circuitClose s.tm.pmFirst (!timeLocked s) incomplete c }
  linkChanged (defectsChangedAll hs ((s.line.ports.map Prod.fst).foldl (fun s p => fecDegrade p s) s))

/-- Everything that latches at boundary b for tide n, which has ended (R41, R337): PM seconds, domain states, bandwidth windows,
dumps, checkpoints, manifests and summaries. -/
def latches (n b : Nat) (bridged : Bool) (s : State) : State :=
  let second := b % 8000 = 0
  let s := if second ∨ s.tm.step.isSome then pmLatch (!decide second) s else s
  let s := dumpBoundary b (bwBoundary b bridged (tideStates s))
  let s := if b % 8 = 0 then schedCount slicesUnit 6 1 s else s
  twinBoundary n s

/-! ### What takes effect at the boundary (R10, R40) -/

/-- PORT.SET, PORT.ENABLE and PORT.DISABLE that waited (Table 2-8); a port that a sounding keeps out of service waits on
(R509). -/
def portBoundary (p : Nat) (s : State) : State :=
  match tget s.line.ports p with
  | none => s
  | some x =>
    let s := match x.pendCfg with
      | some c => applyPortCfg p c s
      | none => s
    match x.pendEn with
    | some true => if portWithheld p s then s else enterService p s
    | some false => modPort p (fun x => { x with inService := false, pendEn := none }) s
    | none => s

/-- TPORT.ENABLE and TPORT.DISABLE that waited (Table 3-14). -/
def tportBoundary (p : Nat) (s : State) : State :=
  match (tget s.tr.ports p).bind fun x => x.pendEn with
  | some on => if on && (portWithheld p s || circuitsWithheld s) then s else tportService p on s
  | none => s

/-- CIRCUIT.SET, CIRCUIT.ENABLE and CIRCUIT.DISABLE that waited; then the packetiser takes its frame, and the tide's frame is
to be played (R116, R119, R120, R129). -/
def circuitTide (e1 : List (Nat × Nat × List Byte)) (i : Nat) (s : State) : State :=
  match tget s.circuits i with
  | none => s
  | some c =>
    let s := match c.pendCfg with
      | some f => modCircuit i (fun c => { c with cfg := f, pendCfg := none }) s
      | none => s
    let s := match c.pendEn with
      | some true => if circuitsWithheld s then s else circuitStart i s
      | some false => circuitStop i s
      | none => s
    circuitBoundary s.tm.tide e1 i (modCircuit i (fun c => { c with played := false }) s)

/-- A lowered tolerance counts in admission at the boundary after the next (R491). -/
def tolBoundary (s : State) : State :=
  { s with pow := { s.pow with lag := match s.pow.lag with
    | some (k, o) => if k ≤ 1 then none else some (k - 1, o)
    | none => none } }

/-- Commits and the settings that waited take effect in the tide that begins. -/
def settings (m : Measured) (s : State) : State :=
  let s := schedBoundary (detBoundary (partBoundary (commitBoundary s)))
  let s := (s.line.ports.map Prod.fst).foldl (fun s p => portBoundary p s) s
  let s := (s.tr.ports.map Prod.fst).foldl (fun s p => tportBoundary p s) s
  let s := modFwd (fun w => { w with slots := w.profile }) s
  let s := (s.circuits.map Prod.fst).foldl (fun s i => circuitTide m.e1 i s) s
  linkChanged s

/-- What the governor, the soundings, the memories and the sensors do at the boundary; `nak` names the rails that do not
acknowledge. -/
def services (nak : List Nat) (s : State) : State :=
  let s := bankBoundary (sageBoundary (soundingReturn (soundingFit s)))
  let s := portPowerBoundary (concentrationBoundary s)
  tolBoundary (avsBoundary nak (retrainStarts (governorFloors s)))

/-- A tide boundary: the latches of the tide that ends, a step that is due, and what takes effect in the tide that begins. -/
def boundary (m : Measured) (s : State) : State :=
  let n := s.tm.tide
  let bridged := s.tm.bridging
  let s := refreshAll (cutTide (takeMeasured m (refSettleAll s)))
  let b := s.tm.tide
  let second := b % 8000 = 0 ∨ s.tm.step.isSome
  let stepped := s.tm.step.isSome
  let s := stepTide (latches n b bridged s)
  let s := if second then { s with tm := { s.tm with pmFirst := s.tm.tide } } else s
  let s := if stepped then gatesRestart s else s
  let sent := if s.id.fwState = 3 then s else emit (.tideOut (tideOutFrame s)) s
  refreshAll (bwOpened b (services m.nak (settings m sent)))

/-- TIDE_BOUNDARY: the running tide ends and the next begins; `t` is the model's clock in the new tide (R10, R40). Nothing
happens while PORST_N is low. -/
def execTideBoundary (t : Nat) (m : Measured) (s : State) : Host.Outcome State Fault Refusal :=
  .next (if s.boot.held then s else (boundary m s).atTime t)

/-- TIME_STEP_APPLY: the boundary at which a pending step applies and a bridging tide begins (R336 to R338); nothing happens
where no step is pending. -/
def execTimeStepApply (t : Nat) (m : Measured) (s : State) : Host.Outcome State Fault Refusal :=
  .next (if s.boot.held || s.tm.step.isNone then s else (boundary m s).atTime t)

/-! ### Following another device's time base (R338, R349, R351, R352, R394) -/

/-- The boundary nearest to now: the one that began the running tide, or the one that will end it. -/
def edgeTide (s : State) : Nat := if 2 * s.tm.sub < tideLen s then s.tm.tide else s.tm.tide + 1

/-- The new basis of a follower whose running tide, or the tide that ends, becomes tide b at the instant now: the gate lists restart (R294),
the status lists are built again, the state is the source's, and the bridging tide has its frame on TIDE_OUT (R350). -/
def stepOnto (b n t' st now : Nat) (s : State) : State :=
  let s := basisChange b n t' { s with tm := { s.tm with elapsed := now, bounds := s.tm.bounds + (b - s.tm.tide) } }
  let s := setTimeState st (refreshAll (gatesRestart { s with tm := { s.tm with pmFirst := n } }))
  if s.id.fwState = 3 then s else emit (.tideOut (tideOutFrame s)) s

/-- A follower's time base steps to t' and takes state st, its source being in tide n. Where the running tide has just begun, its boundary has
latched already and only the PM second closes; else the tide ends with its latches (R338). -/
def followStep (n t' st : Nat) (s : State) : State :=
  let now := elapsed s
  let b := edgeTide s
  if b ≠ s.tm.tide then
    let s := latches s.tm.tide b s.tm.bridging s
    stepOnto b n t' st now (if b % 8000 = 0 ∨ s.tm.step.isSome then s else pmLatch true s)
  else stepOnto b n t' st now (if b % 8000 = 0 then s else pmLatch true s)

/-- Bring a follower's time base in line with its source's, which is `offset` ahead, by a slew at a rate that the spec leaves
open. -/
def slewTo (offset : Int) (s : State) : State :=
  { s with tm := { s.tm with slew := some ⟨offset, freeVal s % 500 + 1, elapsed s⟩ } }.took

/-- Follow a good tide frame that arrives while TIDE_IN is lost (R351): slew up to 1 us, step above it, or stay in
holdover while a commit tide is named. -/
def tideRealign (tide t' : Nat) (state : Nat) (diff : Int) (s : State) : State :=
  let restored (s : State) : State :=
    raise 0x0D 6 tbUnit (pay [(unsigned 32 diff, 4)])
      (setTimeState state { s with tm := { s.tm with tideInLost := false, alignFault := false } })
  if diff.natAbs ≤ 1000000 ∧ tide = edgeTide s then restored (slewTo (-(diff * 65536 / 1000)) s)
  else if !commitNamed s then restored (followStep tide t' state s)
  else if s.tm.alignFault then s
  else raise 0x0D 7 tbUnit (pay [(unsigned 32 (diff / 1000), 4)]) { s with tm := { s.tm with alignFault := true } }

/-- TIDE_IN_FRAME: a follower takes a tide frame: `good` whether it arrived with a right CRC, its fields (Table 12-4),
and how much later than its own boundary its start bit came, in ps, from which the chain delay is taken (R351). A difference above
5 ns is slewed away. A frame of another tide than the follower's boundary is a basis it adopts (R349). -/
def execTideInFrame (t : Nat) (good : Bool) (tide : Nat) (phase : Int) (bridging : Bool) (state : Nat) (diff : Int)
    (s : State) : Host.Outcome State Fault Refusal :=
  let s := s.atTime t
  if tideSource s ≠ 1 then .next s
  else if !good then .next (timeCount 127 3 1 { s with tm := { s.tm with tideInBad := s.tm.tideInBad + 1 } })
  else
    let diff := diff - s.tm.chain
    let s := { s with tm := { s.tm with tideInBad := 0, lastGood := tide, lastDiff := diff } }
    let t' := if bridging then ((tide * tideU : Int) + phase).toNat else tide * tideU
    .next (if s.tm.tideInLost then tideRealign tide t' state diff s
      else if bridging ∨ tide ≠ edgeTide s then followStep tide t' state s
      else setTimeState state (if diff.natAbs ≤ 5000 then s else slewTo (-(diff * 65536 / 1000)) s))

/-- Bring the standby's time base in line with the active's: by a slew up to 1 us, else by a step to its time and tide
(R349, R352). -/
def steer (offset : Int) (s : State) : State :=
  if offset.natAbs ≤ usU 1 then slewTo offset s
  else
    let lin := ((nowLin s : Int) + offset).toNat
    followStep (lin / tideU) lin s.tm.st s

/-- TIME_EXCHANGE: the active answers the standby's record with the times of its arrival and of the answer; the standby
takes half the difference of the two ways, and adopts the active's state (R349, R394). -/
def execTimeExchange (t : Nat) (s : State) : Host.Outcome State Fault Refusal :=
  let s := s.atTime t
  match rxTake (fun r => r.ty == 7) s with
  | (some (.time none), s) => .next (if s.twin.st = 1 then emit (.hawser (.time (some (s.twin.timeArr, nowLin s, s.tm.st)))) s else s)
  | (some (.time (some (t2, t3, st))), s) =>
    match s.twin.timeSent with
    | some t1 =>
      let offset : Int := (((t2 : Int) - t1) + ((t3 : Int) - s.twin.timeArr)) / 2
      .next (if 2 ≤ s.twin.st then setTimeState st (steer offset (modTwin (fun x => { x with timeSent := none }) s)) else s)
    | none => .next s
  | _ => .next s

/-! ### Reference clocks (R564) -/

/-- What a reference clock that stops takes with it: 0 to 3 REFCLK_LINE, 4 to 6 REFCLK_FAB, 7 REFCLK_HW, 8 SYSCLK,
9 PCIE_REFCLK, 10 AONCLK. -/
def clockLost (clk : Nat) (s : State) : State :=
  if clk ≤ 3 then
    (s.line.ports.filter fun e => e.1 / 16 == clk).foldl (fun s e => portConditions e.1 (Nat.lor e.2.conds 2) s) s
  else if clk ≤ 6 then (List.range 32).foldl (fun s i => fabricLane (32 * (clk - 4) + i) false false 1 s) s
  else if clk = 7 then
    hawserFails s
  else if clk = 8 then errorAct (aonUnit 0) 9 0 s
  else if clk = 9 then pcieLink 0#32 s
  else { s with flt := { s.flt with pilotDead := true } }

/-- REFCLK_LOSS: a reference clock stops or leaves its tolerance, or is back in it (R564). -/
def execRefclkLoss (t clk : Nat) (lost : Bool) (s : State) : Host.Outcome State Fault Refusal :=
  let s := s.atTime t
  if 10 < clk ∨ bit s.board.clkLost clk = lost then .next s
  else
    let s := { s with board := { s.board with clkLost := if lost then s.board.clkLost + 2 ^ clk else s.board.clkLost - 2 ^ clk } }
    .next (if lost ∧ !s.boot.held then clockLost clk s else s)

end Sys2Proof.Machine
end

