-- ==== Sys2Proof/Machine/Dispatch.lean ====
section
/-! DEFINITION. exec: one arm per command or event of the K12, each a direct call of its meaning. -/

namespace Sys2Proof.Machine

open Sys2Proof

def exec (i : Instr) (s : State) : Host.Outcome State Fault Refusal :=
  match i with
  | .deviceInfo c q => Sys2Proof.Machine.execDeviceInfo c q s
  | .deviceMailboxSet c q => Sys2Proof.Machine.execDeviceMailboxSet c q s
  | .deviceMailboxGet c q => Sys2Proof.Machine.execDeviceMailboxGet c q s
  | .deviceEcho c q => Sys2Proof.Machine.execDeviceEcho c q s
  | .txnBegin c q => Sys2Proof.Machine.execTxnBegin c q s
  | .txnCommit c q => Sys2Proof.Machine.execTxnCommit c q s
  | .commitPreparationDone t slot => Sys2Proof.Machine.execCommitPreparationDone t slot s
  | .commitTimePassed t slot => Sys2Proof.Machine.execCommitTimePassed t slot s
  | .txnRollback c q => Sys2Proof.Machine.execTxnRollback c q s
  | .txnStatus c q => Sys2Proof.Machine.execTxnStatus c q s
  | .txnList c q => Sys2Proof.Machine.execTxnList c q s
  | .portCreate c q => Sys2Proof.Machine.execPortCreate c q s
  | .portDelete c q => Sys2Proof.Machine.execPortDelete c q s
  | .portEnable c q => Sys2Proof.Machine.execPortEnable c q s
  | .portDisable c q => Sys2Proof.Machine.execPortDisable c q s
  | .portSet c q => Sys2Proof.Machine.execPortSet c q s
  | .portFilterSet c q => Sys2Proof.Machine.execPortFilterSet c q s
  | .portStatus c q => Sys2Proof.Machine.execPortStatus c q s
  | .portCounters c q => Sys2Proof.Machine.execPortCounters c q s
  | .portLoopback c q => Sys2Proof.Machine.execPortLoopback c q s
  | .laneSet c q => Sys2Proof.Machine.execLaneSet c q s
  | .macsecSecySet c q => Sys2Proof.Machine.execMacsecSecySet c q s
  | .macsecSaInstall c q => Sys2Proof.Machine.execMacsecSaInstall c q s
  | .macsecSaActivate c q => Sys2Proof.Machine.execMacsecSaActivate c q s
  | .macsecSaDelete c q => Sys2Proof.Machine.execMacsecSaDelete c q s
  | .macsecCounters c q => Sys2Proof.Machine.execMacsecCounters c q s
  | .tportCreate c q => Sys2Proof.Machine.execTportCreate c q s
  | .tportDelete c q => Sys2Proof.Machine.execTportDelete c q s
  | .tportEnable c q => Sys2Proof.Machine.execTportEnable c q s
  | .tportDisable c q => Sys2Proof.Machine.execTportDisable c q s
  | .oduCreate c q => Sys2Proof.Machine.execOduCreate c q s
  | .oduDelete c q => Sys2Proof.Machine.execOduDelete c q s
  | .sdhPathCreate c q => Sys2Proof.Machine.execSdhPathCreate c q s
  | .sdhPathDelete c q => Sys2Proof.Machine.execSdhPathDelete c q s
  | .traceSet c q => Sys2Proof.Machine.execTraceSet c q s
  | .traceGet c q => Sys2Proof.Machine.execTraceGet c q s
  | .monSet c q => Sys2Proof.Machine.execMonSet c q s
  | .defectStatus c q => Sys2Proof.Machine.execDefectStatus c q s
  | .pmRead c q => Sys2Proof.Machine.execPmRead c q s
  | .protCreate c q => Sys2Proof.Machine.execProtCreate c q s
  | .protDelete c q => Sys2Proof.Machine.execProtDelete c q s
  | .protRequest c q => Sys2Proof.Machine.execProtRequest c q s
  | .protStatus c q => Sys2Proof.Machine.execProtStatus c q s
  | .circuitCreate c q => Sys2Proof.Machine.execCircuitCreate c q s
  | .circuitDelete c q => Sys2Proof.Machine.execCircuitDelete c q s
  | .circuitEnable c q => Sys2Proof.Machine.execCircuitEnable c q s
  | .circuitDisable c q => Sys2Proof.Machine.execCircuitDisable c q s
  | .circuitSet c q => Sys2Proof.Machine.execCircuitSet c q s
  | .circuitStatus c q => Sys2Proof.Machine.execCircuitStatus c q s
  | .circuitCounters c q => Sys2Proof.Machine.execCircuitCounters c q s
  | .circuitPmRead c q => Sys2Proof.Machine.execCircuitPmRead c q s
  | .profileSet c q => Sys2Proof.Machine.execProfileSet c q s
  | .profileGet c q => Sys2Proof.Machine.execProfileGet c q s
  | .parserLoad c q => Sys2Proof.Machine.execParserLoad c q s
  | .parserPortSet c q => Sys2Proof.Machine.execParserPortSet c q s
  | .ifSet c q => Sys2Proof.Machine.execIfSet c q s
  | .lkpKeySet c q => Sys2Proof.Machine.execLkpKeySet c q s
  | .lkpProgramSet c q => Sys2Proof.Machine.execLkpProgramSet c q s
  | .nhCreate c q => Sys2Proof.Machine.execNhCreate c q s
  | .nhSet c q => Sys2Proof.Machine.execNhSet c q s
  | .nhDelete c q => Sys2Proof.Machine.execNhDelete c q s
  | .encapCreate c q => Sys2Proof.Machine.execEncapCreate c q s
  | .encapDelete c q => Sys2Proof.Machine.execEncapDelete c q s
  | .ecmpCreate c q => Sys2Proof.Machine.execEcmpCreate c q s
  | .ecmpSetMembers c q => Sys2Proof.Machine.execEcmpSetMembers c q s
  | .ecmpDelete c q => Sys2Proof.Machine.execEcmpDelete c q s
  | .hashSet c q => Sys2Proof.Machine.execHashSet c q s
  | .policerSet c q => Sys2Proof.Machine.execPolicerSet c q s
  | .policerRead c q => Sys2Proof.Machine.execPolicerRead c q s
  | .statsRead c q => Sys2Proof.Machine.execStatsRead c q s
  | .statsClear c q => Sys2Proof.Machine.execStatsClear c q s
  | .pipeSet c q => Sys2Proof.Machine.execPipeSet c q s
  | .pipeCounters c q => Sys2Proof.Machine.execPipeCounters c q s
  | .dillTableCreate c q => Sys2Proof.Machine.execDillTableCreate c q s
  | .dillInsert c q => Sys2Proof.Machine.execDillInsert c q s
  | .dillModify c q => Sys2Proof.Machine.execDillModify c q s
  | .dillDelete c q => Sys2Proof.Machine.execDillDelete c q s
  | .dillTableDelete c q => Sys2Proof.Machine.execDillTableDelete c q s
  | .dillStatus c q => Sys2Proof.Machine.execDillStatus c q s
  | .sorrelAdd c q => Sys2Proof.Machine.execSorrelAdd c q s
  | .sorrelSet c q => Sys2Proof.Machine.execSorrelSet c q s
  | .sorrelDelete c q => Sys2Proof.Machine.execSorrelDelete c q s
  | .sorrelGet c q => Sys2Proof.Machine.execSorrelGet c q s
  | .sorrelMatch c q => Sys2Proof.Machine.execSorrelMatch c q s
  | .sorrelStatus c q => Sys2Proof.Machine.execSorrelStatus c q s
  | .sageGroupCreate c q => Sys2Proof.Machine.execSageGroupCreate c q s
  | .sageGroupDelete c q => Sys2Proof.Machine.execSageGroupDelete c q s
  | .sageInsert c q => Sys2Proof.Machine.execSageInsert c q s
  | .sageModify c q => Sys2Proof.Machine.execSageModify c q s
  | .sageDelete c q => Sys2Proof.Machine.execSageDelete c q s
  | .sageRead c q => Sys2Proof.Machine.execSageRead c q s
  | .sageStatus c q => Sys2Proof.Machine.execSageStatus c q s
  | .actionCreate c q => Sys2Proof.Machine.execActionCreate c q s
  | .actionSet c q => Sys2Proof.Machine.execActionSet c q s
  | .actionDelete c q => Sys2Proof.Machine.execActionDelete c q s
  | .tableCounters c q => Sys2Proof.Machine.execTableCounters c q s
  | .dillSearch c q => Sys2Proof.Machine.execDillSearch c q s
  | .dillNext c q => Sys2Proof.Machine.execDillNext c q s
  | .dillNextHoldExpiry t tab b => Sys2Proof.Machine.execDillNextHoldExpiry t tab b s
  | .tableCmdlist c q => Sys2Proof.Machine.execTableCmdlist c q s
  | .cmdlistDone t id records => Sys2Proof.Machine.execCmdlistDone t id records s
  | .tableCompareSet c q => Sys2Proof.Machine.execTableCompareSet c q s
  | .tableDigestLoad c q => Sys2Proof.Machine.execTableDigestLoad c q s
  | .tableCompareStatus c q => Sys2Proof.Machine.execTableCompareStatus c q s
  | .learnProfileSet c q => Sys2Proof.Machine.execLearnProfileSet c q s
  | .learnDomainSet c q => Sys2Proof.Machine.execLearnDomainSet c q s
  | .learnPortSet c q => Sys2Proof.Machine.execLearnPortSet c q s
  | .learnPortStatus c q => Sys2Proof.Machine.execLearnPortStatus c q s
  | .learnFlushPort c q => Sys2Proof.Machine.execLearnFlushPort c q s
  | .flushDone t id => Sys2Proof.Machine.execFlushDone t id s
  | .learnProgramSet c q => Sys2Proof.Machine.execLearnProgramSet c q s
  | .learnDeviceSet c q => Sys2Proof.Machine.execLearnDeviceSet c q s
  | .learnCounters c q => Sys2Proof.Machine.execLearnCounters c q s
  | .bufPoolSet c q => Sys2Proof.Machine.execBufPoolSet c q s
  | .bufPoolStatus c q => Sys2Proof.Machine.execBufPoolStatus c q s
  | .bufInspect c q => Sys2Proof.Machine.execBufInspect c q s
  | .bufCounters c q => Sys2Proof.Machine.execBufCounters c q s
  | .queueSpaceSet c q => Sys2Proof.Machine.execQueueSpaceSet c q s
  | .voqCreate c q => Sys2Proof.Machine.execVoqCreate c q s
  | .voqDelete c q => Sys2Proof.Machine.execVoqDelete c q s
  | .queueCreate c q => Sys2Proof.Machine.execQueueCreate c q s
  | .queueSet c q => Sys2Proof.Machine.execQueueSet c q s
  | .queueDelete c q => Sys2Proof.Machine.execQueueDelete c q s
  | .queueFlush c q => Sys2Proof.Machine.execQueueFlush c q s
  | .queueStatus c q => Sys2Proof.Machine.execQueueStatus c q s
  | .queueCounters c q => Sys2Proof.Machine.execQueueCounters c q s
  | .nodeCreate c q => Sys2Proof.Machine.execNodeCreate c q s
  | .nodeSet c q => Sys2Proof.Machine.execNodeSet c q s
  | .nodeDelete c q => Sys2Proof.Machine.execNodeDelete c q s
  | .nodeStatus c q => Sys2Proof.Machine.execNodeStatus c q s
  | .wredProfileSet c q => Sys2Proof.Machine.execWredProfileSet c q s
  | .samplerGroupSet c q => Sys2Proof.Machine.execSamplerGroupSet c q s
  | .samplerHistRead c q => Sys2Proof.Machine.execSamplerHistRead c q s
  | .schedCounters c q => Sys2Proof.Machine.execSchedCounters c q s
  | .streamCreate c q => Sys2Proof.Machine.execStreamCreate c q s
  | .streamSet c q => Sys2Proof.Machine.execStreamSet c q s
  | .streamDelete c q => Sys2Proof.Machine.execStreamDelete c q s
  | .streamStatus c q => Sys2Proof.Machine.execStreamStatus c q s
  | .streamCounters c q => Sys2Proof.Machine.execStreamCounters c q s
  | .streamEgressCreate c q => Sys2Proof.Machine.execStreamEgressCreate c q s
  | .streamEgressDelete c q => Sys2Proof.Machine.execStreamEgressDelete c q s
  | .frerCreate c q => Sys2Proof.Machine.execFrerCreate c q s
  | .frerSet c q => Sys2Proof.Machine.execFrerSet c q s
  | .frerDelete c q => Sys2Proof.Machine.execFrerDelete c q s
  | .frerStatus c q => Sys2Proof.Machine.execFrerStatus c q s
  | .frerCounters c q => Sys2Proof.Machine.execFrerCounters c q s
  | .frerReset c q => Sys2Proof.Machine.execFrerReset c q s
  | .gateSet c q => Sys2Proof.Machine.execGateSet c q s
  | .gateClear c q => Sys2Proof.Machine.execGateClear c q s
  | .gateStatus c q => Sys2Proof.Machine.execGateStatus c q s
  | .detCheck c q => Sys2Proof.Machine.execDetCheck c q s
  | .detExport c q => Sys2Proof.Machine.execDetExport c q s
  | .detCounters c q => Sys2Proof.Machine.execDetCounters c q s
  | .fabricSet c q => Sys2Proof.Machine.execFabricSet c q s
  | .fabricProfileSet c q => Sys2Proof.Machine.execFabricProfileSet c q s
  | .fabricSysportSet c q => Sys2Proof.Machine.execFabricSysportSet c q s
  | .fabricVoqGuarantee c q => Sys2Proof.Machine.execFabricVoqGuarantee c q s
  | .fabricGrantSet c q => Sys2Proof.Machine.execFabricGrantSet c q s
  | .fabricCreditSet c q => Sys2Proof.Machine.execFabricCreditSet c q s
  | .fabricStatus c q => Sys2Proof.Machine.execFabricStatus c q s
  | .fabricLaneReach c q => Sys2Proof.Machine.execFabricLaneReach c q s
  | .fabricCounters c q => Sys2Proof.Machine.execFabricCounters c q s
  | .timeGet c q => Sys2Proof.Machine.execTimeGet c q s
  | .timeAdjust c q => Sys2Proof.Machine.execTimeAdjust c q s
  | .timeStep c q => Sys2Proof.Machine.execTimeStep c q s
  | .timeStateSet c q => Sys2Proof.Machine.execTimeStateSet c q s
  | .timeStatus c q => Sys2Proof.Machine.execTimeStatus c q s
  | .timePortSet c q => Sys2Proof.Machine.execTimePortSet c q s
  | .timeTsringSet c q => Sys2Proof.Machine.execTimeTsringSet c q s
  | .timeOriginate c q => Sys2Proof.Machine.execTimeOriginate c q s
  | .timePpsSet c q => Sys2Proof.Machine.execTimePpsSet c q s
  | .timeTodSet c q => Sys2Proof.Machine.execTimeTodSet c q s
  | .timeSynceSet c q => Sys2Proof.Machine.execTimeSynceSet c q s
  | .timeTideSet c q => Sys2Proof.Machine.execTimeTideSet c q s
  | .timeCounters c q => Sys2Proof.Machine.execTimeCounters c q s
  | .memSet c q => Sys2Proof.Machine.execMemSet c q s
  | .memStatus c q => Sys2Proof.Machine.execMemStatus c q s
  | .memRemapRead c q => Sys2Proof.Machine.execMemRemapRead c q s
  | .memSpare c q => Sys2Proof.Machine.execMemSpare c q s
  | .memTrainReport c q => Sys2Proof.Machine.execMemTrainReport c q s
  | .memCounters c q => Sys2Proof.Machine.execMemCounters c q s
  | .twinSet c q => Sys2Proof.Machine.execTwinSet c q s
  | .twinStatus c q => Sys2Proof.Machine.execTwinStatus c q s
  | .twinSwitch c q => Sys2Proof.Machine.execTwinSwitch c q s
  | .twinForce c q => Sys2Proof.Machine.execTwinForce c q s
  | .twinJoin c q => Sys2Proof.Machine.execTwinJoin c q s
  | .twinRefereeLoad c q => Sys2Proof.Machine.execTwinRefereeLoad c q s
  | .twinDecide c q => Sys2Proof.Machine.execTwinDecide c q s
  | .twinManifestRead c q => Sys2Proof.Machine.execTwinManifestRead c q s
  | .twinCounters c q => Sys2Proof.Machine.execTwinCounters c q s
  | .powerTolSet c q => Sys2Proof.Machine.execPowerTolSet c q s
  | .powerPortSet c q => Sys2Proof.Machine.execPowerPortSet c q s
  | .powerConcentrateSet c q => Sys2Proof.Machine.execPowerConcentrateSet c q s
  | .powerDomainStatus c q => Sys2Proof.Machine.execPowerDomainStatus c q s
  | .powerStatus c q => Sys2Proof.Machine.execPowerStatus c q s
  | .powerCounters c q => Sys2Proof.Machine.execPowerCounters c q s
  | .soundSet c q => Sys2Proof.Machine.execSoundSet c q s
  | .soundNow c q => Sys2Proof.Machine.execSoundNow c q s
  | .soundStatus c q => Sys2Proof.Machine.execSoundStatus c q s
  | .soundSliceInfo c q => Sys2Proof.Machine.execSoundSliceInfo c q s
  | .scanFull c q => Sys2Proof.Machine.execScanFull c q s
  | .scanFullRunDone t bits first sig verified => Sys2Proof.Machine.execScanFullRunDone t bits first sig verified s
  | .scanResult c q => Sys2Proof.Machine.execScanResult c q s
  | .lifecycleChallenge c q => Sys2Proof.Machine.execLifecycleChallenge c q s
  | .lifecycleSet c q => Sys2Proof.Machine.execLifecycleSet c q s
  | .lifecycleKeyRevoke c q => Sys2Proof.Machine.execLifecycleKeyRevoke c q s
  | .selftestCounters c q => Sys2Proof.Machine.execSelftestCounters c q s
  | .nonceExpiry t => Sys2Proof.Machine.execNonceExpiry t s
  | .surveyValidityEnd t => Sys2Proof.Machine.execSurveyValidityEnd t s
  | .faultStatus c q => Sys2Proof.Machine.execFaultStatus c q s
  | .faultLogRead c q => Sys2Proof.Machine.execFaultLogRead c q s
  | .faultLastBreathSet c q => Sys2Proof.Machine.execFaultLastBreathSet c q s
  | .faultLastBreathRead c q => Sys2Proof.Machine.execFaultLastBreathRead c q s
  | .faultClusterReinit c q => Sys2Proof.Machine.execFaultClusterReinit c q s
  | .faultReset c q => Sys2Proof.Machine.execFaultReset c q s
  | .faultCounters c q => Sys2Proof.Machine.execFaultCounters c q s
  | .telemBankSet c q => Sys2Proof.Machine.execTelemBankSet c q s
  | .telemBankRead c q => Sys2Proof.Machine.execTelemBankRead c q s
  | .telemBwSet c q => Sys2Proof.Machine.execTelemBwSet c q s
  | .telemDumpSet c q => Sys2Proof.Machine.execTelemDumpSet c q s
  | .telemDumpStatus c q => Sys2Proof.Machine.execTelemDumpStatus c q s
  | .telemCounters c q => Sys2Proof.Machine.execTelemCounters c q s
  | .telemUserGrant c q => Sys2Proof.Machine.execTelemUserGrant c q s
  | .upgradeLoad c q => Sys2Proof.Machine.execUpgradeLoad c q s
  | .upgradeLoaded t img verified => Sys2Proof.Machine.execUpgradeLoaded t img verified s
  | .upgradeActivate c q => Sys2Proof.Machine.execUpgradeActivate c q s
  | .upgradeConfirm c q => Sys2Proof.Machine.execUpgradeConfirm c q s
  | .upgradeStatus c q => Sys2Proof.Machine.execUpgradeStatus c q s
  | .upgradeProfile c q => Sys2Proof.Machine.execUpgradeProfile c q s
  | .profileConverted t => Sys2Proof.Machine.execProfileConverted t s
  | .pioRingMap c q => Sys2Proof.Machine.execPioRingMap c q s
  | .pioCounters c q => Sys2Proof.Machine.execPioCounters c q s
  | .mbDoorbell t v fed failed => Sys2Proof.Machine.execMbDoorbell t v fed failed s
  | .mbDone t v => Sys2Proof.Machine.execMbDone t v s
  | .evrCtrl t v => Sys2Proof.Machine.execEvrCtrl t v s
  | .evrConsumer t v => Sys2Proof.Machine.execEvrConsumer t v s
  | .evrLost t => Sys2Proof.Machine.execEvrLost t s
  | .tsrConsumer t v => Sys2Proof.Machine.execTsrConsumer t v s
  | .ringCtrl t tx ring v => Sys2Proof.Machine.execRingCtrl t tx ring v s
  | .rxTail t ring v => Sys2Proof.Machine.execRxTail t ring v s
  | .txTail t ring v => Sys2Proof.Machine.execTxTail t ring v s
  | .registerWrite t bar off v => Sys2Proof.Machine.execRegisterWrite t bar off v s
  | .pf2UserRead t off n => Sys2Proof.Machine.execPf2UserRead t off n s
  | .pcieConfigRequest t fn off write => Sys2Proof.Machine.execPcieConfigRequest t fn off write s
  | .i2c0Access t write n => Sys2Proof.Machine.execI2c0Access t write n s
  | .jtagInstruction t code => Sys2Proof.Machine.execJtagInstruction t code s
  | .porstNAssert t => Sys2Proof.Machine.execPorstNAssert t s
  | .porstNRelease t devid twinEn verified => Sys2Proof.Machine.execPorstNRelease t devid twinEn verified s
  | .bootSlotTimeout t => Sys2Proof.Machine.execBootSlotTimeout t s
  | .firmwareReady t => Sys2Proof.Machine.execFirmwareReady t s
  | .hbmTrainingDone t stack ms geometry chans => Sys2Proof.Machine.execHbmTrainingDone t stack ms geometry chans s
  | .perstNAssert t => Sys2Proof.Machine.execPerstNAssert t s
  | .functionLevelReset t fn => Sys2Proof.Machine.execFunctionLevelReset t fn s
  | .pcieLinkChange t rate width flit => Sys2Proof.Machine.execPcieLinkChange t rate width flit s
  | .refclkLoss t clk lost => Sys2Proof.Machine.execRefclkLoss t clk lost s
  | .powerWarning t => Sys2Proof.Machine.execPowerWarning t s
  | .tideBoundary t m => Sys2Proof.Machine.execTideBoundary t m s
  | .retrainWindowEnd t stack chan => Sys2Proof.Machine.execRetrainWindowEnd t stack chan s
  | .dumpRecordWritten t n failed => Sys2Proof.Machine.execDumpRecordWritten t n failed s
  | .swapBegin t => Sys2Proof.Machine.execSwapBegin t s
  | .swapHandover t ok => Sys2Proof.Machine.execSwapHandover t ok s
  | .swapDone t => Sys2Proof.Machine.execSwapDone t s
  | .confirmTimeout t => Sys2Proof.Machine.execConfirmTimeout t s
  | .portConditionsChange t port failing => Sys2Proof.Machine.execPortConditionsChange t port failing s
  | .linkUp t port => Sys2Proof.Machine.execLinkUp t port s
  | .linkDown t port => Sys2Proof.Machine.execLinkDown t port s
  | .frameReceived t port client frame good aborted dur => Sys2Proof.Machine.execFrameReceived t port client frame good aborted dur s
  | .holdLimitDrop t octet => Sys2Proof.Machine.execHoldLimitDrop t octet s
  | .ingressPipelinePass t pipe c idle bad => Sys2Proof.Machine.execIngressPipelinePass t pipe c idle bad s
  | .learnRequestApply t n => Sys2Proof.Machine.execLearnRequestApply t n s
  | .flapClear t tab key => Sys2Proof.Machine.execFlapClear t tab key s
  | .moveWindowEnd t tab key => Sys2Proof.Machine.execMoveWindowEnd t tab key s
  | .sweepVisit t tab b => Sys2Proof.Machine.execSweepVisit t tab b s
  | .comparePageVisit t tab page unc twin => Sys2Proof.Machine.execComparePageVisit t tab page unc twin s
  | .twinPageRepair t tab page form => Sys2Proof.Machine.execTwinPageRepair t tab page form s
  | .epochRetire t seg => Sys2Proof.Machine.execEpochRetire t seg s
  | .epochStale t seg => Sys2Proof.Machine.execEpochStale t seg s
  | .thermalSensorRead t region sensors => Sys2Proof.Machine.execThermalSensorRead t region sensors s
  | .streamUnitFrame t octet => Sys2Proof.Machine.execStreamUnitFrame t octet s
  | .frerResetTimeout t ctx => Sys2Proof.Machine.execFrerResetTimeout t ctx s
  | .bufferAllocate t pool reqs => Sys2Proof.Machine.execBufferAllocate t pool reqs s
  | .bufferRelease t pool b id unit => Sys2Proof.Machine.execBufferRelease t pool b id unit s
  | .bufferReplicate t pool b n => Sys2Proof.Machine.execBufferReplicate t pool b n s
  | .partitionShort t slot => Sys2Proof.Machine.execPartitionShort t slot s
  | .queueEnqueue t client egress => Sys2Proof.Machine.execQueueEnqueue t client egress s
  | .schedulerSelect t port => Sys2Proof.Machine.execSchedulerSelect t port s
  | .shaperRecovered t h => Sys2Proof.Machine.execShaperRecovered t h s
  | .samplerVisit t q => Sys2Proof.Machine.execSamplerVisit t q s
  | .gateListStarted t port => Sys2Proof.Machine.execGateListStarted t port s
  | .egressPipelinePass t port => Sys2Proof.Machine.execEgressPipelinePass t port s
  | .frameLaunch t port cut => Sys2Proof.Machine.execFrameLaunch t port cut s
  | .macTransmitFrame t port cut own => Sys2Proof.Machine.execMacTransmitFrame t port cut own s
  | .tsrMergerWrite t port => Sys2Proof.Machine.execTsrMergerWrite t port s
  | .defectSet t h b rx => Sys2Proof.Machine.execDefectSet t h b rx s
  | .defectClear t h b rx => Sys2Proof.Machine.execDefectClear t h b rx s
  | .traceAccepted t h trace => Sys2Proof.Machine.execTraceAccepted t h trace s
  | .timPersistenceExpiry t h => Sys2Proof.Machine.execTimPersistenceExpiry t h s
  | .holdoffExpiry t group => Sys2Proof.Machine.execHoldoffExpiry t group s
  | .wtrExpiry t group => Sys2Proof.Machine.execWtrExpiry t group s
  | .apsKBytesAccepted t group k1 k2 => Sys2Proof.Machine.execApsKBytesAccepted t group k1 k2 s
  | .apsBridgeTimeout t group => Sys2Proof.Machine.execApsBridgeTimeout t group s
  | .vc12FrameComplete t circuit path frame => Sys2Proof.Machine.execVc12FrameComplete t circuit path frame s
  | .pseudowireReceived t circuit instant => Sys2Proof.Machine.execPseudowireReceived t circuit instant s
  | .circuitPlayout t circuit arrival => Sys2Proof.Machine.execCircuitPlayout t circuit arrival s
  | .lopsSet t circuit => Sys2Proof.Machine.execLopsSet t circuit s
  | .fabricLaneState t lane up far cause => Sys2Proof.Machine.execFabricLaneState t lane up far cause s
  | .fabricCellTransmit t lane => Sys2Proof.Machine.execFabricCellTransmit t lane s
  | .fabricCellReceived t lane cell damaged => Sys2Proof.Machine.execFabricCellReceived t lane cell damaged s
  | .reorderTimeout t dev det => Sys2Proof.Machine.execReorderTimeout t dev det s
  | .statusMessageReceived t lane flit damaged => Sys2Proof.Machine.execStatusMessageReceived t lane flit damaged s
  | .statusRefresh t q => Sys2Proof.Machine.execStatusRefresh t q s
  | .tokenMessageReceived t lane flit damaged => Sys2Proof.Machine.execTokenMessageReceived t lane flit damaged s
  | .creditTokenIssue t dest => Sys2Proof.Machine.execCreditTokenIssue t dest s
  | .reachabilityReceived t lane flit damaged => Sys2Proof.Machine.execReachabilityReceived t lane flit damaged s
  | .phaseSlewDone t => Sys2Proof.Machine.execPhaseSlewDone t s
  | .timeStepApply t m => Sys2Proof.Machine.execTimeStepApply t m s
  | .tideInFrame t good tide phase bridging state diff => Sys2Proof.Machine.execTideInFrame t good tide phase bridging state diff s
  | .tideInLost t => Sys2Proof.Machine.execTideInLost t s
  | .ppsInCapture t => Sys2Proof.Machine.execPpsInCapture t s
  | .ppsOutEdge t => Sys2Proof.Machine.execPpsOutEdge t s
  | .todTxMessage t => Sys2Proof.Machine.execTodTxMessage t s
  | .todRx t bytes valid => Sys2Proof.Machine.execTodRx t bytes valid s
  | .hbmRequest t stack addr write len res replays whole idle subj sub => Sys2Proof.Machine.execHbmRequest t stack addr write len res replays whole idle subj sub s
  | .scrubRead t stack addr res => Sys2Proof.Machine.execScrubRead t stack addr res s
  | .rankMigrated t stack poisoned => Sys2Proof.Machine.execRankMigrated t stack poisoned s
  | .ceWindowEnd t stack rank => Sys2Proof.Machine.execCeWindowEnd t stack rank s
  | .hbmTemp t stack temp => Sys2Proof.Machine.execHbmTemp t stack temp s
  | .hawserLinkState t up lane cause => Sys2Proof.Machine.execHawserLinkState t up lane cause s
  | .hawserRecordReceived t header damaged record => Sys2Proof.Machine.execHawserRecordReceived t header damaged record s
  | .detFrameRecord t => Sys2Proof.Machine.execDetFrameRecord t s
  | .checkpointApply t => Sys2Proof.Machine.execCheckpointApply t s
  | .configurationRecord t => Sys2Proof.Machine.execConfigurationRecord t s
  | .commitAckTimeout t slot => Sys2Proof.Machine.execCommitAckTimeout t slot s
  | .completionSummaryTrim t => Sys2Proof.Machine.execCompletionSummaryTrim t s
  | .timeExchange t => Sys2Proof.Machine.execTimeExchange t s
  | .manifestCompare t => Sys2Proof.Machine.execManifestCompare t s
  | .refereeRun t => Sys2Proof.Machine.execRefereeRun t s
  | .heartbeatLost t => Sys2Proof.Machine.execHeartbeatLost t s
  | .healthQueryTimeout t => Sys2Proof.Machine.execHealthQueryTimeout t s
  | .mooringToggle t => Sys2Proof.Machine.execMooringToggle t s
  | .killInRise t same => Sys2Proof.Machine.execKillInRise t same s
  | .killInFall t => Sys2Proof.Machine.execKillInFall t s
  | .takeoverDecided t => Sys2Proof.Machine.execTakeoverDecided t s
  | .takeoverActivate t => Sys2Proof.Machine.execTakeoverActivate t s
  | .switchFailed t => Sys2Proof.Machine.execSwitchFailed t s
  | .bulkCopyDone t => Sys2Proof.Machine.execBulkCopyDone t s
  | .twinWarm t => Sys2Proof.Machine.execTwinWarm t s
  | .autoJoin t => Sys2Proof.Machine.execAutoJoin t s
  | .rxFrameDelivery t ring fed => Sys2Proof.Machine.execRxFrameDelivery t ring fed s
  | .txRingFrame t fed => Sys2Proof.Machine.execTxRingFrame t fed s
  | .dmaError t src addr => Sys2Proof.Machine.execDmaError t src addr s
  | .eventRecordWrite t => Sys2Proof.Machine.execEventRecordWrite t s
  | .msixModerationTimeout t src => Sys2Proof.Machine.execMsixModerationTimeout t src s
  | .domainEnterFloor t d => Sys2Proof.Machine.execDomainEnterFloor t d s
  | .domainWake t d path => Sys2Proof.Machine.execDomainWake t d path s
  | .domainWakeDone t d => Sys2Proof.Machine.execDomainWakeDone t d s
  | .deconcentrate t k => Sys2Proof.Machine.execDeconcentrate t k s
  | .soundingStart t d => Sys2Proof.Machine.execSoundingStart t d s
  | .soundingWithdrawn t => Sys2Proof.Machine.execSoundingWithdrawn t s
  | .soundingPostponed t => Sys2Proof.Machine.execSoundingPostponed t s
  | .soundingTestDone t sig golden => Sys2Proof.Machine.execSoundingTestDone t sig golden s
  | .soundingOverdue t d => Sys2Proof.Machine.execSoundingOverdue t d s
  | .errorDetected t unit kind detail => Sys2Proof.Machine.execErrorDetected t unit kind detail s
  | .clusterRestored t d => Sys2Proof.Machine.execClusterRestored t d s
  | .mpcFailed t cause => Sys2Proof.Machine.execMpcFailed t cause s
  | .mpcRecovered t => Sys2Proof.Machine.execMpcRecovered t s
  | .pilotLockstepMismatch t => Sys2Proof.Machine.execPilotLockstepMismatch t s
  | .pilotWatchdogExpiry t => Sys2Proof.Machine.execPilotWatchdogExpiry t s
  | .lastBreathReceived t => Sys2Proof.Machine.execLastBreathReceived t s
  | .packageReset t verified => Sys2Proof.Machine.execPackageReset t verified s
  | .mooringInputEdge t => Sys2Proof.Machine.execMooringInputEdge t s
  | .aonPowerCycle t => Sys2Proof.Machine.execAonPowerCycle t s
  | .trstNAssert t => Sys2Proof.Machine.execTrstNAssert t s
  | .sampleMpc t n addr => Sys2Proof.Machine.execSampleMpc t n addr s
  | .flushWalkerVisit t id tab b => Sys2Proof.Machine.execFlushWalkerVisit t id tab b s

end Sys2Proof.Machine
end

