-- ==== Sys2Proof/Safety.lean ====
section
/-! DEFINITION. The terms in which statements are made: when a command of a mailbox runs, what its completion leaves, and
the invariants of the state. -/

namespace Sys2Proof.Machine

open Sys2Proof

/-! ### Commands -/

/-- The state at the instant of a command's doorbell, with its mailbox taken (R439). -/
def taken (k : Cmd) (c : Call) (q : List Word) (s : State) : State := takeMb k c q (s.atTime c.t)

/-- The state in which the checks of R446 are made: a failed indirect read of the request block has been recorded (R441). -/
def checked (k : Cmd) (c : Call) (q : List Word) (s : State) : State := indirectError c (taken k c q s)

/-- The state in which a direct command's own effect is made: an octet that the command names is woken (R495). -/
def accepted (k : Cmd) (c : Call) (q : List Word) (s : State) : State := wakeNamed k q (taken k c q s)

/-- A direct command of a mailbox that the host owns passes every check of R446 and waits for nothing (R455, R586). -/
def Ready (k : Cmd) (c : Call) (q : List Word) (s : State) : Bool :=
  (match s.ecs.mbs[c.mb]? with | some b => !b.owned | none => false) && decide (txnOf c = 0) && served k s
    && (refuse k c q (taken k c q s)).isNone && !waits k c q (taken k c q s)

/-- Admission lets a direct command's change from u to v stand (R295). -/
def admits (k : Cmd) (u v : State) : Bool := !k.adm || (admitChange u v).1.isNone

/-- What a direct command's change from u to v leaves: admission's bounds and partition where it ran (R295, R236), and for
a command that is no reading one the marks of R458 and the copy to the standby (R392). -/
def landed (k : Cmd) (q : List Word) (h : Nat) (u v : State) : State :=
  let v := if k.adm then (admitChange u v).2 else v
  if k.reading then v
  else if carried k.op then toTwin (.direct k.op q h) (markDirect (k.objs q) v) else markDirect (k.objs q) v

/-- The state after a direct command whose own effect turns the accepted state u into v, which completes with status st, a
response block and the handle that a create takes (R442). -/
def endState (st : Nat) (k : Cmd) (c : Call) (q resp : List Word) (h : Nat) (u v : State) : State :=
  complete c.mb c.tag st resp (landed k q h u v)

/-- A direct command that is ready, and that meets a condition on the accepted state, completes with status st, OK or
ACCEPTED: its response block, the handle that a create takes, and its own effect are functions of the call, the request
block and the accepted state. -/
def Runs (st : Nat) (k : Cmd) (mk : Call → List Word → Instr) (cond : Call → List Word → State → Prop)
    (resp : Call → List Word → State → List Word) (h : Call → List Word → State → Nat) (f : Call → List Word → State → State) : Prop :=
  ∀ c q s, Ready k c q s = true → cond c q (accepted k c q s) →
    admits k (accepted k c q s) (f c q (accepted k c q s)) = true →
    exec (mk c q) s = .next (endState st k c q (resp c q (accepted k c q s)) (h c q (accepted k c q s)) (accepted k c q s)
      (f c q (accepted k c q s)))

/-- A command that answers a response block and changes nothing else. -/
def Reads (k : Cmd) (mk : Call → List Word → Instr) (cond : List Word → State → Prop) (resp : List Word → State → List Word) : Prop :=
  Runs stOk k mk (fun _ q u => cond q u) (fun _ q u => resp q u) (fun _ _ _ => 0) fun _ _ u => u

/-- A command that changes the state and answers no words. -/
def Sets (k : Cmd) (mk : Call → List Word → Instr) (cond : List Word → State → Prop) (f : List Word → State → State) : Prop :=
  Runs stOk k mk (fun _ q u => cond q u) (fun _ _ _ => []) (fun _ _ _ => 0) fun _ q u => f q u

/-- A command that starts an operation, completes with ACCEPTED and answers no words. -/
def Starts (k : Cmd) (mk : Call → List Word → Instr) (cond : List Word → State → Prop) (f : List Word → State → State) : Prop :=
  Runs stAccepted k mk (fun _ q u => cond q u) (fun _ _ _ => []) (fun _ _ _ => 0) fun _ q u => f q u

/-- A command that makes an object and answers its handle. -/
def Makes (k : Cmd) (mk : Call → List Word → Instr) (cond : List Word → State → Prop) (h : List Word → State → Nat)
    (f : List Word → State → State) : Prop :=
  Runs stOk k mk (fun _ q u => cond q u) (fun _ q u => [toWord (h q u)]) (fun _ q u => h q u) fun _ q u => f q u

/-! ### Staged commands -/

/-- A command of a mailbox that the host owns, staged in transaction x of slot i, passes every check of R446 and the limits of
R453, with no earlier command still to be staged in that transaction (R443). -/
def stageReady (k : Cmd) (c : Call) (q : List Word) (s : State) (i : Nat) (x : Txn) : Prop :=
  (∃ b, s.ecs.mbs[c.mb]? = some b ∧ b.owned = false) ∧ txnOf c ≠ 0 ∧ served k s = true ∧ refuse k c q (taken k c q s) = none
    ∧ waits k c q (taken k c q s) = false ∧ txnSlot (taken k c q s) c.txn = some (i, x) ∧ txnLimits x 1 q.length = true

/-- What staging a command that reserves no handle leaves (R452, R453, R458). -/
def stagedIn (k : Cmd) (c : Call) (q : List Word) (i : Nat) (x : Txn) (u : State) : State :=
  toTwin (.staged c.txn k.op q 0) (putTxn i (some { x with
    ops := x.ops ++ [⟨k.op, q, 0, k.refs q⟩], count := x.count + 1, bytes := x.bytes + 20 + 4 * q.length,
    objs := addObjs x.objs (k.objs q) }) u)

/-! ### Events -/

/-- The state in which an egress pass edits the frame e of port p: the frame has left the egress queue and the pass is tallied. -/
def egressTaken (p : Nat) (e : Nat × Pkt) (u : State) : State :=
  modFwd (fun w => { w with egress := w.egress.erase e }) (powTally (4 * (p / 8) + 1) 1 u)

/-- The state in which an octet drops a waiting header: the skip list of each of its eight ports takes the skip flag of this tide (R400). -/
def heldOctet (o : Nat) (u : State) : State :=
  (List.range 8).foldl (fun s i => skipPort (8 * (o % 8) + i) s.tm.tide s) u

/-- An event at offset t of the current tide, which meets a condition on the state of that instant, turns that state into
another. -/
def Happens (mk : Nat → Instr) (cond : State → Prop) (f : State → State) : Prop :=
  ∀ t s, cond (s.atTime t) → exec (mk t) s = .next (f (s.atTime t))

/-! ### Mailboxes -/

/-- Word i of mailbox m: its envelope is words 0 to 7 and its data area begins at word 8 (R438). -/
def mailboxWord (s : State) (m i : Nat) : Word := mreadWord s.ecs.mem (m * 4096 + 4 * i)

/-- Byte a lies in the request block of the MACSEC.SA_INSTALL that mailbox m runs from its data area: the block is zeroed however the
command ends (R73). -/
def wiped (s : State) (m a : Nat) : Prop :=
  ∃ x, (s.ecs.mbs.getD m {}).acc = some x ∧ x.op = 0x0321 ∧ bit (mreadWord s.ecs.mem (m * 4096)).toNat 16 = false
    ∧ m * 4096 + 32 ≤ a ∧ a < m * 4096 + 32 + 4 * min 1016 x.q.length

/-- What the host sees of one signal of PF0 vector m between s and t: the message has left, or its pending bit is set where the
vector is masked (R421). -/
def signalledOnce (m : Nat) (s t : State) : Prop :=
  if (tgetD s.host.msix (msixKey 0 m) {}).masked then
    t.wire = s.wire ∧ t.host.msix = tset s.host.msix (msixKey 0 m) { tgetD s.host.msix (msixKey 0 m) {} with pend := true }
  else t.wire = .msix 0 m :: s.wire ∧ t.host.msix = s.host.msix

/-! ### Invariants -/

/-- The lifecycle code is one of the five of Table 19-1 (R499). -/
def LifecycleLegal (s : State) : Prop := s.id.lifecycle ≤ 4

/-- A move of Table 19-2 by its codes: 0 DRYDOCK, 1 COMMISSIONED, 2 SURVEY, 3 RETURNED, 4 SCRAPPED (R500). -/
def TableMove (a b : Nat) : Prop :=
  (a = 0 ∧ b = 1) ∨ (a = 1 ∧ b = 2) ∨ (a = 2 ∧ b = 1) ∨ ((a = 1 ∨ a = 2) ∧ b = 3) ∨ (a = 3 ∧ b = 0) ∨ (a ≠ 4 ∧ b = 4)

/-- The events at which SURVEY can end by itself: a release of PORST_N, a reset that acts as one, a power cycle of AON, which
holds SURVEY, and the end of the validity of R501 (R499, Table 19-2). -/
def EndsSurvey (i : Instr) : Prop :=
  (∃ t d w v, i = .porstNRelease t d w v) ∨ (∃ t v, i = .packageReset t v) ∨ (∃ t b f g v, i = .scanFullRunDone t b f g v)
    ∨ (∃ t, i = .aonPowerCycle t) ∨ ∃ t, i = .surveyValidityEnd t

end Sys2Proof.Machine
end

