-- ==== Sys2Proof/WellFormed.lean ====
section
/-! DEFINITION. Which terms of Instr stand for a command or an event that the K12 can meet: the envelope of a command fits its words
(Table 16-2), an indirect request is 8-byte aligned (R438), an event names a port, lane, ring or unit that exists, and every row
happens within the current tide (R337). exec is total and does not rest on these checks. -/

namespace Sys2Proof

/-- An instant within a tide: a bridging tide is shorter than 187.5 us, in units of 2^-16 ns (R337). -/
def inTide (t : Nat) : Bool := decide (t < 12288000000)

/-- The envelope fits Table 16-2: mailbox 0 to 31, a tag of 16 bits, a transaction handle of 32 bits, and an indirect request at an
8-byte aligned address of 64 bits. -/
def Call.wellFormed (c : Call) : Bool :=
  inTide c.t && decide (c.mb < 32) && decide (c.tag < 2 ^ 16) && decide (c.txn < 2 ^ 32)
    && match c.src with
      | .mailbox => true
      | .indirect a => decide (a < 2 ^ 64) && a % 8 == 0
      | .indirectFailed a => decide (a < 2 ^ 64)

/-- The request length fits its 15 bits in the envelope (Table 16-2). -/
def requestFits (_ : Call) (q : List Word) : Bool := decide (q.length < 2 ^ 15)

/-- The term stands for a command or an event that the K12 can meet. -/
def Instr.wellFormed (i : Instr) : Bool :=
  match i with
  | .deviceInfo c q => c.wellFormed && requestFits c q
  | .deviceMailboxSet c q => c.wellFormed && requestFits c q
  | .deviceMailboxGet c q => c.wellFormed && requestFits c q
  | .deviceEcho c q => c.wellFormed && requestFits c q
  | .txnBegin c q => c.wellFormed && requestFits c q
  | .txnCommit c q => c.wellFormed && requestFits c q
  | .commitPreparationDone t slot => inTide t && decide (slot < 8)
  | .commitTimePassed t slot => inTide t && decide (slot < 8)
  | .txnRollback c q => c.wellFormed && requestFits c q
  | .txnStatus c q => c.wellFormed && requestFits c q
  | .txnList c q => c.wellFormed && requestFits c q
  | .portCreate c q => c.wellFormed && requestFits c q
  | .portDelete c q => c.wellFormed && requestFits c q
  | .portEnable c q => c.wellFormed && requestFits c q
  | .portDisable c q => c.wellFormed && requestFits c q
  | .portSet c q => c.wellFormed && requestFits c q
  | .portFilterSet c q => c.wellFormed && requestFits c q
  | .portStatus c q => c.wellFormed && requestFits c q
  | .portCounters c q => c.wellFormed && requestFits c q
  | .portLoopback c q => c.wellFormed && requestFits c q
  | .laneSet c q => c.wellFormed && requestFits c q
  | .macsecSecySet c q => c.wellFormed && requestFits c q
  | .macsecSaInstall c q => c.wellFormed && requestFits c q
  | .macsecSaActivate c q => c.wellFormed && requestFits c q
  | .macsecSaDelete c q => c.wellFormed && requestFits c q
  | .macsecCounters c q => c.wellFormed && requestFits c q
  | .tportCreate c q => c.wellFormed && requestFits c q
  | .tportDelete c q => c.wellFormed && requestFits c q
  | .tportEnable c q => c.wellFormed && requestFits c q
  | .tportDisable c q => c.wellFormed && requestFits c q
  | .oduCreate c q => c.wellFormed && requestFits c q
  | .oduDelete c q => c.wellFormed && requestFits c q
  | .sdhPathCreate c q => c.wellFormed && requestFits c q
  | .sdhPathDelete c q => c.wellFormed && requestFits c q
  | .traceSet c q => c.wellFormed && requestFits c q
  | .traceGet c q => c.wellFormed && requestFits c q
  | .monSet c q => c.wellFormed && requestFits c q
  | .defectStatus c q => c.wellFormed && requestFits c q
  | .pmRead c q => c.wellFormed && requestFits c q
  | .protCreate c q => c.wellFormed && requestFits c q
  | .protDelete c q => c.wellFormed && requestFits c q
  | .protRequest c q => c.wellFormed && requestFits c q
  | .protStatus c q => c.wellFormed && requestFits c q
  | .circuitCreate c q => c.wellFormed && requestFits c q
  | .circuitDelete c q => c.wellFormed && requestFits c q
  | .circuitEnable c q => c.wellFormed && requestFits c q
  | .circuitDisable c q => c.wellFormed && requestFits c q
  | .circuitSet c q => c.wellFormed && requestFits c q
  | .circuitStatus c q => c.wellFormed && requestFits c q
  | .circuitCounters c q => c.wellFormed && requestFits c q
  | .circuitPmRead c q => c.wellFormed && requestFits c q
  | .profileSet c q => c.wellFormed && requestFits c q
  | .profileGet c q => c.wellFormed && requestFits c q
  | .parserLoad c q => c.wellFormed && requestFits c q
  | .parserPortSet c q => c.wellFormed && requestFits c q
  | .ifSet c q => c.wellFormed && requestFits c q
  | .lkpKeySet c q => c.wellFormed && requestFits c q
  | .lkpProgramSet c q => c.wellFormed && requestFits c q
  | .nhCreate c q => c.wellFormed && requestFits c q
  | .nhSet c q => c.wellFormed && requestFits c q
  | .nhDelete c q => c.wellFormed && requestFits c q
  | .encapCreate c q => c.wellFormed && requestFits c q
  | .encapDelete c q => c.wellFormed && requestFits c q
  | .ecmpCreate c q => c.wellFormed && requestFits c q
  | .ecmpSetMembers c q => c.wellFormed && requestFits c q
  | .ecmpDelete c q => c.wellFormed && requestFits c q
  | .hashSet c q => c.wellFormed && requestFits c q
  | .policerSet c q => c.wellFormed && requestFits c q
  | .policerRead c q => c.wellFormed && requestFits c q
  | .statsRead c q => c.wellFormed && requestFits c q
  | .statsClear c q => c.wellFormed && requestFits c q
  | .pipeSet c q => c.wellFormed && requestFits c q
  | .pipeCounters c q => c.wellFormed && requestFits c q
  | .dillTableCreate c q => c.wellFormed && requestFits c q
  | .dillInsert c q => c.wellFormed && requestFits c q
  | .dillModify c q => c.wellFormed && requestFits c q
  | .dillDelete c q => c.wellFormed && requestFits c q
  | .dillTableDelete c q => c.wellFormed && requestFits c q
  | .dillStatus c q => c.wellFormed && requestFits c q
  | .sorrelAdd c q => c.wellFormed && requestFits c q
  | .sorrelSet c q => c.wellFormed && requestFits c q
  | .sorrelDelete c q => c.wellFormed && requestFits c q
  | .sorrelGet c q => c.wellFormed && requestFits c q
  | .sorrelMatch c q => c.wellFormed && requestFits c q
  | .sorrelStatus c q => c.wellFormed && requestFits c q
  | .sageGroupCreate c q => c.wellFormed && requestFits c q
  | .sageGroupDelete c q => c.wellFormed && requestFits c q
  | .sageInsert c q => c.wellFormed && requestFits c q
  | .sageModify c q => c.wellFormed && requestFits c q
  | .sageDelete c q => c.wellFormed && requestFits c q
  | .sageRead c q => c.wellFormed && requestFits c q
  | .sageStatus c q => c.wellFormed && requestFits c q
  | .actionCreate c q => c.wellFormed && requestFits c q
  | .actionSet c q => c.wellFormed && requestFits c q
  | .actionDelete c q => c.wellFormed && requestFits c q
  | .tableCounters c q => c.wellFormed && requestFits c q
  | .dillSearch c q => c.wellFormed && requestFits c q
  | .dillNext c q => c.wellFormed && requestFits c q
  | .dillNextHoldExpiry t tab _ => inTide t && decide (tab < 256)
  | .tableCmdlist c q => c.wellFormed && requestFits c q
  | .cmdlistDone t _ _ => inTide t
  | .tableCompareSet c q => c.wellFormed && requestFits c q
  | .tableDigestLoad c q => c.wellFormed && requestFits c q
  | .tableCompareStatus c q => c.wellFormed && requestFits c q
  | .learnProfileSet c q => c.wellFormed && requestFits c q
  | .learnDomainSet c q => c.wellFormed && requestFits c q
  | .learnPortSet c q => c.wellFormed && requestFits c q
  | .learnPortStatus c q => c.wellFormed && requestFits c q
  | .learnFlushPort c q => c.wellFormed && requestFits c q
  | .flushDone t _ => inTide t
  | .learnProgramSet c q => c.wellFormed && requestFits c q
  | .learnDeviceSet c q => c.wellFormed && requestFits c q
  | .learnCounters c q => c.wellFormed && requestFits c q
  | .bufPoolSet c q => c.wellFormed && requestFits c q
  | .bufPoolStatus c q => c.wellFormed && requestFits c q
  | .bufInspect c q => c.wellFormed && requestFits c q
  | .bufCounters c q => c.wellFormed && requestFits c q
  | .queueSpaceSet c q => c.wellFormed && requestFits c q
  | .voqCreate c q => c.wellFormed && requestFits c q
  | .voqDelete c q => c.wellFormed && requestFits c q
  | .queueCreate c q => c.wellFormed && requestFits c q
  | .queueSet c q => c.wellFormed && requestFits c q
  | .queueDelete c q => c.wellFormed && requestFits c q
  | .queueFlush c q => c.wellFormed && requestFits c q
  | .queueStatus c q => c.wellFormed && requestFits c q
  | .queueCounters c q => c.wellFormed && requestFits c q
  | .nodeCreate c q => c.wellFormed && requestFits c q
  | .nodeSet c q => c.wellFormed && requestFits c q
  | .nodeDelete c q => c.wellFormed && requestFits c q
  | .nodeStatus c q => c.wellFormed && requestFits c q
  | .wredProfileSet c q => c.wellFormed && requestFits c q
  | .samplerGroupSet c q => c.wellFormed && requestFits c q
  | .samplerHistRead c q => c.wellFormed && requestFits c q
  | .schedCounters c q => c.wellFormed && requestFits c q
  | .streamCreate c q => c.wellFormed && requestFits c q
  | .streamSet c q => c.wellFormed && requestFits c q
  | .streamDelete c q => c.wellFormed && requestFits c q
  | .streamStatus c q => c.wellFormed && requestFits c q
  | .streamCounters c q => c.wellFormed && requestFits c q
  | .streamEgressCreate c q => c.wellFormed && requestFits c q
  | .streamEgressDelete c q => c.wellFormed && requestFits c q
  | .frerCreate c q => c.wellFormed && requestFits c q
  | .frerSet c q => c.wellFormed && requestFits c q
  | .frerDelete c q => c.wellFormed && requestFits c q
  | .frerStatus c q => c.wellFormed && requestFits c q
  | .frerCounters c q => c.wellFormed && requestFits c q
  | .frerReset c q => c.wellFormed && requestFits c q
  | .gateSet c q => c.wellFormed && requestFits c q
  | .gateClear c q => c.wellFormed && requestFits c q
  | .gateStatus c q => c.wellFormed && requestFits c q
  | .detCheck c q => c.wellFormed && requestFits c q
  | .detExport c q => c.wellFormed && requestFits c q
  | .detCounters c q => c.wellFormed && requestFits c q
  | .fabricSet c q => c.wellFormed && requestFits c q
  | .fabricProfileSet c q => c.wellFormed && requestFits c q
  | .fabricSysportSet c q => c.wellFormed && requestFits c q
  | .fabricVoqGuarantee c q => c.wellFormed && requestFits c q
  | .fabricGrantSet c q => c.wellFormed && requestFits c q
  | .fabricCreditSet c q => c.wellFormed && requestFits c q
  | .fabricStatus c q => c.wellFormed && requestFits c q
  | .fabricLaneReach c q => c.wellFormed && requestFits c q
  | .fabricCounters c q => c.wellFormed && requestFits c q
  | .timeGet c q => c.wellFormed && requestFits c q
  | .timeAdjust c q => c.wellFormed && requestFits c q
  | .timeStep c q => c.wellFormed && requestFits c q
  | .timeStateSet c q => c.wellFormed && requestFits c q
  | .timeStatus c q => c.wellFormed && requestFits c q
  | .timePortSet c q => c.wellFormed && requestFits c q
  | .timeTsringSet c q => c.wellFormed && requestFits c q
  | .timeOriginate c q => c.wellFormed && requestFits c q
  | .timePpsSet c q => c.wellFormed && requestFits c q
  | .timeTodSet c q => c.wellFormed && requestFits c q
  | .timeSynceSet c q => c.wellFormed && requestFits c q
  | .timeTideSet c q => c.wellFormed && requestFits c q
  | .timeCounters c q => c.wellFormed && requestFits c q
  | .memSet c q => c.wellFormed && requestFits c q
  | .memStatus c q => c.wellFormed && requestFits c q
  | .memRemapRead c q => c.wellFormed && requestFits c q
  | .memSpare c q => c.wellFormed && requestFits c q
  | .memTrainReport c q => c.wellFormed && requestFits c q
  | .memCounters c q => c.wellFormed && requestFits c q
  | .twinSet c q => c.wellFormed && requestFits c q
  | .twinStatus c q => c.wellFormed && requestFits c q
  | .twinSwitch c q => c.wellFormed && requestFits c q
  | .twinForce c q => c.wellFormed && requestFits c q
  | .twinJoin c q => c.wellFormed && requestFits c q
  | .twinRefereeLoad c q => c.wellFormed && requestFits c q
  | .twinDecide c q => c.wellFormed && requestFits c q
  | .twinManifestRead c q => c.wellFormed && requestFits c q
  | .twinCounters c q => c.wellFormed && requestFits c q
  | .powerTolSet c q => c.wellFormed && requestFits c q
  | .powerPortSet c q => c.wellFormed && requestFits c q
  | .powerConcentrateSet c q => c.wellFormed && requestFits c q
  | .powerDomainStatus c q => c.wellFormed && requestFits c q
  | .powerStatus c q => c.wellFormed && requestFits c q
  | .powerCounters c q => c.wellFormed && requestFits c q
  | .soundSet c q => c.wellFormed && requestFits c q
  | .soundNow c q => c.wellFormed && requestFits c q
  | .soundStatus c q => c.wellFormed && requestFits c q
  | .soundSliceInfo c q => c.wellFormed && requestFits c q
  | .scanFull c q => c.wellFormed && requestFits c q
  | .scanFullRunDone t _ _ _ _ => inTide t
  | .scanResult c q => c.wellFormed && requestFits c q
  | .lifecycleChallenge c q => c.wellFormed && requestFits c q
  | .lifecycleSet c q => c.wellFormed && requestFits c q
  | .lifecycleKeyRevoke c q => c.wellFormed && requestFits c q
  | .selftestCounters c q => c.wellFormed && requestFits c q
  | .nonceExpiry t => inTide t
  | .surveyValidityEnd t => inTide t
  | .faultStatus c q => c.wellFormed && requestFits c q
  | .faultLogRead c q => c.wellFormed && requestFits c q
  | .faultLastBreathSet c q => c.wellFormed && requestFits c q
  | .faultLastBreathRead c q => c.wellFormed && requestFits c q
  | .faultClusterReinit c q => c.wellFormed && requestFits c q
  | .faultReset c q => c.wellFormed && requestFits c q
  | .faultCounters c q => c.wellFormed && requestFits c q
  | .telemBankSet c q => c.wellFormed && requestFits c q
  | .telemBankRead c q => c.wellFormed && requestFits c q
  | .telemBwSet c q => c.wellFormed && requestFits c q
  | .telemDumpSet c q => c.wellFormed && requestFits c q
  | .telemDumpStatus c q => c.wellFormed && requestFits c q
  | .telemCounters c q => c.wellFormed && requestFits c q
  | .telemUserGrant c q => c.wellFormed && requestFits c q
  | .upgradeLoad c q => c.wellFormed && requestFits c q
  | .upgradeLoaded t _ _ => inTide t
  | .upgradeActivate c q => c.wellFormed && requestFits c q
  | .upgradeConfirm c q => c.wellFormed && requestFits c q
  | .upgradeStatus c q => c.wellFormed && requestFits c q
  | .upgradeProfile c q => c.wellFormed && requestFits c q
  | .profileConverted t => inTide t
  | .pioRingMap c q => c.wellFormed && requestFits c q
  | .pioCounters c q => c.wellFormed && requestFits c q
  | .mbDoorbell t v _ _ => inTide t && decide (v < 2 ^ 32)
  | .mbDone t v => inTide t && decide (v < 2 ^ 32)
  | .evrCtrl t v => inTide t && decide (v < 2 ^ 32)
  | .evrConsumer t v => inTide t && decide (v < 2 ^ 32)
  | .evrLost t => inTide t
  | .tsrConsumer t v => inTide t && decide (v < 2 ^ 32)
  | .ringCtrl t _ ring v => inTide t && decide (ring < 64) && decide (v < 2 ^ 32)
  | .rxTail t ring v => inTide t && decide (ring < 64) && decide (v < 2 ^ 32)
  | .txTail t ring v => inTide t && decide (ring < 64) && decide (v < 2 ^ 32)
  | .registerWrite t _ _ v => inTide t && decide (v < 2 ^ 32)
  | .pf2UserRead t _ _ => inTide t
  | .pcieConfigRequest t fn _ _ => inTide t && decide (fn < 3)
  | .i2c0Access t _ _ => inTide t
  | .jtagInstruction t code => inTide t && decide (code < 256)
  | .porstNAssert t => inTide t
  | .porstNRelease t devid _ _ => inTide t && decide (devid < 4)
  | .bootSlotTimeout t => inTide t
  | .firmwareReady t => inTide t
  | .hbmTrainingDone t stack _ _ _ => inTide t && decide (stack < 6)
  | .perstNAssert t => inTide t
  | .functionLevelReset t fn => inTide t && decide (fn < 3)
  | .pcieLinkChange t rate width _ => inTide t && decide (rate < 16) && decide (width < 64)
  | .refclkLoss t clk _ => inTide t && decide (clk < 11)
  | .powerWarning t => inTide t
  | .tideBoundary t _ => inTide t
  | .retrainWindowEnd t stack chan => inTide t && decide (stack < 6) && decide (chan < 32)
  | .dumpRecordWritten t n _ => inTide t && decide (n < 4)
  | .swapBegin t => inTide t
  | .swapHandover t _ => inTide t
  | .swapDone t => inTide t
  | .confirmTimeout t => inTide t
  | .portConditionsChange t port _ => inTide t && decide (port < 64)
  | .linkUp t port => inTide t && decide (port < 64)
  | .linkDown t port => inTide t && decide (port < 64)
  | .frameReceived t port _ frame _ _ _ => inTide t && decide (port < 64) && decide (frame.length ≤ 65535)
  | .holdLimitDrop t octet => inTide t && decide (octet < 8)
  | .ingressPipelinePass t pipe _ _ _ => inTide t && decide (pipe < 16)
  | .learnRequestApply t _ => inTide t
  | .flapClear t tab _ => inTide t && decide (tab < 256)
  | .moveWindowEnd t tab _ => inTide t && decide (tab < 256)
  | .sweepVisit t tab _ => inTide t && decide (tab < 256)
  | .comparePageVisit t tab _ unc _ => inTide t && decide (tab < 256) && (match unc with | some b => decide (b < 32) | none => true)
  | .twinPageRepair t tab _ _ => inTide t && decide (tab < 256)
  | .epochRetire t seg => inTide t && decide (seg < 2)
  | .epochStale t seg => inTide t && decide (seg < 2)
  | .thermalSensorRead t region _ => inTide t && decide (region < 4)
  | .streamUnitFrame t octet => inTide t && decide (octet < 8)
  | .frerResetTimeout t ctx => inTide t && decide (ctx < 2 ^ 20)
  | .bufferAllocate t pool _ => inTide t && decide (pool < 2)
  | .bufferRelease t pool _ _ unit => inTide t && decide (pool < 2) && decide (unit < 65536)
  | .bufferReplicate t pool _ _ => inTide t && decide (pool < 2)
  | .partitionShort t slot => inTide t && decide (slot < 8)
  | .queueEnqueue t _ _ => inTide t
  | .schedulerSelect t port => inTide t && decide (port < 65)
  | .shaperRecovered t h => inTide t && decide (h < 2 ^ 32)
  | .samplerVisit t q => inTide t && decide (q < 2 ^ 20)
  | .gateListStarted t port => inTide t && decide (port < 64)
  | .egressPipelinePass t port => inTide t && decide (port < 64)
  | .frameLaunch t port _ => inTide t && decide (port < 64)
  | .macTransmitFrame t port _ _ => inTide t && decide (port < 64)
  | .tsrMergerWrite t port => inTide t && decide (port < 64)
  | .defectSet t h _ _ => inTide t && decide (h < 2 ^ 32)
  | .defectClear t h _ _ => inTide t && decide (h < 2 ^ 32)
  | .traceAccepted t h _ => inTide t && decide (h < 2 ^ 32)
  | .timPersistenceExpiry t h => inTide t && decide (h < 2 ^ 32)
  | .holdoffExpiry t group => inTide t && decide (group < 2 ^ 24)
  | .wtrExpiry t group => inTide t && decide (group < 2 ^ 24)
  | .apsKBytesAccepted t group k1 k2 => inTide t && decide (group < 2 ^ 24) && decide (k1 < 256) && decide (k2 < 256)
  | .apsBridgeTimeout t group => inTide t && decide (group < 2 ^ 24)
  | .vc12FrameComplete t circuit path frame => inTide t && decide (circuit < 16384) && decide (path < 2 ^ 32) && decide (frame.length = 32)
  | .pseudowireReceived t circuit _ => inTide t && decide (circuit < 16384)
  | .circuitPlayout t circuit _ => inTide t && decide (circuit < 16384)
  | .lopsSet t circuit => inTide t && decide (circuit < 16384)
  | .fabricLaneState t lane _ _ cause => inTide t && decide (lane < 96) && decide (cause < 256)
  | .fabricCellTransmit t lane => inTide t && decide (lane < 96)
  | .fabricCellReceived t lane cell _ => inTide t && decide (lane < 96) && decide (cell.length = 272)
  | .reorderTimeout t dev _ => inTide t && decide (dev < 1024)
  | .statusMessageReceived t lane flit _ => inTide t && decide (lane < 96) && decide (flit.length = 16)
  | .statusRefresh t q => inTide t && decide (q < 2 ^ 20)
  | .tokenMessageReceived t lane flit _ => inTide t && decide (lane < 96) && decide (flit.length = 16)
  | .creditTokenIssue t dest => inTide t && decide (dest < 65)
  | .reachabilityReceived t lane flit _ => inTide t && decide (lane < 96) && decide (flit.length = 16)
  | .phaseSlewDone t => inTide t
  | .timeStepApply t _ => inTide t
  | .tideInFrame t _ _ _ _ _ _ => inTide t
  | .tideInLost t => inTide t
  | .ppsInCapture t => inTide t
  | .ppsOutEdge t => inTide t
  | .todTxMessage t => inTide t
  | .todRx t _ _ => inTide t
  | .hbmRequest t stack _ _ _ res _ _ _ _ _ => inTide t && decide (stack < 6) && decide (res < 4)
  | .scrubRead t stack _ res => inTide t && decide (stack < 6) && decide (res < 4)
  | .rankMigrated t stack _ => inTide t && decide (stack < 6)
  | .ceWindowEnd t stack rank => inTide t && decide (stack < 6) && decide (rank < 128)
  | .hbmTemp t stack _ => inTide t && decide (stack < 6)
  | .hawserLinkState t _ lane cause => inTide t && decide (lane < 16) && decide (cause < 256)
  | .hawserRecordReceived t _ _ _ => inTide t
  | .detFrameRecord t => inTide t
  | .checkpointApply t => inTide t
  | .configurationRecord t => inTide t
  | .commitAckTimeout t slot => inTide t && decide (slot < 8)
  | .completionSummaryTrim t => inTide t
  | .timeExchange t => inTide t
  | .manifestCompare t => inTide t
  | .refereeRun t => inTide t
  | .heartbeatLost t => inTide t
  | .healthQueryTimeout t => inTide t
  | .mooringToggle t => inTide t
  | .killInRise t _ => inTide t
  | .killInFall t => inTide t
  | .takeoverDecided t => inTide t
  | .takeoverActivate t => inTide t
  | .switchFailed t => inTide t
  | .bulkCopyDone t => inTide t
  | .twinWarm t => inTide t
  | .autoJoin t => inTide t
  | .rxFrameDelivery t ring _ => inTide t && decide (ring < 64)
  | .txRingFrame t _ => inTide t
  | .dmaError t src _ => inTide t && decide (src < 130)
  | .eventRecordWrite t => inTide t
  | .msixModerationTimeout t src => inTide t && decide (src < 130)
  | .domainEnterFloor t d => inTide t && decide (d < 80)
  | .domainWake t d _ => inTide t && decide (d < 80)
  | .domainWakeDone t d => inTide t && decide (d < 80)
  | .deconcentrate t k => inTide t && decide (k < 8)
  | .soundingStart t d => inTide t && decide (d < 80)
  | .soundingWithdrawn t => inTide t
  | .soundingPostponed t => inTide t
  | .soundingTestDone t _ _ => inTide t
  | .soundingOverdue t d => inTide t && decide (d < 82)
  | .errorDetected t unit _ _ => inTide t && decide (unit < 65536)
  | .clusterRestored t d => inTide t && decide (d < 80)
  | .mpcFailed t cause => inTide t && decide (cause < 4)
  | .mpcRecovered t => inTide t
  | .pilotLockstepMismatch t => inTide t
  | .pilotWatchdogExpiry t => inTide t
  | .lastBreathReceived t => inTide t
  | .packageReset t _ => inTide t
  | .mooringInputEdge t => inTide t
  | .aonPowerCycle t => inTide t
  | .trstNAssert t => inTide t
  | .sampleMpc t n _ => inTide t && decide (n < 16)
  | .flushWalkerVisit t _ tab _ => inTide t && decide (tab < 256)

end Sys2Proof
end

