-- ==== Sys2Proof/Certificates/Slice0/Obligations.lean ====
section
/-! DEFINITION. The statements for the provers. Each names the rules it rests on; a clause of the form Runs, Reads, Sets, Starts, Makes or
Happens says that exec answers a next state and which one (Sys2Proof/Safety.lean), so that it is a completion statement and a frame
statement in one: what the named next state does not change is unchanged. -/

open Sys2Proof Sys2Proof.Machine

/-- A step takes the command at the front of the queue and is exec of it on the state with the queue's rest. On an empty queue the block
idles, which is the model's choice (log 1). -/
def Obligations.StepRunsTheFrontCommand : Prop :=
  (∀ i s, step { s with pending := i :: s.pending } = exec i s) ∧ ∀ s, s.pending = [] → step s = .next s

/-- What reset leaves where the spec gives a value: the time base starts at 0 in FREE (R332, R335), FW_STATE reads 0, booting, the
doorbell and event registers read 0 (Table 15-3), no object, transaction or stream exists, every counter is 0 (R67) and no retained fault
is recorded. That the lifecycle state is a legal one, that the memories list nothing and that no command waits are the model's choices
(logs 5 and 6). -/
def Obligations.ResetIsBooting : Prop :=
  State.reset.tm.tide = 0 ∧ State.reset.tm.tideStart = 0 ∧ State.reset.tm.sub = 0 ∧ State.reset.tm.st = 0
  ∧ State.reset.id.fwState = 0 ∧ State.reset.id.fwVersion = 0 ∧ State.reset.host.mbDone = 0#32 ∧ State.reset.host.lockViol = 0#32
  ∧ State.reset.host.tsrProducer = 0#32 ∧ State.reset.ctr = [] ∧ State.reset.circuits = []
  ∧ txns State.reset = [] ∧ LifecycleLegal State.reset ∧ State.reset.host.mem.wf = true ∧ State.reset.ecs.mem.wf = true
  ∧ State.reset.wire = [] ∧ State.reset.pending = []

/-- Completion of mailbox m, when its response is not discarded (R442): the response block is written from word 8, envelope words 5 to 7
hold the status, the response length with the tag, and the tide number, every other byte of the mailbox memory keeps its contents, but for
the request block of a MACSEC.SA_INSTALL, which is zeroed (R73), MB_DONE has bit m set and its other bits as they were, and PF0 vector m
is signalled once. -/
def Obligations.CompletionFillsTheMailbox : Prop :=
  ∀ m tag st resp s, m < 32 → (s.ecs.mbs.getD m {}).discard = false →
    (∀ i (h : i < resp.length), mailboxWord (complete m tag st resp s) m (8 + i) = resp[i])
    ∧ mailboxWord (complete m tag st resp s) m 5 = toWord st
    ∧ mailboxWord (complete m tag st resp s) m 6 = toWord (resp.length + tag * 65536)
    ∧ mailboxWord (complete m tag st resp s) m 7 = toWord s.tm.tide
    ∧ (∀ a, a < m * 4096 + 20 ∨ m * 4096 + 32 + 4 * resp.length ≤ a →
        (wiped s m a → mread (complete m tag st resp s).ecs.mem a = 0#8)
        ∧ (¬wiped s m a → mread (complete m tag st resp s).ecs.mem a = mread s.ecs.mem a))
    ∧ (complete m tag st resp s).host.mbDone.getLsbD m = true
    ∧ (∀ j, j ≠ m → (complete m tag st resp s).host.mbDone.getLsbD j = s.host.mbDone.getLsbD j)
    ∧ signalledOnce m s (complete m tag st resp s)

/-- A command that fails a check of R446 completes with the status of the first check that fails, in the order BUSY, BAD_LENGTH,
NOT_PERMITTED, NOT_ACTIVE, TXN_UNKNOWN, and has no effect of its own. It holds of every command i that runs as k, in a mailbox that the
host owns, while firmware serves it. -/
def Obligations.RefusedCommandsComplete : Prop :=
  ∀ i k c q s st, (∀ u, exec i u = .next (runCommand k c q u)) → (∃ b, s.ecs.mbs[c.mb]? = some b ∧ b.owned = false) → served k s = true →
    refuse k c q (checked k c q s) = some st →
    exec i s = .next (complete c.mb c.tag st [] (checked k c q s))
    ∧ ((checked k c q s).id.fwState = 2 → st = stBusy)
    ∧ ((checked k c q s).id.fwState ≠ 2 → q.length < k.need q → st = stBadLength)
    ∧ ((checked k c q s).id.fwState ≠ 2 → k.need q ≤ q.length → q.length ≤ k.most → c.src = .mailbox → q.length ≤ 1016
        → (txnOf c ≠ 0 ∧ k.staging = .never ∨ txnOf c = 0 ∧ k.staging = .must ∨ gateOk k (checked k c q s) = false) → st = stNotPermitted)
    ∧ (st = stNotActive → gateOk k (checked k c q s) = true ∧ activeOk k (checked k c q s) = false)
    ∧ (st = stTxnUnknown → activeOk k (checked k c q s) = true ∧ txnOf c ≠ 0 ∧ txnSlot (checked k c q s) c.txn = none)

/-- LIFECYCLE.KEY_REVOKE revokes one image key slot in the fuses (R502). It is served only in DRYDOCK, and it refuses with NOT_PERMITTED
the revocation of the key slot of the image in the preferred slot, and the revocation of the last slot not yet revoked. -/
def Obligations.KeyRevokeRevokesOneSlot : Prop :=
  ∀ c q s, c.mb < 32 → (s.ecs.mbs.getD c.mb {}).discard = false →
    (Ready cmdLifecycleKeyRevoke c q s = true → (slotAt s s.flash.pref).key ≠ fld q 0 1 0
      → (∃ j, j < 4 ∧ j ≠ fld q 0 1 0 ∧ bit s.flash.revoked j = false)
      → ∃ t, exec (.lifecycleKeyRevoke c q) s = .next t ∧ mailboxWord t c.mb 5 = toWord stOk
          ∧ (∀ j, bit t.flash.revoked j = (bit s.flash.revoked j || decide (j = fld q 0 1 0))))
    ∧ (Ready cmdLifecycleKeyRevoke c q s = true → (slotAt s s.flash.pref).key = fld q 0 1 0
        ∨ (bit s.flash.revoked (fld q 0 1 0) = false ∧ ∀ j, j < 4 → j ≠ fld q 0 1 0 → bit s.flash.revoked j = true)
      → ∃ t, exec (.lifecycleKeyRevoke c q) s = .next t ∧ mailboxWord t c.mb 5 = toWord stNotPermitted ∧ t.flash = s.flash)
    ∧ ((∃ b, s.ecs.mbs[c.mb]? = some b ∧ b.owned = false) → served cmdLifecycleKeyRevoke s = true → s.id.fwState ≠ 2 → c.src = .mailbox
      → 1 ≤ q.length → q.length ≤ 1016 → s.id.lifecycle ≠ 0
      → ∃ t, exec (.lifecycleKeyRevoke c q) s = .next t ∧ mailboxWord t c.mb 5 = toWord stNotPermitted ∧ t.flash = s.flash)

/-- A JTAG instruction that R571 refuses is replaced by BYPASS (R572). -/
def Obligations.RefusedJtagInstructionIsBypass : Prop :=
  ∀ t i s, tapAccepts (s.atTime t) i = false → exec (.jtagInstruction t i) s = exec (.jtagInstruction t 0) s

/-- Every step keeps the lifecycle state one of Table 19-1 (R499), and takes no command from the queue but the one at its front and puts
none there: the queue is the model's own. -/
def Obligations.LifecycleStaysLegal : Prop :=
  ∀ s t, LifecycleLegal s → step s = .next t → LifecycleLegal t ∧ t.pending = s.pending.tail

/-- The lifecycle state moves only as Table 19-2 allows, and only by LIFECYCLE.SET (R500), but for SURVEY, which becomes COMMISSIONED by
itself at the events that end it (R499, R501). -/
def Obligations.LifecycleMovesAreThoseOfTheTable : Prop :=
  ∀ s t, step s = .next t → t.id.lifecycle ≠ s.id.lifecycle → ∃ i rest, s.pending = i :: rest ∧
    (((∃ c q, i = .lifecycleSet c q) ∧ TableMove s.id.lifecycle t.id.lifecycle)
      ∨ (EndsSurvey i ∧ s.id.lifecycle = 2 ∧ t.id.lifecycle = 1))

/-- STREAM.CREATE and STREAM.SET complete with DEADLINE_UNMET, with component 1, when D is below the fixed path latency of the profile,
direct and staged alike (R297): a word of the response holds the status and the component (Table 10-6, word 0), and nothing else changes.
That the settings and handles of the request are judged before is a hypothesis here (log 56). -/
def Obligations.DeadlineBelowTheFixedPathIsUnmet : Prop :=
  (∀ c q s, Ready cmdStreamCreate c q s = true → let u := accepted cmdStreamCreate c q s
    streamRangeOk u q (streamIn q) = true → streamKnown ⟨.direct, c.mb, 0, 0, false⟩ u (streamIn q) = true →
    (streamIn q).d < fixedPath u.fwd.profile →
    ∃ resp, exec (.streamCreate c q) s = .next (complete c.mb c.tag stDeadlineUnmet resp u)
      ∧ ∃ w ∈ resp, bits w.toNat 15 0 = stDeadlineUnmet ∧ bits w.toNat 23 16 = 1)
  ∧ (∀ c q s i x, stageReady cmdStreamCreate c q s i x → let u := taken cmdStreamCreate c q s
    streamRangeOk u q (streamIn q) = true → streamKnown ⟨.stage, c.mb, c.txn, 0, false⟩ u (streamIn q) = true →
    (streamIn q).d < fixedPath u.fwd.profile →
    ∃ resp, exec (.streamCreate c q) s = .next (complete c.mb c.tag stDeadlineUnmet resp u)
      ∧ ∃ w ∈ resp, bits w.toNat 15 0 = stDeadlineUnmet ∧ bits w.toNat 23 16 = 1)
  ∧ (∀ c q s, Ready cmdStreamSet c q s = true → let u := accepted cmdStreamSet c q s
    (streamAt u (wd q 0)).isSome = true → streamRangeOk u (q.drop 1) (streamIn (q.drop 1)) = true →
    streamKnown ⟨.direct, c.mb, 0, 0, false⟩ u (streamIn (q.drop 1)) = true → (streamIn (q.drop 1)).d < fixedPath u.fwd.profile →
    ∃ resp, exec (.streamSet c q) s = .next (complete c.mb c.tag stDeadlineUnmet resp u)
      ∧ ∃ w ∈ resp, bits w.toNat 15 0 = stDeadlineUnmet ∧ bits w.toNat 23 16 = 1)
  ∧ ∀ c q s i x, stageReady cmdStreamSet c q s i x → let u := taken cmdStreamSet c q s
    ((streamAt u (wd q 0)).isSome = true ∨ (hType (wd q 0) = 0xB0 ∧ (wd q 0, c.txn) ∈ u.ecs.reserved)) →
    streamRangeOk u (q.drop 1) (streamIn (q.drop 1)) = true →
    streamKnown ⟨.stage, c.mb, c.txn, 0, false⟩ u (streamIn (q.drop 1)) = true → (streamIn (q.drop 1)).d < fixedPath u.fwd.profile →
    ∃ resp, exec (.streamSet c q) s = .next (complete c.mb c.tag stDeadlineUnmet resp u)
      ∧ ∃ w ∈ resp, bits w.toNat 15 0 = stDeadlineUnmet ∧ bits w.toNat 23 16 = 1

/-- DEVICE and TXN commands complete with OK: DEVICE.INFO answers the identity registers, DEVICE.MAILBOX_SET sets a mask from mailbox 0,
DEVICE.MAILBOX_GET reads one back, DEVICE.ECHO answers its words, TXN.BEGIN opens the lowest free slot, TXN.ROLLBACK closes an open
transaction, TXN.STATUS and TXN.LIST read (R441, R448, R453, R457, R459, R460). The model's choice: that one row stands for the whole
exchange (log 4), and where the spec leaves a corner open what log 76 says. -/
def Obligations.DeviceAndTxnCommandsComplete : Prop :=
  Reads cmdDeviceInfo .deviceInfo (fun _ _ => True) (fun _ u => [toWord (regId u), toWord u.id.fwVersion, Config.udn.setWidth 32,
      (Config.udn >>> 32).setWidth 32, 0x0003#32, 0x01#32])
  ∧ Runs stOk cmdDeviceMailboxSet .deviceMailboxSet
      (fun c q _ => c.mb = 0 ∧ fld q 0 4 0 ≠ 0 ∧ bit (wd q 1) 0 = false ∧ wd q 1 < 2 ^ 22) (fun _ _ _ => []) (fun _ _ _ => 0)
      (fun _ q u => putMb (fld q 0 4 0) { u.ecs.mbs.getD (fld q 0 4 0) {} with mask := wd q 1, readOnly := flag q 2 0 } u)
  ∧ Reads cmdDeviceMailboxGet .deviceMailboxGet (fun q _ => fld q 0 4 0 ≠ 0)
      (fun q u => [toWord (u.ecs.mbs.getD (fld q 0 4 0) {}).mask, toWord (b2n (u.ecs.mbs.getD (fld q 0 4 0) {}).readOnly)])
  ∧ Reads cmdDeviceEcho .deviceEcho (fun _ _ => True) (fun q _ => q)
  ∧ (∀ i h x, Runs stOk cmdTxnBegin .txnBegin
      (fun _ _ u => ((List.range 8).find? fun i => (txnAt u i).isNone) = some i ∧ txnAt (openTxn i u) i = some (h, x))
      (fun _ _ _ => [toWord h]) (fun _ _ _ => 0) (fun _ _ u => toTwin (.opened h) (openTxn i u)))
  ∧ Sets cmdTxnRollback .txnRollback (fun q u => ∃ i x, txnSlot u (wd q 0) = some (i, x) ∧ x.phase = 0)
      (fun q u => toTwin (.rolledBack (wd q 0)) (unreserve (wd q 0) (putTxn (wd q 0 % 8) none u)))
  ∧ (∀ i x, Reads cmdTxnStatus .txnStatus (fun q u => txnSlot u (wd q 0) = some (i, x))
      (fun _ _ => [toWord x.phase, toWord x.count, toWord x.bytes] ++ toWords (if x.phase = 2 then x.c else 0) 2))
  ∧ Reads cmdTxnList .txnList (fun _ _ => True)
      (fun _ u => (List.range 8).map fun i => match txnAt u i with | some (h, _) => toWord h | none => 0#32)

/-- PARSER.LOAD is staged (R139, R452, R453): in an open transaction it completes with OK and joins the transaction's operations, and at
the commit it writes its entries into the transaction's configuration. The model's choice: that one row stands for the whole exchange (log
4), and where the spec leaves a corner open what log 43 says. -/
def Obligations.ParserLoadIsStaged : Prop :=
  (∀ c q s i x, stageReady cmdParserLoad c q s i x → fld q 0 1 0 ≠ 3 → fld q 0 12 2 + fld q 0 22 13 ≤ parserSize (fld q 0 1 0) →
    (∀ j < fld q 0 22 13, parserEntryOk (fld q 0 1 0) (wordsAt q (1 + j * parserWords (fld q 0 1 0)) (parserWords (fld q 0 1 0))) = true) →
    exec (.parserLoad c q) s = .next (complete c.mb c.tag stOk [] (stagedIn cmdParserLoad c q i x (taken cmdParserLoad c q s))))
  ∧ ∀ (m h : Nat) (pre : Bool) (q : List Word) (u : State), fld q 0 1 0 ≠ 3 → fld q 0 12 2 + fld q 0 22 13 ≤ parserSize (fld q 0 1 0) →
    (∀ j < fld q 0 22 13, parserEntryOk (fld q 0 1 0) (wordsAt q (1 + j * parserWords (fld q 0 1 0)) (parserWords (fld q 0 1 0))) = true) →
    actParserLoad ⟨.commit, m, h, 0, pre⟩ q u =
      done (setCfg true (fun c =>
        let put (t : Tab (List Word)) : Tab (List Word) := (List.range (fld q 0 22 13)).foldl (fun t j =>
          tset t (fld q 0 12 2 + j) (wordsAt q (1 + j * parserWords (fld q 0 1 0)) (parserWords (fld q 0 1 0)))) t
        if fld q 0 1 0 = 0 then { c with nodes := put c.nodes }
        else if fld q 0 1 0 = 1 then { c with trans := put c.trans } else { c with extr := put c.extr }) u)

/-- TXN.COMMIT begins a commit (R455, R456): from a mailbox that the host owns, of an open transaction that names no tide or one more than
two tides ahead, the transaction begins its preparation at the tide named, at the tide that its gate lists need, or at none yet, its
objects are marked, and the mailbox stays owned. The model's choice: that one row stands for the whole exchange (log 4), and where the
spec leaves a corner open what log 76 says. -/
def Obligations.TxnCommitBeginsPreparation : Prop :=
  ∀ c q s i x, (∃ b, s.ecs.mbs[c.mb]? = some b ∧ b.owned = false) → served cmdTxnCommit s = true →
    refuse cmdTxnCommit c q (taken cmdTxnCommit c q s) = none → txnSlot (taken cmdTxnCommit c q s) (wd q 0) = some (i, x) →
    x.phase = 0 → (flag q 1 0 = true → s.tm.tide + 2 < wd64 q 2) →
    ∃ v fixed, exec (.txnCommit c q) s = .next v
      ∧ v = toTwin (.commit (wd q 0) fixed) (markCommit (wd q 0) x.objs (putTxn i
          (some { x with phase := 1, c := fixed, named := flag q 1 0 || stagesGates x, mb := c.mb }) (taken cmdTxnCommit c q s)))
      ∧ (flag q 1 0 = true → fixed = wd64 q 2)
      ∧ (flag q 1 0 = false → stagesGates x = false → fixed = 0)
      ∧ (flag q 1 0 = false → stagesGates x = true →
          fixed = s.tm.tide + ceilDiv (prepBound (wd q 0) x (taken cmdTxnCommit c q s)) 125000 + 3)

/-- PORT and LANE commands complete with OK (R52 to R60, R67, R68, R77, R78): a port is created on free lanes, disabled, with its port
node; PORT.DELETE takes it away with its frames and keys; the service and the settings change at the next boundary; a filter entry, a
loopback mode and a lane's settings change at once; status and counters are read. The model's choice: that one row stands for the whole
exchange (log 4), and where the spec leaves a corner open what logs 21, 22, 28, 90, 131 say. -/
def Obligations.PortCommandsComplete : Prop :=
  (∀ mode n rate fecs x fec, Makes cmdPortCreate .portCreate (fun q u => fld q 0 11 8 = mode ∧ ethMode mode = some (n, rate, fecs, x)
        ∧ fec = (if fld q 0 15 12 = 0xF then fecs.headD 0 else fld q 0 15 12) ∧ fecs.contains fec = true ∧ portCfgOk (portCfgOf q) = true
        ∧ laneFree (laneUses u) (fld q 0 5 0) n rate = true)
      (fun q _ => handle 0x30 (fld q 0 5 0))
      (fun q u =>
        let p := fld q 0 5 0
        let y : Port := { mode := mode, fec := fec, training := flag q 0 16, cfg := portCfgOf q, conds := allFailed fec }
        ecmpUpdate (portNodePut p (ethSpeed mode * 1000000) (parseReset p (twinPortNew p { u with
          line := { u.line with ports := tset u.line.ports p y }
          ctr := u.ctr.filter fun e => e.1 / 1024 != 2 ^ 32 + p
          snap := u.snap.filter fun e => e.1 / 1024 != 2 ^ 32 + p })))))
  ∧ (∀ y, Sets cmdPortDelete .portDelete (fun q u => portOf u (wd q 0) = some y)
      (fun q u =>
        let p := hIdx (wd q 0)
        let v := dropSas p (dropPortFrames p (modPort p (fun y => { y with inService := false, pendEn := none }) u))
        ecmpUpdate (protUpdate { v with line := { v.line with ports := terase v.line.ports p } })))
  ∧ (∀ y, Sets cmdPortEnable .portEnable (fun q u => portOf u (wd q 0) = some y ∧ y.loop = 0)
      (fun q u => modPort (hIdx (wd q 0)) (fun y => { y with pendEn := some true }) u))
  ∧ (∀ y, Sets cmdPortDisable .portDisable (fun q u => portOf u (wd q 0) = some y)
      (fun q u => modPort (hIdx (wd q 0)) (fun y => { y with pendEn := some false }) u))
  ∧ (∀ y, Sets cmdPortSet .portSet (fun q u => portOf u (wd q 0) = some y ∧ portCfgOk (portCfgOf q) = true)
      (fun q u => modPort (hIdx (wd q 0)) (fun y => { y with pendCfg := some (portCfgOf q) }) u))
  ∧ (∀ y, Sets cmdPortFilterSet .portFilterSet (fun q u => portOf u (wd q 0) = some y)
      (fun q u => modPort (hIdx (wd q 0)) (fun y => { y with
        filter := y.filter.set (fld q 1 2 0) (wd q 2 + 2 ^ 32 * fld q 3 15 0, flag q 1 3) }) u))
  ∧ (∀ y, Reads cmdPortStatus .portStatus (fun q u => portOf u (wd q 0) = some y)
      (fun _ _ => toWord (b2n y.up + 2 * b2n (bit y.conds 4) + 4 * b2n (bit y.conds 5) + 8 * b2n y.degrade + 16 * b2n y.clearMode
        + 32 * b2n y.inService) :: toWords y.declTide 2))
  ∧ (∀ y, Runs stOk cmdPortCounters .portCounters (fun _ q u => portOf u (wd q 0) = some y)
      (fun _ q u => ctrWords (if flag q 1 0 then u.snap else u.ctr) 1 (hIdx (wd q 0)) (List.range 45)) (fun _ _ _ => 0)
      (fun _ q u => if y.clearMode ∧ flag q 1 0 = false then ctrClear 1 (hIdx (wd q 0)) (List.range 45) u else u))
  ∧ (∀ y, Sets cmdPortLoopback .portLoopback (fun q u => portOf u (wd q 0) = some y ∧ fld q 1 1 0 = 0)
      (fun q u => modPort (hIdx (wd q 0)) (fun y => { y with loop := 0 }) u))
  ∧ (∀ y, Sets cmdPortLoopback .portLoopback
      (fun q u => portOf u (wd q 0) = some y ∧ (fld q 1 1 0 = 1 ∨ fld q 1 1 0 = 2))
      (fun q u => modPort (hIdx (wd q 0)) (fun y => { y with loop := fld q 1 1 0 })
        (if y.loop = fld q 1 1 0 then u else outOfService (hIdx (wd q 0)) 1 u)))
  ∧ (∀ y, Runs stOk cmdPortLoopback .portLoopback (fun _ q u => portOf u (wd q 0) = some y ∧ fld q 1 1 0 = 3)
      (fun _ q u => [toWord (freeVal (if y.loop = 3 ∧ y.prbs13 = flag q 1 2 then u else outOfService (hIdx (wd q 0)) 2 u))]) (fun _ _ _ => 0)
      (fun _ q u => (modPort (hIdx (wd q 0)) (fun y => { y with loop := 3, prbs13 := flag q 1 2 })
        (if y.loop = 3 ∧ y.prbs13 = flag q 1 2 then u else outOfService (hIdx (wd q 0)) 2 u)).took))
  ∧ (∀ old, Sets cmdLaneSet .laneSet (fun q u => u.line.lanes[wd q 0]? = some old
        ∧ (fld q 1 6 4 = old.phys ∨ (laneUses u).any (fun x => x.port / 8 == wd q 0 / 8) = false))
      (fun q u => let new : Lane :=
          { txInv := flag q 1 0, rxInv := flag q 1 1, training := flag q 1 2, phys := fld q 1 6 4, taps := fld q 2 27 0 }
        { u with line := { u.line with lanes := u.line.lanes.set (wd q 0) new } }))

/-- MACSEC commands complete with OK (R72 to R74, R79, R461): the SecY's settings, a key in both stores under the handle of its SA, the
active transmit SA, the deletion of an SA that is not the active one, and the counters. The model's choice: that one row stands for the
whole exchange (log 4), and where the spec leaves a corner open what logs 23, 24, 92, 93, 94 say. -/
def Obligations.MacsecCommandsComplete : Prop :=
  (∀ y, Sets cmdMacsecSecySet .macsecSecySet (fun q u => portOf u (wd q 0) = some y ∧ fld q 1 1 0 ≠ 3 ∧ fld q 1 3 2 ≠ 3 ∧ fld q 1 7 6 ≠ 3
        ∧ wd64 q 5 ≠ 0 ∧ (fld q 1 1 0 = 2 → wd q 2 ≤ 2 ^ 30) ∧ (fld q 1 1 0 ≠ 2 → wd q 6 = 0)
        ∧ (fld q 1 1 0 = y.secY.cipher ∨ hasSa (hIdx (wd q 0)) u = false)
        ∧ (fld q 1 1 0 = 0 ∨ flag q 1 9 = false ∨ (y.filter.getD 0 (0, false)).1 ≠ 0))
      (fun q u =>
        let x : SecY := {
          cipher := fld q 1 1 0, confOff := fld q 1 3 2, integ := flag q 1 4, sciIn := flag q 1 5
          validate := fld q 1 7 6, replay := flag q 1 8, window := wd q 2
          txSci := if flag q 1 9 then (y.filter.getD 0 (0, false)).1 * 65536 + 1 else wd64 q 3, pnThr := wd64 q 5
          bypass := [(fld q 7 15 0, flag q 9 0), (fld q 7 31 16, flag q 9 1), (fld q 8 15 0, flag q 9 2), (fld q 8 31 16, flag q 9 3)] }
        modPort (hIdx (wd q 0)) (fun y => { y with secY := x }) u))
  ∧ (∀ y, Makes cmdMacsecSaInstall .macsecSaInstall (fun q u => portOf u (wd q 0) = some y
        ∧ thas u.line.sas (saIndex (hIdx (wd q 0)) (flag q 1 0) (if flag q 1 0 then 0 else fld q 1 11 8) (fld q 1 2 1)) = false)
      (fun q _ => handle 0x31 (saIndex (hIdx (wd q 0)) (flag q 1 0) (if flag q 1 0 then 0 else fld q 1 11 8) (fld q 1 2 1)))
      (fun q u =>
        let sak := wordBytes ((q.drop 10).take 8)
        let sa : Sa := { sci := wd64 q 2, pn := wd64 q 4, ssci := wd q 6, salt := wd64 q 7 + 2 ^ 64 * wd q 9, sak := sak, work := sak }
        let i := saIndex (hIdx (wd q 0)) (flag q 1 0) (if flag q 1 0 then 0 else fld q 1 11 8) (fld q 1 2 1)
        { u with line := { u.line with sas := tset u.line.sas i sa } }))
  ∧ (∀ sa, Sets cmdMacsecSaActivate .macsecSaActivate (fun q u => saOf u (wd q 0) = some sa ∧ bit (hIdx (wd q 0)) 7 = true
        ∧ (u.twin.st ≤ 1 ∨ u.twin.dMode = true))
      (fun q u => modPort (hIdx (wd q 0) / 256) (fun y => { y with activeTx := some (hIdx (wd q 0) % 4) }) u))
  ∧ (∀ sa, Sets cmdMacsecSaDelete .macsecSaDelete (fun q u => saOf u (wd q 0) = some sa
        ∧ ∀ y, tget u.line.ports (hIdx (wd q 0) / 256) = some y → (bit (hIdx (wd q 0)) 7 = false ∨ y.activeTx ≠ some (hIdx (wd q 0) % 4)))
      (fun q u => { u with line := { u.line with sas := terase u.line.sas (hIdx (wd q 0)) } }))
  ∧ (∀ y, Runs stOk cmdMacsecCounters .macsecCounters (fun _ q u => portOf u (wd q 0) = some y)
      (fun _ q u => ctrWords (if flag q 1 0 then u.snap else u.ctr) 1 (hIdx (wd q 0)) (List.range' 64 9)) (fun _ _ _ => 0)
      (fun _ q u => if y.clearMode ∧ flag q 1 0 = false then ctrClear 1 (hIdx (wd q 0)) (List.range' 64 9) u else u))
  ∧ (∀ sa, Runs stOk cmdMacsecCounters .macsecCounters (fun _ q u => portOf u (wd q 0) = none ∧ saOf u (wd q 0) = some sa)
      (fun _ q u => (List.range' 80 14).flatMap fun k =>
        if (if bit (hIdx (wd q 0)) 7 then 90 ≤ k else k < 90)
        then toWords (tgetD (if flag q 1 0 then u.snap else u.ctr) (ctrKey 1 (hIdx (wd q 0) / 256) (saCtrIndex (hIdx (wd q 0)) k)) 0) 2
        else [0#32, 0#32]) (fun _ _ _ => 0)
      (fun _ q u => if (match tget u.line.ports (hIdx (wd q 0) / 256) with | some y => y.clearMode | none => false) && !flag q 1 0
        then ctrClear 1 (hIdx (wd q 0) / 256)
          ((if bit (hIdx (wd q 0)) 7 then List.range' 90 4 else List.range' 80 10).map (saCtrIndex (hIdx (wd q 0)))) u else u))

/-- TPORT commands complete with OK (R82 to R84, R101): a port on free lanes within the transport totals, its deletion while it serves
nothing, and its enable and disable, which stand at the next tide. The model's choice: that one row stands for the whole exchange (log 4),
and where the spec leaves a corner open what logs 26, 29 say. -/
def Obligations.TransportPortCommandsComplete : Prop :=
  (∀ n rate sl stm, Makes cmdTportCreate .tportCreate (fun q u => tpMode (fld q 0 15 8) = some (n, rate, sl, stm)
        ∧ laneFree (laneUses u) (fld q 0 5 0) n rate = true ∧ otucSum u + sl ≤ 32 ∧ stmSum u + stm ≤ 256)
      (fun q _ => handle 0x32 (fld q 0 5 0))
      (fun q u =>
        let y : TPort := { mode := fld q 0 15 8, loopTiming := flag q 0 16, s1 := fld q 1 7 0 }
        portNodePut (fld q 0 5 0) (Config.tportRate (fld q 0 15 8)) (parseReset (fld q 0 5 0) (twinPortNew (fld q 0 5 0)
          { u with tr := { u.tr with ports := tset u.tr.ports (fld q 0 5 0) y } }))))
  ∧ (∀ y, Sets cmdTportDelete .tportDelete (fun q u => hType (wd q 0) = 0x32 ∧ tget u.tr.ports (hIdx (wd q 0)) = some y
        ∧ inGroup u (handle 0x32 (hIdx (wd q 0))) = false ∧ childrenOf u (handle 0x32 (hIdx (wd q 0))) = [])
      (fun q u => { u with tr := { u.tr with ports := terase u.tr.ports (hIdx (wd q 0)) } }))
  ∧ (∀ y, Sets cmdTportEnable .tportEnable (fun q u => hType (wd q 0) = 0x32 ∧ tget u.tr.ports (hIdx (wd q 0)) = some y)
      (fun q u => modTport (hIdx (wd q 0)) (fun y => { y with pendEn := some true }) u))
  ∧ (∀ y, Sets cmdTportDisable .tportDisable (fun q u => hType (wd q 0) = 0x32 ∧ tget u.tr.ports (hIdx (wd q 0)) = some y)
      (fun q u => modTport (hIdx (wd q 0)) (fun y => { y with pendEn := some false }) u))

/-- ODU and SDH path commands complete with OK (R88 to R92, Tables 3-3, 3-4 and 3-14): an ODU without and with a packet client in free
tributary slots of its server, a VC-4 or VC-3 at a free AU, a VC-12 at a free TU, and their deletion. The model's choice: that one row
stands for the whole exchange (log 4), and where the spec leaves a corner open what logs 31, 95, 126 say. -/
def Obligations.TransportPathCommandsComplete : Prop :=
  (∀ v i, Runs stOk cmdOduCreate .oduCreate (fun _ q u =>
        (hType (wd q 0) = 0x32 ∨ hType (wd q 0) = 0x40) ∧ objExists u (wd q 0) = true ∧ fld q 1 3 0 ≤ 6 ∧ fld q 1 7 4 ≤ 3
        ∧ (fld q 1 7 4 = 0 ∨ termKind (fld q 1 7 4) = some (fld q 1 3 0)) ∧ 1 ≤ fld q 1 16 8 ∧ fld q 1 16 8 ≤ 320
        ∧ popCount (slotBits q) 320 = fld q 1 16 8 ∧ oduServer u (wd q 0) (fld q 1 3 0) = some v
        ∧ v.kinds.contains (fld q 1 3 0) = true ∧ v.depth ≤ 2 ∧ slotBits q < 2 ^ v.slots
        ∧ (u.tr.odus.any fun e => e.2.server == wd q 0 && Nat.land e.2.slots (slotBits q) != 0) = false
        ∧ stmSum u + termStm (fld q 1 7 4) ≤ 256 ∧ lowestFreeBut u.tr.odus (reservedIdx u 0x40) 4096 = some i)
      (fun _ _ _ => [toWord (handle 0x40 i), 0#32]) (fun _ _ _ => handle 0x40 i)
      (fun _ q u =>
        let o : Odu := {
          server := wd q 0, kind := fld q 1 3 0, term := fld q 1 7 4, slots := slotBits q, tpn := fld q 12 8 0, expPt := fld q 13 7 0,
          client := none }
        clientsUpdate (spreadSsf 2 (handle 0x40 i) (putDefect (handle 0x40 i) 12 (downFail u (wd q 0))
          { u with tr := { u.tr with odus := tset u.tr.odus i o } }))))
  ∧ (∀ v i ci, Runs stOk cmdOduCreate .oduCreate (fun _ q u =>
        (hType (wd q 0) = 0x32 ∨ hType (wd q 0) = 0x40) ∧ objExists u (wd q 0) = true ∧ fld q 1 3 0 ≤ 6 ∧ 4 ≤ fld q 1 7 4
        ∧ termKind (fld q 1 7 4) = some (fld q 1 3 0) ∧ 1 ≤ fld q 1 16 8 ∧ fld q 1 16 8 ≤ (if fld q 1 7 4 = 7 then 80 else 320)
        ∧ popCount (slotBits q) 320 = fld q 1 16 8 ∧ oduServer u (wd q 0) (fld q 1 3 0) = some v
        ∧ v.kinds.contains (fld q 1 3 0) = true ∧ v.depth ≤ 2 ∧ slotBits q < 2 ^ v.slots
        ∧ (u.tr.odus.any fun e => e.2.server == wd q 0 && Nat.land e.2.slots (slotBits q) != 0) = false
        ∧ stmSum u + termStm (fld q 1 7 4) ≤ 256 ∧ lowestFreeBut u.tr.odus (reservedIdx u 0x40) 4096 = some i
        ∧ lowestFreeBut u.tr.clients (reservedIdx u 0x43) 256 = some ci ∧ clientNodeFree (oduPort u 5 (wd q 0)) u = true)
      (fun _ _ _ => [toWord (handle 0x40 i), toWord (ci + 2 ^ 31)]) (fun _ _ _ => handle 0x40 i)
      (fun _ q u =>
        let o : Odu := {
          server := wd q 0, kind := fld q 1 3 0, term := fld q 1 7 4, slots := slotBits q, tpn := fld q 12 8 0, expPt := fld q 13 7 0,
          client := some ci }
        clientsUpdate (spreadSsf 2 (handle 0x40 i) (putDefect (handle 0x40 i) 12 (downFail u (wd q 0)) (clientNodePut (oduPort u 5 (wd q 0)) ci
          (clientRate o) (clientPut ci i { u with tr := { u.tr with odus := tset u.tr.odus i o } }))))))
  ∧ (∀ o, Sets cmdOduDelete .oduDelete (fun q u => hType (wd q 0) = 0x40 ∧ tget u.tr.odus (hIdx (wd q 0)) = some o ∧ o.client = none
        ∧ childrenOf u (wd q 0) = [] ∧ inGroup u (wd q 0) = false ∧ boundCircuit u (wd q 0) = false)
      (fun q u => { u with tr := { u.tr with odus := terase u.tr.odus (hIdx (wd q 0)) } }))
  ∧ (∀ o ci, Sets cmdOduDelete .oduDelete (fun q u => hType (wd q 0) = 0x40 ∧ tget u.tr.odus (hIdx (wd q 0)) = some o
        ∧ o.client = some ci ∧ childrenOf u (wd q 0) = [] ∧ inGroup u (wd q 0) = false ∧ boundCircuit u (wd q 0) = false)
      (fun q u =>
        let s := clientNodeDrop ci u
        { s with tr := { s.tr with odus := terase s.tr.odus (hIdx (wd q 0)), clients := terase u.tr.clients ci } }))
  ∧ (∀ i, Makes cmdSdhPathCreate .sdhPathCreate (fun q u => (hType (wd q 0) = 0x32 ∨ hType (wd q 0) = 0x40) ∧ objExists u (wd q 0) = true
        ∧ ((fld q 1 1 0 = 0 ∧ fld q 1 11 2 < stmOf u (wd q 0)
            ∧ (u.tr.paths.any fun e => e.2.server == wd q 0
              && ((e.2.kind == 0 && e.2.au == fld q 1 11 2) || (e.2.kind == 1 && e.2.au / 3 == fld q 1 11 2))) = false)
          ∨ (fld q 1 1 0 = 1 ∧ fld q 1 11 2 < 3 * stmOf u (wd q 0)
            ∧ (u.tr.paths.any fun e => e.2.server == wd q 0
              && ((e.2.kind == 1 && e.2.au == fld q 1 11 2) || (e.2.kind == 0 && e.2.au == fld q 1 11 2 / 3))) = false))
        ∧ lowestFreeBut u.tr.paths (reservedIdx u 0x41) (2 ^ 24) = some i)
      (fun _ _ => handle 0x41 i)
      (fun q u =>
        let p : Path := {
          server := wd q 0, kind := fld q 1 1 0, au := fld q 1 11 2, tu12 := fld q 1 16 12, tug3 := fld q 1 18 17, label := fld q 2 7 0 }
        putDefect (handle 0x41 i) 12 (downFail u (failFrom u (wd q 0))) { u with tr := { u.tr with paths := tset u.tr.paths i p } }))
  ∧ (∀ i ph y, Makes cmdSdhPathCreate .sdhPathCreate (fun q u => (hType (wd q 0) = 0x32 ∨ hType (wd q 0) = 0x40 ∨ hType (wd q 0) = 0x41)
        ∧ objExists u (wd q 0) = true ∧ fld q 1 1 0 = 2 ∧ fld q 1 16 12 ≤ 20 ∧ fld q 1 18 17 ≤ 2
        ∧ vc12Server u (wd q 0) (fld q 1 11 2) = some (ph, y) ∧ (y.kind = 1 → fld q 1 18 17 = 0)
        ∧ (u.tr.paths.any fun e => e.2.server == ph && e.2.kind == 2 && e.2.tu12 == fld q 1 16 12 && e.2.tug3 == fld q 1 18 17) = false
        ∧ lowestFreeBut u.tr.paths (reservedIdx u 0x41) (2 ^ 24) = some i)
      (fun _ _ => handle 0x41 i)
      (fun q u =>
        let p : Path := {
          server := ph, kind := 2, au := fld q 1 11 2, tu12 := fld q 1 16 12, tug3 := fld q 1 18 17, label := fld q 2 7 0 }
        putDefect (handle 0x41 i) 12 (downFail u (failFrom u ph)) { u with tr := { u.tr with paths := tset u.tr.paths i p } }))
  ∧ (∀ y, Sets cmdSdhPathDelete .sdhPathDelete (fun q u => hType (wd q 0) = 0x41 ∧ tget u.tr.paths (hIdx (wd q 0)) = some y
        ∧ childrenOf u (wd q 0) = [] ∧ inGroup u (wd q 0) = false ∧ boundCircuit u (wd q 0) = false)
      (fun q u => { u with tr := { u.tr with paths := terase u.tr.paths (hIdx (wd q 0)) } }))

/-- TRACE, MON, DEFECT and PM commands complete with OK (R93 to R97, R99, Tables 3-7 to 3-10). The model's choice: that one row stands for
the whole exchange (log 4), and where the spec leaves a corner open what logs 31, 71, 98, 99, 100 say. -/
def Obligations.SupervisionCommandsComplete : Prop :=
  (∀ m, Sets cmdTraceSet .traceSet (fun q u => hType (wd q 0) ≠ 0x44 ∧ monOf u (wd q 0) = some m ∧ traceOk u (wd q 0) (fld q 1 1 0) (fld q 1 4 2) = true
        ∧ fld q 1 23 7 ≤ 80000)
      (fun q u =>
        let tx := wordBytes ((q.drop 2).take 16)
        let ex := wordBytes ((q.drop 18).take 16)
        defectsChanged (wd q 0) (timJudge (wd q 0) (ex != m.expTrace) (modMon (wd q 0) (fun m => { m with
          trFmt := fld q 1 1 0, trMode := fld q 1 4 2, timEn := flag q 1 5, acc5 := flag q 1 6, persist := fld q 1 23 7,
          txTrace := if fld q 1 1 0 = 0 then trace16 (tx.drop 1) else tx, expTrace := ex }) u))))
  ∧ (∀ m, Reads cmdTraceGet .traceGet (fun q u => hType (wd q 0) ≠ 0x44 ∧ monOf u (wd q 0) = some m)
      (fun _ _ => toWord (b2n (bit m.defects 6)) :: packWords ((m.accTrace ++ List.replicate 64 0#8).take 64)))
  ∧ (∀ m, Sets cmdMonSet .monSet (fun q u => hType (wd q 0) ≠ 0x44 ∧ monOf u (wd q 0) = some m ∧ isSdhObj u (wd q 0) = true
        ∧ 3 ≤ fld q 1 14 12 ∧ fld q 1 14 12 ≤ 5 ∧ 5 ≤ fld q 1 19 16 ∧ fld q 1 19 16 ≤ 9)
      (fun q u => defectsChanged (wd q 0) (modMon (wd q 0) (fun m => { m with
        exc := fld q 1 14 12, deg := fld q 1 19 16, excEn := flag q 1 20 }) u)))
  ∧ (∀ m, Sets cmdMonSet .monSet (fun q u => hType (wd q 0) ≠ 0x44 ∧ monOf u (wd q 0) = some m ∧ isSdhObj u (wd q 0) = false
        ∧ 1 ≤ fld q 1 6 0 ∧ fld q 1 6 0 ≤ 100 ∧ 2 ≤ fld q 1 11 8 ∧ fld q 1 11 8 ≤ 10)
      (fun q u => modMon (wd q 0) (fun m => { m with degThr := fld q 1 6 0, degM := fld q 1 11 8 }) u))
  ∧ (∀ m, Reads cmdDefectStatus .defectStatus (fun q u => hType (wd q 0) ≠ 0x44 ∧ monOf u (wd q 0) = some m) (fun q u => [toWord m.defects, toWord (m.rxLabel + 256 * sectS1 u (wd q 0))]))
  ∧ (∀ m, Reads cmdPmRead .pmRead (fun q u => hType (wd q 0) ≠ 0x44 ∧ monOf u (wd q 0) = some m ∧ 1 ≤ fld q 3 9 0 ∧ fld q 3 9 0 ≤ 112
        ∧ ∃ r ∈ m.recs, wd64 q 1 ≤ r.first)
      (fun q _ =>
        let rs := (m.recs.filter fun r => decide (wd64 q 1 ≤ r.first)).take (fld q 3 9 0)
        toWord rs.length :: rs.flatMap pmWords))

/-- PROT commands complete with OK (R102 to R107, Tables 3-11 to 3-13): a group of equal members or of packet objects with their triggers,
its deletion with the worker selected, requests that stand, CLEAR, and the status. The model's choice: that one row stands for the whole
exchange (log 4), and where the spec leaves a corner open what logs 30, 31, 96, 97 say. -/
def Obligations.ProtectionCommandsComplete : Prop :=
  (∀ i, Makes cmdProtCreate .protCreate (fun q u => 1 ≤ fld q 0 3 0 ∧ fld q 0 3 0 ≤ 4 ∧ (flag q 0 4 = true → fld q 0 3 0 = 2)
        ∧ wd q 3 = 0 ∧ wd q 4 = 0 ∧ fld q 5 16 0 ≤ 80000 ∧ fld q 6 22 0 ≤ 5760000
        ∧ objExists u (wd q 1) = true ∧ objExists u (wd q 2) = true ∧ hType (wd q 1) = memberType (fld q 0 3 0)
        ∧ hType (wd q 2) = memberType (fld q 0 3 0) ∧ wd q 1 ≠ wd q 2 ∧ inGroup u (wd q 1) = false ∧ inGroup u (wd q 2) = false
        ∧ membersEqual u (fld q 0 3 0) (wd q 1) (wd q 2) = true ∧ lowestFreeBut u.tr.groups (reservedIdx u 0x42) 4096 = some i)
      (fun _ _ => handle 0x42 i)
      (fun q u =>
        let g : Prot := {
          ty := fld q 0 3 0, bidir := flag q 0 4, revert := flag q 0 5, sdTrig := flag q 0 6, worker := wd q 1, protect := wd q 2,
          trigW := 0, trigP := 0, holdOff := fld q 5 16 0, wtr := fld q 6 22 0 }
        let s1 := { u with tr := { u.tr with groups := tset u.tr.groups i g } }
        if u.twin.st ≤ 1 then protStep i s1 else s1))
  ∧ (∀ i, Makes cmdProtCreate .protCreate (fun q u => fld q 0 3 0 = 5 ∧ flag q 0 4 = false
        ∧ fld q 5 16 0 ≤ 80000 ∧ fld q 6 22 0 ≤ 5760000
        ∧ (hType (wd q 1) = 0x60 ∨ hType (wd q 1) = 0x61) ∧ (hType (wd q 2) = 0x60 ∨ hType (wd q 2) = 0x61)
        ∧ (hType (wd q 3) = 0x30 ∨ hType (wd q 3) = 0x40) ∧ (hType (wd q 4) = 0x30 ∨ hType (wd q 4) = 0x40)
        ∧ objExists u (wd q 1) = true ∧ objExists u (wd q 2) = true ∧ objExists u (wd q 3) = true ∧ objExists u (wd q 4) = true
        ∧ wd q 1 ≠ wd q 2 ∧ inGroup u (wd q 1) = false ∧ inGroup u (wd q 2) = false
        ∧ lowestFreeBut u.tr.groups (reservedIdx u 0x42) 4096 = some i)
      (fun _ _ => handle 0x42 i)
      (fun q u =>
        let g : Prot := {
          ty := 5, bidir := false, revert := flag q 0 5, sdTrig := flag q 0 6, worker := wd q 1, protect := wd q 2,
          trigW := wd q 3, trigP := wd q 4, holdOff := fld q 5 16 0, wtr := fld q 6 22 0 }
        let s1 := { u with tr := { u.tr with groups := tset u.tr.groups i g } }
        if u.twin.st ≤ 1 then protStep i s1 else s1))
  ∧ (∀ g, Sets cmdProtDelete .protDelete (fun q u => hType (wd q 0) = 0x42 ∧ tget u.tr.groups (hIdx (wd q 0)) = some g)
      (fun q u =>
        let s1 := putProt (hIdx (wd q 0)) g { g with side := false } u
        { s1 with tr := { s1.tr with groups := terase s1.tr.groups (hIdx (wd q 0)) } }))
  ∧ (∀ g, Sets cmdProtRequest .protRequest (fun q u => hType (wd q 0) = 0x42 ∧ tget u.tr.groups (hIdx (wd q 0)) = some g
        ∧ 1 ≤ fld q 1 2 0 ∧ fld q 1 2 0 ≤ 5 ∧ (fld q 1 2 0 = 5 → g.ty = 2 ∧ g.bidir = true)
        ∧ requestRank (fld q 1 2 0) ≤ (topRequest g).1)
      (fun q u => putProt (hIdx (wd q 0)) g (protSelect u.tm.bounds (workerBad g)
        (match fld q 1 2 0 with
          | 1 => { g with lo := true }
          | 2 => { g with fs := true }
          | 3 => { g with ms := 1 }
          | 4 => { g with ms := 2 }
          | _ => { g with exer := true })) u))
  ∧ (∀ g, Sets cmdProtRequest .protRequest (fun q u => hType (wd q 0) = 0x42 ∧ tget u.tr.groups (hIdx (wd q 0)) = some g
        ∧ fld q 1 2 0 = 0)
      (fun q u => putProt (hIdx (wd q 0)) g
        (protSelect u.tm.bounds false { g with lo := false, fs := false, ms := 0, exer := false, wtrAt := none }) u))
  ∧ (∀ g, Reads cmdProtStatus .protStatus (fun q u => hType (wd q 0) = 0x42 ∧ tget u.tr.groups (hIdx (wd q 0)) = some g)
      (fun _ u => [toWord (b2n g.side + 2 * g.rank + 32 * b2n (g.fop != 0)),
        toWord (match g.wtrAt with | some e => e - u.tm.bounds | none => 0), toWord (g.rxK1 + 256 * g.rxK2)]))

/-- CIRCUIT commands complete with OK (R109 to R111, R121, R122, R127 to R129, Tables 4-1 and 4-6): a circuit with its counters at 0, its
settings pending for the next tide, its state read back and its deletion. The model's choice: that one row stands for the whole exchange
(log 4), and where the spec leaves a corner open what logs 32, 33, 103, 107 say. -/
def Obligations.CircuitCommandsComplete : Prop :=
  (∀ i, Makes cmdCircuitCreate .circuitCreate (fun q u => circuitCfgOk (circuitCfgOf q) = true
        ∧ hType (wd q 4) = 0x60 ∧ objExists u (wd q 4) = true
        ∧ (hwd q 0 = 0 ∨ (objExists u (hwd q 0) = true ∧ bindable u (hwd q 0) = true ∧ boundCircuit u (hwd q 0) = false))
        ∧ lowestFreeBut u.circuits (reservedIdx u 0x50) 16384 = some i)
      (fun _ _ => handle 0x50 i)
      (fun q u =>
        let y : Circuit := { bound := hwd q 0, cfg := circuitCfgOf q }
        { u with
          ctr := u.ctr.filter fun e => e.1 / 1024 != 2 * 2 ^ 32 + i
          snap := u.snap.filter fun e => e.1 / 1024 != 2 * 2 ^ 32 + i
          circuits := tset u.circuits i y }))
  ∧ (∀ y, Sets cmdCircuitDelete .circuitDelete (fun q u => hType (wd q 0) = 0x50 ∧ tget u.circuits (hIdx (wd q 0)) = some y)
      (fun q u => { u with circuits := terase u.circuits (hIdx (wd q 0)) }))
  ∧ (∀ y, Sets cmdCircuitEnable .circuitEnable (fun q u => hType (wd q 0) = 0x50 ∧ tget u.circuits (hIdx (wd q 0)) = some y)
      (fun q u => modCircuit (hIdx (wd q 0)) (fun c => { c with pendEn := some true }) u))
  ∧ (∀ y, Sets cmdCircuitDisable .circuitDisable (fun q u => hType (wd q 0) = 0x50 ∧ tget u.circuits (hIdx (wd q 0)) = some y)
      (fun q u => modCircuit (hIdx (wd q 0)) (fun c => { c with pendEn := some false }) u))
  ∧ (∀ y, Sets cmdCircuitSet .circuitSet (fun q u => hType (wd q 0) = 0x50 ∧ tget u.circuits (hIdx (wd q 0)) = some y
        ∧ circuitCfgOk (circuitCfgOf q) = true ∧ hType (wd q 4) = 0x60 ∧ objExists u (wd q 4) = true
        ∧ (y.enabled = true → flag q 1 0 = y.cfg.cesop ∧ fld q 1 2 1 = y.cfg.timing ∧ fld q 1 10 5 + 1 = y.cfg.n
          ∧ fld q 1 16 11 + 1 = y.cfg.c ∧ fld q 1 22 17 + 1 = y.cfg.f ∧ wd q 2 = y.cfg.slots))
      (fun q u => modCircuit (hIdx (wd q 0)) (fun c => { c with pendCfg := some (circuitCfgOf q) }) u))
  ∧ (∀ y, Reads cmdCircuitStatus .circuitStatus (fun q u => hType (wd q 0) = 0x50 ∧ tget u.circuits (hIdx (wd q 0)) = some y)
      (fun _ _ => [toWord (b2n y.enabled + 2 * b2n y.playing + 4 * b2n y.lops + 8 * b2n y.lLast + 16 * b2n y.noAlign),
        toWord y.held.length] ++ toWords (unsigned 64 y.p) 2))
  ∧ (∀ y, Runs stOk cmdCircuitCounters .circuitCounters (fun _ q u => hType (wd q 0) = 0x50 ∧ tget u.circuits (hIdx (wd q 0)) = some y)
      (fun _ q u => ctrWords (if flag q 1 0 then u.snap else u.ctr) 2 (hIdx (wd q 0)) (List.range 16)) (fun _ _ _ => 0)
      (fun _ q u => if flag q 1 0 = false ∧ y.clearMode = true then ctrClear 2 (hIdx (wd q 0)) (List.range 16) u else u))
  ∧ (∀ y, Reads cmdCircuitPmRead .circuitPmRead (fun q u => hType (wd q 0) = 0x50 ∧ tget u.circuits (hIdx (wd q 0)) = some y
        ∧ 1 ≤ fld q 3 9 0 ∧ fld q 3 9 0 ≤ 112 ∧ ∃ r ∈ y.recs, wd64 q 1 ≤ r.first)
      (fun q _ =>
        let rs := (y.recs.filter fun r => decide (wd64 q 1 ≤ r.first)).take (fld q 3 9 0)
        toWord rs.length :: rs.flatMap circuitRecWords))

/-- PROFILE, PARSER.PORT_SET, IF.SET and LKP commands complete with OK (R44 to R46, R140 to R142, R164, R179, R185, R585). The model's
choice: that one row stands for the whole exchange (log 4), and where the spec leaves a corner open what logs 37, 43, 112 say. -/
def Obligations.ParserAndLookupCommandsComplete : Prop :=
  Sets cmdProfileSet .profileSet (fun q u => fld q 0 1 0 ≠ 3 ∧ fld q 0 1 0 ≠ u.fwd.profile ∧ portsOff u = true ∧ drained u = true
      ∧ (∀ e ∈ txns u, e.2.phase = 0) ∧ ∀ e ∈ u.tab.dill, e.2.base + 2 ^ e.2.k ≤ bucketsMax (fld q 0 1 0))
    (fun q u => raise 6 1 mpcUnit (pay [(u.fwd.profile, 1), (fld q 0 1 0, 1)]) (modLearn (fun l => { l with slots := [], queue := [] })
      (modFwd (fun w => { w with profile := fld q 0 1 0 }) (discardTables (fld q 0 1 0) (discardTxns 3 u)))))
  ∧ Sets cmdProfileSet .profileSet (fun q u => fld q 0 1 0 ≠ 3 ∧ fld q 0 1 0 = u.fwd.profile ∧ portsOff u = true ∧ drained u = true
      ∧ ∀ e ∈ txns u, e.2.phase = 0) (fun _ u => u)
  ∧ Reads cmdProfileGet .profileGet (fun _ _ => True) (fun _ u => [toWord u.fwd.profile])
  ∧ (∀ k, Sets cmdParserPortSet .parserPortSet (fun q u => parseSource u (wd q 0) = some k ∧ fld q 1 9 8 ≠ 3)
      (fun q u => modFwd (fun w => { w with
        parse := tset w.parse k ⟨fld q 1 7 0, fld q 1 9 8, fld q 1 12 10, flag q 1 13, wd q 2⟩ }) u))
  ∧ Sets cmdIfSet .ifSet (fun q _ => hType (wd q 0) = 0x64 ∧ hIdx (wd q 0) < 262400)
      (fun q u => setCfg false (fun c => { c with
        ifs := tset c.ifs (hIdx (wd q 0)) ⟨flag q 1 20, fld q 1 19 16, fld q 1 15 0, fld q 2 19 0⟩ }) u)
  ∧ Sets cmdLkpKeySet .lkpKeySet (fun q u => hType (wd q 0) = 0x66 ∧ hIdx (wd q 0) < 256 ∧ keySetOk (selectorsOf q) = true
        ∧ ∀ e ∈ u.fwd.cfg.progs, namesKey e.2 (hIdx (wd q 0)) = true → progOk u { u.fwd.cfg with keys := tset u.fwd.cfg.keys (hIdx (wd q 0)) (selectorsOf q) } e.2 = true)
      (fun q u => setCfg false (fun c => { c with keys := tset c.keys (hIdx (wd q 0)) (selectorsOf q) }) u)
  ∧ Sets cmdLkpProgramSet .lkpProgramSet (fun q u => hType (wd q 0) = 0x65 ∧ hIdx (wd q 0) < 4096
        ∧ (hType (wd q 5) = 0x70 ∨ wd q 5 % 16 ≤ 4) ∧ reservedNamed u (progOf q (tgetD u.fwd.cfg.progs (hIdx (wd q 0)) {}).learn) = false
        ∧ progUnknown u (progOf q (tgetD u.fwd.cfg.progs (hIdx (wd q 0)) {}).learn) = false
        ∧ progOk u u.fwd.cfg (progOf q (tgetD u.fwd.cfg.progs (hIdx (wd q 0)) {}).learn) = true)
      (fun q u => setCfg false (fun c => { c with
        progs := tset c.progs (hIdx (wd q 0)) (progOf q (tgetD u.fwd.cfg.progs (hIdx (wd q 0)) {}).learn) }) u)

/-- NH, ENCAP and ECMP commands and HASH.SET complete with OK (R145 to R147, R155, R454): an object under the lowest free index, its
settings, and its deletion while nothing names it. The model's choice: that one row stands for the whole exchange (log 4), and where the
spec leaves a corner open what logs 39, 42, 110 say. -/
def Obligations.NextHopAndEcmpCommandsComplete : Prop :=
  (∀ i, Makes cmdNhCreate .nhCreate (fun q u => (hType (wd q 2) = 0 ∨ (hType (wd q 2) = 0x63 ∧ objExists u (wd q 2) = true))
        ∧ lowestFreeBut u.fwd.cfg.nhs (reservedIdx u 0x60) 1048576 = some i)
      (fun _ _ => handle 0x60 i) (fun q u => setCfg false (fun c => { c with nhs := tset c.nhs i (nhOf q (fld q 0 15 0) 1) }) u))
  ∧ Sets cmdNhSet .nhSet (fun q u => hType (wd q 0) = 0x60 ∧ objExists u (wd q 0) = true
        ∧ (hType (wd q 2) = 0 ∨ (hType (wd q 2) = 0x63 ∧ objExists u (wd q 2) = true)))
      (fun q u => ecmpUpdate (setCfg false (fun c => { c with
        nhs := tmodify c.nhs (hIdx (wd q 0)) fun old => nhOf q old.dsp 1 }) u))
  ∧ Sets cmdNhDelete .nhDelete (fun q u => hType (wd q 0) = 0x60 ∧ objExists u (wd q 0) = true ∧ hopNamed u (wd q 0) = false)
      (fun q u => setCfg false (fun c => { c with nhs := terase c.nhs (hIdx (wd q 0)) }) u)
  ∧ (∀ i, Makes cmdEncapCreate .encapCreate (fun q u => encapKindOk q = true
        ∧ lowestFreeBut u.fwd.cfg.encaps (reservedIdx u 0x63) 262144 = some i)
      (fun _ _ => handle 0x63 i) (fun q u => setCfg false (fun c => { c with
        encaps := tset c.encaps i ⟨fld q 0 3 0, fld q 0 7 4, flag q 0 8, flag q 0 9, wordsAt q 1 40⟩ }) u))
  ∧ Sets cmdEncapDelete .encapDelete (fun q u => hType (wd q 0) = 0x63 ∧ objExists u (wd q 0) = true ∧ hopNamed u (wd q 0) = false)
      (fun q u => setCfg false (fun c => { c with encaps := terase c.encaps (hIdx (wd q 0)) }) u)
  ∧ (∀ i, Makes cmdEcmpCreate .ecmpCreate (fun q u => 1 ≤ fld q 0 9 0 ∧ fld q 0 9 0 ≤ 512
        ∧ (∀ m ∈ membersOf q 1 (fld q 0 9 0) false, hType m.1 = 0x60 ∧ objExists u m.1 = true)
        ∧ ecmpEntries u + fld q 0 9 0 ≤ 1048576 ∧ lowestFreeBut u.fwd.cfg.ecmps (reservedIdx u 0x61) 65536 = some i)
      (fun _ _ => handle 0x61 i) (fun q u => ecmpUpdate (setCfg false (fun c => { c with
        ecmps := tset c.ecmps i ((membersOf q 1 (fld q 0 9 0) false).map fun m => (hIdx m.1, false)) }) u)))
  ∧ Sets cmdEcmpSetMembers .ecmpSetMembers (fun q u => hType (wd q 0) = 0x61 ∧ objExists u (wd q 0) = true
        ∧ 1 ≤ fld q 1 9 0 ∧ fld q 1 9 0 ≤ 512
        ∧ (∀ m ∈ membersOf q 2 (fld q 1 9 0) true, hType m.1 = 0x60 ∧ objExists u m.1 = true)
        ∧ ecmpEntries u + fld q 1 9 0 - (tgetD u.fwd.cfg.ecmps (hIdx (wd q 0)) []).length ≤ 1048576)
      (fun q u => ecmpUpdate (setCfg false (fun c => { c with
        ecmps := tset c.ecmps (hIdx (wd q 0)) ((membersOf q 2 (fld q 1 9 0) true).map fun m => (hIdx m.1, m.2)) }) u))
  ∧ Sets cmdEcmpDelete .ecmpDelete (fun q u => hType (wd q 0) = 0x61 ∧ objExists u (wd q 0) = true ∧ hopNamed u (wd q 0) = false)
      (fun q u => ecmpUpdate (setCfg false (fun c => { c with ecmps := terase c.ecmps (hIdx (wd q 0)) }) u))
  ∧ Sets cmdHashSet .hashSet (fun _ _ => True) (fun q u => modFwd (fun w => { w with seed := toWord (wd q 0), sym := flag q 1 0 }) u)

/-- POLICER, STATS and PIPE commands complete with OK (R134, R148, R150, R152, R158, R159, R461). The model's choice: that one row stands
for the whole exchange (log 4), and where the spec leaves a corner open what logs 40, 43 say. -/
def Obligations.PolicerAndPipeCommandsComplete : Prop :=
  Sets cmdPolicerSet .policerSet (fun q _ => hType (wd q 0) = 0x62 ∧ hIdx (wd q 0) < 1048576 ∧ polOk q = true)
      (fun q u => polClamp (hIdx (wd q 0)) (polOf q) (setCfg false (fun w => { w with pols := tset w.pols (hIdx (wd q 0)) (polOf q) }) u))
  ∧ Reads cmdPolicerRead .policerRead (fun q _ => hType (wd q 0) = 0x62 ∧ hIdx (wd q 0) < 1048576)
      (fun q u =>
        let c := tgetD u.fwd.cfg.pols (hIdx (wd q 0)) {}
        let k := tgetD u.fwd.toks (hIdx (wd q 0)) {}
        [toWord (wd q 0), toWord (b2n c.tr + 2 * b2n c.aware + 4 * b2n c.det + c.green * 2 ^ 4 + c.yellow * 2 ^ 6
            + c.red * 2 ^ 8 + unsigned 7 c.adj * 2 ^ 16)]
          ++ toWords c.cir 2 ++ toWords c.pir 2 ++ [toWord c.cbs, toWord c.ebs, toWord c.remap] ++ toWords k.tc 2 ++ toWords k.te 2)
  ∧ Reads cmdStatsRead .statsRead (fun q _ => 1 ≤ fld q 1 9 0 ∧ fld q 1 9 0 ≤ 254 ∧ fld q 0 25 0 + fld q 1 9 0 ≤ 67108864)
      (fun q u => (List.range' (fld q 0 25 0) (fld q 1 9 0)).flatMap fun k =>
        toWords (tgetD u.fwd.stats (2 * k) 0) 2 ++ toWords (tgetD u.fwd.stats (2 * k + 1) 0) 2)
  ∧ Sets cmdStatsClear .statsClear (fun q _ => fld q 0 25 0 + fld q 1 25 0 ≤ 67108864)
      (fun q u => modFwd (fun w => { w with stats := w.stats.filter fun e =>
        !(decide (fld q 0 25 0 ≤ e.1 / 2) && decide (e.1 / 2 < fld q 0 25 0 + fld q 1 25 0)) }) u)
  ∧ Sets cmdPipeSet .pipeSet (fun q _ => 2 ≤ fld q 0 5 0
        ∧ ∀ i < 9, hType (wd q (1 + i)) = 0 ∨ (hType (wd q (1 + i)) = 0x62 ∧ hIdx (wd q (1 + i)) < 1048576))
      (fun q u => modFwd (fun f => { f with
        w := fld q 0 5 0,
        punt := (((List.range 9).map fun i => hwd q (1 + i)).zipIdx).foldl (fun t (h, i) => mset 0 t (i + 1) h) f.punt }) u)
  ∧ Reads cmdPipeCounters .pipeCounters (fun _ _ => True) (fun q u => ctrWords u.ctr 0x46 (fld q 0 3 0 + 1) (List.range 19))

/-- DILL commands complete with OK (R169 to R172, R176, R461): a table in the lowest free aligned range, an entry in its place, a changed
and a deleted entry, a deleted table and the counts. The model's choice: that one row stands for the whole exchange (log 4), and where the
spec leaves a corner open what logs 47, 48, 85, 113 say. -/
def Obligations.DillCommandsComplete : Prop :=
  (∀ j, Runs stOk cmdDillTableCreate .dillTableCreate (fun _ q u => 4 ≤ fld q 0 12 8 ∧ fld q 0 12 8 ≤ 23
        ∧ thas u.tab.dill (fld q 0 7 0) = false
        ∧ ((List.range (bucketsMax u.fwd.profile / 2 ^ fld q 0 12 8)).find? fun j =>
            u.tab.dill.all fun e => decide (j * 2 ^ fld q 0 12 8 + 2 ^ fld q 0 12 8 ≤ e.2.base)
              || decide (e.2.base + 2 ^ e.2.k ≤ j * 2 ^ fld q 0 12 8)) = some j)
      (fun _ q _ => [toWord (handle 0x71 (fld q 0 7 0)), toWord (j * 2 ^ fld q 0 12 8)]) (fun _ _ _ => 0)
      (fun _ q u => modTab (fun t => { t with
        dill := tset t.dill (fld q 0 7 0) { k := fld q 0 12 8, base := j * 2 ^ fld q 0 12 8, seed := toWord (wd q 1) } }) u))
  ∧ (∀ t tb a p, Runs stOk cmdDillInsert .dillInsert (fun c q u => dillTab u (wd q 0) = some (t, tb)
        ∧ actionIn ⟨.direct, c.mb, 0, 0, false⟩ q 6 u = some a ∧ dillAt u t tb (dillKey q 1) = none
        ∧ dillPlace u t (bucketOf tb (dillKey q 1)) = some p)
      (fun _ q _ => placeWords p (bucketOf tb (dillKey q 1))) (fun _ _ _ => 0)
      (fun _ q u =>
        let v : DillVal := { act := a, cookie := toWord (wd q 8), static := flag q 7 0 }
        dillNew p t (bucketOf tb (dillKey q 1)) { key := dillKey q 1, v := ⟨some v, []⟩ } (placeHeal p u)))
  ∧ (∀ t tb a p e v, Runs stOk cmdDillModify .dillModify (fun c q u => dillTab u (wd q 0) = some (t, tb)
        ∧ actionIn ⟨.direct, c.mb, 0, 0, false⟩ q 6 u = some a ∧ dillAt u t tb (dillKey q 1) = some (p, e)
        ∧ e.v.seen true = some v)
      (fun _ _ _ => []) (fun _ _ _ => 0)
      (fun _ q u =>
        let w := e.v.direct (some { v with act := a, cookie := toWord (wd q 8), static := flag q 7 0 })
        if w.free then dillFree p (placeHeal p u) else dillPut p { e with v := w } (placeHeal p u)))
  ∧ (∀ t tb p e v, Sets cmdDillDelete .dillDelete (fun q u => dillTab u (wd q 0) = some (t, tb)
        ∧ dillAt u t tb (dillKey q 1) = some (p, e) ∧ e.v.seen true = some v)
      (fun _ u => if (e.v.direct none).free then dillFree p (placeHeal p u)
        else dillPut p { e with v := e.v.direct none } (placeHeal p u)))
  ∧ (∀ t tb, Sets cmdDillTableDelete .dillTableDelete (fun q u => dillTab u (wd q 0) = some (t, tb)
        ∧ dillNamed u t = false ∧ stagedRef u (wd q 0) = false)
      (fun _ u => overCheck (modTab (fun st => { st with
        dill := terase st.dill t, buckets := st.buckets.filter fun e => e.1 / 4 / 2 ^ 23 != t,
        ovf := st.ovf.filter fun e => e.2.1 != t, held := st.held.filter fun h => h.table != t })
        { u with learn := { u.learn with slots := u.learn.slots.filter fun m => m.table != t } })))
  ∧ (∀ t tb, Reads cmdDillStatus .dillStatus (fun q u => dillTab u (wd q 0) = some (t, tb))
      (fun _ u => [toWord (u.tab.buckets.filter fun e => e.1 / 4 / 2 ^ 23 == t).length,
        toWord (u.tab.ovf.filter fun e => e.2.1 == t).length, toWord (overFree u % 65536), toWord tb.failed.length]))

/-- SORREL commands complete with OK (R164, R166, R167, R192): a route is added where none of its versions stands and units are free,
changed and deleted where one is visible, read back exactly, and found as the longest match. The model's choice: that one row stands for
the whole exchange (log 4), and where the spec leaves a corner open what log 47 says. -/
def Obligations.SorrelCommandsComplete : Prop :=
  (∀ a, Runs stOk cmdSorrelAdd .sorrelAdd (fun c q u => routeOk q = true ∧ actionIn ⟨.direct, c.mb, 0, 0, false⟩ q 5 u = some a
        ∧ tget u.tab.routes (routeIn q) = none ∧ unitsUsed u + routeUnits (routeIn q) ≤ unitsMax u)
      (fun _ _ _ => []) (fun _ _ _ => 0)
      (fun _ q u => sorrelCheck (modTab (fun t => { t with routes := tset t.routes (routeIn q) ⟨some a, []⟩ }) u)))
  ∧ (∀ a b, Runs stOk cmdSorrelSet .sorrelSet (fun c q u => routeOk q = true ∧ actionIn ⟨.direct, c.mb, 0, 0, false⟩ q 5 u = some a
        ∧ ∃ l, tget u.tab.routes (routeIn q) = some l ∧ l.seen true = some b)
      (fun _ _ _ => []) (fun _ _ _ => 0)
      (fun _ q u =>
        let w := (tgetD u.tab.routes (routeIn q) ⟨none, []⟩).direct (some a)
        sorrelCheck (modTab (fun t => { t with
          routes := if w.free then terase t.routes (routeIn q) else tset t.routes (routeIn q) w }) u)))
  ∧ (∀ b, Sets cmdSorrelDelete .sorrelDelete
      (fun q u => routeOk q = true ∧ ∃ l, tget u.tab.routes (routeIn q) = some l ∧ l.seen true = some b)
      (fun q u =>
        let w := (tgetD u.tab.routes (routeIn q) ⟨none, []⟩).direct none
        sorrelCheck (modTab (fun t => { t with
          routes := if w.free then terase t.routes (routeIn q) else tset t.routes (routeIn q) w }) u)))
  ∧ (∀ a, Reads cmdSorrelGet .sorrelGet (fun q u => routeOk q = true
        ∧ ∃ l, tget u.tab.routes (routeIn q) = some l ∧ l.seen true = some a)
      (fun _ _ => [toWord (handle 0x70 a)]))
  ∧ (∀ l a, Reads cmdSorrelMatch .sorrelMatch (fun q u => sorrelFind u true (fld q 0 15 0) (flag q 0 16) (routeAddr q) = some (l, a))
      (fun _ _ => [toWord (l + 2 ^ 31), toWord (handle 0x70 a)]))
  ∧ Reads cmdSorrelMatch .sorrelMatch (fun q u => sorrelFind u true (fld q 0 15 0) (flag q 0 16) (routeAddr q) = none)
      (fun _ _ => [0#32, 0#32])
  ∧ Reads cmdSorrelStatus .sorrelStatus (fun _ _ => True)
      (fun _ u =>
        let live := u.tab.routes.filter fun e => (e.2.seen true).isSome
        [toWord (unitsUsed u), toWord (unitsMax u), toWord (live.filter fun e => !routeSix e.1).length,
          toWord (live.filter fun e => routeSix e.1).length])

/-- SAGE commands complete with OK (R179 to R184, R188 to R190): a group in free segments, an entry at the place that the placement gives
with the entries that move, a changed and a deleted entry, and what is read. The model's choice: that one row stands for the whole
exchange (log 4), and where the spec leaves a corner open what log 47 says. -/
def Obligations.SageCommandsComplete : Prop :=
  (∀ i, Runs stOk cmdSageGroupCreate .sageGroupCreate (fun _ q u => lowestFree u.tab.groups 16 = some i
        ∧ groupOk u ⟨fld q 0 3 0, fld q 0 8 4, fld q 0 10 9, fld q 0 14 11⟩ = true)
      (fun _ q _ =>
        let g : SageGroup := ⟨fld q 0 3 0, fld q 0 8 4, fld q 0 10 9, fld q 0 14 11⟩
        [toWord (handle 0x72 i), toWord g.size, toWord g.usable]) (fun _ _ _ => 0)
      (fun _ q u => modTab (fun t => { t with groups := tset t.groups i ⟨fld q 0 3 0, fld q 0 8 4, fld q 0 10 9, fld q 0 14 11⟩ }) u))
  ∧ (∀ i g, Sets cmdSageGroupDelete .sageGroupDelete (fun q u => sageGroup u (wd q 0) = some (i, g) ∧ groupNamed u i = false
        ∧ (u.fwd.profile ≠ 2 ∨ i ≠ 15) ∧ stagedRef u (wd q 0) = false)
      (fun _ u => modTab (fun t => { t with groups := terase t.groups i, sage := t.sage.filter fun e => e.2.grp != i }) u))
  ∧ (∀ gi g a i p, Runs stOk cmdSageInsert .sageInsert (fun c q u => sageGroup u (wd q 0) = some (gi, g)
        ∧ 3 + 2 * g.words ≤ q.length ∧ actionIn ⟨.direct, c.mb, 0, 0, false⟩ q 2 u = some a
        ∧ lowestFreeBut u.tab.sage (reservedIdx u 0x73) 262144 = some i
        ∧ occPlace (sageOcc u gi) (2 ^ g.logH) (g.size / 2 ^ g.logH) (wd q 1) = some p)
      (fun _ _ _ => [toWord (handle 0x73 i), toWord (g.addr p.pos), toWord (p.moves + p.borrowed * 2 ^ 16), toWord p.spread])
      (fun _ _ _ => handle 0x73 i)
      (fun _ q u =>
        let mask := sageField q (3 + g.words) g.words
        let e : SageEntry := {
          grp := gi, pos := p.pos, prio := wd q 1, value := Nat.land (sageField q 3 g.words) mask, mask := mask, v := ⟨some a, []⟩ }
        modTab (fun t => { t with sage := tset t.sage i e })
          (tabCount 11 (p.moves + p.borrowed + p.spread) (sageMoveTo p.occ u))))
  ∧ (∀ a i e b, Runs stOk cmdSageModify .sageModify (fun c q u => actionIn ⟨.direct, c.mb, 0, 0, false⟩ q 1 u = some a
        ∧ sageEntry u (wd q 0) = some (i, e) ∧ e.v.seen true = some b)
      (fun _ _ _ => []) (fun _ _ _ => 0)
      (fun _ _ u => modTab (fun t => { t with
        sage := if (e.v.direct (some a)).free then terase t.sage i else tset t.sage i { e with v := e.v.direct (some a) } }) u))
  ∧ (∀ i e b, Sets cmdSageDelete .sageDelete (fun q u => sageEntry u (wd q 0) = some (i, e) ∧ e.v.seen true = some b)
      (fun _ u => modTab (fun t => { t with
        sage := if (e.v.direct none).free then terase t.sage i else tset t.sage i { e with v := e.v.direct none } }) u))
  ∧ (∀ i e a g, Reads cmdSageRead .sageRead (fun q u => sageEntry u (wd q 0) = some (i, e) ∧ e.v.seen true = some a
        ∧ tget u.tab.groups e.grp = some g)
      (fun _ u => [toWord e.prio, toWord (g.addr e.pos), toWord (handle 0x70 a),
          toWord (b2n (e.v.vis u.fwd.epoch).1 * 2 + b2n (e.v.vis u.fwd.epoch).2)]
        ++ toWords e.value g.words ++ toWords e.mask g.words))
  ∧ (∀ i g, Reads cmdSageStatus .sageStatus (fun q u => sageGroup u (wd q 0) = some (i, g))
      (fun _ u => [toWord (sageOcc u i).length, toWord g.usable,
        toWord ((List.range (g.size / 2 ^ g.logH)).filter fun j => holesOf (sageOcc u i) (2 ^ g.logH) j == 1).length,
        toWord (throttle u), toWord (u.tab.step.getD 0 0), toWord (u.tab.step.getD 1 0)]))

/-- ACTION commands and TABLE.COUNTERS complete with OK (R163, R191, R454): an action record under the lowest free index, changed in
place, and deleted while nothing names it. The model's choice: that one row stands for the whole exchange (log 4). -/
def Obligations.ActionCommandsComplete : Prop :=
  (∀ i, Makes cmdActionCreate .actionCreate (fun q u => actionCheck ⟨.direct, 0, 0, 0, false⟩ u (actionOf q 0) = stOk
        ∧ lowestFreeBut u.fwd.cfg.actions (reservedIdx u 0x70) 2097152 = some i)
      (fun _ _ => handle 0x70 i)
      (fun q u => setCfg false (fun c => { c with actions := tset c.actions i (actionOf q 0) }) u))
  ∧ Sets cmdActionSet .actionSet (fun q u => hType (wd q 0) = 0x70 ∧ objExists u (wd q 0) = true
        ∧ actionCheck ⟨.direct, 0, 0, 0, false⟩ u (actionOf q 1) = stOk)
      (fun q u => setCfg false (fun c => { c with actions := tset c.actions (hIdx (wd q 0)) (actionOf q 1) }) u)
  ∧ Sets cmdActionDelete .actionDelete (fun q u => hType (wd q 0) = 0x70 ∧ objExists u (wd q 0) = true
        ∧ actionNamed u (hIdx (wd q 0)) = false ∧ stagedRef u (wd q 0) = false)
      (fun q u => setCfg false (fun c => { c with actions := terase c.actions (hIdx (wd q 0)) }) u)
  ∧ Reads cmdTableCounters .tableCounters (fun _ _ => True) (fun _ u => ctrWords u.ctr 0x47 0 (List.range 13))

/-- LEARN commands complete with OK, LEARN.FLUSH_PORT with ACCEPTED (R193, R195, R200, R207, R212, R220, R461): the profile, the domains
that name it, the port's learn limit, the program's learn key, the sweep period and policers, and the flush. The model's choice: that one
row stands for the whole exchange (log 4), and where the spec leaves a corner open what log 50 says. -/
def Obligations.LearnCommandsComplete : Prop :=
  Sets cmdLearnProfileSet .learnProfileSet (fun q u => fld q 0 7 0 ≠ 0 ∧ fld q 0 9 8 ≠ 3 ∧ fld q 0 21 20 ≠ 3
      ∧ (wd q 1 = 0 ∨ 8000 ≤ wd q 1) ∧ 1 ≤ fld q 2 24 8 ∧ fld q 2 24 8 ≤ 80000 ∧ 1 ≤ fld q 3 22 0 ∧ fld q 3 22 0 ≤ 5760000
      ∧ ((tgetD u.learn.profs (fld q 0 7 0) {}).table = fld q 0 19 12 ∨ ∀ e ∈ u.learn.doms, e.2 ≠ fld q 0 7 0)
      ∧ thas u.tab.dill (fld q 0 19 12) = true
      ∧ let p : LearnProf := {
          mode := fld q 0 9 8, notify := flag q 0 10, refresh := flag q 0 11, table := fld q 0 19 12, flap := fld q 0 21 20,
          age := wd q 1, limit := fld q 2 7 0, window := fld q 2 24 8, hold := fld q 3 22 0 }
        sweepOk u u.learn.sweep (tset u.learn.profs (fld q 0 7 0) p) = true)
    (fun q u =>
      let p : LearnProf := {
        mode := fld q 0 9 8, notify := flag q 0 10, refresh := flag q 0 11, table := fld q 0 19 12, flap := fld q 0 21 20,
        age := wd q 1, limit := fld q 2 7 0, window := fld q 2 24 8, hold := fld q 3 22 0 }
      modLearn (fun l => { l with profs := tset l.profs (fld q 0 7 0) p }) u)
  ∧ Sets cmdLearnDomainSet .learnDomainSet (fun q _ => 0 < fld q 1 20 0 ∧ fld q 0 19 0 + fld q 1 20 0 ≤ 1048576)
      (fun q u => modLearn (fun l => { l with
        doms := (l.doms.filter fun e => decide (e.1 < fld q 0 19 0))
          ++ (if fld q 2 7 0 = 0 then [] else (rangeFrom (fld q 0 19 0) (fld q 1 20 0)).map fun d => (d, fld q 2 7 0))
          ++ l.doms.filter fun e => decide (fld q 0 19 0 + fld q 1 20 0 ≤ e.1) }) u)
  ∧ Sets cmdLearnPortSet .learnPortSet (fun q u => objExists u (wd q 0) = true ∧ (hType (wd q 0) = 0x30 ∨ hType (wd q 0) = 0x32)
        ∧ (hType (wd q 2) = 0 ∨ (hType (wd q 2) = 0x70 ∧ objExists u (wd q 2) = true)) ∧ fld q 1 20 0 ≤ 1048576)
      (fun q u => modLearn (fun l => { l with
        ports := lset l.ports (hIdx (wd q 0)) { limit := fld q 1 20 0, drop := flag q 1 24, act := hwd q 2 } }) u)
  ∧ Reads cmdLearnPortStatus .learnPortStatus (fun q u => (hType (wd q 0) = 0x30 ∨ hType (wd q 0) = 0x32) ∧ objExists u (wd q 0) = true)
      (fun q u => [toWord (learnedOf u (hIdx (wd q 0))), toWord (pendingOf u (hIdx (wd q 0)))])
  ∧ (∀ p n, Runs stAccepted cmdLearnFlushPort .learnFlushPort (fun _ q u => linePort u (wd q 0) = some p
        ∧ (flag q 1 0 = true → linePort u (wd q 3) = some n ∧ (learnAction u n).isSome = true) ∧ u.learn.flushes.length < 4)
      (fun _ _ u => [toWord u.learn.nextFlush]) (fun _ _ _ => 0)
      (fun _ q u => modLearn (fun l => { l with
        flushes := tset l.flushes u.learn.nextFlush ⟨p, if flag q 1 0 then some n else none,
          if flag q 1 1 then some (fld q 2 19 0) else none, 0, []⟩,
        nextFlush := (u.learn.nextFlush + 1) % 2 ^ 32 }) u))
  ∧ Sets cmdLearnProgramSet .learnProgramSet (fun q u => hType (wd q 0) = 0x65 ∧ hIdx (wd q 0) < 4096
        ∧ (flag q 1 0 = true → keyLen u.fwd.cfg (fld q 1 15 8) ≤ 9))
      (fun q u => setCfg false (fun c => { c with progs := (
        tset c.progs (hIdx (wd q 0)) { tgetD c.progs (hIdx (wd q 0)) {} with learn := if flag q 1 0 then some (fld q 1 15 8) else none }) }) u)
  ∧ Sets cmdLearnDeviceSet .learnDeviceSet (fun q u => (hType (wd q 1) = 0 ∨ (hType (wd q 1) = 0x62 ∧ hIdx (wd q 1) < 1048576))
        ∧ (hType (wd q 2) = 0 ∨ (hType (wd q 2) = 0x62 ∧ hIdx (wd q 2) < 1048576))
        ∧ 4000 ≤ fld q 0 16 0 ∧ fld q 0 16 0 ≤ 80000 ∧ sweepOk u (fld q 0 16 0) u.learn.profs = true)
      (fun q u => modFwd (fun w => { w with punt := mset 0 (mset 0 w.punt 0x10 (hwd q 1)) 0x11 (hwd q 2) })
        (modLearn (fun l => { l with sweep := fld q 0 16 0 }) u))
  ∧ Reads cmdLearnCounters .learnCounters (fun _ _ => True) (fun _ u => ctrWords u.ctr 0x48 0 (List.range 18))

/-- The commands that walk, load and compare tables complete (R210, R211, R214, R217, R218): DILL.SEARCH answers the entry visible to the
current epoch with its place, DILL.NEXT the next entries in order and where the walk goes on, TABLE.CMDLIST is accepted under the next
list number, and the compare settings and digests are stored. The model's choice: that one row stands for the whole exchange (log 4), and
where the spec leaves a corner open what logs 48, 49, 85, 114 say. -/
def Obligations.TableWalkCommandsComplete : Prop :=
  (∀ t tb p e, Reads cmdDillSearch .dillSearch (fun q u => dillTab u (wd q 0) = some (t, tb)
        ∧ dillAt u t tb (dillKey q 1) = some (p, e) ∧ (e.v.seen true).isSome = true)
      (fun q u => placeWords p (bucketOf tb (dillKey q 1)) ++ dillWords e u.fwd.epoch))
  ∧ (∀ t tb, Runs stOk cmdDillNext .dillNext (fun _ q u => dillTab u (wd q 0) = some (t, tb)
        ∧ 1 ≤ fld q 3 6 0 ∧ fld q 3 6 0 ≤ 100 ∧ fld q 1 22 0 < 2 ^ tb.k)
      (fun c q u =>
        let w := walkLeft u t c.mb q
        [toWord (walkOn tb (fld q 3 6 0) w).1, toWord ((walkOn tb (fld q 3 6 0) w).2 - 4), toWord (w.take (fld q 3 6 0)).length]
          ++ (w.take (fld q 3 6 0)).flatMap fun e => (placeWords e.2.1 (e.1 / walkSpan)).take 1 ++ dillWords e.2.2 u.fwd.epoch)
      (fun _ _ _ => 0) (fun c q u =>
        walkHold t c.mb (fld q 1 22 0) (fld q 2 15 0) (walkOn tb (fld q 3 6 0) (walkLeft u t c.mb q)) u))
  ∧ Runs stAccepted cmdTableCmdlist .tableCmdlist (fun _ q u => 1 ≤ fld q 2 20 0 ∧ fld q 2 20 0 ≤ 1048576
        ∧ (hType (wd q 5) ≠ 0 → ∃ i x, txnSlot u (wd q 5) = some (i, x) ∧ x.phase = 0 ∧ x.count < 1048576) ∧ u.learn.lists.length < 4)
      (fun _ _ u => [toWord u.learn.nextList]) (fun _ _ _ => 0)
      (fun c q u => modLearn (fun l => { l with
        nextList := (u.learn.nextList + 1) % 2 ^ 32,
        lists := tset l.lists u.learn.nextList
          { addr := wd64 q 0, count := fld q 2 20 0, stop := flag q 2 31, res := wd64 q 3, txn := hwd q 5, mb := c.mb } }) u)
  ∧ (∀ t tb, Sets cmdTableCompareSet .tableCompareSet (fun q u => dillTab u (wd q 0) = some (t, tb))
      (fun q u => modDill t (fun d => { d with compare := flag q 1 0, inclLearned := flag q 1 1, repair := flag q 1 2 }) u))
  ∧ (∀ t tb, Sets cmdTableDigestLoad .tableDigestLoad (fun q u => dillTab u (wd q 0) = some (t, tb)
        ∧ 1 ≤ fld q 2 9 0 ∧ fld q 2 9 0 ≤ 1000 ∧ fld q 1 17 0 + fld q 2 9 0 ≤ tb.pageCount)
      (fun q u => modDill t (fun d => { d with
        digests := (List.range (fld q 2 9 0)).foldl (fun m j => tset m (fld q 1 17 0 + j) (toWord (wd q (3 + j)))) d.digests }) u))
  ∧ (∀ t tb, Reads cmdTableCompareStatus .tableCompareStatus (fun q u => dillTab u (wd q 0) = some (t, tb))
      (fun _ _ => [toWord tb.lastPages, toWord tb.mism, toWord tb.repaired] ++ toWords tb.sweepTide 2))

/-- BUF commands complete with OK (R224, R227, R237, R241, Tables 8-1 to 8-3): the limits of a client of the pool with the low mark
checked at once, the pool's counts, one buffer's entry, and the counters, read after the clocks of the reference unit up to now. The
model's choice: that one row stands for the whole exchange (log 4), and where the spec leaves a corner open what logs 51, 118, 119, 120
say. -/
def Obligations.BufferCommandsComplete : Prop :=
  Sets cmdBufPoolSet .bufPoolSet (fun q u => fld q 0 10 8 ∈ poolClients (fld q 0 0 0) ∧ fld q 3 26 0 < fld q 4 26 0
      ∧ (lset (poolOf u (fld q 0 0 0)).lims (fld q 0 10 8) (fld q 1 26 0, fld q 2 26 0)).foldl (fun n e => n + e.1) 0
        ≤ if fld q 0 0 0 = 0 then 125829120 - 1048576 else 262144)
    (fun q u => poolCheck (fld q 0 0 0) (modPool (fld q 0 0 0) (fun pl => { pl with
      lims := lset (poolOf u (fld q 0 0 0)).lims (fld q 0 10 8) (fld q 1 26 0, fld q 2 26 0), low := fld q 3 26 0, clear := fld q 4 26 0 }) u))
  ∧ Runs stOk cmdBufPoolStatus .bufPoolStatus (fun _ _ _ => True)
      (fun _ q u =>
        let pl := poolOf (refSettleAll u) (fld q 0 0 0)
        ([pl.free, if fld q 0 0 0 = 1 then pl.p else 0, pl.part.length, pl.retired.length, pl.lost.length] ++ pl.held).map toWord)
      (fun _ _ _ => 0) (fun _ _ u => refSettleAll u)
  ∧ Runs stOk cmdBufInspect .bufInspect (fun _ q u => fld q 1 26 0 < (poolOf (refSettleAll u) (fld q 0 0 0)).size)
      (fun _ q u =>
        let pl := poolOf (refSettleAll u) (fld q 0 0 0)
        let b := tgetD pl.bufs (fld q 1 26 0) { used := false, owner := 0, count := 0, part := false }
        [toWord (b2n b.used + 2 * b.owner + 16 * b.count + 4096 * b2n (pl.retired.contains (fld q 1 26 0)))])
      (fun _ _ _ => 0) (fun _ _ u => refSettleAll u)
  ∧ Runs stOk cmdBufCounters .bufCounters (fun _ _ _ => True)
      (fun _ q u => ctrWords (refSettleAll u).ctr 0x49 (fld q 0 0 0 + 1) (List.range 27))
      (fun _ _ _ => 0) (fun _ _ u => refSettleAll u)

/-- QUEUE and VOQ commands complete with OK (R243, R245, R246, R249, R270, R271, R273, Tables 9-3 and 9-5): the VOQ space, a set of eight
VOQs, an egress queue under no or a fitting parent, its new settings that await the tide boundary, its deletion, flush and what is read of
it. The model's choice: that one row stands for the whole exchange (log 4), and where the spec leaves a corner open what log 52 says. -/
def Obligations.QueueCommandsComplete : Prop :=
  Sets cmdQueueSpaceSet .queueSpaceSet (fun q u => fld q 0 18 0 % 8 = 0 ∧ fld q 0 18 0 ≤ 262144
        ∧ queuesIn u (min (fld q 0 18 0) u.td.v) (max (fld q 0 18 0) u.td.v) = false)
      (fun q u => modTd (fun t => { t with v := fld q 0 18 0 }) u)
  ∧ Makes cmdVoqCreate .voqCreate (fun q u => fld q 1 19 0 % 8 = 0 ∧ fld q 1 19 0 + 8 ≤ u.td.v
        ∧ thas u.td.sets (fld q 1 19 0 / 8) = false ∧ setOf u.td.sets (fld q 0 15 0) = none
        ∧ (reservedIdx u 0xA7).contains (fld q 1 19 0 / 8) = false)
      (fun q _ => handle 0xA7 (fld q 1 19 0 / 8))
      (fun q u => modTd (fun t => { t with
          sets := tset t.sets (fld q 1 19 0 / 8) { dsp := fld q 0 15 0, mask := fld q 2 7 0 }
          queues := (List.range 8).foldl (fun qs c => tset qs (fld q 1 19 0 + c) { cfg := { det := bit (fld q 2 7 0) c } }) t.queues })
        ((List.range 8).foldl (fun s c => newQueueCtrs (fld q 1 19 0 + c) s) u))
  ∧ Sets cmdVoqDelete .voqDelete (fun q u => hType (wd q 0) = 0xA7 ∧ objExists u (wd q 0) = true
        ∧ ∀ c < 8, ∀ y, tget u.td.queues (8 * hIdx (wd q 0) + c) = some y → y.pkts = [])
      (fun q u => modTd (fun t => { t with
        sets := terase t.sets (hIdx (wd q 0))
        queues := (List.range 8).foldl (fun qs c => terase qs (8 * hIdx (wd q 0) + c)) t.queues }) u)
  ∧ Makes cmdQueueCreate .queueCreate (fun q u => u.td.v ≤ fld q 0 19 0 ∧ thas u.td.queues (fld q 0 19 0) = false
        ∧ schedRangeOk q = true ∧ queueRangeOk (queueIn q) = true ∧ queueKindOk (queueIn q) q = true
        ∧ (reservedIdx u 0xA0).contains (fld q 0 19 0) = false ∧ wredKnown u (queueIn q) = true
        ∧ (hwd q 1 = 0 ∨ parentRefuses u (hwd q 1) 4 (fld q 2 2 0) (queueIn q).det none = none))
      (fun q _ => handle 0xA0 (fld q 0 19 0))
      (fun q u =>
        let y : Queue := { cfg := queueIn q, sch := schedIn q (nowLin u) }
        newQueueCtrs (fld q 0 19 0) (modTd (fun t => { t with queues := tset t.queues (fld q 0 19 0) y }) u))
  ∧ (∀ i y, Sets cmdQueueSet .queueSet (fun q u => queueAt u (wd q 0) = some (i, y) ∧ u.td.v ≤ i ∧ schedRangeOk q = true
        ∧ queueRangeOk (queueIn q) = true ∧ queueKindOk (queueIn q) q = true ∧ wredKnown u (queueIn q) = true
        ∧ ((queueIn q).det = y.cfg.det ∨ y.pkts = [])
        ∧ (hwd q 1 = 0 ∨ parentRefuses u (wd q 1) 4 (fld q 2 2 0) (queueIn q).det (portOfQueue u i) = none))
      (fun q u => modQueue i (fun y => { y with pend := some (queueIn q, schedIn q (nowLin u)) }) u))
  ∧ (∀ i y, Sets cmdQueueSet .queueSet (fun q u => queueAt u (wd q 0) = some (i, y) ∧ i < u.td.v
        ∧ (∀ j < 8, wd q (j + 1) = 0) ∧ queueRangeOk { queueIn q with det := y.cfg.det } = true
        ∧ (y.cfg.det = true → ∀ w ∈ (queueIn q).wred, w = 0) ∧ wredKnown u { queueIn q with det := y.cfg.det } = true)
      (fun q u => modQueue i (fun z => { z with pend := some ({ queueIn q with det := y.cfg.det }, z.sch) }) u))
  ∧ (∀ i y, Sets cmdQueueDelete .queueDelete (fun q u => queueAt u (wd q 0) = some (i, y) ∧ u.td.v ≤ i ∧ y.pkts = [] ∧ y.sch.parent = 0)
      (fun _ u => modTd (fun t => { t with queues := terase t.queues i }) u))
  ∧ (∀ i y, Runs stOk cmdQueueFlush .queueFlush (fun _ q u => queueAt u (wd q 0) = some (i, y))
      (fun _ _ u => [toWord (queueFlushAll i 8 (queueSettled i u)).1]) (fun _ _ _ => 0)
      (fun _ _ u => queueChanged i (queueFlushAll i 8 (queueSettled i u)).2))
  ∧ (∀ i y, Reads cmdQueueStatus .queueStatus (fun q u => queueAt u (wd q 0) = some (i, y))
      (fun q u =>
        let f : Bool × Bool := match if u.td.v ≤ i then portOfQueue u i else none with
          | some p => (eligible u p (nowLin u) 5 (wd q 0), committed u p (nowLin u) (wd q 0))
          | none => (false, false)
        toWords y.depth 2 ++ toWords (unsigned 64 y.avg) 2
          ++ [toWord y.pkts.length, toWord (b2n f.1 + 2 * b2n f.2 + 4 * b2n y.depthFlag + 8 * b2n y.delayFlag)]
          ++ toWords y.sch.min.rate 2 ++ toWords y.sch.max.rate 2
          ++ [tokenWord y.sch.min (nowLin u), tokenWord y.sch.max (nowLin u), toWord y.sch.deficit]))
  ∧ (∀ i y, Runs stOk cmdQueueCounters .queueCounters (fun _ q u => queueAt u (wd q 0) = some (i, y))
      (fun _ _ u => ctrWords u.ctr 3 i (List.range 10)) (fun _ _ _ => 0)
      (fun _ q u => if flag q 1 0 then ctrClear 3 i (List.range 10) u else u))

/-- NODE, WRED, SAMPLER and SCHED commands complete with OK (R249, R250, R252, R258, R263, R268 to R270, R274, Tables 9-3 to 9-5). The
model's choice: that one row stands for the whole exchange (log 4), and where the spec leaves a corner open what logs 52, 54, 87 say. -/
def Obligations.SchedulerCommandsComplete : Prop :=
  (∀ n i, Makes cmdNodeCreate .nodeCreate (fun q u => fld q 0 1 0 ≠ 0 ∧ schedRangeOk q = true ∧ hwd q 1 ≠ 0
        ∧ parentRefuses u (hwd q 1) (fld q 0 1 0) (fld q 2 2 0) false none = none ∧ tget u.td.nodes (hwd q 1) = some n
        ∧ quarterCount u (fld q 0 1 0) n.port < [0, 1024, 16384, 65536].getD (fld q 0 1 0) 0
        ∧ nodeIdx u (fld q 0 1 0) (reservedIdx u (levelType (fld q 0 1 0))) = some i)
      (fun q _ => handle (levelType (fld q 0 1 0)) i)
      (fun q u =>
        let y : Node := { level := fld q 0 1 0, port := n.port, sch := schedIn q (nowLin u) }
        modTd (fun t => { t with nodes := tset t.nodes (handle (levelType (fld q 0 1 0)) i) y }) u))
  ∧ (∀ n, Sets cmdNodeSet .nodeSet (fun q u => tget u.td.nodes (wd q 0) = some n ∧ shapersOk q = true
        ∧ (n.level = 0 ∨ fld q 2 18 3 ≠ 0) ∧ nodeSetRefuses u n q = none)
      (fun q u =>
        let y := schedIn q (nowLin u)
        let z : Sched := if n.level = 0 then { y with band := n.sch.band, quantum := n.sch.quantum } else y
        modTd (fun t => { t with nodePend := tset t.nodePend (wd q 0) z }) u))
  ∧ (∀ n, Sets cmdNodeDelete .nodeDelete (fun q u => tget u.td.nodes (wd q 0) = some n ∧ n.level ≠ 0 ∧ n.client = none
        ∧ childrenIn u (wd q 0) = [] ∧ awaited u (wd q 0) = false ∧ stagedRef u (wd q 0) = false)
      (fun q u => modTd (fun t => { t with nodes := terase t.nodes (wd q 0), nodePend := terase t.nodePend (wd q 0) }) (unlist (wd q 0) u)))
  ∧ (∀ n, Reads cmdNodeStatus .nodeStatus (fun q u => tget u.td.nodes (wd q 0) = some n)
      (fun q u =>
        let kids := childrenIn u (wd q 0)
        let bandOn (b : Nat) : Bool := kids.any fun c =>
          inBand u b c && eligible u n.port (nowLin u) 5 c
        [toWord kids.length, toWord ((List.range 8).foldl (fun a b => a + b2n (bandOn b) * 2 ^ b) 0)]
          ++ toWords n.sch.min.rate 2 ++ toWords n.sch.max.rate 2
          ++ [tokenWord n.sch.min (nowLin u), tokenWord n.sch.max (nowLin u), toWord n.sch.deficit]))
  ∧ Sets cmdWredProfileSet .wredProfileSet (fun q _ => fld q 0 7 0 ≠ 0 ∧ wd q 1 < wd q 2 ∧ fld q 3 8 0 ≤ 256)
      (fun q u => modTd (fun t => { t with
        wredPend := tset t.wredPend (fld q 0 7 0) { minT := wd q 1, maxT := wd q 2, pmax := fld q 3 8 0, w := fld q 3 19 16 } }) u)
  ∧ Sets cmdSamplerGroupSet .samplerGroupSet (fun q _ => fld q 1 15 0 ≠ 0 ∧ fld q 1 31 16 ≠ 0 ∧ wd q 3 ≤ wd q 2 ∧ wd q 5 ≤ wd q 4)
      (fun q u =>
        let y : Sampler := {
          depthBase := fld q 1 15 0, delayBase := fld q 1 31 16, depthHigh := wd q 2, depthClear := wd q 3,
          delayHigh := wd q 4, delayClear := wd q 5 }
        modTd (fun t => { t with samplerPend := tset t.samplerPend (fld q 0 11 0) y }) u)
  ∧ Runs stOk cmdSamplerHistRead .samplerHistRead (fun _ _ _ => True)
      (fun _ q u => ctrWords u.ctr 7 (fld q 0 11 0) (List.range 32)) (fun _ _ _ => 0)
      (fun _ q u => if flag q 1 0 then ctrClear 7 (fld q 0 11 0) (List.range 32) u else u)
  ∧ Reads cmdSchedCounters .schedCounters (fun _ _ => True) (fun _ u => ctrWords u.ctr 0x4A 0 (List.range 8))

/-- STREAM commands complete with OK (R276, R279, R282, R283, R297, R298, R305, Tables 10-7 and 10-8): a declaration whose deadline is at
or above the fixed path latency and whose members lead to their ports, which stands at the next tide boundary; its new declaration,
deletion, egress records and what is read of it. The model's choice: that one row stands for the whole exchange (log 4), and where the
spec leaves a corner open what logs 56, 57 say. -/
def Obligations.StreamCommandsComplete : Prop :=
  (∀ i, Makes cmdStreamCreate .streamCreate (fun q u => streamRangeOk u q (streamIn q) = true
        ∧ ((streamIn q).ctx = 0 ∨ (hType (streamIn q).ctx = 0xB1 ∧ objExists u (streamIn q).ctx = true))
        ∧ (∀ m ∈ (streamIn q).members, hType m.nh = 0x60 ∧ objExists u m.nh = true)
        ∧ fixedPath u.fwd.profile ≤ (streamIn q).d ∧ streamPathsOk u (streamIn q) = true
        ∧ ((streamIn q).ctx = 0 ∨ ctxUsers u (streamIn q).ctx 0x1000000 < 16) ∧ detObjects u < 262144
        ∧ lowestFreeBut u.det.streams (reservedIdx u 0xB0) 262144 = some i)
      (fun _ _ => handle 0xB0 i)
      (fun q u =>
        let y : Stream := { cfg := streamIn q, seq := (streamIn q).init, live := false, pend := some (streamIn q) }
        ctrClear 4 i (List.range 6) (modDet (fun d => { d with streams := tset d.streams i y }) u)))
  ∧ (∀ i y, Sets cmdStreamSet .streamSet (fun q u => streamAt u (wd q 0) = some (i, y)
        ∧ streamRangeOk u (q.drop 1) (streamIn (q.drop 1)) = true
        ∧ ((streamIn (q.drop 1)).ctx = 0 ∨ (hType (streamIn (q.drop 1)).ctx = 0xB1 ∧ objExists u (streamIn (q.drop 1)).ctx = true))
        ∧ (∀ m ∈ (streamIn (q.drop 1)).members, hType m.nh = 0x60 ∧ objExists u m.nh = true)
        ∧ fixedPath u.fwd.profile ≤ (streamIn (q.drop 1)).d ∧ streamPathsOk u (streamIn (q.drop 1)) = true
        ∧ ((streamIn (q.drop 1)).ctx = 0 ∨ ctxUsers u (streamIn (q.drop 1)).ctx i < 16))
      (fun q u => modDet (fun d => { d with streams := tset d.streams i { y with pend := some (streamIn (q.drop 1)) } }) u))
  ∧ (∀ i y, Sets cmdStreamDelete .streamDelete (fun q u => streamAt u (wd q 0) = some (i, y) ∧ actionTargets u (wd q 0) = false
        ∧ stagedRef u (wd q 0) = false)
      (fun _ u => modDet (fun d => { d with streams := terase d.streams i }) u))
  ∧ (∀ i y, Reads cmdStreamStatus .streamStatus (fun q u => streamAt u (wd q 0) = some (i, y))
      (fun _ u => toWord (b2n y.live) :: ((List.range 4).map fun i => toWord (y.proved.getD i 0))
        ++ [toWord (y.cfg.share (u.twin.st != 0)), toWord y.seq]))
  ∧ (∀ i y, Runs stOk cmdStreamCounters .streamCounters (fun _ q u => streamAt u (wd q 0) = some (i, y))
      (fun _ _ u => ctrWords u.ctr 4 i (List.range 6)) (fun _ _ _ => 0)
      (fun _ q u => if flag q 1 0 then ctrClear 4 i (List.range 6) u else u))
  ∧ (∀ i y, Makes cmdStreamEgressCreate .streamEgressCreate (fun q u => hType (wd q 1) = 0xA0 ∧ tget u.td.queues (hIdx (wd q 1)) = some y
        ∧ y.cfg.det = true ∧ u.td.v ≤ hIdx (wd q 1) ∧ portOfQueue u (hIdx (wd q 1)) = some (fld q 0 5 0)
        ∧ 64 ≤ fld q 2 13 0 ∧ fld q 2 13 0 ≤ 16000 ∧ fld q 3 15 0 ≠ 0 ∧ 1000 ≤ fld q 4 29 0 ∧ fld q 4 29 0 ≤ 1000000000
        ∧ fld q 5 23 0 ≠ 0 ∧ detObjects u < 262144 ∧ lowestFreeBut u.det.recs (reservedIdx u 0xB2) 262144 = some i)
      (fun _ _ => handle 0xB2 i)
      (fun q u =>
        let r : EgressRec := {
          port := fld q 0 5 0, queue := wd q 1, ltx := fld q 2 13 0, n := fld q 3 15 0, i := fld q 4 29 0, e := fld q 5 23 0 }
        modDet (fun d => { d with recs := tset d.recs i r }) u))
  ∧ Sets cmdStreamEgressDelete .streamEgressDelete (fun q u => hType (wd q 0) = 0xB2 ∧ thas u.det.recs (hIdx (wd q 0)) = true)
      (fun q u => modDet (fun d => { d with recs := terase d.recs (hIdx (wd q 0)) }) u)

/-- FRER commands complete with OK (R284 to R286, R305, Table 10-1). The model's choice: that one row stands for the whole exchange (log
4), and where the spec leaves a corner open what log 56 says. -/
def Obligations.RecoveryCommandsComplete : Prop :=
  (∀ i, Makes cmdFrerCreate .frerCreate (fun q u => frerOk (frerIn q 0) = true
        ∧ lowestFreeBut u.det.frer (reservedIdx u 0xB1) 1048576 = some i)
      (fun _ _ => handle 0xB1 i)
      (fun q u => ctrClear 5 i (List.range 7) (modDet (fun d => { d with frer := tset d.frer i (frerIn q 0) }) u)))
  ∧ (∀ i y, Sets cmdFrerSet .frerSet (fun q u => frerAt u (wd q 0) = some (i, y) ∧ frerOk (frerIn q 1) = true)
      (fun q u => modDet (fun d => { d with frer := tset d.frer i { frerIn q 1 with seq := y.seq, hist := y.hist, any := true } }) u))
  ∧ (∀ i y, Sets cmdFrerDelete .frerDelete (fun q u => frerAt u (wd q 0) = some (i, y) ∧ stagedRef u (wd q 0) = false
        ∧ ∀ e ∈ u.det.streams, e.2.cfg.ctx ≠ wd q 0 ∧ ∀ c, e.2.pend = some c → c.ctx ≠ wd q 0)
      (fun _ u => modDet (fun d => { d with frer := terase d.frer i }) u))
  ∧ (∀ i y, Reads cmdFrerStatus .frerStatus (fun q u => frerAt u (wd q 0) = some (i, y))
      (fun _ _ => toWord (y.seq + b2n y.any * 2 ^ 16) :: toWords y.hist 2))
  ∧ (∀ i y, Runs stOk cmdFrerCounters .frerCounters (fun _ q u => frerAt u (wd q 0) = some (i, y))
      (fun _ _ u => ctrWords u.ctr 5 i (List.range 7)) (fun _ _ _ => 0)
      (fun _ q u => if flag q 1 0 then ctrClear 5 i (List.range 7) u else u))
  ∧ (∀ i y, Sets cmdFrerReset .frerReset (fun q u => frerAt u (wd q 0) = some (i, y))
      (fun _ u => modDet (fun d => { d with frer := tset d.frer i { y with any := true } }) u))

/-- GATE and DET commands complete with OK (R287, R293, R303 to R306): a gate list awaits the tide boundary, with its takeover time
answered; DET.CHECK judges what a transaction would leave and changes only its counters; DET.EXPORT writes as many free bytes as the
model's free length says, where the host's buffer holds them. The model's choice: that one row stands for the whole exchange (log 4), and
where the spec leaves a corner open what logs 55, 58, 59, 88 say. -/
def Obligations.GateAndAdmissionCommandsComplete : Prop :=
  (∀ t, Runs stOk cmdGateSet .gateSet (fun _ q u => hType (wd q 0) = 0x30 ∧ objExists u (wd q 0) = true ∧ gateOkList q (gateIn q) = true
        ∧ t = gateTakeover (u.det.gates.getD (hIdx (wd q 0)) {}) (gateIn q) ((u.tm.tide + 1) * tideU) ∧ t < tbWrap
        ∧ (flag q 1 16 = true → t = (gateIn q).base))
      (fun _ _ _ => gateTimeWords t) (fun _ _ _ => 0)
      (fun _ q u => modGate (hIdx (wd q 0)) (fun g => { g with next := g.next ++ [{ gateIn q with t := t }] }) u))
  ∧ (∀ t, Runs stOk cmdGateClear .gateClear (fun _ q u => hType (wd q 0) = 0x30 ∧ objExists u (wd q 0) = true
        ∧ t = gateTakeover (u.det.gates.getD (hIdx (wd q 0)) {}) gateClearList ((u.tm.tide + 1) * tideU) ∧ t < tbWrap)
      (fun _ _ _ => gateTimeWords t) (fun _ _ _ => 0)
      (fun _ q u => modGate (hIdx (wd q 0)) (fun g => { g with next := g.next ++ [{ gateClearList with t := t }] }) u))
  ∧ Reads cmdGateStatus .gateStatus (fun q u => hType (wd q 0) = 0x30 ∧ objExists u (wd q 0) = true)
      (fun q u =>
        let g := u.det.gates.getD (hIdx (wd q 0)) {}
        let e : Nat × Nat := match g.run with
          | none => (0, 0)
          | some l => if nowLin u < l.t then (l.entries.length - 1, 0)
            else ((l.entryAt ((nowLin u - l.t) % (l.cycle * nsU))).1, (nowLin u - l.t) / (l.cycle * nsU))
        let tw (l : Option GateList) : List Word := gateTimeWords (match l with | some l => l.t | none => 0)
        toWord (b2n g.run.isSome + 2 * b2n g.pend.isSome + e.1 % 512 * 4) :: tw g.run ++ tw g.pend ++ [toWord e.2])
  ∧ (∀ n a b k, Runs stOk cmdDetCheck .detCheck (fun _ q u => asCommitted (hwd q 0) u = some n ∧ admJudge n = .ok a b k)
      (fun _ _ _ => breakdown 0 0 0 0 0 0 0 0 k) (fun _ _ _ => 0) (fun _ _ u => admCount false u))
  ∧ (∀ n st block c q s, Ready cmdDetCheck c q s = true → let u := accepted cmdDetCheck c q s
      asCommitted (hwd q 0) u = some n → admJudge n = .no st block → st ≠ stOk → st ≠ stAccepted →
      exec (.detCheck c q) s = .next (complete c.mb c.tag st block (admCount true u)))
  ∧ (∀ n, Runs stOk cmdDetExport .detExport (fun _ q u => asCommitted (hwd q 3) u = some n ∧ freeVal u % 2 ^ 32 ≤ wd q 2)
      (fun _ _ u => [toWord (freeVal u % 2 ^ 32), 0x0003#32]) (fun _ _ _ => 0)
      (fun _ q u => hostWrite (wd64 q 0) (freeBytes (freeVal u % 2 ^ 32) u.took).1 (freeBytes (freeVal u % 2 ^ 32) u.took).2))
  ∧ Reads cmdDetCounters .detCounters (fun _ _ => True) (fun _ u => ctrWords u.ctr 0x4B 0 (List.range 6))

/-- FABRIC commands complete with OK (R308, R315, R322 to R325, R327, R330, Tables 11-3 and 11-4). The model's choice: that one row stands
for the whole exchange (log 4), and where the spec leaves a corner open what logs 60, 86, 128 say. -/
def Obligations.FabricCommandsComplete : Prop :=
  Sets cmdFabricSet .fabricSet (fun q u => u.td.sets = [] ∧ octetRatesOk (flag q 0 0) (fld q 2 11 0) (fld q 3 23 0) = true
        ∧ (flag q 0 0 = true → fld q 0 25 16 = u.id.devid) ∧ 100 ≤ fld q 4 14 0 ∧ fld q 4 14 0 ≤ 20000
        ∧ 1 ≤ fld q 5 9 0 ∧ fld q 5 9 0 ≤ 1000)
      (fun q u =>
        let code (e r k : Nat) : Nat := if bit e k then 4 + bits r (2 * k + 1) (2 * k) else 0
        let v := ((List.range 12).filter fun k => code (fld q 2 11 0) (fld q 3 23 0) k != code u.fab.octets u.fab.rates k).foldl
          (fun s k => octetDown k s) u
        ecmpUpdate (fabCheck (modFab (fun f => { f with
          mesh := flag q 0 0, dev := fld q 0 25 16, alias_ := if flag q 1 31 then some (fld q 1 9 0) else none
          octets := fld q 2 11 0, rates := fld q 3 23 0, reorder := fld q 4 14 0, refresh := fld q 5 9 0 }) v)))
  ∧ Sets cmdFabricProfileSet .fabricProfileSet (fun q u => wd q 0 ≤ 1000000 ∧ wd q 1 ≤ 1000000 ∧ 1 ≤ fld q 2 6 0
        ∧ fld q 2 6 0 ≤ if u.fab.mesh then 32 else 96)
      (fun q u => fabCheck (modFab (fun f => { f with ffixed := wd q 0, tau := wd q 1, kmin := fld q 2 6 0 }) u))
  ∧ Sets cmdFabricSysportSet .fabricSysportSet (fun q _ => 1 ≤ fld q 1 16 0 ∧ fld q 0 15 0 + fld q 1 16 0 ≤ 65536
        ∧ ∀ i < fld q 1 16 0, fld q (2 + i) 22 16 ≤ 64)
      (fun q u => ecmpUpdate (renamed (modFab (fun f => { f with
        sysp := (List.range (fld q 1 16 0)).foldl (fun t i =>
          if flag q (2 + i) 31 then tset t (fld q 0 15 0 + i) (fld q (2 + i) 9 0, fld q (2 + i) 22 16)
          else terase t (fld q 0 15 0 + i)) f.sysp }) u)))
  ∧ (∀ v, Sets cmdFabricVoqGuarantee .fabricVoqGuarantee (fun q u => hType (wd q 0) = 0xA7
        ∧ tget u.td.sets (hIdx (wd q 0)) = some v ∧ bit v.mask (fld q 1 2 0) = true)
      (fun q u => modCred (8 * hIdx (wd q 0) + fld q 1 2 0) (fun y => { y with g := fld q 2 19 0 }) u))
  ∧ (∀ s', Sets cmdFabricGrantSet .fabricGrantSet (fun q u => fld q 0 6 0 ≤ 64
        ∧ s' = (let key := demandKey (fld q 0 6 0) (fld q 1 9 0) (fld q 2 15 0) (fld q 3 2 0)
          modFab (fun f => { f with
            grants := mset 0 f.grants key (fld q 4 19 0)
            demands := if thas f.demands key then f.demands else tset f.demands key { det := true } }) u)
        ∧ (fld q 4 19 0 = 0 ∨ grantsFit s' (fld q 0 6 0) = true))
      (fun _ _ => s'))
  ∧ (∀ s', Sets cmdFabricCreditSet .fabricCreditSet (fun q u => fld q 0 6 0 ≤ 64 ∧ 256 ≤ fld q 1 8 0 ∧ fld q 1 8 0 ≤ 384 ∧ 1 ≤ fld q 3 7 0
        ∧ s' = modFab (fun y => { y with dests := lmod y.dests (fld q 0 6 0) fun d =>
            { d with factor := fld q 1 8 0, bp := fld q 2 24 0, maxOut := fld q 3 7 0 } }) u
        ∧ grantsFit s' (fld q 0 6 0) = true)
      (fun _ _ => s'))
  ∧ Reads cmdFabricStatus .fabricStatus (fun _ _ => True)
      (fun _ u =>
        let lanes := (List.range 96).filter (laneUsable u)
        bitWords 3 (fun l => lanes.contains l)
          ++ [toWord ((List.range 12).foldl (fun a k => a + b2n (lanes.any fun l => l / 8 == k) * 2 ^ k) 0)]
          ++ bitWords 32 (fun d => lanes.any fun l => laneReaches u l d) ++ [toWord (b2n ((streamDevices u).any (deviceLow u)))])
  ∧ (∀ x, Reads cmdFabricLaneReach .fabricLaneReach (fun q u => u.fab.lanes[fld q 0 6 0]? = some x)
      (fun _ _ => bitWords 32 fun d => x.up && !x.noReach.contains d))
  ∧ Reads cmdFabricCounters .fabricCounters (fun q _ => fld q 1 7 0 = 255) (fun _ u => ctrWords u.ctr 0x4C 0 (List.range 17))
  ∧ Reads cmdFabricCounters .fabricCounters (fun q _ => fld q 1 7 0 < 96)
      (fun q u => ctrWords u.ctr 0x4C (fld q 1 7 0 + 1) (List.range 8))

/-- TIME commands complete with OK (R332 to R351): TIME.GET answers the time base, TIME.ADJUST sets phi and starts a slew, TIME.STEP
answers the boundary of the step, the other settings take the words' values, and the reading commands answer. The model's choice: that one
row stands for the whole exchange (log 4), and where the spec leaves a corner open what logs 34, 35, 137 say. -/
def Obligations.TimeCommandsComplete : Prop :=
  Reads cmdTimeGet .timeGet (fun _ _ => True)
      (fun _ u => [toWord (nowTb u), toWord (nowTb u / 2 ^ 32), toWord (nowTb u / 2 ^ 64)] ++ toWords u.tm.tide 2)
  ∧ Sets cmdTimeAdjust .timeAdjust (fun q u => tideSource u = 0 ∧ -32768000 ≤ signed 32 (wd q 0) ∧ signed 32 (wd q 0) ≤ 32768000
        ∧ (flag q 1 0 = true → 1 ≤ fld q 1 9 1 ∧ fld q 1 9 1 ≤ 500 ∧ -(secU : Int) ≤ signed 64 (wd64 q 2)
          ∧ signed 64 (wd64 q 2) ≤ (secU : Int)))
      (fun q u => { u with tm := { u.tm with
        phi := signed 32 (wd q 0)
        slew := if flag q 1 0 then some ⟨signed 64 (wd64 q 2), fld q 1 9 1, elapsed u⟩
          else u.tm.slew.map fun v => { v with phase := slewRemaining u, start := elapsed u } } })
  ∧ (∀ t : Nat, Runs stOk cmdTimeStep .timeStep (fun _ q u => commitNamed u = false ∧ tideSource u = 0
        ∧ (flag q 0 0 = false → bits (wd q 1 + 2 ^ 32 * wd q 2 + 2 ^ 64 * fld q 3 15 0) 45 16 < 1000000000)
        ∧ (t : Int) = (if flag q 0 0 then ((u.tm.tide + 1) * tideU : Int) + signed 80 (wd q 1 + 2 ^ 32 * wd q 2 + 2 ^ 64 * fld q 3 15 0)
          else tbLinear (wd q 1 + 2 ^ 32 * wd q 2 + 2 ^ 64 * fld q 3 15 0)) ∧ t < tbWrap)
      (fun _ _ u => toWords (u.tm.tide + 1) 2 ++ toWords (bridgeEnd t - 1) 2 ++ tbWords (tbLayout t)) (fun _ _ _ => 0)
      (fun _ q u => { u with tm := { u.tm with step := some ⟨flag q 0 0, flag q 0 1, t, u.tm.tide + 1⟩ } }))
  ∧ Sets cmdTimeStateSet .timeStateSet (fun q u => u.tm.st ≠ 0 ∧ tideSource u = 0 ∧ (fld q 0 1 0 = 1 ∨ fld q 0 1 0 = 2))
      (fun q u => setTimeState (fld q 0 1 0) u)
  ∧ Reads cmdTimeStatus .timeStatus (fun _ _ => True)
      (fun _ u => [toWord (u.tm.st + 4 * tideSource u + 16 * b2n u.tm.tideInLost + 32 * b2n (slewRemaining u != 0) + 64 * b2n u.tm.step.isSome),
          toWord (unsigned 32 u.tm.phi)] ++ toWords (unsigned 64 (slewRemaining u)) 2 ++ [toWord (unsigned 32 u.tm.lastDiff)])
  ∧ (∀ y, Sets cmdTimePortSet .timePortSet
      (fun q u => portOf u (wd q 0) = some y ∧ fld q 1 1 0 ≠ 3 ∧ offsetOk (signed 32 (wd q 2)) = true ∧ offsetOk (signed 32 (wd q 3)) = true)
      (fun q u => modTimePort (hIdx (wd q 0)) (fun x => { x with ptpMode := fld q 1 1 0, rxOff := signed 32 (wd q 2), txOff := signed 32 (wd q 3) }) u))
  ∧ Sets cmdTimeTsringSet .timeTsringSet (fun _ u => u.host.tsrEnable = false ∨ u.host.tsrStopped = true
        ∨ ((u.tm.ports.any (fun p => p.fifo.any fun e => !e.own)) = false ∧ u.host.tsrProducer = u.host.tsrConsumer))
      (fun q u => { u with host := { u.host with
        tsrBase := wd64 q 0, tsrEnable := true, tsrStopped := false, tsrProducer := 0#32, tsrConsumer := 0#32 } })
  ∧ (∀ y, Sets cmdTimeOriginate .timeOriginate (fun q u => portOf u (wd q 0) = some y ∧ fld q 1 7 0 ≤ 128)
      (fun q u => modTimePort (hIdx (wd q 0)) (fun x => { x with
        origRate := fld q 1 7 0, origTemplate := (wordBytes (q.drop 3)).take (fld q 2 9 0) }) u))
  ∧ Sets cmdTimePpsSet .timePpsSet
      (fun q _ => -10000 ≤ signed 32 (wd q 0) ∧ signed 32 (wd q 0) ≤ 10000 ∧ 1 ≤ fld q 1 8 0 ∧ fld q 1 8 0 ≤ 500)
      (fun q u => { u with tm := { u.tm with ppsOffset := signed 32 (wd q 0), ppsWidth := fld q 1 8 0 } })
  ∧ Sets cmdTimeTodSet .timeTodSet (fun _ _ => True) (fun q u => { u with tm := { u.tm with todTx := flag q 0 0, todRx := flag q 0 1 } })
  ∧ Sets cmdTimeSynceSet .timeSynceSet (fun q _ => fld q 0 7 1 < 64 ∧ fld q 0 9 8 ≠ 3)
      (fun q u => syncEUpdate { u with tm := { u.tm with synce := lmod u.tm.synce (fld q 0 0 0) fun o =>
        { o with lane := fld q 0 7 1, div := fld q 0 9 8, squelch := flag q 0 10, enable := flag q 0 11 } } })
  ∧ Sets cmdTimeTideSet .timeTideSet (fun q u => fld q 0 1 0 ≤ 1 ∧ fld q 1 14 0 ≤ 20000 ∧ commitNamed u = false)
      (fun q u => { u with tm := { u.tm with
        source := fld q 0 1 0, chain := fld q 1 14 0, tideInBad := 0, tideInLost := false, alignFault := false } })
  ∧ Reads cmdTimeCounters .timeCounters (fun q _ => fld q 1 6 0 < 64) (fun q u => ctrWords u.ctr 0x4D (fld q 1 6 0 + 1) [0, 1, 2, 3, 4])
  ∧ Reads cmdTimeCounters .timeCounters (fun q _ => fld q 1 6 0 = 127) (fun _ u => ctrWords u.ctr 0x4D 0 [0, 1, 2, 3, 4])

/-- SOUND, SCAN, LIFECYCLE and SELFTEST commands complete (R500 to R508, R511, R515): the sounding settings are taken, an eligible domain
is asked for, a full scan zeroises the secrets and loses every object, a challenge answers a free nonce, a permitted transition changes
the lifecycle state and, where R500 says so, zeroises, a key is revoked, and the reading commands answer. The model's choice: that one row
stands for the whole exchange (log 4), and where the spec leaves a corner open what logs 14, 80, 132 say. -/
def Obligations.SelfTestCommandsComplete : Prop :=
  Sets cmdSoundSet .soundSet (fun q _ => 1 ≤ fld q 0 6 2 ∧ fld q 0 6 2 ≤ 24 ∧ (fld q 1 6 0 ≤ 79 ∨ fld q 1 6 0 = 127) ∧ 500 ≤ fld q 2 14 0
        ∧ fld q 2 14 0 ≤ 20000)
      (fun q u =>
        let restart := flag q 0 0 && (!u.test.enable || u.test.hours != fld q 0 6 2)
        let sl := if fld q 1 6 0 = 127 then u.test.slices.map fun x => { x with budget := fld q 2 14 0 }
          else lmod u.test.slices (fld q 1 6 0) fun x => { x with budget := fld q 2 14 0 }
        { u with test := { u.test with
          enable := flag q 0 0, standby := flag q 0 1, hours := fld q 0 6 2
          slices := if restart then sl.map fun x => { x with done := 0, overduePeriod := 0 } else sl
          start := if restart then u.tm.bounds else u.test.start } })
  ∧ Starts cmdSoundNow .soundNow (fun q u => fld q 0 6 0 ≤ 79 ∧ soundEligible u (fld q 0 6 0) = true)
      (fun q u => { u with test := { u.test with
        asked := if u.test.asked.contains (fld q 0 6 0) then u.test.asked else u.test.asked ++ [fld q 0 6 0] } })
  ∧ (∀ x, Reads cmdSoundStatus .soundStatus (fun q u => fld q 0 6 0 ≤ 79 ∧ u.test.slices.getD (fld q 0 6 0) {} = x)
      (fun q u => [toWord (b2n (x.failed || match u.test.run with | some r => r.dom == fld q 0 6 0 | none => false) + 2 * b2n x.failed
        + 4 * x.next + 16 * b2n x.overdue)] ++ toWords x.last 2 ++ [toWord x.budget]))
  ∧ Reads cmdSoundSliceInfo .soundSliceInfo (fun q _ => fld q 0 6 0 ≤ 81)
      (fun q _ => [toWord (runTime (fld q 0 6 0) 0), toWord (runTime (fld q 0 6 0) 1), toWord (runTime (fld q 0 6 0) 2),
        toWord (runTime (fld q 0 6 0) 3)])
  ∧ Starts cmdScanFull .scanFull (fun _ _ => True)
      (fun _ u => let v := zeroise 2 u
        dieClear true (dieClear false { v with test := { v.test with scan := true, run := none, asked := [] } }))
  ∧ (∀ bits f sig, Reads cmdScanResult .scanResult (fun _ u => u.aon.scan = some (bits, f, sig))
      (fun _ _ => toWords bits 11 ++ [toWord (match f with | some (d, k) => d + 256 * k | none => 2 ^ 31)] ++ toWords sig 2))
  ∧ Runs stOk cmdLifecycleChallenge .lifecycleChallenge (fun _ _ _ => True) (fun _ _ u => toWords (freeVal u % 2 ^ 128) 4) (fun _ _ _ => 0)
      (fun _ _ u => { u.took with test := { u.test with nonce := some (freeVal u % 2 ^ 128), nonceEnd := u.tm.bounds + 480000 } })
  ∧ (∀ auth old new, Sets cmdLifecycleSet .lifecycleSet (fun q u => u.id.lifecycle = old ∧ fld q 0 2 0 = new ∧ lifeMove old new = some auth
        ∧ (auth = true → authorised u new (q.drop 2) = true) ∧ (new = 4 → wd q 1 = Config.udn.toNat % 2 ^ 32)
        ∧ (old = 3 → new = 0 → u.flash.drydocks < 3))
      (fun q u =>
        let v := if old = 2 ∧ new = 1 then u else zeroise 1 u
        let v := if auth then { v with test := { v.test with nonce := none } } else v
        let v := if new = 2 then { v with test := { v.test with surveyEnd := v.tm.bounds + wd (q.drop 2) 8 } } else v
        let v := if new = 3 ∨ (old = 3 ∧ new = 0) then { v with hbm := { v.hbm with record := [] } } else v
        let v := if old = 3 ∧ new = 0 then { v with flash := { v.flash with drydocks := v.flash.drydocks + 1 } } else v
        let v := if new = 4 then { v with flash := { v.flash with revoked := 15 } } else v
        raise 0x11 4 (aonUnit 0) (pay [(old, 1), (new, 1)]) { v with id := { v.id with lifecycle := new } }))
  ∧ Sets cmdLifecycleKeyRevoke .lifecycleKeyRevoke (fun q u => (slotAt u u.flash.pref).key ≠ fld q 0 1 0
        ∧ ((List.range 4).filter fun j => !bit u.flash.revoked j) ≠ [fld q 0 1 0])
      (fun q u => { u with flash := { u.flash with
        revoked := if bit u.flash.revoked (fld q 0 1 0) then u.flash.revoked else u.flash.revoked + 2 ^ fld q 0 1 0 } })
  ∧ Reads cmdSelftestCounters .selftestCounters (fun _ _ => True) (fun _ u => ctrWords u.ctr 0x51 0 [0, 1, 2, 3, 4, 5])

/-- FAULT and MEM commands complete (R359, R360, R370, R374, R377, R378, R521, R526, R530 to R532, R536, R537): settings are taken at
once, MEM.SPARE starts a migration, FAULT.CLUSTER_REINIT and FAULT.RESET arm what they name, and the reading commands answer. The model's
choice: that one row stands for the whole exchange (log 4), and where the spec leaves a corner open what logs 62, 63, 79 say. -/
def Obligations.FaultAndMemoryCommandsComplete : Prop :=
  Reads cmdFaultStatus .faultStatus (fun _ _ => True)
      (fun _ u => [toWord (u.id.fwState + 8 * u.flt.cause + 2048 * b2n u.flt.mpcFailed), toWord u.flt.recoveries, toWord u.aon.safeCount]
        ++ toWords (fencedBits u) 3)
  ∧ Reads cmdFaultLogRead .faultLogRead (fun q _ => 1 ≤ fld q 0 12 6 ∧ fld q 0 5 0 + fld q 0 12 6 ≤ 64)
      (fun q u => (List.range' (fld q 0 5 0) (fld q 0 12 6)).flatMap fun j => u.aon.log.getD j (List.replicate 8 0#32))
  ∧ Sets cmdFaultLastBreathSet .faultLastBreathSet (fun q _ => wd64 q 0 % 4096 = 0)
      (fun q u => { u with flt := { u.flt with lbAddr := wd64 q 0, lbOn := flag q 2 0 } })
  ∧ (∀ r, Reads cmdFaultLastBreathRead .faultLastBreathRead (fun q u => (if flag q 0 0 then u.aon.twin else u.aon.own) = some r)
      (fun q _ => packWords ((r.drop (if flag q 0 1 then 2048 else 0)).take 2048)))
  ∧ (∀ f, Starts cmdFaultClusterReinit .faultClusterReinit (fun q u => tget u.flt.fences (fld q 0 6 0) = some f)
      (fun q u => { u with flt := { u.flt with fences := tset u.flt.fences (fld q 0 6 0) { f with perm := false } } }))
  ∧ Sets cmdFaultReset .faultReset (fun q u => u.id.fwState = 3 ∨ wd q 0 = Config.udn.toNat % 2 ^ 32)
      (fun _ u => { u with flt := { u.flt with resetAt := elapsed u + msU 1 + 1 } })
  ∧ Reads cmdFaultCounters .faultCounters (fun _ _ => True) (fun _ u => ctrWords u.ctr 0x52 0 [0, 1, 2, 3, 4, 5, 6])
  ∧ Sets cmdMemSet .memSet (fun q _ => 64 ≤ fld q 1 16 0 ∧ fld q 1 16 0 ≤ 80000 ∧ 500 ≤ fld q 2 11 0 ∧ fld q 2 11 0 ≤ 4000
        ∧ 1 ≤ fld q 4 7 0 ∧ fld q 4 7 0 ≤ 168)
      (fun q u => let x : MemCfg := { p := fld q 1 16 0, w := fld q 2 11 0, ce := fld q 3 15 0, pred := flag q 3 16, scrub := fld q 4 7 0 }
        { u with hbm := if flag q 0 0 then { u.hbm with td := x } else { u.hbm with fd := x } })
  ∧ (∀ x, Reads cmdMemStatus .memStatus (fun q u => fld q 0 2 0 < 6 ∧ stackAt u (fld q 0 2 0) = x)
      (fun _ _ => [toWord (x.st + 4 * x.freeSpares.length + 256 * x.donors.length + 8192 * b2n (!x.migs.isEmpty)), toWord x.failed.length,
        toWord (256 * x.donors.length), toWord (unsigned 8 x.temp)]))
  ∧ Reads cmdMemRemapRead .memRemapRead (fun q _ => fld q 0 2 0 < 6)
      (fun q u => (stackAt u (fld q 0 2 0)).map.map fun e => toWord (e.st * 2 ^ 29 + e.phys % 128 * 256))
  ∧ Sets cmdMemSpare .memSpare (fun q u => fld q 0 2 0 < 6 ∧ ((stackAt u (fld q 0 2 0)).entry (fld q 1 6 0)).st ≤ 1
        ∧ ((stackAt u (fld q 0 2 0)).migs.any fun m => m.rank == fld q 1 6 0) = false ∧ (stackAt u (fld q 0 2 0)).freeSpares ≠ [])
      (fun q u => rankOut (fld q 0 2 0) (fld q 1 6 0) 5 true u)
  ∧ (∀ x, Reads cmdMemTrainReport .memTrainReport
      (fun q u => fld q 0 2 0 < 6 ∧ (stackAt u (fld q 0 2 0)).chans.getD (fld q 1 4 0) {} = x)
      (fun _ _ => [toWord (b2n x.trained + 16 * x.lanes), toWord x.rdWin, toWord x.wrWin] ++ toWords x.lastWin 2))
  ∧ Reads cmdMemCounters .memCounters (fun q _ => fld q 0 2 0 < 6) (fun q u => ctrWords u.ctr 0x4E (fld q 0 2 0 + 1) (List.range 19))

/-- TWIN commands complete on a paired unit (R380, R387, R402, R405, R409, R413, R415): TWIN.SET configures a COLD unit, TWIN.SWITCH keeps
its switch tide, TWIN.FORCE takes or yields the berth token, TWIN.JOIN starts joining, vectors are loaded and deleted, TWIN.DECIDE names
the faulty unit, and the reading commands answer their words. The model's choice: that one row stands for the whole exchange (log 4), and
where the spec leaves a corner open what logs 65, 66, 69 say. -/
def Obligations.TwinCommandsComplete : Prop :=
  Sets cmdTwinSet .twinSet (fun _ u => u.id.twinEn = true ∧ u.twin.st = 4)
      (fun q u => modTwin (fun x => { x with dMode := flag q 0 0, auto := flag q 0 1, referee := flag q 0 2, mismatch := false }) u)
  ∧ Reads cmdTwinStatus .twinStatus (fun _ u => u.id.twinEn = true)
      (fun _ u => toWord (u.twin.st + u.twin.peer * 8 + b2n u.twin.hawser * 2 ^ 6
          + b2n (decide (u.twin.moorIn ≠ 0) && !u.twin.hbLost) * 2 ^ 7 + (b2n u.twin.killIn * 2 ^ 8 + b2n u.twin.killOut * 2 ^ 9)
          + b2n u.twin.dMode * 2 ^ 10 + u.twin.stale * 2 ^ 11) :: (toWords u.twin.lastCk 2 ++ toWords u.twin.lastMf 2))
  ∧ Reads cmdTwinStatus .twinStatus (fun _ u => u.id.twinEn = false)
      (fun _ u => [toWord (b2n u.twin.killIn * 2 ^ 8 + b2n u.twin.killOut * 2 ^ 9), 0#32, 0#32, 0#32, 0#32])
  ∧ Sets cmdTwinSwitch .twinSwitch (fun q u => u.id.twinEn = true ∧ u.twin.st = 1 ∧ u.twin.peer = 2 ∧ u.tm.tide + 2 ≤ wd64 q 0
        ∧ ((txns u).any fun e => (e.2.phase == 2 || e.2.named) && (e.2.c == wd64 q 0 || e.2.c == wd64 q 0 + 1)) = false)
      (fun q u => modTwin (fun x => { x with switch := some { n := wd64 q 0 } }) u)
  ∧ Sets cmdTwinForce .twinForce (fun q u => u.id.twinEn = true ∧ flag q 0 0 = true) (fun _ u => if u.twin.st = 1 then goCold u else u)
  ∧ Sets cmdTwinForce .twinForce (fun q u => u.id.twinEn = true ∧ flag q 0 0 = false)
      (fun _ u => if u.twin.st = 1 ∨ u.twin.takeAt ≠ 0 then u else berthTake true (modTwin (fun x => { x with detector := 0 }) u))
  ∧ Sets cmdTwinJoin .twinJoin (fun _ u => u.id.twinEn = true ∧ u.twin.st = 4 ∧ canJoin u = true ∧ versionsFit u = true)
      (fun _ u => startJoin u)
  ∧ Sets cmdTwinRefereeLoad .twinRefereeLoad
      (fun q u => u.id.twinEn = true ∧ flag q 0 8 = true ∧ 60 ≤ fld q 4 8 0 ∧ fld q 4 8 0 ≤ 256)
      (fun q u => modTwin (fun x => { x with
        vectors := tset x.vectors (fld q 0 5 0) ⟨fld q 1 5 0, wd64 q 2, (wordBytes (q.drop 5)).take (fld q 4 8 0)⟩ }) u)
  ∧ Sets cmdTwinRefereeLoad .twinRefereeLoad (fun q u => u.id.twinEn = true ∧ flag q 0 8 = false)
      (fun q u => modTwin (fun x => { x with vectors := terase x.vectors (fld q 0 5 0) }) u)
  ∧ Sets cmdTwinDecide .twinDecide (fun _ u => u.id.twinEn = true ∧ u.twin.undecided = true)
      (fun q u => let v := if u.twin.hawser then emit (.hawser (.config (.direct 0x0F07 q 0))) u else u
        faulty (fld q 0 0 0 == activeId v) 3 v)
  ∧ (∀ n w a v b, Reads cmdTwinManifestRead .twinManifestRead (fun q u => u.id.twinEn = true ∧ wd64 q 0 = n
        ∧ mfOf u.twin.own n = some w ∧ mfPort w (fld q 2 5 0) = some a ∧ mfOf u.twin.twin n = some v ∧ mfPort v (fld q 2 5 0) = some b)
      (fun _ _ => a ++ b))
  ∧ Reads cmdTwinCounters .twinCounters (fun _ u => u.id.twinEn = true) (fun _ u => ctrWords u.ctr 0x4F 0 (List.range 16))

/-- TELEM and PIO commands complete with OK: bank selections, bandwidth windows and dump settings wait for the boundary that they take
effect at, grants change at once, and the reading commands answer their words (R427, R435, R436, R539, R544, R549, R550, R553, R555). The
model's choice: that one row stands for the whole exchange (log 4), and where the spec leaves a corner open what logs 70, 75, 133 say. -/
def Obligations.TelemetryAndPacketIoCommandsComplete : Prop :=
  Sets cmdTelemBankSet .telemBankSet
      (fun q u => fld q 0 6 0 ≤ 81 ∧ bankEventOk (fld q 0 6 0) (fld q 1 11 0) = true
        ∧ (flag q 1 13 = true → ((fld q 0 6 0 ≤ 15 ∧ packetEvent (fld q 1 11 0 / 64) (fld q 1 11 0 % 64) = true)
            ∨ (fld q 0 6 0 = 80 ∧ mpcEvent (fld q 1 11 0 / 64) (fld q 1 11 0 % 64) = true)) ∧ 1024 ≤ wd64 q 2 ∧ wd64 q 2 ≤ 2 ^ 47)
        ∧ (bankGranted u (fld q 0 6 0) = true → privilegedEvent (fld q 0 6 0) (fld q 1 11 0) = false))
      (fun q u => let x : Sel := { ev := fld q 1 11 0, en := flag q 1 12, sample := flag q 1 13, period := wd64 q 2 }
        modBank (fld q 0 6 0) (fun y => { y with pend := tset y.pend (fld q 0 10 8) x }) u)
  ∧ Reads cmdTelemBankRead .telemBankRead (fun q _ => fld q 0 6 0 ≤ 81) (fun q u => (bankOf u (fld q 0 6 0)).fields.flatMap fun v => toWords v 2)
  ∧ Sets cmdTelemUserGrant .telemUserGrant (fun q u => fld q 0 7 0 = 0x60 ∧ fld q 0 15 8 ≤ 81
        ∧ (flag q 0 16 = true → fld q 0 15 8 < 80 ∧ (((bankOf u (fld q 0 15 8)).sel ++ (bankOf u (fld q 0 15 8)).pend.map Prod.snd).any
            fun e => e.en && privilegedEvent (fld q 0 15 8) e.ev) = false))
      (fun q u => { u with host := { u.host with grants :=
        (u.host.grants.filter fun x => x != 0x6000 + fld q 0 15 8) ++ if flag q 0 16 then [0x6000 + fld q 0 15 8] else [] } })
  ∧ Sets cmdTelemUserGrant .telemUserGrant (fun q _ => groupKnown (fld q 0 7 0) = true ∧ fld q 0 7 0 ≠ 0x60)
      (fun q u => { u with host := { u.host with grants :=
        (u.host.grants.filter fun x => x != fld q 0 7 0) ++ if flag q 0 16 then [fld q 0 7 0] else [] } })
  ∧ Sets cmdTelemBwSet .telemBwSet
      (fun q u => ((hType (wd q 0) = 0x30 ∧ thas u.line.ports (hIdx (wd q 0)) = true)
          ∨ (hType (wd q 0) = 0x32 ∧ thas u.tr.ports (hIdx (wd q 0)) = true)) ∧ 1 ≤ fld q 1 12 0 ∧ fld q 1 12 0 ≤ 8000)
      (fun q u => modWindow (hIdx (wd q 0)) (fun x => { x with
        next := if fld q 1 12 0 = x.w then none else some (fld q 1 12 0), peak := if flag q 1 16 then [0, 0] else x.peak }) u)
  ∧ Sets cmdTelemDumpSet .telemDumpSet (fun q u => (dumpCfgOf q).en = true → dumpCfgOk (dumpCfgOf q) = true
        ∧ dumpRateOk (dumpCfgOf q :: (((u.tel.dumps.zipIdx).filter fun e => e.2 != fld q 0 1 0).map
            fun e => e.1.pend.getD e.1.cfg).filter fun x => x.en) = true)
      (fun q u => modTel (fun t => { t with dumps := lmod t.dumps (fld q 0 1 0) fun d => { d with pend := some (dumpCfgOf q) } }) u)
  ∧ Reads cmdTelemDumpStatus .telemDumpStatus (fun _ _ => True)
      (fun q u => let d := u.tel.dumps.getD (fld q 0 1 0) {}
        [toWord (b2n d.cfg.en + 2 * b2n d.writing.isSome)] ++ toWords d.seq 2 ++ toWords d.latch 2 ++ [toWord d.skipped])
  ∧ Reads cmdTelemCounters .telemCounters (fun _ _ => True) (fun _ u => ctrWords u.ctr 0x53 0 [0, 1, 2, 3, 4])
  ∧ Sets cmdPioRingMap .pioRingMap (fun q _ => fld q 0 7 0 ≠ 0)
      (fun q u => modHost (fun h => { h with ringMap := mset 0 h.ringMap (fld q 0 7 0) (fld q 1 5 0) }) u)
  ∧ Reads cmdPioCounters .pioCounters (fun q _ => fld q 0 6 0 < 64)
      (fun q u => ctrWords u.ctr 0x55 (fld q 0 6 0 + 1) [0, 1, 2, 3, 16, 17, 18])
  ∧ Reads cmdPioCounters .pioCounters (fun q _ => fld q 0 6 0 = 64) (fun _ u => ctrWords u.ctr 0x55 0 [0, 1, 2, 3])

/-- UPGRADE commands complete (R472, R473, R478, R480): a load, an activation and a conversion complete with ACCEPTED and have begun,
UPGRADE.CONFIRM makes the trial slot the preferred one, and UPGRADE.STATUS answers the slot directory. The model's choice: that one row
stands for the whole exchange (log 4), and where the spec leaves a corner open what log 78 says. -/
def Obligations.UpgradeCommandsComplete : Prop :=
  Starts cmdUpgradeLoad .upgradeLoad (fun q u => 512 ≤ fld q 2 24 0 ∧ fld q 2 24 0 ≤ 25165824 ∧ flag q 3 0 = false ∧ u.boot.load = none
        ∧ u.id.image ≠ loadSlot u ∧ (slotAt u (loadSlot u)).st ≠ 3)
      (fun _ u => { slotState (loadSlot u) 1 u with boot := { u.boot with load := some (loadSlot u, {}) } })
  ∧ Starts cmdUpgradeLoad .upgradeLoad (fun q u => 512 ≤ fld q 2 24 0 ∧ fld q 2 24 0 ≤ 25165824 ∧ flag q 3 0 = true
        ∧ twinReach u = true ∧ u.boot.twinLoad = false)
      (fun q u => emit (.hawser (.bulk 0x1401 q 0)) { u with boot := { u.boot with twinLoad := true } })
  ∧ Starts cmdUpgradeActivate .upgradeActivate (fun q u => fld q 1 11 0 ≤ 3600 ∧ flag q 0 1 = false ∧ flag q 0 0 = true
        ∧ ((slotAt u (loadSlot u)).st = 2 ∨ (slotAt u (loadSlot u)).st = 3) ∧ u.id.image ≠ loadSlot u ∧ u.boot.swap = 0 ∧ hotOk u (loadSlot u) = true)
      (fun q u => { u with boot := { u.boot with swap := 1, swapTo := loadSlot u, swapBack := false, confirm := fld q 1 11 0 } })
  ∧ Starts cmdUpgradeActivate .upgradeActivate (fun q u => fld q 1 11 0 ≤ 3600 ∧ flag q 0 1 = false ∧ flag q 0 0 = false
        ∧ ((slotAt u (loadSlot u)).st = 2 ∨ (slotAt u (loadSlot u)).st = 3) ∧ u.id.image ≠ loadSlot u ∧ u.boot.swap = 0
        ∧ (2 ≤ u.twin.st ∨ flag q 0 2 = true))
      (fun _ u =>
        let v := dirWrite (fun f => { f with oneShot := loadSlot u + 1 }) u
        { v with flt := { v.flt with resetAt := elapsed u + 1 } })
  ∧ Starts cmdUpgradeActivate .upgradeActivate (fun q u => fld q 1 11 0 ≤ 3600 ∧ flag q 0 1 = true ∧ twinReach u = true)
      (fun q u => emit (.hawser (.config (.direct 0x1402 q 0))) u)
  ∧ Sets cmdUpgradeConfirm .upgradeConfirm (fun q u => flag q 0 0 = true ∧ twinReach u = true)
      (fun q u => emit (.hawser (.config (.direct 0x1403 q 0))) u)
  ∧ Sets cmdUpgradeConfirm .upgradeConfirm (fun q u => flag q 0 0 = false ∧ (slotAt u u.id.image).st = 3 ∧ u.id.fwState = 1)
      (fun _ u =>
        let v := dirWrite (fun f => { f with
          pref := u.id.image, slots := lmod f.slots u.id.image (fun x => { x with st := 4 })
          minSec := max f.minSec (f.slots.getD u.id.image {}).sec }) u
        { v with boot := { v.boot with confirmEnd := 0 } })
  ∧ Reads cmdUpgradeStatus .upgradeStatus (fun _ _ => True)
      (fun _ u => dirWords u.flash ++ [toWord u.flash.minSec, toWord (if u.boot.load.isSome = true ∨ u.boot.twinLoad = true then 1
        else if u.boot.swap ≠ 0 then 2 else if u.boot.convert = true then 3 else 0)])
  ∧ Starts cmdUpgradeProfile .upgradeProfile (fun q u => fld q 0 1 0 ≠ 3 ∧ u.twin.st = 1 ∧ u.twin.peer = 2
        ∧ (fld q 0 1 0 = 2 ∨ u.det.streams.any (fun e => e.2.cfg.sage) = false)
        ∧ (fld q 0 1 0 = 2 → actUpgradeProfile.sageReservedClash u = false) ∧ tablesFit (fld q 0 1 0) u = true
        ∧ admNeeded u { u with fwd := { u.fwd with profile := fld q 0 1 0 } } = false)
      (fun q u => emit (.hawser (.config (.direct 0x1405 q 0))) { u with boot := { u.boot with convert := true } })
  ∧ (∀ a b k, Starts cmdUpgradeProfile .upgradeProfile (fun q u => fld q 0 1 0 ≠ 3 ∧ u.twin.st = 1 ∧ u.twin.peer = 2
        ∧ (fld q 0 1 0 = 2 ∨ u.det.streams.any (fun e => e.2.cfg.sage) = false)
        ∧ (fld q 0 1 0 = 2 → actUpgradeProfile.sageReservedClash u = false) ∧ tablesFit (fld q 0 1 0) u = true
        ∧ admNeeded u { u with fwd := { u.fwd with profile := fld q 0 1 0 } } = true
        ∧ admJudge { u with fwd := { u.fwd with profile := fld q 0 1 0 } } = .ok a b k)
      (fun q u => let v := admCount false u
        emit (.hawser (.config (.direct 0x1405 q 0))) { v with boot := { v.boot with convert := true } }))

/-- POWER commands complete with OK (R488, R494 to R497): tolerances change, admission counting the old ones until the boundary after the
next, a port's power settings are kept, and the reading commands answer their words. The model's choice: that one row stands for the whole
exchange (log 4), and where the spec leaves a corner open what log 77 says. -/
def Obligations.PowerCommandsComplete : Prop :=
  Sets cmdPowerTolSet .powerTolSet (fun q _ => (∀ i, i < 9 → wd q i ≤ 1000000000))
      (fun q u => { u with pow := { u.pow with
        tol := tolIn q u.pow.tol, lag := some (2, match u.pow.lag with | some (_, o) => o | none => u.pow.tol) } })
  ∧ Sets cmdPowerPortSet .powerPortSet (fun q u => ((hType (wd q 0) = 0x30 ∧ thas u.line.ports (hIdx (wd q 0)) = true)
          ∨ (hType (wd q 0) = 0x32 ∧ thas u.tr.ports (hIdx (wd q 0)) = true))
        ∧ (powerPortIn q).tol ≤ 1000000000 ∧ 8 ≤ (powerPortIn q).delay ∧ (powerPortIn q).delay ≤ 80000000
        ∧ ((powerPortIn q).off = true → neverOff u (hIdx (wd q 0)) = false))
      (fun q u => { u with pow := { u.pow with
        tol := { u.pow.tol with ports := tset u.pow.tol.ports (hIdx (wd q 0)) (powerPortIn q) }
        lag := some (2, match u.pow.lag with | some (_, o) => o | none => u.pow.tol) } })
  ∧ Sets cmdPowerConcentrateSet .powerConcentrateSet (fun _ _ => True)
      (fun q u => { u with pow := { u.pow with octEn := fld q 0 7 0, pairEn := fld q 0 15 8 } })
  ∧ Reads cmdPowerDomainStatus .powerDomainStatus (fun q _ => fld q 0 6 0 < 80)
      (fun q u => let d := fld q 0 6 0
        [toWord ((domOf u d).st + 8 * (domOf u d).floor + 64 * b2n (noWork u d) + 128 * b2n (concentratedAway u d)),
          toWord (tolDom u.pow.tol u d)] ++ toWords (domOf u d).floorTide 2)
  ∧ Reads cmdPowerStatus .powerStatus (fun _ _ => True)
      (fun _ u => [toWord ((List.range 80).foldl (fun n d => n + domEstimate u d)
          (12000 + 8000 * min 1000 (Config.loadOf 127 u.tm.tide) / 1000 + 1000)),
        toWord (u.pow.octOn + 256 * u.pow.pairOn), toWord u.pow.offOct])
  ∧ Reads cmdPowerCounters .powerCounters (fun q _ => fld q 0 6 0 < 80) (fun q u => ctrWords u.ctr 0x50 (fld q 0 6 0 + 1) [0, 1, 2, 3, 4])
  ∧ Reads cmdPowerCounters .powerCounters (fun q _ => fld q 0 6 0 = 127) (fun _ u => ctrWords u.ctr 0x50 0 [0, 1, 2, 3, 4])

/-- Commit preparation ends (R215, R236, R392, R456 and R457): a preparing transaction finishes, fails where its named tide has passed, or
fails for want of partition buffers; and a command list that has run raises CMDLIST_DONE (R214 to R216). The model's choice: that a row
carries its instant (log 16), and where the spec leaves a corner open what logs 48, 76 say. -/
def Obligations.TransactionEventsComplete : Prop :=
  (∀ i h x, Happens (fun t => .commitPreparationDone t i) (fun u => txnAt u i = some (h, x) ∧ x.phase = 1 ∧ x.own = none
        ∧ (x.named = true → u.tm.tide + 2 < x.c)) (fun u => finishPrep i u))
  ∧ (∀ i h x, Happens (fun t => .commitPreparationDone t i) (fun u => txnAt u i = some (h, x) ∧ x.phase = 1 ∧ x.own = none
        ∧ x.named = true ∧ x.c ≤ u.tm.tide + 2) (fun u => ownVerdict i stTimePassed [] u))
  ∧ (∀ i h x, Happens (fun t => .commitTimePassed t i) (fun u => txnAt u i = some (h, x) ∧ x.phase = 1 ∧ x.own = none
        ∧ x.named = true ∧ x.c ≤ u.tm.tide + 2) (fun u => ownVerdict i stTimePassed [] u))
  ∧ (∀ i h x p a n b short v, Happens (fun t => .partitionShort t i) (fun u => txnAt u i = some (h, x) ∧ x.phase = 1 ∧ x.own = none
        ∧ admitTxn h (if x.named then x.c else u.tm.tide + 3) x u = some (.ok p a n) ∧ partRaise p u = (b, short, v) ∧ short ≠ 0)
      (fun u => ownVerdict i stResourceShort (shortBlock p short n)
        (partShort (if x.named then x.c else u.tm.tide + 3) short (admCount false u))))
  ∧ (∀ id records l r, Happens (fun t => .cmdlistDone t id records) (fun u => served cmdTableCmdlist u = true ∧ tget u.learn.lists id = some l
        ∧ (List.range l.count).foldl (fun r i => r.bind (listStep l i)) (some { st := u, rest := records }) = some r)
      (fun _ => raise 8 7 mpcUnit (pay [(id, 4), (r.ran, 4), (r.bad, 4)])
        (modLearn (fun x => { x with lists := terase x.lists id }) r.st)))
  ∧ (∀ i h x st resp, Happens (fun t => .commitAckTimeout t i) (fun u => txnAt u i = some (h, x) ∧ x.own = some (st, resp) ∧ x.twin = none
        ∧ x.phase = 1 ∧ x.c ≤ u.tm.tide + 2 ∧ u.twin.st = 1)
      (fun u => if st = stOk then commitPrepared i (goStale 2 u) else failCommit i st resp (goStale 2 u)))
  ∧ (∀ i h x st resp, Happens (fun t => .commitAckTimeout t i) (fun u => txnAt u i = some (h, x) ∧ x.own = some (st, resp) ∧ x.twin = none
        ∧ x.phase = 1 ∧ x.c ≤ u.tm.tide + 2 ∧ u.twin.st ≠ 1) (fun u => goStale 2 (tablesUndo h (rollBack h u))))

/-- Boot and reset events (R31, R467, R469, R472, R473, R474, R475, R477, R480, R532 and R536): PORST_N, AON power, a package reset, a
boot that tries the next image, the firmware that becomes ready, an image loaded, the swap of an upgrade and its confirmation. The model's
choice: that a row carries its instant (log 16), and where the spec leaves a corner open what logs 78, 79 say. -/
def Obligations.BootEventsComplete : Prop :=
  Happens .porstNAssert (fun _ => True) porst
  ∧ (∀ devid en ver, Happens (fun t => .porstNRelease t devid en ver) (fun u => u.boot.held = true)
      (fun u => packageReset (devid % 4) en ver u))
  ∧ Happens .aonPowerCycle (fun _ => True) (fun u => { porst u with
      aon := {}, id := { (porst u).id with lifecycle := if (porst u).id.lifecycle = 2 then 1 else (porst u).id.lifecycle } })
  ∧ (∀ ver, Happens (fun t => .packageReset t ver) (fun u => u.flt.resetAt ≠ 0 ∧ u.flt.resetAt ≤ elapsed u + 1)
      (fun u => packageReset u.id.devid u.id.twinEn ver u))
  ∧ (∀ i, Happens .bootSlotTimeout (fun u => u.boot.slot = some i ∧ u.id.fwState = 0 ∧ u.boot.held = false
        ∧ u.boot.start + msU 3000 ≤ elapsed u)
      (fun u => bootNext u.boot.order (upgradeFailed i 3 (slotState i 5 { u with boot := { u.boot with slot := none } }))))
  ∧ (∀ i, Happens .firmwareReady (fun u => u.boot.slot = some i ∧ u.id.fwState = 0 ∧ u.boot.held = false ∧ ∀ x ∈ u.hbm.stks, x.st ≠ 0)
      (fun u => firmwareReady i (if (slotAt (readyState u) i).st = 2 then slotState i 3 (readyState u) else readyState u)))
  ∧ (∀ i b img ver, Happens (fun t => .upgradeLoaded t img ver) (fun u => u.boot.load = some (i, b))
      (fun u =>
        let ok := ver && decide (u.flash.minSec ≤ img.sec) && !bit u.flash.revoked img.key
        let x : ImageSlot := {
          st := if ok then 2 else 5, version := img.version, sec := img.sec, reboot := img.reboot, compat := img.compat,
          staging := img.staging, key := img.key }
        raise 0x14 1 mpcUnit (pay [(i, 1), (img.version, 4), (b2n (!ok), 1)])
          (dirWrite (fun f => { f with slots := f.slots.set i x }) { u with boot := { u.boot with load := none } })))
  ∧ (∀ img ver, Happens (fun t => .upgradeLoaded t img ver) (fun u => u.boot.load = none)
      (fun u => { u with boot := { u.boot with twinLoad := false } }))
  ∧ Happens .swapBegin (fun u => u.boot.swap = 1 ∧ u.id.fwState = 1 ∧ coreClocks u.tm.sub = 0 ∧ ∀ b ∈ u.ecs.mbs, b.owned = false)
      (fun u => { u with id := { u.id with fwState := 2 }, boot := { u.boot with swap := 2, swapStart := u.tm.bounds } })
  ∧ Happens (fun t => .swapHandover t true) (fun u => u.boot.swap = 2) (fun u => { u with boot := { u.boot with swap := 3 } })
  ∧ Happens (fun t => .swapHandover t false) (fun u => u.boot.swap = 2)
      (fun u => firmwareReady u.id.image (upgradeFailed u.boot.swapTo 2 (slotState u.boot.swapTo 5
        { u with boot := { u.boot with swap := 0, swapBack := false } })))
  ∧ Happens .swapDone (fun u => u.boot.swap = 3 ∧ u.boot.swapBack = true)
      (fun u =>
        let v := slotState u.id.image 2 u
        let w := { v with boot := { v.boot with swap := 0, swapBack := false, confirmEnd := 0 } }
        reverted u.boot.swapTo 2
          (firmwareReady u.boot.swapTo (raise 0x14 2 mpcUnit (pay [(u.boot.swapTo, 1), ((slotAt w u.boot.swapTo).version, 4)]) w)))
  ∧ Happens .swapDone (fun u => u.boot.swap = 3 ∧ u.boot.swapBack = false)
      (fun u =>
        let v := slotState u.boot.swapTo 3 u
        let w := { v with boot := { v.boot with
          swap := 0, swapBack := false, confirmEnd := if u.boot.confirm = 0 then 0 else u.tm.bounds + 8000 * u.boot.confirm + 1 } }
        firmwareReady u.boot.swapTo (raise 0x14 2 mpcUnit (pay [(u.boot.swapTo, 1), ((slotAt w u.boot.swapTo).version, 4)]) w))
  ∧ Happens .confirmTimeout (fun u => u.boot.confirmEnd ≠ 0 ∧ u.boot.confirmEnd ≤ u.tm.bounds + 1 ∧ u.boot.swap = 0
        ∧ (slotAt u u.id.image).st = 3)
      (fun u => { u with boot := { u.boot with confirmEnd := 0, swap := 1, swapTo := u.flash.pref, swapBack := true } })
  ∧ Happens .profileConverted (fun u => u.twin.st = 3 ∧ u.twin.join = 2 ∧ u.boot.convert = true)
      (fun u =>
        let v := setTwinFree 2 (modTwin (fun x => { x with join := 0, rotate := 0 }) { u with boot := { u.boot with convert := false } })
        raise 0x14 6 mpcUnit (pay [(v.boot.oldProfile, 1), (v.fwd.profile, 1)]) v)

/-- Time events (R40, R334, R337, R344, R348 and R351): a tide boundary, a time step, the end of a slew, the tide input, the
one-pulse-per- second and time of day signals, and a time stamp record written to the host. The model's choice: that a row carries its
instant (log 16), and where the spec leaves a corner open what logs 34, 35, 129, 137 say. -/
def Obligations.TimeEventsComplete : Prop :=
  (∀ m t s, s.boot.held = false → exec (.tideBoundary t m) s = .next ((boundary m s).atTime t))
  ∧ (∀ m t s, s.boot.held = false → s.tm.step.isSome = true → exec (.timeStepApply t m) s = .next ((boundary m s).atTime t))
  ∧ Happens .phaseSlewDone (fun u => slewRemaining u = 0) (fun u => { u with tm := { u.tm with slew := none } })
  ∧ (∀ tide phase br st diff, Happens (fun t => .tideInFrame t false tide phase br st diff) (fun u => tideSource u = 1)
      (fun u => timeCount 127 3 1 { u with tm := { u.tm with tideInBad := u.tm.tideInBad + 1 } }))
  ∧ (∀ tide phase st diff, Happens (fun t => .tideInFrame t true tide phase false st diff)
      (fun u => tideSource u = 1 ∧ u.tm.tideInLost = false ∧ tide = edgeTide u)
      (fun u =>
        let off := diff - u.tm.chain
        let v := { u with tm := { u.tm with tideInBad := 0, lastGood := tide, lastDiff := off } }
        setTimeState st (if off.natAbs ≤ 5000 then v else slewTo (-(off * 65536 / 1000)) v)))
  ∧ (∀ tide phase br st diff, Happens (fun t => .tideInFrame t true tide phase br st diff) (fun u => tideSource u = 1 ∧ u.tm.tideInLost = true)
      (fun u => tideRealign tide (if br then ((tide * tideU : Int) + phase).toNat else tide * tideU) st (diff - u.tm.chain)
        { u with tm := { u.tm with tideInBad := 0, lastGood := tide, lastDiff := diff - u.tm.chain } }))
  ∧ (∀ tide phase br st diff, Happens (fun t => .tideInFrame t true tide phase br st diff)
      (fun u => tideSource u = 1 ∧ u.tm.tideInLost = false ∧ (br = true ∨ tide ≠ edgeTide u))
      (fun u => followStep tide (if br then ((tide * tideU : Int) + phase).toNat else tide * tideU) st
        { u with tm := { u.tm with tideInBad := 0, lastGood := tide, lastDiff := diff - u.tm.chain } }))
  ∧ Happens .tideInLost (fun u => tideSource u = 1 ∧ 8 < u.tm.tideInBad ∧ u.tm.tideInLost = false)
      (fun u => raise 0x0D 5 tbUnit (pay [(u.tm.lastGood, 6)]) (setTimeState 2 { u with tm := { u.tm with tideInLost := true } }))
  ∧ Happens .ppsInCapture (fun _ => True) (fun u => raise 0x0D 3 tbUnit (pay [(nowTb u, 10)]) (timeCount 127 0 1 u))
  ∧ Happens .ppsOutEdge (fun u => u.id.fwState ≠ 3 ∧ u.tm.ppsEdge ≠ nowLin u + 1 ∧ ((nowLin u : Int) - u.tm.ppsOffset * 65536) % (secU : Int) = 0)
      (fun u => emit (.pps (nowLin u) u.tm.ppsWidth) { u with tm := { u.tm with ppsEdge := nowLin u + 1, todDue := true } })
  ∧ Happens .todTxMessage (fun u => u.id.fwState ≠ 3 ∧ u.tm.todTx = true ∧ u.tm.todDue = true ∧ u.tm.ppsEdge ≠ 0 ∧ nowLin u < u.tm.ppsEdge - 1 + msU 100)
      (fun u => emit (.tod ((u.tm.ppsEdge - 1) / nsU)) { u with tm := { u.tm with todDue := false } })
  ∧ (∀ bs, Happens (fun t => .todRx t bs true) (fun u => u.tm.todRx = true) (fun u => raise 0x0D 4 tbUnit (bs.take 20) (timeCount 127 1 1 u)))
  ∧ (∀ bs, Happens (fun t => .todRx t bs false) (fun u => u.tm.todRx = true) (fun u => timeCount 127 2 1 u))
  ∧ (∀ port e, Happens (fun t => .tsrMergerWrite t port) (fun u => u.host.tsrEnable = true ∧ u.host.tsrStopped = false
        ∧ (u.host.tsrProducer - u.host.tsrConsumer).toNat < 65536 ∧ (u.tm.ports.getD port {}).fifo.find? (fun e => !e.own) = some e)
      (fun u =>
        let n := u.host.tsrProducer.toNat
        let v := tsRoom port (modTimePort port (fun y => { y with fifo := y.fifo.erase e })
          (hostWriteWords (u.host.tsrBase + 16 * (n % 65536)) (tsWords port (n / 65536 % 2 == 0) e) u))
        let m := u.host.tsrMod.wrote (elapsed v)
        let w := { v with host := { v.host with tsrProducer := u.host.tsrProducer + 1#32, tsrMod := m } }
        if m.due (elapsed w) then signal 0 33 { w with host := { w.host with tsrMod := m.signalled } } else w))

/-- Host register events (R5, R346, R418, R419, R423, R424, R428, R432, R435 and R439): the doorbell accepts each mailbox it names in
ascending number, write-one-to-clear, ring and producer and consumer registers, a register write by window, the user window's reads,
configuration requests, resets and the link. The model's choice: that a row carries its instant (log 16), and where the spec leaves a
corner open what logs 72, 73, 74 say. -/
def Obligations.HostRegisterEventsComplete : Prop :=
  (∀ v fed failed, Happens (fun t => .mbDoorbell t v fed failed) (fun u => u.id.fwState ≠ 0 ∧ (u.flt.mpcFailed = false ∨ u.flt.pilotDead = false))
      (fun u => (List.range 32).foldl (fun s m =>
        if !bit v m then s
        else if (s.ecs.mbs.getD m {}).owned || bit s.host.mbDone.toNat m then mbRefuse m 1 s
        else acceptMb m (tget failed m) s) (hostFed fed u)))
  ∧ (∀ v, Happens (fun t => .mbDone t v) (fun _ => True)
      (fun u => { u with host := { u.host with mbDone := u.host.mbDone &&& (~~~(toWord v) ||| doneNow u) } }))
  ∧ (∀ v, Happens (fun t => .evrCtrl t v) (fun _ => True) (fun u => evrCtrlWrite v u))
  ∧ (∀ v, Happens (fun t => .evrConsumer t v) (fun u => (u.host.evrProducer - toWord v).toNat ≤ 2 ^ u.host.evrLog)
      (fun u => { u with host := { u.host with evrConsumer := toWord v } }))
  ∧ (∀ v, Happens (fun t => .evrConsumer t v) (fun u => 2 ^ u.host.evrLog < (u.host.evrProducer - toWord v).toNat)
      lockViol)
  ∧ Happens .evrLost (fun _ => True) (fun u => { u with host := { u.host with answer := [u.host.evrLost], evrLost := 0#32 } })
  ∧ (∀ v, Happens (fun t => .tsrConsumer t v) (fun _ => True) (fun u => { u with host := { u.host with tsrConsumer := toWord v } }))
  ∧ (∀ tx r v, Happens (fun t => .ringCtrl t tx r v) (fun _ => True) (fun u => ringCtrlWrite tx r v u))
  ∧ (∀ r v, Happens (fun t => .rxTail t r v) (fun _ => True) (fun u => modRing false r (fun x => { x with tail := toWord v }) u))
  ∧ (∀ r v, Happens (fun t => .txTail t r v) (fun _ => True) (fun u => modRing true r (fun x => { x with tail := toWord v }) u))
  ∧ (∀ off v, Happens (fun t => .registerWrite t .pf0Regs off v) (fun _ => off / 4 * 4 < 0x40000) (fun u => pf0Write (off / 4 * 4) (v % 2 ^ 32) u))
  ∧ (∀ off v, Happens (fun t => .registerWrite t .pf1Regs off v) (fun _ => off / 4 * 4 < 0x10000) (fun u => pf1Write (off / 4 * 4) (v % 2 ^ 32) u))
  ∧ (∀ off v, Happens (fun t => .registerWrite t .pf0Msix off v) (fun _ => off / 4 * 4 < 0x1000) (fun u => msixWrite 0 (off / 4 * 4) (v % 2 ^ 32) u))
  ∧ (∀ off v, Happens (fun t => .registerWrite t .pf1Msix off v) (fun _ => off / 4 * 4 < 0x1000) (fun u => msixWrite 1 (off / 4 * 4) (v % 2 ^ 32) u))
  ∧ (∀ off v, Happens (fun t => .registerWrite t .pf2User off v) (fun _ => off / 4 * 4 < 2 ^ 31) (fun u => pioCount 3 1 u))
  ∧ (∀ off v, Happens (fun t => .registerWrite t .pf2Priv off v) (fun _ => off / 4 * 4 < 2 ^ 31) (fun u => pioCount 3 1 u))
  ∧ (∀ off n bs k, Happens (fun t => .pf2UserRead t off n) (fun u => n ≤ 4096 ∧ userRead u 3 (off % 2 ^ 31) n = (bs, k + 1))
      (fun u =>
        let v := pioCount 2 (k + 1) u
        { v with host := { v.host with answer := packWords (bs ++ List.replicate ((4 - bs.length % 4) % 4) 0#8) } }))
  ∧ (∀ off n bs, Happens (fun t => .pf2UserRead t off n) (fun u => n ≤ 4096 ∧ userRead u 3 (off % 2 ^ 31) n = (bs, 0))
      (fun u => { u with host := { u.host with answer := packWords (bs ++ List.replicate ((4 - bs.length % 4) % 4) 0#8) } }))
  ∧ (∀ fn off w, Happens (fun t => .pcieConfigRequest t fn off w) (fun u => u.id.fwState = 0) (emit (.configRetry fn off)))
  ∧ (∀ fn off v, Happens (fun t => .pcieConfigRequest t fn off (some v)) (fun u => u.id.fwState ≠ 0)
      (fun u => { u with host := { u.host with cfg := tset u.host.cfg (fn % 3 * 4096 + off % 4096 / 4 * 4) (toWord v), answer := [] } }))
  ∧ (∀ fn off, Happens (fun t => .pcieConfigRequest t fn off none) (fun u => u.id.fwState ≠ 0)
      (fun u => { u with host := { u.host with answer :=
        [tgetD u.host.cfg (fn % 3 * 4096 + off % 4096 / 4 * 4) (toWord (Config.pcieConfig (fn % 3 * 4096 + off % 4096 / 4 * 4)))] } }))
  ∧ Happens .perstNAssert (fun _ => True) (fun u =>
      let v := functionReset 2 (functionReset 1 (functionReset 0 u))
      { v with host := { v.host with linkStatus := 0#32 } })
  ∧ (∀ fn, Happens (fun t => .functionLevelReset t fn) (fun _ => fn < 3) (fun u => functionReset fn u))
  ∧ (∀ rate width flit, Happens (fun t => .pcieLinkChange t rate width flit)
        (fun u => toWord (rate % 8 + width % 32 * 16 + b2n flit * 512) ≠ u.host.linkStatus)
      (fun u =>
        let v := toWord (rate % 8 + width % 32 * 16 + b2n flit * 512)
        raise 0x15 3 (mainUnit 5) (pay [(v.toNat, 4)]) { u with host := { u.host with linkStatus := v } }))

/-- Host queue events (R421, R424, R428, R432, R433, R552, R570 and R571): a frame delivered to a receive ring, a frame taken from a
transmit ring, a DMA error, an event record written, moderation, a telemetry dump written, and the board's I2C, JTAG and TRST_N pins. The
model's choice: that a row carries its instant (log 16), and where the spec leaves a corner open what logs 72, 73 say. -/
def Obligations.HostQueueEventsComplete : Prop :=
  (∀ r fed, Happens (fun t => .rxFrameDelivery t r fed) (fun _ => r < 64) (fun u => rxDeliver r (hostFed fed u)))
  ∧ (∀ fed, Happens (fun t => .txRingFrame t fed) (fun _ => True) (fun u => txServe (hostFed fed u)))
  ∧ (∀ a, Happens (fun t => .dmaError t 0 a) (fun u => u.host.evrEnable = true)
      (fun u => signal 0 32 (raise 0x15 2 (mainUnit 6) (pay [(0, 1), (0, 1), (0, 1), (1, 1)])
        (pioCount 1 1 { u with host := { u.host with
          evrFault := true, faultAt := elapsed u + 1, evrEnable := false, dmaErr := a } }))))
  ∧ (∀ a, Happens (fun t => .dmaError t 1 a) (fun u => u.host.tsrEnable = true ∧ u.host.tsrStopped = false)
      (fun u => raise 0x15 2 (mainUnit 6) (pay [(0, 1), (1, 1), (0, 1), (1, 1)])
        (pioCount 1 1 { u with host := { u.host with tsrStopped := true, dmaErr := a } })))
  ∧ (∀ r a, r < 64 → Happens (fun t => .dmaError t (2 + r) a) (fun u => (ringOf false r u).enable = true)
      (fun u =>
        let v := modRing false r (fun x => { x with enable := false, fifo := x.fifo.drop 1 }) u
        raise 0x15 2 (mainUnit 6) (pay [(1, 1), (r, 1), (0, 1), (1, 1)])
          (pioCount 1 1 { v with host := { v.host with dmaErr := a } })))
  ∧ (∀ r a, r < 64 → Happens (fun t => .dmaError t (66 + r) a) (fun u => (ringOf true r u).enable = true)
      (fun u =>
        let v := modRing true r (fun x => { x with enable := false, fifo := x.fifo.drop 1 }) u
        raise 0x15 2 (mainUnit 6) (pay [(1, 1), (r, 1), (1, 1), (1, 1)])
          (pioCount 1 1 { v with host := { v.host with dmaErr := a } })))
  ∧ (∀ e r, Happens .eventRecordWrite (fun u => u.host.evrEnable = true ∧ evrFull u = false ∧ u.host.evDiscarded = 0
        ∧ u.host.evQueue = e :: r) (fun u => eventWrite e { u with host := { u.host with evQueue := r } }))
  ∧ Happens .eventRecordWrite (fun u => u.host.evrEnable = true ∧ evrFull u = false ∧ 0 < u.host.evDiscarded)
      (fun u => eventWrite ⟨0x15, 1, mainUnit 10, u.tm.tide, pay [(u.host.evDiscarded, 4)]⟩
        { u with host := { u.host with evDiscarded := 0 } })
  ∧ Happens (fun t => .msixModerationTimeout t 0) (fun u => u.host.evrMod.due (elapsed u) = true)
      (fun u => signal 0 32 { u with host := { u.host with evrMod := u.host.evrMod.signalled } })
  ∧ Happens (fun t => .msixModerationTimeout t 1) (fun u => u.host.tsrMod.due (elapsed u) = true)
      (fun u => signal 0 33 { u with host := { u.host with tsrMod := u.host.tsrMod.signalled } })
  ∧ (∀ r, r < 64 → Happens (fun t => .msixModerationTimeout t (2 + r)) (fun u => (ringOf false r u).mdr.due (elapsed u) = true)
      (fun u => signal 1 (ringOf false r u).vector (modRing false r (fun x => { x with mdr := x.mdr.signalled }) u)))
  ∧ (∀ r, r < 64 → Happens (fun t => .msixModerationTimeout t (66 + r)) (fun u => (ringOf true r u).mdr.due (elapsed u) = true)
      (fun u => signal 1 (ringOf true r u).vector (headBack r (modRing true r (fun x => { x with mdr := x.mdr.signalled }) u))))
  ∧ (∀ i d r, Happens (fun t => .dumpRecordWritten t i none) (fun u => u.tel.dumps[i]? = some d ∧ d.writing = some r)
      (fun u =>
        let v := telCount 2 r.length (telCount 0 1 (modTel (fun t => { t with
          dumps := lmod t.dumps i fun d => { d with writing := none, seq := (d.seq + 1) % 2 ^ 64 } }) (hostWrite d.slot r u)))
        if d.cfg.notify then raise 0x13 3 (mainUnit 10) (pay [(i, 1), (0, 3), (d.seq, 8), (d.latch, 8)]) v else v))
  ∧ (∀ i d r a, Happens (fun t => .dumpRecordWritten t i (some a)) (fun u => u.tel.dumps[i]? = some d ∧ d.writing = some r)
      (fun u =>
        let v := modTel (fun t => { t with dumps := lmod t.dumps i fun d => { d with cfg := { d.cfg with en := false }, writing := none } }) u
        raise 0x13 4 (mainUnit 10) (pay [(i, 1)]) (pioCount 1 1 { v with host := { v.host with dmaErr := a } })))
  ∧ (∀ w n, Happens (fun t => .i2c0Access t w n) (fun u => u.boot.held = true ∨ u.flt.pilotDead = true)
      (fun u => { u with board := { u.board with i2cOut := none } }))
  ∧ (∀ n, Happens (fun t => .i2c0Access t [] n) (fun u => u.boot.held = false ∧ u.flt.pilotDead = false)
      (fun u => { u with board := { u.board with
        i2cOff := (u.board.i2cOff + n) % 256, i2cOut := some ((List.range n).map fun i => i2cReg u ((u.board.i2cOff + i) % 256)) } }))
  ∧ (∀ o w n, Happens (fun t => .i2c0Access t (o :: w) n) (fun u => u.boot.held = false ∧ u.flt.pilotDead = false)
      (fun u => { u with board := { u.board with
        i2cOff := (o % 256 + n) % 256, i2cOut := some ((List.range n).map fun i => i2cReg u ((o % 256 + i) % 256)) } }))
  ∧ Happens (fun t => .jtagInstruction t 1) (fun _ => True)
      (fun u => { u with aon := { u.aon with tap := 1 }, wire := .tdo 0x1A0128E5 :: u.wire })
  ∧ (∀ i, Happens (fun t => .jtagInstruction t i) (fun u => i ≠ 1 ∧ tapAccepts u i = true ∧ (i < 4 ∨ 7 < i))
      (fun u => { u with aon := { u.aon with tap := i } }))
  ∧ (∀ i, 4 ≤ i → i ≤ 7 → Happens (fun t => .jtagInstruction t i) (fun u => tapAccepts u i = true)
      (fun u => { u with
        aon := { u.aon with tap := i }
        twin := if u.id.lifecycle = 0 ∨ u.id.lifecycle = 3 then u.twin else { u.twin with killOut := false } }))
  ∧ (∀ i, Happens (fun t => .jtagInstruction t i) (fun u => tapAccepts u i = false) (fun u => { u with aon := { u.aon with tap := 0 } }))
  ∧ Happens .trstNAssert (fun _ => True) (fun u => { u with aon := { u.aon with tap := 1 } })

/-- Fault events (R519, R521, R523, R524, R525, R529 and R564): a detected error, a restored cluster, the MPC's failure and recovery, the
pilot's failures, the power warning and a lost reference clock. The model's choice: that a row carries its instant (log 16), and where the
spec leaves a corner open what logs 36, 79, 117, 120, 123 say. -/
def Obligations.FaultEventsComplete : Prop :=
  (∀ unit kind detail, Happens (fun t => .errorDetected t unit kind detail) (fun u => u.boot.held = false ∧ 1 ≤ kind ∧ kind ≤ 15
        ∧ ¬(kind = 2 ∧ (unit = unitOf 60 2 ∨ unit = unitOf 60 3))
        ∧ soundingMasks u (clusterOf unit) = false) (fun u => errorAct unit kind detail u))
  ∧ (∀ pool detail, Happens (fun t => .errorDetected t (unitOf 60 2 + pool) 2 detail) (fun u => u.boot.held = false ∧ pool < 2
        ∧ soundingMasks u (clusterOf (unitOf 60 2 + pool)) = false)
      (fun u => bufferLost pool detail (errorAct (unitOf 60 2 + pool) 2 detail u)))
  ∧ (∀ d f, Happens (fun t => .clusterRestored t d) (fun u => tget u.flt.fences d = some f ∧ f.perm = false ∧ u.id.fwState ≠ 3
        ∧ coreClocks u.tm.sub = 0)
      (fun u => raise 0x12 3 (unitOf d 63) (pay [(d, 1)]) (faultCount 5 1 (moveSlices (reinit d { u with flt := { u.flt with
        fences := terase u.flt.fences d } })))))
  ∧ (∀ cause, Happens (fun t => .mpcFailed t cause) (fun u => u.boot.held = false ∧ u.boot.ready = true ∧ u.flt.mpcFailed = false
        ∧ (cause = 3 → u.boot.swap = 3) ∧ u.id.fwState = 3) (fun u => { u with flt := { u.flt with mpcFailed := true } }))
  ∧ (∀ cause times, Happens (fun t => .mpcFailed t cause) (fun u => u.boot.held = false ∧ u.boot.ready = true ∧ u.flt.mpcFailed = false
        ∧ (cause = 3 → u.boot.swap = 3) ∧ u.id.fwState ≠ 3
        ∧ times = (u.flt.mpcTimes.filter fun x => decide (elapsed u < x + 3600 * secU)) ++ [elapsed u] ∧ 4 ≤ times.length)
      (fun u => enterSafe 5 (raiseLogged 4 (aonUnit 0) (pay [(cause, 1), (times.length, 1)])
        { errorReport (mainUnit 0) 8 0 u with
          flt := { (errorReport (mainUnit 0) 8 0 u).flt with mpcTimes := times, mpcFailed := true } })))
  ∧ (∀ cause times, Happens (fun t => .mpcFailed t cause) (fun u => u.boot.held = false ∧ u.boot.ready = true ∧ u.flt.mpcFailed = false
        ∧ (cause = 3 → u.boot.swap = 3) ∧ u.id.fwState ≠ 3
        ∧ times = (u.flt.mpcTimes.filter fun x => decide (elapsed u < x + 3600 * secU)) ++ [elapsed u] ∧ times.length < 4)
      (fun u =>
        let r := errorReport (mainUnit 0) 8 0 u
        mpcRestart (raiseLogged 4 (aonUnit 0) (pay [(cause, 1), (times.length, 1)])
          { r with flt := { r.flt with mpcTimes := times, mpcFailed := true } })))
  ∧ Happens .mpcRecovered (fun u => u.flt.mpcFailed = true ∧ u.id.fwState = 2)
      (fun u => firmwareReady u.id.image (protUpdate (raise 0x12 5 (aonUnit 0) (pay [(u.id.image, 1)])
        (faultCount 6 1 { u with flt := { u.flt with mpcFailed := false, recoveries := min (2 ^ 32 - 1) (u.flt.recoveries + 1) } }))))
  ∧ Happens .pilotLockstepMismatch (fun u => u.boot.held = false)
      (fun u => errorAct (aonUnit 0) 0xD 0 { u with flt := { u.flt with pilotDead := true } })
  ∧ Happens .pilotWatchdogExpiry (fun u => u.boot.held = false)
      (fun u => errorAct (aonUnit 1) 0xE 0 { u with flt := { u.flt with pilotDead := true } })
  ∧ Happens .powerWarning (fun u => u.boot.held = false) (fun u => errorAct (aonUnit 2) 0xF 0 u)
  ∧ (∀ clk, Happens (fun t => .refclkLoss t clk true) (fun u => clk ≤ 10 ∧ bit u.board.clkLost clk = false)
      (fun u =>
        let v := { u with board := { u.board with clkLost := u.board.clkLost + 2 ^ clk } }
        if u.boot.held then v else clockLost clk v))
  ∧ (∀ clk, Happens (fun t => .refclkLoss t clk false) (fun u => clk ≤ 10 ∧ bit u.board.clkLost clk = true)
      (fun u => { u with board := { u.board with clkLost := u.board.clkLost - 2 ^ clk } }))

/-- Power and thermal events (R188, R484, R492, R493 and R494): the four sensors of a region are read, a domain that enters its floor, the
wake of a path, its end, and the return of an octet to alternate dealing. The model's choice: that a row carries its instant (log 16), and
where the spec leaves a corner open what logs 77, 81, 130, 131 say. -/
def Obligations.PowerEventsComplete : Prop :=
  (∀ region sensors, Happens (fun t => .thermalSensorRead t region sensors)
        (fun u => u.boot.held = false ∧ region < 4 ∧ sensors.length = 4)
      (fun u =>
        let valid (x : Int × Bool) : Bool := x.2 && decide (-40 ≤ x.1) && decide (x.1 ≤ 150)
        let v := (sensors.zipIdx).foldl (fun s e => if valid e.1 then s else errorAct (aonUnit (6 + 4 * region + e.2)) 4 0 s) u
        let good := sensors.filter valid
        let temp : Int := if good.length < 2 then 106 else good.foldl (fun m x => max m x.1) (-40)
        let v := { v with board := { v.board with temp := v.board.temp.set region temp } }
        let v := if region < 2 then
            { v with tab := { v.tab with nextStep := lmod v.tab.nextStep region fun w => sageStep temp (v.tab.step.getD region 0) w } }
          else v
        if 115 ≤ temp then errorAct (aonUnit (6 + 4 * region)) 0xC 0 v else v))
  ∧ (∀ d, Happens (fun t => .domainEnterFloor t d) (fun u => u.boot.swap < 2 ∧ (domOf u d).wake = 0 ∧ (domOf u d).st < (domOf u d).floor
        ∧ (domOf u d).floor < 4 ∧ max (domOf u d).asked (domOf u d).since + entryDelay (domOf u d).floor ≤ elapsed u
        ∧ (d = 39 → bridgeTraffic u = false))
      (fun u => setDom d (domOf u d).floor u))
  ∧ (∀ d path, Happens (fun t => .domainWake t d path) (fun _ => True)
      (fun u => (d :: wokenWith u d ++ match path with | some (p, eg) => halfPath p eg | none => []).foldl
        (fun s d => if (domOf s d).st ≤ 3 then wakeDom d s else s) u))
  ∧ (∀ d, Happens (fun t => .domainWakeDone t d) (fun u => (domOf u d).wake ≠ 0)
      (fun u =>
        let v := setDom d 0 u
        reorderRelease (if d ≤ 15 ∧ d % 2 = 1 ∧ bit v.pow.unconc (d / 2) = true then
          { v with pow := { v.pow with
            unconc := v.pow.unconc - 2 ^ (d / 2), octOn := v.pow.octOn - (if bit v.pow.octOn (d / 2) then 2 ^ (d / 2) else 0) } }
          else v)))
  ∧ (∀ k, Happens (fun t => .deconcentrate t k) (fun u => k < 8 ∧ bit u.pow.octOn k = true ∧ bit u.pow.unconc k = false
        ∧ (16384 < octetFill u k ∨ 16384 < ((u.fwd.egress.filter fun e => e.1 / 8 == k).map fun e => e.2.md.len).sum))
      (fun u =>
        let v := raise 0x10 2 govUnit (pay [(k, 1), (0, 1), (0, 1)]) (powCount 127 2 1 u)
        if (domOf v (2 * k + 1)).st = 0 then { v with pow := { v.pow with octOn := v.pow.octOn - 2 ^ k } }
        else wakeDom (2 * k + 1) { v with pow := { v.pow with unconc := v.pow.unconc + 2 ^ k } }))

/-- Self-test events (R500, R501, R507, R508, R509, R511, R513 and R545): a Sounding starts, ends its withdrawal, is postponed, passes or
is repeated, and is overdue; a scan run, a nonce and a survey's validity end; and an MPC sample. The model's choice: that a row carries
its instant (log 16), and where the spec leaves a corner open what logs 80, 123, 125, 132 say. -/
def Obligations.SelfTestEventsComplete : Prop :=
  (∀ d, Happens (fun t => .soundingStart t d) (fun u => coreClocks u.tm.sub = 0 ∧ d ≤ 79 ∧ u.test.run = none ∧ u.id.lifecycle = 1
        ∧ u.id.fwState = 1 ∧ soundEligible u d = true ∧ (u.test.asked.contains d = true ∨ soundDue u d = true))
      (fun u =>
        let x := u.test.slices.getD d {}
        let v := if 67 ≤ d ∧ d ≤ 78 then octetDown (d - 67) u else if d = 79 then hawserFails u else u
        let set := if (setsFit v d).contains x.next then x.next else nextSet v d x.next
        let mine := v.line.ports.filter fun e =>
          (decide (24 ≤ d) && decide (d ≤ 31) && e.1 / 8 == d - 24) || (decide (32 ≤ d) && decide (d ≤ 35) && e.1 / 16 == d - 32)
        let v := { v with test := { v.test with
          asked := v.test.asked.filter fun e => e != d
          run := some { dom := d, phase := 0, set := set, start := v.tm.bounds, again := false, now := u.test.asked.contains d,
                        ports := (mine.filter fun e => e.2.inService).map fun e => e.1 } } }
        let v := mine.foldl (fun s e => outOfService e.1 3 s) (testCount 0 1 (setDom d 6 v))
        let v := if d = 61 ∨ d = 62 then modPool 1 (fun pl => pl.withdraw (d - 60)) v else v
        let v := match execSoundingStart.hbmStack d with
          | some i => modStack i (fun x => { x with selfRefresh := true }) v
          | none => v
        execSoundingStart.skipFlags d (moveSlices (if 67 ≤ d ∧ d ≤ 78 then fabCheck v else v))))
  ∧ (∀ r, Happens .soundingWithdrawn (fun u => u.test.run = some r ∧ r.phase = 0 ∧ holdsNone u r.dom = true)
      (fun u =>
        let v := { u with test := { u.test with run := some { r with phase := 1 } } }
        if 32 ≤ r.dom ∧ r.dom ≤ 35 then
          { v with line := { v.line with sas := tmap v.line.sas fun i x =>
            if i / 256 / 16 = r.dom - 32 then { x with work := List.replicate 32 0#8 } else x } }
        else v))
  ∧ (∀ r, Happens .soundingPostponed (fun u => u.test.run = some r ∧ r.phase = 0 ∧ (r.dom = 61 ∨ r.dom = 62) ∧ r.start + 8 ≤ u.tm.bounds
        ∧ holdsNone u r.dom = false)
      (fun u => postpone r.dom u))
  ∧ (∀ r sig, Happens (fun t => .soundingTestDone t sig true) (fun u => u.test.run = some r ∧ r.phase = 1)
      (fun u => { u with test := { u.test with run := some { r with phase := 2 } } }))
  ∧ (∀ r sig, Happens (fun t => .soundingTestDone t sig false) (fun u => u.test.run = some r ∧ r.phase = 1 ∧ r.again = false)
      (fun u => { u with test := { u.test with run := some { r with again := true } } }))
  ∧ (∀ r sig, Happens (fun t => .soundingTestDone t sig false) (fun u => u.test.run = some r ∧ r.phase = 1 ∧ r.again = true)
      (fun u =>
        let v := raise 0x11 2 mpcUnit (pay [(r.dom, 1), (r.set, 1), (sig, 8)]) (testCount 1 1 u)
        let v := modSlice r.dom (fun x => { x with failed := true }) { v with test := { v.test with run := none } }
        if errorAct.hbmDomain r.dom then errorAct (unitOf r.dom 63) 7 sig v
        else
          let v := errorReport (unitOf r.dom 63) 7 sig v
          let v := if forwardingPath r.dom then noteSuspect v else v
          if v.twin.st = 1 ∧ v.twin.peer = 2 ∧ v.twin.switch.isNone ∧ switchoverCluster v r.dom then
            { v with twin := { v.twin with switch := some { n := earliestSwitch v } } } else v))
  ∧ (∀ d k, Happens (fun t => .soundingOverdue t d) (fun u => d ≤ 79 ∧ u.test.enable = true
        ∧ k = (u.tm.bounds - u.test.start) / soundPeriod u ∧ 1 ≤ k ∧ (u.test.slices.getD d {}).failed = false
        ∧ (u.test.slices.getD d {}).overduePeriod ≠ k
        ∧ ((u.test.slices.getD d {}).done = 0 ∨ (u.test.slices.getD d {}).done - 1 < u.test.start + (k - 1) * soundPeriod u))
      (fun u => raise 0x11 3 mpcUnit (pay [(d, 1)]) (testCount 4 1
        (modSlice d (fun x => { x with overdue := true, overduePeriod := k }) u))))
  ∧ (∀ bits first sig ver, Happens (fun t => .scanFullRunDone t bits first sig ver) (fun u => u.test.scan = true)
      (fun u => packageReset u.id.devid u.id.twinEn ver { u with aon := { u.aon with scan := some (bits, first, sig) } }))
  ∧ Happens .nonceExpiry (fun u => u.test.nonceEnd ≤ u.tm.bounds) (fun u => { u with test := { u.test with nonce := none } })
  ∧ Happens .surveyValidityEnd (fun u => u.test.surveyEnd ≤ u.tm.bounds ∧ u.id.lifecycle = 2)
      (fun u => raise 0x11 4 (aonUnit 0) (pay [(2, 1), (1, 1)]) { u with id := { u.id with lifecycle := 1 } })
  ∧ (∀ i addr sel v, Happens (fun t => .sampleMpc t i addr) (fun u => sel = (bankOf u 80).sel.getD i {} ∧ sel.en = true ∧ sel.sample = true
        ∧ mpcEvent (sel.ev / 64) (sel.ev % 64) = true
        ∧ sampleAllowed 80 (modBank 80 (fun x => { x with pc := x.pc.set i (2 ^ 48 - sel.period) }) u) = (true, v))
      (fun u =>
        let w := modBank 80 (fun x => { x with pc := x.pc.set i (2 ^ 48 - sel.period) }) u
        raise 0x13 1 (bankUnit 80) (pay [(i, 1), (sel.ev / 64, 1), (0, 2), (addr, 8), ((bankOf w 80).dropped, 4)])
          (modBank 80 (fun x => { x with dropped := 0 }) v)))
  ∧ (∀ i addr sel v, Happens (fun t => .sampleMpc t i addr) (fun u => sel = (bankOf u 80).sel.getD i {} ∧ sel.en = true ∧ sel.sample = true
        ∧ mpcEvent (sel.ev / 64) (sel.ev % 64) = true
        ∧ sampleAllowed 80 (modBank 80 (fun x => { x with pc := x.pc.set i (2 ^ 48 - sel.period) }) u) = (false, v))
      (fun _ => v))

/-- HBM events (R359, R360, R362, R363, R364, R368, R372 and R373): training of every channel, a line write and a line read, a scrub read,
the end of a rank's migration and of a correctable-error window, the temperature and the end of a retraining window. The model's choice:
that a row carries its instant (log 16), and where the spec leaves a corner open what logs 62, 63, 136 say. -/
def Obligations.HbmEventsComplete : Prop :=
  (∀ i ms chans, Happens (fun t => .hbmTrainingDone t i ms false chans) (fun u => i < 6 ∧ (stackAt u i).st = 0) (fun u => stackFailed i u))
  ∧ (∀ i ms chans, Happens (fun t => .hbmTrainingDone t i ms true chans) (fun u => i < 6 ∧ (stackAt u i).st = 0)
      (fun u =>
        let cs := (List.range 32).map fun c => chans.getD c (false, 0, 0, 0)
        let okOf (c : Bool × Nat × Nat × Nat) : Bool := c.1 && decide (25 ≤ c.2.2.1) && decide (25 ≤ c.2.2.2)
        let v := modStack i (fun x => { x with
          selfRefresh := false
          chans := (x.chans.zip cs).map fun (x, c) =>
            { x with trained := okOf c, lanes := c.2.1 % 16, rdWin := c.2.2.1, wrWin := c.2.2.2 } }) u
        let v := match tget v.hbm.record i with
          | some r => modStack i (fun x => { x with map := r.map, failed := r.failed, donors := r.donors, migs := [] }) v
          | none => v
        let v := if i < 4 then (stackAt v i).donors.foldl (fun s d => poolRetire (donorBuffers i (d / 4)) s) v else v
        let bad := (List.range 32).filter fun c => !okOf (cs.getD c (false, 0, 0, 0))
        let v := bad.foldl (fun s c => modStack i (fun x => { x with
          failed := x.failed ++ (spareRanks.filter fun p => p / 4 == c && !x.failed.contains p) }) s) v
        let v := (bad.flatMap fun c => (List.range 4).map fun d => 4 * c + d).foldl (fun s p =>
          match ((stackAt s i).map.zipIdx).find? fun e => e.1.phys == p && decide (e.1.st ≤ 2) with
          | some (_, r) => rankOut i r 3 false s
          | none => s) v
        if (stackAt v i).st = 3 then v
        else raise 0x0E 1 (stackUnit i 63) (pay [(i, 1), (32 - bad.length, 1), (cs.foldl (fun n c => n + c.2.1) 0, 4), (ms, 4)])
          (modStack i (fun x => { x with st := if x.donors.isEmpty then 1 else 2 }) v)))
  ∧ (∀ i a w n r k whole idle sj sb, Happens (fun t => .hbmRequest t i a w n r k whole idle sj sb) (fun u => i < 6 ∧ a < 31 * gib
        ∧ (stackAt u i).st ≠ 0 ∧ (stackAt u i).st ≠ 3 ∧ (stackAt u i).selfRefresh = false)
      (fun u =>
        let ch := (stackAt u i).chans.getD (rankOf a / 4) {}
        let v := if ch.window then u else issueWrites i (rankOf a / 4) idle u
        if mustWait ch ⟨a, w, n, r, k, whole, sj, sb⟩ then
          modChan i (rankOf a / 4) (fun x => { x with wait := x.wait ++ [⟨a, w, n, r, k, whole, sj, sb⟩] }) v
        else request i ⟨a, w, n, r, k, whole, sj, sb⟩ v))
  ∧ (∀ i a r, Happens (fun t => .scrubRead t i a r) (fun u => i < 6 ∧ a < 31 * gib ∧ (stackAt u i).st ≠ 0 ∧ (stackAt u i).st ≠ 3
        ∧ (stackAt u i).selfRefresh = false ∧ ((stackAt u i).chans.getD (rankOf a / 4) {}).window = false)
      (fun u =>
        let v := if !(stackAt u i).backed (rankOf a) then u
          else if (stackAt u i).poison.contains (a / 64) then hbmCount i 9 1 u
          else if r = 3 then rankOut i (rankOf a) 1 true (errorAct (stackUnit i 33) 3 a (hbmCount i 5 1 u))
          else if r = 0 then u
          else corrected i a r u
        if a / 64 + 1 = 31 * gib / 64 then hbmCount i 18 1 v else v))
  ∧ (∀ i m ms ps, Happens (fun t => .rankMigrated t i ps) (fun u => (stackAt u i).migs = m :: ms)
      (fun u =>
        let lines := (ps.filter fun l => rankOf (64 * l) == m.rank).eraseDups
        let v := lines.foldl (fun s l => poisonAdd i l s) (hbmCount i 8 lines.length u)
        startMig i (raise 0x0E 3 (stackUnit i 63) (pay [(i, 1), (m.rank, 1), (m.target, 1), (lines.length, 4)])
          (remapRecord i (modStack i (fun x => { x with map := x.map.set m.rank ⟨if m.donor then 2 else 1, m.target⟩, migs := ms }) v)))))
  ∧ (∀ i r, Happens (fun t => .ceWindowEnd t i r) (fun u => tgetD (stackAt u i).ceFrom r 0 + 28800000 ≤ u.tm.bounds)
      (fun u => modStack i (fun x => { x with
        ce := terase x.ce r, ceHit := x.ceHit.filter fun y => y != r, ceFrom := tset x.ceFrom r u.tm.bounds }) u))
  ∧ (∀ i k, Happens (fun t => .hbmTemp t i k) (fun _ => i < 6)
      (fun u =>
        let v := modStack i (fun x => { x with temp := k }) u
        let (a, w) := tempStep i 85 k (stackAt v i).hot85 v
        let (b, w) := tempStep i 95 k (stackAt w i).hot95 w
        modStack i (fun x => { x with hot85 := a, hot95 := b }) w))
  ∧ (∀ i c x, Happens (fun t => .retrainWindowEnd t i c) (fun u => x = (stackAt u i).chans.getD c {} ∧ x.window = true
        ∧ (u.tm.tide - x.lastWin) * tideU + u.tm.sub < (memCfg u i).w * nsU)
      (fun u => requestsHeld i c (drain i c (modChan i c (fun x => { x with window := false, ovf := 0 }) u))))
  ∧ (∀ i c x, Happens (fun t => .retrainWindowEnd t i c) (fun u => x = (stackAt u i).chans.getD c {} ∧ x.window = true
        ∧ (memCfg u i).w * nsU ≤ (u.tm.tide - x.lastWin) * tideU + u.tm.sub ∧ x.ovf ≠ 2)
      (fun u => requestsHeld i c (drain i c (hbmCount i 15 1
        (modChan i c (fun x => { x with window := false, ovf := if true && x.ovf != 2 then x.ovf + 1 else 0 }) u)))))
  ∧ (∀ i c x, Happens (fun t => .retrainWindowEnd t i c) (fun u => x = (stackAt u i).chans.getD c {} ∧ x.window = true
        ∧ (memCfg u i).w * nsU ≤ (u.tm.tide - x.lastWin) * tideU + u.tm.sub ∧ x.ovf = 2)
      (fun u => requestsHeld i c (drain i c (raise 0x0E 7 (stackUnit i 63) (pay [(i, 1), (c, 1)]) (hbmCount i 15 1
        (modChan i c (fun x => { x with window := false, ovf := if true && x.ovf != 2 then x.ovf + 1 else 0 }) u))))))

/-- Line and MAC events (R55, R56, R57, R61, R64, R153 and R289): a port's conditions, a link declared up or down after its hold time, a
frame received on a port or on a transport client, a departure at a launch time, the MAC's own frame or the next waiting frame, and a
frame's pass through the egress pipeline. The model's choice: that a row carries its instant (log 16), and where the spec leaves a corner
open what logs 21, 25, 45, 91, 94, 111 say. -/
def Obligations.LineEventsComplete : Prop :=
  (∀ p f, Happens (fun t => .portConditionsChange t p f) (fun _ => True) (fun u => portConditions p f u))
  ∧ (∀ p x, Happens (fun t => .linkUp t p) (fun u => tget u.line.ports p = some x ∧ x.up = false ∧ holdReached x (elapsed u) = true)
      (fun u => linkChanged (raise 3 1 (macUnit p) (pay [(handle 0x30 p, 4)]) (skipDevice (modPort p (fun y => { y with
        up := !y.up, holdOn := false, cause := 0, declTide := u.tm.tide }) u)))))
  ∧ (∀ p x, Happens (fun t => .linkDown t p) (fun u => tget u.line.ports p = some x ∧ x.up = true ∧ holdReached x (elapsed u) = true)
      (fun u => linkChanged (raise 3 2 (macUnit p) (pay [(handle 0x30 p, 4), (x.cause, 1)]) (skipDevice (modPort p (fun y => { y with
        up := !y.up, holdOn := false, cause := 0, declTide := u.tm.tide }) u)))))
  ∧ (∀ p bs good ab dur x, Happens (fun t => .frameReceived t p none bs good ab dur) (fun u => macFenced u p none = false
        ∧ tget u.line.ports p = some x ∧ x.loop = 0 ∧ x.poweredOff = false ∧ (x.up = true ∨ ab = true))
      (fun u => macReceive (.port p) p bs good (ab || decide (x.conds ≠ 0)) dur u))
  ∧ (∀ p c bs good ab dur cl tp, Happens (fun t => .frameReceived t p (some c) bs good ab dur) (fun u => macFenced u p (some c) = false
        ∧ tget u.tr.clients c = some cl ∧ tget u.tr.ports p = some tp ∧ tp.enabled = true ∧ oduPort u 5 (handle 0x40 cl.odu) = p
        ∧ (cl.up = true ∨ ab = true))
      (fun u => macReceive (.client c) p bs good ab dur u))
  ∧ (∀ p cut x, Happens (fun t => .frameLaunch t p cut) (fun u => firstStart u p = some x ∧ x ≤ nowLin u)
      (fun u => sendNext p cut (fun k => k.start == some x) u))
  ∧ (∀ p cut, Happens (fun t => .macTransmitFrame t p cut false) (fun _ => True) (fun u => sendNext p cut (fun k => k.start.isNone) u))
  ∧ (∀ p cut x e m, Happens (fun t => .frameLaunch t p cut) (fun u => firstStart u p = some x ∧ x ≤ nowLin u
        ∧ (u.fwd.txq.find? fun e => e.1 == p && e.2.start == some x) = some e
        ∧ macOf u p e.2 = some m ∧ txOpen u p e.2.outClient = true ∧ macFenced u p e.2.outClient = false)
      (fun u => macSend m p e.2 cut (modFwd (fun w => { w with txq := w.txq.erase e }) u)))
  ∧ (∀ p cut e m, Happens (fun t => .macTransmitFrame t p cut false) (fun u => (u.fwd.txq.find? fun e => e.1 == p && e.2.start.isNone) = some e
        ∧ macOf u p e.2 = some m ∧ txOpen u p e.2.outClient = true ∧ macFenced u p e.2.outClient = false)
      (fun u => macSend m p e.2 cut (modFwd (fun w => { w with txq := w.txq.erase e }) u)))
  ∧ (∀ p cut e m, Happens (fun t => .macTransmitFrame t p cut false) (fun u => (u.fwd.txq.find? fun e => e.1 == p && e.2.start.isNone) = some e
        ∧ macOf u p e.2 = some m ∧ txOpen u p e.2.outClient = false ∧ macFenced u p e.2.outClient = false)
      (fun u => notSent p e.2 (macAdd m 44 1 (modFwd (fun w => { w with txq := w.txq.erase e }) u))))
  ∧ (∀ p cut x, Happens (fun t => .macTransmitFrame t p cut true) (fun u => u.tm.ports.getD p {} = x ∧ 0 < x.origRate
        ∧ (x.origLast = 0 ∨ x.origLast - 1 + secU / x.origRate ≤ elapsed u)
        ∧ thas u.line.ports p = true ∧ txOpen u p none = true)
      (fun u =>
        let v := modTimePort p (fun y => { y with origLast := elapsed u + 1, fifo := y.fifo.filter fun e => !e.own }) u
        let k : Pkt := { bytes := x.origTemplate, md := {}, own := true, cap := some 0 }
        let till := launchAt v p (nowLin v) + byteTime (max 64 (k.bytes.length + macsecBytes v p k.bytes + 4) + 20) (macRate v p)
        if gated v p then
          modFwd (fun w => { w with txq := w.txq ++ [(p, { k with start := some (launchAt v p (nowLin v)) })] })
            (modGate p (fun g => { g with busy := till }) v)
        else macSend (.port p) p k cut v))
  ∧ (∀ p e, Happens (fun t => .egressPipelinePass t p) (fun u => (u.fwd.egress.find? fun e => e.1 == p) = some e ∧ (domOf u 39).st ≠ 0)
      (fun u => if (domOf u 39).st = 6 ∧ fenced u 39 then notSent p e.2 (modFwd (fun w => { w with egress := w.egress.erase e }) u)
        else wakeDom 39 u))
  ∧ (∀ p e, Happens (fun t => .egressPipelinePass t p) (fun u => (u.fwd.egress.find? fun e => e.1 == p) = some e ∧ (domOf u 39).st = 0
        ∧ ((fenced (egressTaken p e u) 39 || fenced (egressTaken p e u) e.2.pipe) = true ∨ macOf (egressTaken p e u) p e.2 = none))
      (fun u => notSent p e.2 (egressTaken p e u)))
  ∧ (∀ p e m, Happens (fun t => .egressPipelinePass t p) (fun u => (u.fwd.egress.find? fun e => e.1 == p) = some e ∧ (domOf u 39).st = 0
        ∧ (fenced (egressTaken p e u) 39 || fenced (egressTaken p e u) e.2.pipe) = false ∧ macOf (egressTaken p e u) p e.2 = some m)
      (fun u =>
        let v := egressTaken p e u
        if !txOpen v p e.2.outClient then notSent p e.2 (macAdd m 44 1 v)
        else
          let x := egressEdit v (cfgEg v e.2.md.egEpoch) p e.2
          let w := samplePackets e.2.pipe 1 e.2.md.words (bankEvent e.2.pipe 10 16 1 (pipeCount e.2.pipe 17 x.exc v))
          match x.drop with
          | some .edit => notSent p e.2 w
          | some .ttl => notSent p e.2 (pipeCount e.2.pipe 18 1 w)
          | some .notEct => notSent p e.2 (schedCount (sliceUnit w e.2.md.queue) 3 1 w)
          | none => modFwd (fun f => { f with txq := f.txq ++ [(p, { e.2 with bytes := x.bytes })] }) w))

/-- Forwarding events (R133, R143 and R156): a waiting header dropped at the hold limit, an ingress pipeline pass that serves a waiting
header of its line, the retirement of an old epoch and its end ten microseconds into the tide. The model's choice: that a row carries its
instant (log 16), and where the spec leaves a corner open what logs 38, 42, 44, 111, 112, 127 say. -/
def Obligations.ForwardingEventsComplete : Prop :=
  (∀ o both held low v q, Happens (fun t => .holdLimitDrop t o) (fun u =>
        both = ((u.fwd.pipes.getD (2 * (o % 8)) {}).waiting.filter fun k => !k.pre)
          ++ ((u.fwd.pipes.getD (2 * (o % 8) + 1) {}).waiting.filter fun k => !k.pre)
        ∧ (both.find? fun k => decide (k.since + holdLimit u ≤ elapsed u)) = some held
        ∧ pickPkt (fun k x => decide (k.prio < x.prio) || (k.prio == x.prio && decide (k.since < x.since))) both = some low
        ∧ v = (if low.prio < held.prio then low else held)
        ∧ q = (if ((u.fwd.pipes.getD (2 * (o % 8)) {}).waiting.filter fun k => !k.pre).contains v then 2 * (o % 8) else 2 * (o % 8) + 1))
      (fun u => reorderRelease (pipeCount q (if throttle (modPipe q (fun x => { x with waiting := x.waiting.erase v }) (heldOctet o u)) = 0
        then 4 else 5) 1 (modPipe q (fun x => { x with waiting := x.waiting.erase v }) (heldOctet o u)))))
  ∧ (∀ pipe c idle bad p, Happens (fun t => .ingressPipelinePass t pipe c idle bad) (fun u => p = pipe % 16 ∧ slotClock u.fwd.slots c = true
        ∧ fenced u p = false)
      (fun u =>
        let v := (List.range idle).foldl (fun s _ => idleSlot p (modPipe p (slotTick s) s)) u
        let v := modPipe p (slotTick v) v
        let w := modPipe p (fun x => { x with tok := x.tok - 4 }) v
        match grantOf v p c with
        | .pre i res =>
          match (v.fwd.pipes.getD i {}).waiting.find? fun k => k.pre with
          | some k =>
            let v := modPipe i (fun x => { x with waiting := x.waiting.erase k }) (pipeCount p 0 1 v)
            runPass p bad k (if res then pipeCount p 2 1 v else v)
          | none => v
        | .recirc =>
          if 4 ≤ (v.fwd.pipes.getD p {}).tok then
            match (v.fwd.pipes.getD p {}).recirc with
            | k :: r => runPass p bad k (pipeCount p 3 1 (pipeCount p 0 1 (modPipe p (fun x => { x with recirc := r }) w)))
            | [] => v
          else idleSlot p (tabCount 12 1 v)
        | .line k =>
          if 4 ≤ (v.fwd.pipes.getD p {}).tok then
            runPass p bad k (pipeCount p 0 1 (modPipe p (fun x => { x with waiting := x.waiting.erase k }) w))
          else idleSlot p (tabCount 12 1 v)
        | .none => idleSlot p v))
  ∧ Happens (fun t => .epochRetire t 0) (fun u => ∀ p, p < 16 → staleIn u p = 0) retireIn
  ∧ Happens (fun t => .epochRetire t 1) (fun u => ∀ p, p < 16 → staleEg u p = 0) retireEg
  ∧ Happens (fun t => .epochStale t 0) (fun u => usU 10 ≤ u.tm.sub ∧ u.fwd.oldIn.isSome = true)
      (fun u =>
        let gone := (u.fwd.pipes.flatMap fun x => x.recirc.filter fun k => k.md.inEpoch != u.fwd.epoch)
          ++ (u.fwd.reorder ++ u.td.ingress).filter fun k => k.md.inEpoch != u.fwd.epoch
        let v := modFwd (fun w => { w with
          pipes := w.pipes.map fun x => { x with recirc := x.recirc.filter fun k => k.md.inEpoch == u.fwd.epoch }
          reorder := w.reorder.filter fun k => k.md.inEpoch == u.fwd.epoch }) u
        let v := modTd (fun t => { t with ingress := t.ingress.filter fun k => k.md.inEpoch == u.fwd.epoch }) v
        let v := gone.foldl (fun s k => capLost k (releasePkt false k s)) v
        reorderRelease (retireIn (((List.range 16).map fun p => (p, staleIn u p)).foldl (fun s e => staleReport 0 e.1 e.2 s) v)))
  ∧ Happens (fun t => .epochStale t 1) (fun u => usU 10 ≤ u.tm.sub ∧ u.fwd.oldEg.isSome = true)
      (fun u => retireEg (((List.range 16).map fun p => (p, staleEg u p)).foldl (fun s e => staleReport 1 e.1 e.2 s)
        ((u.fwd.egress.filter fun e => e.2.md.egEpoch != u.fwd.epoch).foldl (fun s e => notSent e.1 e.2 s)
          (modFwd (fun w => { w with egress := w.egress.filter fun e => e.2.md.egEpoch == u.fwd.epoch }) u))))

/-- Learning and table events (R198, R201, R203, R207, R211, R212, R213, R218 and R219): a learn request applied, a flap lock cleared, the
end of a move window, a sweep's visit, a comparison of a page that is skipped, unreadable, equal or unequal, a page repaired from the
twin, the flush walker and a flush's end, and the end of a Dill entry's hold. The model's choice: that a row carries its instant (log 16),
and where the spec leaves a corner open what logs 49, 50, 113, 114, 115, 116 say. -/
def Obligations.LearningEventsComplete : Prop :=
  (∀ i r tb, Happens (fun t => .learnRequestApply t i) (fun u => mayDrive u = true ∧ u.learn.queue[i]? = some r
        ∧ tget u.tab.dill r.table = some tb
        ∧ ((u.learn.queue.take i).any fun x => x.table == r.table && bucketOf tb x.key == bucketOf tb r.key) = false)
      (fun u => learnApply r tb (modLearn (fun l => { l with queue := l.queue.eraseIdx i }) u)))
  ∧ (∀ i r, Happens (fun t => .learnRequestApply t i) (fun u => mayDrive u = true ∧ u.learn.queue[i]? = some r
        ∧ tget u.tab.dill r.table = none) (modLearn (fun l => { l with queue := l.queue.eraseIdx i })))
  ∧ (∀ tab key m, Happens (fun t => .flapClear t tab key) (fun u => slotOf u tab key = some m ∧ m.lock ≠ 0 ∧ m.lock ≤ u.tm.tide + 1)
      (fun u => raise 8 5 mpcUnit (learnPay tab key []) (slotDrop tab key u)))
  ∧ (∀ tab key m, Happens (fun t => .moveWindowEnd t tab key) (fun u => slotOf u tab key = some m ∧ m.lock = 0
        ∧ m.start + (profOf u (keyDomain key)).window ≤ u.tm.tide) (fun u => slotDrop tab key u))
  ∧ (∀ tab b, Happens (fun t => .sweepVisit t tab b) (fun u => isLearnTable u tab = true ∧ mayDrive u = true)
      (fun u => (((bucketEntries u tab b).filter fun e => match e.1 with | .ovf _ => true | _ => false)
        ++ ((bucketEntries u tab b).filter fun e => match e.1 with | .ovf _ => false | _ => true)).foldl (fun s e => ageEntry tab e s) u))
  ∧ (∀ tab page unc twin tb v, Happens (fun t => .comparePageVisit t tab page unc twin) (fun u => tget u.tab.dill tab = some tb
        ∧ mayDrive u = true ∧ takePage tab page u = some v ∧ ((pageEntries v tab page).any fun e => e.2.2.v.open) = true)
      (fun _ => modLearn (fun l => { l with skipped := l.skipped ++ [(tab, page)] }) v))
  ∧ (∀ tab page b twin tb v, Happens (fun t => .comparePageVisit t tab page (some b) twin) (fun u => tget u.tab.dill tab = some tb
        ∧ mayDrive u = true ∧ takePage tab page u = some v ∧ ((pageEntries v tab page).any fun e => e.2.2.v.open) = false)
      (fun _ => sweepEnd (pageFail tab (page * 32 + b) (tabCount 7 1 v))))
  ∧ (∀ tab page twin tb v, Happens (fun t => .comparePageVisit t tab page none twin) (fun u => tget u.tab.dill tab = some tb
        ∧ mayDrive u = true ∧ takePage tab page u = some v ∧ ((pageEntries v tab page).any fun e => e.2.2.v.open) = false
        ∧ tget tb.digests page = none) (fun _ => sweepEnd v))
  ∧ (∀ tab page twin tb yours v, Happens (fun t => .comparePageVisit t tab page none twin) (fun u => tget u.tab.dill tab = some tb
        ∧ mayDrive u = true ∧ takePage tab page u = some v ∧ ((pageEntries v tab page).any fun e => e.2.2.v.open) = false
        ∧ tget tb.digests page = some yours ∧ canonDigest (pageCanon v tab tb page) = yours.toNat)
      (fun _ => sweepEnd (learnCount 14 1 (modDill tab (fun d => { d with pages := d.pages + 1 }) v))))
  ∧ (∀ tab page twin tb yours mine v w, Happens (fun t => .comparePageVisit t tab page none twin) (fun u => tget u.tab.dill tab = some tb
        ∧ mayDrive u = true ∧ takePage tab page u = some v ∧ ((pageEntries v tab page).any fun e => e.2.2.v.open) = false
        ∧ tget tb.digests page = some yours
        ∧ mine = canonDigest (pageCanon v tab tb page) ∧ mine ≠ yours.toNat
        ∧ w = learnCount 14 1 (modDill tab (fun d => { d with pages := d.pages + 1 }) v))
      (fun _ => sweepEnd (raise 8 8 mpcUnit
        (pay [(tab, 1), (page, 3), (mine, 4), (yours.toNat, 4), (b2n (repairable w tb && twin == some yours.toNat), 1)])
        (learnCount 15 1 (modDill tab (fun d => { d with mism := d.mism + 1, sweepBad := d.sweepBad + 1 }) w)))))
  ∧ (∀ tab page form tb m, Happens (fun t => .twinPageRepair t tab page form) (fun u => tget u.tab.dill tab = some tb
        ∧ m = form.foldl (fun m e => tset m (e.1 % 2 ^ 160) 
          ({ act := e.2.1 % 2 ^ 24, cookie := toWord e.2.2.2, static := bit e.2.2.1 7, learned := bit e.2.2.1 6, port := bits e.2.2.1 5 0 } : DillVal)) []
        ∧ repairable u tb = true ∧ (tget tb.digests page).map BitVec.toNat = some (canonDigest m)
        ∧ ((pageEntries u tab page).any fun e => e.2.2.v.open) = false)
      (fun u => raise 8 9 mpcUnit (pay [(tab, 1), (page, 3)]) (learnCount 16 1 (modDill tab (fun d => { d with
        failed := d.failed.filter fun p => p != page, bad := d.bad.filter fun b => b / 32 != page, repaired := d.repaired + 1 }) (pageRewrite tab page tb m u)))))
  ∧ (∀ id tab b, Happens (fun t => .flushWalkerVisit t id tab b) (fun u => isLearnTable u tab = true ∧ mayDrive u = true)
      (fun u => flushBucket id tab b u))
  ∧ (∀ id f v, Happens (fun t => .flushDone t id) (fun u => thas u.learn.flushes id = true ∧ mayDrive u = true
        ∧ v = (dillAll u).foldl (fun s e => if isLearnTable s e.2.1 then flushBucket id e.2.1 e.2.2.1 s else s) u
        ∧ tget v.learn.flushes id = some f)
      (fun _ => raise 8 6 mpcUnit (pay [(id, 4), (f.changed, 4)]) (modLearn (fun l => { l with flushes := terase l.flushes id }) v)))
  ∧ (∀ tab b, Happens (fun t => .dillNextHoldExpiry t tab b) (fun u =>
        (u.tab.held.any fun h => h.table == tab && h.bucket == b && decide (h.till ≤ elapsed u)) = true)
      (fun u => overFill tab b (modTab (fun st => { st with
        held := st.held.filter fun h => !(h.table == tab && h.bucket == b && decide (h.till ≤ elapsed u)) }) u)))

/-- Traffic director events (R228, R230, R231, R254, R256, R261 and R267): the clients' buffer requests of a clock served, a buffer
released by a holder of a shared buffer and by its owner and a buffer replicated, which the reference unit applies in a later clock, a
waiting frame enqueued, a port's scheduler that serves a queue, a shaper that has recovered, and a sampler's visit to a queue. The model's
choice: that a row carries its instant (log 16), and where the spec leaves a corner open what logs 51, 53, 54, 118, 122, 124, 125, 127
say. -/
def Obligations.TrafficEventsComplete : Prop :=
  (∀ pool reqs, Happens (fun t => .bufferAllocate t pool reqs) (fun _ => True)
      (fun u =>
        let p := min pool 1
        let rs := reqs.filter fun r => !fenced u 60 && decide (r.1 < 6) && decide (1 ≤ r.2) && decide (r.2 ≤ 16)
        let v := refSettle p (bufClock u) u
        let (_, gone, v) := (clientOrder (poolOf v p).last (rs.map fun r => r.1)).foldl (fun (h, gone, s) c =>
          match rs.find? fun r => r.1 == c with
          | some (_, k) =>
            let (h, d, s) := serveClient p c k h s
            (h, gone ++ d.toList, s)
          | none => (h, gone, s)) ((0, [], v) : Nat × List (Bool × Pkt) × State)
        gone.foldl (fun s d => capLost d.2 (emptyDrop d.1 d.2 s)) v))
  ∧ (∀ pool b id unit, Happens (fun t => .bufferRelease t pool b id unit) (fun _ => True)
      (fun u =>
        let v := refSettle (min pool 1) (bufClock u) u
        modPool (min pool 1) (fun pl => { pl with refs := pl.refs ++ [⟨bufClock v, false, b, id, unit⟩] }) v))
  ∧ (∀ pool b n, Happens (fun t => .bufferReplicate t pool b n) (fun _ => True)
      (fun u =>
        let v := refSettle (min pool 1) (bufClock u) u
        modPool (min pool 1) (fun pl => { pl with refs := pl.refs ++ [⟨bufClock v, true, b, n, 0⟩] }) v))
  ∧ (∀ p k b id unit now s, (poolOf s p).refs = [⟨k, false, b, id, unit⟩] → (poolOf s p).refAt ≤ k → k < now →
      refSettle p now s = bufReleaseAt (some k) p b id unit (modPool p (fun pl => { pl with refs := [], refAt := k + 1 }) s))
  ∧ (∀ p k b n unit now s, (poolOf s p).refs = [⟨k, true, b, n, unit⟩] → (poolOf s p).refAt ≤ k → k < now →
      refSettle p now s = bufReplicate p b n (modPool p (fun pl => { pl with refs := [], refAt := k + 1 }) s))
  ∧ (∀ p k b id unit x s, tget (poolOf s p).bufs b = some x → x.used = true → x.since ≠ k + 1 →
      (x.owner = 7 → 1 < x.count →
        bufReleaseAt (some k) p b id unit s = modPool p (fun pl => { pl with bufs := tset pl.bufs b { x with count := x.count - 1 } }) s)
      ∧ (x.owner = 7 → x.count ≤ 1 → bufReleaseAt (some k) p b id unit s = bufFree p b { x with count := 0 } s)
      ∧ (x.owner ≠ 7 → x.owner = id → bufReleaseAt (some k) p b id unit s = bufFree p b x s)
      ∧ (x.owner ≠ 7 → x.owner ≠ id → bufReleaseAt (some k) p b id unit s = badFree p b id x.owner 2 unit s))
  ∧ (∀ client egress i k, Happens (fun t => .queueEnqueue t client egress) (fun u => fenced u 60 = true
        ∧ i = ((waitingAt egress u).findIdx fun k => k.ready && k.owner == client) ∧ (waitingAt egress u)[i]? = some k)
      (fun u => fencedReq (40 + servingSlice u k.md.queue) 0 u))
  ∧ (∀ client egress i k, Happens (fun t => .queueEnqueue t client egress) (fun u => fenced u 60 = false
        ∧ i = ((waitingAt egress u).findIdx fun k => k.ready && k.owner == client) ∧ (waitingAt egress u)[i]? = some k)
      (fun u => enqueuePkt egress k (setWaiting egress ((waitingAt egress u).eraseIdx i) u)))
  ∧ (∀ port, Happens (fun t => .schedulerSelect t port) (fun u => portHeld (dropTooLongs port u) port = true
        ∨ mayDrive (dropTooLongs port u) = false ∨ fenced (dropTooLongs port u) (56 + port / 16) = true)
      (fun u => refreshPort port (dropTooLongs port u)))
  ∧ (∀ port v q co w, Happens (fun t => .schedulerSelect t port) (fun u => portHeld (dropTooLongs port u) port = false
        ∧ mayDrive (dropTooLongs port u) = true ∧ fenced (dropTooLongs port u) (56 + port / 16) = false
        ∧ v = refreshSelect port (nowLin (dropTooLongs port u)) (dropTooLongs port u) ∧ portChoice port (nowLin v) v = some (q, co, w))
      (fun _ => selectPkt port q co (noteSelection port (topBand w q) (if topBand w q then w else countDeferral port w))))
  ∧ (∀ port v, Happens (fun t => .schedulerSelect t port) (fun u => portHeld (dropTooLongs port u) port = false
        ∧ mayDrive (dropTooLongs port u) = true ∧ fenced (dropTooLongs port u) (56 + port / 16) = false
        ∧ v = refreshSelect port (nowLin (dropTooLongs port u)) (dropTooLongs port u) ∧ portChoice port (nowLin v) v = none)
      (fun _ => refreshPort port (countDeferral port v)))
  ∧ (∀ h p, Happens (fun t => .shaperRecovered t h) (fun u => portOfNode u h = some p) (fun u => refreshPort p u))
  ∧ (∀ q x, Happens (fun t => .samplerVisit t q) (fun u => tget u.td.queues q = some x)
      (fun u =>
        let v := queueSettled q u
        let w := match x.cfg.wred.findSome? fun i => tget v.td.wred i with
          | some w => modQueue q (fun y => { y with avg := avgNext y.avg x.depth w.w }) v
          | none => v
        match ageDrops q (min 4096 x.pkts.length) (sampleQueue q x.depth (match x.pkts with | k :: _ => delayOf v k | [] => 0) w) with
        | (n, r) =>
          if n = 0 then r
          else queueChanged q (if x.cfg.det then raise 0x0A 5 (sliceUnit r q) (pay [(handle 0xA0 q, 4), (n, 4)]) r else r)))

/-- Det-traffic events (R280, R286 and R293): a gate list that starts, a stream unit's frame and the reset of an elimination context. The
model's choice: that a row carries its instant (log 16), and where the spec leaves a corner open what logs 55, 56 say. -/
def Obligations.DetEventsComplete : Prop :=
  (∀ p l, Happens (fun t => .gateListStarted t p) (fun u => (u.det.gates.getD p {}).pend = some l ∧ l.t ≤ nowLin u ∧ l.clear = false)
      (fun u => refreshPort p (raise 0x0B 2 (quarterUnit p) (gatePay p l.t) (modGate p (fun g => g.settled (nowLin u)) u))))
  ∧ (∀ p l, Happens (fun t => .gateListStarted t p) (fun u => (u.det.gates.getD p {}).pend = some l ∧ l.t ≤ nowLin u ∧ l.clear = true)
      (fun u => refreshPort p (modGate p (fun g => g.settled (nowLin u)) u)))
  ∧ (∀ octet i k kk v, Happens (fun t => .streamUnitFrame t octet) (fun u =>
        i = (u.td.ingress.findIdx fun k => k.md.sValid && !k.unit && k.md.port / 8 == octet) ∧ u.td.ingress[i]? = some k
        ∧ streamFrame k u = (some kk, v))
      (fun _ => setWaiting false (v.td.ingress.set i kk) v))
  ∧ (∀ octet i k v, Happens (fun t => .streamUnitFrame t octet) (fun u =>
        i = (u.td.ingress.findIdx fun k => k.md.sValid && !k.unit && k.md.port / 8 == octet) ∧ u.td.ingress[i]? = some k
        ∧ streamFrame k u = (none, v))
      (fun _ => capLost k (setWaiting false (v.td.ingress.eraseIdx i) v)))
  ∧ (∀ ctx f, Happens (fun t => .frerResetTimeout t ctx) (fun u => tget u.det.frer ctx = some f ∧ f.any = false
        ∧ f.start + f.timeout ≤ u.tm.bounds)
      (fun u => raise 0x0B 7 mpcUnit (pay [(handle 0xB1 ctx, 4), (f.seq, 2)])
        (ctrAdd64 5 ctx 6 1 (modDet (fun d => { d with frer := tset d.frer ctx { f with any := true } }) u))))

/-- Transport and circuit events (R93, R96, R104, R106, R116, R121, R122 and R125): a defect set and cleared, a trace accepted, the end of
a trace's persistence, the end of a hold-off and of a wait to restore, K bytes accepted, a bridge not acknowledged, a VC-12 frame from the
transport network, a pseudowire packet, a playout, and loss of packets. The model's choice: that a row carries its instant (log 16), and
where the spec leaves a corner open what logs 31, 33, 96, 97, 100, 101, 102, 104, 105, 106, 107, 108, 109 say. -/
def Obligations.TransportEventsComplete : Prop :=
  (∀ o b rx, Happens (fun t => .defectSet t o b rx) (fun u => fenced u 36 = false)
      (fun u =>
        let v := takeLabel o rx.label u
        let v := if b = 1 then takeLanes o rx.lanes v else v
        defectsChanged o (if defectApplies v o b && framingFits v o b true rx.lanes then putDefect o b true v else v)))
  ∧ (∀ o b rx, Happens (fun t => .defectClear t o b rx) (fun u => fenced u 36 = false)
      (fun u =>
        let v := takeLabel o rx.label u
        let v := if b = 1 then takeLanes o rx.lanes v else v
        defectsChanged o (if defectApplies v o b && framingFits v o b false rx.lanes then putDefect o b false v else v)))
  ∧ (∀ o n trace m, Happens (fun t => .traceAccepted t o ⟨n, trace⟩) (fun u => fenced u 36 = false ∧ monOf u o = some m
        ∧ (if m.acc5 then 5 else 3) ≤ n ∧ traceSound u o m trace = true ∧ m.accTrace = trace)
      (fun u => timJudge o false (modMon o (fun m => { m with accTrace := trace }) u)))
  ∧ (∀ o n trace m, Happens (fun t => .traceAccepted t o ⟨n, trace⟩) (fun u => fenced u 36 = false ∧ monOf u o = some m
        ∧ (if m.acc5 then 5 else 3) ≤ n ∧ traceSound u o m trace = true ∧ m.accTrace ≠ trace)
      (fun u => timJudge o false (raise 4 3 monUnit (leBytes (objHandle o) 4 ++ (trace ++ List.replicate 16 0#8).take 16)
        (modMon o (fun m => { m with accTrace := trace }) u))))
  ∧ (∀ o, Happens (fun t => .timPersistenceExpiry t o) (fun u => fenced u 36 = false) (fun u => timJudge o false u))
  ∧ (∀ i g, Happens (fun t => .holdoffExpiry t i) (fun u => fenced u 36 = false ∧ tget u.tr.groups i = some g ∧ u.twin.st ≤ 1)
      (fun u => putProt i g (protSelect u.tm.bounds (workerBad g) (protHoldExpire u.tm.bounds (protRaw u g) g)) u))
  ∧ (∀ i g e, Happens (fun t => .wtrExpiry t i) (fun u => fenced u 36 = false ∧ tget u.tr.groups i = some g ∧ g.wtrAt = some e
        ∧ e ≤ u.tm.bounds ∧ u.twin.st ≤ 1)
      (fun u => putProt i g (protSelect u.tm.bounds false { g with wtrAt := none }) u))
  ∧ (∀ i k1 k2 g g2 c v, Happens (fun t => .apsKBytesAccepted t i k1 k2) (fun u => fenced u 36 = false ∧ tget u.tr.groups i = some g
        ∧ g.bidir = true
        ∧ c = (if bit k2 3 || k2 % 8 == 4 then 1 else if !k1Valid (k1 % 256) then 3
            else if g.fop = 2 ∧ k2 / 16 % 16 ≠ b2n g.side then 2 else 0)
        ∧ v = setFop i c { u with tr := { u.tr with groups := tset u.tr.groups i { g with rxK1 := k1 % 256, rxK2 := k2 % 256 } } }
        ∧ tget v.tr.groups i = some g2)
      (fun u => if u.twin.st ≤ 1 then putProt i g2 (protSelect u.tm.bounds (workerBad g2) g2) v else v))
  ∧ (∀ i g e, Happens (fun t => .apsBridgeTimeout t i) (fun u => fenced u 36 = false ∧ tget u.tr.groups i = some g ∧ g.fop = 0
        ∧ g.bridgeAt = some e ∧ e ≤ u.tm.bounds)
      (fun u => if u.twin.st ≤ 1 then protStep i (setFop i 2 u) else setFop i 2 u))
  ∧ (∀ i path frame c r, Happens (fun t => .vc12FrameComplete t i path frame) (fun u => tget u.circuits i = some c
        ∧ takesFrom u c path = true ∧ c.cfg.timing = 0 ∧ r = tdmTake i frame u)
      (fun _ => storeFull i (storePut i r.1 r.2)))
  ∧ (∀ i path frame c r, Happens (fun t => .vc12FrameComplete t i path frame) (fun u => tget u.circuits i = some c
        ∧ takesFrom u c path = true ∧ c.cfg.timing ≠ 0 ∧ r = tdmTake i frame u)
      (fun _ =>
        let v := modCircuit i (fun c => { c with coll := c.coll ++ r.1.toList }) r.2
        if c.cfg.n ≤ c.coll.length + 1 then sendPacket i v else v))
  ∧ (∀ i instant pkt v, Happens (fun t => .pseudowireReceived t i instant) (fun u => fenced u 36 = false ∧ nextPw i u = (some pkt, v)
        ∧ ((playDue v i = true ∧ firstClock v = true) ∨ (instant = true ∧ throughTimed v i = true)))
      (fun _ => playStep i (some pkt) v))
  ∧ (∀ i instant pkt v, Happens (fun t => .pseudowireReceived t i instant) (fun u => fenced u 36 = false ∧ nextPw i u = (some pkt, v)
        ∧ (playDue v i = false ∨ firstClock v = false) ∧ (instant = false ∨ throughTimed v i = false))
      (fun _ =>
        let w := if playDue v i then playStep i none v else v
        judgeStart i (judgeFull i (pwAccept i pkt w).1 (pwAccept i pkt w).2)))
  ∧ (∀ i c arr, Happens (fun t => .circuitPlayout t i arr) (fun u => fenced u 36 = false ∧ tget u.circuits i = some c
        ∧ (c.cfg.timing = 0 → c.played = false ∧ firstClock u = true))
      (fun u => if arr then playStep i (nextPw i u).1 (nextPw i u).2 else playStep i none u))
  ∧ (∀ i c, Happens (fun t => .lopsSet t i) (fun u => fenced u 36 = false ∧ tget u.circuits i = some c ∧ c.enabled = true ∧ c.bound ≠ 0
        ∧ c.lops = false ∧ lopsDue u c = true)
      (fun u => raise 5 1 (unitOf 36 12) (pay [(handle 0x50 i, 4)])
        (modCircuit i (fun c => { c with lops := true, playing := false, cur := { c.cur with lops := true } }) u)))

/-- Fabric events (R310, R316, R318, R320, R321, R322 and R324): a lane's state, a cell slot of a lane that sends for a deterministic
flow, for another flow or an idle cell, a cell received, a reorder timeout, a status message and its refresh, a token message, the issue
of tokens, and a reachability message, good or bad. The model's choice: that a row carries its instant (log 16), and where the spec leaves
a corner open what logs 60, 61, 128, 135 say. -/
def Obligations.FabricEventsComplete : Prop :=
  (∀ lane up far cause, Happens (fun t => .fabricLaneState t lane up far cause)
        (fun u => octetRho u (lane / 8) ≠ 0 ∧ domOut u (67 + lane / 8) = false) (fun u => fabricLane lane up far cause u))
  ∧ (∀ lane x, Happens (fun t => .fabricCellTransmit t lane) (fun u => octetRho u (lane / 8) ≠ 0 ∧ domOut u (67 + lane / 8) = false
        ∧ mayDrive u = true ∧ x = u.fab.lanes.getD lane {} ∧ x.due ≤ elapsed u)
      (fun u =>
        let v := if x.slot = 0 then controlSlot lane u else u
        let next := elapsed v + slotsU (if x.slot = 0 then 2 else 1) (octetRho u (lane / 8))
        cellSlot lane (modFabLane lane (fun x => { x with slot := if x.slot = 0 then 2 else (x.slot + 1) % 32, due := next }) v)))
  ∧ (∀ lane u, laneUsable u lane = false ∨ (u.fab.lanes.getD lane {}).use = false → cellSlot lane u = emit (.cell lane idleCell) u)
  ∧ (∀ lane d u, laneUsable u lane = true → (u.fab.lanes.getD lane {}).use = true
        → ((sendOrder u).find? fun d => flowLane u d true == some lane && flowWaits u d true) = some d
        → cellSlot lane u = sendCell d true lane (startPacket d true (modFab (fun f => { f with txDev := d + 1 }) u)))
  ∧ (∀ lane u, laneUsable u lane = true → (u.fab.lanes.getD lane {}).use = true
        → ((sendOrder u).find? fun d => flowLane u d true == some lane && flowWaits u d true) = none
        → (∀ d, ((sendOrder u).find? fun d => flowLane u d false == some lane && flowWaits u d false) = some d
            → cellSlot lane u = sendCell d false lane (startPacket d false (modFab (fun f => { f with txDev := d + 1 }) u)))
        ∧ (((sendOrder u).find? fun d => flowLane u d false == some lane && flowWaits u d false) = none
            → cellSlot lane u = emit (.cell lane idleCell) u))
  ∧ (∀ lane cell c l, Happens (fun t => .fabricCellReceived t lane cell false) (fun u => (flitOk cell = true → flitBits cell 127 124 ≠ 0)
        ∧ judgeFlit u lane cell false 1 (flitBits cell 119 110) (flitBits cell 109 100) = .bad c l) (countBad lane c l))
  ∧ (∀ lane cell c l, Happens (fun t => .fabricCellReceived t lane cell true) (fun u =>
        judgeFlit u lane cell true 1 (flitBits cell 119 110) (flitBits cell 109 100) = .bad c l) (countBad lane c l))
  ∧ (∀ lane cell key e off v, Happens (fun t => .fabricCellReceived t lane cell false) (fun u =>
        flitBits cell 127 124 ≠ 0
        ∧ judgeFlit u lane cell false 1 (flitBits cell 119 110) (flitBits cell 109 100) = .good
        ∧ v = fabLaneCount lane 1 1 (fabCount 1 1 u) ∧ key = 2 * flitBits cell 119 110 + flitBits cell 123 123
        ∧ e = (tgetD v.fab.rx key {}).e ∧ off = (flitBits cell 83 64 + 2 ^ 20 - e) % 2 ^ 20)
      (fun _ =>
        if 2 ^ 19 ≤ off then fabCount 6 1 v
        else settleRx key e (modRx key (fun f => { f with held := tset f.held (off - (off - 4095)) (beNat (cell.take 16), cell.drop 16) })
          (stepsRx key (off - 4095) v))))
  ∧ (∀ dev det key f n c r, Happens (fun t => .reorderTimeout t dev det) (fun u => key = 2 * dev + b2n det ∧ f = tgetD u.fab.rx key {}
        ∧ f.held = (n, c) :: r ∧ f.gap ≠ 0 ∧ f.gap - 1 + u.fab.reorder * nsU ≤ elapsed u)
      (fun u => settleRx key f.e (stepsRx key n u)))
  ∧ (∀ lane flit dm c l, Happens (fun t => .statusMessageReceived t lane flit dm) (fun u =>
        judgeFlit u lane flit dm 2 (flitBits flit 119 110) (flitBits flit 109 100) = .bad c l) (countBad lane c l))
  ∧ (∀ lane flit dm, Happens (fun t => .statusMessageReceived t lane flit dm) (fun u =>
        judgeFlit u lane flit dm 2 (flitBits flit 119 110) (flitBits flit 109 100) = .good
        ∧ tget (fabCount 12 1 u).fab.sysp (flitBits flit 99 84) = none) (fabCount 12 1))
  ∧ (∀ lane flit dm p l, Happens (fun t => .statusMessageReceived t lane flit dm) (fun u =>
        judgeFlit u lane flit dm 2 (flitBits flit 119 110) (flitBits flit 109 100) = .good
        ∧ tget (fabCount 12 1 u).fab.sysp (flitBits flit 99 84) = some (p, l))
      (fun u => sendToken (demandKey l (flitBits flit 119 110) (flitBits flit 99 84) (flitBits flit 122 120))
        (takeStatus l (flitBits flit 119 110) (flitBits flit 99 84) (flitBits flit 122 120) (flitBits flit 123 123 == 1)
          (flitBits flit 83 60) (flitBits flit 59 36) (flitBits flit 35 16) (fabCount 12 1 u))))
  ∧ (∀ lane flit dm c l, Happens (fun t => .tokenMessageReceived t lane flit dm) (fun u =>
        judgeFlit u lane flit dm 3 (flitBits flit 119 110) (flitBits flit 109 100) = .bad c l) (countBad lane c l))
  ∧ (∀ lane flit dm, Happens (fun t => .tokenMessageReceived t lane flit dm) (fun u =>
        judgeFlit u lane flit dm 3 (flitBits flit 119 110) (flitBits flit 109 100) = .good
        ∧ setOf (fabCount 14 1 u).td.sets (flitBits flit 99 84) = none) (fabCount 14 1))
  ∧ (∀ lane flit dm x y, Happens (fun t => .tokenMessageReceived t lane flit dm) (fun u =>
        judgeFlit u lane flit dm 3 (flitBits flit 119 110) (flitBits flit 109 100) = .good
        ∧ setOf (fabCount 14 1 u).td.sets (flitBits flit 99 84) = some (x, y))
      (fun u => takeToken (x + flitBits flit 122 120) (flitBits flit 83 60) (fabCount 14 1 u)))
  ∧ (∀ lane flit, Happens (fun t => .reachabilityReceived t lane flit true) (fun u => laneDeaf u lane = false) (countBad lane 3 (some 6)))
  ∧ (∀ lane flit, Happens (fun t => .reachabilityReceived t lane flit false) (fun u => laneDeaf u lane = false ∧ flitOk flit = false)
      (countBad lane 2 (some 5)))
  ∧ (∀ lane flit, Happens (fun t => .reachabilityReceived t lane flit false) (fun u => laneDeaf u lane = false ∧ flitOk flit = true
        ∧ (flitBits flit 127 124 ≠ 5 ∨ u.fab.mesh = true)) (countBad lane 4 none))
  ∧ (∀ lane flit d, Happens (fun t => .reachabilityReceived t lane flit false) (fun u => laneDeaf u lane = false ∧ flitOk flit = true
        ∧ flitBits flit 127 124 = 5 ∧ u.fab.mesh = false ∧ d = flitBits flit 123 114)
      (fun u => fabCheck (modFab (fun f => { f with lanes := lmod f.lanes lane fun x =>
        { x with noReach := if flitBits flit 113 113 == 1 then d :: x.noReach.filter (fun y => y != d) else x.noReach.filter fun y => y != d } }) u)))
  ∧ (∀ q r c x, Happens (fun t => .statusRefresh t q) (fun u => credOf u q = some (r, c) ∧ tget u.td.queues q = some x
        ∧ c.lastStatus + usU u.fab.refresh ≤ elapsed u ∧ (x.pkts ≠ [] ∨ 0 < c.credit)) (fun u => sendStatus q u))
  ∧ (∀ d, Happens (fun t => .creditTokenIssue t d) (fun _ => d ≤ 64) (fun u => creditRun d u))

/-- Twin events of the hawser and its records (R383, R384, R386, R392, R394, R396, R402, R403 and R531): the link up and down, a record
received, det frames, checkpoints, configuration and completion summaries applied, a time exchange's request and its answer, a manifest
compared and the last breath. The model's choice: that a row carries its instant (log 16), and where the spec leaves a corner open what
logs 64, 67, 68, 69 say. -/
def Obligations.TwinRecordEventsComplete : Prop :=
  (∀ lane cause v, Happens (fun t => .hawserLinkState t true lane cause) (fun u => u.id.twinEn = true ∧ u.twin.hawser = false
        ∧ domOut u 79 = false ∧ v = sendHealth (twinRaise 2 [] (modTwin (fun x => { x with hawser := true }) u)))
      (fun _ => if v.twin.st = 3 ∧ v.twin.join = 1 then startCopy v else v))
  ∧ (∀ lane cause, Happens (fun t => .hawserLinkState t false lane cause) (fun u => u.id.twinEn = true ∧ u.twin.hawser = true)
      (fun u => linkDown (twinRaise 3 (pay [(lane, 1), (cause, 1)])
        (modTwin (fun x => { x with query := 0 }) (modTwin (fun x => { x with hawser := false }) u)))))
  ∧ (∀ h dm r, Happens (fun t => .hawserRecordReceived t h dm r) (fun u => u.id.twinEn = true ∧ u.twin.hawser = true ∧ fenced u 79 = false
        ∧ (dm = true ∨ crc8 (bits h 31 8) 24 ≠ bits h 7 0 ∨ 10 ≤ bits h 31 28))
      (fun u =>
        let v := twinCount 7 1 u
        if v.twin.dMode ∧ 2 ≤ v.twin.st then skipDevice v else v))
  ∧ (∀ h r, Happens (fun t => .hawserRecordReceived t h false r) (fun u => u.id.twinEn = true ∧ u.twin.hawser = true ∧ fenced u 79 = false
        ∧ crc8 (bits h 31 8) 24 = bits h 7 0 ∧ bits h 31 28 < 10 ∧ bits h 31 28 = r.ty)
      (fun u => takeRecord r (bits h 27 14) u))
  ∧ (∀ ws bs v, Happens .detFrameRecord (fun u => rxTake (fun r => r.ty == 1 || r.ty == 2) u = (some (.frame ws bs), v))
      (fun _ => twinCount 6 1 (if v.twin.dMode && forwards v then takeReplica false ws bs v else v)))
  ∧ (∀ ws bs v, Happens .detFrameRecord (fun u => rxTake (fun r => r.ty == 1 || r.ty == 2) u = (some (.sample ws bs), v))
      (fun _ => if v.twin.dMode && forwards v then takeReplica true ws bs v else v))
  ∧ (∀ n classB items v, Happens .checkpointApply (fun u => ¬(u.twin.st = 3 ∧ u.twin.join = 1)
        ∧ rxTake (fun r => r.ty == 5) u = (some (.checkpoint n classB items), v) ∧ standbyApplies v = true)
      (fun _ =>
        let w := items.foldl (fun s it => ckTake n it s) v
        if classB then w else switchReady (modTwin (fun x => { x with lastCk := n }) w)))
  ∧ (∀ n classB items v, Happens .checkpointApply (fun u => ¬(u.twin.st = 3 ∧ u.twin.join = 1)
        ∧ rxTake (fun r => r.ty == 5) u = (some (.checkpoint n classB items), v) ∧ standbyApplies v = false) (fun _ => v))
  ∧ (∀ c v, Happens .configurationRecord (fun u => ¬(u.twin.st = 3 ∧ u.twin.join = 1) ∧ rxTake (fun r => r.ty == 6) u = (some (.config c), v))
      (fun _ => takeConfig c v))
  ∧ (∀ w v, Happens .completionSummaryTrim (fun u => rxTake (fun r => r.ty == 4) u = (some (.summary w), v) ∧ standbyApplies v = true)
      (fun _ => (List.range (wd w 2)).foldl (fun s i => trimVoq (fld w (3 + 3 * i) 19 0) (wd w (4 + 3 * i)) (wd w (5 + 3 * i)) s) v))
  ∧ (∀ v, Happens .timeExchange (fun u => rxTake (fun r => r.ty == 7) u = (some (.time none), v) ∧ v.twin.st = 1)
      (fun _ => emit (.hawser (.time (some (v.twin.timeArr, nowLin v, v.tm.st)))) v))
  ∧ (∀ t1 t2 t3 st v, Happens .timeExchange (fun u => rxTake (fun r => r.ty == 7) u = (some (.time (some (t2, t3, st))), v)
        ∧ v.twin.timeSent = some t1 ∧ 2 ≤ v.twin.st)
      (fun _ => setTimeState st (steer ((((t2 : Int) - t1) + ((t3 : Int) - v.twin.timeArr)) / 2) (modTwin (fun x => { x with timeSent := none }) v))))
  ∧ (∀ n w c v, Happens .manifestCompare (fun u => n = u.tm.tide - 1 ∧ u.twin.st = 2 ∧ usU 100 ≤ u.tm.sub ∧ u.tm.tide ≠ 0
        ∧ u.twin.lastMf < n ∧ u.twin.switch = none ∧ mfOf u.twin.twin n = some w
        ∧ (mfEntries w).foldl (fun r e => comparePort n (mfOf u.twin.twin (n - 1)) (flag w 2 0 || devSkip u n) e r) (({} : Compared), u) = (c, v))
      (fun _ => if v.twin.st = 2 then reportCompared n c v else v))
  ∧ (∀ n, Happens .manifestCompare (fun u => n = u.tm.tide - 1 ∧ u.twin.st = 2 ∧ usU 100 ≤ u.tm.sub ∧ u.tm.tide ≠ 0
        ∧ u.twin.lastMf < n ∧ u.twin.switch = none ∧ mfOf u.twin.twin n = none ∧ u.twin.hawser = true)
      (fun u => reportCompared n { bad := (linePorts u).map fun p => (p, 0, 0) } u))
  ∧ (∀ bs v, Happens .lastBreathReceived (fun u => rxTake (fun r => match r with
          | .control (.lastBreath _) => true
          | _ => false) u = (some (.control (.lastBreath bs)), v))
      (fun _ => twinFailed 1 (twinRaise 0x10 (bs.take 16) { v with aon := { v.aon with twin := some bs } })))

/-- Twin events of roles and takeover (R388, R389, R390, R405, R406, R409, R412, R413 and R414): a contest's referee, a lost heartbeat, a
query without answer, the mooring output and input, the kill input's edges, a takeover decided and activated, a switch that failed, the
ends of the bulk copy and of the warming, and an automatic join. The model's choice: that a row carries its instant (log 16), and where
the spec leaves a corner open what logs 65, 66, 69 say. -/
def Obligations.TwinRoleEventsComplete : Prop :=
  (∀ c pass w, Happens .refereeRun (fun u => w = lateDecision u ∧ w.twin.contest = some c ∧ c.own = none ∧ c.tide + 2 ≤ w.tm.tide
        ∧ pass = w.twin.vectors.all fun e => vectorPasses w e.2)
      (fun _ =>
        let v := twinCount 13 1 (modTwin (fun x => { x with contest := some { c with own := some pass } }) w)
        settleContest (if v.twin.hawser then emit (.hawser (.control (.referee c.tide pass))) v else v)))
  ∧ Happens .heartbeatLost (fun u => u.id.twinEn = true ∧ u.twin.hbLost = false ∧ (u.twin.moorIn - 1) + usU 150 ≤ elapsed u
        ∧ u.twin.hawser = true)
      (fun u => emit (.hawser (.control .query)) (modTwin (fun x => { x with query := elapsed u + 1 })
        (twinCount 12 1 (modTwin (fun x => { x with hbLost := true }) u))))
  ∧ Happens .heartbeatLost (fun u => u.id.twinEn = true ∧ u.twin.hbLost = false ∧ (u.twin.moorIn - 1) + usU 150 ≤ elapsed u
        ∧ u.twin.hawser = false)
      (fun u => twinRaise 9 [] (twinCount 12 1 (modTwin (fun x => { x with hbLost := true }) u)))
  ∧ Happens .healthQueryTimeout (fun u => u.twin.query ≠ 0 ∧ u.twin.query - 1 + usU 20 ≤ elapsed u)
      (fun u => twinFailed 2 (modTwin (fun x => { x with query := 0 }) u))
  ∧ Happens .mooringToggle (fun u => u.id.twinEn = true ∧ u.flt.mpcFailed = false ∧ u.flt.pilotDead = false ∧ u.id.fwState ≠ 3
        ∧ coreClocks u.tm.sub = 0 ∧ u.twin.moorAt ≠ 2 * u.tm.bounds + 1)
      (fun u => emit (.moor (!u.twin.moor)) (modTwin (fun x => { x with moor := !x.moor, moorAt := 2 * u.tm.bounds + 1 }) u))
  ∧ Happens .mooringToggle (fun u => u.id.twinEn = true ∧ u.flt.mpcFailed = false ∧ u.flt.pilotDead = false ∧ u.id.fwState ≠ 3
        ∧ coreClocks u.tm.sub ≠ 0 ∧ coreClocks u.tm.sub = coreClocks (tideLen u / 2) ∧ u.twin.moorAt ≠ 2 * u.tm.bounds + 2)
      (fun u => sendManifest (emit (.moor (!u.twin.moor)) (modTwin (fun x => { x with moor := !x.moor, moorAt := 2 * u.tm.bounds + 2 }) u)))
  ∧ Happens .mooringInputEdge (fun u => u.id.twinEn = true)
      (fun u => modTwin (fun x => { x with moorIn := elapsed u + 1, hbLost := false }) u)
  ∧ (∀ same, Happens (fun t => .killInRise t same) (fun u => u.id.twinEn = false ∨ u.twin.killOut = false
        ∨ (same && u.id.devid % 2 == 0) = true)
      (fun u => modTwin (fun x => { x with killIn := true, inFirst := same && u.id.devid % 2 == 0 }) u))
  ∧ (∀ same, Happens (fun t => .killInRise t same) (fun u => u.id.twinEn = true ∧ u.twin.killOut = true
        ∧ (same && u.id.devid % 2 == 0) = false)
      (fun u =>
        let v := goCold (modTwin (fun x => { x with killIn := true, inFirst := false }) u)
        if u.twin.st = 1 then takeoverEvent (freeVal v % 2 == 1) (freeVal v.took) v.took.took else v))
  ∧ Happens .killInFall (fun u => u.id.twinEn = false ∨ u.twin.killIn = false ∨ u.twin.st = 1 ∨ u.twin.switch.isSome = true)
      (fun u => modTwin (fun x => { x with killIn := false, inFirst := false }) u)
  ∧ Happens .killInFall (fun u => u.id.twinEn = true ∧ u.twin.killIn = true ∧ u.twin.st ≠ 1 ∧ u.twin.switch = none
        ∧ (u.twin.hawser = true ∨ (u.twin.moorIn ≠ 0 ∧ u.twin.hbLost = false)))
      (fun u => decideTakeover 1 (modTwin (fun x => { x with killIn := false, inFirst := false }) u))
  ∧ Happens .killInFall (fun u => u.id.twinEn = true ∧ u.twin.killIn = true ∧ u.twin.st ≠ 1 ∧ u.twin.switch = none
        ∧ u.twin.hawser = false ∧ (u.twin.moorIn = 0 ∨ u.twin.hbLost = true))
      (fun u => modTwin (fun x => { x with killIn := false, inFirst := false }) u)
  ∧ Happens .takeoverDecided (fun u => u.twin.detector ≠ 0 ∧ u.twin.takeAt = 0 ∧ 2 ≤ u.twin.st ∧ u.twin.st ≠ 4)
      (fun u => discardTxns 2 (berthTake (u.twin.st != 2) u))
  ∧ Happens .takeoverActivate (fun u => u.twin.takeAt ≠ 0 ∧ u.twin.killOut = true ∧ u.twin.takeAt - 1 ≤ elapsed u
        ∧ u.twin.detector = 0) becomeActive
  ∧ Happens .takeoverActivate (fun u => u.twin.takeAt ≠ 0 ∧ u.twin.killOut = true ∧ u.twin.takeAt - 1 ≤ elapsed u
        ∧ u.twin.detector ≠ 0)
      (fun u => takeoverEvent u.twin.cold u.twin.detector (twinCount 14 1 (becomeActive (if u.twin.dMode then u else pnAdvance u))))
  ∧ (∀ w, Happens .switchFailed (fun u => u.twin.switch = some w ∧ w.released = true ∧ u.twin.st = 2 ∧ u.twin.killOut = false
        ∧ u.twin.peer ≠ 1 ∧ w.n + 2 ≤ u.tm.tide)
      (fun u => twinRaise 0xD (pay [(w.n, 6)]) (becomeActive (modTwin (fun x => { x with killOut := !scanning u, inFirst := x.killIn }) u))))
  ∧ Happens .bulkCopyDone (fun u => u.twin.st = 3 ∧ u.twin.join = 1) (fun u => modTwin (fun x => { x with join := 2, rotate := 1025 }) u)
  ∧ Happens .twinWarm (fun u => u.twin.st = 3 ∧ u.twin.join = 2 ∧ u.twin.rotate = 0 ∧ u.boot.convert = false)
      (fun u => twinRaise 0xE (pay [(u.tm.tide, 6)]) (setTwinFree 2 (modTwin (fun x => { x with join := 0 }) u)))
  ∧ Happens .autoJoin (fun u => u.twin.auto = true ∧ (u.twin.st = 4 ∨ (u.twin.st = 5 ∧ u.twin.stale ≠ 4)) ∧ u.id.twinEn = true
        ∧ u.id.fwState = 1)
      (fun u => if canJoin u && versionsFit u then startJoin u else joinFails u)
end

