-- ==== Sys2Proof/Laws/Command.lean ====
section
/-! SUPPORT. What running a command can do, said once (R439, R442, R446). -/

namespace Sys2Proof.Machine

open Sys2Proof

theorem served_taken (k : Cmd) (c : Call) (q : List Word) (s : State) : served k (taken k c q s) = served k s := rfl

/-- A command that the checks refuse for no reason has no failed indirect read. -/
theorem indirectError_of_refuse_none {k : Cmd} {c : Call} {q : List Word} {s : State}
    (h : refuse k c q s = none) : indirectError c s = s := by
  cases hs : c.src <;> simp_all [indirectError, refuse]
  split at h <;> simp at h

/-- A ready command runs: its completion is that of its own run on the accepted state. -/
theorem runCommand_ready {k : Cmd} {c : Call} {q : List Word} {s : State} (h : Ready k c q s = true) :
    runCommand k c q s =
      (let r := directRun k c q (accepted k c q s)
       complete c.mb c.tag r.status r.resp r.st) := by
  simp only [Ready, Bool.and_eq_true, decide_eq_true_eq, Bool.not_eq_true'] at h
  obtain ⟨⟨⟨⟨hm, ht⟩, hv⟩, hr⟩, hw⟩ := h
  cases hb : s.ecs.mbs[c.mb]? with
  | none => simp [hb] at hm
  | some b =>
    have ho : b.owned = false := by simpa [hb] using hm
    have hr' : refuse k c q (taken k c q s) = none := by simpa using hr
    have hb' : (s.atTime c.t).ecs.mbs[c.mb]? = some b := hb
    have hv' : served k (s.atTime c.t) = true := hv
    have hv'' : served k (taken k c q s) = true := hv
    have hi : indirectError c (takeMb k c q (s.atTime c.t)) = taken k c q s := indirectError_of_refuse_none hr'
    simp only [runCommand, hb', ho, hv', hi, hr', Bool.false_eq_true, if_false, Bool.not_true]
    simp [runOwned, hv'', hw, runOp, ht, accepted]

/-- A ready command whose own meaning answers OK or ACCEPTED, and which admission lets stand, completes with that status. -/
theorem completes_of_act {st : Nat} {k : Cmd} {c : Call} {q : List Word} {s : State} {resp : List Word} {h : Nat} {v : State}
    (hs : st = stOk ∨ st = stAccepted) (hr : Ready k c q s = true)
    (ha : k.act ⟨.direct, c.mb, 0, 0, false⟩ q (accepted k c q s) = ⟨st, resp, v, h⟩)
    (hm : admits k (accepted k c q s) v = true) :
    runCommand k c q s = endState st k c q resp h (accepted k c q s) v := by
  rw [runCommand_ready hr]
  simp only [directRun, ha, endState, landed, if_pos hs]
  cases hk : k.adm with
  | false => simp; split <;> simp_all
  | true =>
    have hn : (admitChange (accepted k c q s) v).1 = none := by simpa [admits, hk] using hm
    cases hx : admitChange (accepted k c q s) v with
    | mk a b =>
      simp only [hx] at hn
      subst hn
      simp; split <;> simp_all

/-- A statement of the form Runs holds of a command whose row runs it and whose own meaning answers as it says. -/
theorem runs_of_act {st : Nat} {k : Cmd} {mk : Call → List Word → Instr} {cond : Call → List Word → State → Prop}
    {resp : Call → List Word → State → List Word} {h : Call → List Word → State → Nat} {f : Call → List Word → State → State}
    (hs : st = stOk ∨ st = stAccepted) (he : ∀ c q s, exec (mk c q) s = .next (runCommand k c q s))
    (ha : ∀ c q u, cond c q u → k.act ⟨.direct, c.mb, 0, 0, false⟩ q u = ⟨st, resp c q u, f c q u, h c q u⟩) :
    Runs st k mk cond resp h f := fun c q s hr hc hm => by
  rw [he, completes_of_act hs hr (ha c q _ hc) hm]

/-- A command that passes its checks at staging completes as its staging does. -/
theorem runCommand_staged {k : Cmd} {c : Call} {q : List Word} {s : State} {i : Nat} {x : Txn} (h : stageReady k c q s i x) :
    runCommand k c q s =
      (let r := stageRun k c q (taken k c q s)
       complete c.mb c.tag r.status r.resp r.st) := by
  obtain ⟨⟨b, hb, ho⟩, ht, hv, hr, hw, -, -⟩ := h
  have hb' : (s.atTime c.t).ecs.mbs[c.mb]? = some b := hb
  have hv' : served k (s.atTime c.t) = true := hv
  have hv'' : served k (taken k c q s) = true := hv
  have hi : indirectError c (takeMb k c q (s.atTime c.t)) = taken k c q s := indirectError_of_refuse_none hr
  simp only [runCommand, hb', ho, hv', hi, hr, Bool.false_eq_true, if_false, Bool.not_true]
  simp [runOwned, hv'', hw, runOp, ht]

/-- A command whose own meaning answers OK at staging, and which makes no object, is staged. -/
theorem staged_of_act {k : Cmd} {c : Call} {q : List Word} {s : State} {i : Nat} {x : Txn} {resp : List Word} {v : State}
    (h : stageReady k c q s i x) (ha : k.act ⟨.stage, c.mb, c.txn, 0, false⟩ q (taken k c q s) = ⟨stOk, resp, v, 0⟩) :
    runCommand k c q s = complete c.mb c.tag stOk resp (stagedIn k c q i x (taken k c q s)) := by
  rw [runCommand_staged h]
  obtain ⟨-, -, -, -, -, hs, hl⟩ := h
  simp [stageRun, hs, hl, ha, stagedIn, reserve]

end Sys2Proof.Machine
end

