-- ==== Sys2Proof/Laws/KeepBase.lean ====
section
/-! SUPPORT. What almost every command and event keeps: the lifecycle state and the queue of waiting commands (R500). -/

namespace Sys2Proof.Machine

open Sys2Proof

/-- The lifecycle state and the queue of waiting commands: what almost every command and event leaves as it was. -/
def keep (s : State) : Nat × List Instr := (s.id.lifecycle, s.pending)

theorem keep_mk (a : Ident) (b c d e f g h i j k l m n o p q r t u v w x y z aa ab ac) :
    keep ⟨a, b, c, d, e, f, g, h, i, j, k, l, m, n, o, p, q, r, t, u, v, w, x, y, z, aa, ab, ac⟩ = (a.lifecycle, ac) := rfl

theorem keep_fold (s : State) : (s.id.lifecycle, s.pending) = keep s := rfl

theorem keep_foldl {α : Type} (f : State → α → State) (h : ∀ s x, keep (f s x) = keep s) (l : List α) (s : State) :
    keep (l.foldl f s) = keep s := by
  induction l generalizing s with
  | nil => rfl
  | cons a l ih => exact (ih _).trans (h s a)

theorem keep_foldl_snd {α β : Type} (f : β × State → α → β × State) (h : ∀ p x, keep (f p x).2 = keep p.2) (l : List α) (p : β × State) :
    keep (l.foldl f p).2 = keep p.2 := by
  induction l generalizing p with
  | nil => rfl
  | cons a l ih => exact (ih _).trans (h p a)

theorem keep_ite (c : Prop) [Decidable c] (a b s : State) (ha : keep a = keep s) (hb : keep b = keep s) :
    keep (if c then a else b) = keep s := by split <;> assumption

theorem keep_ite_snd {α : Type} (c : Prop) [Decidable c] (a b : α × State) (s : State) (ha : keep a.2 = keep s) (hb : keep b.2 = keep s) :
    keep (if c then a else b).2 = keep s := by split <;> assumption

theorem keep_ite_snd2 {α β : Type} (c : Prop) [Decidable c] (a b : α × β × State) (s : State) (ha : keep a.2.2 = keep s)
    (hb : keep b.2.2 = keep s) : keep (if c then a else b).2.2 = keep s := by split <;> assumption

/-- The state after an outcome: the next state, or the state before where the step stops. -/
def after (o : Host.Outcome State Fault Refusal) (s : State) : State :=
  match o with
  | .next t => t
  | _ => s

theorem after_next (t s : State) : after (.next t) s = t := rfl

theorem keep_after_ite (c : Prop) [Decidable c] (a b : Host.Outcome State Fault Refusal) (s t : State) (ha : keep (after a t) = keep s)
    (hb : keep (after b t) = keep s) : keep (after (if c then a else b) t) = keep s := by split <;> assumption

theorem ite_some {α : Type} {c : Prop} [Decidable c] {a b : Option α} {r : α} (h : (if c then a else b) = some r) : a = some r ∨ b = some r := by
  split at h <;> simp [h]

theorem orElse_some {α : Type} {a b : Option α} {r : α} (h : (a.orElse fun _ => b) = some r) :
    a = some r ∨ b = some r := by
  cases a <;> simp_all

end Sys2Proof.Machine
end

