-- ==== Sys2Proof/Laws/KeepOps.lean ====
section
/-! SUPPORT. Each function of the shared operations and the running of a command keeps the lifecycle state and the queue of waiting commands (R500). -/

namespace Sys2Proof.Machine

open Sys2Proof

set_option maxRecDepth 4000
set_option linter.unusedSimpArgs false

/-! ### Ops.lean -/

theorem ctrPut_keep : ∀ a0 a1 a2 a3 a4, keep (ctrPut a0 a1 a2 a3 a4) = keep a4 := by
  intro a0 a1 a2 a3 a4
  unfold ctrPut
  rfl

theorem discardEvents_keep : ∀ a0 a1, keep (discardEvents a0 a1) = keep a1 := by
  intro a0 a1
  unfold discardEvents
  rfl

theorem discardEvent_keep : ∀ a0, keep (discardEvent a0) = keep a0 := by
  intro a0
  unfold discardEvent
  rfl

theorem raise_keep : ∀ a0 a1 a2 a3 a4, keep (raise a0 a1 a2 a3 a4) = keep a4 := by
  intro a0 a1 a2 a3 a4
  unfold raise
  (repeat' split) <;> rfl

theorem ctrAdd48_keep : ∀ a0 a1 a2 a3 a4 a5 a6 a7 a8, keep (ctrAdd48 a0 a1 a2 a3 a4 a5 a6 a7 a8) = keep a8 := by
  intro a0 a1 a2 a3 a4 a5 a6 a7 a8
  unfold ctrAdd48
  simp only [↓keep_mk, ↓keep_fold, ↓id_eq, ↓after_next, ↓ctrPut_keep, ↓raise_keep]
  (repeat' split) <;> simp only [↓keep_mk, ↓keep_fold, ↓id_eq, ↓after_next, ↓ctrPut_keep, ↓raise_keep]

theorem State_atTime_keep : ∀ a0 a1, keep (State.atTime a0 a1) = keep a0 := by
  intro a0 a1
  unfold State.atTime
  rfl

theorem State_took_keep : ∀ a0, keep (State.took a0) = keep a0 := by
  intro a0
  unfold State.took
  rfl

theorem emit_keep : ∀ a0 a1, keep (emit a0 a1) = keep a1 := by
  intro a0 a1
  unfold emit
  rfl

theorem sendHealth_keep : ∀ a0, keep (sendHealth a0) = keep a0 := by
  intro a0
  unfold sendHealth
  (repeat' split) <;> rfl

theorem twinRaise_keep : ∀ a0 a1 a2, keep (twinRaise a0 a1 a2) = keep a2 := by
  intro a0 a1 a2
  unfold twinRaise
  simp only [raise_keep]

theorem setTwin_keep : ∀ a0 a1 a2, keep (setTwin a0 a1 a2) = keep a2 := by
  intro a0 a1 a2
  unfold setTwin
  (repeat' split) <;> simp only [↓keep_mk, ↓keep_fold, ↓id_eq, ↓after_next, ↓sendHealth_keep, ↓twinRaise_keep]

theorem setTwinFree_keep : ∀ a0 a1, keep (setTwinFree a0 a1) = keep a1 := by
  intro a0 a1
  unfold setTwinFree
  (repeat' split) <;> simp only [↓keep_mk, ↓keep_fold, ↓id_eq, ↓after_next, ↓setTwin_keep, ↓State_took_keep]

theorem hostWrite_keep : ∀ a0 a1 a2, keep (hostWrite a0 a1 a2) = keep a2 := by
  intro a0 a1 a2
  unfold hostWrite
  rfl

theorem modTwin_keep : ∀ a0 a1, keep (modTwin a0 a1) = keep a1 := by
  intro a0 a1
  unfold modTwin
  rfl

theorem goStale_keep : ∀ a0 a1, keep (goStale a0 a1) = keep a1 := by
  intro a0 a1
  unfold goStale
  (repeat' split) <;> simp only [↓keep_mk, ↓keep_fold, ↓id_eq, ↓after_next, ↓twinRaise_keep, ↓modTwin_keep, ↓setTwin_keep]

theorem linkDown_keep : ∀ a0, keep (linkDown a0) = keep a0 := by
  intro a0
  unfold linkDown
  (repeat' split) <;> simp only [↓keep_mk, ↓keep_fold, ↓id_eq, ↓after_next, ↓twinRaise_keep, ↓goStale_keep]

theorem hawserFails_keep : ∀ a0, keep (hawserFails a0) = keep a0 := by
  intro a0
  unfold hawserFails
  (repeat' split) <;> simp only [↓keep_mk, ↓keep_fold, ↓id_eq, ↓after_next, ↓State_took_keep, ↓linkDown_keep, ↓twinRaise_keep, ↓modTwin_keep]

theorem moveSlices_keep : ∀ a0, keep (moveSlices a0) = keep a0 := by
  intro a0
  unfold moveSlices
  rfl

theorem modDom_keep : ∀ a0 a1 a2, keep (modDom a0 a1 a2) = keep a2 := by
  intro a0 a1 a2
  unfold modDom
  rfl

theorem toTwin_keep : ∀ a0 a1, keep (toTwin a0 a1) = keep a1 := by
  intro a0 a1
  unfold toTwin
  (repeat' split) <;> rfl

theorem signal_keep : ∀ a0 a1 a2, keep (signal a0 a1 a2) = keep a2 := by
  intro a0 a1 a2
  unfold signal
  simp only [↓keep_mk, ↓keep_fold, ↓id_eq, ↓after_next, ↓emit_keep]
  (repeat' split) <;> simp only [↓keep_mk, ↓keep_fold, ↓id_eq, ↓after_next, ↓emit_keep]

theorem pioCount_keep : ∀ a0 a1 a2, keep (pioCount a0 a1 a2) = keep a2 := by
  intro a0 a1 a2
  unfold pioCount
  simp only [ctrAdd48_keep]

theorem ctrAdd64_keep : ∀ a0 a1 a2 a3 a4, keep (ctrAdd64 a0 a1 a2 a3 a4) = keep a4 := by
  intro a0 a1 a2 a3 a4
  unfold ctrAdd64
  rfl

theorem twinCount_keep : ∀ a0 a1 a2, keep (twinCount a0 a1 a2) = keep a2 := by
  intro a0 a1 a2
  unfold twinCount
  simp only [ctrAdd48_keep]

theorem skipDevice_keep : ∀ a0, keep (skipDevice a0) = keep a0 := by
  intro a0
  unfold skipDevice
  (repeat' split) <;> rfl

theorem ctrClear_keep : ∀ a0 a1 a2 a3, keep (ctrClear a0 a1 a2 a3) = keep a3 := by
  intro a0 a1 a2 a3
  unfold ctrClear
  repeat' (first
    | with_reducible rfl
    | with_reducible assumption
    | simp only [↓keep_mk, ↓keep_fold, ↓id_eq, ↓after_next, ↓ctrPut_keep]
    | with_reducible refine keep_ite _ _ _ _ ?_ ?_
    | with_reducible refine keep_after_ite _ _ _ _ _ ?_ ?_
    | with_reducible refine (keep_foldl _ ?_ _ _).trans ?_
    | with_reducible refine (keep_foldl_snd _ ?_ _ _).trans ?_
    | (intros; simp only [*])
    | intro _
    | split)

theorem twinPortNew_keep : ∀ a0 a1, keep (twinPortNew a0 a1) = keep a1 := by
  intro a0 a1
  unfold twinPortNew
  rfl

theorem frameSeen_keep : ∀ a0 a1, keep (frameSeen a0 a1) = keep a1 := by
  intro a0 a1
  unfold frameSeen
  rfl

theorem learnLog_keep : ∀ a0 a1 a2 a3 a4, keep (learnLog a0 a1 a2 a3 a4) = keep a4 := by
  intro a0 a1 a2 a3 a4
  unfold learnLog
  (repeat' split) <;> rfl

theorem powCount_keep : ∀ a0 a1 a2 a3, keep (powCount a0 a1 a2 a3) = keep a3 := by
  intro a0 a1 a2 a3
  unfold powCount
  simp only [ctrAdd48_keep]

theorem wakeDom_keep : ∀ a0 a1, keep (wakeDom a0 a1) = keep a1 := by
  intro a0 a1
  unfold wakeDom
  simp only [↓keep_mk, ↓keep_fold, ↓id_eq, ↓after_next, ↓modDom_keep, ↓powCount_keep]
  (repeat' split) <;> simp only [↓keep_mk, ↓keep_fold, ↓id_eq, ↓after_next, ↓modDom_keep, ↓powCount_keep]

theorem lockViol_keep : ∀ a0, keep (lockViol a0) = keep a0 := by
  intro a0
  unfold lockViol
  rfl

theorem ringCount_keep : ∀ a0 a1 a2 a3, keep (ringCount a0 a1 a2 a3) = keep a3 := by
  intro a0 a1 a2 a3
  unfold ringCount
  simp only [ctrAdd48_keep]

theorem voqCompleted_keep : ∀ a0 a1, keep (voqCompleted a0 a1) = keep a1 := by
  intro a0 a1
  unfold voqCompleted
  (repeat' split) <;> rfl

theorem powTally_keep : ∀ a0 a1 a2, keep (powTally a0 a1 a2) = keep a2 := by
  intro a0 a1 a2
  unfold powTally
  rfl

theorem powPeak_keep : ∀ a0 a1 a2, keep (powPeak a0 a1 a2) = keep a2 := by
  intro a0 a1 a2
  unfold powPeak
  rfl

theorem skipPort_keep : ∀ a0 a1 a2, keep (skipPort a0 a1 a2) = keep a2 := by
  intro a0 a1 a2
  unfold skipPort
  (repeat' split) <;> rfl

theorem hostWriteWords_keep : ∀ a0 a1 a2, keep (hostWriteWords a0 a1 a2) = keep a2 := by
  intro a0 a1 a2
  unfold hostWriteWords
  rfl

theorem raiseAt_keep : ∀ a0 a1 a2 a3 a4 a5, keep (raiseAt a0 a1 a2 a3 a4 a5) = keep a5 := by
  intro a0 a1 a2 a3 a4 a5
  unfold raiseAt
  (repeat' split) <;> rfl

/-! ### TableOps.lean -/

theorem modTab_keep : ∀ a0 a1, keep (modTab a0 a1) = keep a1 := by
  intro a0 a1
  unfold modTab
  rfl

theorem dillPut_keep : ∀ a0 a1 a2, keep (dillPut a0 a1 a2) = keep a2 := by
  intro a0 a1 a2
  unfold dillPut
  (repeat' split) <;> rfl

theorem overCheck_keep : ∀ a0, keep (overCheck a0) = keep a0 := by
  intro a0
  unfold overCheck
  simp only [↓keep_mk, ↓keep_fold, ↓id_eq, ↓after_next, ↓raise_keep, ↓modTab_keep]
  (repeat' split) <;> simp only [↓keep_mk, ↓keep_fold, ↓id_eq, ↓after_next, ↓raise_keep, ↓modTab_keep]

theorem dillNew_keep : ∀ a0 a1 a2 a3 a4, keep (dillNew a0 a1 a2 a3 a4) = keep a4 := by
  intro a0 a1 a2 a3 a4
  unfold dillNew
  (repeat' split) <;> simp only [↓keep_mk, ↓keep_fold, ↓id_eq, ↓after_next, ↓modTab_keep, ↓overCheck_keep]

theorem dropSlot_keep : ∀ a0 a1, keep (dropSlot a0 a1) = keep a1 := by
  intro a0 a1
  unfold dropSlot
  (repeat' split) <;> rfl

theorem overFill_keep : ∀ a0 a1 a2, keep (overFill a0 a1 a2) = keep a2 := by
  intro a0 a1 a2
  unfold overFill
  repeat' (first
    | with_reducible rfl
    | with_reducible assumption
    | simp only [↓keep_mk, ↓keep_fold, ↓id_eq, ↓after_next, ↓overCheck_keep, ↓modTab_keep]
    | with_reducible refine keep_ite _ _ _ _ ?_ ?_
    | with_reducible refine keep_after_ite _ _ _ _ _ ?_ ?_
    | with_reducible refine (keep_foldl _ ?_ _ _).trans ?_
    | with_reducible refine (keep_foldl_snd _ ?_ _ _).trans ?_
    | (intros; simp only [*])
    | intro _
    | split)

theorem dillFree_keep : ∀ a0 a1, keep (dillFree a0 a1) = keep a1 := by
  intro a0 a1
  unfold dillFree
  (repeat' split) <;> simp only [↓keep_mk, ↓keep_fold, ↓id_eq, ↓after_next, ↓dropSlot_keep, ↓overFill_keep, ↓modTab_keep, ↓overCheck_keep]

theorem dillSweep_keep : ∀ a0, keep (dillSweep a0) = keep a0 := by
  intro a0
  unfold dillSweep
  repeat' (first
    | with_reducible rfl
    | with_reducible assumption
    | simp only [↓keep_mk, ↓keep_fold, ↓id_eq, ↓after_next, ↓dillFree_keep]
    | with_reducible refine keep_ite _ _ _ _ ?_ ?_
    | with_reducible refine keep_after_ite _ _ _ _ _ ?_ ?_
    | with_reducible refine (keep_foldl _ ?_ _ _).trans ?_
    | with_reducible refine (keep_foldl_snd _ ?_ _ _).trans ?_
    | (intros; simp only [*])
    | intro _
    | split)

theorem sorrelCheck_keep : ∀ a0, keep (sorrelCheck a0) = keep a0 := by
  intro a0
  unfold sorrelCheck
  simp only [↓keep_mk, ↓keep_fold, ↓id_eq, ↓after_next, ↓modTab_keep, ↓raise_keep]
  (repeat' split) <;> simp only [↓keep_mk, ↓keep_fold, ↓id_eq, ↓after_next, ↓modTab_keep, ↓raise_keep]

theorem discardTables_keep : ∀ a0 a1, keep (discardTables a0 a1) = keep a1 := by
  intro a0 a1
  unfold discardTables
  simp only [modTab_keep, overCheck_keep]

theorem modDill_keep : ∀ a0 a1 a2, keep (modDill a0 a1 a2) = keep a2 := by
  intro a0 a1 a2
  unfold modDill
  rfl

theorem pageHeal_keep : ∀ a0 a1 a2, keep (pageHeal a0 a1 a2) = keep a2 := by
  intro a0 a1 a2
  unfold pageHeal
  rfl

theorem placeHeal_keep : ∀ a0 a1, keep (placeHeal a0 a1) = keep a1 := by
  intro a0 a1
  unfold placeHeal
  (repeat' split) <;> rfl

theorem tabCount_keep : ∀ a0 a1 a2, keep (tabCount a0 a1 a2) = keep a2 := by
  intro a0 a1 a2
  unfold tabCount
  simp only [ctrAdd48_keep]

theorem sageMoveTo_keep : ∀ a0 a1, keep (sageMoveTo a0 a1) = keep a1 := by
  intro a0 a1
  unfold sageMoveTo
  rfl

theorem slmClear_keep : ∀ a0 a1, keep (slmClear a0 a1) = keep a1 := by
  intro a0 a1
  unfold slmClear
  rfl

theorem pageFail_keep : ∀ a0 a1 a2, keep (pageFail a0 a1 a2) = keep a2 := by
  intro a0 a1 a2
  unfold pageFail
  (repeat' split) <;> simp only [↓keep_mk, ↓keep_fold, ↓id_eq, ↓after_next, ↓raise_keep, ↓modDill_keep, ↓skipDevice_keep]

theorem cacheUse_keep : ∀ a0 a1, keep ((cacheUse a0 a1).2) = keep a1 := by
  intro a0 a1
  unfold cacheUse
  rfl

theorem dillLookup_keep : ∀ a0 a1 a2 a3 a4, keep ((dillLookup a0 a1 a2 a3 a4).2.2) = keep a4 := by
  intro a0 a1 a2 a3 a4
  unfold dillLookup
  simp only [↓keep_mk, ↓keep_fold, ↓id_eq, ↓after_next, ↓tabCount_keep, ↓cacheUse_keep, ↓pageFail_keep]
  (repeat' split) <;> simp only [↓keep_mk, ↓keep_fold, ↓id_eq, ↓after_next, ↓tabCount_keep, ↓cacheUse_keep, ↓pageFail_keep]

/-! ### TelemOps.lean -/

theorem modTel_keep : ∀ a0 a1, keep (modTel a0 a1) = keep a1 := by
  intro a0 a1
  unfold modTel
  rfl

theorem modBank_keep : ∀ a0 a1 a2, keep (modBank a0 a1 a2) = keep a2 := by
  intro a0 a1 a2
  unfold modBank
  rfl

theorem bankAdd_keep : ∀ a0 a1 a2 a3, keep (bankAdd a0 a1 a2 a3) = keep a3 := by
  intro a0 a1 a2 a3
  unfold bankAdd
  simp only [↓keep_mk, ↓keep_fold, ↓id_eq, ↓after_next, ↓modBank_keep, ↓State_took_keep]
  (repeat' split) <;> simp only [↓keep_mk, ↓keep_fold, ↓id_eq, ↓after_next, ↓modBank_keep, ↓State_took_keep]

theorem bankEvent_keep : ∀ a0 a1 a2 a3 a4, keep (bankEvent a0 a1 a2 a3 a4) = keep a4 := by
  intro a0 a1 a2 a3 a4
  unfold bankEvent
  repeat' (first
    | with_reducible rfl
    | with_reducible assumption
    | simp only [↓keep_mk, ↓keep_fold, ↓id_eq, ↓after_next, ↓bankAdd_keep]
    | with_reducible refine keep_ite _ _ _ _ ?_ ?_
    | with_reducible refine keep_after_ite _ _ _ _ _ ?_ ?_
    | with_reducible refine (keep_foldl _ ?_ _ _).trans ?_
    | with_reducible refine (keep_foldl_snd _ ?_ _ _).trans ?_
    | (intros; simp only [*])
    | intro _
    | split)

theorem telCount_keep : ∀ a0 a1 a2, keep (telCount a0 a1 a2) = keep a2 := by
  intro a0 a1 a2
  unfold telCount
  simp only [ctrAdd48_keep]

theorem bwAdd_keep : ∀ a0 a1 a2 a3, keep (bwAdd a0 a1 a2 a3) = keep a3 := by
  intro a0 a1 a2 a3
  unfold bwAdd
  rfl

theorem ledger_keep : ∀ a0 a1 a2 a3, keep (ledger a0 a1 a2 a3) = keep a3 := by
  intro a0 a1 a2 a3
  unfold ledger
  rfl

theorem fencedReq_keep : ∀ a0 a1 a2, keep (fencedReq a0 a1 a2) = keep a2 := by
  intro a0 a1 a2
  unfold fencedReq
  simp only [bankEvent_keep]

theorem sampleAllowed_keep : ∀ a0 a1, keep ((sampleAllowed a0 a1).2) = keep a1 := by
  intro a0 a1
  unfold sampleAllowed
  (repeat' split) <;> simp only [↓keep_mk, ↓keep_fold, ↓id_eq, ↓after_next, ↓telCount_keep, ↓modTel_keep, ↓modBank_keep]

theorem samplePackets_keep : ∀ a0 a1 a2 a3, keep (samplePackets a0 a1 a2 a3) = keep a3 := by
  intro a0 a1 a2 a3
  unfold samplePackets
  repeat' (first
    | with_reducible rfl
    | with_reducible assumption
    | simp only [↓keep_mk, ↓keep_fold, ↓id_eq, ↓after_next, ↓sampleAllowed_keep, ↓raise_keep, ↓modBank_keep]
    | simp only [*]
    | with_reducible refine keep_ite _ _ _ _ ?_ ?_
    | with_reducible refine keep_after_ite _ _ _ _ _ ?_ ?_
    | with_reducible refine keep_ite_snd _ _ _ _ ?_ ?_
    | with_reducible refine keep_ite_snd2 _ _ _ _ ?_ ?_
    | with_reducible refine (keep_foldl _ ?_ _ _).trans ?_
    | with_reducible refine (keep_foldl_snd _ ?_ _ _).trans ?_
    | (intros; simp only [*])
    | intro _
    | (split <;> try (rename_i h; first
        | (have k := (congrArg (fun p : _ × State => keep p.2) h).symm; simp only [↓keep_mk, ↓keep_fold, ↓id_eq, ↓after_next, ↓sampleAllowed_keep, ↓raise_keep, ↓modBank_keep] at k)
        | (have k := (congrArg (fun p : _ × _ × State => keep p.2.2) h).symm; simp only [↓keep_mk, ↓keep_fold, ↓id_eq, ↓after_next, ↓sampleAllowed_keep, ↓raise_keep, ↓modBank_keep] at k))))

/-! ### LineOps.lean -/

theorem modPort_keep : ∀ a0 a1 a2, keep (modPort a0 a1 a2) = keep a2 := by
  intro a0 a1 a2
  unfold modPort
  rfl

theorem dropSas_keep : ∀ a0 a1, keep (dropSas a0 a1) = keep a1 := by
  intro a0 a1
  unfold dropSas
  rfl

theorem macCount_keep : ∀ a0 a1 a2 a3, keep (macCount a0 a1 a2 a3) = keep a3 := by
  intro a0 a1 a2 a3
  unfold macCount
  (repeat' split) <;> simp only [↓keep_mk, ↓keep_fold, ↓id_eq, ↓after_next, ↓ctrPut_keep, ↓ctrAdd48_keep]

theorem modeChange_keep : ∀ a0 a1 a2, keep (modeChange a0 a1 a2) = keep a2 := by
  intro a0 a1 a2
  unfold modeChange
  rfl

theorem enterService_keep : ∀ a0 a1, keep (enterService a0 a1) = keep a1 := by
  intro a0 a1
  unfold enterService
  (repeat' split) <;> rfl

theorem declareLink_keep : ∀ a0 a1, keep (declareLink a0 a1) = keep a1 := by
  intro a0 a1
  unfold declareLink
  (repeat' split) <;> simp only [↓keep_mk, ↓keep_fold, ↓id_eq, ↓after_next, ↓modPort_keep, ↓raise_keep, ↓skipDevice_keep]

theorem degradeClear_keep : ∀ a0 a1, keep (degradeClear a0 a1) = keep a1 := by
  intro a0 a1
  unfold degradeClear
  simp only [raise_keep, modPort_keep]

theorem applyPortCfg_keep : ∀ a0 a1 a2, keep (applyPortCfg a0 a1 a2) = keep a2 := by
  intro a0 a1 a2
  unfold applyPortCfg
  simp only [↓keep_mk, ↓keep_fold, ↓id_eq, ↓after_next, ↓modPort_keep, ↓declareLink_keep, ↓degradeClear_keep]
  (repeat' split) <;> simp only [↓keep_mk, ↓keep_fold, ↓id_eq, ↓after_next, ↓modPort_keep, ↓declareLink_keep, ↓degradeClear_keep]

theorem forceClear_keep : ∀ a0 a1, keep (forceClear a0 a1) = keep a1 := by
  intro a0 a1
  unfold forceClear
  (repeat' split) <;> rfl

theorem outOfService_keep : ∀ a0 a1 a2, keep (outOfService a0 a1 a2) = keep a2 := by
  intro a0 a1 a2
  unfold outOfService
  (repeat' split) <;> simp only [↓keep_mk, ↓keep_fold, ↓id_eq, ↓after_next, ↓forceClear_keep, ↓modPort_keep, ↓raise_keep]

theorem macCounts_keep : ∀ a0 a1 a2, keep (macCounts a0 a1 a2) = keep a2 := by
  intro a0 a1 a2
  unfold macCounts
  repeat' (first
    | with_reducible rfl
    | with_reducible assumption
    | simp only [↓keep_mk, ↓keep_fold, ↓id_eq, ↓after_next, ↓macCount_keep]
    | with_reducible refine keep_ite _ _ _ _ ?_ ?_
    | with_reducible refine keep_after_ite _ _ _ _ _ ?_ ?_
    | with_reducible refine (keep_foldl _ ?_ _ _).trans ?_
    | with_reducible refine (keep_foldl_snd _ ?_ _ _).trans ?_
    | (intros; simp only [*])
    | intro _
    | split)

/-! ### TransportOps.lean -/

theorem putProt_keep : ∀ a0 a1 a2 a3, keep (putProt a0 a1 a2 a3) = keep a3 := by
  intro a0 a1 a2 a3
  unfold putProt
  simp only [↓keep_mk, ↓keep_fold, ↓id_eq, ↓after_next, ↓raise_keep, ↓skipDevice_keep]
  (repeat' split) <;> simp only [↓keep_mk, ↓keep_fold, ↓id_eq, ↓after_next, ↓raise_keep, ↓skipDevice_keep]

theorem protStep_keep : ∀ a0 a1, keep (protStep a0 a1) = keep a1 := by
  intro a0 a1
  unfold protStep
  (repeat' split) <;> simp only [↓keep_mk, ↓keep_fold, ↓id_eq, ↓after_next, ↓putProt_keep]

theorem protUpdate_keep : ∀ a0, keep (protUpdate a0) = keep a0 := by
  intro a0
  unfold protUpdate
  repeat' (first
    | with_reducible rfl
    | with_reducible assumption
    | simp only [↓keep_mk, ↓keep_fold, ↓id_eq, ↓after_next, ↓protStep_keep]
    | with_reducible refine keep_ite _ _ _ _ ?_ ?_
    | with_reducible refine keep_after_ite _ _ _ _ _ ?_ ?_
    | with_reducible refine (keep_foldl _ ?_ _ _).trans ?_
    | with_reducible refine (keep_foldl_snd _ ?_ _ _).trans ?_
    | (intros; simp only [*])
    | intro _
    | split)

theorem clientsUpdate_keep : ∀ a0, keep (clientsUpdate a0) = keep a0 := by
  intro a0
  unfold clientsUpdate
  rfl

theorem modMon_keep : ∀ a0 a1 a2, keep (modMon a0 a1 a2) = keep a2 := by
  intro a0 a1 a2
  unfold modMon
  (repeat' split) <;> rfl

theorem putDefect_keep : ∀ a0 a1 a2 a3, keep (putDefect a0 a1 a2 a3) = keep a3 := by
  intro a0 a1 a2 a3
  unfold putDefect
  (repeat' split) <;> simp only [↓keep_mk, ↓keep_fold, ↓id_eq, ↓after_next, ↓modMon_keep, ↓raise_keep]

theorem spreadSsf_keep : ∀ a0 a1 a2, keep ((spreadSsf a0 a1 a2)) = keep a2 := by
  intro a0 a1 a2
  induction a0 generalizing a1 a2 with
  | zero =>
    unfold spreadSsf
    repeat' (first
      | with_reducible rfl
      | with_reducible assumption
      | simp only [↓keep_mk, ↓keep_fold, ↓id_eq, ↓after_next, ↓putDefect_keep]
      | simp only [*]
      | with_reducible refine keep_ite _ _ _ _ ?_ ?_
      | with_reducible refine keep_after_ite _ _ _ _ _ ?_ ?_
      | with_reducible refine keep_ite_snd _ _ _ _ ?_ ?_
      | with_reducible refine keep_ite_snd2 _ _ _ _ ?_ ?_
      | with_reducible refine (keep_foldl _ ?_ _ _).trans ?_
      | with_reducible refine (keep_foldl_snd _ ?_ _ _).trans ?_
      | (intros; simp only [*])
      | intro _
      | (split <;> try (rename_i h; first
          | (have k := (congrArg (fun p : _ × State => keep p.2) h).symm; simp only [↓keep_mk, ↓keep_fold, ↓id_eq, ↓after_next, ↓putDefect_keep] at k)
          | (have k := (congrArg (fun p : _ × _ × State => keep p.2.2) h).symm; simp only [↓keep_mk, ↓keep_fold, ↓id_eq, ↓after_next, ↓putDefect_keep] at k))))
  | succ n ih =>
    unfold spreadSsf
    repeat' (first
      | with_reducible rfl
      | with_reducible assumption
      | simp only [↓keep_mk, ↓keep_fold, ↓id_eq, ↓after_next, ↓ih, ↓putDefect_keep]
      | simp only [*]
      | with_reducible refine keep_ite _ _ _ _ ?_ ?_
      | with_reducible refine keep_after_ite _ _ _ _ _ ?_ ?_
      | with_reducible refine keep_ite_snd _ _ _ _ ?_ ?_
      | with_reducible refine keep_ite_snd2 _ _ _ _ ?_ ?_
      | with_reducible refine (keep_foldl _ ?_ _ _).trans ?_
      | with_reducible refine (keep_foldl_snd _ ?_ _ _).trans ?_
      | (intros; simp only [*])
      | intro _
      | (split <;> try (rename_i h; first
          | (have k := (congrArg (fun p : _ × State => keep p.2) h).symm; simp only [↓keep_mk, ↓keep_fold, ↓id_eq, ↓after_next, ↓ih, ↓putDefect_keep] at k)
          | (have k := (congrArg (fun p : _ × _ × State => keep p.2.2) h).symm; simp only [↓keep_mk, ↓keep_fold, ↓id_eq, ↓after_next, ↓ih, ↓putDefect_keep] at k))))

theorem timingUpdate_keep : ∀ a0, keep (timingUpdate a0) = keep a0 := by
  intro a0
  unfold timingUpdate
  rfl

theorem defectsChangedAll_keep : ∀ a0 a1, keep (defectsChangedAll a0 a1) = keep a1 := by
  intro a0 a1
  unfold defectsChangedAll
  repeat' (first
    | with_reducible rfl
    | with_reducible assumption
    | simp only [↓keep_mk, ↓keep_fold, ↓id_eq, ↓after_next, ↓protUpdate_keep, ↓clientsUpdate_keep, ↓timingUpdate_keep, ↓spreadSsf_keep]
    | with_reducible refine keep_ite _ _ _ _ ?_ ?_
    | with_reducible refine keep_after_ite _ _ _ _ _ ?_ ?_
    | with_reducible refine (keep_foldl _ ?_ _ _).trans ?_
    | with_reducible refine (keep_foldl_snd _ ?_ _ _).trans ?_
    | (intros; simp only [*])
    | intro _
    | split)

theorem defectsChanged_keep : ∀ a0 a1, keep (defectsChanged a0 a1) = keep a1 := by
  intro a0 a1
  unfold defectsChanged
  simp only [defectsChangedAll_keep]

theorem timJudge_keep : ∀ a0 a1 a2, keep (timJudge a0 a1 a2) = keep a2 := by
  intro a0 a1 a2
  unfold timJudge
  simp only [↓keep_mk, ↓keep_fold, ↓id_eq, ↓after_next, ↓defectsChanged_keep, ↓putDefect_keep, ↓modMon_keep]
  (repeat' split) <;> simp only [↓keep_mk, ↓keep_fold, ↓id_eq, ↓after_next, ↓defectsChanged_keep, ↓putDefect_keep, ↓modMon_keep]

theorem takeLabel_keep : ∀ a0 a1 a2, keep (takeLabel a0 a1 a2) = keep a2 := by
  intro a0 a1 a2
  unfold takeLabel
  simp only [↓keep_mk, ↓keep_fold, ↓id_eq, ↓after_next, ↓modMon_keep, ↓putDefect_keep]
  (repeat' split) <;> simp only [↓keep_mk, ↓keep_fold, ↓id_eq, ↓after_next, ↓modMon_keep, ↓putDefect_keep]

/-! ### FwdOps.lean -/

theorem modFwd_keep : ∀ a0 a1, keep (modFwd a0 a1) = keep a1 := by
  intro a0 a1
  unfold modFwd
  rfl

theorem modPipe_keep : ∀ a0 a1 a2, keep (modPipe a0 a1 a2) = keep a2 := by
  intro a0 a1 a2
  unfold modPipe
  rfl

theorem ecmpUpdate_keep : ∀ a0, keep (ecmpUpdate a0) = keep a0 := by
  intro a0
  unfold ecmpUpdate
  repeat' (first
    | with_reducible rfl
    | with_reducible assumption
    | simp only [↓keep_mk, ↓keep_fold, ↓id_eq, ↓after_next, ↓raise_keep, ↓modFwd_keep, ↓skipDevice_keep]
    | with_reducible refine keep_ite _ _ _ _ ?_ ?_
    | with_reducible refine keep_after_ite _ _ _ _ _ ?_ ?_
    | with_reducible refine (keep_foldl _ ?_ _ _).trans ?_
    | with_reducible refine (keep_foldl_snd _ ?_ _ _).trans ?_
    | (intros; simp only [*])
    | intro _
    | split)

theorem parseReset_keep : ∀ a0 a1, keep (parseReset a0 a1) = keep a1 := by
  intro a0 a1
  unfold parseReset
  (repeat' split) <;> rfl

theorem setCfg_keep : ∀ a0 a1 a2, keep (setCfg a0 a1 a2) = keep a2 := by
  intro a0 a1 a2
  unfold setCfg
  (repeat' split) <;> rfl

theorem polClamp_keep : ∀ a0 a1 a2, keep (polClamp a0 a1 a2) = keep a2 := by
  intro a0 a1 a2
  unfold polClamp
  rfl

theorem pipeCount_keep : ∀ a0 a1 a2 a3, keep (pipeCount a0 a1 a2 a3) = keep a3 := by
  intro a0 a1 a2 a3
  unfold pipeCount
  simp only [ctrAdd48_keep]

theorem replicateFrame_keep : ∀ a0 a1 a2, keep (replicateFrame a0 a1 a2) = keep a2 := by
  intro a0 a1 a2
  unfold replicateFrame
  (repeat' split) <;> simp only [↓keep_mk, ↓keep_fold, ↓id_eq, ↓after_next, ↓emit_keep, ↓twinCount_keep]

theorem noteDecision_keep : ∀ a0 a1 a2, keep ((noteDecision a0 a1 a2).2) = keep a2 := by
  intro a0 a1 a2
  unfold noteDecision
  (repeat' split) <;> simp only [↓keep_mk, ↓keep_fold, ↓id_eq, ↓after_next, ↓replicateFrame_keep]

theorem police_keep : ∀ a0 a1 a2 a3 a4, keep ((police a0 a1 a2 a3 a4).2) = keep a4 := by
  intro a0 a1 a2 a3 a4
  unfold police
  rfl

theorem statAdd_keep : ∀ a0 a1 a2, keep (statAdd a0 a1 a2) = keep a2 := by
  intro a0 a1 a2
  unfold statAdd
  rfl

/-! ### TimeOps.lean -/

theorem syncEStep_keep : ∀ a0 a1, keep (syncEStep a0 a1) = keep a1 := by
  intro a0 a1
  unfold syncEStep
  simp only [↓keep_mk, ↓keep_fold, ↓id_eq, ↓after_next, ↓raise_keep]
  (repeat' split) <;> simp only [↓keep_mk, ↓keep_fold, ↓id_eq, ↓after_next, ↓raise_keep]

theorem syncEUpdate_keep : ∀ a0, keep (syncEUpdate a0) = keep a0 := by
  intro a0
  unfold syncEUpdate
  simp only [syncEStep_keep]

theorem timeCount_keep : ∀ a0 a1 a2 a3, keep (timeCount a0 a1 a2 a3) = keep a3 := by
  intro a0 a1 a2 a3
  unfold timeCount
  simp only [ctrAdd48_keep]

theorem modTimePort_keep : ∀ a0 a1 a2, keep (modTimePort a0 a1 a2) = keep a2 := by
  intro a0 a1 a2
  unfold modTimePort
  rfl

theorem tsStore_keep : ∀ a0 a1 a2 a3 a4 a5 a6, keep (tsStore a0 a1 a2 a3 a4 a5 a6) = keep a6 := by
  intro a0 a1 a2 a3 a4 a5 a6
  unfold tsStore
  simp only [↓keep_mk, ↓keep_fold, ↓id_eq, ↓after_next, ↓timeCount_keep, ↓modTimePort_keep]
  (repeat' split) <;> simp only [↓keep_mk, ↓keep_fold, ↓id_eq, ↓after_next, ↓timeCount_keep, ↓modTimePort_keep]

theorem setTimeState_keep : ∀ a0 a1, keep (setTimeState a0 a1) = keep a1 := by
  intro a0 a1
  unfold setTimeState
  (repeat' split) <;> simp only [↓keep_mk, ↓keep_fold, ↓id_eq, ↓after_next, ↓raise_keep]

theorem cutTide_keep : ∀ a0, keep (cutTide a0) = keep a0 := by
  intro a0
  unfold cutTide
  rfl

theorem basisIncomplete_keep : ∀ a0, keep (basisIncomplete a0) = keep a0 := by
  intro a0
  unfold basisIncomplete
  rfl

theorem basisChange_keep : ∀ a0 a1 a2 a3, keep (basisChange a0 a1 a2 a3) = keep a3 := by
  intro b n t s
  unfold basisChange
  rw [timeCount_keep, raise_keep, basisIncomplete_keep]
  exact (keep_mk _ _ _ _ _ _ _ _ _ _ _ _ _ _ _ _ _ _ _ _ _ _ _ _ _ _ _ _).trans (keep_fold s)

theorem stepTide_keep : ∀ a0, keep (stepTide a0) = keep a0 := by
  intro a0
  unfold stepTide
  (repeat' split) <;> simp only [↓keep_mk, ↓keep_fold, ↓id_eq, ↓after_next, ↓basisChange_keep, ↓setTimeState_keep]

theorem tsRoom_keep : ∀ a0 a1, keep (tsRoom a0 a1) = keep a1 := by
  intro a0 a1
  unfold tsRoom
  simp only [↓keep_mk, ↓keep_fold, ↓id_eq, ↓after_next, ↓ctrPut_keep, ↓modTimePort_keep]
  (repeat' split) <;> simp only [↓keep_mk, ↓keep_fold, ↓id_eq, ↓after_next, ↓ctrPut_keep, ↓modTimePort_keep]

/-! ### LearnOps.lean -/

theorem modLearn_keep : ∀ a0 a1, keep (modLearn a0 a1) = keep a1 := by
  intro a0 a1
  unfold modLearn
  rfl

theorem learnCount_keep : ∀ a0 a1 a2, keep (learnCount a0 a1 a2) = keep a2 := by
  intro a0 a1 a2
  unfold learnCount
  simp only [ctrAdd48_keep]

theorem moveEntry_keep : ∀ a0 a1 a2 a3, keep (moveEntry a0 a1 a2 a3) = keep a3 := by
  intro a0 a1 a2 a3
  unfold moveEntry
  (repeat' split) <;> simp only [↓keep_mk, ↓keep_fold, ↓id_eq, ↓after_next, ↓dillPut_keep]

theorem hostPut_keep : ∀ a0 a1 a2 a3 a4, keep (hostPut a0 a1 a2 a3 a4) = keep a4 := by
  intro a0 a1 a2 a3 a4
  unfold hostPut
  simp only [↓keep_mk, ↓keep_fold, ↓id_eq, ↓after_next, ↓ringCount_keep]
  (repeat' split) <;> simp only [↓keep_mk, ↓keep_fold, ↓id_eq, ↓after_next, ↓ringCount_keep]

theorem punt_keep : ∀ a0 a1 a2 a3, keep (punt a0 a1 a2 a3) = keep a3 := by
  intro a0 a1 a2 a3
  unfold punt
  simp only [↓keep_mk, ↓keep_fold, ↓id_eq, ↓after_next, ↓police_keep, ↓pipeCount_keep, ↓hostPut_keep]
  (repeat' split) <;> simp only [↓keep_mk, ↓keep_fold, ↓id_eq, ↓after_next, ↓police_keep, ↓pipeCount_keep, ↓hostPut_keep]

theorem setHit_keep : ∀ a0 a1, keep (setHit a0 a1) = keep a1 := by
  intro a0 a1
  unfold setHit
  (repeat' split) <;> rfl

theorem slotPut_keep : ∀ a0 a1, keep (slotPut a0 a1) = keep a1 := by
  intro a0 a1
  unfold slotPut
  rfl

theorem slotDrop_keep : ∀ a0 a1 a2, keep (slotDrop a0 a1 a2) = keep a2 := by
  intro a0 a1 a2
  unfold slotDrop
  rfl

theorem stationMove_keep : ∀ a0 a1 a2 a3 a4 a5, keep (stationMove a0 a1 a2 a3 a4 a5) = keep a5 := by
  intro a0 a1 a2 a3 a4 a5
  unfold stationMove
  simp only [↓keep_mk, ↓keep_fold, ↓id_eq, ↓after_next, ↓learnLog_keep, ↓learnCount_keep, ↓moveEntry_keep, ↓raise_keep, ↓slotPut_keep, ↓slotDrop_keep]
  (repeat' split) <;> simp only [↓keep_mk, ↓keep_fold, ↓id_eq, ↓after_next, ↓learnLog_keep, ↓learnCount_keep, ↓moveEntry_keep, ↓raise_keep, ↓slotPut_keep, ↓slotDrop_keep]

/-! ### Ingress.lean -/

theorem detCount_keep : ∀ a0 a1 a2, keep (detCount a0 a1 a2) = keep a2 := by
  intro a0 a1 a2
  unfold detCount
  simp only [ctrAdd48_keep]

theorem streamCount_keep : ∀ a0 a1 a2 a3, keep (streamCount a0 a1 a2 a3) = keep a3 := by
  intro a0 a1 a2 a3
  unfold streamCount
  rfl

theorem dealIn_keep : ∀ a0 a1 a2, keep (dealIn a0 a1 a2) = keep a2 := by
  intro a0 a1 a2
  unfold dealIn
  simp only [↓keep_mk, ↓keep_fold, ↓id_eq, ↓after_next, ↓modFwd_keep, ↓modPipe_keep]
  (repeat' split) <;> simp only [↓keep_mk, ↓keep_fold, ↓id_eq, ↓after_next, ↓modFwd_keep, ↓modPipe_keep]

theorem octetPut_keep : ∀ a0 a1 a2, keep (octetPut a0 a1 a2) = keep a2 := by
  intro a0 a1 a2
  unfold octetPut
  simp only [dealIn_keep]

theorem bridgeIn_keep : ∀ a0 a1, keep (bridgeIn a0 a1) = keep a1 := by
  intro a0 a1
  unfold bridgeIn
  (repeat' split) <;> rfl

theorem reorderDrain_keep : ∀ a0 a1, keep ((reorderDrain a0 a1)) = keep a1 := by
  intro a0 a1
  induction a0 generalizing a1 with
  | zero =>
    unfold reorderDrain
    repeat' (first
      | with_reducible rfl
      | with_reducible assumption
      | simp only [↓keep_mk, ↓keep_fold, ↓id_eq, ↓after_next, ↓bridgeIn_keep, ↓modFwd_keep]
      | simp only [*]
      | with_reducible refine keep_ite _ _ _ _ ?_ ?_
      | with_reducible refine keep_after_ite _ _ _ _ _ ?_ ?_
      | with_reducible refine keep_ite_snd _ _ _ _ ?_ ?_
      | with_reducible refine keep_ite_snd2 _ _ _ _ ?_ ?_
      | with_reducible refine (keep_foldl _ ?_ _ _).trans ?_
      | with_reducible refine (keep_foldl_snd _ ?_ _ _).trans ?_
      | (intros; simp only [*])
      | intro _
      | (split <;> try (rename_i h; first
          | (have k := (congrArg (fun p : _ × State => keep p.2) h).symm; simp only [↓keep_mk, ↓keep_fold, ↓id_eq, ↓after_next, ↓bridgeIn_keep, ↓modFwd_keep] at k)
          | (have k := (congrArg (fun p : _ × _ × State => keep p.2.2) h).symm; simp only [↓keep_mk, ↓keep_fold, ↓id_eq, ↓after_next, ↓bridgeIn_keep, ↓modFwd_keep] at k))))
  | succ n ih =>
    unfold reorderDrain
    repeat' (first
      | with_reducible rfl
      | with_reducible assumption
      | simp only [↓keep_mk, ↓keep_fold, ↓id_eq, ↓after_next, ↓ih, ↓bridgeIn_keep, ↓modFwd_keep]
      | simp only [*]
      | with_reducible refine keep_ite _ _ _ _ ?_ ?_
      | with_reducible refine keep_after_ite _ _ _ _ _ ?_ ?_
      | with_reducible refine keep_ite_snd _ _ _ _ ?_ ?_
      | with_reducible refine keep_ite_snd2 _ _ _ _ ?_ ?_
      | with_reducible refine (keep_foldl _ ?_ _ _).trans ?_
      | with_reducible refine (keep_foldl_snd _ ?_ _ _).trans ?_
      | (intros; simp only [*])
      | intro _
      | (split <;> try (rename_i h; first
          | (have k := (congrArg (fun p : _ × State => keep p.2) h).symm; simp only [↓keep_mk, ↓keep_fold, ↓id_eq, ↓after_next, ↓ih, ↓bridgeIn_keep, ↓modFwd_keep] at k)
          | (have k := (congrArg (fun p : _ × _ × State => keep p.2.2) h).symm; simp only [↓keep_mk, ↓keep_fold, ↓id_eq, ↓after_next, ↓ih, ↓bridgeIn_keep, ↓modFwd_keep] at k))))

theorem reorderRelease_keep : ∀ a0, keep (reorderRelease a0) = keep a0 := by
  intro a0
  unfold reorderRelease
  (repeat' split) <;> simp only [↓keep_mk, ↓keep_fold, ↓id_eq, ↓after_next, ↓reorderDrain_keep, ↓wakeDom_keep]

theorem retireTables_keep : ∀ a0, keep (retireTables a0) = keep a0 := by
  intro a0
  unfold retireTables
  simp only [modTab_keep, dillSweep_keep, sorrelCheck_keep]

theorem retireIn_keep : ∀ a0, keep (retireIn a0) = keep a0 := by
  intro a0
  unfold retireIn
  (repeat' split) <;> simp only [↓keep_mk, ↓keep_fold, ↓id_eq, ↓after_next, ↓modFwd_keep, ↓retireTables_keep]

theorem retireEg_keep : ∀ a0, keep (retireEg a0) = keep a0 := by
  intro a0
  unfold retireEg
  rfl

theorem execHoldLimitDrop_keep : ∀ a0 a1 a2, keep (after (execHoldLimitDrop a0 a1 a2) a2) = keep a2 := by
  intro a0 a1 a2
  unfold execHoldLimitDrop
  repeat' (first
    | with_reducible rfl
    | with_reducible assumption
    | simp only [↓keep_mk, ↓keep_fold, ↓id_eq, ↓after_next, ↓State_atTime_keep, ↓skipPort_keep, ↓modPipe_keep, ↓reorderRelease_keep, ↓pipeCount_keep]
    | with_reducible refine keep_ite _ _ _ _ ?_ ?_
    | with_reducible refine keep_after_ite _ _ _ _ _ ?_ ?_
    | with_reducible refine (keep_foldl _ ?_ _ _).trans ?_
    | with_reducible refine (keep_foldl_snd _ ?_ _ _).trans ?_
    | (intros; simp only [*])
    | intro _
    | split)

theorem idleSlot_keep : ∀ a0 a1, keep (idleSlot a0 a1) = keep a1 := by
  intro a0 a1
  unfold idleSlot
  simp only [ledger_keep, pipeCount_keep]

theorem toTd_keep : ∀ a0 a1, keep (toTd a0 a1) = keep a1 := by
  intro a0 a1
  unfold toTd
  simp only [reorderRelease_keep, modFwd_keep]

theorem sorrelRead_keep : ∀ a0 a1 a2, keep ((sorrelRead a0 a1 a2).2) = keep a2 := by
  intro a0 a1 a2
  unfold sorrelRead
  simp only [↓keep_mk, ↓keep_fold, ↓id_eq, ↓after_next, ↓tabCount_keep]
  (repeat' split) <;> simp only [↓keep_mk, ↓keep_fold, ↓id_eq, ↓after_next, ↓tabCount_keep]

theorem passDill_keep (x : Pass) (n t kp : Nat) (md : List Word) (h : Nat × State) : keep (passDill x n t kp md h).2.2 = keep h.2 := by
  obtain ⟨rd, s⟩ := h
  unfold passDill
  simp only [↓keep_mk, ↓keep_fold, ↓id_eq, ↓after_next, ↓dillLookup_keep, ↓setHit_keep]
  (repeat' split) <;> simp only [↓keep_mk, ↓keep_fold, ↓id_eq, ↓after_next, ↓dillLookup_keep, ↓setHit_keep]

theorem dillFirst_keep : ∀ a0 a1 a2, keep ((dillFirst a0 a1 a2).2.2) = keep a2 := by
  intro a0 a1 a2
  unfold dillFirst
  (repeat' split) <;> simp only [↓keep_mk, ↓keep_fold, ↓id_eq, ↓after_next, ↓passDill_keep]

theorem dillSecond_keep (x : Pass) (md : List Word) (b : Bool) (h : Nat × State) : keep (dillSecond x md b h).2.2 = keep h.2 := by
  unfold dillSecond
  split
  · rfl
  · split
    · rfl
    · exact passDill_keep _ _ _ _ _ _
  · rfl

theorem sourceRead_keep (x : Pass) (md : List Word) (h : Nat × State) : keep (sourceRead x md h).2.2 = keep h.2 := by
  unfold sourceRead
  (repeat' split) <;> simp only [↓keep_mk, ↓keep_fold, ↓id_eq, ↓after_next, ↓dillLookup_keep]

theorem sageRead_keep : ∀ a0 a1 a2, keep ((sageRead a0 a1 a2).2.2) = keep a2 := by
  intro a0 a1 a2
  unfold sageRead
  repeat' (first
    | with_reducible rfl
    | with_reducible assumption
    | simp only [↓keep_mk, ↓keep_fold, ↓id_eq, ↓after_next, ↓bankEvent_keep, ↓tabCount_keep, ↓fencedReq_keep]
    | with_reducible refine keep_ite _ _ _ _ ?_ ?_
    | with_reducible refine keep_after_ite _ _ _ _ _ ?_ ?_
    | with_reducible refine (keep_foldl _ ?_ _ _).trans ?_
    | with_reducible refine (keep_foldl_snd _ ?_ _ _).trans ?_
    | (intros; simp only [*])
    | intro _
    | split)

theorem lookups_keep : ∀ a0 a1 a2, keep ((lookups a0 a1 a2).2) = keep a2 := by
  intro a0 a1 a2
  unfold lookups
  simp only [sorrelRead_keep, dillFirst_keep, dillSecond_keep, sourceRead_keep, sageRead_keep, bankEvent_keep]

theorem learnDecide_keep : ∀ a0 a1 a2 a3, keep ((learnDecide a0 a1 a2 a3).2) = keep a3 := by
  intro a0 a1 a2 a3
  unfold learnDecide
  simp only [↓keep_mk, ↓keep_fold, ↓id_eq, ↓after_next, ↓learnCount_keep, ↓modLearn_keep, ↓setHit_keep]
  (repeat' split) <;> simp only [↓keep_mk, ↓keep_fold, ↓id_eq, ↓after_next, ↓learnCount_keep, ↓modLearn_keep, ↓setHit_keep]

theorem fateStage_keep : ∀ a0 a1 a2 a3 a4, keep ((fateStage a0 a1 a2 a3 a4).2.2) = keep a4 := by
  intro a0 a1 a2 a3 a4
  unfold fateStage
  simp only [↓keep_mk, ↓keep_fold, ↓id_eq, ↓after_next, ↓streamCount_keep, ↓detCount_keep]
  (repeat' split) <;> simp only [↓keep_mk, ↓keep_fold, ↓id_eq, ↓after_next, ↓streamCount_keep, ↓detCount_keep]

theorem policeStage_keep : ∀ a0 a1 a2 a3, keep ((policeStage a0 a1 a2 a3).2.2) = keep a3 := by
  intro a0 a1 a2 a3
  unfold policeStage
  simp only [↓keep_mk, ↓keep_fold, ↓id_eq, ↓after_next, ↓police_keep, ↓bankEvent_keep, ↓pipeCount_keep]
  (repeat' split) <;> simp only [↓keep_mk, ↓keep_fold, ↓id_eq, ↓after_next, ↓police_keep, ↓bankEvent_keep, ↓pipeCount_keep]

theorem recirculate_keep : ∀ a0 a1 a2, keep (recirculate a0 a1 a2) = keep a2 := by
  intro a0 a1 a2
  unfold recirculate
  (repeat' split) <;> simp only [↓keep_mk, ↓keep_fold, ↓id_eq, ↓after_next, ↓pipeCount_keep, ↓modPipe_keep]

theorem fatePkt_keep : ∀ a0 a1 a2 a3, keep (fatePkt a0 a1 a2 a3) = keep a3 := by
  intro a0 a1 a2 a3
  unfold fatePkt
  simp only [↓keep_mk, ↓keep_fold, ↓id_eq, ↓after_next, ↓pipeCount_keep, ↓punt_keep, ↓recirculate_keep, ↓modFwd_keep, ↓toTd_keep]
  (repeat' split) <;> simp only [↓keep_mk, ↓keep_fold, ↓id_eq, ↓after_next, ↓pipeCount_keep, ↓punt_keep, ↓recirculate_keep, ↓modFwd_keep, ↓toTd_keep]

theorem copiesStage_keep : ∀ a0 a1 a2 a3 a4 a5, keep (copiesStage a0 a1 a2 a3 a4 a5) = keep a5 := by
  intro a0 a1 a2 a3 a4 a5
  unfold copiesStage
  (repeat' split) <;> simp only [↓keep_mk, ↓keep_fold, ↓id_eq, ↓after_next, ↓punt_keep, ↓State_took_keep, ↓fatePkt_keep, ↓toTd_keep]

theorem stages_keep : ∀ a0 a1 a2 a3, keep (stages a0 a1 a2 a3) = keep a3 := by
  intro a0 a1 a2 a3
  unfold stages
  repeat' (first
    | with_reducible rfl
    | with_reducible assumption
    | simp only [↓keep_mk, ↓keep_fold, ↓id_eq, ↓after_next, ↓learnDecide_keep, ↓fateStage_keep, ↓bankEvent_keep, ↓noteDecision_keep, ↓policeStage_keep, ↓statAdd_keep, ↓copiesStage_keep]
    | simp only [*]
    | with_reducible refine keep_ite _ _ _ _ ?_ ?_
    | with_reducible refine keep_after_ite _ _ _ _ _ ?_ ?_
    | with_reducible refine keep_ite_snd _ _ _ _ ?_ ?_
    | with_reducible refine keep_ite_snd2 _ _ _ _ ?_ ?_
    | with_reducible refine (keep_foldl _ ?_ _ _).trans ?_
    | with_reducible refine (keep_foldl_snd _ ?_ _ _).trans ?_
    | (intros; simp only [*])
    | intro _
    | (split <;> try (rename_i h; first
        | (have k := (congrArg (fun p : _ × State => keep p.2) h).symm; simp only [↓keep_mk, ↓keep_fold, ↓id_eq, ↓after_next, ↓learnDecide_keep, ↓fateStage_keep, ↓bankEvent_keep, ↓noteDecision_keep, ↓policeStage_keep, ↓statAdd_keep, ↓copiesStage_keep] at k)
        | (have k := (congrArg (fun p : _ × _ × State => keep p.2.2) h).symm; simp only [↓keep_mk, ↓keep_fold, ↓id_eq, ↓after_next, ↓learnDecide_keep, ↓fateStage_keep, ↓bankEvent_keep, ↓noteDecision_keep, ↓policeStage_keep, ↓statAdd_keep, ↓copiesStage_keep] at k))))

theorem ingressPass_keep (p : Nat) (bad : List Nat) (k : Pkt) (s : State) : keep (ingressPass p bad k s).1 = keep s := by
  unfold ingressPass
  extract_lets m k c eth early ps v parsed m k' u r0 last r x
  have he : ∀ a b s, keep (early a b s) = keep s := fun a b s => noteDecision_keep _ _ _
  split
  · exact toTd_keep _ _
  split
  · split
    · split <;> simp only [punt_keep, he]
    · rfl
  split
  · simp only [punt_keep, he]
  split
  · simp only [punt_keep, he]
  have hu : keep u = keep s := keep_ite _ _ _ _ (pipeCount_keep _ _ _ _) rfl
  split
  · simp only [pipeCount_keep, he]; exact hu
  split
  · simp only [punt_keep, he]; exact hu
  split
  · simp only [pipeCount_keep, he]; exact hu
  · rw [stages_keep, lookups_keep]; exact hu

theorem charge_keep : ∀ a0 a1 a2, keep (charge a0 a1 a2) = keep a2 := by
  intro a0 a1 a2
  unfold charge
  rfl

theorem runPass_keep : ∀ a0 a1 a2 a3, keep (runPass a0 a1 a2 a3) = keep a3 := by
  intro a0 a1 a2 a3
  unfold runPass
  simp only [ingressPass_keep, samplePackets_keep, ledger_keep, charge_keep, reorderRelease_keep]

theorem execIngressPipelinePass_keep : ∀ a0 a1 a2 a3 a4 a5, keep (after (execIngressPipelinePass a0 a1 a2 a3 a4 a5) a5) = keep a5 := by
  intro a0 a1 a2 a3 a4 a5
  unfold execIngressPipelinePass
  repeat' (first
    | with_reducible rfl
    | with_reducible assumption
    | simp only [↓keep_mk, ↓keep_fold, ↓id_eq, ↓after_next, ↓State_atTime_keep, ↓modPipe_keep, ↓idleSlot_keep, ↓pipeCount_keep, ↓runPass_keep, ↓tabCount_keep]
    | with_reducible refine keep_ite _ _ _ _ ?_ ?_
    | with_reducible refine keep_after_ite _ _ _ _ _ ?_ ?_
    | with_reducible refine (keep_foldl _ ?_ _ _).trans ?_
    | with_reducible refine (keep_foldl_snd _ ?_ _ _).trans ?_
    | (intros; simp only [*])
    | intro _
    | split)

theorem execEpochRetire_keep : ∀ a0 a1 a2, keep (after (execEpochRetire a0 a1 a2) a2) = keep a2 := by
  intro a0 a1 a2
  unfold execEpochRetire
  simp only [↓keep_mk, ↓keep_fold, ↓id_eq, ↓after_next, ↓State_atTime_keep, ↓retireIn_keep, ↓retireEg_keep]
  (repeat' split) <;> simp only [↓keep_mk, ↓keep_fold, ↓id_eq, ↓after_next, ↓State_atTime_keep, ↓retireIn_keep, ↓retireEg_keep]

/-! ### BufOps.lean -/

theorem modTd_keep : ∀ a0 a1, keep (modTd a0 a1) = keep a1 := by
  intro a0 a1
  unfold modTd
  rfl

theorem modPool_keep : ∀ a0 a1 a2, keep (modPool a0 a1 a2) = keep a2 := by
  intro a0 a1 a2
  unfold modPool
  (repeat' split) <;> rfl

theorem poolCheck_keep : ∀ a0 a1, keep (poolCheck a0 a1) = keep a1 := by
  intro a0 a1
  unfold poolCheck
  simp only [↓keep_mk, ↓keep_fold, ↓id_eq, ↓after_next, ↓raise_keep, ↓modPool_keep]
  (repeat' split) <;> simp only [↓keep_mk, ↓keep_fold, ↓id_eq, ↓after_next, ↓raise_keep, ↓modPool_keep]

theorem partGrow_keep : ∀ a0 a1, keep ((partGrow a0 a1).2) = keep a1 := by
  intro a0 a1
  unfold partGrow
  repeat' (first
    | with_reducible rfl
    | with_reducible assumption
    | simp only [↓keep_mk, ↓keep_fold, ↓id_eq, ↓after_next, ↓modPool_keep, ↓poolCheck_keep]
    | with_reducible refine keep_ite _ _ _ _ ?_ ?_
    | with_reducible refine keep_after_ite _ _ _ _ _ ?_ ?_
    | with_reducible refine (keep_foldl _ ?_ _ _).trans ?_
    | with_reducible refine (keep_foldl_snd _ ?_ _ _).trans ?_
    | (intros; simp only [*])
    | intro _
    | split)

theorem poolCount_keep : ∀ a0 a1 a2 a3, keep (poolCount a0 a1 a2 a3) = keep a3 := by
  intro a0 a1 a2 a3
  unfold poolCount
  simp only [ctrAdd48_keep]

theorem badFree_keep : ∀ a0 a1 a2 a3 a4 a5 a6, keep (badFree a0 a1 a2 a3 a4 a5 a6) = keep a6 := by
  intro a0 a1 a2 a3 a4 a5 a6
  unfold badFree
  simp only [↓keep_mk, ↓keep_fold, ↓id_eq, ↓after_next, ↓poolCount_keep, ↓raise_keep, ↓modPool_keep]
  (repeat' split) <;> simp only [↓keep_mk, ↓keep_fold, ↓id_eq, ↓after_next, ↓poolCount_keep, ↓raise_keep, ↓modPool_keep]

theorem bufFree_keep : ∀ a0 a1 a2 a3, keep (bufFree a0 a1 a2 a3) = keep a3 := by
  intro a0 a1 a2 a3
  unfold bufFree
  (repeat' split) <;> simp only [↓keep_mk, ↓keep_fold, ↓id_eq, ↓after_next, ↓poolCount_keep, ↓poolCheck_keep, ↓modPool_keep]

theorem bufReleaseAt_keep : ∀ a0 a1 a2 a3 a4 a5, keep (bufReleaseAt a0 a1 a2 a3 a4 a5) = keep a5 := by
  intro a0 a1 a2 a3 a4 a5
  unfold bufReleaseAt
  (repeat' split) <;> simp only [↓keep_mk, ↓keep_fold, ↓id_eq, ↓after_next, ↓badFree_keep, ↓bufFree_keep, ↓modPool_keep]

theorem bufRelease_keep : ∀ a0 a1 a2 a3 a4, keep (bufRelease a0 a1 a2 a3 a4) = keep a4 := by
  intro a0 a1 a2 a3 a4
  unfold bufRelease
  simp only [bufReleaseAt_keep]

theorem bufReleaseAll_keep : ∀ a0 a1 a2 a3 a4, keep (bufReleaseAll a0 a1 a2 a3 a4) = keep a4 := by
  intro a0 a1 a2 a3 a4
  unfold bufReleaseAll
  repeat' (first
    | with_reducible rfl
    | with_reducible assumption
    | simp only [↓keep_mk, ↓keep_fold, ↓id_eq, ↓after_next, ↓bufRelease_keep]
    | with_reducible refine keep_ite _ _ _ _ ?_ ?_
    | with_reducible refine keep_after_ite _ _ _ _ _ ?_ ?_
    | with_reducible refine (keep_foldl _ ?_ _ _).trans ?_
    | with_reducible refine (keep_foldl_snd _ ?_ _ _).trans ?_
    | (intros; simp only [*])
    | intro _
    | split)

theorem grantGeneral_keep : ∀ a0 a1 a2 a3, keep ((grantGeneral a0 a1 a2 a3).2) = keep a3 := by
  intro a0 a1 a2 a3
  unfold grantGeneral
  repeat' (first
    | with_reducible rfl
    | with_reducible assumption
    | simp only [↓keep_mk, ↓keep_fold, ↓id_eq, ↓after_next, ↓modPool_keep]
    | with_reducible refine keep_ite _ _ _ _ ?_ ?_
    | with_reducible refine keep_after_ite _ _ _ _ _ ?_ ?_
    | with_reducible refine (keep_foldl _ ?_ _ _).trans ?_
    | with_reducible refine (keep_foldl_snd _ ?_ _ _).trans ?_
    | (intros; simp only [*])
    | intro _
    | split)

theorem grantPart_keep : ∀ a0 a1 a2, keep ((grantPart a0 a1 a2).2) = keep a2 := by
  intro a0 a1 a2
  unfold grantPart
  rfl

theorem arbitrate_keep : ∀ a0 a1 a2 a3 a4 a5 a6, keep ((arbitrate a0 a1 a2 a3 a4 a5 a6).2.2) = keep a6 := by
  intro a0 a1 a2 a3 a4 a5 a6
  unfold arbitrate
  simp only [↓keep_mk, ↓keep_fold, ↓id_eq, ↓after_next, ↓poolCount_keep, ↓grantPart_keep, ↓grantGeneral_keep, ↓modPool_keep, ↓poolCheck_keep]
  (repeat' split) <;> simp only [↓keep_mk, ↓keep_fold, ↓id_eq, ↓after_next, ↓poolCount_keep, ↓grantPart_keep, ↓grantGeneral_keep, ↓modPool_keep, ↓poolCheck_keep]

theorem bufReplicate_keep : ∀ a0 a1 a2 a3, keep (bufReplicate a0 a1 a2 a3) = keep a3 := by
  intro a0 a1 a2 a3
  unfold bufReplicate
  simp only [↓keep_mk, ↓keep_fold, ↓id_eq, ↓after_next, ↓poolCount_keep, ↓modPool_keep]
  (repeat' split) <;> simp only [↓keep_mk, ↓keep_fold, ↓id_eq, ↓after_next, ↓poolCount_keep, ↓modPool_keep]

theorem refClock_keep : ∀ a0 a1 a2, keep (refClock a0 a1 a2) = keep a2 := by
  intro a0 a1 a2
  unfold refClock
  repeat' (first
    | with_reducible rfl
    | with_reducible assumption
    | simp only [↓keep_mk, ↓keep_fold, ↓id_eq, ↓after_next, ↓modPool_keep, ↓bufReplicate_keep, ↓bufReleaseAt_keep]
    | with_reducible refine keep_ite _ _ _ _ ?_ ?_
    | with_reducible refine keep_after_ite _ _ _ _ _ ?_ ?_
    | with_reducible refine (keep_foldl _ ?_ _ _).trans ?_
    | with_reducible refine (keep_foldl_snd _ ?_ _ _).trans ?_
    | (intros; simp only [*])
    | intro _
    | split)

theorem refSettleFor_keep : ∀ a0 a1 a2 a3, keep ((refSettleFor a0 a1 a2 a3)) = keep a3 := by
  intro a0 a1 a2 a3
  induction a2 generalizing a0 a1 a3 with
  | zero =>
    unfold refSettleFor
    repeat' (first
      | with_reducible rfl
      | with_reducible assumption
      | simp only [↓keep_mk, ↓keep_fold, ↓id_eq, ↓after_next, ↓refClock_keep]
      | simp only [*]
      | with_reducible refine keep_ite _ _ _ _ ?_ ?_
      | with_reducible refine keep_after_ite _ _ _ _ _ ?_ ?_
      | with_reducible refine keep_ite_snd _ _ _ _ ?_ ?_
      | with_reducible refine keep_ite_snd2 _ _ _ _ ?_ ?_
      | with_reducible refine (keep_foldl _ ?_ _ _).trans ?_
      | with_reducible refine (keep_foldl_snd _ ?_ _ _).trans ?_
      | (intros; simp only [*])
      | intro _
      | (split <;> try (rename_i h; first
          | (have k := (congrArg (fun p : _ × State => keep p.2) h).symm; simp only [↓keep_mk, ↓keep_fold, ↓id_eq, ↓after_next, ↓refClock_keep] at k)
          | (have k := (congrArg (fun p : _ × _ × State => keep p.2.2) h).symm; simp only [↓keep_mk, ↓keep_fold, ↓id_eq, ↓after_next, ↓refClock_keep] at k))))
  | succ n ih =>
    unfold refSettleFor
    repeat' (first
      | with_reducible rfl
      | with_reducible assumption
      | simp only [↓keep_mk, ↓keep_fold, ↓id_eq, ↓after_next, ↓ih, ↓refClock_keep]
      | simp only [*]
      | with_reducible refine keep_ite _ _ _ _ ?_ ?_
      | with_reducible refine keep_after_ite _ _ _ _ _ ?_ ?_
      | with_reducible refine keep_ite_snd _ _ _ _ ?_ ?_
      | with_reducible refine keep_ite_snd2 _ _ _ _ ?_ ?_
      | with_reducible refine (keep_foldl _ ?_ _ _).trans ?_
      | with_reducible refine (keep_foldl_snd _ ?_ _ _).trans ?_
      | (intros; simp only [*])
      | intro _
      | (split <;> try (rename_i h; first
          | (have k := (congrArg (fun p : _ × State => keep p.2) h).symm; simp only [↓keep_mk, ↓keep_fold, ↓id_eq, ↓after_next, ↓ih, ↓refClock_keep] at k)
          | (have k := (congrArg (fun p : _ × _ × State => keep p.2.2) h).symm; simp only [↓keep_mk, ↓keep_fold, ↓id_eq, ↓after_next, ↓ih, ↓refClock_keep] at k))))

theorem refSettle_keep : ∀ a0 a1 a2, keep (refSettle a0 a1 a2) = keep a2 := by
  intro a0 a1 a2
  unfold refSettle
  simp only [refSettleFor_keep]

theorem refSettleAll_keep : ∀ a0, keep (refSettleAll a0) = keep a0 := by
  intro a0
  unfold refSettleAll
  simp only [refSettle_keep]

theorem refPut_keep : ∀ a0 a1 a2 a3 a4 a5, keep (refPut a0 a1 a2 a3 a4 a5) = keep a5 := by
  intro a0 a1 a2 a3 a4 a5
  unfold refPut
  simp only [refSettle_keep, modPool_keep]

theorem partReturn_keep : ∀ a0 a1, keep (partReturn a0 a1) = keep a1 := by
  intro a0 a1
  unfold partReturn
  simp only [poolCheck_keep, modPool_keep]

theorem partSet_keep : ∀ a0 a1 a2, keep (partSet a0 a1 a2) = keep a2 := by
  intro a0 a1 a2
  unfold partSet
  simp only [↓keep_mk, ↓keep_fold, ↓id_eq, ↓after_next, ↓partReturn_keep, ↓modPool_keep]
  (repeat' split) <;> simp only [↓keep_mk, ↓keep_fold, ↓id_eq, ↓after_next, ↓partReturn_keep, ↓modPool_keep]

/-! ### QueueOps.lean -/

theorem capLost_keep : ∀ a0 a1, keep (capLost a0 a1) = keep a1 := by
  intro a0 a1
  unfold capLost
  (repeat' split) <;> simp only [↓keep_mk, ↓keep_fold, ↓id_eq, ↓after_next, ↓tsStore_keep]

theorem modQueue_keep : ∀ a0 a1 a2, keep (modQueue a0 a1 a2) = keep a2 := by
  intro a0 a1 a2
  unfold modQueue
  rfl

theorem chainRelease_keep : ∀ a0 a1 a2 a3, keep (chainRelease a0 a1 a2 a3) = keep a3 := by
  intro a0 a1 a2 a3
  unfold chainRelease
  simp only [↓keep_mk, ↓keep_fold, ↓id_eq, ↓after_next, ↓bufReleaseAll_keep, ↓modQueue_keep, ↓bufRelease_keep]
  (repeat' split) <;> simp only [↓keep_mk, ↓keep_fold, ↓id_eq, ↓after_next, ↓bufReleaseAll_keep, ↓modQueue_keep, ↓bufRelease_keep]

theorem hbmDone_keep : ∀ a0 a1, keep (hbmDone a0 a1) = keep a1 := by
  intro a0 a1
  unfold hbmDone
  (repeat' split) <;> simp only [↓keep_mk, ↓keep_fold, ↓id_eq, ↓after_next, ↓chainRelease_keep]

theorem releasePkt_keep : ∀ a0 a1 a2, keep (releasePkt a0 a1 a2) = keep a2 := by
  intro a0 a1 a2
  unfold releasePkt
  simp only [hbmDone_keep, bufReleaseAll_keep]

theorem voqRelease_keep : ∀ a0 a1 a2, keep (voqRelease a0 a1 a2) = keep a2 := by
  intro a0 a1 a2
  unfold voqRelease
  (repeat' split) <;> simp only [↓keep_mk, ↓keep_fold, ↓id_eq, ↓after_next, ↓releasePkt_keep, ↓chainRelease_keep]

theorem schedCount_keep : ∀ a0 a1 a2 a3, keep (schedCount a0 a1 a2 a3) = keep a3 := by
  intro a0 a1 a2 a3
  unfold schedCount
  simp only [ctrAdd48_keep]

theorem queueCount_keep : ∀ a0 a1 a2 a3, keep (queueCount a0 a1 a2 a3) = keep a3 := by
  intro a0 a1 a2 a3
  unfold queueCount
  rfl

theorem wredEvaluate_keep : ∀ a0 a1 a2 a3, keep ((wredEvaluate a0 a1 a2 a3).2) = keep a3 := by
  intro a0 a1 a2 a3
  unfold wredEvaluate
  simp only [↓keep_mk, ↓keep_fold, ↓id_eq, ↓after_next, ↓modTd_keep]
  (repeat' split) <;> simp only [↓keep_mk, ↓keep_fold, ↓id_eq, ↓after_next, ↓modTd_keep]

theorem congestion_keep : ∀ a0 a1 a2 a3 a4, keep ((congestion a0 a1 a2 a3 a4).2) = keep a4 := by
  intro a0 a1 a2 a3 a4
  unfold congestion
  simp only [↓keep_mk, ↓keep_fold, ↓id_eq, ↓after_next, ↓modQueue_keep, ↓queueCount_keep, ↓wredEvaluate_keep]
  (repeat' split) <;> simp only [↓keep_mk, ↓keep_fold, ↓id_eq, ↓after_next, ↓modQueue_keep, ↓queueCount_keep, ↓wredEvaluate_keep]

theorem checkEgress_keep : ∀ a0 a1, keep ((checkEgress a0 a1).2) = keep a1 := by
  intro a0 a1
  unfold checkEgress
  repeat' (first
    | with_reducible rfl
    | with_reducible assumption
    | simp only [↓keep_mk, ↓keep_fold, ↓id_eq, ↓after_next, ↓schedCount_keep, ↓congestion_keep]
    | simp only [*]
    | with_reducible refine keep_ite _ _ _ _ ?_ ?_
    | with_reducible refine keep_after_ite _ _ _ _ _ ?_ ?_
    | with_reducible refine keep_ite_snd _ _ _ _ ?_ ?_
    | with_reducible refine keep_ite_snd2 _ _ _ _ ?_ ?_
    | with_reducible refine (keep_foldl _ ?_ _ _).trans ?_
    | with_reducible refine (keep_foldl_snd _ ?_ _ _).trans ?_
    | (intros; simp only [*])
    | intro _
    | (split <;> try (rename_i h; first
        | (have k := (congrArg (fun p : _ × State => keep p.2) h).symm; simp only [↓keep_mk, ↓keep_fold, ↓id_eq, ↓after_next, ↓schedCount_keep, ↓congestion_keep] at k)
        | (have k := (congrArg (fun p : _ × _ × State => keep p.2.2) h).symm; simp only [↓keep_mk, ↓keep_fold, ↓id_eq, ↓after_next, ↓schedCount_keep, ↓congestion_keep] at k))))

theorem checkCopy_keep : ∀ a0 a1 a2, keep ((checkCopy a0 a1 a2).2) = keep a2 := by
  intro a0 a1 a2
  unfold checkCopy
  repeat' (first
    | with_reducible rfl
    | with_reducible assumption
    | simp only [↓keep_mk, ↓keep_fold, ↓id_eq, ↓after_next, ↓schedCount_keep, ↓congestion_keep]
    | simp only [*]
    | with_reducible refine keep_ite _ _ _ _ ?_ ?_
    | with_reducible refine keep_after_ite _ _ _ _ _ ?_ ?_
    | with_reducible refine keep_ite_snd _ _ _ _ ?_ ?_
    | with_reducible refine keep_ite_snd2 _ _ _ _ ?_ ?_
    | with_reducible refine (keep_foldl _ ?_ _ _).trans ?_
    | with_reducible refine (keep_foldl_snd _ ?_ _ _).trans ?_
    | (intros; simp only [*])
    | intro _
    | (split <;> try (rename_i h; first
        | (have k := (congrArg (fun p : _ × State => keep p.2) h).symm; simp only [↓keep_mk, ↓keep_fold, ↓id_eq, ↓after_next, ↓schedCount_keep, ↓congestion_keep] at k)
        | (have k := (congrArg (fun p : _ × _ × State => keep p.2.2) h).symm; simp only [↓keep_mk, ↓keep_fold, ↓id_eq, ↓after_next, ↓schedCount_keep, ↓congestion_keep] at k))))

theorem planPkt_keep : ∀ a0 a1 a2, keep ((planPkt a0 a1 a2).2) = keep a2 := by
  intro a0 a1 a2
  unfold planPkt
  repeat' (first
    | with_reducible rfl
    | with_reducible assumption
    | simp only [↓keep_mk, ↓keep_fold, ↓id_eq, ↓after_next, ↓checkEgress_keep, ↓checkCopy_keep]
    | with_reducible refine keep_ite _ _ _ _ ?_ ?_
    | with_reducible refine keep_after_ite _ _ _ _ _ ?_ ?_
    | with_reducible refine (keep_foldl _ ?_ _ _).trans ?_
    | with_reducible refine (keep_foldl_snd _ ?_ _ _).trans ?_
    | (intros; simp only [*])
    | intro _
    | split)

theorem reserveDrop_keep : ∀ a0 a1, keep (reserveDrop a0 a1) = keep a1 := by
  intro a0 a1
  unfold reserveDrop
  simp only [↓keep_mk, ↓keep_fold, ↓id_eq, ↓after_next, ↓streamCount_keep, ↓raise_keep]
  (repeat' split) <;> simp only [↓keep_mk, ↓keep_fold, ↓id_eq, ↓after_next, ↓streamCount_keep, ↓raise_keep]

theorem emptyDrop_keep : ∀ a0 a1 a2, keep (emptyDrop a0 a1 a2) = keep a2 := by
  intro a0 a1 a2
  unfold emptyDrop
  (repeat' split) <;> simp only [↓keep_mk, ↓keep_fold, ↓id_eq, ↓after_next, ↓poolCount_keep, ↓releasePkt_keep, ↓reserveDrop_keep]

theorem queueDiscard_keep : ∀ a0 a1 a2 a3, keep (queueDiscard a0 a1 a2 a3) = keep a3 := by
  intro a0 a1 a2 a3
  unfold queueDiscard
  simp only [↓keep_mk, ↓keep_fold, ↓id_eq, ↓after_next, ↓queueCount_keep, ↓capLost_keep, ↓voqRelease_keep, ↓releasePkt_keep]
  (repeat' split) <;> simp only [↓keep_mk, ↓keep_fold, ↓id_eq, ↓after_next, ↓queueCount_keep, ↓capLost_keep, ↓voqRelease_keep, ↓releasePkt_keep]

theorem queueFlushAll_keep : ∀ a0 a1 a2, keep ((queueFlushAll a0 a1 a2).2) = keep a2 := by
  intro a0 a1 a2
  unfold queueFlushAll
  repeat' (first
    | with_reducible rfl
    | with_reducible assumption
    | simp only [↓keep_mk, ↓keep_fold, ↓id_eq, ↓after_next, ↓queueDiscard_keep, ↓modQueue_keep]
    | with_reducible refine keep_ite _ _ _ _ ?_ ?_
    | with_reducible refine keep_after_ite _ _ _ _ _ ?_ ?_
    | with_reducible refine (keep_foldl _ ?_ _ _).trans ?_
    | with_reducible refine (keep_foldl_snd _ ?_ _ _).trans ?_
    | (intros; simp only [*])
    | intro _
    | split)

theorem queueTake_keep : ∀ a0 a1, keep ((queueTake a0 a1).2) = keep a1 := by
  intro a0 a1
  unfold queueTake
  (repeat' split) <;> simp only [↓keep_mk, ↓keep_fold, ↓id_eq, ↓after_next, ↓voqCompleted_keep, ↓queueCount_keep, ↓modQueue_keep, ↓bankEvent_keep, ↓powTally_keep]

theorem allocAll_keep : ∀ a0 a1 a2 a3, keep ((allocAll a0 a1 a2 a3).2) = keep a3 := by
  intro a0 a1 a2 a3
  induction a1 generalizing a0 a2 a3 with
  | zero =>
    unfold allocAll
    repeat' (first
      | with_reducible rfl
      | with_reducible assumption
      | simp only [↓keep_mk, ↓keep_fold, ↓id_eq, ↓after_next, ↓arbitrate_keep, ↓emptyDrop_keep]
      | simp only [*]
      | with_reducible refine keep_ite _ _ _ _ ?_ ?_
      | with_reducible refine keep_after_ite _ _ _ _ _ ?_ ?_
      | with_reducible refine keep_ite_snd _ _ _ _ ?_ ?_
      | with_reducible refine keep_ite_snd2 _ _ _ _ ?_ ?_
      | with_reducible refine (keep_foldl _ ?_ _ _).trans ?_
      | with_reducible refine (keep_foldl_snd _ ?_ _ _).trans ?_
      | (intros; simp only [*])
      | intro _
      | (split <;> try (rename_i h; first
          | (have k := (congrArg (fun p : _ × State => keep p.2) h).symm; simp only [↓keep_mk, ↓keep_fold, ↓id_eq, ↓after_next, ↓arbitrate_keep, ↓emptyDrop_keep] at k)
          | (have k := (congrArg (fun p : _ × _ × State => keep p.2.2) h).symm; simp only [↓keep_mk, ↓keep_fold, ↓id_eq, ↓after_next, ↓arbitrate_keep, ↓emptyDrop_keep] at k))))
  | succ n ih =>
    unfold allocAll
    repeat' (first
      | with_reducible rfl
      | with_reducible assumption
      | simp only [↓keep_mk, ↓keep_fold, ↓id_eq, ↓after_next, ↓ih, ↓arbitrate_keep, ↓emptyDrop_keep]
      | simp only [*]
      | with_reducible refine keep_ite _ _ _ _ ?_ ?_
      | with_reducible refine keep_after_ite _ _ _ _ _ ?_ ?_
      | with_reducible refine keep_ite_snd _ _ _ _ ?_ ?_
      | with_reducible refine keep_ite_snd2 _ _ _ _ ?_ ?_
      | with_reducible refine (keep_foldl _ ?_ _ _).trans ?_
      | with_reducible refine (keep_foldl_snd _ ?_ _ _).trans ?_
      | (intros; simp only [*])
      | intro _
      | (split <;> try (rename_i h; first
          | (have k := (congrArg (fun p : _ × State => keep p.2) h).symm; simp only [↓keep_mk, ↓keep_fold, ↓id_eq, ↓after_next, ↓ih, ↓arbitrate_keep, ↓emptyDrop_keep] at k)
          | (have k := (congrArg (fun p : _ × _ × State => keep p.2.2) h).symm; simp only [↓keep_mk, ↓keep_fold, ↓id_eq, ↓after_next, ↓ih, ↓arbitrate_keep, ↓emptyDrop_keep] at k))))

theorem queuePut_keep : ∀ a0 a1 a2 a3, keep (queuePut a0 a1 a2 a3) = keep a3 := by
  intro a0 a1 a2 a3
  unfold queuePut
  (repeat' split) <;> simp only [↓keep_mk, ↓keep_fold, ↓id_eq, ↓after_next, ↓queueCount_keep, ↓modQueue_keep, ↓bankEvent_keep, ↓powTally_keep]

theorem chainPut_keep : ∀ a0 a1 a2 a3, keep ((chainPut a0 a1 a2 a3).2) = keep a3 := by
  intro a0 a1 a2 a3
  unfold chainPut
  (repeat' split) <;> rfl

/-! ### GateOps.lean -/

theorem modGate_keep : ∀ a0 a1 a2, keep (modGate a0 a1 a2) = keep a2 := by
  intro a0 a1 a2
  unfold modGate
  rfl

theorem gateCommit_keep : ∀ a0 a1 a2 a3 a4, keep (gateCommit a0 a1 a2 a3 a4) = keep a4 := by
  intro a0 a1 a2 a3 a4
  unfold gateCommit
  simp only [raise_keep, modGate_keep]

/-! ### SchedOps.lean -/

theorem modNode_keep : ∀ a0 a1 a2, keep (modNode a0 a1 a2) = keep a2 := by
  intro a0 a1 a2
  unfold modNode
  rfl

theorem portNodePut_keep : ∀ a0 a1 a2, keep (portNodePut a0 a1 a2) = keep a2 := by
  intro a0 a1 a2
  unfold portNodePut
  simp only [↓keep_mk, ↓keep_fold, ↓id_eq, ↓after_next, ↓modNode_keep, ↓modTd_keep]
  (repeat' split) <;> simp only [↓keep_mk, ↓keep_fold, ↓id_eq, ↓after_next, ↓modNode_keep, ↓modTd_keep]

theorem clientNodePut_keep : ∀ a0 a1 a2 a3, keep (clientNodePut a0 a1 a2 a3) = keep a3 := by
  intro a0 a1 a2 a3
  unfold clientNodePut
  (repeat' split) <;> rfl

theorem clientNodeDrop_keep : ∀ a0 a1, keep (clientNodeDrop a0 a1) = keep a1 := by
  intro a0 a1
  unfold clientNodeDrop
  repeat' (first
    | with_reducible rfl
    | with_reducible assumption
    | simp only [↓keep_mk, ↓keep_fold, ↓id_eq, ↓after_next, ↓modTd_keep]
    | with_reducible refine keep_ite _ _ _ _ ?_ ?_
    | with_reducible refine keep_after_ite _ _ _ _ _ ?_ ?_
    | with_reducible refine (keep_foldl _ ?_ _ _).trans ?_
    | with_reducible refine (keep_foldl_snd _ ?_ _ _).trans ?_
    | (intros; simp only [*])
    | intro _
    | split)

theorem modSched_keep : ∀ a0 a1 a2, keep (modSched a0 a1 a2) = keep a2 := by
  intro a0 a1 a2
  unfold modSched
  (repeat' split) <;> rfl

theorem joinWoken_keep : ∀ a0 a1 a2, keep (joinWoken a0 a1 a2) = keep a2 := by
  intro a0 a1 a2
  unfold joinWoken
  rfl

theorem refreshNode_keep : ∀ a0 a1 a2 a3, keep (refreshNode a0 a1 a2 a3) = keep a3 := by
  intro a0 a1 a2 a3
  unfold refreshNode
  repeat' (first
    | with_reducible rfl
    | with_reducible assumption
    | simp only [↓keep_mk, ↓keep_fold, ↓id_eq, ↓after_next, ↓joinWoken_keep, ↓modSched_keep, ↓modNode_keep]
    | with_reducible refine keep_ite _ _ _ _ ?_ ?_
    | with_reducible refine keep_after_ite _ _ _ _ _ ?_ ?_
    | with_reducible refine (keep_foldl _ ?_ _ _).trans ?_
    | with_reducible refine (keep_foldl_snd _ ?_ _ _).trans ?_
    | (intros; simp only [*])
    | intro _
    | split)

theorem refreshAt_keep : ∀ a0 a1 a2, keep (refreshAt a0 a1 a2) = keep a2 := by
  intro a0 a1 a2
  unfold refreshAt
  repeat' (first
    | with_reducible rfl
    | with_reducible assumption
    | simp only [↓keep_mk, ↓keep_fold, ↓id_eq, ↓after_next, ↓refreshNode_keep]
    | with_reducible refine keep_ite _ _ _ _ ?_ ?_
    | with_reducible refine keep_after_ite _ _ _ _ _ ?_ ?_
    | with_reducible refine (keep_foldl _ ?_ _ _).trans ?_
    | with_reducible refine (keep_foldl_snd _ ?_ _ _).trans ?_
    | (intros; simp only [*])
    | intro _
    | split)

theorem refreshTo_keep : ∀ a0 a1 a2, keep (refreshTo a0 a1 a2) = keep a2 := by
  intro a0 a1 a2
  unfold refreshTo
  repeat' (first
    | with_reducible rfl
    | with_reducible assumption
    | simp only [↓keep_mk, ↓keep_fold, ↓id_eq, ↓after_next, ↓modNode_keep, ↓refreshAt_keep]
    | with_reducible refine keep_ite _ _ _ _ ?_ ?_
    | with_reducible refine keep_after_ite _ _ _ _ _ ?_ ?_
    | with_reducible refine (keep_foldl _ ?_ _ _).trans ?_
    | with_reducible refine (keep_foldl_snd _ ?_ _ _).trans ?_
    | (intros; simp only [*])
    | intro _
    | split)

theorem refreshPort_keep : ∀ a0 a1, keep (refreshPort a0 a1) = keep a1 := by
  intro a0 a1
  unfold refreshPort
  simp only [refreshTo_keep]

theorem refreshSelect_keep : ∀ a0 a1 a2, keep (refreshSelect a0 a1 a2) = keep a2 := by
  intro a0 a1 a2
  unfold refreshSelect
  repeat' (first
    | with_reducible rfl
    | with_reducible assumption
    | simp only [↓keep_mk, ↓keep_fold, ↓id_eq, ↓after_next, ↓refreshTo_keep, ↓joinWoken_keep]
    | with_reducible refine keep_ite _ _ _ _ ?_ ?_
    | with_reducible refine keep_after_ite _ _ _ _ _ ?_ ?_
    | with_reducible refine (keep_foldl _ ?_ _ _).trans ?_
    | with_reducible refine (keep_foldl_snd _ ?_ _ _).trans ?_
    | (intros; simp only [*])
    | intro _
    | split)

theorem drr_keep (n b : Nat) (cand : Nat → State → Option (Nat × State)) (hc : ∀ c s r, cand c s = some r → keep r.2 = keep s) :
    ∀ f s r, drr n b cand f s = some r → keep r.2 = keep s := by
  intro f
  induction f with
  | zero => intro s r h; unfold drr at h; cases h
  | succ f ih =>
    intro s r h
    unfold drr at h
    split at h
    · cases h
    · split at h
      · cases h
      · split at h
        · rename_i h2
          rcases ite_some h with h | h
          · injection h with h
            subst h
            exact (modSched_keep _ _ _).trans (hc _ _ _ h2)
          · exact (ih _ _ h).trans ((modNode_keep _ _ _).trans (modSched_keep _ _ _))
        · exact (ih _ _ h).trans (modNode_keep _ _ _)

theorem choose_keep : ∀ {p f n s r}, choose p f n s = some r → keep r.2.2 = keep s := by
  intro p f
  induction f with
  | zero => intro n s r h; unfold choose at h; cases h
  | succ f ih =>
    intro n s r h
    have hc : ∀ c t (r : Nat × State), (if hType c = 0xA0 then some (hIdx c, t) else (choose p f c t).map fun r => (r.1, r.2.2)) = some r →
        keep r.2 = keep t := by
      intro c t r h
      split at h
      · injection h with h; subst h; rfl
      · obtain ⟨y, hy, rfl⟩ := Option.map_eq_some_iff.1 h
        exact ih hy
    unfold choose at h
    simp only [] at h
    rcases orElse_some h with h | h
    · rcases ite_some h with h | h
      · cases h
      · obtain ⟨b, hb, h3⟩ := List.exists_of_findSome?_eq_some h
        split at h3
        · cases h3
        · split at h3
          · obtain ⟨y, hy, rfl⟩ := Option.map_eq_some_iff.1 h3
            exact (hc _ _ _ hy).trans (modNode_keep _ _ _)
          · cases h3
    · obtain ⟨b, hb, h3⟩ := List.exists_of_findSome?_eq_some h
      split at h3
      · cases h3
      · obtain ⟨y, hy, rfl⟩ := Option.map_eq_some_iff.1 h3
        refine (drr_keep _ _ _ hc _ _ _ hy).trans ?_
        split
        · exact modNode_keep _ _ _
        · rfl

theorem chargePath_keep : ∀ a0 a1 a2, keep (chargePath a0 a1 a2) = keep a2 := by
  intro a0 a1 a2
  unfold chargePath
  repeat' (first
    | with_reducible rfl
    | with_reducible assumption
    | simp only [↓keep_mk, ↓keep_fold, ↓id_eq, ↓after_next, ↓modSched_keep]
    | with_reducible refine keep_ite _ _ _ _ ?_ ?_
    | with_reducible refine keep_after_ite _ _ _ _ _ ?_ ?_
    | with_reducible refine (keep_foldl _ ?_ _ _).trans ?_
    | with_reducible refine (keep_foldl_snd _ ?_ _ _).trans ?_
    | (intros; simp only [*])
    | intro _
    | split)

/-! ### FabOps.lean -/

theorem modFab_keep : ∀ a0 a1, keep (modFab a0 a1) = keep a1 := by
  intro a0 a1
  unfold modFab
  rfl

theorem fabLaneCount_keep : ∀ a0 a1 a2 a3, keep (fabLaneCount a0 a1 a2 a3) = keep a3 := by
  intro a0 a1 a2 a3
  unfold fabLaneCount
  simp only [ctrAdd48_keep]

theorem fabCount_keep : ∀ a0 a1 a2, keep (fabCount a0 a1 a2) = keep a2 := by
  intro a0 a1 a2
  unfold fabCount
  simp only [ctrAdd48_keep]

theorem dropUnreached_keep : ∀ a0, keep (dropUnreached a0) = keep a0 := by
  intro a0
  unfold dropUnreached
  repeat' (first
    | with_reducible rfl
    | with_reducible assumption
    | simp only [↓keep_mk, ↓keep_fold, ↓id_eq, ↓after_next, ↓capLost_keep, ↓voqRelease_keep, ↓fabCount_keep, ↓modFab_keep]
    | with_reducible refine keep_ite _ _ _ _ ?_ ?_
    | with_reducible refine keep_after_ite _ _ _ _ _ ?_ ?_
    | with_reducible refine (keep_foldl _ ?_ _ _).trans ?_
    | with_reducible refine (keep_foldl_snd _ ?_ _ _).trans ?_
    | (intros; simp only [*])
    | intro _
    | split)

theorem lowCheck_keep : ∀ a0, keep (lowCheck a0) = keep a0 := by
  intro a0
  unfold lowCheck
  repeat' (first
    | with_reducible rfl
    | with_reducible assumption
    | simp only [↓keep_mk, ↓keep_fold, ↓id_eq, ↓after_next, ↓raise_keep, ↓modFab_keep]
    | with_reducible refine keep_ite _ _ _ _ ?_ ?_
    | with_reducible refine keep_after_ite _ _ _ _ _ ?_ ?_
    | with_reducible refine (keep_foldl _ ?_ _ _).trans ?_
    | with_reducible refine (keep_foldl_snd _ ?_ _ _).trans ?_
    | (intros; simp only [*])
    | intro _
    | split)

theorem fabCheck_keep : ∀ a0, keep (fabCheck a0) = keep a0 := by
  intro a0
  unfold fabCheck
  repeat' (first
    | with_reducible rfl
    | with_reducible assumption
    | simp only [↓keep_mk, ↓keep_fold, ↓id_eq, ↓after_next, ↓dropUnreached_keep, ↓lowCheck_keep, ↓raise_keep, ↓modFab_keep]
    | with_reducible refine keep_ite _ _ _ _ ?_ ?_
    | with_reducible refine keep_after_ite _ _ _ _ _ ?_ ?_
    | with_reducible refine (keep_foldl _ ?_ _ _).trans ?_
    | with_reducible refine (keep_foldl_snd _ ?_ _ _).trans ?_
    | (intros; simp only [*])
    | intro _
    | split)

theorem modCred_keep : ∀ a0 a1 a2, keep (modCred a0 a1 a2) = keep a2 := by
  intro a0 a1 a2
  unfold modCred
  rfl

theorem takeStatus_keep : ∀ a0 a1 a2 a3 a4 a5 a6 a7 a8, keep (takeStatus a0 a1 a2 a3 a4 a5 a6 a7 a8) = keep a8 := by
  intro a0 a1 a2 a3 a4 a5 a6 a7 a8
  unfold takeStatus
  simp only [↓keep_mk, ↓keep_fold, ↓id_eq, ↓after_next, ↓fabCount_keep, ↓raise_keep, ↓modFab_keep]
  (repeat' split) <;> simp only [↓keep_mk, ↓keep_fold, ↓id_eq, ↓after_next, ↓fabCount_keep, ↓raise_keep, ↓modFab_keep]

theorem sendControl_keep : ∀ a0 a1 a2 a3, keep ((sendControl a0 a1 a2 a3).2) = keep a3 := by
  intro a0 a1 a2 a3
  unfold sendControl
  simp only [↓keep_mk, ↓keep_fold, ↓id_eq, ↓after_next, ↓modFab_keep]
  (repeat' split) <;> simp only [↓keep_mk, ↓keep_fold, ↓id_eq, ↓after_next, ↓modFab_keep]

theorem sendStatus_keep : ∀ a0 a1, keep (sendStatus a0 a1) = keep a1 := by
  intro a0 a1
  unfold sendStatus
  repeat' (first
    | with_reducible rfl
    | with_reducible assumption
    | simp only [↓keep_mk, ↓keep_fold, ↓id_eq, ↓after_next, ↓modCred_keep, ↓takeStatus_keep, ↓sendControl_keep, ↓fabCount_keep]
    | simp only [*]
    | with_reducible refine keep_ite _ _ _ _ ?_ ?_
    | with_reducible refine keep_after_ite _ _ _ _ _ ?_ ?_
    | with_reducible refine keep_ite_snd _ _ _ _ ?_ ?_
    | with_reducible refine keep_ite_snd2 _ _ _ _ ?_ ?_
    | with_reducible refine (keep_foldl _ ?_ _ _).trans ?_
    | with_reducible refine (keep_foldl_snd _ ?_ _ _).trans ?_
    | (intros; simp only [*])
    | intro _
    | (split <;> try (rename_i h; first
        | (have k := (congrArg (fun p : _ × State => keep p.2) h).symm; simp only [↓keep_mk, ↓keep_fold, ↓id_eq, ↓after_next, ↓modCred_keep, ↓takeStatus_keep, ↓sendControl_keep, ↓fabCount_keep] at k)
        | (have k := (congrArg (fun p : _ × _ × State => keep p.2.2) h).symm; simp only [↓keep_mk, ↓keep_fold, ↓id_eq, ↓after_next, ↓modCred_keep, ↓takeStatus_keep, ↓sendControl_keep, ↓fabCount_keep] at k))))

theorem statusCheck_keep : ∀ a0 a1, keep (statusCheck a0 a1) = keep a1 := by
  intro a0 a1
  unfold statusCheck
  (repeat' split) <;> simp only [↓keep_mk, ↓keep_fold, ↓id_eq, ↓after_next, ↓sendStatus_keep]

theorem renamed_keep : ∀ a0, keep (renamed a0) = keep a0 := by
  intro a0
  unfold renamed
  simp only [lowCheck_keep, modFab_keep]

theorem chargeVoq_keep : ∀ a0 a1 a2, keep (chargeVoq a0 a1 a2) = keep a2 := by
  intro a0 a1 a2
  unfold chargeVoq
  rfl

theorem turnaround_keep : ∀ a0 a1 a2, keep ((turnaround a0 a1 a2)) = keep a2 := by
  intro a0 a1 a2
  induction a1 generalizing a0 a2 with
  | zero =>
    unfold turnaround
    repeat' (first
      | with_reducible rfl
      | with_reducible assumption
      | simp only [↓keep_mk, ↓keep_fold, ↓id_eq, ↓after_next, ↓modTd_keep, ↓queueTake_keep, ↓chargeVoq_keep, ↓statusCheck_keep]
      | simp only [*]
      | with_reducible refine keep_ite _ _ _ _ ?_ ?_
      | with_reducible refine keep_after_ite _ _ _ _ _ ?_ ?_
      | with_reducible refine keep_ite_snd _ _ _ _ ?_ ?_
      | with_reducible refine keep_ite_snd2 _ _ _ _ ?_ ?_
      | with_reducible refine (keep_foldl _ ?_ _ _).trans ?_
      | with_reducible refine (keep_foldl_snd _ ?_ _ _).trans ?_
      | (intros; simp only [*])
      | intro _
      | (split <;> try (rename_i h; first
          | (have k := (congrArg (fun p : _ × State => keep p.2) h).symm; simp only [↓keep_mk, ↓keep_fold, ↓id_eq, ↓after_next, ↓modTd_keep, ↓queueTake_keep, ↓chargeVoq_keep, ↓statusCheck_keep] at k)
          | (have k := (congrArg (fun p : _ × _ × State => keep p.2.2) h).symm; simp only [↓keep_mk, ↓keep_fold, ↓id_eq, ↓after_next, ↓modTd_keep, ↓queueTake_keep, ↓chargeVoq_keep, ↓statusCheck_keep] at k))))
  | succ n ih =>
    unfold turnaround
    repeat' (first
      | with_reducible rfl
      | with_reducible assumption
      | simp only [↓keep_mk, ↓keep_fold, ↓id_eq, ↓after_next, ↓ih, ↓modTd_keep, ↓queueTake_keep, ↓chargeVoq_keep, ↓statusCheck_keep]
      | simp only [*]
      | with_reducible refine keep_ite _ _ _ _ ?_ ?_
      | with_reducible refine keep_after_ite _ _ _ _ _ ?_ ?_
      | with_reducible refine keep_ite_snd _ _ _ _ ?_ ?_
      | with_reducible refine keep_ite_snd2 _ _ _ _ ?_ ?_
      | with_reducible refine (keep_foldl _ ?_ _ _).trans ?_
      | with_reducible refine (keep_foldl_snd _ ?_ _ _).trans ?_
      | (intros; simp only [*])
      | intro _
      | (split <;> try (rename_i h; first
          | (have k := (congrArg (fun p : _ × State => keep p.2) h).symm; simp only [↓keep_mk, ↓keep_fold, ↓id_eq, ↓after_next, ↓ih, ↓modTd_keep, ↓queueTake_keep, ↓chargeVoq_keep, ↓statusCheck_keep] at k)
          | (have k := (congrArg (fun p : _ × _ × State => keep p.2.2) h).symm; simp only [↓keep_mk, ↓keep_fold, ↓id_eq, ↓after_next, ↓ih, ↓modTd_keep, ↓queueTake_keep, ↓chargeVoq_keep, ↓statusCheck_keep] at k))))

theorem serveVoq_keep : ∀ a0 a1, keep (serveVoq a0 a1) = keep a1 := by
  intro a0 a1
  unfold serveVoq
  (repeat' split) <;> simp only [↓keep_mk, ↓keep_fold, ↓id_eq, ↓after_next, ↓turnaround_keep]

theorem modRx_keep : ∀ a0 a1 a2, keep (modRx a0 a1 a2) = keep a2 := by
  intro a0 a1 a2
  unfold modRx
  rfl

theorem dropOpen_keep : ∀ a0 a1, keep (dropOpen a0 a1) = keep a1 := by
  intro a0 a1
  unfold dropOpen
  simp only [bufReleaseAll_keep, modRx_keep]

theorem takeToken_keep : ∀ a0 a1 a2, keep (takeToken a0 a1 a2) = keep a2 := by
  intro a0 a1 a2
  unfold takeToken
  simp only [↓keep_mk, ↓keep_fold, ↓id_eq, ↓after_next, ↓serveVoq_keep, ↓modCred_keep, ↓fabCount_keep]
  (repeat' split) <;> simp only [↓keep_mk, ↓keep_fold, ↓id_eq, ↓after_next, ↓serveVoq_keep, ↓modCred_keep, ↓fabCount_keep]

theorem sendToken_keep : ∀ a0 a1, keep (sendToken a0 a1) = keep a1 := by
  intro a0 a1
  unfold sendToken
  repeat' (first
    | with_reducible rfl
    | with_reducible assumption
    | simp only [↓keep_mk, ↓keep_fold, ↓id_eq, ↓after_next, ↓takeToken_keep, ↓sendControl_keep, ↓fabCount_keep]
    | simp only [*]
    | with_reducible refine keep_ite _ _ _ _ ?_ ?_
    | with_reducible refine keep_after_ite _ _ _ _ _ ?_ ?_
    | with_reducible refine keep_ite_snd _ _ _ _ ?_ ?_
    | with_reducible refine keep_ite_snd2 _ _ _ _ ?_ ?_
    | with_reducible refine (keep_foldl _ ?_ _ _).trans ?_
    | with_reducible refine (keep_foldl_snd _ ?_ _ _).trans ?_
    | (intros; simp only [*])
    | intro _
    | (split <;> try (rename_i h; first
        | (have k := (congrArg (fun p : _ × State => keep p.2) h).symm; simp only [↓keep_mk, ↓keep_fold, ↓id_eq, ↓after_next, ↓takeToken_keep, ↓sendControl_keep, ↓fabCount_keep] at k)
        | (have k := (congrArg (fun p : _ × _ × State => keep p.2.2) h).symm; simp only [↓keep_mk, ↓keep_fold, ↓id_eq, ↓after_next, ↓takeToken_keep, ↓sendControl_keep, ↓fabCount_keep] at k))))

theorem creditRefill_keep : ∀ a0 a1, keep (creditRefill a0 a1) = keep a1 := by
  intro a0 a1
  unfold creditRefill
  rfl

theorem creditRun_keep : ∀ a0 a1, keep (creditRun a0 a1) = keep a1 := by
  intro a0 a1
  unfold creditRun
  simp only [↓keep_mk, ↓keep_fold, ↓id_eq, ↓after_next, ↓modFab_keep, ↓creditRefill_keep, ↓sendToken_keep]
  (repeat' split) <;> simp only [↓keep_mk, ↓keep_fold, ↓id_eq, ↓after_next, ↓modFab_keep, ↓creditRefill_keep, ↓sendToken_keep]

/-! ### Admission.lean -/

theorem admCount_keep : ∀ a0 a1, keep (admCount a0 a1) = keep a1 := by
  intro a0 a1
  unfold admCount
  (repeat' split) <;> simp only [↓keep_mk, ↓keep_fold, ↓id_eq, ↓after_next, ↓detCount_keep]

theorem putBounds_keep : ∀ a0 a1, keep (putBounds a0 a1) = keep a1 := by
  intro a0 a1
  unfold putBounds
  rfl

theorem partRaise_keep : ∀ a0 a1, keep ((partRaise a0 a1).2.2) = keep a1 := by
  intro a0 a1
  unfold partRaise
  simp only [partGrow_keep]

theorem partShort_keep : ∀ a0 a1 a2, keep (partShort a0 a1 a2) = keep a2 := by
  intro a0 a1 a2
  unfold partShort
  simp only [raise_keep]

theorem admView_keep : ∀ a0 a1 a2, keep (admView a0 a1 a2) = keep a2 := by
  intro a0 a1 a2
  unfold admView
  (repeat' split) <;> rfl

theorem admitChange_keep (old new : State) (h : keep new = keep old) : keep (admitChange old new).2 = keep old := by
  have h2 : ∀ b, keep (admCount b new) = keep old := fun b => (admCount_keep b new).trans h
  unfold admitChange
  repeat' (first
    | with_reducible rfl
    | with_reducible assumption
    | simp only [↓keep_mk, ↓keep_fold, ↓id_eq, ↓after_next, ↓admCount_keep, ↓partRaise_keep, ↓putBounds_keep, ↓partShort_keep, h]
    | simp only [*]
    | with_reducible refine keep_ite _ _ _ _ ?_ ?_
    | with_reducible refine keep_after_ite _ _ _ _ _ ?_ ?_
    | with_reducible refine keep_ite_snd _ _ _ _ ?_ ?_
    | with_reducible refine keep_ite_snd2 _ _ _ _ ?_ ?_
    | with_reducible refine (keep_foldl _ ?_ _ _).trans ?_
    | with_reducible refine (keep_foldl_snd _ ?_ _ _).trans ?_
    | (intros; simp only [*])
    | intro _
    | (split <;> try (rename_i h; first
        | (have k := (congrArg (fun p : _ × State => keep p.2) h).symm; simp only [↓keep_mk, ↓keep_fold, ↓id_eq, ↓after_next, ↓admCount_keep, ↓partRaise_keep, ↓putBounds_keep, ↓partShort_keep, h] at k)
        | (have k := (congrArg (fun p : _ × _ × State => keep p.2.2) h).symm; simp only [↓keep_mk, ↓keep_fold, ↓id_eq, ↓after_next, ↓admCount_keep, ↓partRaise_keep, ↓putBounds_keep, ↓partShort_keep, h] at k))))

/-! ### Command.lean -/

theorem fail_keep : ∀ a0 a1, keep ((fail a0 a1).st) = keep a1 := by
  intro a0 a1
  unfold fail
  rfl

theorem markDirect_keep : ∀ a0 a1, keep (markDirect a0 a1) = keep a1 := by
  intro a0 a1
  unfold markDirect
  (repeat' split) <;> rfl

theorem directRun_keep (k : Cmd) (hk : ∀ c q s, keep (k.act c q s).st = keep s) (c : Call) (q : List Word) (s : State) :
    keep (directRun k c q s).st = keep s := by
  have h2 : keep (if k.adm then admitChange s (k.act ⟨.direct, c.mb, 0, 0, false⟩ q s).st
      else (none, (k.act ⟨.direct, c.mb, 0, 0, false⟩ q s).st)).2 = keep s := by
    split
    · exact admitChange_keep _ _ (hk _ _ _)
    · exact hk _ _ _
  unfold directRun
  simp only []
  split
  · split
    · rename_i h
      rw [h] at h2
      exact h2
    · rename_i h
      rw [h] at h2
      split
      · exact h2
      · split <;> simp only [toTwin_keep, markDirect_keep] <;> exact h2
  · exact hk _ _ _

theorem wakeNamed_keep : ∀ a0 a1 a2, keep (wakeNamed a0 a1 a2) = keep a2 := by
  intro a0 a1 a2
  unfold wakeNamed
  (repeat' split) <;> rfl

theorem reserve_keep : ∀ a0 a1 a2 a3 a4, keep (reserve a0 a1 a2 a3 a4) = keep a4 := by
  intro a0 a1 a2 a3 a4
  unfold reserve
  (repeat' split) <;> rfl

theorem putTxn_keep : ∀ a0 a1 a2, keep (putTxn a0 a1 a2) = keep a2 := by
  intro a0 a1 a2
  unfold putTxn
  rfl

theorem stageRun_keep (k : Cmd) (hk : ∀ c q s, keep (k.act c q s).st = keep s) (c : Call) (q : List Word) (s : State) :
    keep (stageRun k c q s).st = keep s := by
  unfold stageRun
  split
  · rfl
  · simp only []
    split
    · rfl
    · split
      · simp only [toTwin_keep, putTxn_keep, reserve_keep]
      · rfl

theorem runOp_keep (k : Cmd) (hk : ∀ c q s, keep (k.act c q s).st = keep s) (c : Call) (q : List Word) (s : State) :
    keep (runOp k c q s).st = keep s := by
  unfold runOp
  split
  · exact (directRun_keep k hk _ _ _).trans (wakeNamed_keep _ _ _)
  · exact stageRun_keep k hk _ _ _

theorem mbWrite_keep : ∀ a0 a1 a2 a3, keep (mbWrite a0 a1 a2 a3) = keep a3 := by
  intro a0 a1 a2 a3
  unfold mbWrite
  rfl

theorem zeroRequest_keep : ∀ a0 a1, keep (zeroRequest a0 a1) = keep a1 := by
  intro a0 a1
  unfold zeroRequest
  (repeat' split) <;> rfl

theorem setDone_keep : ∀ a0 a1 a2, keep (setDone a0 a1 a2) = keep a2 := by
  intro a0 a1 a2
  unfold setDone
  rfl

theorem putMb_keep : ∀ a0 a1 a2, keep (putMb a0 a1 a2) = keep a2 := by
  intro a0 a1 a2
  unfold putMb
  rfl

theorem releaseMb_keep : ∀ a0 a1, keep (releaseMb a0 a1) = keep a1 := by
  intro a0 a1
  unfold releaseMb
  simp only [signal_keep, setDone_keep, putMb_keep]

theorem complete_keep : ∀ a0 a1 a2 a3 a4, keep (complete a0 a1 a2 a3 a4) = keep a4 := by
  intro a0 a1 a2 a3 a4
  unfold complete
  simp only [↓keep_mk, ↓keep_fold, ↓id_eq, ↓after_next, ↓zeroRequest_keep, ↓releaseMb_keep, ↓mbWrite_keep]
  (repeat' split) <;> simp only [↓keep_mk, ↓keep_fold, ↓id_eq, ↓after_next, ↓zeroRequest_keep, ↓releaseMb_keep, ↓mbWrite_keep]

theorem runOwned_keep (k : Cmd) (hk : ∀ c q s, keep (k.act c q s).st = keep s) (c : Call) (q : List Word) (s : State) :
    keep (runOwned k c q s) = keep s := by
  unfold runOwned
  split
  · rfl
  · simp only [complete_keep, zeroRequest_keep]
    exact runOp_keep k hk _ _ _

theorem indirectError_keep : ∀ a0 a1, keep (indirectError a0 a1) = keep a1 := by
  intro a0 a1
  unfold indirectError
  (repeat' split) <;> simp only [↓keep_mk, ↓keep_fold, ↓id_eq, ↓after_next, ↓pioCount_keep]

theorem acceptCmd_keep : ∀ a0 a1 a2, keep (acceptCmd a0 a1 a2) = keep a2 := by
  intro a0 a1 a2
  unfold acceptCmd
  rfl

theorem takeMb_keep : ∀ a0 a1 a2 a3, keep (takeMb a0 a1 a2 a3) = keep a3 := by
  intro a0 a1 a2 a3
  unfold takeMb
  simp only [setDone_keep, mbWrite_keep, acceptCmd_keep]

theorem runCommand_keep (k : Cmd) (hk : ∀ c q s, keep (k.act c q s).st = keep s) (c : Call) (q : List Word) (s : State) :
    keep (runCommand k c q s) = keep s := by
  rw [← State_atTime_keep s c.t]
  unfold runCommand
  simp only []
  split
  · rfl
  · split
    · split
      · exact runOwned_keep k hk _ _ _
      · rfl
    · split
      · rfl
      · split
        · simp only [complete_keep, indirectError_keep, takeMb_keep]
        · rw [runOwned_keep k hk]
          simp only [indirectError_keep, takeMb_keep]

theorem done_keep : ∀ a0, keep ((done a0).st) = keep a0 := by
  intro a0
  unfold done
  rfl

theorem reply_keep : ∀ a0 a1, keep ((reply a0 a1).st) = keep a1 := by
  intro a0 a1
  unfold reply
  rfl

theorem created_keep : ∀ a0 a1, keep ((created a0 a1).st) = keep a1 := by
  intro a0 a1
  unfold created
  rfl

end Sys2Proof.Machine
end

