-- ==== Sys2Proof/Laws/KeepTraffic.lean ====
section
/-! SUPPORT. Each function of buffers, queues, streams and the fabric keeps the lifecycle state and the queue of waiting commands (R500). -/

namespace Sys2Proof.Machine

open Sys2Proof

set_option maxRecDepth 4000
set_option linter.unusedSimpArgs false

/-! ### Buffers.lean -/

theorem actBufPoolSet_keep (c : Ctx) (q : List Word) (s : State) : keep (actBufPoolSet c q s).st = keep s := by
  unfold actBufPoolSet
  simp only [↓keep_mk, ↓keep_fold, ↓id_eq, ↓after_next, ↓fail_keep, ↓done_keep, ↓poolCheck_keep, ↓modPool_keep]
  (repeat' split) <;> simp only [↓keep_mk, ↓keep_fold, ↓id_eq, ↓after_next, ↓fail_keep, ↓done_keep, ↓poolCheck_keep, ↓modPool_keep]

theorem execBufPoolSet_keep : ∀ a0 a1 a2, keep (after (execBufPoolSet a0 a1 a2) a2) = keep a2 := fun _ _ _ => runCommand_keep _ actBufPoolSet_keep _ _ _

theorem actBufPoolStatus_keep (c : Ctx) (q : List Word) (s : State) : keep (actBufPoolStatus c q s).st = keep s := by
  unfold actBufPoolStatus
  simp only [refSettleAll_keep, reply_keep]

theorem execBufPoolStatus_keep : ∀ a0 a1 a2, keep (after (execBufPoolStatus a0 a1 a2) a2) = keep a2 := fun _ _ _ => runCommand_keep _ actBufPoolStatus_keep _ _ _

theorem actBufInspect_keep (c : Ctx) (q : List Word) (s : State) : keep (actBufInspect c q s).st = keep s := by
  unfold actBufInspect
  simp only [↓keep_mk, ↓keep_fold, ↓id_eq, ↓after_next, ↓refSettleAll_keep, ↓fail_keep, ↓reply_keep]
  (repeat' split) <;> simp only [↓keep_mk, ↓keep_fold, ↓id_eq, ↓after_next, ↓refSettleAll_keep, ↓fail_keep, ↓reply_keep]

theorem execBufInspect_keep : ∀ a0 a1 a2, keep (after (execBufInspect a0 a1 a2) a2) = keep a2 := fun _ _ _ => runCommand_keep _ actBufInspect_keep _ _ _

theorem actBufCounters_keep (c : Ctx) (q : List Word) (s : State) : keep (actBufCounters c q s).st = keep s := by
  unfold actBufCounters
  simp only [refSettleAll_keep, reply_keep]

theorem execBufCounters_keep : ∀ a0 a1 a2, keep (after (execBufCounters a0 a1 a2) a2) = keep a2 := fun _ _ _ => runCommand_keep _ actBufCounters_keep _ _ _

theorem setWaiting_keep : ∀ a0 a1 a2, keep (setWaiting a0 a1 a2) = keep a2 := by
  intro a0 a1 a2
  unfold setWaiting
  rfl

theorem wantsBuffers_keep : ∀ a0 a1 a2 a3 a4 a5, keep ((wantsBuffers a0 a1 a2 a3 a4 a5).2) = keep a5 := by
  intro a0 a1 a2 a3 a4 a5
  induction a3 generalizing a0 a1 a2 a4 a5 with
  | zero =>
    unfold wantsBuffers
    repeat' (first
      | with_reducible rfl
      | with_reducible assumption
      | simp only [↓keep_mk, ↓keep_fold, ↓id_eq, ↓after_next, ↓setWaiting_keep, ↓planPkt_keep]
      | simp only [*]
      | with_reducible refine keep_ite _ _ _ _ ?_ ?_
      | with_reducible refine keep_after_ite _ _ _ _ _ ?_ ?_
      | with_reducible refine keep_ite_snd _ _ _ _ ?_ ?_
      | with_reducible refine keep_ite_snd2 _ _ _ _ ?_ ?_
      | with_reducible refine (keep_foldl _ ?_ _ _).trans ?_
      | with_reducible refine (keep_foldl_snd _ ?_ _ _).trans ?_
      | (intros; simp only [*])
      | intro _
      | (split <;> try (rename_i h; first
          | (have k := (congrArg (fun p : _ × State => keep p.2) h).symm; simp only [↓keep_mk, ↓keep_fold, ↓id_eq, ↓after_next, ↓setWaiting_keep, ↓planPkt_keep] at k)
          | (have k := (congrArg (fun p : _ × _ × State => keep p.2.2) h).symm; simp only [↓keep_mk, ↓keep_fold, ↓id_eq, ↓after_next, ↓setWaiting_keep, ↓planPkt_keep] at k))))
  | succ n ih =>
    unfold wantsBuffers
    repeat' (first
      | with_reducible rfl
      | with_reducible assumption
      | simp only [↓keep_mk, ↓keep_fold, ↓id_eq, ↓after_next, ↓ih, ↓setWaiting_keep, ↓planPkt_keep]
      | simp only [*]
      | with_reducible refine keep_ite _ _ _ _ ?_ ?_
      | with_reducible refine keep_after_ite _ _ _ _ _ ?_ ?_
      | with_reducible refine keep_ite_snd _ _ _ _ ?_ ?_
      | with_reducible refine keep_ite_snd2 _ _ _ _ ?_ ?_
      | with_reducible refine (keep_foldl _ ?_ _ _).trans ?_
      | with_reducible refine (keep_foldl_snd _ ?_ _ _).trans ?_
      | (intros; simp only [*])
      | intro _
      | (split <;> try (rename_i h; first
          | (have k := (congrArg (fun p : _ × State => keep p.2) h).symm; simp only [↓keep_mk, ↓keep_fold, ↓id_eq, ↓after_next, ↓ih, ↓setWaiting_keep, ↓planPkt_keep] at k)
          | (have k := (congrArg (fun p : _ × _ × State => keep p.2.2) h).symm; simp only [↓keep_mk, ↓keep_fold, ↓id_eq, ↓after_next, ↓ih, ↓setWaiting_keep, ↓planPkt_keep] at k))))

theorem serveClient_keep : ∀ a0 a1 a2 a3 a4, keep ((serveClient a0 a1 a2 a3 a4).2.2) = keep a4 := by
  intro a0 a1 a2 a3 a4
  unfold serveClient
  repeat' (first
    | with_reducible rfl
    | with_reducible assumption
    | simp only [↓keep_mk, ↓keep_fold, ↓id_eq, ↓after_next, ↓wantsBuffers_keep, ↓arbitrate_keep, ↓setWaiting_keep]
    | simp only [*]
    | with_reducible refine keep_ite _ _ _ _ ?_ ?_
    | with_reducible refine keep_after_ite _ _ _ _ _ ?_ ?_
    | with_reducible refine keep_ite_snd _ _ _ _ ?_ ?_
    | with_reducible refine keep_ite_snd2 _ _ _ _ ?_ ?_
    | with_reducible refine (keep_foldl _ ?_ _ _).trans ?_
    | with_reducible refine (keep_foldl_snd _ ?_ _ _).trans ?_
    | (intros; simp only [*])
    | intro _
    | (split <;> try (rename_i h; first
        | (have k := (congrArg (fun p : _ × State => keep p.2) h).symm; simp only [↓keep_mk, ↓keep_fold, ↓id_eq, ↓after_next, ↓wantsBuffers_keep, ↓arbitrate_keep, ↓setWaiting_keep] at k)
        | (have k := (congrArg (fun p : _ × _ × State => keep p.2.2) h).symm; simp only [↓keep_mk, ↓keep_fold, ↓id_eq, ↓after_next, ↓wantsBuffers_keep, ↓arbitrate_keep, ↓setWaiting_keep] at k))))

theorem execBufferAllocate_keep : ∀ a0 a1 a2 a3, keep (after (execBufferAllocate a0 a1 a2 a3) a3) = keep a3 := by
  intro t pool reqs s
  rw [← State_atTime_keep s t]
  unfold execBufferAllocate
  generalize s.atTime t = u
  have hf : ∀ (p : Nat) (rs : List (Nat × Nat)) (l : List Nat) (x : Nat × List (Bool × Pkt) × State),
      keep (l.foldl (fun (h, gone, s) c =>
        match rs.find? fun r => r.1 == c with
        | some (_, k) =>
          let (h, d, s) := serveClient p c k h s
          (h, gone ++ d.toList, s)
        | none => (h, gone, s)) x).2.2 = keep x.2.2 := by
    intro p rs l
    induction l with
    | nil => intro x; rfl
    | cons c l ih =>
      intro x
      rw [List.foldl_cons, ih]
      obtain ⟨h, g, s⟩ := x
      simp only []
      split
      · exact serveClient_keep _ _ _ _ _
      · rfl
  simp only [after_next]
  rw [keep_foldl _ (fun s d => by rw [capLost_keep, emptyDrop_keep])]
  exact (hf _ _ _ _).trans (refSettle_keep _ _ _)

theorem execBufferRelease_keep : ∀ a0 a1 a2 a3 a4 a5, keep (after (execBufferRelease a0 a1 a2 a3 a4 a5) a5) = keep a5 := by
  intro a0 a1 a2 a3 a4 a5
  unfold execBufferRelease
  (repeat' split) <;> simp only [↓keep_mk, ↓keep_fold, ↓id_eq, ↓after_next, ↓refPut_keep, ↓State_atTime_keep]

theorem execBufferReplicate_keep : ∀ a0 a1 a2 a3 a4, keep (after (execBufferReplicate a0 a1 a2 a3 a4) a4) = keep a4 := by
  intro a0 a1 a2 a3 a4
  unfold execBufferReplicate
  (repeat' split) <;> simp only [↓keep_mk, ↓keep_fold, ↓id_eq, ↓after_next, ↓refPut_keep, ↓State_atTime_keep]

/-! ### Queues.lean -/

theorem actQueueSpaceSet_keep (c : Ctx) (q : List Word) (s : State) : keep (actQueueSpaceSet c q s).st = keep s := by
  unfold actQueueSpaceSet
  simp only [↓keep_mk, ↓keep_fold, ↓id_eq, ↓after_next, ↓fail_keep, ↓done_keep, ↓modTd_keep]
  (repeat' split) <;> simp only [↓keep_mk, ↓keep_fold, ↓id_eq, ↓after_next, ↓fail_keep, ↓done_keep, ↓modTd_keep]

theorem execQueueSpaceSet_keep : ∀ a0 a1 a2, keep (after (execQueueSpaceSet a0 a1 a2) a2) = keep a2 := fun _ _ _ => runCommand_keep _ actQueueSpaceSet_keep _ _ _

theorem newQueueCtrs_keep : ∀ a0 a1, keep (newQueueCtrs a0 a1) = keep a1 := by
  intro a0 a1
  unfold newQueueCtrs
  simp only [ctrClear_keep]

theorem actVoqCreate_keep (c : Ctx) (q : List Word) (s : State) : keep (actVoqCreate c q s).st = keep s := by
  unfold actVoqCreate
  repeat' (first
    | with_reducible rfl
    | with_reducible assumption
    | simp only [↓keep_mk, ↓keep_fold, ↓id_eq, ↓after_next, ↓fail_keep, ↓newQueueCtrs_keep, ↓created_keep, ↓modTd_keep]
    | with_reducible refine keep_ite _ _ _ _ ?_ ?_
    | with_reducible refine keep_after_ite _ _ _ _ _ ?_ ?_
    | with_reducible refine (keep_foldl _ ?_ _ _).trans ?_
    | with_reducible refine (keep_foldl_snd _ ?_ _ _).trans ?_
    | (intros; simp only [*])
    | intro _
    | split)

theorem execVoqCreate_keep : ∀ a0 a1 a2, keep (after (execVoqCreate a0 a1 a2) a2) = keep a2 := fun _ _ _ => runCommand_keep _ actVoqCreate_keep _ _ _

theorem actVoqDelete_keep (c : Ctx) (q : List Word) (s : State) : keep (actVoqDelete c q s).st = keep s := by
  unfold actVoqDelete
  simp only [↓keep_mk, ↓keep_fold, ↓id_eq, ↓after_next, ↓fail_keep, ↓done_keep, ↓modTd_keep]
  (repeat' split) <;> simp only [↓keep_mk, ↓keep_fold, ↓id_eq, ↓after_next, ↓fail_keep, ↓done_keep, ↓modTd_keep]

theorem execVoqDelete_keep : ∀ a0 a1 a2, keep (after (execVoqDelete a0 a1 a2) a2) = keep a2 := fun _ _ _ => runCommand_keep _ actVoqDelete_keep _ _ _

theorem actQueueCreate_keep (c : Ctx) (q : List Word) (s : State) : keep (actQueueCreate c q s).st = keep s := by
  unfold actQueueCreate
  simp only [↓keep_mk, ↓keep_fold, ↓id_eq, ↓after_next, ↓fail_keep, ↓created_keep, ↓newQueueCtrs_keep, ↓modTd_keep]
  (repeat' split) <;> simp only [↓keep_mk, ↓keep_fold, ↓id_eq, ↓after_next, ↓fail_keep, ↓created_keep, ↓newQueueCtrs_keep, ↓modTd_keep]

theorem execQueueCreate_keep : ∀ a0 a1 a2, keep (after (execQueueCreate a0 a1 a2) a2) = keep a2 := fun _ _ _ => runCommand_keep _ actQueueCreate_keep _ _ _

theorem unlist_keep : ∀ a0 a1, keep (unlist a0 a1) = keep a1 := by
  intro a0 a1
  unfold unlist
  (repeat' split) <;> simp only [↓keep_mk, ↓keep_fold, ↓id_eq, ↓after_next, ↓modSched_keep, ↓modNode_keep]

theorem applySched_keep : ∀ a0 a1 a2, keep (applySched a0 a1 a2) = keep a2 := by
  intro a0 a1 a2
  unfold applySched
  (repeat' split) <;> simp only [↓keep_mk, ↓keep_fold, ↓id_eq, ↓after_next, ↓unlist_keep, ↓modSched_keep]

theorem applyQueue_keep : ∀ a0 a1 a2 a3, keep (applyQueue a0 a1 a2 a3) = keep a3 := by
  intro a0 a1 a2 a3
  unfold applyQueue
  simp only [applySched_keep, modQueue_keep]

theorem actQueueSet_keep (c : Ctx) (q : List Word) (s : State) : keep (actQueueSet c q s).st = keep s := by
  unfold actQueueSet
  simp only [↓keep_mk, ↓keep_fold, ↓id_eq, ↓after_next, ↓done_keep, ↓fail_keep, ↓applyQueue_keep, ↓modQueue_keep]
  (repeat' split) <;> simp only [↓keep_mk, ↓keep_fold, ↓id_eq, ↓after_next, ↓done_keep, ↓fail_keep, ↓applyQueue_keep, ↓modQueue_keep]

theorem execQueueSet_keep : ∀ a0 a1 a2, keep (after (execQueueSet a0 a1 a2) a2) = keep a2 := fun _ _ _ => runCommand_keep _ actQueueSet_keep _ _ _

theorem actQueueDelete_keep (c : Ctx) (q : List Word) (s : State) : keep (actQueueDelete c q s).st = keep s := by
  unfold actQueueDelete
  simp only [↓keep_mk, ↓keep_fold, ↓id_eq, ↓after_next, ↓done_keep, ↓fail_keep, ↓modTd_keep]
  (repeat' split) <;> simp only [↓keep_mk, ↓keep_fold, ↓id_eq, ↓after_next, ↓done_keep, ↓fail_keep, ↓modTd_keep]

theorem execQueueDelete_keep : ∀ a0 a1 a2, keep (after (execQueueDelete a0 a1 a2) a2) = keep a2 := fun _ _ _ => runCommand_keep _ actQueueDelete_keep _ _ _

theorem queueSettled_keep : ∀ a0 a1, keep (queueSettled a0 a1) = keep a1 := by
  intro a0 a1
  unfold queueSettled
  (repeat' split) <;> simp only [↓keep_mk, ↓keep_fold, ↓id_eq, ↓after_next, ↓refreshPort_keep]

theorem queueChanged_keep : ∀ a0 a1, keep (queueChanged a0 a1) = keep a1 := by
  intro a0 a1
  unfold queueChanged
  (repeat' split) <;> simp only [↓keep_mk, ↓keep_fold, ↓id_eq, ↓after_next, ↓statusCheck_keep, ↓refreshPort_keep]

theorem actQueueFlush_keep (c : Ctx) (q : List Word) (s : State) : keep (actQueueFlush c q s).st = keep s := by
  unfold actQueueFlush
  simp only [↓keep_mk, ↓keep_fold, ↓id_eq, ↓after_next, ↓fail_keep, ↓queueFlushAll_keep, ↓queueSettled_keep, ↓reply_keep, ↓queueChanged_keep]
  (repeat' split) <;> simp only [↓keep_mk, ↓keep_fold, ↓id_eq, ↓after_next, ↓fail_keep, ↓queueFlushAll_keep, ↓queueSettled_keep, ↓reply_keep, ↓queueChanged_keep]

theorem execQueueFlush_keep : ∀ a0 a1 a2, keep (after (execQueueFlush a0 a1 a2) a2) = keep a2 := fun _ _ _ => runCommand_keep _ actQueueFlush_keep _ _ _

theorem actQueueStatus_keep (c : Ctx) (q : List Word) (s : State) : keep (actQueueStatus c q s).st = keep s := by
  unfold actQueueStatus
  (repeat' split) <;> rfl

theorem execQueueStatus_keep : ∀ a0 a1 a2, keep (after (execQueueStatus a0 a1 a2) a2) = keep a2 := fun _ _ _ => runCommand_keep _ actQueueStatus_keep _ _ _

theorem actQueueCounters_keep (c : Ctx) (q : List Word) (s : State) : keep (actQueueCounters c q s).st = keep s := by
  unfold actQueueCounters
  (repeat' split) <;> simp only [↓keep_mk, ↓keep_fold, ↓id_eq, ↓after_next, ↓fail_keep, ↓reply_keep, ↓ctrClear_keep]

theorem execQueueCounters_keep : ∀ a0 a1 a2, keep (after (execQueueCounters a0 a1 a2) a2) = keep a2 := fun _ _ _ => runCommand_keep _ actQueueCounters_keep _ _ _

theorem actNodeCreate_keep (c : Ctx) (q : List Word) (s : State) : keep (actNodeCreate c q s).st = keep s := by
  unfold actNodeCreate
  simp only [↓keep_mk, ↓keep_fold, ↓id_eq, ↓after_next, ↓fail_keep, ↓created_keep, ↓modTd_keep]
  (repeat' split) <;> simp only [↓keep_mk, ↓keep_fold, ↓id_eq, ↓after_next, ↓fail_keep, ↓created_keep, ↓modTd_keep]

theorem execNodeCreate_keep : ∀ a0 a1 a2, keep (after (execNodeCreate a0 a1 a2) a2) = keep a2 := fun _ _ _ => runCommand_keep _ actNodeCreate_keep _ _ _

theorem actNodeSet_keep (c : Ctx) (q : List Word) (s : State) : keep (actNodeSet c q s).st = keep s := by
  unfold actNodeSet
  simp only [↓keep_mk, ↓keep_fold, ↓id_eq, ↓after_next, ↓done_keep, ↓fail_keep, ↓applySched_keep, ↓modTd_keep]
  (repeat' split) <;> simp only [↓keep_mk, ↓keep_fold, ↓id_eq, ↓after_next, ↓done_keep, ↓fail_keep, ↓applySched_keep, ↓modTd_keep]

theorem execNodeSet_keep : ∀ a0 a1 a2, keep (after (execNodeSet a0 a1 a2) a2) = keep a2 := fun _ _ _ => runCommand_keep _ actNodeSet_keep _ _ _

theorem actNodeDelete_keep (c : Ctx) (q : List Word) (s : State) : keep (actNodeDelete c q s).st = keep s := by
  unfold actNodeDelete
  simp only [↓keep_mk, ↓keep_fold, ↓id_eq, ↓after_next, ↓done_keep, ↓fail_keep, ↓unlist_keep, ↓modTd_keep]
  (repeat' split) <;> simp only [↓keep_mk, ↓keep_fold, ↓id_eq, ↓after_next, ↓done_keep, ↓fail_keep, ↓unlist_keep, ↓modTd_keep]

theorem execNodeDelete_keep : ∀ a0 a1 a2, keep (after (execNodeDelete a0 a1 a2) a2) = keep a2 := fun _ _ _ => runCommand_keep _ actNodeDelete_keep _ _ _

theorem actNodeStatus_keep (c : Ctx) (q : List Word) (s : State) : keep (actNodeStatus c q s).st = keep s := by
  unfold actNodeStatus
  simp only [↓keep_mk, ↓keep_fold, ↓id_eq, ↓after_next, ↓fail_keep, ↓reply_keep]
  (repeat' split) <;> simp only [↓keep_mk, ↓keep_fold, ↓id_eq, ↓after_next, ↓fail_keep, ↓reply_keep]

theorem execNodeStatus_keep : ∀ a0 a1 a2, keep (after (execNodeStatus a0 a1 a2) a2) = keep a2 := fun _ _ _ => runCommand_keep _ actNodeStatus_keep _ _ _

theorem actWredProfileSet_keep (c : Ctx) (q : List Word) (s : State) : keep (actWredProfileSet c q s).st = keep s := by
  unfold actWredProfileSet
  simp only [↓keep_mk, ↓keep_fold, ↓id_eq, ↓after_next, ↓fail_keep, ↓done_keep, ↓modTd_keep]
  (repeat' split) <;> simp only [↓keep_mk, ↓keep_fold, ↓id_eq, ↓after_next, ↓fail_keep, ↓done_keep, ↓modTd_keep]

theorem execWredProfileSet_keep : ∀ a0 a1 a2, keep (after (execWredProfileSet a0 a1 a2) a2) = keep a2 := fun _ _ _ => runCommand_keep _ actWredProfileSet_keep _ _ _

theorem actSamplerGroupSet_keep (c : Ctx) (q : List Word) (s : State) : keep (actSamplerGroupSet c q s).st = keep s := by
  unfold actSamplerGroupSet
  simp only [↓keep_mk, ↓keep_fold, ↓id_eq, ↓after_next, ↓fail_keep, ↓done_keep, ↓modTd_keep]
  (repeat' split) <;> simp only [↓keep_mk, ↓keep_fold, ↓id_eq, ↓after_next, ↓fail_keep, ↓done_keep, ↓modTd_keep]

theorem execSamplerGroupSet_keep : ∀ a0 a1 a2, keep (after (execSamplerGroupSet a0 a1 a2) a2) = keep a2 := fun _ _ _ => runCommand_keep _ actSamplerGroupSet_keep _ _ _

theorem actSamplerHistRead_keep (c : Ctx) (q : List Word) (s : State) : keep (actSamplerHistRead c q s).st = keep s := by
  unfold actSamplerHistRead
  (repeat' split) <;> simp only [↓keep_mk, ↓keep_fold, ↓id_eq, ↓after_next, ↓reply_keep, ↓ctrClear_keep]

theorem execSamplerHistRead_keep : ∀ a0 a1 a2, keep (after (execSamplerHistRead a0 a1 a2) a2) = keep a2 := fun _ _ _ => runCommand_keep _ actSamplerHistRead_keep _ _ _

theorem actSchedCounters_keep (c : Ctx) (q : List Word) (s : State) : keep (actSchedCounters c q s).st = keep s := by
  unfold actSchedCounters
  rfl

theorem execSchedCounters_keep : ∀ a0 a1 a2, keep (after (execSchedCounters a0 a1 a2) a2) = keep a2 := fun _ _ _ => runCommand_keep _ actSchedCounters_keep _ _ _

theorem refreshAll_keep : ∀ a0, keep (refreshAll a0) = keep a0 := by
  intro a0
  unfold refreshAll
  repeat' (first
    | with_reducible rfl
    | with_reducible assumption
    | simp only [↓keep_mk, ↓keep_fold, ↓id_eq, ↓after_next, ↓refreshPort_keep]
    | with_reducible refine keep_ite _ _ _ _ ?_ ?_
    | with_reducible refine keep_after_ite _ _ _ _ _ ?_ ?_
    | with_reducible refine (keep_foldl _ ?_ _ _).trans ?_
    | with_reducible refine (keep_foldl_snd _ ?_ _ _).trans ?_
    | (intros; simp only [*])
    | intro _
    | split)

theorem schedBoundary_keep : ∀ a0, keep (schedBoundary a0) = keep a0 := by
  intro a0
  unfold schedBoundary
  repeat' (first
    | with_reducible rfl
    | with_reducible assumption
    | simp only [↓keep_mk, ↓keep_fold, ↓id_eq, ↓after_next, ↓applyQueue_keep, ↓applySched_keep, ↓modTd_keep]
    | with_reducible refine keep_ite _ _ _ _ ?_ ?_
    | with_reducible refine keep_after_ite _ _ _ _ _ ?_ ?_
    | with_reducible refine (keep_foldl _ ?_ _ _).trans ?_
    | with_reducible refine (keep_foldl_snd _ ?_ _ _).trans ?_
    | (intros; simp only [*])
    | intro _
    | split)

theorem toHost_keep : ∀ a0 a1, keep (toHost a0 a1) = keep a1 := by
  intro a0 a1
  unfold toHost
  simp only [hostPut_keep, releasePkt_keep]

theorem trimBufs_keep : ∀ a0 a1 a2, keep ((trimBufs a0 a1 a2).2) = keep a2 := by
  intro a0 a1 a2
  unfold trimBufs
  simp only [bufReleaseAll_keep]

theorem enqueueCopies_keep : ∀ a0 a1 a2, keep (enqueueCopies a0 a1 a2) = keep a2 := by
  intro a0 a1 a2
  unfold enqueueCopies
  repeat' (first
    | with_reducible rfl
    | with_reducible assumption
    | simp only [↓keep_mk, ↓keep_fold, ↓id_eq, ↓after_next, ↓bufReplicate_keep, ↓chainPut_keep, ↓queuePut_keep, ↓serveVoq_keep, ↓statusCheck_keep]
    | with_reducible refine keep_ite _ _ _ _ ?_ ?_
    | with_reducible refine keep_after_ite _ _ _ _ _ ?_ ?_
    | with_reducible refine (keep_foldl _ ?_ _ _).trans ?_
    | with_reducible refine (keep_foldl_snd _ ?_ _ _).trans ?_
    | (intros; simp only [*])
    | intro _
    | split)

theorem enqueuePkt_keep : ∀ a0 a1 a2, keep (enqueuePkt a0 a1 a2) = keep a2 := by
  intro a0 a1 a2
  unfold enqueuePkt
  repeat' (first
    | with_reducible rfl
    | with_reducible assumption
    | simp only [↓keep_mk, ↓keep_fold, ↓id_eq, ↓after_next, ↓toHost_keep, ↓planPkt_keep, ↓capLost_keep, ↓releasePkt_keep, ↓trimBufs_keep, ↓allocAll_keep, ↓queueChanged_keep, ↓queuePut_keep, ↓queueSettled_keep, ↓hbmDone_keep, ↓enqueueCopies_keep]
    | simp only [*]
    | with_reducible refine keep_ite _ _ _ _ ?_ ?_
    | with_reducible refine keep_after_ite _ _ _ _ _ ?_ ?_
    | with_reducible refine keep_ite_snd _ _ _ _ ?_ ?_
    | with_reducible refine keep_ite_snd2 _ _ _ _ ?_ ?_
    | with_reducible refine (keep_foldl _ ?_ _ _).trans ?_
    | with_reducible refine (keep_foldl_snd _ ?_ _ _).trans ?_
    | (intros; simp only [*])
    | intro _
    | (split <;> try (rename_i h; first
        | (have k := (congrArg (fun p : _ × State => keep p.2) h).symm; simp only [↓keep_mk, ↓keep_fold, ↓id_eq, ↓after_next, ↓toHost_keep, ↓planPkt_keep, ↓capLost_keep, ↓releasePkt_keep, ↓trimBufs_keep, ↓allocAll_keep, ↓queueChanged_keep, ↓queuePut_keep, ↓queueSettled_keep, ↓hbmDone_keep, ↓enqueueCopies_keep] at k)
        | (have k := (congrArg (fun p : _ × _ × State => keep p.2.2) h).symm; simp only [↓keep_mk, ↓keep_fold, ↓id_eq, ↓after_next, ↓toHost_keep, ↓planPkt_keep, ↓capLost_keep, ↓releasePkt_keep, ↓trimBufs_keep, ↓allocAll_keep, ↓queueChanged_keep, ↓queuePut_keep, ↓queueSettled_keep, ↓hbmDone_keep, ↓enqueueCopies_keep] at k))))

theorem execQueueEnqueue_keep : ∀ a0 a1 a2 a3, keep (after (execQueueEnqueue a0 a1 a2 a3) a3) = keep a3 := by
  intro a0 a1 a2 a3
  unfold execQueueEnqueue
  simp only [↓keep_mk, ↓keep_fold, ↓id_eq, ↓after_next, ↓State_atTime_keep, ↓fencedReq_keep, ↓enqueuePkt_keep, ↓setWaiting_keep]
  (repeat' split) <;> simp only [↓keep_mk, ↓keep_fold, ↓id_eq, ↓after_next, ↓State_atTime_keep, ↓fencedReq_keep, ↓enqueuePkt_keep, ↓setWaiting_keep]

theorem dropTooLong_keep : ∀ a0 a1 a2 a3, keep ((dropTooLong a0 a1 a2 a3)) = keep a3 := by
  intro a0 a1 a2 a3
  induction a2 generalizing a0 a1 a3 with
  | zero =>
    unfold dropTooLong
    repeat' (first
      | with_reducible rfl
      | with_reducible assumption
      | simp only [↓keep_mk, ↓keep_fold, ↓id_eq, ↓after_next, ↓raise_keep, ↓detCount_keep, ↓releasePkt_keep, ↓modGate_keep, ↓modQueue_keep, ↓capLost_keep]
      | simp only [*]
      | with_reducible refine keep_ite _ _ _ _ ?_ ?_
      | with_reducible refine keep_after_ite _ _ _ _ _ ?_ ?_
      | with_reducible refine keep_ite_snd _ _ _ _ ?_ ?_
      | with_reducible refine keep_ite_snd2 _ _ _ _ ?_ ?_
      | with_reducible refine (keep_foldl _ ?_ _ _).trans ?_
      | with_reducible refine (keep_foldl_snd _ ?_ _ _).trans ?_
      | (intros; simp only [*])
      | intro _
      | (split <;> try (rename_i h; first
          | (have k := (congrArg (fun p : _ × State => keep p.2) h).symm; simp only [↓keep_mk, ↓keep_fold, ↓id_eq, ↓after_next, ↓raise_keep, ↓detCount_keep, ↓releasePkt_keep, ↓modGate_keep, ↓modQueue_keep, ↓capLost_keep] at k)
          | (have k := (congrArg (fun p : _ × _ × State => keep p.2.2) h).symm; simp only [↓keep_mk, ↓keep_fold, ↓id_eq, ↓after_next, ↓raise_keep, ↓detCount_keep, ↓releasePkt_keep, ↓modGate_keep, ↓modQueue_keep, ↓capLost_keep] at k))))
  | succ n ih =>
    unfold dropTooLong
    repeat' (first
      | with_reducible rfl
      | with_reducible assumption
      | simp only [↓keep_mk, ↓keep_fold, ↓id_eq, ↓after_next, ↓ih, ↓raise_keep, ↓detCount_keep, ↓releasePkt_keep, ↓modGate_keep, ↓modQueue_keep, ↓capLost_keep]
      | simp only [*]
      | with_reducible refine keep_ite _ _ _ _ ?_ ?_
      | with_reducible refine keep_after_ite _ _ _ _ _ ?_ ?_
      | with_reducible refine keep_ite_snd _ _ _ _ ?_ ?_
      | with_reducible refine keep_ite_snd2 _ _ _ _ ?_ ?_
      | with_reducible refine (keep_foldl _ ?_ _ _).trans ?_
      | with_reducible refine (keep_foldl_snd _ ?_ _ _).trans ?_
      | (intros; simp only [*])
      | intro _
      | (split <;> try (rename_i h; first
          | (have k := (congrArg (fun p : _ × State => keep p.2) h).symm; simp only [↓keep_mk, ↓keep_fold, ↓id_eq, ↓after_next, ↓ih, ↓raise_keep, ↓detCount_keep, ↓releasePkt_keep, ↓modGate_keep, ↓modQueue_keep, ↓capLost_keep] at k)
          | (have k := (congrArg (fun p : _ × _ × State => keep p.2.2) h).symm; simp only [↓keep_mk, ↓keep_fold, ↓id_eq, ↓after_next, ↓ih, ↓raise_keep, ↓detCount_keep, ↓releasePkt_keep, ↓modGate_keep, ↓modQueue_keep, ↓capLost_keep] at k))))

theorem dropTooLongs_keep : ∀ a0 a1, keep (dropTooLongs a0 a1) = keep a1 := by
  intro a0 a1
  unfold dropTooLongs
  repeat' (first
    | with_reducible rfl
    | with_reducible assumption
    | simp only [↓keep_mk, ↓keep_fold, ↓id_eq, ↓after_next, ↓dropTooLong_keep]
    | with_reducible refine keep_ite _ _ _ _ ?_ ?_
    | with_reducible refine keep_after_ite _ _ _ _ _ ?_ ?_
    | with_reducible refine (keep_foldl _ ?_ _ _).trans ?_
    | with_reducible refine (keep_foldl_snd _ ?_ _ _).trans ?_
    | (intros; simp only [*])
    | intro _
    | split)

theorem portChoice_keep : ∀ {a0 a1 a2 r}, portChoice a0 a1 a2 = some r → keep r.2.2 = keep a2 := by
  intro p t s r h
  unfold portChoice at h
  split at h
  · rcases ite_some h with h | h
    · exact choose_keep h
    · cases h
  · cases h

theorem selectPkt_keep : ∀ a0 a1 a2 a3, keep (selectPkt a0 a1 a2 a3) = keep a3 := by
  intro a0 a1 a2 a3
  unfold selectPkt
  repeat' (first
    | with_reducible rfl
    | with_reducible assumption
    | simp only [↓keep_mk, ↓keep_fold, ↓id_eq, ↓after_next, ↓queueTake_keep, ↓schedCount_keep, ↓modGate_keep, ↓releasePkt_keep, ↓chargePath_keep, ↓modFwd_keep, ↓refreshPort_keep, ↓capLost_keep]
    | simp only [*]
    | with_reducible refine keep_ite _ _ _ _ ?_ ?_
    | with_reducible refine keep_after_ite _ _ _ _ _ ?_ ?_
    | with_reducible refine keep_ite_snd _ _ _ _ ?_ ?_
    | with_reducible refine keep_ite_snd2 _ _ _ _ ?_ ?_
    | with_reducible refine (keep_foldl _ ?_ _ _).trans ?_
    | with_reducible refine (keep_foldl_snd _ ?_ _ _).trans ?_
    | (intros; simp only [*])
    | intro _
    | (split <;> try (rename_i h; first
        | (have k := (congrArg (fun p : _ × State => keep p.2) h).symm; simp only [↓keep_mk, ↓keep_fold, ↓id_eq, ↓after_next, ↓queueTake_keep, ↓schedCount_keep, ↓modGate_keep, ↓releasePkt_keep, ↓chargePath_keep, ↓modFwd_keep, ↓refreshPort_keep, ↓capLost_keep] at k)
        | (have k := (congrArg (fun p : _ × _ × State => keep p.2.2) h).symm; simp only [↓keep_mk, ↓keep_fold, ↓id_eq, ↓after_next, ↓queueTake_keep, ↓schedCount_keep, ↓modGate_keep, ↓releasePkt_keep, ↓chargePath_keep, ↓modFwd_keep, ↓refreshPort_keep, ↓capLost_keep] at k))))

theorem noteSelection_keep : ∀ a0 a1 a2, keep (noteSelection a0 a1 a2) = keep a2 := by
  intro a0 a1 a2
  unfold noteSelection
  rfl

theorem countDeferral_keep : ∀ a0 a1, keep (countDeferral a0 a1) = keep a1 := by
  intro a0 a1
  unfold countDeferral
  simp only [↓keep_mk, ↓keep_fold, ↓id_eq, ↓after_next, ↓detCount_keep, ↓modGate_keep]
  (repeat' split) <;> simp only [↓keep_mk, ↓keep_fold, ↓id_eq, ↓after_next, ↓detCount_keep, ↓modGate_keep]

theorem execSchedulerSelect_keep : ∀ a0 a1 a2, keep (after (execSchedulerSelect a0 a1 a2) a2) = keep a2 := by
  intro t p s
  have h0 : keep (dropTooLongs p (s.atTime t)) = keep s := by rw [dropTooLongs_keep, State_atTime_keep]
  unfold execSchedulerSelect
  simp only []
  generalize dropTooLongs p (s.atTime t) = u at h0
  refine keep_after_ite _ _ _ _ _ ((refreshPort_keep _ _).trans h0) ?_
  split
  · rename_i h
    rw [after_next, selectPkt_keep, noteSelection_keep]
    have h1 := (portChoice_keep h).trans ((refreshSelect_keep _ _ _).trans h0)
    split
    · exact h1
    · rw [countDeferral_keep]; exact h1
  · rw [after_next, refreshPort_keep, countDeferral_keep, refreshSelect_keep]; exact h0

theorem execShaperRecovered_keep : ∀ a0 a1 a2, keep (after (execShaperRecovered a0 a1 a2) a2) = keep a2 := by
  intro a0 a1 a2
  unfold execShaperRecovered
  simp only [↓keep_mk, ↓keep_fold, ↓id_eq, ↓after_next, ↓State_atTime_keep, ↓refreshPort_keep]
  (repeat' split) <;> simp only [↓keep_mk, ↓keep_fold, ↓id_eq, ↓after_next, ↓State_atTime_keep, ↓refreshPort_keep]

theorem sampleEvent_keep : ∀ a0 a1 a2 a3 a4, keep (sampleEvent a0 a1 a2 a3 a4) = keep a4 := by
  intro a0 a1 a2 a3 a4
  unfold sampleEvent
  (repeat' split) <;> simp only [↓keep_mk, ↓keep_fold, ↓id_eq, ↓after_next, ↓raise_keep, ↓modTd_keep, ↓schedCount_keep]

theorem sampleQueue_keep : ∀ a0 a1 a2 a3, keep (sampleQueue a0 a1 a2 a3) = keep a3 := by
  intro a0 a1 a2 a3
  unfold sampleQueue
  simp only [↓keep_mk, ↓keep_fold, ↓id_eq, ↓after_next, ↓ctrPut_keep, ↓sampleEvent_keep, ↓modQueue_keep]
  (repeat' split) <;> simp only [↓keep_mk, ↓keep_fold, ↓id_eq, ↓after_next, ↓ctrPut_keep, ↓sampleEvent_keep, ↓modQueue_keep]

theorem ageDrops_keep : ∀ a0 a1 a2, keep ((ageDrops a0 a1 a2).2) = keep a2 := by
  intro a0 a1 a2
  induction a1 generalizing a0 a2 with
  | zero =>
    unfold ageDrops
    repeat' (first
      | with_reducible rfl
      | with_reducible assumption
      | simp only [↓keep_mk, ↓keep_fold, ↓id_eq, ↓after_next, ↓queueDiscard_keep, ↓modQueue_keep]
      | simp only [*]
      | with_reducible refine keep_ite _ _ _ _ ?_ ?_
      | with_reducible refine keep_after_ite _ _ _ _ _ ?_ ?_
      | with_reducible refine keep_ite_snd _ _ _ _ ?_ ?_
      | with_reducible refine keep_ite_snd2 _ _ _ _ ?_ ?_
      | with_reducible refine (keep_foldl _ ?_ _ _).trans ?_
      | with_reducible refine (keep_foldl_snd _ ?_ _ _).trans ?_
      | (intros; simp only [*])
      | intro _
      | (split <;> try (rename_i h; first
          | (have k := (congrArg (fun p : _ × State => keep p.2) h).symm; simp only [↓keep_mk, ↓keep_fold, ↓id_eq, ↓after_next, ↓queueDiscard_keep, ↓modQueue_keep] at k)
          | (have k := (congrArg (fun p : _ × _ × State => keep p.2.2) h).symm; simp only [↓keep_mk, ↓keep_fold, ↓id_eq, ↓after_next, ↓queueDiscard_keep, ↓modQueue_keep] at k))))
  | succ n ih =>
    unfold ageDrops
    repeat' (first
      | with_reducible rfl
      | with_reducible assumption
      | simp only [↓keep_mk, ↓keep_fold, ↓id_eq, ↓after_next, ↓ih, ↓queueDiscard_keep, ↓modQueue_keep]
      | simp only [*]
      | with_reducible refine keep_ite _ _ _ _ ?_ ?_
      | with_reducible refine keep_after_ite _ _ _ _ _ ?_ ?_
      | with_reducible refine keep_ite_snd _ _ _ _ ?_ ?_
      | with_reducible refine keep_ite_snd2 _ _ _ _ ?_ ?_
      | with_reducible refine (keep_foldl _ ?_ _ _).trans ?_
      | with_reducible refine (keep_foldl_snd _ ?_ _ _).trans ?_
      | (intros; simp only [*])
      | intro _
      | (split <;> try (rename_i h; first
          | (have k := (congrArg (fun p : _ × State => keep p.2) h).symm; simp only [↓keep_mk, ↓keep_fold, ↓id_eq, ↓after_next, ↓ih, ↓queueDiscard_keep, ↓modQueue_keep] at k)
          | (have k := (congrArg (fun p : _ × _ × State => keep p.2.2) h).symm; simp only [↓keep_mk, ↓keep_fold, ↓id_eq, ↓after_next, ↓ih, ↓queueDiscard_keep, ↓modQueue_keep] at k))))

theorem execSamplerVisit_keep : ∀ a0 a1 a2, keep (after (execSamplerVisit a0 a1 a2) a2) = keep a2 := by
  intro a0 a1 a2
  unfold execSamplerVisit
  simp only [↓keep_mk, ↓keep_fold, ↓id_eq, ↓after_next, ↓State_atTime_keep, ↓queueSettled_keep, ↓modQueue_keep, ↓sampleQueue_keep, ↓ageDrops_keep, ↓raise_keep, ↓queueChanged_keep]
  (repeat' split) <;> simp only [↓keep_mk, ↓keep_fold, ↓id_eq, ↓after_next, ↓State_atTime_keep, ↓queueSettled_keep, ↓modQueue_keep, ↓sampleQueue_keep, ↓ageDrops_keep, ↓raise_keep, ↓queueChanged_keep]

/-! ### Streams.lean -/

theorem modDet_keep : ∀ a0 a1, keep (modDet a0 a1) = keep a1 := by
  intro a0 a1
  unfold modDet
  rfl

theorem actStreamCreate_keep (c : Ctx) (q : List Word) (s : State) : keep (actStreamCreate c q s).st = keep s := by
  unfold actStreamCreate
  simp only [↓keep_mk, ↓keep_fold, ↓id_eq, ↓after_next, ↓fail_keep, ↓created_keep, ↓ctrClear_keep, ↓modDet_keep]
  (repeat' split) <;> simp only [↓keep_mk, ↓keep_fold, ↓id_eq, ↓after_next, ↓fail_keep, ↓created_keep, ↓ctrClear_keep, ↓modDet_keep]

theorem execStreamCreate_keep : ∀ a0 a1 a2, keep (after (execStreamCreate a0 a1 a2) a2) = keep a2 := fun _ _ _ => runCommand_keep _ actStreamCreate_keep _ _ _

theorem actStreamSet_keep (c : Ctx) (q : List Word) (s : State) : keep (actStreamSet c q s).st = keep s := by
  unfold actStreamSet
  simp only [↓keep_mk, ↓keep_fold, ↓id_eq, ↓after_next, ↓fail_keep, ↓done_keep, ↓modDet_keep]
  (repeat' split) <;> simp only [↓keep_mk, ↓keep_fold, ↓id_eq, ↓after_next, ↓fail_keep, ↓done_keep, ↓modDet_keep]

theorem execStreamSet_keep : ∀ a0 a1 a2, keep (after (execStreamSet a0 a1 a2) a2) = keep a2 := fun _ _ _ => runCommand_keep _ actStreamSet_keep _ _ _

theorem actStreamDelete_keep (c : Ctx) (q : List Word) (s : State) : keep (actStreamDelete c q s).st = keep s := by
  unfold actStreamDelete
  simp only [↓keep_mk, ↓keep_fold, ↓id_eq, ↓after_next, ↓done_keep, ↓fail_keep, ↓modDet_keep]
  (repeat' split) <;> simp only [↓keep_mk, ↓keep_fold, ↓id_eq, ↓after_next, ↓done_keep, ↓fail_keep, ↓modDet_keep]

theorem execStreamDelete_keep : ∀ a0 a1 a2, keep (after (execStreamDelete a0 a1 a2) a2) = keep a2 := fun _ _ _ => runCommand_keep _ actStreamDelete_keep _ _ _

theorem actStreamStatus_keep (c : Ctx) (q : List Word) (s : State) : keep (actStreamStatus c q s).st = keep s := by
  unfold actStreamStatus
  (repeat' split) <;> rfl

theorem execStreamStatus_keep : ∀ a0 a1 a2, keep (after (execStreamStatus a0 a1 a2) a2) = keep a2 := fun _ _ _ => runCommand_keep _ actStreamStatus_keep _ _ _

theorem actStreamCounters_keep (c : Ctx) (q : List Word) (s : State) : keep (actStreamCounters c q s).st = keep s := by
  unfold actStreamCounters
  (repeat' split) <;> simp only [↓keep_mk, ↓keep_fold, ↓id_eq, ↓after_next, ↓fail_keep, ↓reply_keep, ↓ctrClear_keep]

theorem execStreamCounters_keep : ∀ a0 a1 a2, keep (after (execStreamCounters a0 a1 a2) a2) = keep a2 := fun _ _ _ => runCommand_keep _ actStreamCounters_keep _ _ _

theorem actStreamEgressCreate_keep (c : Ctx) (q : List Word) (s : State) : keep (actStreamEgressCreate c q s).st = keep s := by
  unfold actStreamEgressCreate
  simp only [↓keep_mk, ↓keep_fold, ↓id_eq, ↓after_next, ↓fail_keep, ↓created_keep, ↓modDet_keep]
  (repeat' split) <;> simp only [↓keep_mk, ↓keep_fold, ↓id_eq, ↓after_next, ↓fail_keep, ↓created_keep, ↓modDet_keep]

theorem execStreamEgressCreate_keep : ∀ a0 a1 a2, keep (after (execStreamEgressCreate a0 a1 a2) a2) = keep a2 := fun _ _ _ => runCommand_keep _ actStreamEgressCreate_keep _ _ _

theorem actStreamEgressDelete_keep (c : Ctx) (q : List Word) (s : State) : keep (actStreamEgressDelete c q s).st = keep s := by
  unfold actStreamEgressDelete
  simp only [↓keep_mk, ↓keep_fold, ↓id_eq, ↓after_next, ↓done_keep, ↓modDet_keep, ↓fail_keep]
  (repeat' split) <;> simp only [↓keep_mk, ↓keep_fold, ↓id_eq, ↓after_next, ↓done_keep, ↓modDet_keep, ↓fail_keep]

theorem execStreamEgressDelete_keep : ∀ a0 a1 a2, keep (after (execStreamEgressDelete a0 a1 a2) a2) = keep a2 := fun _ _ _ => runCommand_keep _ actStreamEgressDelete_keep _ _ _

theorem actFrerCreate_keep (c : Ctx) (q : List Word) (s : State) : keep (actFrerCreate c q s).st = keep s := by
  unfold actFrerCreate
  simp only [↓keep_mk, ↓keep_fold, ↓id_eq, ↓after_next, ↓fail_keep, ↓created_keep, ↓ctrClear_keep, ↓modDet_keep]
  (repeat' split) <;> simp only [↓keep_mk, ↓keep_fold, ↓id_eq, ↓after_next, ↓fail_keep, ↓created_keep, ↓ctrClear_keep, ↓modDet_keep]

theorem execFrerCreate_keep : ∀ a0 a1 a2, keep (after (execFrerCreate a0 a1 a2) a2) = keep a2 := fun _ _ _ => runCommand_keep _ actFrerCreate_keep _ _ _

theorem actFrerSet_keep (c : Ctx) (q : List Word) (s : State) : keep (actFrerSet c q s).st = keep s := by
  unfold actFrerSet
  simp only [↓keep_mk, ↓keep_fold, ↓id_eq, ↓after_next, ↓fail_keep, ↓done_keep, ↓modDet_keep]
  (repeat' split) <;> simp only [↓keep_mk, ↓keep_fold, ↓id_eq, ↓after_next, ↓fail_keep, ↓done_keep, ↓modDet_keep]

theorem execFrerSet_keep : ∀ a0 a1 a2, keep (after (execFrerSet a0 a1 a2) a2) = keep a2 := fun _ _ _ => runCommand_keep _ actFrerSet_keep _ _ _

theorem actFrerDelete_keep (c : Ctx) (q : List Word) (s : State) : keep (actFrerDelete c q s).st = keep s := by
  unfold actFrerDelete
  simp only [↓keep_mk, ↓keep_fold, ↓id_eq, ↓after_next, ↓done_keep, ↓fail_keep, ↓modDet_keep]
  (repeat' split) <;> simp only [↓keep_mk, ↓keep_fold, ↓id_eq, ↓after_next, ↓done_keep, ↓fail_keep, ↓modDet_keep]

theorem execFrerDelete_keep : ∀ a0 a1 a2, keep (after (execFrerDelete a0 a1 a2) a2) = keep a2 := fun _ _ _ => runCommand_keep _ actFrerDelete_keep _ _ _

theorem actFrerStatus_keep (c : Ctx) (q : List Word) (s : State) : keep (actFrerStatus c q s).st = keep s := by
  unfold actFrerStatus
  (repeat' split) <;> rfl

theorem execFrerStatus_keep : ∀ a0 a1 a2, keep (after (execFrerStatus a0 a1 a2) a2) = keep a2 := fun _ _ _ => runCommand_keep _ actFrerStatus_keep _ _ _

theorem actFrerCounters_keep (c : Ctx) (q : List Word) (s : State) : keep (actFrerCounters c q s).st = keep s := by
  unfold actFrerCounters
  (repeat' split) <;> simp only [↓keep_mk, ↓keep_fold, ↓id_eq, ↓after_next, ↓fail_keep, ↓reply_keep, ↓ctrClear_keep]

theorem execFrerCounters_keep : ∀ a0 a1 a2, keep (after (execFrerCounters a0 a1 a2) a2) = keep a2 := fun _ _ _ => runCommand_keep _ actFrerCounters_keep _ _ _

theorem actFrerReset_keep (c : Ctx) (q : List Word) (s : State) : keep (actFrerReset c q s).st = keep s := by
  unfold actFrerReset
  (repeat' split) <;> rfl

theorem execFrerReset_keep : ∀ a0 a1 a2, keep (after (execFrerReset a0 a1 a2) a2) = keep a2 := fun _ _ _ => runCommand_keep _ actFrerReset_keep _ _ _

theorem gateSet_keep : ∀ a0 a1 a2 a3, keep ((gateSet a0 a1 a2 a3).st) = keep a3 := by
  intro a0 a1 a2 a3
  unfold gateSet
  simp only [↓keep_mk, ↓keep_fold, ↓id_eq, ↓after_next, ↓done_keep, ↓gateCommit_keep, ↓fail_keep, ↓reply_keep, ↓modGate_keep]
  (repeat' split) <;> simp only [↓keep_mk, ↓keep_fold, ↓id_eq, ↓after_next, ↓done_keep, ↓gateCommit_keep, ↓fail_keep, ↓reply_keep, ↓modGate_keep]

theorem actGateSet_keep (c : Ctx) (q : List Word) (s : State) : keep (actGateSet c q s).st = keep s := by
  unfold actGateSet
  (repeat' split) <;> simp only [↓keep_mk, ↓keep_fold, ↓id_eq, ↓after_next, ↓fail_keep, ↓gateSet_keep]

theorem execGateSet_keep : ∀ a0 a1 a2, keep (after (execGateSet a0 a1 a2) a2) = keep a2 := fun _ _ _ => runCommand_keep _ actGateSet_keep _ _ _

theorem actGateClear_keep (c : Ctx) (q : List Word) (s : State) : keep (actGateClear c q s).st = keep s := by
  unfold actGateClear
  (repeat' split) <;> simp only [↓keep_mk, ↓keep_fold, ↓id_eq, ↓after_next, ↓fail_keep, ↓gateSet_keep]

theorem execGateClear_keep : ∀ a0 a1 a2, keep (after (execGateClear a0 a1 a2) a2) = keep a2 := fun _ _ _ => runCommand_keep _ actGateClear_keep _ _ _

theorem actGateStatus_keep (c : Ctx) (q : List Word) (s : State) : keep (actGateStatus c q s).st = keep s := by
  unfold actGateStatus
  (repeat' split) <;> rfl

theorem execGateStatus_keep : ∀ a0 a1 a2, keep (after (execGateStatus a0 a1 a2) a2) = keep a2 := fun _ _ _ => runCommand_keep _ actGateStatus_keep _ _ _

theorem actDetCounters_keep (c : Ctx) (q : List Word) (s : State) : keep (actDetCounters c q s).st = keep s := by
  unfold actDetCounters
  rfl

theorem execDetCounters_keep : ∀ a0 a1 a2, keep (after (execDetCounters a0 a1 a2) a2) = keep a2 := fun _ _ _ => runCommand_keep _ actDetCounters_keep _ _ _

theorem gatesRestart_keep : ∀ a0, keep (gatesRestart a0) = keep a0 := by
  intro a0
  unfold gatesRestart
  repeat' (first
    | with_reducible rfl
    | with_reducible assumption
    | simp only [↓keep_mk, ↓keep_fold, ↓id_eq, ↓after_next, ↓modGate_keep, ↓detCount_keep, ↓raise_keep]
    | with_reducible refine keep_ite _ _ _ _ ?_ ?_
    | with_reducible refine keep_after_ite _ _ _ _ _ ?_ ?_
    | with_reducible refine (keep_foldl _ ?_ _ _).trans ?_
    | with_reducible refine (keep_foldl_snd _ ?_ _ _).trans ?_
    | (intros; simp only [*])
    | intro _
    | split)

theorem detBoundary_keep : ∀ a0, keep (detBoundary a0) = keep a0 := by
  intro a0
  unfold detBoundary
  repeat' (first
    | with_reducible rfl
    | with_reducible assumption
    | simp only [↓keep_mk, ↓keep_fold, ↓id_eq, ↓after_next, ↓modDet_keep, ↓lowCheck_keep, ↓gateCommit_keep, ↓modGate_keep]
    | with_reducible refine keep_ite _ _ _ _ ?_ ?_
    | with_reducible refine keep_after_ite _ _ _ _ _ ?_ ?_
    | with_reducible refine (keep_foldl _ ?_ _ _).trans ?_
    | with_reducible refine (keep_foldl_snd _ ?_ _ _).trans ?_
    | (intros; simp only [*])
    | intro _
    | split)

theorem recoverFrame_keep : ∀ a0 a1 a2, keep ((recoverFrame a0 a1 a2).2) = keep a2 := by
  intro a0 a1 a2
  unfold recoverFrame
  repeat' (first
    | with_reducible rfl
    | with_reducible assumption
    | simp only [↓keep_mk, ↓keep_fold, ↓id_eq, ↓after_next, ↓ctrAdd64_keep, ↓modDet_keep]
    | with_reducible refine keep_ite _ _ _ _ ?_ ?_
    | with_reducible refine keep_after_ite _ _ _ _ _ ?_ ?_
    | with_reducible refine (keep_foldl _ ?_ _ _).trans ?_
    | with_reducible refine (keep_foldl_snd _ ?_ _ _).trans ?_
    | (intros; simp only [*])
    | intro _
    | split)

theorem meterFrame_keep : ∀ a0 a1 a2, keep ((meterFrame a0 a1 a2).2) = keep a2 := by
  intro a0 a1 a2
  unfold meterFrame
  simp only [↓keep_mk, ↓keep_fold, ↓id_eq, ↓after_next, ↓modDet_keep, ↓streamCount_keep, ↓raise_keep]
  (repeat' split) <;> simp only [↓keep_mk, ↓keep_fold, ↓id_eq, ↓after_next, ↓modDet_keep, ↓streamCount_keep, ↓raise_keep]

theorem sequenceFrame_keep : ∀ a0 a1 a2, keep ((sequenceFrame a0 a1 a2).2) = keep a2 := by
  intro a0 a1 a2
  unfold sequenceFrame
  (repeat' split) <;> rfl

theorem streamFrame_keep : ∀ a0 a1, keep ((streamFrame a0 a1).2) = keep a1 := by
  intro a0 a1
  unfold streamFrame
  repeat' (first
    | with_reducible rfl
    | with_reducible assumption
    | simp only [↓keep_mk, ↓keep_fold, ↓id_eq, ↓after_next, ↓streamCount_keep, ↓recoverFrame_keep, ↓meterFrame_keep, ↓sequenceFrame_keep, ↓replicateFrame_keep]
    | simp only [*]
    | with_reducible refine keep_ite _ _ _ _ ?_ ?_
    | with_reducible refine keep_after_ite _ _ _ _ _ ?_ ?_
    | with_reducible refine keep_ite_snd _ _ _ _ ?_ ?_
    | with_reducible refine keep_ite_snd2 _ _ _ _ ?_ ?_
    | with_reducible refine (keep_foldl _ ?_ _ _).trans ?_
    | with_reducible refine (keep_foldl_snd _ ?_ _ _).trans ?_
    | (intros; simp only [*])
    | intro _
    | (split <;> try (rename_i h; first
        | (have k := (congrArg (fun p : _ × State => keep p.2) h).symm; simp only [↓keep_mk, ↓keep_fold, ↓id_eq, ↓after_next, ↓streamCount_keep, ↓recoverFrame_keep, ↓meterFrame_keep, ↓sequenceFrame_keep, ↓replicateFrame_keep] at k)
        | (have k := (congrArg (fun p : _ × _ × State => keep p.2.2) h).symm; simp only [↓keep_mk, ↓keep_fold, ↓id_eq, ↓after_next, ↓streamCount_keep, ↓recoverFrame_keep, ↓meterFrame_keep, ↓sequenceFrame_keep, ↓replicateFrame_keep] at k))))

theorem execStreamUnitFrame_keep : ∀ a0 a1 a2, keep (after (execStreamUnitFrame a0 a1 a2) a2) = keep a2 := by
  intro a0 a1 a2
  unfold execStreamUnitFrame
  repeat' (first
    | with_reducible rfl
    | with_reducible assumption
    | simp only [↓keep_mk, ↓keep_fold, ↓id_eq, ↓after_next, ↓State_atTime_keep, ↓streamFrame_keep, ↓setWaiting_keep, ↓capLost_keep]
    | simp only [*]
    | with_reducible refine keep_ite _ _ _ _ ?_ ?_
    | with_reducible refine keep_after_ite _ _ _ _ _ ?_ ?_
    | with_reducible refine keep_ite_snd _ _ _ _ ?_ ?_
    | with_reducible refine keep_ite_snd2 _ _ _ _ ?_ ?_
    | with_reducible refine (keep_foldl _ ?_ _ _).trans ?_
    | with_reducible refine (keep_foldl_snd _ ?_ _ _).trans ?_
    | (intros; simp only [*])
    | intro _
    | (split <;> try (rename_i h; first
        | (have k := (congrArg (fun p : _ × State => keep p.2) h).symm; simp only [↓keep_mk, ↓keep_fold, ↓id_eq, ↓after_next, ↓State_atTime_keep, ↓streamFrame_keep, ↓setWaiting_keep, ↓capLost_keep] at k)
        | (have k := (congrArg (fun p : _ × _ × State => keep p.2.2) h).symm; simp only [↓keep_mk, ↓keep_fold, ↓id_eq, ↓after_next, ↓State_atTime_keep, ↓streamFrame_keep, ↓setWaiting_keep, ↓capLost_keep] at k))))

theorem execFrerResetTimeout_keep : ∀ a0 a1 a2, keep (after (execFrerResetTimeout a0 a1 a2) a2) = keep a2 := by
  intro a0 a1 a2
  unfold execFrerResetTimeout
  simp only [↓keep_mk, ↓keep_fold, ↓id_eq, ↓after_next, ↓State_atTime_keep, ↓raise_keep, ↓ctrAdd64_keep, ↓modDet_keep]
  (repeat' split) <;> simp only [↓keep_mk, ↓keep_fold, ↓id_eq, ↓after_next, ↓State_atTime_keep, ↓raise_keep, ↓ctrAdd64_keep, ↓modDet_keep]

theorem execGateListStarted_keep : ∀ a0 a1 a2, keep (after (execGateListStarted a0 a1 a2) a2) = keep a2 := by
  intro a0 a1 a2
  unfold execGateListStarted
  simp only [↓keep_mk, ↓keep_fold, ↓id_eq, ↓after_next, ↓State_atTime_keep, ↓modGate_keep, ↓raise_keep, ↓refreshPort_keep]
  (repeat' split) <;> simp only [↓keep_mk, ↓keep_fold, ↓id_eq, ↓after_next, ↓State_atTime_keep, ↓modGate_keep, ↓raise_keep, ↓refreshPort_keep]

/-! ### Fabric.lean -/

theorem fabricLane_keep : ∀ a0 a1 a2 a3 a4, keep (fabricLane a0 a1 a2 a3 a4) = keep a4 := by
  intro a0 a1 a2 a3 a4
  unfold fabricLane
  simp only [↓keep_mk, ↓keep_fold, ↓id_eq, ↓after_next, ↓modFab_keep, ↓fabLaneCount_keep, ↓raise_keep, ↓fabCheck_keep]
  (repeat' split) <;> simp only [↓keep_mk, ↓keep_fold, ↓id_eq, ↓after_next, ↓modFab_keep, ↓fabLaneCount_keep, ↓raise_keep, ↓fabCheck_keep]

theorem octetDown_keep : ∀ a0 a1, keep (octetDown a0 a1) = keep a1 := by
  intro a0 a1
  unfold octetDown
  repeat' (first
    | with_reducible rfl
    | with_reducible assumption
    | simp only [↓keep_mk, ↓keep_fold, ↓id_eq, ↓after_next, ↓fabricLane_keep]
    | with_reducible refine keep_ite _ _ _ _ ?_ ?_
    | with_reducible refine keep_after_ite _ _ _ _ _ ?_ ?_
    | with_reducible refine (keep_foldl _ ?_ _ _).trans ?_
    | with_reducible refine (keep_foldl_snd _ ?_ _ _).trans ?_
    | (intros; simp only [*])
    | intro _
    | split)

theorem actFabricSet_keep (c : Ctx) (q : List Word) (s : State) : keep (actFabricSet c q s).st = keep s := by
  unfold actFabricSet
  repeat' (first
    | with_reducible rfl
    | with_reducible assumption
    | simp only [↓keep_mk, ↓keep_fold, ↓id_eq, ↓after_next, ↓fail_keep, ↓octetDown_keep, ↓done_keep, ↓ecmpUpdate_keep, ↓fabCheck_keep, ↓modFab_keep]
    | with_reducible refine keep_ite _ _ _ _ ?_ ?_
    | with_reducible refine keep_after_ite _ _ _ _ _ ?_ ?_
    | with_reducible refine (keep_foldl _ ?_ _ _).trans ?_
    | with_reducible refine (keep_foldl_snd _ ?_ _ _).trans ?_
    | (intros; simp only [*])
    | intro _
    | split)

theorem execFabricSet_keep : ∀ a0 a1 a2, keep (after (execFabricSet a0 a1 a2) a2) = keep a2 := fun _ _ _ => runCommand_keep _ actFabricSet_keep _ _ _

theorem actFabricProfileSet_keep (c : Ctx) (q : List Word) (s : State) : keep (actFabricProfileSet c q s).st = keep s := by
  unfold actFabricProfileSet
  simp only [↓keep_mk, ↓keep_fold, ↓id_eq, ↓after_next, ↓fail_keep, ↓done_keep, ↓fabCheck_keep, ↓modFab_keep]
  (repeat' split) <;> simp only [↓keep_mk, ↓keep_fold, ↓id_eq, ↓after_next, ↓fail_keep, ↓done_keep, ↓fabCheck_keep, ↓modFab_keep]

theorem execFabricProfileSet_keep : ∀ a0 a1 a2, keep (after (execFabricProfileSet a0 a1 a2) a2) = keep a2 := fun _ _ _ => runCommand_keep _ actFabricProfileSet_keep _ _ _

theorem actFabricSysportSet_keep (c : Ctx) (q : List Word) (s : State) : keep (actFabricSysportSet c q s).st = keep s := by
  unfold actFabricSysportSet
  simp only [↓keep_mk, ↓keep_fold, ↓id_eq, ↓after_next, ↓fail_keep, ↓done_keep, ↓ecmpUpdate_keep, ↓renamed_keep, ↓modFab_keep]
  (repeat' split) <;> simp only [↓keep_mk, ↓keep_fold, ↓id_eq, ↓after_next, ↓fail_keep, ↓done_keep, ↓ecmpUpdate_keep, ↓renamed_keep, ↓modFab_keep]

theorem execFabricSysportSet_keep : ∀ a0 a1 a2, keep (after (execFabricSysportSet a0 a1 a2) a2) = keep a2 := fun _ _ _ => runCommand_keep _ actFabricSysportSet_keep _ _ _

theorem actFabricVoqGuarantee_keep (c : Ctx) (q : List Word) (s : State) : keep (actFabricVoqGuarantee c q s).st = keep s := by
  unfold actFabricVoqGuarantee
  simp only [↓keep_mk, ↓keep_fold, ↓id_eq, ↓after_next, ↓fail_keep, ↓done_keep, ↓modCred_keep]
  (repeat' split) <;> simp only [↓keep_mk, ↓keep_fold, ↓id_eq, ↓after_next, ↓fail_keep, ↓done_keep, ↓modCred_keep]

theorem execFabricVoqGuarantee_keep : ∀ a0 a1 a2, keep (after (execFabricVoqGuarantee a0 a1 a2) a2) = keep a2 := fun _ _ _ => runCommand_keep _ actFabricVoqGuarantee_keep _ _ _

theorem actFabricGrantSet_keep (c : Ctx) (q : List Word) (s : State) : keep (actFabricGrantSet c q s).st = keep s := by
  unfold actFabricGrantSet
  simp only [↓keep_mk, ↓keep_fold, ↓id_eq, ↓after_next, ↓fail_keep, ↓done_keep, ↓modFab_keep]
  (repeat' split) <;> simp only [↓keep_mk, ↓keep_fold, ↓id_eq, ↓after_next, ↓fail_keep, ↓done_keep, ↓modFab_keep]

theorem execFabricGrantSet_keep : ∀ a0 a1 a2, keep (after (execFabricGrantSet a0 a1 a2) a2) = keep a2 := fun _ _ _ => runCommand_keep _ actFabricGrantSet_keep _ _ _

theorem actFabricCreditSet_keep (c : Ctx) (q : List Word) (s : State) : keep (actFabricCreditSet c q s).st = keep s := by
  unfold actFabricCreditSet
  simp only [↓keep_mk, ↓keep_fold, ↓id_eq, ↓after_next, ↓fail_keep, ↓done_keep, ↓modFab_keep]
  (repeat' split) <;> simp only [↓keep_mk, ↓keep_fold, ↓id_eq, ↓after_next, ↓fail_keep, ↓done_keep, ↓modFab_keep]

theorem execFabricCreditSet_keep : ∀ a0 a1 a2, keep (after (execFabricCreditSet a0 a1 a2) a2) = keep a2 := fun _ _ _ => runCommand_keep _ actFabricCreditSet_keep _ _ _

theorem actFabricStatus_keep (c : Ctx) (q : List Word) (s : State) : keep (actFabricStatus c q s).st = keep s := by
  unfold actFabricStatus
  rfl

theorem execFabricStatus_keep : ∀ a0 a1 a2, keep (after (execFabricStatus a0 a1 a2) a2) = keep a2 := fun _ _ _ => runCommand_keep _ actFabricStatus_keep _ _ _

theorem actFabricLaneReach_keep (c : Ctx) (q : List Word) (s : State) : keep (actFabricLaneReach c q s).st = keep s := by
  unfold actFabricLaneReach
  simp only [↓keep_mk, ↓keep_fold, ↓id_eq, ↓after_next, ↓fail_keep, ↓reply_keep]
  (repeat' split) <;> simp only [↓keep_mk, ↓keep_fold, ↓id_eq, ↓after_next, ↓fail_keep, ↓reply_keep]

theorem execFabricLaneReach_keep : ∀ a0 a1 a2, keep (after (execFabricLaneReach a0 a1 a2) a2) = keep a2 := fun _ _ _ => runCommand_keep _ actFabricLaneReach_keep _ _ _

theorem actFabricCounters_keep (c : Ctx) (q : List Word) (s : State) : keep (actFabricCounters c q s).st = keep s := by
  unfold actFabricCounters
  simp only [↓keep_mk, ↓keep_fold, ↓id_eq, ↓after_next, ↓reply_keep, ↓fail_keep]
  (repeat' split) <;> simp only [↓keep_mk, ↓keep_fold, ↓id_eq, ↓after_next, ↓reply_keep, ↓fail_keep]

theorem execFabricCounters_keep : ∀ a0 a1 a2, keep (after (execFabricCounters a0 a1 a2) a2) = keep a2 := fun _ _ _ => runCommand_keep _ actFabricCounters_keep _ _ _

theorem execFabricLaneState_keep : ∀ a0 a1 a2 a3 a4 a5, keep (after (execFabricLaneState a0 a1 a2 a3 a4 a5) a5) = keep a5 := by
  intro a0 a1 a2 a3 a4 a5
  unfold execFabricLaneState
  (repeat' split) <;> simp only [↓keep_mk, ↓keep_fold, ↓id_eq, ↓after_next, ↓State_atTime_keep, ↓fabricLane_keep]

theorem modFabLane_keep : ∀ a0 a1 a2, keep (modFabLane a0 a1 a2) = keep a2 := by
  intro a0 a1 a2
  unfold modFabLane
  rfl

theorem controlSlot_keep : ∀ a0 a1, keep (controlSlot a0 a1) = keep a1 := by
  intro a0 a1
  unfold controlSlot
  (repeat' split) <;> rfl

theorem modTx_keep : ∀ a0 a1 a2, keep (modTx a0 a1 a2) = keep a2 := by
  intro a0 a1 a2
  unfold modTx
  rfl

theorem sendCell_keep : ∀ a0 a1 a2 a3, keep (sendCell a0 a1 a2 a3) = keep a3 := by
  intro a0 a1 a2 a3
  unfold sendCell
  simp only [↓keep_mk, ↓keep_fold, ↓id_eq, ↓after_next, ↓emit_keep, ↓fabLaneCount_keep, ↓fabCount_keep, ↓modTx_keep, ↓voqRelease_keep, ↓voqCompleted_keep]
  (repeat' split) <;> simp only [↓keep_mk, ↓keep_fold, ↓id_eq, ↓after_next, ↓emit_keep, ↓fabLaneCount_keep, ↓fabCount_keep, ↓modTx_keep, ↓voqRelease_keep, ↓voqCompleted_keep]

theorem startPacket_keep : ∀ a0 a1 a2, keep (startPacket a0 a1 a2) = keep a2 := by
  intro a0 a1 a2
  unfold startPacket
  repeat' (first
    | with_reducible rfl
    | with_reducible assumption
    | simp only [↓keep_mk, ↓keep_fold, ↓id_eq, ↓after_next, ↓queueTake_keep, ↓chargeVoq_keep, ↓statusCheck_keep, ↓modTx_keep]
    | simp only [*]
    | with_reducible refine keep_ite _ _ _ _ ?_ ?_
    | with_reducible refine keep_after_ite _ _ _ _ _ ?_ ?_
    | with_reducible refine keep_ite_snd _ _ _ _ ?_ ?_
    | with_reducible refine keep_ite_snd2 _ _ _ _ ?_ ?_
    | with_reducible refine (keep_foldl _ ?_ _ _).trans ?_
    | with_reducible refine (keep_foldl_snd _ ?_ _ _).trans ?_
    | (intros; simp only [*])
    | intro _
    | (split <;> try (rename_i h; first
        | (have k := (congrArg (fun p : _ × State => keep p.2) h).symm; simp only [↓keep_mk, ↓keep_fold, ↓id_eq, ↓after_next, ↓queueTake_keep, ↓chargeVoq_keep, ↓statusCheck_keep, ↓modTx_keep] at k)
        | (have k := (congrArg (fun p : _ × _ × State => keep p.2.2) h).symm; simp only [↓keep_mk, ↓keep_fold, ↓id_eq, ↓after_next, ↓queueTake_keep, ↓chargeVoq_keep, ↓statusCheck_keep, ↓modTx_keep] at k))))

theorem cellSlot_keep : ∀ a0 a1, keep (cellSlot a0 a1) = keep a1 := by
  intro a0 a1
  unfold cellSlot
  simp only [↓keep_mk, ↓keep_fold, ↓id_eq, ↓after_next, ↓emit_keep, ↓sendCell_keep, ↓startPacket_keep, ↓modFab_keep]
  (repeat' split) <;> simp only [↓keep_mk, ↓keep_fold, ↓id_eq, ↓after_next, ↓emit_keep, ↓sendCell_keep, ↓startPacket_keep, ↓modFab_keep]

theorem execFabricCellTransmit_keep : ∀ a0 a1 a2, keep (after (execFabricCellTransmit a0 a1 a2) a2) = keep a2 := by
  intro a0 a1 a2
  unfold execFabricCellTransmit
  simp only [↓keep_mk, ↓keep_fold, ↓id_eq, ↓after_next, ↓State_atTime_keep, ↓controlSlot_keep, ↓cellSlot_keep, ↓modFabLane_keep]
  (repeat' split) <;> simp only [↓keep_mk, ↓keep_fold, ↓id_eq, ↓after_next, ↓State_atTime_keep, ↓controlSlot_keep, ↓cellSlot_keep, ↓modFabLane_keep]

theorem countBad_keep : ∀ a0 a1 a2 a3, keep (countBad a0 a1 a2 a3) = keep a3 := by
  intro a0 a1 a2 a3
  unfold countBad
  (repeat' split) <;> simp only [↓keep_mk, ↓keep_fold, ↓id_eq, ↓after_next, ↓fabCount_keep, ↓fabLaneCount_keep]

theorem rxCells_keep : ∀ a0 a1, keep (rxCells a0 a1) = keep a1 := by
  intro a0 a1
  unfold rxCells
  repeat' (first
    | with_reducible rfl
    | with_reducible assumption
    | simp only [↓keep_mk, ↓keep_fold, ↓id_eq, ↓after_next, ↓arbitrate_keep, ↓modRx_keep, ↓poolCount_keep, ↓dropOpen_keep]
    | simp only [*]
    | with_reducible refine keep_ite _ _ _ _ ?_ ?_
    | with_reducible refine keep_after_ite _ _ _ _ _ ?_ ?_
    | with_reducible refine keep_ite_snd _ _ _ _ ?_ ?_
    | with_reducible refine keep_ite_snd2 _ _ _ _ ?_ ?_
    | with_reducible refine (keep_foldl _ ?_ _ _).trans ?_
    | with_reducible refine (keep_foldl_snd _ ?_ _ _).trans ?_
    | (intros; simp only [*])
    | intro _
    | (split <;> try (rename_i h; first
        | (have k := (congrArg (fun p : _ × State => keep p.2) h).symm; simp only [↓keep_mk, ↓keep_fold, ↓id_eq, ↓after_next, ↓arbitrate_keep, ↓modRx_keep, ↓poolCount_keep, ↓dropOpen_keep] at k)
        | (have k := (congrArg (fun p : _ × _ × State => keep p.2.2) h).symm; simp only [↓keep_mk, ↓keep_fold, ↓id_eq, ↓after_next, ↓arbitrate_keep, ↓modRx_keep, ↓poolCount_keep, ↓dropOpen_keep] at k))))

theorem packetIn_keep : ∀ a0 a1 a2 a3, keep (packetIn a0 a1 a2 a3) = keep a3 := by
  intro a0 a1 a2 a3
  unfold packetIn
  rfl

theorem takeCell_keep : ∀ a0 a1 a2 a3, keep (takeCell a0 a1 a2 a3) = keep a3 := by
  intro a0 a1 a2 a3
  unfold takeCell
  simp only [↓keep_mk, ↓keep_fold, ↓id_eq, ↓after_next, ↓fabCount_keep, ↓modRx_keep, ↓dropOpen_keep, ↓rxCells_keep, ↓packetIn_keep]
  (repeat' split) <;> simp only [↓keep_mk, ↓keep_fold, ↓id_eq, ↓after_next, ↓fabCount_keep, ↓modRx_keep, ↓dropOpen_keep, ↓rxCells_keep, ↓packetIn_keep]

theorem lostCell_keep : ∀ a0 a1, keep (lostCell a0 a1) = keep a1 := by
  intro a0 a1
  unfold lostCell
  simp only [↓keep_mk, ↓keep_fold, ↓id_eq, ↓after_next, ↓fabCount_keep, ↓modRx_keep, ↓dropOpen_keep]
  (repeat' split) <;> simp only [↓keep_mk, ↓keep_fold, ↓id_eq, ↓after_next, ↓fabCount_keep, ↓modRx_keep, ↓dropOpen_keep]

theorem stepRx_keep : ∀ a0 a1, keep (stepRx a0 a1) = keep a1 := by
  intro a0 a1
  unfold stepRx
  simp only [↓keep_mk, ↓keep_fold, ↓id_eq, ↓after_next, ↓modRx_keep, ↓takeCell_keep, ↓lostCell_keep]
  (repeat' split) <;> simp only [↓keep_mk, ↓keep_fold, ↓id_eq, ↓after_next, ↓modRx_keep, ↓takeCell_keep, ↓lostCell_keep]

theorem stepsRx_keep : ∀ a0 a1 a2, keep ((stepsRx a0 a1 a2)) = keep a2 := by
  intro a0 a1 a2
  induction a1 generalizing a0 a2 with
  | zero =>
    unfold stepsRx
    repeat' (first
      | with_reducible rfl
      | with_reducible assumption
      | simp only [↓keep_mk, ↓keep_fold, ↓id_eq, ↓after_next, ↓stepRx_keep]
      | simp only [*]
      | with_reducible refine keep_ite _ _ _ _ ?_ ?_
      | with_reducible refine keep_after_ite _ _ _ _ _ ?_ ?_
      | with_reducible refine keep_ite_snd _ _ _ _ ?_ ?_
      | with_reducible refine keep_ite_snd2 _ _ _ _ ?_ ?_
      | with_reducible refine (keep_foldl _ ?_ _ _).trans ?_
      | with_reducible refine (keep_foldl_snd _ ?_ _ _).trans ?_
      | (intros; simp only [*])
      | intro _
      | (split <;> try (rename_i h; first
          | (have k := (congrArg (fun p : _ × State => keep p.2) h).symm; simp only [↓keep_mk, ↓keep_fold, ↓id_eq, ↓after_next, ↓stepRx_keep] at k)
          | (have k := (congrArg (fun p : _ × _ × State => keep p.2.2) h).symm; simp only [↓keep_mk, ↓keep_fold, ↓id_eq, ↓after_next, ↓stepRx_keep] at k))))
  | succ n ih =>
    unfold stepsRx
    repeat' (first
      | with_reducible rfl
      | with_reducible assumption
      | simp only [↓keep_mk, ↓keep_fold, ↓id_eq, ↓after_next, ↓ih, ↓stepRx_keep]
      | simp only [*]
      | with_reducible refine keep_ite _ _ _ _ ?_ ?_
      | with_reducible refine keep_after_ite _ _ _ _ _ ?_ ?_
      | with_reducible refine keep_ite_snd _ _ _ _ ?_ ?_
      | with_reducible refine keep_ite_snd2 _ _ _ _ ?_ ?_
      | with_reducible refine (keep_foldl _ ?_ _ _).trans ?_
      | with_reducible refine (keep_foldl_snd _ ?_ _ _).trans ?_
      | (intros; simp only [*])
      | intro _
      | (split <;> try (rename_i h; first
          | (have k := (congrArg (fun p : _ × State => keep p.2) h).symm; simp only [↓keep_mk, ↓keep_fold, ↓id_eq, ↓after_next, ↓ih, ↓stepRx_keep] at k)
          | (have k := (congrArg (fun p : _ × _ × State => keep p.2.2) h).symm; simp only [↓keep_mk, ↓keep_fold, ↓id_eq, ↓after_next, ↓ih, ↓stepRx_keep] at k))))

theorem drainRx_keep : ∀ a0 a1 a2, keep ((drainRx a0 a1 a2)) = keep a2 := by
  intro a0 a1 a2
  induction a1 generalizing a0 a2 with
  | zero =>
    unfold drainRx
    repeat' (first
      | with_reducible rfl
      | with_reducible assumption
      | simp only [↓keep_mk, ↓keep_fold, ↓id_eq, ↓after_next, ↓stepRx_keep, ↓modRx_keep]
      | simp only [*]
      | with_reducible refine keep_ite _ _ _ _ ?_ ?_
      | with_reducible refine keep_after_ite _ _ _ _ _ ?_ ?_
      | with_reducible refine keep_ite_snd _ _ _ _ ?_ ?_
      | with_reducible refine keep_ite_snd2 _ _ _ _ ?_ ?_
      | with_reducible refine (keep_foldl _ ?_ _ _).trans ?_
      | with_reducible refine (keep_foldl_snd _ ?_ _ _).trans ?_
      | (intros; simp only [*])
      | intro _
      | (split <;> try (rename_i h; first
          | (have k := (congrArg (fun p : _ × State => keep p.2) h).symm; simp only [↓keep_mk, ↓keep_fold, ↓id_eq, ↓after_next, ↓stepRx_keep, ↓modRx_keep] at k)
          | (have k := (congrArg (fun p : _ × _ × State => keep p.2.2) h).symm; simp only [↓keep_mk, ↓keep_fold, ↓id_eq, ↓after_next, ↓stepRx_keep, ↓modRx_keep] at k))))
  | succ n ih =>
    unfold drainRx
    repeat' (first
      | with_reducible rfl
      | with_reducible assumption
      | simp only [↓keep_mk, ↓keep_fold, ↓id_eq, ↓after_next, ↓ih, ↓stepRx_keep, ↓modRx_keep]
      | simp only [*]
      | with_reducible refine keep_ite _ _ _ _ ?_ ?_
      | with_reducible refine keep_after_ite _ _ _ _ _ ?_ ?_
      | with_reducible refine keep_ite_snd _ _ _ _ ?_ ?_
      | with_reducible refine keep_ite_snd2 _ _ _ _ ?_ ?_
      | with_reducible refine (keep_foldl _ ?_ _ _).trans ?_
      | with_reducible refine (keep_foldl_snd _ ?_ _ _).trans ?_
      | (intros; simp only [*])
      | intro _
      | (split <;> try (rename_i h; first
          | (have k := (congrArg (fun p : _ × State => keep p.2) h).symm; simp only [↓keep_mk, ↓keep_fold, ↓id_eq, ↓after_next, ↓ih, ↓stepRx_keep, ↓modRx_keep] at k)
          | (have k := (congrArg (fun p : _ × _ × State => keep p.2.2) h).symm; simp only [↓keep_mk, ↓keep_fold, ↓id_eq, ↓after_next, ↓ih, ↓stepRx_keep, ↓modRx_keep] at k))))

theorem settleRx_keep : ∀ a0 a1 a2, keep (settleRx a0 a1 a2) = keep a2 := by
  intro a0 a1 a2
  unfold settleRx
  simp only [↓keep_mk, ↓keep_fold, ↓id_eq, ↓after_next, ↓modRx_keep, ↓drainRx_keep]
  (repeat' split) <;> simp only [↓keep_mk, ↓keep_fold, ↓id_eq, ↓after_next, ↓modRx_keep, ↓drainRx_keep]

theorem execFabricCellReceived_keep : ∀ a0 a1 a2 a3 a4, keep (after (execFabricCellReceived a0 a1 a2 a3 a4) a4) = keep a4 := by
  intro t lane cell damaged s
  rw [← State_atTime_keep s t]
  unfold execFabricCellReceived
  generalize s.atTime t = u
  refine keep_after_ite _ _ _ _ _ rfl ?_
  split
  · rfl
  · exact countBad_keep _ _ _ _
  · refine keep_after_ite _ _ _ _ _ ?_ ?_
    · rw [after_next, fabCount_keep, fabLaneCount_keep, fabCount_keep]
    · rw [after_next, settleRx_keep, modRx_keep, stepsRx_keep, fabLaneCount_keep, fabCount_keep]

theorem execReorderTimeout_keep : ∀ a0 a1 a2 a3, keep (after (execReorderTimeout a0 a1 a2 a3) a3) = keep a3 := by
  intro a0 a1 a2 a3
  unfold execReorderTimeout
  simp only [↓keep_mk, ↓keep_fold, ↓id_eq, ↓after_next, ↓State_atTime_keep, ↓settleRx_keep, ↓stepsRx_keep]
  (repeat' split) <;> simp only [↓keep_mk, ↓keep_fold, ↓id_eq, ↓after_next, ↓State_atTime_keep, ↓settleRx_keep, ↓stepsRx_keep]

theorem execStatusMessageReceived_keep : ∀ a0 a1 a2 a3 a4, keep (after (execStatusMessageReceived a0 a1 a2 a3 a4) a4) = keep a4 := by
  intro a0 a1 a2 a3 a4
  unfold execStatusMessageReceived
  simp only [↓keep_mk, ↓keep_fold, ↓id_eq, ↓after_next, ↓State_atTime_keep, ↓countBad_keep, ↓fabCount_keep, ↓takeStatus_keep, ↓sendToken_keep]
  (repeat' split) <;> simp only [↓keep_mk, ↓keep_fold, ↓id_eq, ↓after_next, ↓State_atTime_keep, ↓countBad_keep, ↓fabCount_keep, ↓takeStatus_keep, ↓sendToken_keep]

theorem execStatusRefresh_keep : ∀ a0 a1 a2, keep (after (execStatusRefresh a0 a1 a2) a2) = keep a2 := by
  intro a0 a1 a2
  unfold execStatusRefresh
  simp only [↓keep_mk, ↓keep_fold, ↓id_eq, ↓after_next, ↓State_atTime_keep, ↓sendStatus_keep]
  (repeat' split) <;> simp only [↓keep_mk, ↓keep_fold, ↓id_eq, ↓after_next, ↓State_atTime_keep, ↓sendStatus_keep]

theorem execTokenMessageReceived_keep : ∀ a0 a1 a2 a3 a4, keep (after (execTokenMessageReceived a0 a1 a2 a3 a4) a4) = keep a4 := by
  intro a0 a1 a2 a3 a4
  unfold execTokenMessageReceived
  simp only [↓keep_mk, ↓keep_fold, ↓id_eq, ↓after_next, ↓State_atTime_keep, ↓countBad_keep, ↓fabCount_keep, ↓takeToken_keep]
  (repeat' split) <;> simp only [↓keep_mk, ↓keep_fold, ↓id_eq, ↓after_next, ↓State_atTime_keep, ↓countBad_keep, ↓fabCount_keep, ↓takeToken_keep]

theorem execCreditTokenIssue_keep : ∀ a0 a1 a2, keep (after (execCreditTokenIssue a0 a1 a2) a2) = keep a2 := by
  intro a0 a1 a2
  unfold execCreditTokenIssue
  (repeat' split) <;> simp only [↓keep_mk, ↓keep_fold, ↓id_eq, ↓after_next, ↓State_atTime_keep, ↓creditRun_keep]

theorem execReachabilityReceived_keep : ∀ a0 a1 a2 a3 a4, keep (after (execReachabilityReceived a0 a1 a2 a3 a4) a4) = keep a4 := by
  intro a0 a1 a2 a3 a4
  unfold execReachabilityReceived
  simp only [↓keep_mk, ↓keep_fold, ↓id_eq, ↓after_next, ↓State_atTime_keep, ↓countBad_keep, ↓fabCheck_keep, ↓modFab_keep]
  (repeat' split) <;> simp only [↓keep_mk, ↓keep_fold, ↓id_eq, ↓after_next, ↓State_atTime_keep, ↓countBad_keep, ↓fabCheck_keep, ↓modFab_keep]

end Sys2Proof.Machine
end

