-- ==== Sys2Proof/Laws/KeepLine.lean ====
section
/-! SUPPORT. Each function of lines, MAC and transport, and the operations of faults, power and start-up keeps the lifecycle state and the queue of waiting commands (R500). -/

namespace Sys2Proof.Machine

open Sys2Proof

set_option maxRecDepth 4000
set_option linter.unusedSimpArgs false

/-! ### Line.lean -/

theorem actPortCreate_keep (c : Ctx) (q : List Word) (s : State) : keep (actPortCreate c q s).st = keep s := by
  unfold actPortCreate
  simp only [↓keep_mk, ↓keep_fold, ↓id_eq, ↓after_next, ↓fail_keep, ↓created_keep, ↓ecmpUpdate_keep, ↓portNodePut_keep, ↓parseReset_keep, ↓twinPortNew_keep]
  (repeat' split) <;> simp only [↓keep_mk, ↓keep_fold, ↓id_eq, ↓after_next, ↓fail_keep, ↓created_keep, ↓ecmpUpdate_keep, ↓portNodePut_keep, ↓parseReset_keep, ↓twinPortNew_keep]

theorem execPortCreate_keep : ∀ a0 a1 a2, keep (after (execPortCreate a0 a1 a2) a2) = keep a2 := fun _ _ _ => runCommand_keep _ actPortCreate_keep _ _ _

theorem withPort_keep (x : Ctx) (q : List Word) (s : State) (f : Nat → Port → Res) (hf : ∀ i p, keep (f i p).st = keep s) :
    keep (withPort x q s f).st = keep s := by
  unfold withPort
  split
  · exact hf _ _
  · split
    · exact done_keep _
    · exact fail_keep _ _

theorem notSent_keep : ∀ a0 a1 a2, keep (notSent a0 a1 a2) = keep a2 := by
  intro a0 a1 a2
  unfold notSent
  (repeat' split) <;> simp only [↓keep_mk, ↓keep_fold, ↓id_eq, ↓after_next, ↓tsStore_keep]

theorem dropPortFrames_keep : ∀ a0 a1, keep (dropPortFrames a0 a1) = keep a1 := by
  intro a0 a1
  unfold dropPortFrames
  repeat' (first
    | with_reducible rfl
    | with_reducible assumption
    | simp only [↓keep_mk, ↓keep_fold, ↓id_eq, ↓after_next, ↓notSent_keep, ↓macCount_keep, ↓modFwd_keep]
    | with_reducible refine keep_ite _ _ _ _ ?_ ?_
    | with_reducible refine keep_after_ite _ _ _ _ _ ?_ ?_
    | with_reducible refine (keep_foldl _ ?_ _ _).trans ?_
    | with_reducible refine (keep_foldl_snd _ ?_ _ _).trans ?_
    | (intros; simp only [*])
    | intro _
    | split)

theorem actPortDelete_keep (c : Ctx) (q : List Word) (s : State) : keep (actPortDelete c q s).st = keep s := by
  unfold actPortDelete
  refine withPort_keep _ _ _ _ (fun i p => ?_)
  (repeat' split) <;> simp only [↓keep_mk, ↓keep_fold, ↓id_eq, ↓after_next, ↓dropSas_keep, ↓dropPortFrames_keep, ↓modPort_keep, ↓done_keep, ↓ecmpUpdate_keep, ↓protUpdate_keep]

theorem execPortDelete_keep : ∀ a0 a1 a2, keep (after (execPortDelete a0 a1 a2) a2) = keep a2 := fun _ _ _ => runCommand_keep _ actPortDelete_keep _ _ _

theorem actPortEnable_keep (c : Ctx) (q : List Word) (s : State) : keep (actPortEnable c q s).st = keep s := by
  unfold actPortEnable
  refine withPort_keep _ _ _ _ (fun i p => ?_)
  (repeat' split) <;> simp only [↓keep_mk, ↓keep_fold, ↓id_eq, ↓after_next, ↓fail_keep, ↓done_keep, ↓enterService_keep, ↓modPort_keep]

theorem execPortEnable_keep : ∀ a0 a1 a2, keep (after (execPortEnable a0 a1 a2) a2) = keep a2 := fun _ _ _ => runCommand_keep _ actPortEnable_keep _ _ _

theorem actPortDisable_keep (c : Ctx) (q : List Word) (s : State) : keep (actPortDisable c q s).st = keep s := by
  unfold actPortDisable
  refine withPort_keep _ _ _ _ (fun i p => ?_)
  (repeat' split) <;> rfl

theorem execPortDisable_keep : ∀ a0 a1 a2, keep (after (execPortDisable a0 a1 a2) a2) = keep a2 := fun _ _ _ => runCommand_keep _ actPortDisable_keep _ _ _

theorem actPortSet_keep (c : Ctx) (q : List Word) (s : State) : keep (actPortSet c q s).st = keep s := by
  unfold actPortSet
  refine withPort_keep _ _ _ _ (fun i p => ?_)
  simp only [↓keep_mk, ↓keep_fold, ↓id_eq, ↓after_next, ↓fail_keep, ↓done_keep, ↓applyPortCfg_keep, ↓modPort_keep]
  (repeat' split) <;> simp only [↓keep_mk, ↓keep_fold, ↓id_eq, ↓after_next, ↓fail_keep, ↓done_keep, ↓applyPortCfg_keep, ↓modPort_keep]

theorem execPortSet_keep : ∀ a0 a1 a2, keep (after (execPortSet a0 a1 a2) a2) = keep a2 := fun _ _ _ => runCommand_keep _ actPortSet_keep _ _ _

theorem actPortFilterSet_keep (c : Ctx) (q : List Word) (s : State) : keep (actPortFilterSet c q s).st = keep s := by
  unfold actPortFilterSet
  refine withPort_keep _ _ _ _ (fun i p => ?_)
  rfl

theorem execPortFilterSet_keep : ∀ a0 a1 a2, keep (after (execPortFilterSet a0 a1 a2) a2) = keep a2 := fun _ _ _ => runCommand_keep _ actPortFilterSet_keep _ _ _

theorem actPortStatus_keep (c : Ctx) (q : List Word) (s : State) : keep (actPortStatus c q s).st = keep s := by
  unfold actPortStatus
  refine withPort_keep _ _ _ _ (fun i p => ?_)
  rfl

theorem execPortStatus_keep : ∀ a0 a1 a2, keep (after (execPortStatus a0 a1 a2) a2) = keep a2 := fun _ _ _ => runCommand_keep _ actPortStatus_keep _ _ _

theorem readPortCtrs_keep : ∀ a0 a1 a2 a3 a4, keep ((readPortCtrs a0 a1 a2 a3 a4).st) = keep a4 := by
  intro a0 a1 a2 a3 a4
  unfold readPortCtrs
  (repeat' split) <;> simp only [↓keep_mk, ↓keep_fold, ↓id_eq, ↓after_next, ↓reply_keep, ↓ctrClear_keep]

theorem actPortCounters_keep (c : Ctx) (q : List Word) (s : State) : keep (actPortCounters c q s).st = keep s := by
  unfold actPortCounters
  refine withPort_keep _ _ _ _ (fun i p => ?_)
  simp only [readPortCtrs_keep]

theorem execPortCounters_keep : ∀ a0 a1 a2, keep (after (execPortCounters a0 a1 a2) a2) = keep a2 := fun _ _ _ => runCommand_keep _ actPortCounters_keep _ _ _

theorem actPortLoopback_keep (c : Ctx) (q : List Word) (s : State) : keep (actPortLoopback c q s).st = keep s := by
  unfold actPortLoopback
  refine withPort_keep _ _ _ _ (fun i p => ?_)
  simp only [↓keep_mk, ↓keep_fold, ↓id_eq, ↓after_next, ↓outOfService_keep, ↓modPort_keep, ↓reply_keep, ↓State_took_keep, ↓done_keep]
  (repeat' split) <;> simp only [↓keep_mk, ↓keep_fold, ↓id_eq, ↓after_next, ↓outOfService_keep, ↓modPort_keep, ↓reply_keep, ↓State_took_keep, ↓done_keep]

theorem execPortLoopback_keep : ∀ a0 a1 a2, keep (after (execPortLoopback a0 a1 a2) a2) = keep a2 := fun _ _ _ => runCommand_keep _ actPortLoopback_keep _ _ _

theorem actLaneSet_keep (c : Ctx) (q : List Word) (s : State) : keep (actLaneSet c q s).st = keep s := by
  unfold actLaneSet
  simp only [↓keep_mk, ↓keep_fold, ↓id_eq, ↓after_next, ↓fail_keep, ↓done_keep]
  (repeat' split) <;> simp only [↓keep_mk, ↓keep_fold, ↓id_eq, ↓after_next, ↓fail_keep, ↓done_keep]

theorem execLaneSet_keep : ∀ a0 a1 a2, keep (after (execLaneSet a0 a1 a2) a2) = keep a2 := fun _ _ _ => runCommand_keep _ actLaneSet_keep _ _ _

theorem actMacsecSecySet_keep (c : Ctx) (q : List Word) (s : State) : keep (actMacsecSecySet c q s).st = keep s := by
  unfold actMacsecSecySet
  refine withPort_keep _ _ _ _ (fun i p => ?_)
  simp only [↓keep_mk, ↓keep_fold, ↓id_eq, ↓after_next, ↓fail_keep, ↓done_keep, ↓modPort_keep]
  (repeat' split) <;> simp only [↓keep_mk, ↓keep_fold, ↓id_eq, ↓after_next, ↓fail_keep, ↓done_keep, ↓modPort_keep]

theorem execMacsecSecySet_keep : ∀ a0 a1 a2, keep (after (execMacsecSecySet a0 a1 a2) a2) = keep a2 := fun _ _ _ => runCommand_keep _ actMacsecSecySet_keep _ _ _

theorem actMacsecSaInstall_keep (c : Ctx) (q : List Word) (s : State) : keep (actMacsecSaInstall c q s).st = keep s := by
  unfold actMacsecSaInstall
  refine withPort_keep _ _ _ _ (fun i p => ?_)
  simp only [↓keep_mk, ↓keep_fold, ↓id_eq, ↓after_next, ↓fail_keep, ↓created_keep]
  (repeat' split) <;> simp only [↓keep_mk, ↓keep_fold, ↓id_eq, ↓after_next, ↓fail_keep, ↓created_keep]

theorem execMacsecSaInstall_keep : ∀ a0 a1 a2, keep (after (execMacsecSaInstall a0 a1 a2) a2) = keep a2 := fun _ _ _ => runCommand_keep _ actMacsecSaInstall_keep _ _ _

theorem actMacsecSaActivate_keep (c : Ctx) (q : List Word) (s : State) : keep (actMacsecSaActivate c q s).st = keep s := by
  unfold actMacsecSaActivate
  simp only [↓keep_mk, ↓keep_fold, ↓id_eq, ↓after_next, ↓fail_keep, ↓done_keep, ↓modPort_keep]
  (repeat' split) <;> simp only [↓keep_mk, ↓keep_fold, ↓id_eq, ↓after_next, ↓fail_keep, ↓done_keep, ↓modPort_keep]

theorem execMacsecSaActivate_keep : ∀ a0 a1 a2, keep (after (execMacsecSaActivate a0 a1 a2) a2) = keep a2 := fun _ _ _ => runCommand_keep _ actMacsecSaActivate_keep _ _ _

theorem actMacsecSaDelete_keep (c : Ctx) (q : List Word) (s : State) : keep (actMacsecSaDelete c q s).st = keep s := by
  unfold actMacsecSaDelete
  simp only [↓keep_mk, ↓keep_fold, ↓id_eq, ↓after_next, ↓fail_keep, ↓done_keep]
  (repeat' split) <;> simp only [↓keep_mk, ↓keep_fold, ↓id_eq, ↓after_next, ↓fail_keep, ↓done_keep]

theorem execMacsecSaDelete_keep : ∀ a0 a1 a2, keep (after (execMacsecSaDelete a0 a1 a2) a2) = keep a2 := fun _ _ _ => runCommand_keep _ actMacsecSaDelete_keep _ _ _

theorem actMacsecCounters_keep (c : Ctx) (q : List Word) (s : State) : keep (actMacsecCounters c q s).st = keep s := by
  unfold actMacsecCounters
  simp only [↓keep_mk, ↓keep_fold, ↓id_eq, ↓after_next, ↓readPortCtrs_keep, ↓reply_keep, ↓ctrClear_keep, ↓fail_keep]
  (repeat' split) <;> simp only [↓keep_mk, ↓keep_fold, ↓id_eq, ↓after_next, ↓readPortCtrs_keep, ↓reply_keep, ↓ctrClear_keep, ↓fail_keep]

theorem execMacsecCounters_keep : ∀ a0 a1 a2, keep (after (execMacsecCounters a0 a1 a2) a2) = keep a2 := fun _ _ _ => runCommand_keep _ actMacsecCounters_keep _ _ _

theorem linkChanged_keep : ∀ a0, keep (linkChanged a0) = keep a0 := by
  intro a0
  unfold linkChanged
  simp only [ecmpUpdate_keep, protUpdate_keep, syncEUpdate_keep]

theorem trainLanes_keep : ∀ a0 a1 a2, keep (trainLanes a0 a1 a2) = keep a2 := by
  intro a0 a1 a2
  unfold trainLanes
  repeat' (first
    | with_reducible rfl
    | with_reducible assumption
    | simp only [↓keep_mk, ↓keep_fold, ↓id_eq, ↓after_next, ↓State_took_keep]
    | with_reducible refine keep_ite _ _ _ _ ?_ ?_
    | with_reducible refine keep_after_ite _ _ _ _ _ ?_ ?_
    | with_reducible refine (keep_foldl _ ?_ _ _).trans ?_
    | with_reducible refine (keep_foldl_snd _ ?_ _ _).trans ?_
    | (intros; simp only [*])
    | intro _
    | split)

theorem portConditions_keep : ∀ a0 a1 a2, keep (portConditions a0 a1 a2) = keep a2 := by
  intro a0 a1 a2
  unfold portConditions
  simp only [↓keep_mk, ↓keep_fold, ↓id_eq, ↓after_next, ↓modPort_keep, ↓linkChanged_keep, ↓trainLanes_keep]
  (repeat' split) <;> simp only [↓keep_mk, ↓keep_fold, ↓id_eq, ↓after_next, ↓modPort_keep, ↓linkChanged_keep, ↓trainLanes_keep]

theorem execPortConditionsChange_keep : ∀ a0 a1 a2 a3, keep (after (execPortConditionsChange a0 a1 a2 a3) a3) = keep a3 := by
  intro a0 a1 a2 a3
  unfold execPortConditionsChange
  (repeat' split) <;> simp only [↓keep_mk, ↓keep_fold, ↓id_eq, ↓after_next, ↓portConditions_keep, ↓State_atTime_keep]

theorem execLinkUp_keep : ∀ a0 a1 a2, keep (after (execLinkUp a0 a1 a2) a2) = keep a2 := by
  intro a0 a1 a2
  unfold execLinkUp
  simp only [↓keep_mk, ↓keep_fold, ↓id_eq, ↓after_next, ↓State_atTime_keep, ↓linkChanged_keep, ↓declareLink_keep]
  (repeat' split) <;> simp only [↓keep_mk, ↓keep_fold, ↓id_eq, ↓after_next, ↓State_atTime_keep, ↓linkChanged_keep, ↓declareLink_keep]

theorem execLinkDown_keep : ∀ a0 a1 a2, keep (after (execLinkDown a0 a1 a2) a2) = keep a2 := by
  intro a0 a1 a2
  unfold execLinkDown
  simp only [↓keep_mk, ↓keep_fold, ↓id_eq, ↓after_next, ↓State_atTime_keep, ↓linkChanged_keep, ↓declareLink_keep]
  (repeat' split) <;> simp only [↓keep_mk, ↓keep_fold, ↓id_eq, ↓after_next, ↓State_atTime_keep, ↓linkChanged_keep, ↓declareLink_keep]

/-! ### MacOps.lean -/

theorem macAdd_keep : ∀ a0 a1 a2 a3, keep (macAdd a0 a1 a2 a3) = keep a3 := by
  intro a0 a1 a2 a3
  unfold macAdd
  (repeat' split) <;> simp only [↓keep_mk, ↓keep_fold, ↓id_eq, ↓after_next, ↓macCount_keep, ↓ctrPut_keep]

theorem macAdds_keep : ∀ a0 a1 a2, keep (macAdds a0 a1 a2) = keep a2 := by
  intro a0 a1 a2
  unfold macAdds
  repeat' (first
    | with_reducible rfl
    | with_reducible assumption
    | simp only [↓keep_mk, ↓keep_fold, ↓id_eq, ↓after_next, ↓macAdd_keep]
    | with_reducible refine keep_ite _ _ _ _ ?_ ?_
    | with_reducible refine keep_after_ite _ _ _ _ _ ?_ ?_
    | with_reducible refine (keep_foldl _ ?_ _ _).trans ?_
    | with_reducible refine (keep_foldl_snd _ ?_ _ _).trans ?_
    | (intros; simp only [*])
    | intro _
    | split)

theorem macsecValidate_keep : ∀ a0 a1 a2 a3, keep ((macsecValidate a0 a1 a2 a3).2) = keep a3 := by
  intro a0 a1 a2 a3
  unfold macsecValidate
  repeat' (first
    | with_reducible rfl
    | with_reducible assumption
    | simp only [↓keep_mk, ↓keep_fold, ↓id_eq, ↓after_next, ↓macCount_keep]
    | simp only [*]
    | with_reducible refine keep_ite _ _ _ _ ?_ ?_
    | with_reducible refine keep_after_ite _ _ _ _ _ ?_ ?_
    | with_reducible refine keep_ite_snd _ _ _ _ ?_ ?_
    | with_reducible refine keep_ite_snd2 _ _ _ _ ?_ ?_
    | with_reducible refine (keep_foldl _ ?_ _ _).trans ?_
    | with_reducible refine (keep_foldl_snd _ ?_ _ _).trans ?_
    | (intros; simp only [*])
    | intro _
    | (split <;> try (rename_i h; first
        | (have k := (congrArg (fun p : _ × State => keep p.2) h).symm; simp only [↓keep_mk, ↓keep_fold, ↓id_eq, ↓after_next, ↓macCount_keep] at k)
        | (have k := (congrArg (fun p : _ × _ × State => keep p.2.2) h).symm; simp only [↓keep_mk, ↓keep_fold, ↓id_eq, ↓after_next, ↓macCount_keep] at k))))

theorem saExhaust_keep : ∀ a0 a1 a2 a3, keep (saExhaust a0 a1 a2 a3) = keep a3 := by
  intro a0 a1 a2 a3
  unfold saExhaust
  (repeat' split) <;> simp only [↓keep_mk, ↓keep_fold, ↓id_eq, ↓after_next, ↓raise_keep]

theorem macsecProtect_keep : ∀ a0 a1 a2, keep ((macsecProtect a0 a1 a2).2) = keep a2 := by
  intro a0 a1 a2
  unfold macsecProtect
  repeat' (first
    | with_reducible rfl
    | with_reducible assumption
    | simp only [↓keep_mk, ↓keep_fold, ↓id_eq, ↓after_next, ↓macCount_keep, ↓saExhaust_keep, ↓raise_keep]
    | with_reducible refine keep_ite _ _ _ _ ?_ ?_
    | with_reducible refine keep_after_ite _ _ _ _ _ ?_ ?_
    | with_reducible refine (keep_foldl _ ?_ _ _).trans ?_
    | with_reducible refine (keep_foldl_snd _ ?_ _ _).trans ?_
    | (intros; simp only [*])
    | intro _
    | split)

/-! ### Mac.lean -/

theorem seqFrame_keep : ∀ a0 a1 a2, keep ((seqFrame a0 a1 a2).2) = keep a2 := by
  intro a0 a1 a2
  unfold seqFrame
  (repeat' split) <;> rfl

theorem macDeliver_keep : ∀ a0 a1 a2 a3 a4 a5 a6 a7, keep (macDeliver a0 a1 a2 a3 a4 a5 a6 a7) = keep a7 := by
  intro a0 a1 a2 a3 a4 a5 a6 a7
  unfold macDeliver
  (repeat' split) <;> simp only [↓keep_mk, ↓keep_fold, ↓id_eq, ↓after_next, ↓octetPut_keep, ↓powPeak_keep, ↓powTally_keep]

theorem macReceive_keep : ∀ a0 a1 a2 a3 a4 a5 a6, keep (macReceive a0 a1 a2 a3 a4 a5 a6) = keep a6 := by
  intro a0 a1 a2 a3 a4 a5 a6
  unfold macReceive
  repeat' (first
    | with_reducible rfl
    | with_reducible assumption
    | simp only [↓keep_mk, ↓keep_fold, ↓id_eq, ↓after_next, ↓bwAdd_keep, ↓macAdd_keep, ↓frameSeen_keep, ↓macAdds_keep, ↓twinCount_keep, ↓seqFrame_keep, ↓macDeliver_keep, ↓macsecValidate_keep]
    | simp only [*]
    | with_reducible refine keep_ite _ _ _ _ ?_ ?_
    | with_reducible refine keep_after_ite _ _ _ _ _ ?_ ?_
    | with_reducible refine keep_ite_snd _ _ _ _ ?_ ?_
    | with_reducible refine keep_ite_snd2 _ _ _ _ ?_ ?_
    | with_reducible refine (keep_foldl _ ?_ _ _).trans ?_
    | with_reducible refine (keep_foldl_snd _ ?_ _ _).trans ?_
    | (intros; simp only [*])
    | intro _
    | (split <;> try (rename_i h; first
        | (have k := (congrArg (fun p : _ × State => keep p.2) h).symm; simp only [↓keep_mk, ↓keep_fold, ↓id_eq, ↓after_next, ↓bwAdd_keep, ↓macAdd_keep, ↓frameSeen_keep, ↓macAdds_keep, ↓twinCount_keep, ↓seqFrame_keep, ↓macDeliver_keep, ↓macsecValidate_keep] at k)
        | (have k := (congrArg (fun p : _ × _ × State => keep p.2.2) h).symm; simp only [↓keep_mk, ↓keep_fold, ↓id_eq, ↓after_next, ↓bwAdd_keep, ↓macAdd_keep, ↓frameSeen_keep, ↓macAdds_keep, ↓twinCount_keep, ↓seqFrame_keep, ↓macDeliver_keep, ↓macsecValidate_keep] at k))))

theorem execFrameReceived_keep : ∀ a0 a1 a2 a3 a4 a5 a6 a7, keep (after (execFrameReceived a0 a1 a2 a3 a4 a5 a6 a7) a7) = keep a7 := by
  intro a0 a1 a2 a3 a4 a5 a6 a7
  unfold execFrameReceived
  simp only [↓keep_mk, ↓keep_fold, ↓id_eq, ↓after_next, ↓State_atTime_keep, ↓macReceive_keep]
  (repeat' split) <;> simp only [↓keep_mk, ↓keep_fold, ↓id_eq, ↓after_next, ↓State_atTime_keep, ↓macReceive_keep]

theorem staleReport_keep : ∀ a0 a1 a2 a3, keep (staleReport a0 a1 a2 a3) = keep a3 := by
  intro a0 a1 a2 a3
  unfold staleReport
  (repeat' split) <;> simp only [↓keep_mk, ↓keep_fold, ↓id_eq, ↓after_next, ↓raise_keep, ↓pipeCount_keep]

theorem execEpochStale_keep : ∀ a0 a1 a2, keep (after (execEpochStale a0 a1 a2) a2) = keep a2 := by
  intro a0 a1 a2
  unfold execEpochStale
  repeat' (first
    | with_reducible rfl
    | with_reducible assumption
    | simp only [↓keep_mk, ↓keep_fold, ↓id_eq, ↓after_next, ↓State_atTime_keep, ↓modFwd_keep, ↓modTd_keep, ↓capLost_keep, ↓releasePkt_keep, ↓reorderRelease_keep, ↓retireIn_keep, ↓staleReport_keep, ↓notSent_keep, ↓retireEg_keep]
    | with_reducible refine keep_ite _ _ _ _ ?_ ?_
    | with_reducible refine keep_after_ite _ _ _ _ _ ?_ ?_
    | with_reducible refine (keep_foldl _ ?_ _ _).trans ?_
    | with_reducible refine (keep_foldl_snd _ ?_ _ _).trans ?_
    | (intros; simp only [*])
    | intro _
    | split)

theorem execEgressPipelinePass_keep : ∀ a0 a1 a2, keep (after (execEgressPipelinePass a0 a1 a2) a2) = keep a2 := by
  intro a0 a1 a2
  unfold execEgressPipelinePass
  simp only [↓keep_mk, ↓keep_fold, ↓id_eq, ↓after_next, ↓State_atTime_keep, ↓notSent_keep, ↓modFwd_keep, ↓wakeDom_keep, ↓powTally_keep, ↓macAdd_keep, ↓samplePackets_keep, ↓bankEvent_keep, ↓pipeCount_keep, ↓schedCount_keep]
  (repeat' split) <;> simp only [↓keep_mk, ↓keep_fold, ↓id_eq, ↓after_next, ↓State_atTime_keep, ↓notSent_keep, ↓modFwd_keep, ↓wakeDom_keep, ↓powTally_keep, ↓macAdd_keep, ↓samplePackets_keep, ↓bankEvent_keep, ↓pipeCount_keep, ↓schedCount_keep]

theorem macSend_keep : ∀ a0 a1 a2 a3 a4, keep (macSend a0 a1 a2 a3 a4) = keep a4 := by
  intro a0 a1 a2 a3 a4
  unfold macSend
  repeat' (first
    | with_reducible rfl
    | with_reducible assumption
    | simp only [↓keep_mk, ↓keep_fold, ↓id_eq, ↓after_next, ↓timeCount_keep, ↓macsecProtect_keep, ↓notSent_keep, ↓macAdd_keep, ↓macCount_keep, ↓tsStore_keep, ↓macAdds_keep, ↓bwAdd_keep, ↓voqCompleted_keep, ↓emit_keep, ↓frameSeen_keep]
    | simp only [*]
    | with_reducible refine keep_ite _ _ _ _ ?_ ?_
    | with_reducible refine keep_after_ite _ _ _ _ _ ?_ ?_
    | with_reducible refine keep_ite_snd _ _ _ _ ?_ ?_
    | with_reducible refine keep_ite_snd2 _ _ _ _ ?_ ?_
    | with_reducible refine (keep_foldl _ ?_ _ _).trans ?_
    | with_reducible refine (keep_foldl_snd _ ?_ _ _).trans ?_
    | (intros; simp only [*])
    | intro _
    | (split <;> try (rename_i h; first
        | (have k := (congrArg (fun p : _ × State => keep p.2) h).symm; simp only [↓keep_mk, ↓keep_fold, ↓id_eq, ↓after_next, ↓timeCount_keep, ↓macsecProtect_keep, ↓notSent_keep, ↓macAdd_keep, ↓macCount_keep, ↓tsStore_keep, ↓macAdds_keep, ↓bwAdd_keep, ↓voqCompleted_keep, ↓emit_keep, ↓frameSeen_keep] at k)
        | (have k := (congrArg (fun p : _ × _ × State => keep p.2.2) h).symm; simp only [↓keep_mk, ↓keep_fold, ↓id_eq, ↓after_next, ↓timeCount_keep, ↓macsecProtect_keep, ↓notSent_keep, ↓macAdd_keep, ↓macCount_keep, ↓tsStore_keep, ↓macAdds_keep, ↓bwAdd_keep, ↓voqCompleted_keep, ↓emit_keep, ↓frameSeen_keep] at k))))

theorem sendNext_keep : ∀ a0 a1 a2 a3, keep (sendNext a0 a1 a2 a3) = keep a3 := by
  intro a0 a1 a2 a3
  unfold sendNext
  repeat' (first
    | with_reducible rfl
    | with_reducible assumption
    | simp only [↓keep_mk, ↓keep_fold, ↓id_eq, ↓after_next, ↓modFwd_keep, ↓notSent_keep, ↓macSend_keep, ↓macAdd_keep]
    | with_reducible refine keep_ite _ _ _ _ ?_ ?_
    | with_reducible refine keep_after_ite _ _ _ _ _ ?_ ?_
    | with_reducible refine (keep_foldl _ ?_ _ _).trans ?_
    | with_reducible refine (keep_foldl_snd _ ?_ _ _).trans ?_
    | (intros; simp only [*])
    | intro _
    | split)

theorem execFrameLaunch_keep : ∀ a0 a1 a2 a3, keep (after (execFrameLaunch a0 a1 a2 a3) a3) = keep a3 := by
  intro a0 a1 a2 a3
  unfold execFrameLaunch
  simp only [↓keep_mk, ↓keep_fold, ↓id_eq, ↓after_next, ↓State_atTime_keep, ↓sendNext_keep]
  (repeat' split) <;> simp only [↓keep_mk, ↓keep_fold, ↓id_eq, ↓after_next, ↓State_atTime_keep, ↓sendNext_keep]

theorem originate_keep : ∀ a0 a1 a2, keep (originate a0 a1 a2) = keep a2 := by
  intro a0 a1 a2
  unfold originate
  repeat' (first
    | with_reducible rfl
    | with_reducible assumption
    | simp only [↓keep_mk, ↓keep_fold, ↓id_eq, ↓after_next, ↓modTimePort_keep, ↓modFwd_keep, ↓modGate_keep, ↓macSend_keep]
    | with_reducible refine keep_ite _ _ _ _ ?_ ?_
    | with_reducible refine keep_after_ite _ _ _ _ _ ?_ ?_
    | with_reducible refine (keep_foldl _ ?_ _ _).trans ?_
    | with_reducible refine (keep_foldl_snd _ ?_ _ _).trans ?_
    | (intros; simp only [*])
    | intro _
    | split)

theorem execMacTransmitFrame_keep : ∀ a0 a1 a2 a3 a4, keep (after (execMacTransmitFrame a0 a1 a2 a3 a4) a4) = keep a4 := by
  intro a0 a1 a2 a3 a4
  unfold execMacTransmitFrame
  (repeat' split) <;> simp only [↓keep_mk, ↓keep_fold, ↓id_eq, ↓after_next, ↓State_atTime_keep, ↓originate_keep, ↓sendNext_keep]

/-! ### FaultOps.lean -/

theorem faultCount_keep : ∀ a0 a1 a2, keep (faultCount a0 a1 a2) = keep a2 := by
  intro a0 a1 a2
  unfold faultCount
  simp only [ctrAdd48_keep]

theorem raiseLogged_keep : ∀ a0 a1 a2 a3, keep (raiseLogged a0 a1 a2 a3) = keep a3 := by
  intro a0 a1 a2 a3
  unfold raiseLogged
  (repeat' split) <;> simp only [↓keep_mk, ↓keep_fold, ↓id_eq, ↓after_next, ↓raise_keep]

theorem errorReport_keep : ∀ a0 a1 a2 a3, keep (errorReport a0 a1 a2 a3) = keep a3 := by
  intro a0 a1 a2 a3
  unfold errorReport
  simp only [↓keep_mk, ↓keep_fold, ↓id_eq, ↓after_next, ↓faultCount_keep, ↓raiseLogged_keep, ↓raise_keep]
  (repeat' split) <;> simp only [↓keep_mk, ↓keep_fold, ↓id_eq, ↓after_next, ↓faultCount_keep, ↓raiseLogged_keep, ↓raise_keep]

theorem noteSuspect_keep : ∀ a0, keep (noteSuspect a0) = keep a0 := by
  intro a0
  unfold noteSuspect
  rfl

theorem testCount_keep : ∀ a0 a1 a2, keep (testCount a0 a1 a2) = keep a2 := by
  intro a0 a1 a2
  unfold testCount
  simp only [ctrAdd48_keep]

theorem zeroise_keep : ∀ a0 a1, keep (zeroise a0 a1) = keep a1 := by
  intro a0 a1
  unfold zeroise
  (repeat' split) <;> simp only [↓keep_mk, ↓keep_fold, ↓id_eq, ↓after_next, ↓raise_keep, ↓testCount_keep]

theorem isolate_keep : ∀ a0, keep (isolate a0) = keep a0 := by
  intro a0
  unfold isolate
  rfl

theorem dieClear_keep : ∀ a0 a1, keep (dieClear a0 a1) = keep a1 := by
  intro a0 a1
  unfold dieClear
  (repeat' split) <;> rfl

theorem dieReset_keep : ∀ a0, keep (dieReset a0) = keep a0 := by
  intro a0
  unfold dieReset
  rfl

theorem enterSafe_keep : ∀ a0 a1, keep (enterSafe a0 a1) = keep a1 := by
  intro a0 a1
  unfold enterSafe
  repeat' (first
    | with_reducible rfl
    | with_reducible assumption
    | simp only [↓keep_mk, ↓keep_fold, ↓id_eq, ↓after_next, ↓raiseLogged_keep, ↓setTwinFree_keep, ↓emit_keep, ↓zeroise_keep, ↓hostWrite_keep, ↓raise_keep, ↓syncEUpdate_keep, ↓dieReset_keep]
    | with_reducible refine keep_ite _ _ _ _ ?_ ?_
    | with_reducible refine keep_after_ite _ _ _ _ _ ?_ ?_
    | with_reducible refine (keep_foldl _ ?_ _ _).trans ?_
    | with_reducible refine (keep_foldl_snd _ ?_ _ _).trans ?_
    | (intros; simp only [*])
    | intro _
    | split)

theorem fenceCluster_keep : ∀ a0 a1, keep (fenceCluster a0 a1) = keep a1 := by
  intro a0 a1
  unfold fenceCluster
  simp only [↓keep_mk, ↓keep_fold, ↓id_eq, ↓after_next, ↓octetDown_keep, ↓hawserFails_keep, ↓raise_keep, ↓moveSlices_keep, ↓modPool_keep]
  (repeat' split) <;> simp only [↓keep_mk, ↓keep_fold, ↓id_eq, ↓after_next, ↓octetDown_keep, ↓hawserFails_keep, ↓raise_keep, ↓moveSlices_keep, ↓modPool_keep]

theorem errorAct_keep : ∀ a0 a1 a2 a3, keep (errorAct a0 a1 a2 a3) = keep a3 := by
  intro a0 a1 a2 a3
  unfold errorAct
  repeat' (first
    | with_reducible rfl
    | with_reducible assumption
    | simp only [↓keep_mk, ↓keep_fold, ↓id_eq, ↓after_next, ↓errorReport_keep, ↓bankEvent_keep, ↓noteSuspect_keep, ↓enterSafe_keep, ↓raise_keep, ↓fenceCluster_keep]
    | with_reducible refine keep_ite _ _ _ _ ?_ ?_
    | with_reducible refine keep_after_ite _ _ _ _ _ ?_ ?_
    | with_reducible refine (keep_foldl _ ?_ _ _).trans ?_
    | with_reducible refine (keep_foldl_snd _ ?_ _ _).trans ?_
    | (intros; simp only [*])
    | intro _
    | split)

/-! ### Transport.lean -/

theorem actTportCreate_keep (c : Ctx) (q : List Word) (s : State) : keep (actTportCreate c q s).st = keep s := by
  unfold actTportCreate
  simp only [↓keep_mk, ↓keep_fold, ↓id_eq, ↓after_next, ↓fail_keep, ↓created_keep, ↓portNodePut_keep, ↓parseReset_keep, ↓twinPortNew_keep]
  (repeat' split) <;> simp only [↓keep_mk, ↓keep_fold, ↓id_eq, ↓after_next, ↓fail_keep, ↓created_keep, ↓portNodePut_keep, ↓parseReset_keep, ↓twinPortNew_keep]

theorem execTportCreate_keep : ∀ a0 a1 a2, keep (after (execTportCreate a0 a1 a2) a2) = keep a2 := fun _ _ _ => runCommand_keep _ actTportCreate_keep _ _ _

theorem withTport_keep (x : Ctx) (q : List Word) (s : State) (f : Nat → TPort → Res) (hf : ∀ i p, keep (f i p).st = keep s) :
    keep (withTport x q s f).st = keep s := by
  unfold withTport
  simp only []
  split
  · exact hf _ _
  · split
    · exact done_keep _
    · exact fail_keep _ _

theorem actTportDelete_keep (c : Ctx) (q : List Word) (s : State) : keep (actTportDelete c q s).st = keep s := by
  unfold actTportDelete
  refine withTport_keep _ _ _ _ (fun i p => ?_)
  simp only [↓keep_mk, ↓keep_fold, ↓id_eq, ↓after_next, ↓fail_keep, ↓done_keep]
  (repeat' split) <;> simp only [↓keep_mk, ↓keep_fold, ↓id_eq, ↓after_next, ↓fail_keep, ↓done_keep]

theorem execTportDelete_keep : ∀ a0 a1 a2, keep (after (execTportDelete a0 a1 a2) a2) = keep a2 := fun _ _ _ => runCommand_keep _ actTportDelete_keep _ _ _

theorem modTport_keep : ∀ a0 a1 a2, keep (modTport a0 a1 a2) = keep a2 := by
  intro a0 a1 a2
  unfold modTport
  rfl

theorem tportService_keep : ∀ a0 a1 a2, keep (tportService a0 a1 a2) = keep a2 := by
  intro a0 a1 a2
  unfold tportService
  (repeat' split) <;> rfl

theorem actTportEnable_keep (c : Ctx) (q : List Word) (s : State) : keep (actTportEnable c q s).st = keep s := by
  unfold actTportEnable
  refine withTport_keep _ _ _ _ (fun i p => ?_)
  (repeat' split) <;> rfl

theorem execTportEnable_keep : ∀ a0 a1 a2, keep (after (execTportEnable a0 a1 a2) a2) = keep a2 := fun _ _ _ => runCommand_keep _ actTportEnable_keep _ _ _

theorem actTportDisable_keep (c : Ctx) (q : List Word) (s : State) : keep (actTportDisable c q s).st = keep s := by
  unfold actTportDisable
  refine withTport_keep _ _ _ _ (fun i p => ?_)
  (repeat' split) <;> rfl

theorem execTportDisable_keep : ∀ a0 a1 a2, keep (after (execTportDisable a0 a1 a2) a2) = keep a2 := fun _ _ _ => runCommand_keep _ actTportDisable_keep _ _ _

theorem clientPut_keep : ∀ a0 a1 a2, keep (clientPut a0 a1 a2) = keep a2 := by
  intro a0 a1 a2
  unfold clientPut
  (repeat' split) <;> simp only [↓keep_mk, ↓keep_fold, ↓id_eq, ↓after_next, ↓parseReset_keep]

theorem actOduCreate_keep (c : Ctx) (q : List Word) (s : State) : keep (actOduCreate c q s).st = keep s := by
  unfold actOduCreate
  simp only [↓keep_mk, ↓keep_fold, ↓id_eq, ↓after_next, ↓fail_keep, ↓clientNodePut_keep, ↓clientPut_keep, ↓clientsUpdate_keep, ↓spreadSsf_keep, ↓putDefect_keep]
  (repeat' split) <;> simp only [↓keep_mk, ↓keep_fold, ↓id_eq, ↓after_next, ↓fail_keep, ↓clientNodePut_keep, ↓clientPut_keep, ↓clientsUpdate_keep, ↓spreadSsf_keep, ↓putDefect_keep]

theorem execOduCreate_keep : ∀ a0 a1 a2, keep (after (execOduCreate a0 a1 a2) a2) = keep a2 := fun _ _ _ => runCommand_keep _ actOduCreate_keep _ _ _

theorem actOduDelete_keep (c : Ctx) (q : List Word) (s : State) : keep (actOduDelete c q s).st = keep s := by
  unfold actOduDelete
  simp only [↓keep_mk, ↓keep_fold, ↓id_eq, ↓after_next, ↓done_keep, ↓fail_keep, ↓clientNodeDrop_keep]
  (repeat' split) <;> simp only [↓keep_mk, ↓keep_fold, ↓id_eq, ↓after_next, ↓done_keep, ↓fail_keep, ↓clientNodeDrop_keep]

theorem execOduDelete_keep : ∀ a0 a1 a2, keep (after (execOduDelete a0 a1 a2) a2) = keep a2 := fun _ _ _ => runCommand_keep _ actOduDelete_keep _ _ _

theorem actSdhPathCreate_keep (c : Ctx) (q : List Word) (s : State) : keep (actSdhPathCreate c q s).st = keep s := by
  unfold actSdhPathCreate
  simp only [↓keep_mk, ↓keep_fold, ↓id_eq, ↓after_next, ↓fail_keep, ↓created_keep, ↓putDefect_keep]
  (repeat' split) <;> simp only [↓keep_mk, ↓keep_fold, ↓id_eq, ↓after_next, ↓fail_keep, ↓created_keep, ↓putDefect_keep]

theorem execSdhPathCreate_keep : ∀ a0 a1 a2, keep (after (execSdhPathCreate a0 a1 a2) a2) = keep a2 := fun _ _ _ => runCommand_keep _ actSdhPathCreate_keep _ _ _

theorem actSdhPathDelete_keep (c : Ctx) (q : List Word) (s : State) : keep (actSdhPathDelete c q s).st = keep s := by
  unfold actSdhPathDelete
  simp only [↓keep_mk, ↓keep_fold, ↓id_eq, ↓after_next, ↓done_keep, ↓fail_keep]
  (repeat' split) <;> simp only [↓keep_mk, ↓keep_fold, ↓id_eq, ↓after_next, ↓done_keep, ↓fail_keep]

theorem execSdhPathDelete_keep : ∀ a0 a1 a2, keep (after (execSdhPathDelete a0 a1 a2) a2) = keep a2 := fun _ _ _ => runCommand_keep _ actSdhPathDelete_keep _ _ _

theorem withMon_keep (x : Ctx) (q : List Word) (s : State) (f : Nat → Mon → Res) (hf : ∀ i p, keep (f i p).st = keep s) :
    keep (withMon x q s f).st = keep s := by
  unfold withMon
  simp only []
  split
  · exact hf _ _
  · split
    · exact done_keep _
    · exact fail_keep _ _

theorem actTraceSet_keep (c : Ctx) (q : List Word) (s : State) : keep (actTraceSet c q s).st = keep s := by
  unfold actTraceSet
  refine withMon_keep _ _ _ _ (fun i p => ?_)
  (repeat' split) <;> simp only [↓keep_mk, ↓keep_fold, ↓id_eq, ↓after_next, ↓fail_keep, ↓modMon_keep, ↓done_keep, ↓defectsChanged_keep, ↓timJudge_keep]

theorem execTraceSet_keep : ∀ a0 a1 a2, keep (after (execTraceSet a0 a1 a2) a2) = keep a2 := fun _ _ _ => runCommand_keep _ actTraceSet_keep _ _ _

theorem actTraceGet_keep (c : Ctx) (q : List Word) (s : State) : keep (actTraceGet c q s).st = keep s := by
  unfold actTraceGet
  refine withMon_keep _ _ _ _ (fun i p => ?_)
  rfl

theorem execTraceGet_keep : ∀ a0 a1 a2, keep (after (execTraceGet a0 a1 a2) a2) = keep a2 := fun _ _ _ => runCommand_keep _ actTraceGet_keep _ _ _

theorem actMonSet_keep (c : Ctx) (q : List Word) (s : State) : keep (actMonSet c q s).st = keep s := by
  unfold actMonSet
  refine withMon_keep _ _ _ _ (fun i p => ?_)
  (repeat' split) <;> simp only [↓keep_mk, ↓keep_fold, ↓id_eq, ↓after_next, ↓fail_keep, ↓done_keep, ↓defectsChanged_keep, ↓modMon_keep]

theorem execMonSet_keep : ∀ a0 a1 a2, keep (after (execMonSet a0 a1 a2) a2) = keep a2 := fun _ _ _ => runCommand_keep _ actMonSet_keep _ _ _

theorem actDefectStatus_keep (c : Ctx) (q : List Word) (s : State) : keep (actDefectStatus c q s).st = keep s := by
  unfold actDefectStatus
  refine withMon_keep _ _ _ _ (fun i p => ?_)
  rfl

theorem execDefectStatus_keep : ∀ a0 a1 a2, keep (after (execDefectStatus a0 a1 a2) a2) = keep a2 := fun _ _ _ => runCommand_keep _ actDefectStatus_keep _ _ _

theorem actPmRead_keep (c : Ctx) (q : List Word) (s : State) : keep (actPmRead c q s).st = keep s := by
  unfold actPmRead
  refine withMon_keep _ _ _ _ (fun i p => ?_)
  simp only [↓keep_mk, ↓keep_fold, ↓id_eq, ↓after_next, ↓fail_keep, ↓reply_keep]
  (repeat' split) <;> simp only [↓keep_mk, ↓keep_fold, ↓id_eq, ↓after_next, ↓fail_keep, ↓reply_keep]

theorem execPmRead_keep : ∀ a0 a1 a2, keep (after (execPmRead a0 a1 a2) a2) = keep a2 := fun _ _ _ => runCommand_keep _ actPmRead_keep _ _ _

theorem actProtCreate_keep (c : Ctx) (q : List Word) (s : State) : keep (actProtCreate c q s).st = keep s := by
  unfold actProtCreate
  simp only [↓keep_mk, ↓keep_fold, ↓id_eq, ↓after_next, ↓fail_keep, ↓created_keep, ↓protStep_keep]
  (repeat' split) <;> simp only [↓keep_mk, ↓keep_fold, ↓id_eq, ↓after_next, ↓fail_keep, ↓created_keep, ↓protStep_keep]

theorem execProtCreate_keep : ∀ a0 a1 a2, keep (after (execProtCreate a0 a1 a2) a2) = keep a2 := fun _ _ _ => runCommand_keep _ actProtCreate_keep _ _ _

theorem withProt_keep (x : Ctx) (q : List Word) (s : State) (f : Nat → Prot → Res) (hf : ∀ i p, keep (f i p).st = keep s) :
    keep (withProt x q s f).st = keep s := by
  unfold withProt
  simp only []
  split
  · exact hf _ _
  · split
    · exact done_keep _
    · exact fail_keep _ _

theorem actProtDelete_keep (c : Ctx) (q : List Word) (s : State) : keep (actProtDelete c q s).st = keep s := by
  unfold actProtDelete
  refine withProt_keep _ _ _ _ (fun i p => ?_)
  (repeat' split) <;> simp only [↓keep_mk, ↓keep_fold, ↓id_eq, ↓after_next, ↓putProt_keep, ↓done_keep]

theorem execProtDelete_keep : ∀ a0 a1 a2, keep (after (execProtDelete a0 a1 a2) a2) = keep a2 := fun _ _ _ => runCommand_keep _ actProtDelete_keep _ _ _

theorem actProtRequest_keep (c : Ctx) (q : List Word) (s : State) : keep (actProtRequest c q s).st = keep s := by
  unfold actProtRequest
  refine withProt_keep _ _ _ _ (fun i p => ?_)
  (repeat' split) <;> simp only [↓keep_mk, ↓keep_fold, ↓id_eq, ↓after_next, ↓fail_keep, ↓done_keep, ↓putProt_keep]

theorem execProtRequest_keep : ∀ a0 a1 a2, keep (after (execProtRequest a0 a1 a2) a2) = keep a2 := fun _ _ _ => runCommand_keep _ actProtRequest_keep _ _ _

theorem actProtStatus_keep (c : Ctx) (q : List Word) (s : State) : keep (actProtStatus c q s).st = keep s := by
  unfold actProtStatus
  refine withProt_keep _ _ _ _ (fun i p => ?_)
  rfl

theorem execProtStatus_keep : ∀ a0 a1 a2, keep (after (execProtStatus a0 a1 a2) a2) = keep a2 := fun _ _ _ => runCommand_keep _ actProtStatus_keep _ _ _

theorem takeLanes_keep : ∀ a0 a1 a2, keep (takeLanes a0 a1 a2) = keep a2 := by
  intro a0 a1 a2
  unfold takeLanes
  (repeat' split) <;> rfl

theorem defectRow_keep : ∀ a0 a1 a2 a3 a4, keep (defectRow a0 a1 a2 a3 a4) = keep a4 := by
  intro a0 a1 a2 a3 a4
  unfold defectRow
  simp only [↓keep_mk, ↓keep_fold, ↓id_eq, ↓after_next, ↓takeLabel_keep, ↓takeLanes_keep, ↓putDefect_keep, ↓defectsChanged_keep]
  (repeat' split) <;> simp only [↓keep_mk, ↓keep_fold, ↓id_eq, ↓after_next, ↓takeLabel_keep, ↓takeLanes_keep, ↓putDefect_keep, ↓defectsChanged_keep]

theorem execDefectSet_keep : ∀ a0 a1 a2 a3 a4, keep (after (execDefectSet a0 a1 a2 a3 a4) a4) = keep a4 := by
  intro a0 a1 a2 a3 a4
  unfold execDefectSet
  simp only [↓keep_mk, ↓keep_fold, ↓id_eq, ↓after_next, ↓State_atTime_keep, ↓defectRow_keep]
  (repeat' split) <;> simp only [↓keep_mk, ↓keep_fold, ↓id_eq, ↓after_next, ↓State_atTime_keep, ↓defectRow_keep]

theorem execDefectClear_keep : ∀ a0 a1 a2 a3 a4, keep (after (execDefectClear a0 a1 a2 a3 a4) a4) = keep a4 := by
  intro a0 a1 a2 a3 a4
  unfold execDefectClear
  simp only [↓keep_mk, ↓keep_fold, ↓id_eq, ↓after_next, ↓State_atTime_keep, ↓defectRow_keep]
  (repeat' split) <;> simp only [↓keep_mk, ↓keep_fold, ↓id_eq, ↓after_next, ↓State_atTime_keep, ↓defectRow_keep]

theorem execTraceAccepted_keep : ∀ a0 a1 a2 a3, keep (after (execTraceAccepted a0 a1 a2 a3) a3) = keep a3 := by
  intro a0 a1 a2 a3
  unfold execTraceAccepted
  simp only [↓keep_mk, ↓keep_fold, ↓id_eq, ↓after_next, ↓State_atTime_keep, ↓modMon_keep, ↓raise_keep, ↓timJudge_keep]
  (repeat' split) <;> simp only [↓keep_mk, ↓keep_fold, ↓id_eq, ↓after_next, ↓State_atTime_keep, ↓modMon_keep, ↓raise_keep, ↓timJudge_keep]

theorem execTimPersistenceExpiry_keep : ∀ a0 a1 a2, keep (after (execTimPersistenceExpiry a0 a1 a2) a2) = keep a2 := by
  intro a0 a1 a2
  unfold execTimPersistenceExpiry
  simp only [↓keep_mk, ↓keep_fold, ↓id_eq, ↓after_next, ↓State_atTime_keep, ↓timJudge_keep]
  (repeat' split) <;> simp only [↓keep_mk, ↓keep_fold, ↓id_eq, ↓after_next, ↓State_atTime_keep, ↓timJudge_keep]

theorem execHoldoffExpiry_keep : ∀ a0 a1 a2, keep (after (execHoldoffExpiry a0 a1 a2) a2) = keep a2 := by
  intro a0 a1 a2
  unfold execHoldoffExpiry
  simp only [↓keep_mk, ↓keep_fold, ↓id_eq, ↓after_next, ↓State_atTime_keep, ↓putProt_keep]
  (repeat' split) <;> simp only [↓keep_mk, ↓keep_fold, ↓id_eq, ↓after_next, ↓State_atTime_keep, ↓putProt_keep]

theorem execWtrExpiry_keep : ∀ a0 a1 a2, keep (after (execWtrExpiry a0 a1 a2) a2) = keep a2 := by
  intro a0 a1 a2
  unfold execWtrExpiry
  simp only [↓keep_mk, ↓keep_fold, ↓id_eq, ↓after_next, ↓State_atTime_keep, ↓putProt_keep]
  (repeat' split) <;> simp only [↓keep_mk, ↓keep_fold, ↓id_eq, ↓after_next, ↓State_atTime_keep, ↓putProt_keep]

theorem setFop_keep : ∀ a0 a1 a2, keep (setFop a0 a1 a2) = keep a2 := by
  intro a0 a1 a2
  unfold setFop
  (repeat' split) <;> simp only [↓keep_mk, ↓keep_fold, ↓id_eq, ↓after_next, ↓raise_keep]

theorem execApsKBytesAccepted_keep : ∀ a0 a1 a2 a3 a4, keep (after (execApsKBytesAccepted a0 a1 a2 a3 a4) a4) = keep a4 := by
  intro a0 a1 a2 a3 a4
  unfold execApsKBytesAccepted
  simp only [↓keep_mk, ↓keep_fold, ↓id_eq, ↓after_next, ↓State_atTime_keep, ↓setFop_keep, ↓putProt_keep]
  (repeat' split) <;> simp only [↓keep_mk, ↓keep_fold, ↓id_eq, ↓after_next, ↓State_atTime_keep, ↓setFop_keep, ↓putProt_keep]

theorem execApsBridgeTimeout_keep : ∀ a0 a1 a2, keep (after (execApsBridgeTimeout a0 a1 a2) a2) = keep a2 := by
  intro a0 a1 a2
  unfold execApsBridgeTimeout
  simp only [↓keep_mk, ↓keep_fold, ↓id_eq, ↓after_next, ↓State_atTime_keep, ↓protStep_keep, ↓setFop_keep]
  (repeat' split) <;> simp only [↓keep_mk, ↓keep_fold, ↓id_eq, ↓after_next, ↓State_atTime_keep, ↓protStep_keep, ↓setFop_keep]

/-! ### PowerOps.lean -/

theorem setDom_keep : ∀ a0 a1 a2, keep (setDom a0 a1 a2) = keep a2 := by
  intro a0 a1 a2
  unfold setDom
  simp only [↓keep_mk, ↓keep_fold, ↓id_eq, ↓after_next, ↓modDom_keep, ↓raise_keep]
  (repeat' split) <;> simp only [↓keep_mk, ↓keep_fold, ↓id_eq, ↓after_next, ↓modDom_keep, ↓raise_keep]

theorem tideStates_keep : ∀ a0, keep (tideStates a0) = keep a0 := by
  intro a0
  unfold tideStates
  repeat' (first
    | with_reducible rfl
    | with_reducible assumption
    | simp only [↓keep_mk, ↓keep_fold, ↓id_eq, ↓after_next, ↓modDom_keep, ↓powCount_keep]
    | with_reducible refine keep_ite _ _ _ _ ?_ ?_
    | with_reducible refine keep_after_ite _ _ _ _ _ ?_ ?_
    | with_reducible refine (keep_foldl _ ?_ _ _).trans ?_
    | with_reducible refine (keep_foldl_snd _ ?_ _ _).trans ?_
    | (intros; simp only [*])
    | intro _
    | split)

theorem powerOn_keep : ∀ a0 a1, keep (powerOn a0 a1) = keep a1 := by
  intro k s
  unfold powerOn
  refine Eq.trans (keep_foldl _ (fun u e => ?_) _ _) (keep_foldl _ (fun u e => ?_) _ _)
  · simp only [raise_keep, powCount_keep, modTport_keep]
  · simp only [raise_keep, powCount_keep, modPort_keep]

theorem powerOff_keep : ∀ a0 a1, keep (powerOff a0 a1) = keep a1 := by
  intro a0 a1
  unfold powerOff
  repeat' (first
    | with_reducible rfl
    | with_reducible assumption
    | simp only [↓keep_mk, ↓keep_fold, ↓id_eq, ↓after_next, ↓modPort_keep, ↓declareLink_keep, ↓raise_keep, ↓powCount_keep, ↓putDefect_keep, ↓modTport_keep, ↓linkChanged_keep]
    | simp only [*]
    | with_reducible refine keep_ite _ _ _ _ ?_ ?_
    | with_reducible refine keep_after_ite _ _ _ _ _ ?_ ?_
    | with_reducible refine keep_ite_snd _ _ _ _ ?_ ?_
    | with_reducible refine keep_ite_snd2 _ _ _ _ ?_ ?_
    | with_reducible refine (keep_foldl _ ?_ _ _).trans ?_
    | with_reducible refine (keep_foldl_snd _ ?_ _ _).trans ?_
    | (intros; simp only [*])
    | intro _
    | (split <;> try (rename_i h; first
        | (have k := (congrArg (fun p : _ × State => keep p.2) h).symm; simp only [↓keep_mk, ↓keep_fold, ↓id_eq, ↓after_next, ↓modPort_keep, ↓declareLink_keep, ↓raise_keep, ↓powCount_keep, ↓putDefect_keep, ↓modTport_keep, ↓linkChanged_keep] at k)
        | (have k := (congrArg (fun p : _ × _ × State => keep p.2.2) h).symm; simp only [↓keep_mk, ↓keep_fold, ↓id_eq, ↓after_next, ↓modPort_keep, ↓declareLink_keep, ↓raise_keep, ↓powCount_keep, ↓putDefect_keep, ↓modTport_keep, ↓linkChanged_keep] at k))))

theorem portPowerBoundary_keep : ∀ a0, keep (portPowerBoundary a0) = keep a0 := by
  intro a0
  unfold portPowerBoundary
  repeat' (first
    | with_reducible rfl
    | with_reducible assumption
    | simp only [↓keep_mk, ↓keep_fold, ↓id_eq, ↓after_next, ↓powerOn_keep, ↓powerOff_keep]
    | with_reducible refine keep_ite _ _ _ _ ?_ ?_
    | with_reducible refine keep_after_ite _ _ _ _ _ ?_ ?_
    | with_reducible refine (keep_foldl _ ?_ _ _).trans ?_
    | with_reducible refine (keep_foldl_snd _ ?_ _ _).trans ?_
    | (intros; simp only [*])
    | intro _
    | split)

theorem concentrate_keep : ∀ a0 a1 a2 a3, keep (concentrate a0 a1 a2 a3) = keep a3 := by
  intro a0 a1 a2 a3
  unfold concentrate
  (repeat' split) <;> simp only [↓keep_mk, ↓keep_fold, ↓id_eq, ↓after_next, ↓raise_keep, ↓powCount_keep, ↓moveSlices_keep]

theorem concentrationBoundary_keep : ∀ a0, keep (concentrationBoundary a0) = keep a0 := by
  intro a0
  unfold concentrationBoundary
  repeat' (first
    | with_reducible rfl
    | with_reducible assumption
    | simp only [↓keep_mk, ↓keep_fold, ↓id_eq, ↓after_next, ↓concentrate_keep]
    | with_reducible refine keep_ite _ _ _ _ ?_ ?_
    | with_reducible refine keep_after_ite _ _ _ _ _ ?_ ?_
    | with_reducible refine (keep_foldl _ ?_ _ _).trans ?_
    | with_reducible refine (keep_foldl_snd _ ?_ _ _).trans ?_
    | (intros; simp only [*])
    | intro _
    | split)

theorem governDom_keep : ∀ a0 a1 a2 a3, keep (governDom a0 a1 a2 a3) = keep a3 := by
  intro a0 a1 a2 a3
  unfold governDom
  repeat' (first
    | with_reducible rfl
    | with_reducible assumption
    | simp only [↓keep_mk, ↓keep_fold, ↓id_eq, ↓after_next, ↓powCount_keep, ↓modDom_keep, ↓setDom_keep, ↓wakeDom_keep]
    | with_reducible refine keep_ite _ _ _ _ ?_ ?_
    | with_reducible refine keep_after_ite _ _ _ _ _ ?_ ?_
    | with_reducible refine (keep_foldl _ ?_ _ _).trans ?_
    | with_reducible refine (keep_foldl_snd _ ?_ _ _).trans ?_
    | (intros; simp only [*])
    | intro _
    | split)

theorem governorFloors_keep : ∀ a0, keep (governorFloors a0) = keep a0 := by
  intro a0
  unfold governorFloors
  repeat' (first
    | with_reducible rfl
    | with_reducible assumption
    | simp only [↓keep_mk, ↓keep_fold, ↓id_eq, ↓after_next, ↓governDom_keep]
    | with_reducible refine keep_ite _ _ _ _ ?_ ?_
    | with_reducible refine keep_after_ite _ _ _ _ _ ?_ ?_
    | with_reducible refine (keep_foldl _ ?_ _ _).trans ?_
    | with_reducible refine (keep_foldl_snd _ ?_ _ _).trans ?_
    | (intros; simp only [*])
    | intro _
    | split)

/-! ### BootOps.lean -/

theorem porst_keep : ∀ a0, keep (porst a0) = keep a0 := by
  intro a0
  unfold porst
  rfl

theorem dirWrite_keep : ∀ a0 a1, keep (dirWrite a0 a1) = keep a1 := by
  intro a0 a1
  unfold dirWrite
  rfl

theorem upgradeFailed_keep : ∀ a0 a1 a2, keep (upgradeFailed a0 a1 a2) = keep a2 := by
  intro a0 a1 a2
  unfold upgradeFailed
  simp only [raise_keep]

theorem slotState_keep : ∀ a0 a1 a2, keep (slotState a0 a1 a2) = keep a2 := by
  intro a0 a1 a2
  unfold slotState
  rfl

theorem bootNext_keep : ∀ a0 a1, keep (bootNext a0 a1) = keep a1 := by
  intro l
  induction l with
  | nil => intro s; exact enterSafe_keep _ _
  | cons i r ih =>
    intro s
    unfold bootNext
    refine keep_ite _ _ _ _ rfl ?_
    rw [ih, upgradeFailed_keep, slotState_keep]

theorem bootStart_keep : ∀ a0 a1, keep (bootStart a0 a1) = keep a1 := by
  intro a0 a1
  unfold bootStart
  simp only [↓keep_mk, ↓keep_fold, ↓id_eq, ↓after_next, ↓dirWrite_keep, ↓bootNext_keep]
  (repeat' split) <;> simp only [↓keep_mk, ↓keep_fold, ↓id_eq, ↓after_next, ↓dirWrite_keep, ↓bootNext_keep]

theorem poolInit_keep : ∀ a0 a1, keep (poolInit a0 a1) = keep a1 := by
  intro a0 a1
  unfold poolInit
  (repeat' split) <;> simp only [↓keep_mk, ↓keep_fold, ↓id_eq, ↓after_next, ↓poolCount_keep, ↓modPool_keep, ↓partGrow_keep, ↓poolCheck_keep]

theorem lowerIsolation_keep : ∀ a0, keep (lowerIsolation a0) = keep a0 := by
  intro a0
  unfold lowerIsolation
  (repeat' split) <;> rfl

theorem readyState_keep : ∀ a0, keep (readyState a0) = keep a0 := by
  intro a0
  unfold readyState
  repeat' (first
    | with_reducible rfl
    | with_reducible assumption
    | simp only [↓keep_mk, ↓keep_fold, ↓id_eq, ↓after_next, ↓poolInit_keep, ↓lowerIsolation_keep, ↓setDom_keep, ↓modDom_keep]
    | with_reducible refine keep_ite _ _ _ _ ?_ ?_
    | with_reducible refine keep_after_ite _ _ _ _ _ ?_ ?_
    | with_reducible refine (keep_foldl _ ?_ _ _).trans ?_
    | with_reducible refine (keep_foldl_snd _ ?_ _ _).trans ?_
    | (intros; simp only [*])
    | intro _
    | split)

theorem firmwareReady_keep : ∀ a0 a1, keep (firmwareReady a0 a1) = keep a1 := by
  intro a0 a1
  unfold firmwareReady
  (repeat' split) <;> simp only [↓keep_mk, ↓keep_fold, ↓id_eq, ↓after_next, ↓raise_keep]

theorem reverted_keep : ∀ a0 a1 a2, keep (reverted a0 a1 a2) = keep a2 := by
  intro a0 a1 a2
  unfold reverted
  simp only [raise_keep]

end Sys2Proof.Machine
end

