-- ==== Sys2Proof/Laws/KeepPipeline.lean ====
section
/-! SUPPORT. Each function of the pipeline commands, start-up and circuits keeps the lifecycle state and the queue of waiting commands (R500). -/

namespace Sys2Proof.Machine

open Sys2Proof

set_option maxRecDepth 4000
set_option linter.unusedSimpArgs false

/-! ### Pipeline.lean -/

theorem discardTxns_keep : ∀ a0 a1, keep (discardTxns a0 a1) = keep a1 := by
  intro a0 a1
  unfold discardTxns
  repeat' (first
    | with_reducible rfl
    | with_reducible assumption
    | simp only [↓keep_mk, ↓keep_fold, ↓id_eq, ↓after_next, ↓raise_keep, ↓putTxn_keep]
    | with_reducible refine keep_ite _ _ _ _ ?_ ?_
    | with_reducible refine keep_after_ite _ _ _ _ _ ?_ ?_
    | with_reducible refine (keep_foldl _ ?_ _ _).trans ?_
    | with_reducible refine (keep_foldl_snd _ ?_ _ _).trans ?_
    | (intros; simp only [*])
    | intro _
    | split)

theorem actProfileSet_keep (c : Ctx) (q : List Word) (s : State) : keep (actProfileSet c q s).st = keep s := by
  unfold actProfileSet
  simp only [↓keep_mk, ↓keep_fold, ↓id_eq, ↓after_next, ↓fail_keep, ↓done_keep, ↓modFwd_keep, ↓discardTables_keep, ↓discardTxns_keep, ↓raise_keep, ↓modLearn_keep]
  (repeat' split) <;> simp only [↓keep_mk, ↓keep_fold, ↓id_eq, ↓after_next, ↓fail_keep, ↓done_keep, ↓modFwd_keep, ↓discardTables_keep, ↓discardTxns_keep, ↓raise_keep, ↓modLearn_keep]

theorem execProfileSet_keep : ∀ a0 a1 a2, keep (after (execProfileSet a0 a1 a2) a2) = keep a2 := fun _ _ _ => runCommand_keep _ actProfileSet_keep _ _ _

theorem actProfileGet_keep (c : Ctx) (q : List Word) (s : State) : keep (actProfileGet c q s).st = keep s := by
  unfold actProfileGet
  rfl

theorem execProfileGet_keep : ∀ a0 a1 a2, keep (after (execProfileGet a0 a1 a2) a2) = keep a2 := fun _ _ _ => runCommand_keep _ actProfileGet_keep _ _ _

theorem actParserLoad_keep (c : Ctx) (q : List Word) (s : State) : keep (actParserLoad c q s).st = keep s := by
  unfold actParserLoad
  simp only [↓keep_mk, ↓keep_fold, ↓id_eq, ↓after_next, ↓fail_keep, ↓done_keep, ↓setCfg_keep]
  (repeat' split) <;> simp only [↓keep_mk, ↓keep_fold, ↓id_eq, ↓after_next, ↓fail_keep, ↓done_keep, ↓setCfg_keep]

theorem execParserLoad_keep : ∀ a0 a1 a2, keep (after (execParserLoad a0 a1 a2) a2) = keep a2 := fun _ _ _ => runCommand_keep _ actParserLoad_keep _ _ _

theorem actParserPortSet_keep (c : Ctx) (q : List Word) (s : State) : keep (actParserPortSet c q s).st = keep s := by
  unfold actParserPortSet
  (repeat' split) <;> rfl

theorem execParserPortSet_keep : ∀ a0 a1 a2, keep (after (execParserPortSet a0 a1 a2) a2) = keep a2 := fun _ _ _ => runCommand_keep _ actParserPortSet_keep _ _ _

theorem actIfSet_keep (c : Ctx) (q : List Word) (s : State) : keep (actIfSet c q s).st = keep s := by
  unfold actIfSet
  (repeat' split) <;> simp only [↓keep_mk, ↓keep_fold, ↓id_eq, ↓after_next, ↓fail_keep, ↓done_keep, ↓setCfg_keep]

theorem execIfSet_keep : ∀ a0 a1 a2, keep (after (execIfSet a0 a1 a2) a2) = keep a2 := fun _ _ _ => runCommand_keep _ actIfSet_keep _ _ _

theorem actLkpKeySet_keep (c : Ctx) (q : List Word) (s : State) : keep (actLkpKeySet c q s).st = keep s := by
  unfold actLkpKeySet
  simp only [↓keep_mk, ↓keep_fold, ↓id_eq, ↓after_next, ↓fail_keep, ↓done_keep, ↓setCfg_keep]
  (repeat' split) <;> simp only [↓keep_mk, ↓keep_fold, ↓id_eq, ↓after_next, ↓fail_keep, ↓done_keep, ↓setCfg_keep]

theorem execLkpKeySet_keep : ∀ a0 a1 a2, keep (after (execLkpKeySet a0 a1 a2) a2) = keep a2 := fun _ _ _ => runCommand_keep _ actLkpKeySet_keep _ _ _

theorem actLkpProgramSet_keep (c : Ctx) (q : List Word) (s : State) : keep (actLkpProgramSet c q s).st = keep s := by
  unfold actLkpProgramSet
  simp only [↓keep_mk, ↓keep_fold, ↓id_eq, ↓after_next, ↓fail_keep, ↓done_keep, ↓setCfg_keep]
  (repeat' split) <;> simp only [↓keep_mk, ↓keep_fold, ↓id_eq, ↓after_next, ↓fail_keep, ↓done_keep, ↓setCfg_keep]

theorem execLkpProgramSet_keep : ∀ a0 a1 a2, keep (after (execLkpProgramSet a0 a1 a2) a2) = keep a2 := fun _ _ _ => runCommand_keep _ actLkpProgramSet_keep _ _ _

theorem actNhCreate_keep (c : Ctx) (q : List Word) (s : State) : keep (actNhCreate c q s).st = keep s := by
  unfold actNhCreate
  simp only [↓keep_mk, ↓keep_fold, ↓id_eq, ↓after_next, ↓fail_keep, ↓created_keep, ↓setCfg_keep]
  (repeat' split) <;> simp only [↓keep_mk, ↓keep_fold, ↓id_eq, ↓after_next, ↓fail_keep, ↓created_keep, ↓setCfg_keep]

theorem execNhCreate_keep : ∀ a0 a1 a2, keep (after (execNhCreate a0 a1 a2) a2) = keep a2 := fun _ _ _ => runCommand_keep _ actNhCreate_keep _ _ _

theorem actNhSet_keep (c : Ctx) (q : List Word) (s : State) : keep (actNhSet c q s).st = keep s := by
  unfold actNhSet
  simp only [↓keep_mk, ↓keep_fold, ↓id_eq, ↓after_next, ↓fail_keep, ↓done_keep, ↓ecmpUpdate_keep, ↓setCfg_keep]
  (repeat' split) <;> simp only [↓keep_mk, ↓keep_fold, ↓id_eq, ↓after_next, ↓fail_keep, ↓done_keep, ↓ecmpUpdate_keep, ↓setCfg_keep]

theorem execNhSet_keep : ∀ a0 a1 a2, keep (after (execNhSet a0 a1 a2) a2) = keep a2 := fun _ _ _ => runCommand_keep _ actNhSet_keep _ _ _

theorem actNhDelete_keep (c : Ctx) (q : List Word) (s : State) : keep (actNhDelete c q s).st = keep s := by
  unfold actNhDelete
  simp only [↓keep_mk, ↓keep_fold, ↓id_eq, ↓after_next, ↓fail_keep, ↓done_keep, ↓setCfg_keep]
  (repeat' split) <;> simp only [↓keep_mk, ↓keep_fold, ↓id_eq, ↓after_next, ↓fail_keep, ↓done_keep, ↓setCfg_keep]

theorem execNhDelete_keep : ∀ a0 a1 a2, keep (after (execNhDelete a0 a1 a2) a2) = keep a2 := fun _ _ _ => runCommand_keep _ actNhDelete_keep _ _ _

theorem actEncapCreate_keep (c : Ctx) (q : List Word) (s : State) : keep (actEncapCreate c q s).st = keep s := by
  unfold actEncapCreate
  (repeat' split) <;> simp only [↓keep_mk, ↓keep_fold, ↓id_eq, ↓after_next, ↓fail_keep, ↓created_keep, ↓setCfg_keep]

theorem execEncapCreate_keep : ∀ a0 a1 a2, keep (after (execEncapCreate a0 a1 a2) a2) = keep a2 := fun _ _ _ => runCommand_keep _ actEncapCreate_keep _ _ _

theorem actEncapDelete_keep (c : Ctx) (q : List Word) (s : State) : keep (actEncapDelete c q s).st = keep s := by
  unfold actEncapDelete
  simp only [↓keep_mk, ↓keep_fold, ↓id_eq, ↓after_next, ↓fail_keep, ↓done_keep, ↓setCfg_keep]
  (repeat' split) <;> simp only [↓keep_mk, ↓keep_fold, ↓id_eq, ↓after_next, ↓fail_keep, ↓done_keep, ↓setCfg_keep]

theorem execEncapDelete_keep : ∀ a0 a1 a2, keep (after (execEncapDelete a0 a1 a2) a2) = keep a2 := fun _ _ _ => runCommand_keep _ actEncapDelete_keep _ _ _

theorem actEcmpCreate_keep (c : Ctx) (q : List Word) (s : State) : keep (actEcmpCreate c q s).st = keep s := by
  unfold actEcmpCreate
  simp only [↓keep_mk, ↓keep_fold, ↓id_eq, ↓after_next, ↓fail_keep, ↓created_keep, ↓ecmpUpdate_keep, ↓setCfg_keep]
  (repeat' split) <;> simp only [↓keep_mk, ↓keep_fold, ↓id_eq, ↓after_next, ↓fail_keep, ↓created_keep, ↓ecmpUpdate_keep, ↓setCfg_keep]

theorem execEcmpCreate_keep : ∀ a0 a1 a2, keep (after (execEcmpCreate a0 a1 a2) a2) = keep a2 := fun _ _ _ => runCommand_keep _ actEcmpCreate_keep _ _ _

theorem actEcmpSetMembers_keep (c : Ctx) (q : List Word) (s : State) : keep (actEcmpSetMembers c q s).st = keep s := by
  unfold actEcmpSetMembers
  simp only [↓keep_mk, ↓keep_fold, ↓id_eq, ↓after_next, ↓fail_keep, ↓done_keep, ↓ecmpUpdate_keep, ↓setCfg_keep]
  (repeat' split) <;> simp only [↓keep_mk, ↓keep_fold, ↓id_eq, ↓after_next, ↓fail_keep, ↓done_keep, ↓ecmpUpdate_keep, ↓setCfg_keep]

theorem execEcmpSetMembers_keep : ∀ a0 a1 a2, keep (after (execEcmpSetMembers a0 a1 a2) a2) = keep a2 := fun _ _ _ => runCommand_keep _ actEcmpSetMembers_keep _ _ _

theorem actEcmpDelete_keep (c : Ctx) (q : List Word) (s : State) : keep (actEcmpDelete c q s).st = keep s := by
  unfold actEcmpDelete
  simp only [↓keep_mk, ↓keep_fold, ↓id_eq, ↓after_next, ↓fail_keep, ↓done_keep, ↓ecmpUpdate_keep, ↓setCfg_keep]
  (repeat' split) <;> simp only [↓keep_mk, ↓keep_fold, ↓id_eq, ↓after_next, ↓fail_keep, ↓done_keep, ↓ecmpUpdate_keep, ↓setCfg_keep]

theorem execEcmpDelete_keep : ∀ a0 a1 a2, keep (after (execEcmpDelete a0 a1 a2) a2) = keep a2 := fun _ _ _ => runCommand_keep _ actEcmpDelete_keep _ _ _

theorem actHashSet_keep (c : Ctx) (q : List Word) (s : State) : keep (actHashSet c q s).st = keep s := by
  unfold actHashSet
  (repeat' split) <;> rfl

theorem execHashSet_keep : ∀ a0 a1 a2, keep (after (execHashSet a0 a1 a2) a2) = keep a2 := fun _ _ _ => runCommand_keep _ actHashSet_keep _ _ _

theorem actPolicerSet_keep (c : Ctx) (q : List Word) (s : State) : keep (actPolicerSet c q s).st = keep s := by
  unfold actPolicerSet
  simp only [↓keep_mk, ↓keep_fold, ↓id_eq, ↓after_next, ↓fail_keep, ↓done_keep, ↓polClamp_keep, ↓setCfg_keep]
  (repeat' split) <;> simp only [↓keep_mk, ↓keep_fold, ↓id_eq, ↓after_next, ↓fail_keep, ↓done_keep, ↓polClamp_keep, ↓setCfg_keep]

theorem execPolicerSet_keep : ∀ a0 a1 a2, keep (after (execPolicerSet a0 a1 a2) a2) = keep a2 := fun _ _ _ => runCommand_keep _ actPolicerSet_keep _ _ _

theorem actPolicerRead_keep (c : Ctx) (q : List Word) (s : State) : keep (actPolicerRead c q s).st = keep s := by
  unfold actPolicerRead
  simp only [↓keep_mk, ↓keep_fold, ↓id_eq, ↓after_next, ↓fail_keep, ↓reply_keep]
  (repeat' split) <;> simp only [↓keep_mk, ↓keep_fold, ↓id_eq, ↓after_next, ↓fail_keep, ↓reply_keep]

theorem execPolicerRead_keep : ∀ a0 a1 a2, keep (after (execPolicerRead a0 a1 a2) a2) = keep a2 := fun _ _ _ => runCommand_keep _ actPolicerRead_keep _ _ _

theorem actStatsRead_keep (c : Ctx) (q : List Word) (s : State) : keep (actStatsRead c q s).st = keep s := by
  unfold actStatsRead
  simp only [↓keep_mk, ↓keep_fold, ↓id_eq, ↓after_next, ↓fail_keep, ↓reply_keep]
  (repeat' split) <;> simp only [↓keep_mk, ↓keep_fold, ↓id_eq, ↓after_next, ↓fail_keep, ↓reply_keep]

theorem execStatsRead_keep : ∀ a0 a1 a2, keep (after (execStatsRead a0 a1 a2) a2) = keep a2 := fun _ _ _ => runCommand_keep _ actStatsRead_keep _ _ _

theorem actStatsClear_keep (c : Ctx) (q : List Word) (s : State) : keep (actStatsClear c q s).st = keep s := by
  unfold actStatsClear
  simp only [↓keep_mk, ↓keep_fold, ↓id_eq, ↓after_next, ↓fail_keep, ↓done_keep, ↓modFwd_keep]
  (repeat' split) <;> simp only [↓keep_mk, ↓keep_fold, ↓id_eq, ↓after_next, ↓fail_keep, ↓done_keep, ↓modFwd_keep]

theorem execStatsClear_keep : ∀ a0 a1 a2, keep (after (execStatsClear a0 a1 a2) a2) = keep a2 := fun _ _ _ => runCommand_keep _ actStatsClear_keep _ _ _

theorem actPipeSet_keep (c : Ctx) (q : List Word) (s : State) : keep (actPipeSet c q s).st = keep s := by
  unfold actPipeSet
  simp only [↓keep_mk, ↓keep_fold, ↓id_eq, ↓after_next, ↓fail_keep, ↓done_keep, ↓modFwd_keep]
  (repeat' split) <;> simp only [↓keep_mk, ↓keep_fold, ↓id_eq, ↓after_next, ↓fail_keep, ↓done_keep, ↓modFwd_keep]

theorem execPipeSet_keep : ∀ a0 a1 a2, keep (after (execPipeSet a0 a1 a2) a2) = keep a2 := fun _ _ _ => runCommand_keep _ actPipeSet_keep _ _ _

theorem actPipeCounters_keep (c : Ctx) (q : List Word) (s : State) : keep (actPipeCounters c q s).st = keep s := by
  unfold actPipeCounters
  rfl

theorem execPipeCounters_keep : ∀ a0 a1 a2, keep (after (execPipeCounters a0 a1 a2) a2) = keep a2 := fun _ _ _ => runCommand_keep _ actPipeCounters_keep _ _ _

/-! ### Boot.lean -/

theorem execPorstNAssert_keep : ∀ a0 a1, keep (after (execPorstNAssert a0 a1) a1) = keep a1 := by
  intro a0 a1
  unfold execPorstNAssert
  rfl

theorem execBootSlotTimeout_keep : ∀ a0 a1, keep (after (execBootSlotTimeout a0 a1) a1) = keep a1 := by
  intro a0 a1
  unfold execBootSlotTimeout
  simp only [↓keep_mk, ↓keep_fold, ↓id_eq, ↓after_next, ↓State_atTime_keep, ↓bootNext_keep, ↓upgradeFailed_keep, ↓slotState_keep]
  (repeat' split) <;> simp only [↓keep_mk, ↓keep_fold, ↓id_eq, ↓after_next, ↓State_atTime_keep, ↓bootNext_keep, ↓upgradeFailed_keep, ↓slotState_keep]

theorem execFirmwareReady_keep : ∀ a0 a1, keep (after (execFirmwareReady a0 a1) a1) = keep a1 := by
  intro a0 a1
  unfold execFirmwareReady
  simp only [↓keep_mk, ↓keep_fold, ↓id_eq, ↓after_next, ↓State_atTime_keep, ↓readyState_keep, ↓slotState_keep, ↓firmwareReady_keep]
  (repeat' split) <;> simp only [↓keep_mk, ↓keep_fold, ↓id_eq, ↓after_next, ↓State_atTime_keep, ↓readyState_keep, ↓slotState_keep, ↓firmwareReady_keep]

theorem actUpgradeLoad_keep (c : Ctx) (q : List Word) (s : State) : keep (actUpgradeLoad c q s).st = keep s := by
  unfold actUpgradeLoad
  simp only [↓keep_mk, ↓keep_fold, ↓id_eq, ↓after_next, ↓fail_keep, ↓emit_keep, ↓slotState_keep]
  (repeat' split) <;> simp only [↓keep_mk, ↓keep_fold, ↓id_eq, ↓after_next, ↓fail_keep, ↓emit_keep, ↓slotState_keep]

theorem execUpgradeLoad_keep : ∀ a0 a1 a2, keep (after (execUpgradeLoad a0 a1 a2) a2) = keep a2 := fun _ _ _ => runCommand_keep _ actUpgradeLoad_keep _ _ _

theorem actUpgradeActivate_keep (c : Ctx) (q : List Word) (s : State) : keep (actUpgradeActivate c q s).st = keep s := by
  unfold actUpgradeActivate
  simp only [↓keep_mk, ↓keep_fold, ↓id_eq, ↓after_next, ↓fail_keep, ↓emit_keep, ↓dirWrite_keep]
  (repeat' split) <;> simp only [↓keep_mk, ↓keep_fold, ↓id_eq, ↓after_next, ↓fail_keep, ↓emit_keep, ↓dirWrite_keep]

theorem execUpgradeActivate_keep : ∀ a0 a1 a2, keep (after (execUpgradeActivate a0 a1 a2) a2) = keep a2 := fun _ _ _ => runCommand_keep _ actUpgradeActivate_keep _ _ _

theorem actUpgradeConfirm_keep (c : Ctx) (q : List Word) (s : State) : keep (actUpgradeConfirm c q s).st = keep s := by
  unfold actUpgradeConfirm
  simp only [↓keep_mk, ↓keep_fold, ↓id_eq, ↓after_next, ↓fail_keep, ↓done_keep, ↓emit_keep, ↓dirWrite_keep]
  (repeat' split) <;> simp only [↓keep_mk, ↓keep_fold, ↓id_eq, ↓after_next, ↓fail_keep, ↓done_keep, ↓emit_keep, ↓dirWrite_keep]

theorem execUpgradeConfirm_keep : ∀ a0 a1 a2, keep (after (execUpgradeConfirm a0 a1 a2) a2) = keep a2 := fun _ _ _ => runCommand_keep _ actUpgradeConfirm_keep _ _ _

theorem actUpgradeStatus_keep (c : Ctx) (q : List Word) (s : State) : keep (actUpgradeStatus c q s).st = keep s := by
  unfold actUpgradeStatus
  rfl

theorem execUpgradeStatus_keep : ∀ a0 a1 a2, keep (after (execUpgradeStatus a0 a1 a2) a2) = keep a2 := fun _ _ _ => runCommand_keep _ actUpgradeStatus_keep _ _ _

theorem actUpgradeProfile_keep (c : Ctx) (q : List Word) (s : State) : keep (actUpgradeProfile c q s).st = keep s := by
  unfold actUpgradeProfile
  simp only [↓keep_mk, ↓keep_fold, ↓id_eq, ↓after_next, ↓fail_keep, ↓emit_keep, ↓admCount_keep]
  (repeat' split) <;> simp only [↓keep_mk, ↓keep_fold, ↓id_eq, ↓after_next, ↓fail_keep, ↓emit_keep, ↓admCount_keep]

theorem execUpgradeProfile_keep : ∀ a0 a1 a2, keep (after (execUpgradeProfile a0 a1 a2) a2) = keep a2 := fun _ _ _ => runCommand_keep _ actUpgradeProfile_keep _ _ _

theorem execUpgradeLoaded_keep : ∀ a0 a1 a2 a3, keep (after (execUpgradeLoaded a0 a1 a2 a3) a3) = keep a3 := by
  intro a0 a1 a2 a3
  unfold execUpgradeLoaded
  simp only [↓keep_mk, ↓keep_fold, ↓id_eq, ↓after_next, ↓State_atTime_keep, ↓dirWrite_keep, ↓raise_keep]
  (repeat' split) <;> simp only [↓keep_mk, ↓keep_fold, ↓id_eq, ↓after_next, ↓State_atTime_keep, ↓dirWrite_keep, ↓raise_keep]

theorem execSwapBegin_keep : ∀ a0 a1, keep (after (execSwapBegin a0 a1) a1) = keep a1 := by
  intro a0 a1
  unfold execSwapBegin
  simp only [↓keep_mk, ↓keep_fold, ↓id_eq, ↓after_next, ↓State_atTime_keep]
  (repeat' split) <;> simp only [↓keep_mk, ↓keep_fold, ↓id_eq, ↓after_next, ↓State_atTime_keep]

theorem execSwapHandover_keep : ∀ a0 a1 a2, keep (after (execSwapHandover a0 a1 a2) a2) = keep a2 := by
  intro a0 a1 a2
  unfold execSwapHandover
  simp only [↓keep_mk, ↓keep_fold, ↓id_eq, ↓after_next, ↓State_atTime_keep, ↓firmwareReady_keep, ↓upgradeFailed_keep, ↓slotState_keep]
  (repeat' split) <;> simp only [↓keep_mk, ↓keep_fold, ↓id_eq, ↓after_next, ↓State_atTime_keep, ↓firmwareReady_keep, ↓upgradeFailed_keep, ↓slotState_keep]

theorem execSwapDone_keep : ∀ a0 a1, keep (after (execSwapDone a0 a1) a1) = keep a1 := by
  intro a0 a1
  unfold execSwapDone
  simp only [↓keep_mk, ↓keep_fold, ↓id_eq, ↓after_next, ↓State_atTime_keep, ↓slotState_keep, ↓raise_keep, ↓firmwareReady_keep, ↓reverted_keep]
  (repeat' split) <;> simp only [↓keep_mk, ↓keep_fold, ↓id_eq, ↓after_next, ↓State_atTime_keep, ↓slotState_keep, ↓raise_keep, ↓firmwareReady_keep, ↓reverted_keep]

theorem execConfirmTimeout_keep : ∀ a0 a1, keep (after (execConfirmTimeout a0 a1) a1) = keep a1 := by
  intro a0 a1
  unfold execConfirmTimeout
  simp only [↓keep_mk, ↓keep_fold, ↓id_eq, ↓after_next, ↓State_atTime_keep]
  (repeat' split) <;> simp only [↓keep_mk, ↓keep_fold, ↓id_eq, ↓after_next, ↓State_atTime_keep]

/-! ### Circuit.lean -/

theorem modCircuit_keep : ∀ a0 a1 a2, keep (modCircuit a0 a1 a2) = keep a2 := by
  intro a0 a1 a2
  unfold modCircuit
  rfl

theorem circuitCount_keep : ∀ a0 a1 a2 a3, keep (circuitCount a0 a1 a2 a3) = keep a3 := by
  intro a0 a1 a2 a3
  unfold circuitCount
  (repeat' split) <;> simp only [↓keep_mk, ↓keep_fold, ↓id_eq, ↓after_next, ↓ctrPut_keep, ↓ctrAdd48_keep]

theorem actCircuitCreate_keep (c : Ctx) (q : List Word) (s : State) : keep (actCircuitCreate c q s).st = keep s := by
  unfold actCircuitCreate
  simp only [↓keep_mk, ↓keep_fold, ↓id_eq, ↓after_next, ↓fail_keep, ↓created_keep]
  (repeat' split) <;> simp only [↓keep_mk, ↓keep_fold, ↓id_eq, ↓after_next, ↓fail_keep, ↓created_keep]

theorem execCircuitCreate_keep : ∀ a0 a1 a2, keep (after (execCircuitCreate a0 a1 a2) a2) = keep a2 := fun _ _ _ => runCommand_keep _ actCircuitCreate_keep _ _ _

theorem withCircuit_keep (x : Ctx) (q : List Word) (s : State) (f : Nat → Circuit → Res) (hf : ∀ i p, keep (f i p).st = keep s) :
    keep (withCircuit x q s f).st = keep s := by
  unfold withCircuit
  simp only []
  split
  · exact hf _ _
  · split
    · exact done_keep _
    · exact fail_keep _ _

theorem actCircuitDelete_keep (c : Ctx) (q : List Word) (s : State) : keep (actCircuitDelete c q s).st = keep s := by
  unfold actCircuitDelete
  refine withCircuit_keep _ _ _ _ (fun i p => ?_)
  rfl

theorem execCircuitDelete_keep : ∀ a0 a1 a2, keep (after (execCircuitDelete a0 a1 a2) a2) = keep a2 := fun _ _ _ => runCommand_keep _ actCircuitDelete_keep _ _ _

theorem circuitStart_keep : ∀ a0 a1, keep (circuitStart a0 a1) = keep a1 := by
  intro a0 a1
  unfold circuitStart
  (repeat' split) <;> rfl

theorem circuitStop_keep : ∀ a0 a1, keep (circuitStop a0 a1) = keep a1 := by
  intro a0 a1
  unfold circuitStop
  rfl

theorem actCircuitEnable_keep (c : Ctx) (q : List Word) (s : State) : keep (actCircuitEnable c q s).st = keep s := by
  unfold actCircuitEnable
  refine withCircuit_keep _ _ _ _ (fun i p => ?_)
  (repeat' split) <;> simp only [↓keep_mk, ↓keep_fold, ↓id_eq, ↓after_next, ↓done_keep, ↓circuitStart_keep, ↓modCircuit_keep]

theorem execCircuitEnable_keep : ∀ a0 a1 a2, keep (after (execCircuitEnable a0 a1 a2) a2) = keep a2 := fun _ _ _ => runCommand_keep _ actCircuitEnable_keep _ _ _

theorem actCircuitDisable_keep (c : Ctx) (q : List Word) (s : State) : keep (actCircuitDisable c q s).st = keep s := by
  unfold actCircuitDisable
  refine withCircuit_keep _ _ _ _ (fun i p => ?_)
  (repeat' split) <;> rfl

theorem execCircuitDisable_keep : ∀ a0 a1 a2, keep (after (execCircuitDisable a0 a1 a2) a2) = keep a2 := fun _ _ _ => runCommand_keep _ actCircuitDisable_keep _ _ _

theorem actCircuitSet_keep (c : Ctx) (q : List Word) (s : State) : keep (actCircuitSet c q s).st = keep s := by
  unfold actCircuitSet
  refine withCircuit_keep _ _ _ _ (fun i p => ?_)
  simp only [↓keep_mk, ↓keep_fold, ↓id_eq, ↓after_next, ↓fail_keep, ↓done_keep, ↓modCircuit_keep]
  (repeat' split) <;> simp only [↓keep_mk, ↓keep_fold, ↓id_eq, ↓after_next, ↓fail_keep, ↓done_keep, ↓modCircuit_keep]

theorem execCircuitSet_keep : ∀ a0 a1 a2, keep (after (execCircuitSet a0 a1 a2) a2) = keep a2 := fun _ _ _ => runCommand_keep _ actCircuitSet_keep _ _ _

theorem actCircuitStatus_keep (c : Ctx) (q : List Word) (s : State) : keep (actCircuitStatus c q s).st = keep s := by
  unfold actCircuitStatus
  refine withCircuit_keep _ _ _ _ (fun i p => ?_)
  rfl

theorem execCircuitStatus_keep : ∀ a0 a1 a2, keep (after (execCircuitStatus a0 a1 a2) a2) = keep a2 := fun _ _ _ => runCommand_keep _ actCircuitStatus_keep _ _ _

theorem actCircuitCounters_keep (c : Ctx) (q : List Word) (s : State) : keep (actCircuitCounters c q s).st = keep s := by
  unfold actCircuitCounters
  refine withCircuit_keep _ _ _ _ (fun i p => ?_)
  (repeat' split) <;> simp only [↓keep_mk, ↓keep_fold, ↓id_eq, ↓after_next, ↓reply_keep, ↓ctrClear_keep]

theorem execCircuitCounters_keep : ∀ a0 a1 a2, keep (after (execCircuitCounters a0 a1 a2) a2) = keep a2 := fun _ _ _ => runCommand_keep _ actCircuitCounters_keep _ _ _

theorem actCircuitPmRead_keep (c : Ctx) (q : List Word) (s : State) : keep (actCircuitPmRead c q s).st = keep s := by
  unfold actCircuitPmRead
  refine withCircuit_keep _ _ _ _ (fun i p => ?_)
  simp only [↓keep_mk, ↓keep_fold, ↓id_eq, ↓after_next, ↓fail_keep, ↓reply_keep]
  (repeat' split) <;> simp only [↓keep_mk, ↓keep_fold, ↓id_eq, ↓after_next, ↓fail_keep, ↓reply_keep]

theorem execCircuitPmRead_keep : ∀ a0 a1 a2, keep (after (execCircuitPmRead a0 a1 a2) a2) = keep a2 := fun _ _ _ => runCommand_keep _ actCircuitPmRead_keep _ _ _

theorem sendPacket_keep : ∀ a0 a1, keep (sendPacket a0 a1) = keep a1 := by
  intro a0 a1
  unfold sendPacket
  (repeat' split) <;> simp only [↓keep_mk, ↓keep_fold, ↓id_eq, ↓after_next, ↓modCircuit_keep, ↓circuitCount_keep, ↓octetPut_keep]

theorem noteSlip_keep : ∀ a0 a1, keep (noteSlip a0 a1) = keep a1 := by
  intro a0 a1
  unfold noteSlip
  (repeat' split) <;> simp only [↓keep_mk, ↓keep_fold, ↓id_eq, ↓after_next, ↓raise_keep, ↓modCircuit_keep]

theorem modRec_keep : ∀ a0 a1 a2, keep (modRec a0 a1 a2) = keep a2 := by
  intro a0 a1 a2
  unfold modRec
  rfl

theorem tdmTake_keep : ∀ a0 a1 a2, keep ((tdmTake a0 a1 a2).2) = keep a2 := by
  intro a0 a1 a2
  unfold tdmTake
  simp only [↓keep_mk, ↓keep_fold, ↓id_eq, ↓after_next, ↓modCircuit_keep]
  (repeat' split) <;> simp only [↓keep_mk, ↓keep_fold, ↓id_eq, ↓after_next, ↓modCircuit_keep]

theorem storeFull_keep : ∀ a0 a1, keep (storeFull a0 a1) = keep a1 := by
  intro a0 a1
  unfold storeFull
  (repeat' split) <;> simp only [↓keep_mk, ↓keep_fold, ↓id_eq, ↓after_next, ↓modCircuit_keep, ↓modRec_keep, ↓noteSlip_keep, ↓circuitCount_keep]

theorem storePut_keep : ∀ a0 a1 a2, keep (storePut a0 a1 a2) = keep a2 := by
  intro a0 a1 a2
  unfold storePut
  rfl

theorem execVc12FrameComplete_keep : ∀ a0 a1 a2 a3 a4, keep (after (execVc12FrameComplete a0 a1 a2 a3 a4) a4) = keep a4 := by
  intro a0 a1 a2 a3 a4
  unfold execVc12FrameComplete
  simp only [↓keep_mk, ↓keep_fold, ↓id_eq, ↓after_next, ↓State_atTime_keep, ↓tdmTake_keep, ↓storeFull_keep, ↓storePut_keep, ↓modCircuit_keep, ↓sendPacket_keep]
  (repeat' split) <;> simp only [↓keep_mk, ↓keep_fold, ↓id_eq, ↓after_next, ↓State_atTime_keep, ↓tdmTake_keep, ↓storeFull_keep, ↓storePut_keep, ↓modCircuit_keep, ↓sendPacket_keep]

theorem packetiserTake_keep : ∀ a0 a1, keep (packetiserTake a0 a1) = keep a1 := by
  intro a0 a1
  unfold packetiserTake
  (repeat' split) <;> simp only [↓keep_mk, ↓keep_fold, ↓id_eq, ↓after_next, ↓modCircuit_keep, ↓modRec_keep, ↓noteSlip_keep, ↓circuitCount_keep]

theorem circuitBoundary_keep : ∀ a0 a1 a2 a3, keep (circuitBoundary a0 a1 a2 a3) = keep a3 := by
  intro a0 a1 a2 a3
  unfold circuitBoundary
  repeat' (first
    | with_reducible rfl
    | with_reducible assumption
    | simp only [↓keep_mk, ↓keep_fold, ↓id_eq, ↓after_next, ↓sendPacket_keep, ↓modCircuit_keep, ↓tdmTake_keep, ↓storePut_keep, ↓storeFull_keep, ↓packetiserTake_keep]
    | with_reducible refine keep_ite _ _ _ _ ?_ ?_
    | with_reducible refine keep_after_ite _ _ _ _ _ ?_ ?_
    | with_reducible refine (keep_foldl _ ?_ _ _).trans ?_
    | with_reducible refine (keep_foldl_snd _ ?_ _ _).trans ?_
    | (intros; simp only [*])
    | intro _
    | split)

theorem circuitRestart_keep : ∀ a0 a1 a2 a3, keep (circuitRestart a0 a1 a2 a3) = keep a3 := by
  intro a0 a1 a2 a3
  unfold circuitRestart
  simp only [modCircuit_keep, raise_keep, circuitCount_keep]

theorem slipDiscard_keep : ∀ a0 a1 a2, keep (slipDiscard a0 a1 a2) = keep a2 := by
  intro a0 a1 a2
  unfold slipDiscard
  simp only [circuitCount_keep, modRec_keep]

theorem judgeFull_keep : ∀ a0 a1 a2, keep (judgeFull a0 a1 a2) = keep a2 := by
  intro a0 a1 a2
  unfold judgeFull
  simp only [↓keep_mk, ↓keep_fold, ↓id_eq, ↓after_next, ↓circuitRestart_keep, ↓modCircuit_keep, ↓slipDiscard_keep, ↓noteSlip_keep]
  (repeat' split) <;> simp only [↓keep_mk, ↓keep_fold, ↓id_eq, ↓after_next, ↓circuitRestart_keep, ↓modCircuit_keep, ↓slipDiscard_keep, ↓noteSlip_keep]

theorem takeRate_keep : ∀ a0 a1 a2, keep (takeRate a0 a1 a2) = keep a2 := by
  intro a0 a1 a2
  unfold takeRate
  simp only [↓keep_mk, ↓keep_fold, ↓id_eq, ↓after_next, ↓modCircuit_keep, ↓raise_keep]
  (repeat' split) <;> simp only [↓keep_mk, ↓keep_fold, ↓id_eq, ↓after_next, ↓modCircuit_keep, ↓raise_keep]

theorem clampCount_keep : ∀ a0 a1, keep (clampCount a0 a1) = keep a1 := by
  intro a0 a1
  unfold clampCount
  (repeat' split) <;> simp only [↓keep_mk, ↓keep_fold, ↓id_eq, ↓after_next, ↓circuitCount_keep, ↓modCircuit_keep]

theorem judgeStart_keep : ∀ a0 a1, keep (judgeStart a0 a1) = keep a1 := by
  intro a0 a1
  unfold judgeStart
  (repeat' split) <;> simp only [↓keep_mk, ↓keep_fold, ↓id_eq, ↓after_next, ↓modCircuit_keep, ↓circuitRestart_keep, ↓raise_keep, ↓State_took_keep]

theorem takeStamp_keep : ∀ a0 a1 a2 a3, keep (takeStamp a0 a1 a2 a3) = keep a3 := by
  intro a0 a1 a2 a3
  unfold takeStamp
  (repeat' split) <;> simp only [↓keep_mk, ↓keep_fold, ↓id_eq, ↓after_next, ↓modCircuit_keep, ↓takeRate_keep]

theorem pwAccept_keep : ∀ a0 a1 a2, keep ((pwAccept a0 a1 a2).2) = keep a2 := by
  intro a0 a1 a2
  unfold pwAccept
  repeat' (first
    | with_reducible rfl
    | with_reducible assumption
    | simp only [↓keep_mk, ↓keep_fold, ↓id_eq, ↓after_next, ↓circuitCount_keep, ↓modRec_keep, ↓modCircuit_keep, ↓takeStamp_keep]
    | simp only [*]
    | with_reducible refine keep_ite _ _ _ _ ?_ ?_
    | with_reducible refine keep_after_ite _ _ _ _ _ ?_ ?_
    | with_reducible refine keep_ite_snd _ _ _ _ ?_ ?_
    | with_reducible refine keep_ite_snd2 _ _ _ _ ?_ ?_
    | with_reducible refine (keep_foldl _ ?_ _ _).trans ?_
    | with_reducible refine (keep_foldl_snd _ ?_ _ _).trans ?_
    | (intros; simp only [*])
    | intro _
    | (split <;> try (rename_i h; first
        | (have k := (congrArg (fun p : _ × State => keep p.2) h).symm; simp only [↓keep_mk, ↓keep_fold, ↓id_eq, ↓after_next, ↓circuitCount_keep, ↓modRec_keep, ↓modCircuit_keep, ↓takeStamp_keep] at k)
        | (have k := (congrArg (fun p : _ × _ × State => keep p.2.2) h).symm; simp only [↓keep_mk, ↓keep_fold, ↓id_eq, ↓after_next, ↓circuitCount_keep, ↓modRec_keep, ↓modCircuit_keep, ↓takeStamp_keep] at k))))

theorem handE1_keep : ∀ a0 a1 a2, keep (handE1 a0 a1 a2) = keep a2 := by
  intro a0 a1 a2
  unfold handE1
  repeat' (first
    | with_reducible rfl
    | with_reducible assumption
    | simp only [↓keep_mk, ↓keep_fold, ↓id_eq, ↓after_next, ↓modCircuit_keep]
    | with_reducible refine keep_ite _ _ _ _ ?_ ?_
    | with_reducible refine keep_after_ite _ _ _ _ _ ?_ ?_
    | with_reducible refine (keep_foldl _ ?_ _ _).trans ?_
    | with_reducible refine (keep_foldl_snd _ ?_ _ _).trans ?_
    | (intros; simp only [*])
    | intro _
    | split)

theorem playOne_keep : ∀ a0 a1, keep (playOne a0 a1) = keep a1 := by
  intro a0 a1
  unfold playOne
  (repeat' split) <;> simp only [↓keep_mk, ↓keep_fold, ↓id_eq, ↓after_next, ↓circuitCount_keep, ↓modRec_keep, ↓handE1_keep, ↓modCircuit_keep, ↓takeRate_keep, ↓noteSlip_keep, ↓circuitRestart_keep]

theorem nextPw_keep : ∀ a0 a1, keep ((nextPw a0 a1).2) = keep a1 := by
  intro a0 a1
  unfold nextPw
  (repeat' split) <;> rfl

theorem playStep_keep : ∀ a0 a1 a2, keep (playStep a0 a1 a2) = keep a2 := by
  intro a0 a1 a2
  unfold playStep
  (repeat' split) <;> simp only [↓keep_mk, ↓keep_fold, ↓id_eq, ↓after_next, ↓pwAccept_keep, ↓judgeStart_keep, ↓judgeFull_keep, ↓playOne_keep, ↓modCircuit_keep]

theorem execPseudowireReceived_keep : ∀ a0 a1 a2 a3, keep (after (execPseudowireReceived a0 a1 a2 a3) a3) = keep a3 := by
  intro a0 a1 a2 a3
  unfold execPseudowireReceived
  repeat' (first
    | with_reducible rfl
    | with_reducible assumption
    | simp only [↓keep_mk, ↓keep_fold, ↓id_eq, ↓after_next, ↓State_atTime_keep, ↓nextPw_keep, ↓playStep_keep, ↓pwAccept_keep, ↓judgeStart_keep, ↓judgeFull_keep]
    | simp only [*]
    | with_reducible refine keep_ite _ _ _ _ ?_ ?_
    | with_reducible refine keep_after_ite _ _ _ _ _ ?_ ?_
    | with_reducible refine keep_ite_snd _ _ _ _ ?_ ?_
    | with_reducible refine keep_ite_snd2 _ _ _ _ ?_ ?_
    | with_reducible refine (keep_foldl _ ?_ _ _).trans ?_
    | with_reducible refine (keep_foldl_snd _ ?_ _ _).trans ?_
    | (intros; simp only [*])
    | intro _
    | (split <;> try (rename_i h; first
        | (have k := (congrArg (fun p : _ × State => keep p.2) h).symm; simp only [↓keep_mk, ↓keep_fold, ↓id_eq, ↓after_next, ↓State_atTime_keep, ↓nextPw_keep, ↓playStep_keep, ↓pwAccept_keep, ↓judgeStart_keep, ↓judgeFull_keep] at k)
        | (have k := (congrArg (fun p : _ × _ × State => keep p.2.2) h).symm; simp only [↓keep_mk, ↓keep_fold, ↓id_eq, ↓after_next, ↓State_atTime_keep, ↓nextPw_keep, ↓playStep_keep, ↓pwAccept_keep, ↓judgeStart_keep, ↓judgeFull_keep] at k))))

theorem execCircuitPlayout_keep : ∀ a0 a1 a2 a3, keep (after (execCircuitPlayout a0 a1 a2 a3) a3) = keep a3 := by
  intro a0 a1 a2 a3
  unfold execCircuitPlayout
  simp only [↓keep_mk, ↓keep_fold, ↓id_eq, ↓after_next, ↓State_atTime_keep, ↓playStep_keep, ↓nextPw_keep]
  (repeat' split) <;> simp only [↓keep_mk, ↓keep_fold, ↓id_eq, ↓after_next, ↓State_atTime_keep, ↓playStep_keep, ↓nextPw_keep]

theorem execLopsSet_keep : ∀ a0 a1 a2, keep (after (execLopsSet a0 a1 a2) a2) = keep a2 := by
  intro a0 a1 a2
  unfold execLopsSet
  simp only [↓keep_mk, ↓keep_fold, ↓id_eq, ↓after_next, ↓State_atTime_keep, ↓raise_keep, ↓modCircuit_keep]
  (repeat' split) <;> simp only [↓keep_mk, ↓keep_fold, ↓id_eq, ↓after_next, ↓State_atTime_keep, ↓raise_keep, ↓modCircuit_keep]

end Sys2Proof.Machine
end

