-- ==== Sys2Proof/Laws/KeepTables.lean ====
section
/-! SUPPORT. Each function of tables, learning, faults and HBM keeps the lifecycle state and the queue of waiting commands (R500). -/

namespace Sys2Proof.Machine

open Sys2Proof

set_option maxRecDepth 4000
set_option linter.unusedSimpArgs false

/-! ### Tables.lean -/

theorem actDillTableCreate_keep (c : Ctx) (q : List Word) (s : State) : keep (actDillTableCreate c q s).st = keep s := by
  unfold actDillTableCreate
  simp only [↓keep_mk, ↓keep_fold, ↓id_eq, ↓after_next, ↓fail_keep, ↓reply_keep, ↓modTab_keep]
  (repeat' split) <;> simp only [↓keep_mk, ↓keep_fold, ↓id_eq, ↓after_next, ↓fail_keep, ↓reply_keep, ↓modTab_keep]

theorem execDillTableCreate_keep : ∀ a0 a1 a2, keep (after (execDillTableCreate a0 a1 a2) a2) = keep a2 := fun _ _ _ => runCommand_keep _ actDillTableCreate_keep _ _ _

theorem withDill_keep (q : List Word) (s : State) (f : Nat → DillTab → Res) (hf : ∀ i p, keep (f i p).st = keep s) :
    keep (withDill q s f).st = keep s := by
  unfold withDill
  split
  · exact hf _ _
  · exact fail_keep _ _

theorem dillChange_keep : ∀ a0 a1 a2 a3 a4, keep (dillChange a0 a1 a2 a3 a4) = keep a4 := by
  intro a0 a1 a2 a3 a4
  unfold dillChange
  simp only [↓keep_mk, ↓keep_fold, ↓id_eq, ↓after_next, ↓placeHeal_keep, ↓dillFree_keep, ↓dillPut_keep]
  (repeat' split) <;> simp only [↓keep_mk, ↓keep_fold, ↓id_eq, ↓after_next, ↓placeHeal_keep, ↓dillFree_keep, ↓dillPut_keep]

theorem actDillInsert_keep (c : Ctx) (q : List Word) (s : State) : keep (actDillInsert c q s).st = keep s := by
  unfold actDillInsert
  refine withDill_keep _ _ _ (fun i p => ?_)
  simp only [↓keep_mk, ↓keep_fold, ↓id_eq, ↓after_next, ↓fail_keep, ↓reply_keep, ↓done_keep, ↓dillChange_keep, ↓dillNew_keep, ↓placeHeal_keep]
  (repeat' split) <;> simp only [↓keep_mk, ↓keep_fold, ↓id_eq, ↓after_next, ↓fail_keep, ↓reply_keep, ↓done_keep, ↓dillChange_keep, ↓dillNew_keep, ↓placeHeal_keep]

theorem execDillInsert_keep : ∀ a0 a1 a2, keep (after (execDillInsert a0 a1 a2) a2) = keep a2 := fun _ _ _ => runCommand_keep _ actDillInsert_keep _ _ _

theorem dillUpdate_keep : ∀ a0 a1 a2 a3, keep ((dillUpdate a0 a1 a2 a3).st) = keep a2 := by
  intro x q s f
  unfold dillUpdate
  refine withDill_keep _ _ _ fun t tb => ?_
  simp only [↓keep_mk, ↓keep_fold, ↓id_eq, ↓after_next, ↓done_keep, ↓fail_keep, ↓dillChange_keep]
  (repeat' split) <;> simp only [↓keep_mk, ↓keep_fold, ↓id_eq, ↓after_next, ↓done_keep, ↓fail_keep, ↓dillChange_keep]

theorem actDillModify_keep (c : Ctx) (q : List Word) (s : State) : keep (actDillModify c q s).st = keep s := by
  unfold actDillModify
  (repeat' split) <;> simp only [↓keep_mk, ↓keep_fold, ↓id_eq, ↓after_next, ↓fail_keep, ↓dillUpdate_keep]

theorem execDillModify_keep : ∀ a0 a1 a2, keep (after (execDillModify a0 a1 a2) a2) = keep a2 := fun _ _ _ => runCommand_keep _ actDillModify_keep _ _ _

theorem actDillDelete_keep (c : Ctx) (q : List Word) (s : State) : keep (actDillDelete c q s).st = keep s := by
  unfold actDillDelete
  simp only [dillUpdate_keep]

theorem execDillDelete_keep : ∀ a0 a1 a2, keep (after (execDillDelete a0 a1 a2) a2) = keep a2 := fun _ _ _ => runCommand_keep _ actDillDelete_keep _ _ _

theorem actDillTableDelete_keep (c : Ctx) (q : List Word) (s : State) : keep (actDillTableDelete c q s).st = keep s := by
  unfold actDillTableDelete
  refine withDill_keep _ _ _ (fun i p => ?_)
  (repeat' split) <;> simp only [↓keep_mk, ↓keep_fold, ↓id_eq, ↓after_next, ↓fail_keep, ↓done_keep, ↓overCheck_keep, ↓modTab_keep]

theorem execDillTableDelete_keep : ∀ a0 a1 a2, keep (after (execDillTableDelete a0 a1 a2) a2) = keep a2 := fun _ _ _ => runCommand_keep _ actDillTableDelete_keep _ _ _

theorem actDillStatus_keep (c : Ctx) (q : List Word) (s : State) : keep (actDillStatus c q s).st = keep s := by
  unfold actDillStatus
  refine withDill_keep _ _ _ (fun i p => ?_)
  rfl

theorem execDillStatus_keep : ∀ a0 a1 a2, keep (after (execDillStatus a0 a1 a2) a2) = keep a2 := fun _ _ _ => runCommand_keep _ actDillStatus_keep _ _ _

theorem routeChange_keep : ∀ a0 a1 a2 a3, keep (routeChange a0 a1 a2 a3) = keep a3 := by
  intro a0 a1 a2 a3
  unfold routeChange
  simp only [sorrelCheck_keep, modTab_keep]

theorem actSorrelAdd_keep (c : Ctx) (q : List Word) (s : State) : keep (actSorrelAdd c q s).st = keep s := by
  unfold actSorrelAdd
  simp only [↓keep_mk, ↓keep_fold, ↓id_eq, ↓after_next, ↓fail_keep, ↓done_keep, ↓routeChange_keep]
  (repeat' split) <;> simp only [↓keep_mk, ↓keep_fold, ↓id_eq, ↓after_next, ↓fail_keep, ↓done_keep, ↓routeChange_keep]

theorem execSorrelAdd_keep : ∀ a0 a1 a2, keep (after (execSorrelAdd a0 a1 a2) a2) = keep a2 := fun _ _ _ => runCommand_keep _ actSorrelAdd_keep _ _ _

theorem actSorrelSet_keep (c : Ctx) (q : List Word) (s : State) : keep (actSorrelSet c q s).st = keep s := by
  unfold actSorrelSet
  simp only [↓keep_mk, ↓keep_fold, ↓id_eq, ↓after_next, ↓fail_keep, ↓done_keep, ↓routeChange_keep]
  (repeat' split) <;> simp only [↓keep_mk, ↓keep_fold, ↓id_eq, ↓after_next, ↓fail_keep, ↓done_keep, ↓routeChange_keep]

theorem execSorrelSet_keep : ∀ a0 a1 a2, keep (after (execSorrelSet a0 a1 a2) a2) = keep a2 := fun _ _ _ => runCommand_keep _ actSorrelSet_keep _ _ _

theorem actSorrelDelete_keep (c : Ctx) (q : List Word) (s : State) : keep (actSorrelDelete c q s).st = keep s := by
  unfold actSorrelDelete
  simp only [↓keep_mk, ↓keep_fold, ↓id_eq, ↓after_next, ↓fail_keep, ↓done_keep, ↓routeChange_keep]
  (repeat' split) <;> simp only [↓keep_mk, ↓keep_fold, ↓id_eq, ↓after_next, ↓fail_keep, ↓done_keep, ↓routeChange_keep]

theorem execSorrelDelete_keep : ∀ a0 a1 a2, keep (after (execSorrelDelete a0 a1 a2) a2) = keep a2 := fun _ _ _ => runCommand_keep _ actSorrelDelete_keep _ _ _

theorem actSorrelGet_keep (c : Ctx) (q : List Word) (s : State) : keep (actSorrelGet c q s).st = keep s := by
  unfold actSorrelGet
  (repeat' split) <;> rfl

theorem execSorrelGet_keep : ∀ a0 a1 a2, keep (after (execSorrelGet a0 a1 a2) a2) = keep a2 := fun _ _ _ => runCommand_keep _ actSorrelGet_keep _ _ _

theorem actSorrelMatch_keep (c : Ctx) (q : List Word) (s : State) : keep (actSorrelMatch c q s).st = keep s := by
  unfold actSorrelMatch
  (repeat' split) <;> rfl

theorem execSorrelMatch_keep : ∀ a0 a1 a2, keep (after (execSorrelMatch a0 a1 a2) a2) = keep a2 := fun _ _ _ => runCommand_keep _ actSorrelMatch_keep _ _ _

theorem actSorrelStatus_keep (c : Ctx) (q : List Word) (s : State) : keep (actSorrelStatus c q s).st = keep s := by
  unfold actSorrelStatus
  rfl

theorem execSorrelStatus_keep : ∀ a0 a1 a2, keep (after (execSorrelStatus a0 a1 a2) a2) = keep a2 := fun _ _ _ => runCommand_keep _ actSorrelStatus_keep _ _ _

theorem actSageGroupCreate_keep (c : Ctx) (q : List Word) (s : State) : keep (actSageGroupCreate c q s).st = keep s := by
  unfold actSageGroupCreate
  simp only [↓keep_mk, ↓keep_fold, ↓id_eq, ↓after_next, ↓reply_keep, ↓modTab_keep, ↓fail_keep]
  (repeat' split) <;> simp only [↓keep_mk, ↓keep_fold, ↓id_eq, ↓after_next, ↓reply_keep, ↓modTab_keep, ↓fail_keep]

theorem execSageGroupCreate_keep : ∀ a0 a1 a2, keep (after (execSageGroupCreate a0 a1 a2) a2) = keep a2 := fun _ _ _ => runCommand_keep _ actSageGroupCreate_keep _ _ _

theorem actSageGroupDelete_keep (c : Ctx) (q : List Word) (s : State) : keep (actSageGroupDelete c q s).st = keep s := by
  unfold actSageGroupDelete
  (repeat' split) <;> rfl

theorem execSageGroupDelete_keep : ∀ a0 a1 a2, keep (after (execSageGroupDelete a0 a1 a2) a2) = keep a2 := fun _ _ _ => runCommand_keep _ actSageGroupDelete_keep _ _ _

theorem actSageInsert_keep (c : Ctx) (q : List Word) (s : State) : keep (actSageInsert c q s).st = keep s := by
  unfold actSageInsert
  (repeat' split) <;> simp only [↓keep_mk, ↓keep_fold, ↓id_eq, ↓after_next, ↓fail_keep, ↓done_keep, ↓tabCount_keep, ↓sageMoveTo_keep, ↓modTab_keep]

theorem execSageInsert_keep : ∀ a0 a1 a2, keep (after (execSageInsert a0 a1 a2) a2) = keep a2 := fun _ _ _ => runCommand_keep _ actSageInsert_keep _ _ _

theorem sageChange_keep : ∀ a0 a1 a2 a3 a4, keep (sageChange a0 a1 a2 a3 a4) = keep a4 := by
  intro a0 a1 a2 a3 a4
  unfold sageChange
  rfl

theorem sageUpdate_keep : ∀ a0 a1 a2 a3, keep ((sageUpdate a0 a1 a2 a3).st) = keep a2 := by
  intro a0 a1 a2 a3
  unfold sageUpdate
  (repeat' split) <;> rfl

theorem actSageModify_keep (c : Ctx) (q : List Word) (s : State) : keep (actSageModify c q s).st = keep s := by
  unfold actSageModify
  (repeat' split) <;> simp only [↓keep_mk, ↓keep_fold, ↓id_eq, ↓after_next, ↓fail_keep, ↓sageUpdate_keep]

theorem execSageModify_keep : ∀ a0 a1 a2, keep (after (execSageModify a0 a1 a2) a2) = keep a2 := fun _ _ _ => runCommand_keep _ actSageModify_keep _ _ _

theorem actSageDelete_keep (c : Ctx) (q : List Word) (s : State) : keep (actSageDelete c q s).st = keep s := by
  unfold actSageDelete
  simp only [sageUpdate_keep]

theorem execSageDelete_keep : ∀ a0 a1 a2, keep (after (execSageDelete a0 a1 a2) a2) = keep a2 := fun _ _ _ => runCommand_keep _ actSageDelete_keep _ _ _

theorem actSageRead_keep (c : Ctx) (q : List Word) (s : State) : keep (actSageRead c q s).st = keep s := by
  unfold actSageRead
  (repeat' split) <;> rfl

theorem execSageRead_keep : ∀ a0 a1 a2, keep (after (execSageRead a0 a1 a2) a2) = keep a2 := fun _ _ _ => runCommand_keep _ actSageRead_keep _ _ _

theorem actSageStatus_keep (c : Ctx) (q : List Word) (s : State) : keep (actSageStatus c q s).st = keep s := by
  unfold actSageStatus
  (repeat' split) <;> rfl

theorem execSageStatus_keep : ∀ a0 a1 a2, keep (after (execSageStatus a0 a1 a2) a2) = keep a2 := fun _ _ _ => runCommand_keep _ actSageStatus_keep _ _ _

theorem actActionCreate_keep (c : Ctx) (q : List Word) (s : State) : keep (actActionCreate c q s).st = keep s := by
  unfold actActionCreate
  simp only [↓keep_mk, ↓keep_fold, ↓id_eq, ↓after_next, ↓fail_keep, ↓created_keep, ↓setCfg_keep]
  (repeat' split) <;> simp only [↓keep_mk, ↓keep_fold, ↓id_eq, ↓after_next, ↓fail_keep, ↓created_keep, ↓setCfg_keep]

theorem execActionCreate_keep : ∀ a0 a1 a2, keep (after (execActionCreate a0 a1 a2) a2) = keep a2 := fun _ _ _ => runCommand_keep _ actActionCreate_keep _ _ _

theorem actActionSet_keep (c : Ctx) (q : List Word) (s : State) : keep (actActionSet c q s).st = keep s := by
  unfold actActionSet
  simp only [↓keep_mk, ↓keep_fold, ↓id_eq, ↓after_next, ↓fail_keep, ↓done_keep, ↓setCfg_keep]
  (repeat' split) <;> simp only [↓keep_mk, ↓keep_fold, ↓id_eq, ↓after_next, ↓fail_keep, ↓done_keep, ↓setCfg_keep]

theorem execActionSet_keep : ∀ a0 a1 a2, keep (after (execActionSet a0 a1 a2) a2) = keep a2 := fun _ _ _ => runCommand_keep _ actActionSet_keep _ _ _

theorem actActionDelete_keep (c : Ctx) (q : List Word) (s : State) : keep (actActionDelete c q s).st = keep s := by
  unfold actActionDelete
  (repeat' split) <;> simp only [↓keep_mk, ↓keep_fold, ↓id_eq, ↓after_next, ↓fail_keep, ↓done_keep, ↓setCfg_keep]

theorem execActionDelete_keep : ∀ a0 a1 a2, keep (after (execActionDelete a0 a1 a2) a2) = keep a2 := fun _ _ _ => runCommand_keep _ actActionDelete_keep _ _ _

theorem actTableCounters_keep (c : Ctx) (q : List Word) (s : State) : keep (actTableCounters c q s).st = keep s := by
  unfold actTableCounters
  rfl

theorem execTableCounters_keep : ∀ a0 a1 a2, keep (after (execTableCounters a0 a1 a2) a2) = keep a2 := fun _ _ _ => runCommand_keep _ actTableCounters_keep _ _ _

/-! ### Learn.lean -/

theorem actDillSearch_keep (c : Ctx) (q : List Word) (s : State) : keep (actDillSearch c q s).st = keep s := by
  unfold actDillSearch
  refine withDill_keep _ _ _ (fun i p => ?_)
  (repeat' split) <;> rfl

theorem execDillSearch_keep : ∀ a0 a1 a2, keep (after (execDillSearch a0 a1 a2) a2) = keep a2 := fun _ _ _ => runCommand_keep _ actDillSearch_keep _ _ _

theorem walkRelease_keep : ∀ a0 a1 a2 a3 a4, keep (walkRelease a0 a1 a2 a3 a4) = keep a4 := by
  intro a0 a1 a2 a3 a4
  unfold walkRelease
  (repeat' split) <;> simp only [↓keep_mk, ↓keep_fold, ↓id_eq, ↓after_next, ↓overFill_keep, ↓modTab_keep]

theorem walkHold_keep : ∀ a0 a1 a2 a3 a4 a5, keep (walkHold a0 a1 a2 a3 a4 a5) = keep a5 := by
  intro a0 a1 a2 a3 a4 a5
  unfold walkHold
  (repeat' split) <;> simp only [↓keep_mk, ↓keep_fold, ↓id_eq, ↓after_next, ↓modTab_keep, ↓walkRelease_keep]

theorem actDillNext_keep (c : Ctx) (q : List Word) (s : State) : keep (actDillNext c q s).st = keep s := by
  unfold actDillNext
  refine withDill_keep _ _ _ (fun i p => ?_)
  simp only [↓keep_mk, ↓keep_fold, ↓id_eq, ↓after_next, ↓fail_keep, ↓reply_keep, ↓walkHold_keep]
  (repeat' split) <;> simp only [↓keep_mk, ↓keep_fold, ↓id_eq, ↓after_next, ↓fail_keep, ↓reply_keep, ↓walkHold_keep]

theorem execDillNext_keep : ∀ a0 a1 a2, keep (after (execDillNext a0 a1 a2) a2) = keep a2 := fun _ _ _ => runCommand_keep _ actDillNext_keep _ _ _

theorem execDillNextHoldExpiry_keep : ∀ a0 a1 a2 a3, keep (after (execDillNextHoldExpiry a0 a1 a2 a3) a3) = keep a3 := by
  intro a0 a1 a2 a3
  unfold execDillNextHoldExpiry
  simp only [↓keep_mk, ↓keep_fold, ↓id_eq, ↓after_next, ↓State_atTime_keep, ↓overFill_keep, ↓modTab_keep]
  (repeat' split) <;> simp only [↓keep_mk, ↓keep_fold, ↓id_eq, ↓after_next, ↓State_atTime_keep, ↓overFill_keep, ↓modTab_keep]

theorem actTableCmdlist_keep (c : Ctx) (q : List Word) (s : State) : keep (actTableCmdlist c q s).st = keep s := by
  unfold actTableCmdlist
  simp only [↓keep_mk, ↓keep_fold, ↓id_eq, ↓after_next, ↓fail_keep, ↓modLearn_keep]
  (repeat' split) <;> simp only [↓keep_mk, ↓keep_fold, ↓id_eq, ↓after_next, ↓fail_keep, ↓modLearn_keep]

theorem execTableCmdlist_keep : ∀ a0 a1 a2, keep (after (execTableCmdlist a0 a1 a2) a2) = keep a2 := fun _ _ _ => runCommand_keep _ actTableCmdlist_keep _ _ _

theorem listCmds_keep : ∀ k ∈ listCmds, ∀ c q s, keep (k.act c q s).st = keep s := by
  simp only [listCmds, List.mem_cons, List.not_mem_nil, or_false, forall_eq_or_imp, forall_eq]
  exact ⟨actDillInsert_keep, actDillModify_keep, actDillDelete_keep, actSorrelAdd_keep, actSorrelSet_keep, actSorrelDelete_keep,
    actSageInsert_keep, actSageModify_keep, actSageDelete_keep, actActionCreate_keep, actActionSet_keep, actActionDelete_keep⟩

theorem runRecord_keep {l op q s r} (h : runRecord l op q s = some r) : keep r.2.2 = keep s := by
  unfold runRecord at h
  split at h
  · injection h with h; subst h; rfl
  · rename_i k hk
    have hm := listCmds_keep k (List.mem_of_find?_eq_some hk)
    simp only [] at h
    split at h
    · injection h with h; subst h; rfl
    · split at h
      · cases h
      · injection h with h; subst h; exact runOp_keep k hm _ _ _

theorem listStep_keep {l i r r'} (h : listStep l i r = some r') : keep r'.st = keep r.st := by
  unfold listStep at h
  split at h
  · injection h with h; subst h; exact hostWriteWords_keep _ _ _
  · simp only [] at h
    split at h
    · cases h
    · rename_i h2
      injection h with h
      subst h
      rw [hostWriteWords_keep, learnCount_keep]
      exact runRecord_keep h2

theorem execCmdlistDone_keep : ∀ a0 a1 a2 a3, keep (after (execCmdlistDone a0 a1 a2 a3) a3) = keep a3 := by
  intro t id records s
  rw [← State_atTime_keep s t]
  unfold execCmdlistDone
  generalize s.atTime t = u
  simp only []
  split
  · rfl
  · rename_i l hl
    have hf : ∀ (is : List Nat) (r : ListRun), ∀ r', is.foldl (fun r i => r.bind (listStep l i)) (some r) = some r' → keep r'.st = keep r.st := by
      intro is
      induction is with
      | nil => intro r r' h; injection h with h; subst h; rfl
      | cons i is ih =>
        intro r r' h
        rw [List.foldl_cons] at h
        cases hs : (some r).bind (listStep l i) with
        | none =>
          rw [hs] at h
          have hn : ∀ js : List Nat, js.foldl (fun r i => r.bind (listStep l i)) (none : Option ListRun) = none := by
            intro js; induction js with
            | nil => rfl
            | cons j js ih => exact ih
          rw [hn] at h; cases h
        | some x =>
          rw [hs] at h
          exact (ih x r' h).trans (listStep_keep hs)
    split
    · rfl
    · rename_i r hr
      rw [after_next, raise_keep, modLearn_keep]
      rcases ite_some hr with hr | hr
      · exact hf _ _ _ hr
      · cases hr

theorem actTableCompareSet_keep (c : Ctx) (q : List Word) (s : State) : keep (actTableCompareSet c q s).st = keep s := by
  unfold actTableCompareSet
  refine withDill_keep _ _ _ (fun i p => ?_)
  (repeat' split) <;> rfl

theorem execTableCompareSet_keep : ∀ a0 a1 a2, keep (after (execTableCompareSet a0 a1 a2) a2) = keep a2 := fun _ _ _ => runCommand_keep _ actTableCompareSet_keep _ _ _

theorem actTableDigestLoad_keep (c : Ctx) (q : List Word) (s : State) : keep (actTableDigestLoad c q s).st = keep s := by
  unfold actTableDigestLoad
  refine withDill_keep _ _ _ (fun i p => ?_)
  simp only [↓keep_mk, ↓keep_fold, ↓id_eq, ↓after_next, ↓fail_keep, ↓done_keep, ↓modDill_keep]
  (repeat' split) <;> simp only [↓keep_mk, ↓keep_fold, ↓id_eq, ↓after_next, ↓fail_keep, ↓done_keep, ↓modDill_keep]

theorem execTableDigestLoad_keep : ∀ a0 a1 a2, keep (after (execTableDigestLoad a0 a1 a2) a2) = keep a2 := fun _ _ _ => runCommand_keep _ actTableDigestLoad_keep _ _ _

theorem actTableCompareStatus_keep (c : Ctx) (q : List Word) (s : State) : keep (actTableCompareStatus c q s).st = keep s := by
  unfold actTableCompareStatus
  refine withDill_keep _ _ _ (fun i p => ?_)
  rfl

theorem execTableCompareStatus_keep : ∀ a0 a1 a2, keep (after (execTableCompareStatus a0 a1 a2) a2) = keep a2 := fun _ _ _ => runCommand_keep _ actTableCompareStatus_keep _ _ _

theorem actLearnProfileSet_keep (c : Ctx) (q : List Word) (s : State) : keep (actLearnProfileSet c q s).st = keep s := by
  unfold actLearnProfileSet
  simp only [↓keep_mk, ↓keep_fold, ↓id_eq, ↓after_next, ↓fail_keep, ↓done_keep, ↓modLearn_keep]
  (repeat' split) <;> simp only [↓keep_mk, ↓keep_fold, ↓id_eq, ↓after_next, ↓fail_keep, ↓done_keep, ↓modLearn_keep]

theorem execLearnProfileSet_keep : ∀ a0 a1 a2, keep (after (execLearnProfileSet a0 a1 a2) a2) = keep a2 := fun _ _ _ => runCommand_keep _ actLearnProfileSet_keep _ _ _

theorem actLearnDomainSet_keep (c : Ctx) (q : List Word) (s : State) : keep (actLearnDomainSet c q s).st = keep s := by
  unfold actLearnDomainSet
  simp only [↓keep_mk, ↓keep_fold, ↓id_eq, ↓after_next, ↓fail_keep, ↓done_keep, ↓modLearn_keep]
  (repeat' split) <;> simp only [↓keep_mk, ↓keep_fold, ↓id_eq, ↓after_next, ↓fail_keep, ↓done_keep, ↓modLearn_keep]

theorem execLearnDomainSet_keep : ∀ a0 a1 a2, keep (after (execLearnDomainSet a0 a1 a2) a2) = keep a2 := fun _ _ _ => runCommand_keep _ actLearnDomainSet_keep _ _ _

theorem actLearnPortSet_keep (c : Ctx) (q : List Word) (s : State) : keep (actLearnPortSet c q s).st = keep s := by
  unfold actLearnPortSet
  simp only [↓keep_mk, ↓keep_fold, ↓id_eq, ↓after_next, ↓fail_keep, ↓done_keep, ↓modLearn_keep]
  (repeat' split) <;> simp only [↓keep_mk, ↓keep_fold, ↓id_eq, ↓after_next, ↓fail_keep, ↓done_keep, ↓modLearn_keep]

theorem execLearnPortSet_keep : ∀ a0 a1 a2, keep (after (execLearnPortSet a0 a1 a2) a2) = keep a2 := fun _ _ _ => runCommand_keep _ actLearnPortSet_keep _ _ _

theorem actLearnPortStatus_keep (c : Ctx) (q : List Word) (s : State) : keep (actLearnPortStatus c q s).st = keep s := by
  unfold actLearnPortStatus
  (repeat' split) <;> rfl

theorem execLearnPortStatus_keep : ∀ a0 a1 a2, keep (after (execLearnPortStatus a0 a1 a2) a2) = keep a2 := fun _ _ _ => runCommand_keep _ actLearnPortStatus_keep _ _ _

theorem actLearnFlushPort_keep (c : Ctx) (q : List Word) (s : State) : keep (actLearnFlushPort c q s).st = keep s := by
  unfold actLearnFlushPort
  simp only [↓keep_mk, ↓keep_fold, ↓id_eq, ↓after_next, ↓fail_keep, ↓modLearn_keep]
  (repeat' split) <;> simp only [↓keep_mk, ↓keep_fold, ↓id_eq, ↓after_next, ↓fail_keep, ↓modLearn_keep]

theorem execLearnFlushPort_keep : ∀ a0 a1 a2, keep (after (execLearnFlushPort a0 a1 a2) a2) = keep a2 := fun _ _ _ => runCommand_keep _ actLearnFlushPort_keep _ _ _

theorem flushBucket_keep : ∀ a0 a1 a2 a3, keep (flushBucket a0 a1 a2 a3) = keep a3 := by
  intro a0 a1 a2 a3
  unfold flushBucket
  repeat' (first
    | with_reducible rfl
    | with_reducible assumption
    | simp only [↓keep_mk, ↓keep_fold, ↓id_eq, ↓after_next, ↓learnCount_keep, ↓learnLog_keep, ↓moveEntry_keep, ↓dillFree_keep, ↓dillPut_keep, ↓modLearn_keep]
    | with_reducible refine keep_ite _ _ _ _ ?_ ?_
    | with_reducible refine keep_after_ite _ _ _ _ _ ?_ ?_
    | with_reducible refine (keep_foldl _ ?_ _ _).trans ?_
    | with_reducible refine (keep_foldl_snd _ ?_ _ _).trans ?_
    | (intros; simp only [*])
    | intro _
    | split)

theorem execFlushDone_keep : ∀ a0 a1 a2, keep (after (execFlushDone a0 a1 a2) a2) = keep a2 := by
  intro a0 a1 a2
  unfold execFlushDone
  repeat' (first
    | with_reducible rfl
    | with_reducible assumption
    | simp only [↓keep_mk, ↓keep_fold, ↓id_eq, ↓after_next, ↓State_atTime_keep, ↓flushBucket_keep, ↓raise_keep, ↓modLearn_keep]
    | with_reducible refine keep_ite _ _ _ _ ?_ ?_
    | with_reducible refine keep_after_ite _ _ _ _ _ ?_ ?_
    | with_reducible refine (keep_foldl _ ?_ _ _).trans ?_
    | with_reducible refine (keep_foldl_snd _ ?_ _ _).trans ?_
    | (intros; simp only [*])
    | intro _
    | split)

theorem actLearnProgramSet_keep (c : Ctx) (q : List Word) (s : State) : keep (actLearnProgramSet c q s).st = keep s := by
  unfold actLearnProgramSet
  simp only [↓keep_mk, ↓keep_fold, ↓id_eq, ↓after_next, ↓fail_keep, ↓done_keep, ↓setCfg_keep]
  (repeat' split) <;> simp only [↓keep_mk, ↓keep_fold, ↓id_eq, ↓after_next, ↓fail_keep, ↓done_keep, ↓setCfg_keep]

theorem execLearnProgramSet_keep : ∀ a0 a1 a2, keep (after (execLearnProgramSet a0 a1 a2) a2) = keep a2 := fun _ _ _ => runCommand_keep _ actLearnProgramSet_keep _ _ _

theorem actLearnDeviceSet_keep (c : Ctx) (q : List Word) (s : State) : keep (actLearnDeviceSet c q s).st = keep s := by
  unfold actLearnDeviceSet
  simp only [↓keep_mk, ↓keep_fold, ↓id_eq, ↓after_next, ↓fail_keep, ↓done_keep, ↓modFwd_keep, ↓modLearn_keep]
  (repeat' split) <;> simp only [↓keep_mk, ↓keep_fold, ↓id_eq, ↓after_next, ↓fail_keep, ↓done_keep, ↓modFwd_keep, ↓modLearn_keep]

theorem execLearnDeviceSet_keep : ∀ a0 a1 a2, keep (after (execLearnDeviceSet a0 a1 a2) a2) = keep a2 := fun _ _ _ => runCommand_keep _ actLearnDeviceSet_keep _ _ _

theorem actLearnCounters_keep (c : Ctx) (q : List Word) (s : State) : keep (actLearnCounters c q s).st = keep s := by
  unfold actLearnCounters
  rfl

theorem execLearnCounters_keep : ∀ a0 a1 a2, keep (after (execLearnCounters a0 a1 a2) a2) = keep a2 := fun _ _ _ => runCommand_keep _ actLearnCounters_keep _ _ _

theorem learnApply_keep : ∀ a0 a1 a2, keep (learnApply a0 a1 a2) = keep a2 := by
  intro a0 a1 a2
  unfold learnApply
  simp only [↓keep_mk, ↓keep_fold, ↓id_eq, ↓after_next, ↓learnCount_keep, ↓setHit_keep, ↓stationMove_keep, ↓learnLog_keep, ↓dillNew_keep, ↓raise_keep]
  (repeat' split) <;> simp only [↓keep_mk, ↓keep_fold, ↓id_eq, ↓after_next, ↓learnCount_keep, ↓setHit_keep, ↓stationMove_keep, ↓learnLog_keep, ↓dillNew_keep, ↓raise_keep]

theorem execLearnRequestApply_keep : ∀ a0 a1 a2, keep (after (execLearnRequestApply a0 a1 a2) a2) = keep a2 := by
  intro a0 a1 a2
  unfold execLearnRequestApply
  simp only [↓keep_mk, ↓keep_fold, ↓id_eq, ↓after_next, ↓State_atTime_keep, ↓modLearn_keep, ↓learnApply_keep]
  (repeat' split) <;> simp only [↓keep_mk, ↓keep_fold, ↓id_eq, ↓after_next, ↓State_atTime_keep, ↓modLearn_keep, ↓learnApply_keep]

theorem execFlapClear_keep : ∀ a0 a1 a2 a3, keep (after (execFlapClear a0 a1 a2 a3) a3) = keep a3 := by
  intro a0 a1 a2 a3
  unfold execFlapClear
  simp only [↓keep_mk, ↓keep_fold, ↓id_eq, ↓after_next, ↓State_atTime_keep, ↓raise_keep, ↓slotDrop_keep]
  (repeat' split) <;> simp only [↓keep_mk, ↓keep_fold, ↓id_eq, ↓after_next, ↓State_atTime_keep, ↓raise_keep, ↓slotDrop_keep]

theorem execMoveWindowEnd_keep : ∀ a0 a1 a2 a3, keep (after (execMoveWindowEnd a0 a1 a2 a3) a3) = keep a3 := by
  intro a0 a1 a2 a3
  unfold execMoveWindowEnd
  simp only [↓keep_mk, ↓keep_fold, ↓id_eq, ↓after_next, ↓State_atTime_keep, ↓slotDrop_keep]
  (repeat' split) <;> simp only [↓keep_mk, ↓keep_fold, ↓id_eq, ↓after_next, ↓State_atTime_keep, ↓slotDrop_keep]

theorem ageEntry_keep : ∀ a0 a1 a2, keep (ageEntry a0 a1 a2) = keep a2 := by
  intro a0 a1 a2
  unfold ageEntry
  simp only [↓keep_mk, ↓keep_fold, ↓id_eq, ↓after_next, ↓dillPut_keep, ↓learnLog_keep, ↓learnCount_keep, ↓dillFree_keep, ↓raise_keep]
  (repeat' split) <;> simp only [↓keep_mk, ↓keep_fold, ↓id_eq, ↓after_next, ↓dillPut_keep, ↓learnLog_keep, ↓learnCount_keep, ↓dillFree_keep, ↓raise_keep]

theorem execSweepVisit_keep : ∀ a0 a1 a2 a3, keep (after (execSweepVisit a0 a1 a2 a3) a3) = keep a3 := by
  intro a0 a1 a2 a3
  unfold execSweepVisit
  repeat' (first
    | with_reducible rfl
    | with_reducible assumption
    | simp only [↓keep_mk, ↓keep_fold, ↓id_eq, ↓after_next, ↓State_atTime_keep, ↓ageEntry_keep]
    | with_reducible refine keep_ite _ _ _ _ ?_ ?_
    | with_reducible refine keep_after_ite _ _ _ _ _ ?_ ?_
    | with_reducible refine (keep_foldl _ ?_ _ _).trans ?_
    | with_reducible refine (keep_foldl_snd _ ?_ _ _).trans ?_
    | (intros; simp only [*])
    | intro _
    | split)

theorem takePage_keep : ∀ {a0 a1 a2 r}, takePage a0 a1 a2 = some r → keep r = keep a2 := by
  intro tab page s r h
  unfold takePage at h
  rcases ite_some h with h | h
  · injection h with h; subst h; exact modLearn_keep _ _
  · rcases ite_some h with h | h
    · injection h with h; subst h; exact modLearn_keep _ _
    · cases h

theorem sweepEnd_keep : ∀ a0, keep (sweepEnd a0) = keep a0 := by
  intro a0
  unfold sweepEnd
  (repeat' split) <;> simp only [↓keep_mk, ↓keep_fold, ↓id_eq, ↓after_next, ↓raise_keep, ↓modLearn_keep, ↓modTab_keep]

theorem execComparePageVisit_keep : ∀ a0 a1 a2 a3 a4 a5, keep (after (execComparePageVisit a0 a1 a2 a3 a4 a5) a5) = keep a5 := by
  intro t tab page unc twin s
  rw [← State_atTime_keep s t]
  unfold execComparePageVisit
  generalize s.atTime t = u
  simp only []
  split
  · rename_i v _ hv
    have h0 : keep v = keep u := by
      rcases ite_some hv with h | h
      · exact takePage_keep h
      · cases h
    refine keep_after_ite _ _ _ _ _ ?_ ?_
    · rw [after_next, modLearn_keep]; exact h0
    · split
      · rw [after_next, sweepEnd_keep, pageFail_keep, tabCount_keep]; exact h0
      · split
        · rw [after_next, sweepEnd_keep]; exact h0
        · rw [after_next, sweepEnd_keep]
          refine keep_ite _ _ _ _ ?_ ?_
          · rw [learnCount_keep, modDill_keep]; exact h0
          · rw [raise_keep, learnCount_keep, modDill_keep, learnCount_keep, modDill_keep]; exact h0
  · rfl

theorem pageRewrite_keep : ∀ a0 a1 a2 a3 a4, keep (pageRewrite a0 a1 a2 a3 a4) = keep a4 := by
  intro a0 a1 a2 a3 a4
  unfold pageRewrite
  repeat' (first
    | with_reducible rfl
    | with_reducible assumption
    | simp only [↓keep_mk, ↓keep_fold, ↓id_eq, ↓after_next, ↓dillFree_keep, ↓dillPut_keep, ↓dillNew_keep]
    | with_reducible refine keep_ite _ _ _ _ ?_ ?_
    | with_reducible refine keep_after_ite _ _ _ _ _ ?_ ?_
    | with_reducible refine (keep_foldl _ ?_ _ _).trans ?_
    | with_reducible refine (keep_foldl_snd _ ?_ _ _).trans ?_
    | (intros; simp only [*])
    | intro _
    | split)

theorem execTwinPageRepair_keep : ∀ a0 a1 a2 a3 a4, keep (after (execTwinPageRepair a0 a1 a2 a3 a4) a4) = keep a4 := by
  intro a0 a1 a2 a3 a4
  unfold execTwinPageRepair
  simp only [↓keep_mk, ↓keep_fold, ↓id_eq, ↓after_next, ↓State_atTime_keep, ↓pageRewrite_keep, ↓raise_keep, ↓learnCount_keep, ↓modDill_keep]
  (repeat' split) <;> simp only [↓keep_mk, ↓keep_fold, ↓id_eq, ↓after_next, ↓State_atTime_keep, ↓pageRewrite_keep, ↓raise_keep, ↓learnCount_keep, ↓modDill_keep]

theorem execFlushWalkerVisit_keep : ∀ a0 a1 a2 a3 a4, keep (after (execFlushWalkerVisit a0 a1 a2 a3 a4) a4) = keep a4 := by
  intro a0 a1 a2 a3 a4
  unfold execFlushWalkerVisit
  simp only [↓keep_mk, ↓keep_fold, ↓id_eq, ↓after_next, ↓State_atTime_keep, ↓flushBucket_keep]
  (repeat' split) <;> simp only [↓keep_mk, ↓keep_fold, ↓id_eq, ↓after_next, ↓State_atTime_keep, ↓flushBucket_keep]

/-! ### TxnOps.lean -/

theorem modTxn_keep : ∀ a0 a1 a2, keep (modTxn a0 a1 a2) = keep a2 := by
  intro a0 a1 a2
  unfold modTxn
  rfl

theorem unmarkCommit_keep : ∀ a0 a1, keep (unmarkCommit a0 a1) = keep a1 := by
  intro a0 a1
  unfold unmarkCommit
  rfl

theorem tablesUndo_keep : ∀ a0 a1, keep (tablesUndo a0 a1) = keep a1 := by
  intro a0 a1
  unfold tablesUndo
  (repeat' split) <;> simp only [↓keep_mk, ↓keep_fold, ↓id_eq, ↓after_next, ↓dillSweep_keep, ↓sorrelCheck_keep]

theorem unprepare_keep : ∀ a0 a1, keep (unprepare a0 a1) = keep a1 := by
  intro a0 a1
  unfold unprepare
  (repeat' split) <;> simp only [↓keep_mk, ↓keep_fold, ↓id_eq, ↓after_next, ↓modTxn_keep, ↓partReturn_keep, ↓unmarkCommit_keep, ↓tablesUndo_keep]

theorem unreserve_keep : ∀ a0 a1, keep (unreserve a0 a1) = keep a1 := by
  intro a0 a1
  unfold unreserve
  rfl

theorem discardTxn_keep : ∀ a0 a1 a2, keep (discardTxn a0 a1 a2) = keep a2 := by
  intro a0 a1 a2
  unfold discardTxn
  simp only [↓keep_mk, ↓keep_fold, ↓id_eq, ↓after_next, ↓putTxn_keep, ↓unreserve_keep, ↓unprepare_keep, ↓complete_keep]
  (repeat' split) <;> simp only [↓keep_mk, ↓keep_fold, ↓id_eq, ↓after_next, ↓putTxn_keep, ↓unreserve_keep, ↓unprepare_keep, ↓complete_keep]

theorem tablesApply_keep : ∀ a0 a1, keep (tablesApply a0 a1) = keep a1 := by
  intro a0 a1
  unfold tablesApply
  (repeat' split) <;> simp only [↓keep_mk, ↓keep_fold, ↓id_eq, ↓after_next, ↓dillSweep_keep, ↓sorrelCheck_keep]

/-! ### HbmOps.lean -/

theorem modStack_keep : ∀ a0 a1 a2, keep (modStack a0 a1 a2) = keep a2 := by
  intro a0 a1 a2
  unfold modStack
  rfl

theorem startMig_keep : ∀ a0 a1, keep (startMig a0 a1) = keep a1 := by
  intro a0 a1
  unfold startMig
  (repeat' split) <;> rfl

theorem remapRecord_keep : ∀ a0 a1, keep (remapRecord a0 a1) = keep a1 := by
  intro a0 a1
  unfold remapRecord
  rfl

theorem rankOut_place_keep : ∀ a0 a1 a2 a3 a4 a5 a6, keep (rankOut.place a0 a1 a2 a3 a4 a5 a6) = keep a6 := by
  intro a0 a1 a2 a3 a4 a5 a6
  unfold rankOut.place
  simp only [↓keep_mk, ↓keep_fold, ↓id_eq, ↓after_next, ↓modStack_keep, ↓startMig_keep, ↓remapRecord_keep]
  (repeat' split) <;> simp only [↓keep_mk, ↓keep_fold, ↓id_eq, ↓after_next, ↓modStack_keep, ↓startMig_keep, ↓remapRecord_keep]

theorem poolRetire_keep : ∀ a0 a1, keep (poolRetire a0 a1) = keep a1 := by
  intro a0 a1
  unfold poolRetire
  simp only [poolCheck_keep, poolCount_keep, modPool_keep]

theorem takeDonor_keep : ∀ a0 a1 a2, keep (takeDonor a0 a1 a2) = keep a2 := by
  intro a0 a1 a2
  unfold takeDonor
  (repeat' split) <;> simp only [↓keep_mk, ↓keep_fold, ↓id_eq, ↓after_next, ↓modStack_keep, ↓poolRetire_keep, ↓remapRecord_keep, ↓raise_keep]

theorem stackFailed_keep : ∀ a0 a1, keep (stackFailed a0 a1) = keep a1 := by
  intro a0 a1
  unfold stackFailed
  simp only [errorAct_keep, raise_keep, modStack_keep]

theorem rankOut_keep : ∀ a0 a1 a2 a3 a4, keep (rankOut a0 a1 a2 a3 a4) = keep a4 := by
  intro a0 a1 a2 a3 a4
  unfold rankOut
  simp only [↓keep_mk, ↓keep_fold, ↓id_eq, ↓after_next, ↓raise_keep, ↓modStack_keep, ↓rankOut_place_keep, ↓takeDonor_keep, ↓stackFailed_keep]
  (repeat' split) <;> simp only [↓keep_mk, ↓keep_fold, ↓id_eq, ↓after_next, ↓raise_keep, ↓modStack_keep, ↓rankOut_place_keep, ↓takeDonor_keep, ↓stackFailed_keep]

theorem modChan_keep : ∀ a0 a1 a2 a3, keep (modChan a0 a1 a2 a3) = keep a3 := by
  intro a0 a1 a2 a3
  unfold modChan
  rfl

theorem hbmCount_keep : ∀ a0 a1 a2 a3, keep (hbmCount a0 a1 a2 a3) = keep a3 := by
  intro a0 a1 a2 a3
  unfold hbmCount
  simp only [ctrAdd48_keep]

theorem queueWrite_keep : ∀ {i c line bs s r}, queueWrite i c line bs s = some r → keep r = keep s := by
  intro i c line bs s r h
  unfold queueWrite at h
  simp only [] at h
  split at h
  · injection h with h; subst h; exact modChan_keep _ _ _ _
  · split at h
    · cases h
    · injection h with h; subst h; exact modChan_keep _ _ _ _

theorem poisonClear_keep : ∀ a0 a1 a2, keep (poisonClear a0 a1 a2) = keep a2 := by
  intro a0 a1 a2
  unfold poisonClear
  rfl

theorem issueWrite_keep : ∀ a0 a1 a2, keep (issueWrite a0 a1 a2) = keep a2 := by
  intro a0 a1 a2
  unfold issueWrite
  (repeat' split) <;> rfl

theorem issueWrites_keep : ∀ a0 a1 a2 a3, keep ((issueWrites a0 a1 a2 a3)) = keep a3 := by
  intro a0 a1 a2 a3
  induction a2 generalizing a0 a1 a3 with
  | zero =>
    unfold issueWrites
    repeat' (first
      | with_reducible rfl
      | with_reducible assumption
      | simp only [↓keep_mk, ↓keep_fold, ↓id_eq, ↓after_next, ↓modChan_keep, ↓issueWrite_keep]
      | simp only [*]
      | with_reducible refine keep_ite _ _ _ _ ?_ ?_
      | with_reducible refine keep_after_ite _ _ _ _ _ ?_ ?_
      | with_reducible refine keep_ite_snd _ _ _ _ ?_ ?_
      | with_reducible refine keep_ite_snd2 _ _ _ _ ?_ ?_
      | with_reducible refine (keep_foldl _ ?_ _ _).trans ?_
      | with_reducible refine (keep_foldl_snd _ ?_ _ _).trans ?_
      | (intros; simp only [*])
      | intro _
      | (split <;> try (rename_i h; first
          | (have k := (congrArg (fun p : _ × State => keep p.2) h).symm; simp only [↓keep_mk, ↓keep_fold, ↓id_eq, ↓after_next, ↓modChan_keep, ↓issueWrite_keep] at k)
          | (have k := (congrArg (fun p : _ × _ × State => keep p.2.2) h).symm; simp only [↓keep_mk, ↓keep_fold, ↓id_eq, ↓after_next, ↓modChan_keep, ↓issueWrite_keep] at k))))
  | succ n ih =>
    unfold issueWrites
    repeat' (first
      | with_reducible rfl
      | with_reducible assumption
      | simp only [↓keep_mk, ↓keep_fold, ↓id_eq, ↓after_next, ↓ih, ↓modChan_keep, ↓issueWrite_keep]
      | simp only [*]
      | with_reducible refine keep_ite _ _ _ _ ?_ ?_
      | with_reducible refine keep_after_ite _ _ _ _ _ ?_ ?_
      | with_reducible refine keep_ite_snd _ _ _ _ ?_ ?_
      | with_reducible refine keep_ite_snd2 _ _ _ _ ?_ ?_
      | with_reducible refine (keep_foldl _ ?_ _ _).trans ?_
      | with_reducible refine (keep_foldl_snd _ ?_ _ _).trans ?_
      | (intros; simp only [*])
      | intro _
      | (split <;> try (rename_i h; first
          | (have k := (congrArg (fun p : _ × State => keep p.2) h).symm; simp only [↓keep_mk, ↓keep_fold, ↓id_eq, ↓after_next, ↓ih, ↓modChan_keep, ↓issueWrite_keep] at k)
          | (have k := (congrArg (fun p : _ × _ × State => keep p.2.2) h).symm; simp only [↓keep_mk, ↓keep_fold, ↓id_eq, ↓after_next, ↓ih, ↓modChan_keep, ↓issueWrite_keep] at k))))

theorem drain_keep : ∀ a0 a1 a2, keep (drain a0 a1 a2) = keep a2 := by
  intro a0 a1 a2
  unfold drain
  simp only [↓keep_mk, ↓keep_fold, ↓id_eq, ↓after_next, ↓issueWrites_keep, ↓hbmCount_keep]
  (repeat' split) <;> simp only [↓keep_mk, ↓keep_fold, ↓id_eq, ↓after_next, ↓issueWrites_keep, ↓hbmCount_keep]

theorem bufferLost_keep : ∀ a0 a1 a2, keep (bufferLost a0 a1 a2) = keep a2 := by
  intro a0 a1 a2
  unfold bufferLost
  (repeat' split) <;> simp only [↓keep_mk, ↓keep_fold, ↓id_eq, ↓after_next, ↓poolCount_keep, ↓modPool_keep, ↓poolCheck_keep, ↓raise_keep]

theorem queueStranded_keep : ∀ a0 a1 a2, keep (queueStranded a0 a1 a2) = keep a2 := by
  intro a0 a1 a2
  unfold queueStranded
  simp only [↓keep_mk, ↓keep_fold, ↓id_eq, ↓after_next, ↓queueFlushAll_keep, ↓modPool_keep, ↓hbmCount_keep, ↓modQueue_keep, ↓statusCheck_keep]
  (repeat' split) <;> simp only [↓keep_mk, ↓keep_fold, ↓id_eq, ↓after_next, ↓queueFlushAll_keep, ↓modPool_keep, ↓hbmCount_keep, ↓modQueue_keep, ↓statusCheck_keep]

theorem pktLost_keep : ∀ a0 a1 a2 a3 a4, keep (pktLost a0 a1 a2 a3 a4) = keep a4 := by
  intro a0 a1 a2 a3 a4
  unfold pktLost
  simp only [capLost_keep, voqRelease_keep, hbmCount_keep]

theorem bufUnreadable_queueFix_keep : ∀ a0 a1, keep (bufUnreadable.queueFix a0 a1) = keep a1 := by
  intro a0 a1
  unfold bufUnreadable.queueFix
  (repeat' split) <;> simp only [↓keep_mk, ↓keep_fold, ↓id_eq, ↓after_next, ↓statusCheck_keep]

theorem bufUnreadable_keep : ∀ a0 a1 a2 a3 a4, keep (bufUnreadable a0 a1 a2 a3 a4) = keep a4 := by
  intro a0 a1 a2 a3 a4
  unfold bufUnreadable
  (repeat' split) <;> simp only [↓keep_mk, ↓keep_fold, ↓id_eq, ↓after_next, ↓pktLost_keep, ↓modFab_keep, ↓bufUnreadable_queueFix_keep, ↓modQueue_keep]

theorem dillLineLost_keep : ∀ a0 a1, keep (dillLineLost a0 a1) = keep a1 := by
  intro a0 a1
  unfold dillLineLost
  (repeat' split) <;> simp only [↓keep_mk, ↓keep_fold, ↓id_eq, ↓after_next, ↓pageFail_keep]

theorem recordLost_keep : ∀ a0 a1 a2, keep (recordLost a0 a1 a2) = keep a2 := by
  intro a0 a1 a2
  unfold recordLost
  (repeat' split) <;> simp only [↓keep_mk, ↓keep_fold, ↓id_eq, ↓after_next, ↓modCircuit_keep, ↓modMon_keep]

theorem unreadable_keep : ∀ a0 a1 a2 a3 a4 a5, keep (unreadable a0 a1 a2 a3 a4 a5) = keep a5 := by
  intro a0 a1 a2 a3 a4 a5
  unfold unreadable
  simp only [↓keep_mk, ↓keep_fold, ↓id_eq, ↓after_next, ↓bufferLost_keep, ↓hbmCount_keep, ↓ctrClear_keep, ↓queueStranded_keep, ↓bufUnreadable_keep, ↓dillLineLost_keep, ↓poisonClear_keep, ↓raise_keep, ↓discardTxn_keep, ↓recordLost_keep]
  (repeat' split) <;> simp only [↓keep_mk, ↓keep_fold, ↓id_eq, ↓after_next, ↓bufferLost_keep, ↓hbmCount_keep, ↓ctrClear_keep, ↓queueStranded_keep, ↓bufUnreadable_keep, ↓dillLineLost_keep, ↓poisonClear_keep, ↓raise_keep, ↓discardTxn_keep, ↓recordLost_keep]

theorem rankCe_keep : ∀ a0 a1 a2, keep (rankCe a0 a1 a2) = keep a2 := by
  intro a0 a1 a2
  unfold rankCe
  simp only [↓keep_mk, ↓keep_fold, ↓id_eq, ↓after_next, ↓modStack_keep, ↓raise_keep, ↓rankOut_keep]
  (repeat' split) <;> simp only [↓keep_mk, ↓keep_fold, ↓id_eq, ↓after_next, ↓modStack_keep, ↓raise_keep, ↓rankOut_keep]

theorem poisonAdd_keep : ∀ a0 a1 a2, keep (poisonAdd a0 a1 a2) = keep a2 := by
  intro a0 a1 a2
  unfold poisonAdd
  rfl

theorem tempStep_keep : ∀ a0 a1 a2 a3 a4, keep ((tempStep a0 a1 a2 a3 a4).2) = keep a4 := by
  intro a0 a1 a2 a3 a4
  unfold tempStep
  simp only [↓keep_mk, ↓keep_fold, ↓id_eq, ↓after_next, ↓raise_keep]
  (repeat' split) <;> simp only [↓keep_mk, ↓keep_fold, ↓id_eq, ↓after_next, ↓raise_keep]

/-! ### Fault.lean -/

theorem actFaultStatus_keep (c : Ctx) (q : List Word) (s : State) : keep (actFaultStatus c q s).st = keep s := by
  unfold actFaultStatus
  rfl

theorem execFaultStatus_keep : ∀ a0 a1 a2, keep (after (execFaultStatus a0 a1 a2) a2) = keep a2 := fun _ _ _ => runCommand_keep _ actFaultStatus_keep _ _ _

theorem actFaultLogRead_keep (c : Ctx) (q : List Word) (s : State) : keep (actFaultLogRead c q s).st = keep s := by
  unfold actFaultLogRead
  simp only [↓keep_mk, ↓keep_fold, ↓id_eq, ↓after_next, ↓fail_keep, ↓reply_keep]
  (repeat' split) <;> simp only [↓keep_mk, ↓keep_fold, ↓id_eq, ↓after_next, ↓fail_keep, ↓reply_keep]

theorem execFaultLogRead_keep : ∀ a0 a1 a2, keep (after (execFaultLogRead a0 a1 a2) a2) = keep a2 := fun _ _ _ => runCommand_keep _ actFaultLogRead_keep _ _ _

theorem actFaultLastBreathSet_keep (c : Ctx) (q : List Word) (s : State) : keep (actFaultLastBreathSet c q s).st = keep s := by
  unfold actFaultLastBreathSet
  simp only [↓keep_mk, ↓keep_fold, ↓id_eq, ↓after_next, ↓fail_keep, ↓done_keep]
  (repeat' split) <;> simp only [↓keep_mk, ↓keep_fold, ↓id_eq, ↓after_next, ↓fail_keep, ↓done_keep]

theorem execFaultLastBreathSet_keep : ∀ a0 a1 a2, keep (after (execFaultLastBreathSet a0 a1 a2) a2) = keep a2 := fun _ _ _ => runCommand_keep _ actFaultLastBreathSet_keep _ _ _

theorem actFaultLastBreathRead_keep (c : Ctx) (q : List Word) (s : State) : keep (actFaultLastBreathRead c q s).st = keep s := by
  unfold actFaultLastBreathRead
  (repeat' split) <;> rfl

theorem execFaultLastBreathRead_keep : ∀ a0 a1 a2, keep (after (execFaultLastBreathRead a0 a1 a2) a2) = keep a2 := fun _ _ _ => runCommand_keep _ actFaultLastBreathRead_keep _ _ _

theorem actFaultClusterReinit_keep (c : Ctx) (q : List Word) (s : State) : keep (actFaultClusterReinit c q s).st = keep s := by
  unfold actFaultClusterReinit
  simp only [↓keep_mk, ↓keep_fold, ↓id_eq, ↓after_next, ↓fail_keep]
  (repeat' split) <;> simp only [↓keep_mk, ↓keep_fold, ↓id_eq, ↓after_next, ↓fail_keep]

theorem execFaultClusterReinit_keep : ∀ a0 a1 a2, keep (after (execFaultClusterReinit a0 a1 a2) a2) = keep a2 := fun _ _ _ => runCommand_keep _ actFaultClusterReinit_keep _ _ _

theorem actFaultReset_keep (c : Ctx) (q : List Word) (s : State) : keep (actFaultReset c q s).st = keep s := by
  unfold actFaultReset
  (repeat' split) <;> rfl

theorem execFaultReset_keep : ∀ a0 a1 a2, keep (after (execFaultReset a0 a1 a2) a2) = keep a2 := fun _ _ _ => runCommand_keep _ actFaultReset_keep _ _ _

theorem actFaultCounters_keep (c : Ctx) (q : List Word) (s : State) : keep (actFaultCounters c q s).st = keep s := by
  unfold actFaultCounters
  rfl

theorem execFaultCounters_keep : ∀ a0 a1 a2, keep (after (execFaultCounters a0 a1 a2) a2) = keep a2 := fun _ _ _ => runCommand_keep _ actFaultCounters_keep _ _ _

theorem execPowerWarning_keep : ∀ a0 a1, keep (after (execPowerWarning a0 a1) a1) = keep a1 := by
  intro a0 a1
  unfold execPowerWarning
  simp only [↓keep_mk, ↓keep_fold, ↓id_eq, ↓after_next, ↓State_atTime_keep, ↓errorAct_keep]
  (repeat' split) <;> simp only [↓keep_mk, ↓keep_fold, ↓id_eq, ↓after_next, ↓State_atTime_keep, ↓errorAct_keep]

theorem halfLost_keep : ∀ a0 a1, keep (halfLost a0 a1) = keep a1 := by
  intro a0 a1
  unfold halfLost
  repeat' (first
    | with_reducible rfl
    | with_reducible assumption
    | simp only [↓keep_mk, ↓keep_fold, ↓id_eq, ↓after_next, ↓capLost_keep, ↓voqRelease_keep, ↓releasePkt_keep, ↓modQueue_keep, ↓modTd_keep, ↓modRx_keep, ↓dropOpen_keep]
    | with_reducible refine keep_ite _ _ _ _ ?_ ?_
    | with_reducible refine keep_after_ite _ _ _ _ _ ?_ ?_
    | with_reducible refine (keep_foldl _ ?_ _ _).trans ?_
    | with_reducible refine (keep_foldl_snd _ ?_ _ _).trans ?_
    | (intros; simp only [*])
    | intro _
    | split)

theorem reinit_keep : ∀ a0 a1, keep (reinit a0 a1) = keep a1 := by
  intro a0 a1
  unfold reinit
  repeat' (first
    | with_reducible rfl
    | with_reducible assumption
    | simp only [↓keep_mk, ↓keep_fold, ↓id_eq, ↓after_next, ↓reorderRelease_keep, ↓capLost_keep, ↓modPipe_keep, ↓slmClear_keep, ↓modLearn_keep, ↓modFwd_keep, ↓modTd_keep, ↓modFab_keep, ↓refreshAll_keep, ↓poolInit_keep, ↓modPool_keep, ↓halfLost_keep]
    | with_reducible refine keep_ite _ _ _ _ ?_ ?_
    | with_reducible refine keep_after_ite _ _ _ _ _ ?_ ?_
    | with_reducible refine (keep_foldl _ ?_ _ _).trans ?_
    | with_reducible refine (keep_foldl_snd _ ?_ _ _).trans ?_
    | (intros; simp only [*])
    | intro _
    | split)

theorem execErrorDetected_keep : ∀ a0 a1 a2 a3 a4, keep (after (execErrorDetected a0 a1 a2 a3 a4) a4) = keep a4 := by
  intro a0 a1 a2 a3 a4
  unfold execErrorDetected
  simp only [↓keep_mk, ↓keep_fold, ↓id_eq, ↓after_next, ↓State_atTime_keep, ↓errorAct_keep, ↓bufferLost_keep]
  (repeat' split) <;> simp only [↓keep_mk, ↓keep_fold, ↓id_eq, ↓after_next, ↓State_atTime_keep, ↓errorAct_keep, ↓bufferLost_keep]

theorem execClusterRestored_keep : ∀ a0 a1 a2, keep (after (execClusterRestored a0 a1 a2) a2) = keep a2 := by
  intro a0 a1 a2
  unfold execClusterRestored
  simp only [↓keep_mk, ↓keep_fold, ↓id_eq, ↓after_next, ↓State_atTime_keep, ↓moveSlices_keep, ↓reinit_keep, ↓raise_keep, ↓faultCount_keep]
  (repeat' split) <;> simp only [↓keep_mk, ↓keep_fold, ↓id_eq, ↓after_next, ↓State_atTime_keep, ↓moveSlices_keep, ↓reinit_keep, ↓raise_keep, ↓faultCount_keep]

theorem abortCommands_keep : ∀ a0, keep (abortCommands a0) = keep a0 := by
  intro a0
  unfold abortCommands
  repeat' (first
    | with_reducible rfl
    | with_reducible assumption
    | simp only [↓keep_mk, ↓keep_fold, ↓id_eq, ↓after_next, ↓unprepare_keep, ↓complete_keep]
    | with_reducible refine keep_ite _ _ _ _ ?_ ?_
    | with_reducible refine keep_after_ite _ _ _ _ _ ?_ ?_
    | with_reducible refine (keep_foldl _ ?_ _ _).trans ?_
    | with_reducible refine (keep_foldl_snd _ ?_ _ _).trans ?_
    | (intros; simp only [*])
    | intro _
    | split)

theorem mpcRestart_keep : ∀ s, keep (mpcRestart s) = keep s := by
  intro s
  unfold mpcRestart
  simp only []
  generalize ha : abortCommands s = w
  have hw : keep w = keep s := by rw [← ha, abortCommands_keep]
  split <;> simp only [keep_mk]
  · refine Eq.trans ?_ hw
    exact (reverted_keep _ _ _).trans (slotState_keep _ _ _)
  · exact hw

theorem execMpcFailed_keep : ∀ a0 a1 a2, keep (after (execMpcFailed a0 a1 a2) a2) = keep a2 := by
  intro t cause s
  rw [← State_atTime_keep s t]
  unfold execMpcFailed
  generalize s.atTime t = u
  simp only []
  refine keep_after_ite _ _ _ _ _ rfl (keep_after_ite _ _ _ _ _ rfl ?_)
  generalize hs : raiseLogged _ _ _ _ = v
  have hv : keep v = keep u := by
    rw [← hs, raiseLogged_keep]
    exact errorReport_keep _ _ _ _
  rw [after_next]
  exact keep_ite _ _ _ _ ((enterSafe_keep _ _).trans hv) ((mpcRestart_keep _).trans hv)

theorem execMpcRecovered_keep : ∀ a0 a1, keep (after (execMpcRecovered a0 a1) a1) = keep a1 := by
  intro a0 a1
  unfold execMpcRecovered
  simp only [↓keep_mk, ↓keep_fold, ↓id_eq, ↓after_next, ↓State_atTime_keep, ↓faultCount_keep, ↓firmwareReady_keep, ↓protUpdate_keep, ↓raise_keep]
  (repeat' split) <;> simp only [↓keep_mk, ↓keep_fold, ↓id_eq, ↓after_next, ↓State_atTime_keep, ↓faultCount_keep, ↓firmwareReady_keep, ↓protUpdate_keep, ↓raise_keep]

theorem execPilotLockstepMismatch_keep : ∀ a0 a1, keep (after (execPilotLockstepMismatch a0 a1) a1) = keep a1 := by
  intro a0 a1
  unfold execPilotLockstepMismatch
  simp only [↓keep_mk, ↓keep_fold, ↓id_eq, ↓after_next, ↓State_atTime_keep, ↓errorAct_keep]
  (repeat' split) <;> simp only [↓keep_mk, ↓keep_fold, ↓id_eq, ↓after_next, ↓State_atTime_keep, ↓errorAct_keep]

theorem execPilotWatchdogExpiry_keep : ∀ a0 a1, keep (after (execPilotWatchdogExpiry a0 a1) a1) = keep a1 := by
  intro a0 a1
  unfold execPilotWatchdogExpiry
  simp only [↓keep_mk, ↓keep_fold, ↓id_eq, ↓after_next, ↓State_atTime_keep, ↓errorAct_keep]
  (repeat' split) <;> simp only [↓keep_mk, ↓keep_fold, ↓id_eq, ↓after_next, ↓State_atTime_keep, ↓errorAct_keep]

/-! ### Board.lean -/

theorem execThermalSensorRead_keep : ∀ a0 a1 a2 a3, keep (after (execThermalSensorRead a0 a1 a2 a3) a3) = keep a3 := by
  intro a0 a1 a2 a3
  unfold execThermalSensorRead
  repeat' (first
    | with_reducible rfl
    | with_reducible assumption
    | simp only [↓keep_mk, ↓keep_fold, ↓id_eq, ↓after_next, ↓State_atTime_keep, ↓errorAct_keep]
    | with_reducible refine keep_ite _ _ _ _ ?_ ?_
    | with_reducible refine keep_after_ite _ _ _ _ _ ?_ ?_
    | with_reducible refine (keep_foldl _ ?_ _ _).trans ?_
    | with_reducible refine (keep_foldl_snd _ ?_ _ _).trans ?_
    | (intros; simp only [*])
    | intro _
    | split)

theorem sageBoundary_keep : ∀ a0, keep (sageBoundary a0) = keep a0 := by
  intro a0
  unfold sageBoundary
  repeat' (first
    | with_reducible rfl
    | with_reducible assumption
    | simp only [↓keep_mk, ↓keep_fold, ↓id_eq, ↓after_next, ↓raise_keep, ↓modTab_keep]
    | with_reducible refine keep_ite _ _ _ _ ?_ ?_
    | with_reducible refine keep_after_ite _ _ _ _ _ ?_ ?_
    | with_reducible refine (keep_foldl _ ?_ _ _).trans ?_
    | with_reducible refine (keep_foldl_snd _ ?_ _ _).trans ?_
    | (intros; simp only [*])
    | intro _
    | split)

theorem avsBoundary_keep : ∀ a0 a1, keep (avsBoundary a0 a1) = keep a1 := by
  intro a0 a1
  unfold avsBoundary
  repeat' (first
    | with_reducible rfl
    | with_reducible assumption
    | simp only [↓keep_mk, ↓keep_fold, ↓id_eq, ↓after_next, ↓emit_keep]
    | with_reducible refine keep_ite _ _ _ _ ?_ ?_
    | with_reducible refine keep_after_ite _ _ _ _ _ ?_ ?_
    | with_reducible refine (keep_foldl _ ?_ _ _).trans ?_
    | with_reducible refine (keep_foldl_snd _ ?_ _ _).trans ?_
    | (intros; simp only [*])
    | intro _
    | split)

theorem execI2c0Access_keep : ∀ a0 a1 a2 a3, keep (after (execI2c0Access a0 a1 a2 a3) a3) = keep a3 := by
  intro a0 a1 a2 a3
  unfold execI2c0Access
  simp only [↓keep_mk, ↓keep_fold, ↓id_eq, ↓after_next, ↓State_atTime_keep]
  (repeat' split) <;> simp only [↓keep_mk, ↓keep_fold, ↓id_eq, ↓after_next, ↓State_atTime_keep]

theorem execJtagInstruction_keep : ∀ a0 a1 a2, keep (after (execJtagInstruction a0 a1 a2) a2) = keep a2 := by
  intro a0 a1 a2
  unfold execJtagInstruction
  simp only [↓keep_mk, ↓keep_fold, ↓id_eq, ↓after_next, ↓State_atTime_keep, ↓emit_keep]
  (repeat' split) <;> simp only [↓keep_mk, ↓keep_fold, ↓id_eq, ↓after_next, ↓State_atTime_keep, ↓emit_keep]

theorem execTrstNAssert_keep : ∀ a0 a1, keep (after (execTrstNAssert a0 a1) a1) = keep a1 := by
  intro a0 a1
  unfold execTrstNAssert
  rfl

/-! ### Device.lean -/

theorem actDeviceInfo_keep (c : Ctx) (q : List Word) (s : State) : keep (actDeviceInfo c q s).st = keep s := by
  unfold actDeviceInfo
  rfl

theorem execDeviceInfo_keep : ∀ a0 a1 a2, keep (after (execDeviceInfo a0 a1 a2) a2) = keep a2 := fun _ _ _ => runCommand_keep _ actDeviceInfo_keep _ _ _

theorem actDeviceMailboxSet_keep (c : Ctx) (q : List Word) (s : State) : keep (actDeviceMailboxSet c q s).st = keep s := by
  unfold actDeviceMailboxSet
  simp only [↓keep_mk, ↓keep_fold, ↓id_eq, ↓after_next, ↓fail_keep, ↓done_keep, ↓putMb_keep]
  (repeat' split) <;> simp only [↓keep_mk, ↓keep_fold, ↓id_eq, ↓after_next, ↓fail_keep, ↓done_keep, ↓putMb_keep]

theorem execDeviceMailboxSet_keep : ∀ a0 a1 a2, keep (after (execDeviceMailboxSet a0 a1 a2) a2) = keep a2 := fun _ _ _ => runCommand_keep _ actDeviceMailboxSet_keep _ _ _

theorem actDeviceMailboxGet_keep (c : Ctx) (q : List Word) (s : State) : keep (actDeviceMailboxGet c q s).st = keep s := by
  unfold actDeviceMailboxGet
  simp only [↓keep_mk, ↓keep_fold, ↓id_eq, ↓after_next, ↓reply_keep]
  (repeat' split) <;> simp only [↓keep_mk, ↓keep_fold, ↓id_eq, ↓after_next, ↓reply_keep]

theorem execDeviceMailboxGet_keep : ∀ a0 a1 a2, keep (after (execDeviceMailboxGet a0 a1 a2) a2) = keep a2 := fun _ _ _ => runCommand_keep _ actDeviceMailboxGet_keep _ _ _

theorem actDeviceEcho_keep (c : Ctx) (q : List Word) (s : State) : keep (actDeviceEcho c q s).st = keep s := by
  unfold actDeviceEcho
  rfl

theorem execDeviceEcho_keep : ∀ a0 a1 a2, keep (after (execDeviceEcho a0 a1 a2) a2) = keep a2 := fun _ _ _ => runCommand_keep _ actDeviceEcho_keep _ _ _

/-! ### Hbm.lean -/

theorem actMemSet_keep (c : Ctx) (q : List Word) (s : State) : keep (actMemSet c q s).st = keep s := by
  unfold actMemSet
  simp only [↓keep_mk, ↓keep_fold, ↓id_eq, ↓after_next, ↓fail_keep, ↓done_keep]
  (repeat' split) <;> simp only [↓keep_mk, ↓keep_fold, ↓id_eq, ↓after_next, ↓fail_keep, ↓done_keep]

theorem execMemSet_keep : ∀ a0 a1 a2, keep (after (execMemSet a0 a1 a2) a2) = keep a2 := fun _ _ _ => runCommand_keep _ actMemSet_keep _ _ _

theorem actMemStatus_keep (c : Ctx) (q : List Word) (s : State) : keep (actMemStatus c q s).st = keep s := by
  unfold actMemStatus
  simp only [↓keep_mk, ↓keep_fold, ↓id_eq, ↓after_next, ↓fail_keep, ↓reply_keep]
  (repeat' split) <;> simp only [↓keep_mk, ↓keep_fold, ↓id_eq, ↓after_next, ↓fail_keep, ↓reply_keep]

theorem execMemStatus_keep : ∀ a0 a1 a2, keep (after (execMemStatus a0 a1 a2) a2) = keep a2 := fun _ _ _ => runCommand_keep _ actMemStatus_keep _ _ _

theorem actMemRemapRead_keep (c : Ctx) (q : List Word) (s : State) : keep (actMemRemapRead c q s).st = keep s := by
  unfold actMemRemapRead
  simp only [↓keep_mk, ↓keep_fold, ↓id_eq, ↓after_next, ↓fail_keep, ↓reply_keep]
  (repeat' split) <;> simp only [↓keep_mk, ↓keep_fold, ↓id_eq, ↓after_next, ↓fail_keep, ↓reply_keep]

theorem execMemRemapRead_keep : ∀ a0 a1 a2, keep (after (execMemRemapRead a0 a1 a2) a2) = keep a2 := fun _ _ _ => runCommand_keep _ actMemRemapRead_keep _ _ _

theorem actMemSpare_keep (c : Ctx) (q : List Word) (s : State) : keep (actMemSpare c q s).st = keep s := by
  unfold actMemSpare
  simp only [↓keep_mk, ↓keep_fold, ↓id_eq, ↓after_next, ↓fail_keep, ↓done_keep, ↓rankOut_keep]
  (repeat' split) <;> simp only [↓keep_mk, ↓keep_fold, ↓id_eq, ↓after_next, ↓fail_keep, ↓done_keep, ↓rankOut_keep]

theorem execMemSpare_keep : ∀ a0 a1 a2, keep (after (execMemSpare a0 a1 a2) a2) = keep a2 := fun _ _ _ => runCommand_keep _ actMemSpare_keep _ _ _

theorem actMemTrainReport_keep (c : Ctx) (q : List Word) (s : State) : keep (actMemTrainReport c q s).st = keep s := by
  unfold actMemTrainReport
  simp only [↓keep_mk, ↓keep_fold, ↓id_eq, ↓after_next, ↓fail_keep, ↓reply_keep]
  (repeat' split) <;> simp only [↓keep_mk, ↓keep_fold, ↓id_eq, ↓after_next, ↓fail_keep, ↓reply_keep]

theorem execMemTrainReport_keep : ∀ a0 a1 a2, keep (after (execMemTrainReport a0 a1 a2) a2) = keep a2 := fun _ _ _ => runCommand_keep _ actMemTrainReport_keep _ _ _

theorem actMemCounters_keep (c : Ctx) (q : List Word) (s : State) : keep (actMemCounters c q s).st = keep s := by
  unfold actMemCounters
  simp only [↓keep_mk, ↓keep_fold, ↓id_eq, ↓after_next, ↓fail_keep, ↓reply_keep]
  (repeat' split) <;> simp only [↓keep_mk, ↓keep_fold, ↓id_eq, ↓after_next, ↓fail_keep, ↓reply_keep]

theorem execMemCounters_keep : ∀ a0 a1 a2, keep (after (execMemCounters a0 a1 a2) a2) = keep a2 := fun _ _ _ => runCommand_keep _ actMemCounters_keep _ _ _

theorem execHbmTrainingDone_keep : ∀ a0 a1 a2 a3 a4 a5, keep (after (execHbmTrainingDone a0 a1 a2 a3 a4 a5) a5) = keep a5 := by
  intro a0 a1 a2 a3 a4 a5
  unfold execHbmTrainingDone
  repeat' (first
    | with_reducible rfl
    | with_reducible assumption
    | simp only [↓keep_mk, ↓keep_fold, ↓id_eq, ↓after_next, ↓State_atTime_keep, ↓stackFailed_keep, ↓modStack_keep, ↓poolRetire_keep, ↓rankOut_keep, ↓raise_keep]
    | with_reducible refine keep_ite _ _ _ _ ?_ ?_
    | with_reducible refine keep_after_ite _ _ _ _ _ ?_ ?_
    | with_reducible refine (keep_foldl _ ?_ _ _).trans ?_
    | with_reducible refine (keep_foldl_snd _ ?_ _ _).trans ?_
    | (intros; simp only [*])
    | intro _
    | split)

theorem replayed_keep : ∀ a0 a1 a2 a3 a4, keep ((replayed a0 a1 a2 a3 a4).2) = keep a4 := by
  intro a0 a1 a2 a3 a4
  unfold replayed
  repeat' (first
    | with_reducible rfl
    | with_reducible assumption
    | simp only [↓keep_mk, ↓keep_fold, ↓id_eq, ↓after_next, ↓hbmCount_keep, ↓rankOut_keep]
    | with_reducible refine keep_ite _ _ _ _ ?_ ?_
    | with_reducible refine keep_after_ite _ _ _ _ _ ?_ ?_
    | with_reducible refine (keep_foldl _ ?_ _ _).trans ?_
    | with_reducible refine (keep_foldl_snd _ ?_ _ _).trans ?_
    | (intros; simp only [*])
    | intro _
    | split)

theorem corrected_keep : ∀ a0 a1 a2 a3, keep (corrected a0 a1 a2 a3) = keep a3 := by
  intro a0 a1 a2 a3
  unfold corrected
  simp only [rankCe_keep, errorAct_keep, hbmCount_keep]

theorem serveRead_keep : ∀ a0 a1 a2 a3 a4 a5 a6, keep (serveRead a0 a1 a2 a3 a4 a5 a6) = keep a6 := by
  intro a0 a1 a2 a3 a4 a5 a6
  unfold serveRead
  simp only [↓keep_mk, ↓keep_fold, ↓id_eq, ↓after_next, ↓hbmCount_keep, ↓modStack_keep, ↓unreadable_keep, ↓errorAct_keep, ↓rankOut_keep, ↓corrected_keep]
  (repeat' split) <;> simp only [↓keep_mk, ↓keep_fold, ↓id_eq, ↓after_next, ↓hbmCount_keep, ↓modStack_keep, ↓unreadable_keep, ↓errorAct_keep, ↓rankOut_keep, ↓corrected_keep]

theorem request_keep : ∀ a0 a1 a2, keep (request a0 a1 a2) = keep a2 := by
  intro i w s
  unfold request
  simp only []
  split
  · split
    · exact modChan_keep _ _ _ _
    · rename_i v h
      rw [drain_keep, replayed_keep, hbmCount_keep]
      rcases orElse_some h with h | h
      · exact queueWrite_keep h
      · exact (queueWrite_keep h).trans (drain_keep _ _ _)
  · split
    · rename_i v h
      have k := congrArg (fun p : Bool × State => keep p.2) h
      simp only [replayed_keep, drain_keep] at k
      exact k.symm
    · rename_i v h
      have k := congrArg (fun p : Bool × State => keep p.2) h
      simp only [replayed_keep, drain_keep] at k
      rw [serveRead_keep]
      exact k.symm

theorem requestsHeld_keep : ∀ a0 a1 a2, keep (requestsHeld a0 a1 a2) = keep a2 := by
  intro a0 a1 a2
  unfold requestsHeld
  repeat' (first
    | with_reducible rfl
    | with_reducible assumption
    | simp only [↓keep_mk, ↓keep_fold, ↓id_eq, ↓after_next, ↓request_keep, ↓modChan_keep]
    | with_reducible refine keep_ite _ _ _ _ ?_ ?_
    | with_reducible refine keep_after_ite _ _ _ _ _ ?_ ?_
    | with_reducible refine (keep_foldl _ ?_ _ _).trans ?_
    | with_reducible refine (keep_foldl_snd _ ?_ _ _).trans ?_
    | (intros; simp only [*])
    | intro _
    | split)

theorem windowOver_keep : ∀ a0 a1 a2 a3, keep (windowOver a0 a1 a2 a3) = keep a3 := by
  intro a0 a1 a2 a3
  unfold windowOver
  simp only [↓keep_mk, ↓keep_fold, ↓id_eq, ↓after_next, ↓modChan_keep, ↓hbmCount_keep, ↓raise_keep, ↓requestsHeld_keep, ↓drain_keep]
  (repeat' split) <;> simp only [↓keep_mk, ↓keep_fold, ↓id_eq, ↓after_next, ↓modChan_keep, ↓hbmCount_keep, ↓raise_keep, ↓requestsHeld_keep, ↓drain_keep]

theorem retrainStarts_keep : ∀ a0, keep (retrainStarts a0) = keep a0 := by
  intro a0
  unfold retrainStarts
  repeat' (first
    | with_reducible rfl
    | with_reducible assumption
    | simp only [↓keep_mk, ↓keep_fold, ↓id_eq, ↓after_next, ↓windowOver_keep, ↓drain_keep, ↓hbmCount_keep, ↓modChan_keep]
    | with_reducible refine keep_ite _ _ _ _ ?_ ?_
    | with_reducible refine keep_after_ite _ _ _ _ _ ?_ ?_
    | with_reducible refine (keep_foldl _ ?_ _ _).trans ?_
    | with_reducible refine (keep_foldl_snd _ ?_ _ _).trans ?_
    | (intros; simp only [*])
    | intro _
    | split)

theorem execRetrainWindowEnd_keep : ∀ a0 a1 a2 a3, keep (after (execRetrainWindowEnd a0 a1 a2 a3) a3) = keep a3 := by
  intro a0 a1 a2 a3
  unfold execRetrainWindowEnd
  simp only [↓keep_mk, ↓keep_fold, ↓id_eq, ↓after_next, ↓State_atTime_keep, ↓windowOver_keep]
  (repeat' split) <;> simp only [↓keep_mk, ↓keep_fold, ↓id_eq, ↓after_next, ↓State_atTime_keep, ↓windowOver_keep]

theorem execHbmRequest_keep : ∀ a0 a1 a2 a3 a4 a5 a6 a7 a8 a9 a10 a11, keep (after (execHbmRequest a0 a1 a2 a3 a4 a5 a6 a7 a8 a9 a10 a11) a11) = keep a11 := by
  intro a0 a1 a2 a3 a4 a5 a6 a7 a8 a9 a10 a11
  unfold execHbmRequest
  simp only [↓keep_mk, ↓keep_fold, ↓id_eq, ↓after_next, ↓State_atTime_keep, ↓issueWrites_keep, ↓modChan_keep, ↓request_keep]
  (repeat' split) <;> simp only [↓keep_mk, ↓keep_fold, ↓id_eq, ↓after_next, ↓State_atTime_keep, ↓issueWrites_keep, ↓modChan_keep, ↓request_keep]

theorem execScrubRead_keep : ∀ a0 a1 a2 a3 a4, keep (after (execScrubRead a0 a1 a2 a3 a4) a4) = keep a4 := by
  intro a0 a1 a2 a3 a4
  unfold execScrubRead
  simp only [↓keep_mk, ↓keep_fold, ↓id_eq, ↓after_next, ↓State_atTime_keep, ↓hbmCount_keep, ↓rankOut_keep, ↓errorAct_keep, ↓corrected_keep]
  (repeat' split) <;> simp only [↓keep_mk, ↓keep_fold, ↓id_eq, ↓after_next, ↓State_atTime_keep, ↓hbmCount_keep, ↓rankOut_keep, ↓errorAct_keep, ↓corrected_keep]

theorem execRankMigrated_keep : ∀ a0 a1 a2 a3, keep (after (execRankMigrated a0 a1 a2 a3) a3) = keep a3 := by
  intro a0 a1 a2 a3
  unfold execRankMigrated
  repeat' (first
    | with_reducible rfl
    | with_reducible assumption
    | simp only [↓keep_mk, ↓keep_fold, ↓id_eq, ↓after_next, ↓State_atTime_keep, ↓poisonAdd_keep, ↓hbmCount_keep, ↓modStack_keep, ↓raise_keep, ↓remapRecord_keep, ↓startMig_keep]
    | with_reducible refine keep_ite _ _ _ _ ?_ ?_
    | with_reducible refine keep_after_ite _ _ _ _ _ ?_ ?_
    | with_reducible refine (keep_foldl _ ?_ _ _).trans ?_
    | with_reducible refine (keep_foldl_snd _ ?_ _ _).trans ?_
    | (intros; simp only [*])
    | intro _
    | split)

theorem execCeWindowEnd_keep : ∀ a0 a1 a2 a3, keep (after (execCeWindowEnd a0 a1 a2 a3) a3) = keep a3 := by
  intro t stack rank s
  rw [← State_atTime_keep s t]
  unfold execCeWindowEnd
  generalize s.atTime t = u
  generalize 28800000 = x
  rw [after_next]
  exact keep_ite _ _ _ _ rfl (modStack_keep _ _ _)

theorem execHbmTemp_keep : ∀ a0 a1 a2 a3, keep (after (execHbmTemp a0 a1 a2 a3) a3) = keep a3 := by
  intro a0 a1 a2 a3
  unfold execHbmTemp
  (repeat' split) <;> simp only [↓keep_mk, ↓keep_fold, ↓id_eq, ↓after_next, ↓modStack_keep, ↓State_atTime_keep, ↓tempStep_keep]

end Sys2Proof.Machine
end

