-- ==== Sys2Proof/Laws/KeepDevice.lean ====
section
/-! SUPPORT. Each function of telemetry, host, power, self-test and time keeps the lifecycle state and the queue of waiting commands (R500). -/

namespace Sys2Proof.Machine

open Sys2Proof

set_option maxRecDepth 4000
set_option linter.unusedSimpArgs false

/-! ### Telem.lean -/

theorem actTelemBankSet_keep (c : Ctx) (q : List Word) (s : State) : keep (actTelemBankSet c q s).st = keep s := by
  unfold actTelemBankSet
  simp only [↓keep_mk, ↓keep_fold, ↓id_eq, ↓after_next, ↓fail_keep, ↓done_keep, ↓modBank_keep]
  (repeat' split) <;> simp only [↓keep_mk, ↓keep_fold, ↓id_eq, ↓after_next, ↓fail_keep, ↓done_keep, ↓modBank_keep]

theorem execTelemBankSet_keep : ∀ a0 a1 a2, keep (after (execTelemBankSet a0 a1 a2) a2) = keep a2 := fun _ _ _ => runCommand_keep _ actTelemBankSet_keep _ _ _

theorem actTelemBankRead_keep (c : Ctx) (q : List Word) (s : State) : keep (actTelemBankRead c q s).st = keep s := by
  unfold actTelemBankRead
  simp only [↓keep_mk, ↓keep_fold, ↓id_eq, ↓after_next, ↓fail_keep, ↓reply_keep]
  (repeat' split) <;> simp only [↓keep_mk, ↓keep_fold, ↓id_eq, ↓after_next, ↓fail_keep, ↓reply_keep]

theorem execTelemBankRead_keep : ∀ a0 a1 a2, keep (after (execTelemBankRead a0 a1 a2) a2) = keep a2 := fun _ _ _ => runCommand_keep _ actTelemBankRead_keep _ _ _

theorem modWindow_keep : ∀ a0 a1 a2, keep (modWindow a0 a1 a2) = keep a2 := by
  intro a0 a1 a2
  unfold modWindow
  rfl

theorem actTelemBwSet_keep (c : Ctx) (q : List Word) (s : State) : keep (actTelemBwSet c q s).st = keep s := by
  unfold actTelemBwSet
  simp only [↓keep_mk, ↓keep_fold, ↓id_eq, ↓after_next, ↓fail_keep, ↓done_keep, ↓modWindow_keep]
  (repeat' split) <;> simp only [↓keep_mk, ↓keep_fold, ↓id_eq, ↓after_next, ↓fail_keep, ↓done_keep, ↓modWindow_keep]

theorem execTelemBwSet_keep : ∀ a0 a1 a2, keep (after (execTelemBwSet a0 a1 a2) a2) = keep a2 := fun _ _ _ => runCommand_keep _ actTelemBwSet_keep _ _ _

theorem actTelemDumpSet_keep (c : Ctx) (q : List Word) (s : State) : keep (actTelemDumpSet c q s).st = keep s := by
  unfold actTelemDumpSet
  simp only [↓keep_mk, ↓keep_fold, ↓id_eq, ↓after_next, ↓fail_keep, ↓done_keep, ↓modTel_keep]
  (repeat' split) <;> simp only [↓keep_mk, ↓keep_fold, ↓id_eq, ↓after_next, ↓fail_keep, ↓done_keep, ↓modTel_keep]

theorem execTelemDumpSet_keep : ∀ a0 a1 a2, keep (after (execTelemDumpSet a0 a1 a2) a2) = keep a2 := fun _ _ _ => runCommand_keep _ actTelemDumpSet_keep _ _ _

theorem actTelemDumpStatus_keep (c : Ctx) (q : List Word) (s : State) : keep (actTelemDumpStatus c q s).st = keep s := by
  unfold actTelemDumpStatus
  rfl

theorem execTelemDumpStatus_keep : ∀ a0 a1 a2, keep (after (execTelemDumpStatus a0 a1 a2) a2) = keep a2 := fun _ _ _ => runCommand_keep _ actTelemDumpStatus_keep _ _ _

theorem actTelemCounters_keep (c : Ctx) (q : List Word) (s : State) : keep (actTelemCounters c q s).st = keep s := by
  unfold actTelemCounters
  rfl

theorem execTelemCounters_keep : ∀ a0 a1 a2, keep (after (execTelemCounters a0 a1 a2) a2) = keep a2 := fun _ _ _ => runCommand_keep _ actTelemCounters_keep _ _ _

theorem actTelemUserGrant_keep (c : Ctx) (q : List Word) (s : State) : keep (actTelemUserGrant c q s).st = keep s := by
  unfold actTelemUserGrant
  simp only [↓keep_mk, ↓keep_fold, ↓id_eq, ↓after_next, ↓fail_keep, ↓done_keep]
  (repeat' split) <;> simp only [↓keep_mk, ↓keep_fold, ↓id_eq, ↓after_next, ↓fail_keep, ↓done_keep]

theorem execTelemUserGrant_keep : ∀ a0 a1 a2, keep (after (execTelemUserGrant a0 a1 a2) a2) = keep a2 := fun _ _ _ => runCommand_keep _ actTelemUserGrant_keep _ _ _

theorem dumpBoundary_keep : ∀ a0 a1, keep (dumpBoundary a0 a1) = keep a1 := by
  intro a0 a1
  unfold dumpBoundary
  repeat' (first
    | with_reducible rfl
    | with_reducible assumption
    | simp only [↓keep_mk, ↓keep_fold, ↓id_eq, ↓after_next, ↓modTel_keep, ↓telCount_keep, ↓hostWrite_keep]
    | with_reducible refine keep_ite _ _ _ _ ?_ ?_
    | with_reducible refine keep_after_ite _ _ _ _ _ ?_ ?_
    | with_reducible refine (keep_foldl _ ?_ _ _).trans ?_
    | with_reducible refine (keep_foldl_snd _ ?_ _ _).trans ?_
    | (intros; simp only [*])
    | intro _
    | split)

theorem bwBoundary_keep : ∀ a0 a1 a2, keep (bwBoundary a0 a1 a2) = keep a2 := by
  intro a0 a1 a2
  unfold bwBoundary
  rfl

theorem bwOpened_keep : ∀ a0 a1, keep (bwOpened a0 a1) = keep a1 := by
  intro a0 a1
  unfold bwOpened
  rfl

theorem bankBoundary_keep : ∀ a0, keep (bankBoundary a0) = keep a0 := by
  intro a0
  unfold bankBoundary
  rfl

theorem execDumpRecordWritten_keep : ∀ a0 a1 a2 a3, keep (after (execDumpRecordWritten a0 a1 a2 a3) a3) = keep a3 := by
  intro a0 a1 a2 a3
  unfold execDumpRecordWritten
  simp only [↓keep_mk, ↓keep_fold, ↓id_eq, ↓after_next, ↓State_atTime_keep, ↓modTel_keep, ↓pioCount_keep, ↓raise_keep, ↓hostWrite_keep, ↓telCount_keep]
  (repeat' split) <;> simp only [↓keep_mk, ↓keep_fold, ↓id_eq, ↓after_next, ↓State_atTime_keep, ↓modTel_keep, ↓pioCount_keep, ↓raise_keep, ↓hostWrite_keep, ↓telCount_keep]

theorem execSampleMpc_keep : ∀ a0 a1 a2 a3, keep (after (execSampleMpc a0 a1 a2 a3) a3) = keep a3 := by
  intro a0 a1 a2 a3
  unfold execSampleMpc
  repeat' (first
    | with_reducible rfl
    | with_reducible assumption
    | simp only [↓keep_mk, ↓keep_fold, ↓id_eq, ↓after_next, ↓State_atTime_keep, ↓modBank_keep, ↓sampleAllowed_keep, ↓raise_keep]
    | simp only [*]
    | with_reducible refine keep_ite _ _ _ _ ?_ ?_
    | with_reducible refine keep_after_ite _ _ _ _ _ ?_ ?_
    | with_reducible refine keep_ite_snd _ _ _ _ ?_ ?_
    | with_reducible refine keep_ite_snd2 _ _ _ _ ?_ ?_
    | with_reducible refine (keep_foldl _ ?_ _ _).trans ?_
    | with_reducible refine (keep_foldl_snd _ ?_ _ _).trans ?_
    | (intros; simp only [*])
    | intro _
    | (split <;> try (rename_i h; first
        | (have k := (congrArg (fun p : _ × State => keep p.2) h).symm; simp only [↓keep_mk, ↓keep_fold, ↓id_eq, ↓after_next, ↓State_atTime_keep, ↓modBank_keep, ↓sampleAllowed_keep, ↓raise_keep] at k)
        | (have k := (congrArg (fun p : _ × _ × State => keep p.2.2) h).symm; simp only [↓keep_mk, ↓keep_fold, ↓id_eq, ↓after_next, ↓State_atTime_keep, ↓modBank_keep, ↓sampleAllowed_keep, ↓raise_keep] at k))))

/-! ### HostOps.lean -/

theorem freeBytes_keep : ∀ a0 a1, keep ((freeBytes a0 a1).2) = keep a1 := by
  intro a0 a1
  unfold freeBytes
  rfl

theorem modHost_keep : ∀ a0 a1, keep (modHost a0 a1) = keep a1 := by
  intro a0 a1
  unfold modHost
  rfl

theorem mbRefuse_keep : ∀ a0 a1 a2, keep (mbRefuse a0 a1 a2) = keep a2 := by
  intro a0 a1 a2
  unfold mbRefuse
  simp only [↓keep_mk, ↓keep_fold, ↓id_eq, ↓after_next, ↓lockViol_keep, ↓raise_keep, ↓putMb_keep]
  (repeat' split) <;> simp only [↓keep_mk, ↓keep_fold, ↓id_eq, ↓after_next, ↓lockViol_keep, ↓raise_keep, ↓putMb_keep]

theorem hostFed_keep : ∀ a0 a1, keep (hostFed a0 a1) = keep a1 := by
  intro a0 a1
  unfold hostFed
  repeat' (first
    | with_reducible rfl
    | with_reducible assumption
    | simp only [↓keep_mk, ↓keep_fold, ↓id_eq, ↓after_next, ↓hostWrite_keep]
    | with_reducible refine keep_ite _ _ _ _ ?_ ?_
    | with_reducible refine keep_after_ite _ _ _ _ _ ?_ ?_
    | with_reducible refine (keep_foldl _ ?_ _ _).trans ?_
    | with_reducible refine (keep_foldl_snd _ ?_ _ _).trans ?_
    | (intros; simp only [*])
    | intro _
    | split)

theorem mbDoneWrite_keep : ∀ a0 a1, keep (mbDoneWrite a0 a1) = keep a1 := by
  intro a0 a1
  unfold mbDoneWrite
  rfl

theorem lockViols_keep : ∀ a0 a1, keep (lockViols a0 a1) = keep a1 := by
  intro a0 a1
  unfold lockViols
  repeat' (first
    | with_reducible rfl
    | with_reducible assumption
    | simp only [↓keep_mk, ↓keep_fold, ↓id_eq, ↓after_next, ↓lockViol_keep]
    | with_reducible refine keep_ite _ _ _ _ ?_ ?_
    | with_reducible refine keep_after_ite _ _ _ _ _ ?_ ?_
    | with_reducible refine (keep_foldl _ ?_ _ _).trans ?_
    | with_reducible refine (keep_foldl_snd _ ?_ _ _).trans ?_
    | (intros; simp only [*])
    | intro _
    | split)

theorem evrCtrlWrite_keep : ∀ a0 a1, keep (evrCtrlWrite a0 a1) = keep a1 := by
  intro a0 a1
  unfold evrCtrlWrite
  simp only [lockViols_keep, modHost_keep]

theorem evrConsumerWrite_keep : ∀ a0 a1, keep (evrConsumerWrite a0 a1) = keep a1 := by
  intro a0 a1
  unfold evrConsumerWrite
  (repeat' split) <;> rfl

theorem evrLostRead_keep : ∀ a0, keep (evrLostRead a0) = keep a0 := by
  intro a0
  unfold evrLostRead
  rfl

theorem tsrConsumerWrite_keep : ∀ a0 a1, keep (tsrConsumerWrite a0 a1) = keep a1 := by
  intro a0 a1
  unfold tsrConsumerWrite
  rfl

theorem modRing_keep : ∀ a0 a1 a2 a3, keep (modRing a0 a1 a2 a3) = keep a3 := by
  intro a0 a1 a2 a3
  unfold modRing
  rfl

theorem ringCtrlWrite_keep : ∀ a0 a1 a2 a3, keep (ringCtrlWrite a0 a1 a2 a3) = keep a3 := by
  intro a0 a1 a2 a3
  unfold ringCtrlWrite
  simp only [lockViols_keep, modRing_keep]

theorem tailWrite_keep : ∀ a0 a1 a2 a3, keep (tailWrite a0 a1 a2 a3) = keep a3 := by
  intro a0 a1 a2 a3
  unfold tailWrite
  rfl

theorem mbHostWrite_keep : ∀ a0 a1 a2, keep (mbHostWrite a0 a1 a2) = keep a2 := by
  intro a0 a1 a2
  unfold mbHostWrite
  simp only [↓keep_mk, ↓keep_fold, ↓id_eq, ↓after_next, ↓mbRefuse_keep]
  (repeat' split) <;> simp only [↓keep_mk, ↓keep_fold, ↓id_eq, ↓after_next, ↓mbRefuse_keep]

theorem ringWrite_keep : ∀ a0 a1 a2 a3 a4, keep (ringWrite a0 a1 a2 a3 a4) = keep a4 := by
  intro a0 a1 a2 a3 a4
  unfold ringWrite
  (repeat' split) <;> simp only [↓keep_mk, ↓keep_fold, ↓id_eq, ↓after_next, ↓lockViols_keep, ↓modRing_keep, ↓ringCtrlWrite_keep, ↓tailWrite_keep, ↓pioCount_keep]

theorem msixWrite_keep : ∀ a0 a1 a2 a3, keep (msixWrite a0 a1 a2 a3) = keep a3 := by
  intro a0 a1 a2 a3
  unfold msixWrite
  simp only [↓keep_mk, ↓keep_fold, ↓id_eq, ↓after_next, ↓modHost_keep, ↓emit_keep]
  (repeat' split) <;> simp only [↓keep_mk, ↓keep_fold, ↓id_eq, ↓after_next, ↓modHost_keep, ↓emit_keep]

theorem mailboxReset_keep : ∀ a0, keep (mailboxReset a0) = keep a0 := by
  intro a0
  unfold mailboxReset
  repeat' (first
    | with_reducible rfl
    | with_reducible assumption
    | simp only [↓keep_mk, ↓keep_fold, ↓id_eq, ↓after_next, ↓modHost_keep, ↓setDone_keep]
    | with_reducible refine keep_ite _ _ _ _ ?_ ?_
    | with_reducible refine keep_after_ite _ _ _ _ _ ?_ ?_
    | with_reducible refine (keep_foldl _ ?_ _ _).trans ?_
    | with_reducible refine (keep_foldl_snd _ ?_ _ _).trans ?_
    | (intros; simp only [*])
    | intro _
    | split)

theorem ringReset_keep : ∀ a0 a1 a2, keep (ringReset a0 a1 a2) = keep a2 := by
  intro a0 a1 a2
  unfold ringReset
  simp only [↓keep_mk, ↓keep_fold, ↓id_eq, ↓after_next, ↓ringCount_keep, ↓modRing_keep]
  (repeat' split) <;> simp only [↓keep_mk, ↓keep_fold, ↓id_eq, ↓after_next, ↓ringCount_keep, ↓modRing_keep]

theorem functionReset_keep : ∀ a0 a1, keep (functionReset a0 a1) = keep a1 := by
  intro a0 a1
  unfold functionReset
  repeat' (first
    | with_reducible rfl
    | with_reducible assumption
    | simp only [↓keep_mk, ↓keep_fold, ↓id_eq, ↓after_next, ↓modHost_keep, ↓mailboxReset_keep, ↓ringReset_keep]
    | with_reducible refine keep_ite _ _ _ _ ?_ ?_
    | with_reducible refine keep_after_ite _ _ _ _ _ ?_ ?_
    | with_reducible refine (keep_foldl _ ?_ _ _).trans ?_
    | with_reducible refine (keep_foldl_snd _ ?_ _ _).trans ?_
    | (intros; simp only [*])
    | intro _
    | split)

theorem fillBuffers_keep : ∀ a0 a1 a2 a3 a4, keep ((fillBuffers a0 a1 a2 a3 a4)) = keep a4 := by
  intro a0 a1 a2 a3 a4
  induction a1 generalizing a0 a2 a3 a4 with
  | zero =>
    unfold fillBuffers
    repeat' (first
      | with_reducible rfl
      | with_reducible assumption
      | simp only [↓keep_mk, ↓keep_fold, ↓id_eq, ↓after_next, ↓hostWrite_keep]
      | simp only [*]
      | with_reducible refine keep_ite _ _ _ _ ?_ ?_
      | with_reducible refine keep_after_ite _ _ _ _ _ ?_ ?_
      | with_reducible refine keep_ite_snd _ _ _ _ ?_ ?_
      | with_reducible refine keep_ite_snd2 _ _ _ _ ?_ ?_
      | with_reducible refine (keep_foldl _ ?_ _ _).trans ?_
      | with_reducible refine (keep_foldl_snd _ ?_ _ _).trans ?_
      | (intros; simp only [*])
      | intro _
      | (split <;> try (rename_i h; first
          | (have k := (congrArg (fun p : _ × State => keep p.2) h).symm; simp only [↓keep_mk, ↓keep_fold, ↓id_eq, ↓after_next, ↓hostWrite_keep] at k)
          | (have k := (congrArg (fun p : _ × _ × State => keep p.2.2) h).symm; simp only [↓keep_mk, ↓keep_fold, ↓id_eq, ↓after_next, ↓hostWrite_keep] at k))))
  | succ n ih =>
    unfold fillBuffers
    repeat' (first
      | with_reducible rfl
      | with_reducible assumption
      | simp only [↓keep_mk, ↓keep_fold, ↓id_eq, ↓after_next, ↓ih, ↓hostWrite_keep]
      | simp only [*]
      | with_reducible refine keep_ite _ _ _ _ ?_ ?_
      | with_reducible refine keep_after_ite _ _ _ _ _ ?_ ?_
      | with_reducible refine keep_ite_snd _ _ _ _ ?_ ?_
      | with_reducible refine keep_ite_snd2 _ _ _ _ ?_ ?_
      | with_reducible refine (keep_foldl _ ?_ _ _).trans ?_
      | with_reducible refine (keep_foldl_snd _ ?_ _ _).trans ?_
      | (intros; simp only [*])
      | intro _
      | (split <;> try (rename_i h; first
          | (have k := (congrArg (fun p : _ × State => keep p.2) h).symm; simp only [↓keep_mk, ↓keep_fold, ↓id_eq, ↓after_next, ↓ih, ↓hostWrite_keep] at k)
          | (have k := (congrArg (fun p : _ × _ × State => keep p.2.2) h).symm; simp only [↓keep_mk, ↓keep_fold, ↓id_eq, ↓after_next, ↓ih, ↓hostWrite_keep] at k))))

theorem headBack_keep : ∀ a0 a1, keep (headBack a0 a1) = keep a1 := by
  intro a0 a1
  unfold headBack
  rfl

theorem moderate_keep : ∀ a0 a1, keep (moderate a0 a1) = keep a1 := by
  intro a0 a1
  unfold moderate
  simp only [↓keep_mk, ↓keep_fold, ↓id_eq, ↓after_next, ↓signal_keep, ↓modHost_keep, ↓modRing_keep, ↓headBack_keep]
  (repeat' split) <;> simp only [↓keep_mk, ↓keep_fold, ↓id_eq, ↓after_next, ↓signal_keep, ↓modHost_keep, ↓modRing_keep, ↓headBack_keep]

theorem rxDeliver_keep : ∀ a0 a1, keep (rxDeliver a0 a1) = keep a1 := by
  intro a0 a1
  unfold rxDeliver
  simp only [↓keep_mk, ↓keep_fold, ↓id_eq, ↓after_next, ↓freeBytes_keep, ↓fillBuffers_keep, ↓hostWriteWords_keep, ↓modRing_keep, ↓moderate_keep, ↓ringCount_keep]
  (repeat' split) <;> simp only [↓keep_mk, ↓keep_fold, ↓id_eq, ↓after_next, ↓freeBytes_keep, ↓fillBuffers_keep, ↓hostWriteWords_keep, ↓modRing_keep, ↓moderate_keep, ↓ringCount_keep]

theorem injectLookup_keep : ∀ a0 a1 a2, keep (injectLookup a0 a1 a2) = keep a2 := by
  intro a0 a1 a2
  unfold injectLookup
  rfl

theorem txServe_keep : ∀ a0, keep (txServe a0) = keep a0 := by
  intro a0
  unfold txServe
  repeat' (first
    | with_reducible rfl
    | with_reducible assumption
    | simp only [↓keep_mk, ↓keep_fold, ↓id_eq, ↓after_next, ↓modHost_keep, ↓ringCount_keep, ↓raise_keep, ↓modRing_keep, ↓injectLookup_keep, ↓moderate_keep, ↓headBack_keep]
    | with_reducible refine keep_ite _ _ _ _ ?_ ?_
    | with_reducible refine keep_after_ite _ _ _ _ _ ?_ ?_
    | with_reducible refine (keep_foldl _ ?_ _ _).trans ?_
    | with_reducible refine (keep_foldl_snd _ ?_ _ _).trans ?_
    | (intros; simp only [*])
    | intro _
    | split)

theorem dmaFail_keep : ∀ a0 a1 a2, keep (dmaFail a0 a1 a2) = keep a2 := by
  intro a0 a1 a2
  unfold dmaFail
  simp only [↓keep_mk, ↓keep_fold, ↓id_eq, ↓after_next, ↓raise_keep, ↓pioCount_keep, ↓modHost_keep, ↓signal_keep, ↓modRing_keep]
  (repeat' split) <;> simp only [↓keep_mk, ↓keep_fold, ↓id_eq, ↓after_next, ↓raise_keep, ↓pioCount_keep, ↓modHost_keep, ↓signal_keep, ↓modRing_keep]

theorem eventWrite_keep : ∀ a0 a1, keep (eventWrite a0 a1) = keep a1 := by
  intro a0 a1
  unfold eventWrite
  simp only [hostWriteWords_keep, moderate_keep, modHost_keep]

/-! ### Pio.lean -/

theorem actPioRingMap_keep (c : Ctx) (q : List Word) (s : State) : keep (actPioRingMap c q s).st = keep s := by
  unfold actPioRingMap
  (repeat' split) <;> rfl

theorem execPioRingMap_keep : ∀ a0 a1 a2, keep (after (execPioRingMap a0 a1 a2) a2) = keep a2 := fun _ _ _ => runCommand_keep _ actPioRingMap_keep _ _ _

theorem actPioCounters_keep (c : Ctx) (q : List Word) (s : State) : keep (actPioCounters c q s).st = keep s := by
  unfold actPioCounters
  (repeat' split) <;> rfl

theorem execPioCounters_keep : ∀ a0 a1 a2, keep (after (execPioCounters a0 a1 a2) a2) = keep a2 := fun _ _ _ => runCommand_keep _ actPioCounters_keep _ _ _

/-! ### Power.lean -/

theorem tolChange_keep : ∀ a0 a1 a2, keep (tolChange a0 a1 a2) = keep a2 := by
  intro a0 a1 a2
  unfold tolChange
  rfl

theorem actPowerTolSet_keep (c : Ctx) (q : List Word) (s : State) : keep (actPowerTolSet c q s).st = keep s := by
  unfold actPowerTolSet
  (repeat' split) <;> rfl

theorem execPowerTolSet_keep : ∀ a0 a1 a2, keep (after (execPowerTolSet a0 a1 a2) a2) = keep a2 := fun _ _ _ => runCommand_keep _ actPowerTolSet_keep _ _ _

theorem actPowerPortSet_keep (c : Ctx) (q : List Word) (s : State) : keep (actPowerPortSet c q s).st = keep s := by
  unfold actPowerPortSet
  simp only [↓keep_mk, ↓keep_fold, ↓id_eq, ↓after_next, ↓fail_keep, ↓done_keep, ↓tolChange_keep]
  (repeat' split) <;> simp only [↓keep_mk, ↓keep_fold, ↓id_eq, ↓after_next, ↓fail_keep, ↓done_keep, ↓tolChange_keep]

theorem execPowerPortSet_keep : ∀ a0 a1 a2, keep (after (execPowerPortSet a0 a1 a2) a2) = keep a2 := fun _ _ _ => runCommand_keep _ actPowerPortSet_keep _ _ _

theorem actPowerConcentrateSet_keep (c : Ctx) (q : List Word) (s : State) : keep (actPowerConcentrateSet c q s).st = keep s := by
  unfold actPowerConcentrateSet
  (repeat' split) <;> rfl

theorem execPowerConcentrateSet_keep : ∀ a0 a1 a2, keep (after (execPowerConcentrateSet a0 a1 a2) a2) = keep a2 := fun _ _ _ => runCommand_keep _ actPowerConcentrateSet_keep _ _ _

theorem actPowerDomainStatus_keep (c : Ctx) (q : List Word) (s : State) : keep (actPowerDomainStatus c q s).st = keep s := by
  unfold actPowerDomainStatus
  simp only [↓keep_mk, ↓keep_fold, ↓id_eq, ↓after_next, ↓fail_keep, ↓reply_keep]
  (repeat' split) <;> simp only [↓keep_mk, ↓keep_fold, ↓id_eq, ↓after_next, ↓fail_keep, ↓reply_keep]

theorem execPowerDomainStatus_keep : ∀ a0 a1 a2, keep (after (execPowerDomainStatus a0 a1 a2) a2) = keep a2 := fun _ _ _ => runCommand_keep _ actPowerDomainStatus_keep _ _ _

theorem actPowerStatus_keep (c : Ctx) (q : List Word) (s : State) : keep (actPowerStatus c q s).st = keep s := by
  unfold actPowerStatus
  rfl

theorem execPowerStatus_keep : ∀ a0 a1 a2, keep (after (execPowerStatus a0 a1 a2) a2) = keep a2 := fun _ _ _ => runCommand_keep _ actPowerStatus_keep _ _ _

theorem actPowerCounters_keep (c : Ctx) (q : List Word) (s : State) : keep (actPowerCounters c q s).st = keep s := by
  unfold actPowerCounters
  simp only [↓keep_mk, ↓keep_fold, ↓id_eq, ↓after_next, ↓fail_keep, ↓reply_keep]
  (repeat' split) <;> simp only [↓keep_mk, ↓keep_fold, ↓id_eq, ↓after_next, ↓fail_keep, ↓reply_keep]

theorem execPowerCounters_keep : ∀ a0 a1 a2, keep (after (execPowerCounters a0 a1 a2) a2) = keep a2 := fun _ _ _ => runCommand_keep _ actPowerCounters_keep _ _ _

theorem execDomainEnterFloor_keep : ∀ a0 a1 a2, keep (after (execDomainEnterFloor a0 a1 a2) a2) = keep a2 := by
  intro a0 a1 a2
  unfold execDomainEnterFloor
  simp only [↓keep_mk, ↓keep_fold, ↓id_eq, ↓after_next, ↓State_atTime_keep, ↓setDom_keep]
  (repeat' split) <;> simp only [↓keep_mk, ↓keep_fold, ↓id_eq, ↓after_next, ↓State_atTime_keep, ↓setDom_keep]

theorem execDomainWake_keep : ∀ a0 a1 a2 a3, keep (after (execDomainWake a0 a1 a2 a3) a3) = keep a3 := by
  intro a0 a1 a2 a3
  unfold execDomainWake
  repeat' (first
    | with_reducible rfl
    | with_reducible assumption
    | simp only [↓keep_mk, ↓keep_fold, ↓id_eq, ↓after_next, ↓State_atTime_keep, ↓wakeDom_keep]
    | with_reducible refine keep_ite _ _ _ _ ?_ ?_
    | with_reducible refine keep_after_ite _ _ _ _ _ ?_ ?_
    | with_reducible refine (keep_foldl _ ?_ _ _).trans ?_
    | with_reducible refine (keep_foldl_snd _ ?_ _ _).trans ?_
    | (intros; simp only [*])
    | intro _
    | split)

theorem execDomainWakeDone_deconcentrated_keep : ∀ a0 a1, keep (execDomainWakeDone.deconcentrated a0 a1) = keep a1 := by
  intro a0 a1
  unfold execDomainWakeDone.deconcentrated
  (repeat' split) <;> rfl

theorem execDomainWakeDone_keep : ∀ a0 a1 a2, keep (after (execDomainWakeDone a0 a1 a2) a2) = keep a2 := by
  intro a0 a1 a2
  unfold execDomainWakeDone
  simp only [↓keep_mk, ↓keep_fold, ↓id_eq, ↓after_next, ↓State_atTime_keep, ↓reorderRelease_keep, ↓execDomainWakeDone_deconcentrated_keep, ↓setDom_keep]
  (repeat' split) <;> simp only [↓keep_mk, ↓keep_fold, ↓id_eq, ↓after_next, ↓State_atTime_keep, ↓reorderRelease_keep, ↓execDomainWakeDone_deconcentrated_keep, ↓setDom_keep]

theorem execDeconcentrate_keep : ∀ a0 a1 a2, keep (after (execDeconcentrate a0 a1 a2) a2) = keep a2 := by
  intro a0 a1 a2
  unfold execDeconcentrate
  simp only [↓keep_mk, ↓keep_fold, ↓id_eq, ↓after_next, ↓State_atTime_keep, ↓raise_keep, ↓powCount_keep, ↓wakeDom_keep]
  (repeat' split) <;> simp only [↓keep_mk, ↓keep_fold, ↓id_eq, ↓after_next, ↓State_atTime_keep, ↓raise_keep, ↓powCount_keep, ↓wakeDom_keep]

/-! ### SelfTest.lean -/

theorem actSoundSet_keep (c : Ctx) (q : List Word) (s : State) : keep (actSoundSet c q s).st = keep s := by
  unfold actSoundSet
  simp only [↓keep_mk, ↓keep_fold, ↓id_eq, ↓after_next, ↓fail_keep, ↓done_keep]
  (repeat' split) <;> simp only [↓keep_mk, ↓keep_fold, ↓id_eq, ↓after_next, ↓fail_keep, ↓done_keep]

theorem execSoundSet_keep : ∀ a0 a1 a2, keep (after (execSoundSet a0 a1 a2) a2) = keep a2 := fun _ _ _ => runCommand_keep _ actSoundSet_keep _ _ _

theorem actSoundNow_keep (c : Ctx) (q : List Word) (s : State) : keep (actSoundNow c q s).st = keep s := by
  unfold actSoundNow
  simp only [↓keep_mk, ↓keep_fold, ↓id_eq, ↓after_next, ↓fail_keep]
  (repeat' split) <;> simp only [↓keep_mk, ↓keep_fold, ↓id_eq, ↓after_next, ↓fail_keep]

theorem execSoundNow_keep : ∀ a0 a1 a2, keep (after (execSoundNow a0 a1 a2) a2) = keep a2 := fun _ _ _ => runCommand_keep _ actSoundNow_keep _ _ _

theorem actSoundStatus_keep (c : Ctx) (q : List Word) (s : State) : keep (actSoundStatus c q s).st = keep s := by
  unfold actSoundStatus
  simp only [↓keep_mk, ↓keep_fold, ↓id_eq, ↓after_next, ↓fail_keep, ↓reply_keep]
  (repeat' split) <;> simp only [↓keep_mk, ↓keep_fold, ↓id_eq, ↓after_next, ↓fail_keep, ↓reply_keep]

theorem execSoundStatus_keep : ∀ a0 a1 a2, keep (after (execSoundStatus a0 a1 a2) a2) = keep a2 := fun _ _ _ => runCommand_keep _ actSoundStatus_keep _ _ _

theorem actSoundSliceInfo_keep (c : Ctx) (q : List Word) (s : State) : keep (actSoundSliceInfo c q s).st = keep s := by
  unfold actSoundSliceInfo
  simp only [↓keep_mk, ↓keep_fold, ↓id_eq, ↓after_next, ↓fail_keep, ↓reply_keep]
  (repeat' split) <;> simp only [↓keep_mk, ↓keep_fold, ↓id_eq, ↓after_next, ↓fail_keep, ↓reply_keep]

theorem execSoundSliceInfo_keep : ∀ a0 a1 a2, keep (after (execSoundSliceInfo a0 a1 a2) a2) = keep a2 := fun _ _ _ => runCommand_keep _ actSoundSliceInfo_keep _ _ _

theorem actScanFull_keep (c : Ctx) (q : List Word) (s : State) : keep (actScanFull c q s).st = keep s := by
  unfold actScanFull
  (repeat' split) <;> simp only [↓keep_mk, ↓keep_fold, ↓id_eq, ↓after_next, ↓zeroise_keep, ↓dieClear_keep]

theorem execScanFull_keep : ∀ a0 a1 a2, keep (after (execScanFull a0 a1 a2) a2) = keep a2 := fun _ _ _ => runCommand_keep _ actScanFull_keep _ _ _

theorem actScanResult_keep (c : Ctx) (q : List Word) (s : State) : keep (actScanResult c q s).st = keep s := by
  unfold actScanResult
  (repeat' split) <;> rfl

theorem execScanResult_keep : ∀ a0 a1 a2, keep (after (execScanResult a0 a1 a2) a2) = keep a2 := fun _ _ _ => runCommand_keep _ actScanResult_keep _ _ _

theorem actLifecycleChallenge_keep (c : Ctx) (q : List Word) (s : State) : keep (actLifecycleChallenge c q s).st = keep s := by
  unfold actLifecycleChallenge
  rfl

theorem execLifecycleChallenge_keep : ∀ a0 a1 a2, keep (after (execLifecycleChallenge a0 a1 a2) a2) = keep a2 := fun _ _ _ => runCommand_keep _ actLifecycleChallenge_keep _ _ _

theorem actLifecycleKeyRevoke_keep (c : Ctx) (q : List Word) (s : State) : keep (actLifecycleKeyRevoke c q s).st = keep s := by
  unfold actLifecycleKeyRevoke
  simp only [↓keep_mk, ↓keep_fold, ↓id_eq, ↓after_next, ↓fail_keep, ↓done_keep]
  (repeat' split) <;> simp only [↓keep_mk, ↓keep_fold, ↓id_eq, ↓after_next, ↓fail_keep, ↓done_keep]

theorem execLifecycleKeyRevoke_keep : ∀ a0 a1 a2, keep (after (execLifecycleKeyRevoke a0 a1 a2) a2) = keep a2 := fun _ _ _ => runCommand_keep _ actLifecycleKeyRevoke_keep _ _ _

theorem actSelftestCounters_keep (c : Ctx) (q : List Word) (s : State) : keep (actSelftestCounters c q s).st = keep s := by
  unfold actSelftestCounters
  rfl

theorem execSelftestCounters_keep : ∀ a0 a1 a2, keep (after (execSelftestCounters a0 a1 a2) a2) = keep a2 := fun _ _ _ => runCommand_keep _ actSelftestCounters_keep _ _ _

theorem execNonceExpiry_keep : ∀ a0 a1, keep (after (execNonceExpiry a0 a1) a1) = keep a1 := by
  intro a0 a1
  unfold execNonceExpiry
  simp only [↓keep_mk, ↓keep_fold, ↓id_eq, ↓after_next, ↓State_atTime_keep]
  (repeat' split) <;> simp only [↓keep_mk, ↓keep_fold, ↓id_eq, ↓after_next, ↓State_atTime_keep]

theorem reenable_keep : ∀ a0 a1, keep (reenable a0 a1) = keep a1 := by
  intro a0 a1
  unfold reenable
  (repeat' split) <;> simp only [↓keep_mk, ↓keep_fold, ↓id_eq, ↓after_next, ↓enterService_keep]

theorem modSlice_keep : ∀ a0 a1 a2, keep (modSlice a0 a1 a2) = keep a2 := by
  intro a0 a1 a2
  unfold modSlice
  rfl

theorem soundingReturn_keep : ∀ a0, keep (soundingReturn a0) = keep a0 := by
  intro a0
  unfold soundingReturn
  repeat' (first
    | with_reducible rfl
    | with_reducible assumption
    | simp only [↓keep_mk, ↓keep_fold, ↓id_eq, ↓after_next, ↓moveSlices_keep, ↓reinit_keep, ↓setDom_keep, ↓modStack_keep, ↓fabCheck_keep, ↓reenable_keep, ↓modSlice_keep, ↓raise_keep]
    | with_reducible refine keep_ite _ _ _ _ ?_ ?_
    | with_reducible refine keep_after_ite _ _ _ _ _ ?_ ?_
    | with_reducible refine (keep_foldl _ ?_ _ _).trans ?_
    | with_reducible refine (keep_foldl_snd _ ?_ _ _).trans ?_
    | (intros; simp only [*])
    | intro _
    | split)

theorem postpone_keep : ∀ a0 a1, keep (postpone a0 a1) = keep a1 := by
  intro a0 a1
  unfold postpone
  (repeat' split) <;> simp only [↓keep_mk, ↓keep_fold, ↓id_eq, ↓after_next, ↓testCount_keep, ↓setDom_keep, ↓modPool_keep]

theorem soundingFit_keep : ∀ a0, keep (soundingFit a0) = keep a0 := by
  intro a0
  unfold soundingFit
  (repeat' split) <;> simp only [↓keep_mk, ↓keep_fold, ↓id_eq, ↓after_next, ↓postpone_keep]

theorem execSoundingStart_skipFlags_keep : ∀ a0 a1, keep (execSoundingStart.skipFlags a0 a1) = keep a1 := by
  intro a0 a1
  unfold execSoundingStart.skipFlags
  repeat' (first
    | with_reducible rfl
    | with_reducible assumption
    | simp only [↓keep_mk, ↓keep_fold, ↓id_eq, ↓after_next, ↓skipDevice_keep, ↓skipPort_keep]
    | with_reducible refine keep_ite _ _ _ _ ?_ ?_
    | with_reducible refine keep_after_ite _ _ _ _ _ ?_ ?_
    | with_reducible refine (keep_foldl _ ?_ _ _).trans ?_
    | with_reducible refine (keep_foldl_snd _ ?_ _ _).trans ?_
    | (intros; simp only [*])
    | intro _
    | split)

theorem execSoundingStart_keep : ∀ a0 a1 a2, keep (after (execSoundingStart a0 a1 a2) a2) = keep a2 := by
  intro a0 a1 a2
  unfold execSoundingStart
  repeat' (first
    | with_reducible rfl
    | with_reducible assumption
    | simp only [↓keep_mk, ↓keep_fold, ↓id_eq, ↓after_next, ↓State_atTime_keep, ↓octetDown_keep, ↓hawserFails_keep, ↓testCount_keep, ↓setDom_keep, ↓outOfService_keep, ↓modPool_keep, ↓modStack_keep, ↓fabCheck_keep, ↓execSoundingStart_skipFlags_keep, ↓moveSlices_keep]
    | with_reducible refine keep_ite _ _ _ _ ?_ ?_
    | with_reducible refine keep_after_ite _ _ _ _ _ ?_ ?_
    | with_reducible refine (keep_foldl _ ?_ _ _).trans ?_
    | with_reducible refine (keep_foldl_snd _ ?_ _ _).trans ?_
    | (intros; simp only [*])
    | intro _
    | split)

theorem execSoundingWithdrawn_keep : ∀ a0 a1, keep (after (execSoundingWithdrawn a0 a1) a1) = keep a1 := by
  intro a0 a1
  unfold execSoundingWithdrawn
  simp only [↓keep_mk, ↓keep_fold, ↓id_eq, ↓after_next, ↓State_atTime_keep]
  (repeat' split) <;> simp only [↓keep_mk, ↓keep_fold, ↓id_eq, ↓after_next, ↓State_atTime_keep]

theorem execSoundingPostponed_keep : ∀ a0 a1, keep (after (execSoundingPostponed a0 a1) a1) = keep a1 := by
  intro a0 a1
  unfold execSoundingPostponed
  simp only [↓keep_mk, ↓keep_fold, ↓id_eq, ↓after_next, ↓State_atTime_keep, ↓postpone_keep]
  (repeat' split) <;> simp only [↓keep_mk, ↓keep_fold, ↓id_eq, ↓after_next, ↓State_atTime_keep, ↓postpone_keep]

theorem execSoundingTestDone_keep : ∀ a0 a1 a2 a3, keep (after (execSoundingTestDone a0 a1 a2 a3) a3) = keep a3 := by
  intro a0 a1 a2 a3
  unfold execSoundingTestDone
  simp only [↓keep_mk, ↓keep_fold, ↓id_eq, ↓after_next, ↓State_atTime_keep, ↓raise_keep, ↓testCount_keep, ↓modSlice_keep, ↓errorAct_keep, ↓errorReport_keep, ↓noteSuspect_keep]
  (repeat' split) <;> simp only [↓keep_mk, ↓keep_fold, ↓id_eq, ↓after_next, ↓State_atTime_keep, ↓raise_keep, ↓testCount_keep, ↓modSlice_keep, ↓errorAct_keep, ↓errorReport_keep, ↓noteSuspect_keep]

theorem execSoundingOverdue_keep : ∀ a0 a1 a2, keep (after (execSoundingOverdue a0 a1 a2) a2) = keep a2 := by
  intro a0 a1 a2
  unfold execSoundingOverdue
  simp only [↓keep_mk, ↓keep_fold, ↓id_eq, ↓after_next, ↓State_atTime_keep, ↓raise_keep, ↓testCount_keep, ↓modSlice_keep]
  (repeat' split) <;> simp only [↓keep_mk, ↓keep_fold, ↓id_eq, ↓after_next, ↓State_atTime_keep, ↓raise_keep, ↓testCount_keep, ↓modSlice_keep]

/-! ### Time.lean -/

theorem actTimeGet_keep (c : Ctx) (q : List Word) (s : State) : keep (actTimeGet c q s).st = keep s := by
  unfold actTimeGet
  rfl

theorem execTimeGet_keep : ∀ a0 a1 a2, keep (after (execTimeGet a0 a1 a2) a2) = keep a2 := fun _ _ _ => runCommand_keep _ actTimeGet_keep _ _ _

theorem actTimeAdjust_keep (c : Ctx) (q : List Word) (s : State) : keep (actTimeAdjust c q s).st = keep s := by
  unfold actTimeAdjust
  simp only [↓keep_mk, ↓keep_fold, ↓id_eq, ↓after_next, ↓fail_keep, ↓done_keep]
  (repeat' split) <;> simp only [↓keep_mk, ↓keep_fold, ↓id_eq, ↓after_next, ↓fail_keep, ↓done_keep]

theorem execTimeAdjust_keep : ∀ a0 a1 a2, keep (after (execTimeAdjust a0 a1 a2) a2) = keep a2 := fun _ _ _ => runCommand_keep _ actTimeAdjust_keep _ _ _

theorem actTimeStep_keep (c : Ctx) (q : List Word) (s : State) : keep (actTimeStep c q s).st = keep s := by
  unfold actTimeStep
  simp only [↓keep_mk, ↓keep_fold, ↓id_eq, ↓after_next, ↓fail_keep, ↓reply_keep]
  (repeat' split) <;> simp only [↓keep_mk, ↓keep_fold, ↓id_eq, ↓after_next, ↓fail_keep, ↓reply_keep]

theorem execTimeStep_keep : ∀ a0 a1 a2, keep (after (execTimeStep a0 a1 a2) a2) = keep a2 := fun _ _ _ => runCommand_keep _ actTimeStep_keep _ _ _

theorem actTimeStateSet_keep (c : Ctx) (q : List Word) (s : State) : keep (actTimeStateSet c q s).st = keep s := by
  unfold actTimeStateSet
  simp only [↓keep_mk, ↓keep_fold, ↓id_eq, ↓after_next, ↓fail_keep, ↓done_keep, ↓setTimeState_keep]
  (repeat' split) <;> simp only [↓keep_mk, ↓keep_fold, ↓id_eq, ↓after_next, ↓fail_keep, ↓done_keep, ↓setTimeState_keep]

theorem execTimeStateSet_keep : ∀ a0 a1 a2, keep (after (execTimeStateSet a0 a1 a2) a2) = keep a2 := fun _ _ _ => runCommand_keep _ actTimeStateSet_keep _ _ _

theorem actTimeStatus_keep (c : Ctx) (q : List Word) (s : State) : keep (actTimeStatus c q s).st = keep s := by
  unfold actTimeStatus
  rfl

theorem execTimeStatus_keep : ∀ a0 a1 a2, keep (after (execTimeStatus a0 a1 a2) a2) = keep a2 := fun _ _ _ => runCommand_keep _ actTimeStatus_keep _ _ _

theorem actTimePortSet_keep (c : Ctx) (q : List Word) (s : State) : keep (actTimePortSet c q s).st = keep s := by
  unfold actTimePortSet
  refine withPort_keep _ _ _ _ (fun i p => ?_)
  (repeat' split) <;> rfl

theorem execTimePortSet_keep : ∀ a0 a1 a2, keep (after (execTimePortSet a0 a1 a2) a2) = keep a2 := fun _ _ _ => runCommand_keep _ actTimePortSet_keep _ _ _

theorem actTimeTsringSet_keep (c : Ctx) (q : List Word) (s : State) : keep (actTimeTsringSet c q s).st = keep s := by
  unfold actTimeTsringSet
  simp only [↓keep_mk, ↓keep_fold, ↓id_eq, ↓after_next, ↓fail_keep, ↓done_keep]
  (repeat' split) <;> simp only [↓keep_mk, ↓keep_fold, ↓id_eq, ↓after_next, ↓fail_keep, ↓done_keep]

theorem execTimeTsringSet_keep : ∀ a0 a1 a2, keep (after (execTimeTsringSet a0 a1 a2) a2) = keep a2 := fun _ _ _ => runCommand_keep _ actTimeTsringSet_keep _ _ _

theorem actTimeOriginate_keep (c : Ctx) (q : List Word) (s : State) : keep (actTimeOriginate c q s).st = keep s := by
  unfold actTimeOriginate
  refine withPort_keep _ _ _ _ (fun i p => ?_)
  simp only [↓keep_mk, ↓keep_fold, ↓id_eq, ↓after_next, ↓fail_keep, ↓done_keep, ↓modTimePort_keep]
  (repeat' split) <;> simp only [↓keep_mk, ↓keep_fold, ↓id_eq, ↓after_next, ↓fail_keep, ↓done_keep, ↓modTimePort_keep]

theorem execTimeOriginate_keep : ∀ a0 a1 a2, keep (after (execTimeOriginate a0 a1 a2) a2) = keep a2 := fun _ _ _ => runCommand_keep _ actTimeOriginate_keep _ _ _

theorem actTimePpsSet_keep (c : Ctx) (q : List Word) (s : State) : keep (actTimePpsSet c q s).st = keep s := by
  unfold actTimePpsSet
  simp only [↓keep_mk, ↓keep_fold, ↓id_eq, ↓after_next, ↓fail_keep, ↓done_keep]
  (repeat' split) <;> simp only [↓keep_mk, ↓keep_fold, ↓id_eq, ↓after_next, ↓fail_keep, ↓done_keep]

theorem execTimePpsSet_keep : ∀ a0 a1 a2, keep (after (execTimePpsSet a0 a1 a2) a2) = keep a2 := fun _ _ _ => runCommand_keep _ actTimePpsSet_keep _ _ _

theorem actTimeTodSet_keep (c : Ctx) (q : List Word) (s : State) : keep (actTimeTodSet c q s).st = keep s := by
  unfold actTimeTodSet
  rfl

theorem execTimeTodSet_keep : ∀ a0 a1 a2, keep (after (execTimeTodSet a0 a1 a2) a2) = keep a2 := fun _ _ _ => runCommand_keep _ actTimeTodSet_keep _ _ _

theorem actTimeSynceSet_keep (c : Ctx) (q : List Word) (s : State) : keep (actTimeSynceSet c q s).st = keep s := by
  unfold actTimeSynceSet
  simp only [↓keep_mk, ↓keep_fold, ↓id_eq, ↓after_next, ↓fail_keep, ↓done_keep, ↓syncEUpdate_keep]
  (repeat' split) <;> simp only [↓keep_mk, ↓keep_fold, ↓id_eq, ↓after_next, ↓fail_keep, ↓done_keep, ↓syncEUpdate_keep]

theorem execTimeSynceSet_keep : ∀ a0 a1 a2, keep (after (execTimeSynceSet a0 a1 a2) a2) = keep a2 := fun _ _ _ => runCommand_keep _ actTimeSynceSet_keep _ _ _

theorem actTimeTideSet_keep (c : Ctx) (q : List Word) (s : State) : keep (actTimeTideSet c q s).st = keep s := by
  unfold actTimeTideSet
  simp only [↓keep_mk, ↓keep_fold, ↓id_eq, ↓after_next, ↓fail_keep, ↓done_keep]
  (repeat' split) <;> simp only [↓keep_mk, ↓keep_fold, ↓id_eq, ↓after_next, ↓fail_keep, ↓done_keep]

theorem execTimeTideSet_keep : ∀ a0 a1 a2, keep (after (execTimeTideSet a0 a1 a2) a2) = keep a2 := fun _ _ _ => runCommand_keep _ actTimeTideSet_keep _ _ _

theorem actTimeCounters_keep (c : Ctx) (q : List Word) (s : State) : keep (actTimeCounters c q s).st = keep s := by
  unfold actTimeCounters
  simp only [↓keep_mk, ↓keep_fold, ↓id_eq, ↓after_next, ↓reply_keep, ↓fail_keep]
  (repeat' split) <;> simp only [↓keep_mk, ↓keep_fold, ↓id_eq, ↓after_next, ↓reply_keep, ↓fail_keep]

theorem execTimeCounters_keep : ∀ a0 a1 a2, keep (after (execTimeCounters a0 a1 a2) a2) = keep a2 := fun _ _ _ => runCommand_keep _ actTimeCounters_keep _ _ _

theorem execTsrMergerWrite_keep : ∀ a0 a1 a2, keep (after (execTsrMergerWrite a0 a1 a2) a2) = keep a2 := by
  intro a0 a1 a2
  unfold execTsrMergerWrite
  simp only [↓keep_mk, ↓keep_fold, ↓id_eq, ↓after_next, ↓State_atTime_keep, ↓hostWriteWords_keep, ↓tsRoom_keep, ↓modTimePort_keep, ↓signal_keep]
  (repeat' split) <;> simp only [↓keep_mk, ↓keep_fold, ↓id_eq, ↓after_next, ↓State_atTime_keep, ↓hostWriteWords_keep, ↓tsRoom_keep, ↓modTimePort_keep, ↓signal_keep]

theorem execPhaseSlewDone_keep : ∀ a0 a1, keep (after (execPhaseSlewDone a0 a1) a1) = keep a1 := by
  intro a0 a1
  unfold execPhaseSlewDone
  simp only [↓keep_mk, ↓keep_fold, ↓id_eq, ↓after_next, ↓State_atTime_keep]
  (repeat' split) <;> simp only [↓keep_mk, ↓keep_fold, ↓id_eq, ↓after_next, ↓State_atTime_keep]

theorem execTideInLost_keep : ∀ a0 a1, keep (after (execTideInLost a0 a1) a1) = keep a1 := by
  intro a0 a1
  unfold execTideInLost
  simp only [↓keep_mk, ↓keep_fold, ↓id_eq, ↓after_next, ↓State_atTime_keep, ↓raise_keep, ↓setTimeState_keep]
  (repeat' split) <;> simp only [↓keep_mk, ↓keep_fold, ↓id_eq, ↓after_next, ↓State_atTime_keep, ↓raise_keep, ↓setTimeState_keep]

theorem execPpsInCapture_keep : ∀ a0 a1, keep (after (execPpsInCapture a0 a1) a1) = keep a1 := by
  intro a0 a1
  unfold execPpsInCapture
  (repeat' split) <;> simp only [↓keep_mk, ↓keep_fold, ↓id_eq, ↓after_next, ↓State_atTime_keep, ↓raise_keep, ↓timeCount_keep]

theorem execPpsOutEdge_keep : ∀ a0 a1, keep (after (execPpsOutEdge a0 a1) a1) = keep a1 := by
  intro a0 a1
  unfold execPpsOutEdge
  simp only [↓keep_mk, ↓keep_fold, ↓id_eq, ↓after_next, ↓State_atTime_keep, ↓emit_keep]
  (repeat' split) <;> simp only [↓keep_mk, ↓keep_fold, ↓id_eq, ↓after_next, ↓State_atTime_keep, ↓emit_keep]

theorem execTodTxMessage_keep : ∀ a0 a1, keep (after (execTodTxMessage a0 a1) a1) = keep a1 := by
  intro a0 a1
  unfold execTodTxMessage
  simp only [↓keep_mk, ↓keep_fold, ↓id_eq, ↓after_next, ↓State_atTime_keep, ↓emit_keep]
  (repeat' split) <;> simp only [↓keep_mk, ↓keep_fold, ↓id_eq, ↓after_next, ↓State_atTime_keep, ↓emit_keep]

theorem execTodRx_keep : ∀ a0 a1 a2 a3, keep (after (execTodRx a0 a1 a2 a3) a3) = keep a3 := by
  intro a0 a1 a2 a3
  unfold execTodRx
  simp only [↓keep_mk, ↓keep_fold, ↓id_eq, ↓after_next, ↓State_atTime_keep, ↓raise_keep, ↓timeCount_keep]
  (repeat' split) <;> simp only [↓keep_mk, ↓keep_fold, ↓id_eq, ↓after_next, ↓State_atTime_keep, ↓raise_keep, ↓timeCount_keep]

/-! ### Checkpoint.lean -/

theorem ckWrite_keep : ∀ a0 a1 a2 a3, keep (ckWrite a0 a1 a2 a3) = keep a3 := by
  intro a0 a1 a2 a3
  unfold ckWrite
  (repeat' split) <;> rfl

theorem ckLearn_keep : ∀ a0 a1, keep (ckLearn a0 a1) = keep a1 := by
  intro a0 a1
  unfold ckLearn
  simp only [↓keep_mk, ↓keep_fold, ↓id_eq, ↓after_next, ↓dillPut_keep, ↓dillNew_keep, ↓dillFree_keep]
  (repeat' split) <;> simp only [↓keep_mk, ↓keep_fold, ↓id_eq, ↓after_next, ↓dillPut_keep, ↓dillNew_keep, ↓dillFree_keep]

theorem ckTake_keep : ∀ a0 a1 a2, keep (ckTake a0 a1 a2) = keep a2 := by
  intro a0 a1 a2
  unfold ckTake
  simp only [↓keep_mk, ↓keep_fold, ↓id_eq, ↓after_next, ↓ckLearn_keep, ↓ckWrite_keep, ↓twinCount_keep, ↓skipDevice_keep]
  (repeat' split) <;> simp only [↓keep_mk, ↓keep_fold, ↓id_eq, ↓after_next, ↓ckLearn_keep, ↓ckWrite_keep, ↓twinCount_keep, ↓skipDevice_keep]

end Sys2Proof.Machine
end

