-- ==== Sys2Proof/Laws/KeepTwin.lean ====
section
/-! SUPPORT. Each function of the twin, transactions and the tide boundary keeps the lifecycle state and the queue of waiting commands (R500). -/

namespace Sys2Proof.Machine

open Sys2Proof

set_option maxRecDepth 4000
set_option linter.unusedSimpArgs false

/-! ### TwinOps.lean -/

theorem goCold_keep : ∀ a0, keep (goCold a0) = keep a0 := by
  intro a0
  unfold goCold
  simp only [setTwinFree_keep, modTwin_keep]

theorem abortSounding_keep : ∀ a0, keep (abortSounding a0) = keep a0 := by
  intro a0
  unfold abortSounding
  (repeat' split) <;> simp only [↓keep_mk, ↓keep_fold, ↓id_eq, ↓after_next, ↓testCount_keep]

theorem pathOn_keep : ∀ a0, keep (pathOn a0) = keep a0 := by
  intro a0
  unfold pathOn
  repeat' (first
    | with_reducible rfl
    | with_reducible assumption
    | simp only [↓keep_mk, ↓keep_fold, ↓id_eq, ↓after_next, ↓wakeDom_keep]
    | with_reducible refine keep_ite _ _ _ _ ?_ ?_
    | with_reducible refine keep_after_ite _ _ _ _ _ ?_ ?_
    | with_reducible refine (keep_foldl _ ?_ _ _).trans ?_
    | with_reducible refine (keep_foldl_snd _ ?_ _ _).trans ?_
    | (intros; simp only [*])
    | intro _
    | split)

theorem berthTake_keep : ∀ a0 a1, keep (berthTake a0 a1) = keep a1 := by
  intro a0 a1
  unfold berthTake
  simp only [abortSounding_keep, pathOn_keep, modTwin_keep]

theorem takeProfile_keep : ∀ a0 a1, keep (takeProfile a0 a1) = keep a1 := by
  intro a0 a1
  unfold takeProfile
  (repeat' split) <;> simp only [↓keep_mk, ↓keep_fold, ↓id_eq, ↓after_next, ↓modFwd_keep, ↓discardTables_keep, ↓raise_keep, ↓modLearn_keep]

theorem joinClear_keep : ∀ a0, keep (joinClear a0) = keep a0 := by
  intro a0
  unfold joinClear
  repeat' (first
    | with_reducible rfl
    | with_reducible assumption
    | simp only [↓keep_mk, ↓keep_fold, ↓id_eq, ↓after_next, ↓tablesUndo_keep, ↓unreserve_keep, ↓putTxn_keep, ↓modFwd_keep, ↓poolInit_keep]
    | with_reducible refine keep_ite _ _ _ _ ?_ ?_
    | with_reducible refine keep_after_ite _ _ _ _ _ ?_ ?_
    | with_reducible refine (keep_foldl _ ?_ _ _).trans ?_
    | with_reducible refine (keep_foldl_snd _ ?_ _ _).trans ?_
    | (intros; simp only [*])
    | intro _
    | split)

theorem startCopy_keep : ∀ a0, keep (startCopy a0) = keep a0 := by
  intro a0
  unfold startCopy
  simp only [joinClear_keep, modTwin_keep]

theorem startJoin_keep : ∀ a0, keep (startJoin a0) = keep a0 := by
  intro a0
  unfold startJoin
  simp only [setTwinFree_keep, takeProfile_keep, startCopy_keep]

theorem decideTakeover_keep : ∀ a0 a1, keep (decideTakeover a0 a1) = keep a1 := by
  intro a0 a1
  unfold decideTakeover
  (repeat' split) <;> rfl

theorem faulty_keep : ∀ a0 a1 a2, keep (faulty a0 a1 a2) = keep a2 := by
  intro a0 a1 a2
  unfold faulty
  simp only [↓keep_mk, ↓keep_fold, ↓id_eq, ↓after_next, ↓twinRaise_keep, ↓modTwin_keep, ↓decideTakeover_keep, ↓goCold_keep]
  (repeat' split) <;> simp only [↓keep_mk, ↓keep_fold, ↓id_eq, ↓after_next, ↓twinRaise_keep, ↓modTwin_keep, ↓decideTakeover_keep, ↓goCold_keep]

theorem cutPort_keep (n p : Nat) (es : List (List Word) × State) : keep (cutPort n p es).2 = keep es.2 := by
  obtain ⟨es, s⟩ := es
  unfold cutPort
  simp only []
  exact modTwin_keep _ _

theorem sendManifest_keep : ∀ a0, keep (sendManifest a0) = keep a0 := by
  intro s
  unfold sendManifest
  simp only []
  refine keep_ite _ _ _ _ rfl ?_
  have hf : ∀ p : List (List Word) × State, keep ((linePorts s).foldl (fun e p => cutPort (s.tm.tide - 1) p e) p).2 = keep p.2 :=
    fun p => keep_foldl_snd _ (fun p x => cutPort_keep _ _ _) _ _
  split
  · rw [emit_keep, modTwin_keep]; exact hf _
  · rw [modTwin_keep]; exact hf _

theorem undecided_keep : ∀ a0 a1, keep (undecided a0 a1) = keep a1 := by
  intro a0 a1
  unfold undecided
  simp only [goStale_keep, twinRaise_keep, modTwin_keep]

theorem decide__keep : ∀ a0 a1, keep (decide_ a0 a1) = keep a1 := by
  intro a0 a1
  unfold decide_
  simp only [↓keep_mk, ↓keep_fold, ↓id_eq, ↓after_next, ↓faulty_keep, ↓modTwin_keep, ↓undecided_keep]
  (repeat' split) <;> simp only [↓keep_mk, ↓keep_fold, ↓id_eq, ↓after_next, ↓faulty_keep, ↓modTwin_keep, ↓undecided_keep]

theorem startConvert_keep : ∀ a0 a1, keep (startConvert a0 a1) = keep a1 := by
  intro a0 a1
  unfold startConvert
  (repeat' split) <;> simp only [↓keep_mk, ↓keep_fold, ↓id_eq, ↓after_next, ↓setTwinFree_keep, ↓takeProfile_keep, ↓startCopy_keep]

theorem settleContest_keep : ∀ a0, keep (settleContest a0) = keep a0 := by
  intro a0
  unfold settleContest
  (repeat' split) <;> simp only [↓keep_mk, ↓keep_fold, ↓id_eq, ↓after_next, ↓undecided_keep, ↓faulty_keep]

theorem comparePort_keep (n : Nat) (prev : Option (List Word)) (k : Bool) (e : List Word) (r : Compared × State) :
    keep (comparePort n prev k e r).2 = keep r.2 := by
  obtain ⟨c, s⟩ := r
  unfold comparePort
  simp only [↓keep_mk, ↓keep_fold, ↓id_eq, ↓after_next, ↓twinCount_keep, ↓skipPort_keep, ↓modTwin_keep, ↓goStale_keep]
  (repeat' split) <;> simp only [↓keep_mk, ↓keep_fold, ↓id_eq, ↓after_next, ↓twinCount_keep, ↓skipPort_keep, ↓modTwin_keep, ↓goStale_keep]

theorem standbyFailed_keep : ∀ a0 a1, keep (standbyFailed a0 a1) = keep a1 := by
  intro a0 a1
  unfold standbyFailed
  (repeat' split) <;> simp only [↓keep_mk, ↓keep_fold, ↓id_eq, ↓after_next, ↓twinRaise_keep, ↓modTwin_keep]

theorem twinFailed_keep : ∀ a0 a1, keep (twinFailed a0 a1) = keep a1 := by
  intro a0 a1
  unfold twinFailed
  (repeat' split) <;> simp only [↓keep_mk, ↓keep_fold, ↓id_eq, ↓after_next, ↓standbyFailed_keep, ↓decideTakeover_keep]

theorem pnAdvance_keep : ∀ a0, keep (pnAdvance a0) = keep a0 := by
  intro a0
  unfold pnAdvance
  rfl

/-! ### TwinCmd.lean -/

theorem onPair_keep (f : Act) (hf : ∀ c q s, keep (f c q s).st = keep s) (c : Ctx) (q : List Word) (s : State) :
    keep (onPair f c q s).st = keep s := by
  unfold onPair
  split
  · exact hf _ _ _
  · exact fail_keep _ _

theorem actTwinSet_keep (c : Ctx) (q : List Word) (s : State) : keep (actTwinSet c q s).st = keep s := by
  refine onPair_keep _ (fun c q s => ?_) c q s
  (repeat' split) <;> rfl

theorem execTwinSet_keep : ∀ a0 a1 a2, keep (after (execTwinSet a0 a1 a2) a2) = keep a2 := fun _ _ _ => runCommand_keep _ actTwinSet_keep _ _ _

theorem actTwinStatus_keep (c : Ctx) (q : List Word) (s : State) : keep (actTwinStatus c q s).st = keep s := by
  unfold actTwinStatus
  (repeat' split) <;> rfl

theorem execTwinStatus_keep : ∀ a0 a1 a2, keep (after (execTwinStatus a0 a1 a2) a2) = keep a2 := fun _ _ _ => runCommand_keep _ actTwinStatus_keep _ _ _

theorem actTwinSwitch_keep (c : Ctx) (q : List Word) (s : State) : keep (actTwinSwitch c q s).st = keep s := by
  refine onPair_keep _ (fun c q s => ?_) c q s
  simp only [↓keep_mk, ↓keep_fold, ↓id_eq, ↓after_next, ↓onPair_keep, ↓fail_keep, ↓done_keep, ↓modTwin_keep]
  (repeat' split) <;> simp only [↓keep_mk, ↓keep_fold, ↓id_eq, ↓after_next, ↓onPair_keep, ↓fail_keep, ↓done_keep, ↓modTwin_keep]

theorem execTwinSwitch_keep : ∀ a0 a1 a2, keep (after (execTwinSwitch a0 a1 a2) a2) = keep a2 := fun _ _ _ => runCommand_keep _ actTwinSwitch_keep _ _ _

theorem actTwinForce_keep (c : Ctx) (q : List Word) (s : State) : keep (actTwinForce c q s).st = keep s := by
  refine onPair_keep _ (fun c q s => ?_) c q s
  (repeat' split) <;> simp only [↓keep_mk, ↓keep_fold, ↓id_eq, ↓after_next, ↓onPair_keep, ↓done_keep, ↓goCold_keep, ↓berthTake_keep, ↓modTwin_keep]

theorem execTwinForce_keep : ∀ a0 a1 a2, keep (after (execTwinForce a0 a1 a2) a2) = keep a2 := fun _ _ _ => runCommand_keep _ actTwinForce_keep _ _ _

theorem modeMismatch_keep : ∀ a0, keep (modeMismatch a0) = keep a0 := by
  intro a0
  unfold modeMismatch
  (repeat' split) <;> simp only [↓keep_mk, ↓keep_fold, ↓id_eq, ↓after_next, ↓twinRaise_keep, ↓modTwin_keep]

theorem versionMismatch_keep : ∀ a0, keep (versionMismatch a0) = keep a0 := by
  intro a0
  unfold versionMismatch
  (repeat' split) <;> simp only [↓keep_mk, ↓keep_fold, ↓id_eq, ↓after_next, ↓raise_keep, ↓modTwin_keep]

theorem joinFails_keep : ∀ a0, keep (joinFails a0) = keep a0 := by
  intro a0
  unfold joinFails
  (repeat' split) <;> simp only [↓keep_mk, ↓keep_fold, ↓id_eq, ↓after_next, ↓modeMismatch_keep, ↓versionMismatch_keep]

theorem actTwinJoin_keep (c : Ctx) (q : List Word) (s : State) : keep (actTwinJoin c q s).st = keep s := by
  refine onPair_keep _ (fun c q s => ?_) c q s
  (repeat' split) <;> simp only [↓keep_mk, ↓keep_fold, ↓id_eq, ↓after_next, ↓onPair_keep, ↓fail_keep, ↓done_keep, ↓startJoin_keep, ↓joinFails_keep]

theorem execTwinJoin_keep : ∀ a0 a1 a2, keep (after (execTwinJoin a0 a1 a2) a2) = keep a2 := fun _ _ _ => runCommand_keep _ actTwinJoin_keep _ _ _

theorem actTwinRefereeLoad_keep (c : Ctx) (q : List Word) (s : State) : keep (actTwinRefereeLoad c q s).st = keep s := by
  refine onPair_keep _ (fun c q s => ?_) c q s
  simp only [↓keep_mk, ↓keep_fold, ↓id_eq, ↓after_next, ↓onPair_keep, ↓done_keep, ↓modTwin_keep, ↓fail_keep]
  (repeat' split) <;> simp only [↓keep_mk, ↓keep_fold, ↓id_eq, ↓after_next, ↓onPair_keep, ↓done_keep, ↓modTwin_keep, ↓fail_keep]

theorem execTwinRefereeLoad_keep : ∀ a0 a1 a2, keep (after (execTwinRefereeLoad a0 a1 a2) a2) = keep a2 := fun _ _ _ => runCommand_keep _ actTwinRefereeLoad_keep _ _ _

theorem actTwinDecide_keep (c : Ctx) (q : List Word) (s : State) : keep (actTwinDecide c q s).st = keep s := by
  refine onPair_keep _ (fun c q s => ?_) c q s
  (repeat' split) <;> simp only [↓keep_mk, ↓keep_fold, ↓id_eq, ↓after_next, ↓onPair_keep, ↓fail_keep, ↓emit_keep, ↓done_keep, ↓faulty_keep]

theorem execTwinDecide_keep : ∀ a0 a1 a2, keep (after (execTwinDecide a0 a1 a2) a2) = keep a2 := fun _ _ _ => runCommand_keep _ actTwinDecide_keep _ _ _

theorem actTwinManifestRead_keep (c : Ctx) (q : List Word) (s : State) : keep (actTwinManifestRead c q s).st = keep s := by
  refine onPair_keep _ (fun c q s => ?_) c q s
  simp only [↓keep_mk, ↓keep_fold, ↓id_eq, ↓after_next, ↓onPair_keep, ↓reply_keep, ↓fail_keep]
  (repeat' split) <;> simp only [↓keep_mk, ↓keep_fold, ↓id_eq, ↓after_next, ↓onPair_keep, ↓reply_keep, ↓fail_keep]

theorem execTwinManifestRead_keep : ∀ a0 a1 a2, keep (after (execTwinManifestRead a0 a1 a2) a2) = keep a2 := fun _ _ _ => runCommand_keep _ actTwinManifestRead_keep _ _ _

theorem actTwinCounters_keep (c : Ctx) (q : List Word) (s : State) : keep (actTwinCounters c q s).st = keep s := by
  refine onPair_keep _ (fun c q s => ?_) c q s
  rfl

theorem execTwinCounters_keep : ∀ a0 a1 a2, keep (after (execTwinCounters a0 a1 a2) a2) = keep a2 := fun _ _ _ => runCommand_keep _ actTwinCounters_keep _ _ _

/-! ### Txn.lean -/

theorem openTxn_keep : ∀ a0 a1, keep (openTxn a0 a1) = keep a1 := by
  intro a0 a1
  unfold openTxn
  rfl

theorem actTxnBegin_keep (c : Ctx) (q : List Word) (s : State) : keep (actTxnBegin c q s).st = keep s := by
  unfold actTxnBegin
  simp only [↓keep_mk, ↓keep_fold, ↓id_eq, ↓after_next, ↓fail_keep, ↓openTxn_keep, ↓reply_keep, ↓toTwin_keep]
  (repeat' split) <;> simp only [↓keep_mk, ↓keep_fold, ↓id_eq, ↓after_next, ↓fail_keep, ↓openTxn_keep, ↓reply_keep, ↓toTwin_keep]

theorem execTxnBegin_keep : ∀ a0 a1 a2, keep (after (execTxnBegin a0 a1 a2) a2) = keep a2 := fun _ _ _ => runCommand_keep _ actTxnBegin_keep _ _ _

theorem markCommit_keep : ∀ a0 a1 a2, keep (markCommit a0 a1 a2) = keep a2 := by
  intro a0 a1 a2
  unfold markCommit
  rfl

theorem runCommit_keep : ∀ a0 a1 a2, keep (runCommit a0 a1 a2) = keep a2 := by
  intro c q s
  unfold runCommit
  refine keep_ite _ _ _ _ rfl ?_
  split
  · exact complete_keep _ _ _ _ _
  · rename_i t h
    unfold beginCommit at h
    split at h
    · cases h
    · simp only [] at h
      split at h
      · cases h
      · split at h
        · cases h
        · injection h with h; subst h
          rw [toTwin_keep, markCommit_keep, putTxn_keep]

theorem runTxnCommit_keep : ∀ a0 a1 a2, keep (runTxnCommit a0 a1 a2) = keep a2 := by
  intro a0 a1 a2
  unfold runTxnCommit
  simp only [↓keep_mk, ↓keep_fold, ↓id_eq, ↓after_next, ↓State_atTime_keep, ↓runCommit_keep, ↓indirectError_keep, ↓takeMb_keep, ↓complete_keep]
  (repeat' split) <;> simp only [↓keep_mk, ↓keep_fold, ↓id_eq, ↓after_next, ↓State_atTime_keep, ↓runCommit_keep, ↓indirectError_keep, ↓takeMb_keep, ↓complete_keep]

theorem execTxnCommit_keep : ∀ a0 a1 a2, keep (after (execTxnCommit a0 a1 a2) a2) = keep a2 := by
  intro a0 a1 a2
  unfold execTxnCommit
  (repeat' split) <;> simp only [↓keep_mk, ↓keep_fold, ↓id_eq, ↓after_next, ↓runTxnCommit_keep]

theorem completeCommit_keep : ∀ a0 a1 a2 a3, keep (completeCommit a0 a1 a2 a3) = keep a3 := by
  intro a0 a1 a2 a3
  unfold completeCommit
  (repeat' split) <;> simp only [↓keep_mk, ↓keep_fold, ↓id_eq, ↓after_next, ↓complete_keep]

theorem commitPrepared_keep : ∀ a0 a1, keep (commitPrepared a0 a1) = keep a1 := by
  intro a0 a1
  unfold commitPrepared
  (repeat' split) <;> simp only [↓keep_mk, ↓keep_fold, ↓id_eq, ↓after_next, ↓completeCommit_keep, ↓modTxn_keep]

theorem failCommit_keep : ∀ a0 a1 a2 a3, keep (failCommit a0 a1 a2 a3) = keep a3 := by
  intro a0 a1 a2 a3
  unfold failCommit
  (repeat' split) <;> simp only [↓keep_mk, ↓keep_fold, ↓id_eq, ↓after_next, ↓completeCommit_keep, ↓unprepare_keep]

theorem settleCommit_keep : ∀ a0 a1, keep (settleCommit a0 a1) = keep a1 := by
  intro a0 a1
  unfold settleCommit
  (repeat' split) <;> simp only [↓keep_mk, ↓keep_fold, ↓id_eq, ↓after_next, ↓commitPrepared_keep, ↓twinRaise_keep, ↓failCommit_keep]

theorem ownVerdict_keep : ∀ a0 a1 a2 a3, keep (ownVerdict a0 a1 a2 a3) = keep a3 := by
  intro a0 a1 a2 a3
  unfold ownVerdict
  (repeat' split) <;> simp only [↓keep_mk, ↓keep_fold, ↓id_eq, ↓after_next, ↓settleCommit_keep, ↓emit_keep, ↓modTxn_keep, ↓commitPrepared_keep, ↓failCommit_keep]

theorem takeTables_keep : ∀ a0 a1, keep (takeTables a0 a1) = keep a1 := by
  intro a0 a1
  unfold takeTables
  repeat' (first
    | with_reducible rfl
    | with_reducible assumption
    | simp only [↓keep_mk, ↓keep_fold, ↓id_eq, ↓after_next, ↓raise_keep]
    | with_reducible refine keep_ite _ _ _ _ ?_ ?_
    | with_reducible refine keep_after_ite _ _ _ _ _ ?_ ?_
    | with_reducible refine (keep_foldl _ ?_ _ _).trans ?_
    | with_reducible refine (keep_foldl_snd _ ?_ _ _).trans ?_
    | (intros; simp only [*])
    | intro _
    | split)

/-- A command of the catalogue keeps lifecycle and queue, or is LIFECYCLE.SET, which no transaction holds. -/
def Holds (k : Cmd) : Prop := (∀ c q s, keep (k.act c q s).st = keep s) ∨ (k.op = 0x1121 ∧ k.staging = .never)

theorem areaDevice_holds : ∀ k ∈ areaDevice, Holds k := by
  simp only [areaDevice, List.mem_cons, List.not_mem_nil, or_false, forall_eq_or_imp, forall_eq]
  exact ⟨.inl actDeviceInfo_keep, .inl actDeviceMailboxSet_keep, .inl actDeviceMailboxGet_keep, .inl actDeviceEcho_keep⟩

theorem areaLine_holds : ∀ k ∈ areaLine, Holds k := by
  simp only [areaLine, List.mem_cons, List.not_mem_nil, or_false, forall_eq_or_imp, forall_eq]
  refine ⟨.inl actPortCreate_keep, .inl actPortDelete_keep, .inl actPortEnable_keep, .inl actPortDisable_keep,
    .inl actPortSet_keep, .inl actPortFilterSet_keep, .inl actPortStatus_keep, .inl actPortCounters_keep, ?_⟩
  exact ⟨.inl actPortLoopback_keep, .inl actLaneSet_keep, .inl actMacsecSecySet_keep, .inl actMacsecSaInstall_keep, .inl actMacsecSaActivate_keep, .inl actMacsecSaDelete_keep, .inl actMacsecCounters_keep⟩

theorem areaTransport_holds : ∀ k ∈ areaTransport, Holds k := by
  simp only [areaTransport, List.mem_cons, List.not_mem_nil, or_false, forall_eq_or_imp, forall_eq]
  refine ⟨.inl actTportCreate_keep, .inl actTportDelete_keep, .inl actTportEnable_keep, .inl actTportDisable_keep,
    .inl actOduCreate_keep, .inl actOduDelete_keep, .inl actSdhPathCreate_keep, .inl actSdhPathDelete_keep, ?_⟩
  refine ⟨.inl actTraceSet_keep, .inl actTraceGet_keep, .inl actMonSet_keep, .inl actDefectStatus_keep,
    .inl actPmRead_keep, .inl actProtCreate_keep, .inl actProtDelete_keep, .inl actProtRequest_keep, ?_⟩
  exact .inl actProtStatus_keep

theorem areaCircuit_holds : ∀ k ∈ areaCircuit, Holds k := by
  simp only [areaCircuit, List.mem_cons, List.not_mem_nil, or_false, forall_eq_or_imp, forall_eq]
  exact ⟨.inl actCircuitCreate_keep, .inl actCircuitDelete_keep, .inl actCircuitEnable_keep, .inl actCircuitDisable_keep, .inl actCircuitSet_keep, .inl actCircuitStatus_keep, .inl actCircuitCounters_keep, .inl actCircuitPmRead_keep⟩

theorem areaPipe_holds : ∀ k ∈ areaPipe, Holds k := by
  simp only [areaPipe, List.mem_cons, List.not_mem_nil, or_false, forall_eq_or_imp, forall_eq]
  refine ⟨.inl actProfileSet_keep, .inl actProfileGet_keep, .inl actParserLoad_keep, .inl actParserPortSet_keep,
    .inl actIfSet_keep, .inl actLkpKeySet_keep, .inl actLkpProgramSet_keep, .inl actNhCreate_keep, ?_⟩
  refine ⟨.inl actNhSet_keep, .inl actNhDelete_keep, .inl actEncapCreate_keep, .inl actEncapDelete_keep,
    .inl actEcmpCreate_keep, .inl actEcmpSetMembers_keep, .inl actEcmpDelete_keep, .inl actHashSet_keep, ?_⟩
  exact ⟨.inl actPolicerSet_keep, .inl actPolicerRead_keep, .inl actStatsRead_keep, .inl actStatsClear_keep, .inl actPipeSet_keep, .inl actPipeCounters_keep⟩

theorem areaTables_holds : ∀ k ∈ areaTables, Holds k := by
  simp only [areaTables, List.mem_cons, List.not_mem_nil, or_false, forall_eq_or_imp, forall_eq]
  refine ⟨.inl actDillTableCreate_keep, .inl actDillInsert_keep, .inl actDillModify_keep, .inl actDillDelete_keep,
    .inl actDillTableDelete_keep, .inl actDillStatus_keep, .inl actSorrelAdd_keep, .inl actSorrelSet_keep, ?_⟩
  refine ⟨.inl actSorrelDelete_keep, .inl actSorrelGet_keep, .inl actSorrelMatch_keep, .inl actSorrelStatus_keep,
    .inl actSageGroupCreate_keep, .inl actSageGroupDelete_keep, .inl actSageInsert_keep, .inl actSageModify_keep, ?_⟩
  refine ⟨.inl actSageDelete_keep, .inl actSageRead_keep, .inl actSageStatus_keep, .inl actActionCreate_keep,
    .inl actActionSet_keep, .inl actActionDelete_keep, .inl actTableCounters_keep, .inl actDillSearch_keep, ?_⟩
  exact ⟨.inl actDillNext_keep, .inl actTableCmdlist_keep, .inl actTableCompareSet_keep, .inl actTableDigestLoad_keep, .inl actTableCompareStatus_keep⟩

theorem areaLearn_holds : ∀ k ∈ areaLearn, Holds k := by
  simp only [areaLearn, List.mem_cons, List.not_mem_nil, or_false, forall_eq_or_imp, forall_eq]
  exact ⟨.inl actLearnProfileSet_keep, .inl actLearnDomainSet_keep, .inl actLearnPortSet_keep, .inl actLearnPortStatus_keep, .inl actLearnFlushPort_keep, .inl actLearnProgramSet_keep, .inl actLearnDeviceSet_keep, .inl actLearnCounters_keep⟩

theorem areaBuf_holds : ∀ k ∈ areaBuf, Holds k := by
  simp only [areaBuf, List.mem_cons, List.not_mem_nil, or_false, forall_eq_or_imp, forall_eq]
  exact ⟨.inl actBufPoolSet_keep, .inl actBufPoolStatus_keep, .inl actBufInspect_keep, .inl actBufCounters_keep⟩

theorem areaQueue_holds : ∀ k ∈ areaQueue, Holds k := by
  simp only [areaQueue, List.mem_cons, List.not_mem_nil, or_false, forall_eq_or_imp, forall_eq]
  refine ⟨.inl actQueueSpaceSet_keep, .inl actVoqCreate_keep, .inl actVoqDelete_keep, .inl actQueueCreate_keep,
    .inl actQueueSet_keep, .inl actQueueDelete_keep, .inl actQueueFlush_keep, .inl actQueueStatus_keep, ?_⟩
  refine ⟨.inl actQueueCounters_keep, .inl actNodeCreate_keep, .inl actNodeSet_keep, .inl actNodeDelete_keep,
    .inl actNodeStatus_keep, .inl actWredProfileSet_keep, .inl actSamplerGroupSet_keep, .inl actSamplerHistRead_keep, ?_⟩
  exact .inl actSchedCounters_keep

theorem areaDet_holds : ∀ k ∈ areaDet, Holds k := by
  simp only [areaDet, List.mem_cons, List.not_mem_nil, or_false, forall_eq_or_imp, forall_eq]
  refine ⟨.inl actStreamCreate_keep, .inl actStreamSet_keep, .inl actStreamDelete_keep, .inl actStreamStatus_keep,
    .inl actStreamCounters_keep, .inl actStreamEgressCreate_keep, .inl actStreamEgressDelete_keep, .inl actFrerCreate_keep, ?_⟩
  refine ⟨.inl actFrerSet_keep, .inl actFrerDelete_keep, .inl actFrerStatus_keep, .inl actFrerCounters_keep,
    .inl actFrerReset_keep, .inl actGateSet_keep, .inl actGateClear_keep, .inl actGateStatus_keep, ?_⟩
  exact .inl actDetCounters_keep

theorem areaFabric_holds : ∀ k ∈ areaFabric, Holds k := by
  simp only [areaFabric, List.mem_cons, List.not_mem_nil, or_false, forall_eq_or_imp, forall_eq]
  exact ⟨.inl actFabricSet_keep, .inl actFabricProfileSet_keep, .inl actFabricSysportSet_keep, .inl actFabricVoqGuarantee_keep, .inl actFabricGrantSet_keep, .inl actFabricCreditSet_keep, .inl actFabricStatus_keep, .inl actFabricLaneReach_keep, .inl actFabricCounters_keep⟩

theorem areaTime_holds : ∀ k ∈ areaTime, Holds k := by
  simp only [areaTime, List.mem_cons, List.not_mem_nil, or_false, forall_eq_or_imp, forall_eq]
  refine ⟨.inl actTimeGet_keep, .inl actTimeAdjust_keep, .inl actTimeStep_keep, .inl actTimeStateSet_keep,
    .inl actTimeStatus_keep, .inl actTimePortSet_keep, .inl actTimeTsringSet_keep, .inl actTimeOriginate_keep, ?_⟩
  exact ⟨.inl actTimePpsSet_keep, .inl actTimeTodSet_keep, .inl actTimeSynceSet_keep, .inl actTimeTideSet_keep, .inl actTimeCounters_keep⟩

theorem areaMem_holds : ∀ k ∈ areaMem, Holds k := by
  simp only [areaMem, List.mem_cons, List.not_mem_nil, or_false, forall_eq_or_imp, forall_eq]
  exact ⟨.inl actMemSet_keep, .inl actMemStatus_keep, .inl actMemRemapRead_keep, .inl actMemSpare_keep, .inl actMemTrainReport_keep, .inl actMemCounters_keep⟩

theorem areaTwin_holds : ∀ k ∈ areaTwin, Holds k := by
  simp only [areaTwin, List.mem_cons, List.not_mem_nil, or_false, forall_eq_or_imp, forall_eq]
  exact ⟨.inl actTwinSet_keep, .inl actTwinStatus_keep, .inl actTwinSwitch_keep, .inl actTwinForce_keep, .inl actTwinJoin_keep, .inl actTwinRefereeLoad_keep, .inl actTwinDecide_keep, .inl actTwinManifestRead_keep, .inl actTwinCounters_keep⟩

theorem areaPower_holds : ∀ k ∈ areaPower, Holds k := by
  simp only [areaPower, List.mem_cons, List.not_mem_nil, or_false, forall_eq_or_imp, forall_eq]
  exact ⟨.inl actPowerTolSet_keep, .inl actPowerPortSet_keep, .inl actPowerConcentrateSet_keep, .inl actPowerDomainStatus_keep, .inl actPowerStatus_keep, .inl actPowerCounters_keep⟩

theorem areaTest_holds : ∀ k ∈ areaTest, Holds k := by
  simp only [areaTest, List.mem_cons, List.not_mem_nil, or_false, forall_eq_or_imp, forall_eq]
  exact ⟨.inl actSoundSet_keep, .inl actSoundNow_keep, .inl actSoundStatus_keep, .inl actSoundSliceInfo_keep, .inl actScanFull_keep, .inl actScanResult_keep, .inl actLifecycleChallenge_keep, .inr ⟨rfl, rfl⟩, .inl actLifecycleKeyRevoke_keep, .inl actSelftestCounters_keep⟩

theorem areaFault_holds : ∀ k ∈ areaFault, Holds k := by
  simp only [areaFault, List.mem_cons, List.not_mem_nil, or_false, forall_eq_or_imp, forall_eq]
  exact ⟨.inl actFaultStatus_keep, .inl actFaultLogRead_keep, .inl actFaultLastBreathSet_keep, .inl actFaultLastBreathRead_keep, .inl actFaultClusterReinit_keep, .inl actFaultReset_keep, .inl actFaultCounters_keep⟩

theorem areaTelem_holds : ∀ k ∈ areaTelem, Holds k := by
  simp only [areaTelem, List.mem_cons, List.not_mem_nil, or_false, forall_eq_or_imp, forall_eq]
  exact ⟨.inl actTelemBankSet_keep, .inl actTelemBankRead_keep, .inl actTelemBwSet_keep, .inl actTelemDumpSet_keep, .inl actTelemDumpStatus_keep, .inl actTelemCounters_keep, .inl actTelemUserGrant_keep⟩

theorem areaUpgrade_holds : ∀ k ∈ areaUpgrade, Holds k := by
  simp only [areaUpgrade, List.mem_cons, List.not_mem_nil, or_false, forall_eq_or_imp, forall_eq]
  exact ⟨.inl actUpgradeLoad_keep, .inl actUpgradeActivate_keep, .inl actUpgradeConfirm_keep, .inl actUpgradeStatus_keep, .inl actUpgradeProfile_keep⟩

theorem areaPio_holds : ∀ k ∈ areaPio, Holds k := by
  simp only [areaPio, List.mem_cons, List.not_mem_nil, or_false, forall_eq_or_imp, forall_eq]
  exact ⟨.inl actPioRingMap_keep, .inl actPioCounters_keep⟩

theorem baseCatalog_holds : ∀ k ∈ baseCatalog, Holds k :=
  List.forall_mem_append.2 ⟨List.forall_mem_append.2 ⟨List.forall_mem_append.2 ⟨List.forall_mem_append.2 ⟨List.forall_mem_append.2 ⟨List.forall_mem_append.2 ⟨List.forall_mem_append.2 ⟨List.forall_mem_append.2 ⟨List.forall_mem_append.2 ⟨List.forall_mem_append.2 ⟨List.forall_mem_append.2 ⟨List.forall_mem_append.2 ⟨List.forall_mem_append.2 ⟨List.forall_mem_append.2 ⟨List.forall_mem_append.2 ⟨List.forall_mem_append.2 ⟨List.forall_mem_append.2 ⟨List.forall_mem_append.2 ⟨List.forall_mem_append.2 ⟨areaDevice_holds, areaLine_holds⟩, areaTransport_holds⟩, areaCircuit_holds⟩, areaPipe_holds⟩, areaTables_holds⟩, areaLearn_holds⟩, areaBuf_holds⟩, areaQueue_holds⟩, areaDet_holds⟩, areaFabric_holds⟩, areaTime_holds⟩, areaMem_holds⟩, areaTwin_holds⟩, areaPower_holds⟩, areaTest_holds⟩, areaFault_holds⟩, areaTelem_holds⟩, areaUpgrade_holds⟩, areaPio_holds⟩

theorem stageCmd_holds {op : Nat} {k : Cmd} (h : stageCmd op = some k) : ∀ c q s, keep (k.act c q s).st = keep s := by
  obtain ⟨h1, h2⟩ := Option.filter_eq_some_iff.1 h
  rcases baseCatalog_holds k (List.mem_of_find?_eq_some h1) with h3 | ⟨-, h3⟩
  · exact h3
  · rw [h3] at h2; exact absurd h2 (by decide)

theorem twinCmd_holds {op : Nat} {k : Cmd} (h : twinCmd op = some k) : ∀ c q s, keep (k.act c q s).st = keep s := by
  obtain ⟨h1, h2⟩ := Option.filter_eq_some_iff.1 h
  rcases baseCatalog_holds k (List.mem_of_find?_eq_some h1) with h3 | ⟨h4, h3⟩
  · exact h3
  · have h5 := List.find?_some h1
    simp only [beq_iff_eq] at h5
    have h6 : (carried op || k.staging != .never) = true := h2
    rw [h3, ← h5, h4] at h6
    exact absurd h6 (by decide)

theorem replay_keep {h mb pre} : ∀ {ops i s r}, replay h mb pre i ops s = .ok r → keep r = keep s := by
  intro ops
  induction ops with
  | nil => intro i s r h; unfold replay at h; injection h with h; subst h; rfl
  | cons o ops ih =>
    intro i s r h
    unfold replay at h
    split at h
    · cases h
    · rename_i k hk
      simp only [] at h
      split at h
      · exact (ih h).trans (stageCmd_holds hk _ _ _)
      · cases h

theorem replayAll_keep : ∀ a0 a1 a2 a3 a4, keep (replayAll a0 a1 a2 a3 a4) = keep a4 := by
  intro h mb pre ops s
  unfold replayAll
  refine keep_foldl _ ?_ _ _
  intro s o
  split
  · rfl
  · rename_i k hk
    simp only []
    split
    · exact stageCmd_holds hk _ _ _
    · rfl

theorem prepare_failed {i c : Nat} {s t : State} {st : Nat} {resp : List Word} (h : prepare i c s = .failed st resp t) : keep t = keep s := by
  unfold prepare at h
  split at h
  · injection h with h1 h2 h3; subst h3; rfl
  split at h
  · injection h with h1 h2 h3; subst h3; rfl
  split at h
  · injection h with h1 h2 h3; subst h3; rfl
  split at h
  · injection h with h1 h2 h3; subst h3; rfl
  simp only [] at h
  split at h
  · injection h with h1 h2 h3; subst h3; rfl
  split at h
  · cases h
  · injection h with h1 h2 h3; subst h3; exact admCount_keep _ _
  split at h
  · cases h
  · injection h with h1 h2 h3; subst h3; rw [partShort_keep, admCount_keep]

theorem prepare_ready {i c : Nat} {s t : State} {x : Txn} (h : prepare i c s = .ready x t) : keep t = keep s := by
  unfold prepare at h
  split at h
  · cases h
  split at h
  · cases h
  split at h
  · cases h
  split at h
  · cases h
  simp only [] at h
  split at h
  · cases h
  split at h
  · injection h with h1 h2; subst h2; exact takeTables_keep _ _
  · cases h
  split at h
  · rename_i hp
    have kp := (partRaise_keep _ _).symm.trans (congrArg (fun p : List Nat × Nat × State => keep p.2.2) hp)
    injection h with h1 h2; subst h2
    exact (takeTables_keep _ _).trans (kp.symm.trans (admCount_keep _ _))
  · cases h

theorem finishPrep_keep : ∀ a0 a1, keep (finishPrep a0 a1) = keep a1 := by
  intro i s
  unfold finishPrep
  split
  · rfl
  · rename_i h x hx
    simp only []
    split
    · rename_i h
      exact (ownVerdict_keep _ _ _ _).trans (prepare_failed h)
    · rename_i h
      exact (ownVerdict_keep _ _ _ _).trans ((modTxn_keep _ _ _).trans (prepare_ready h))

theorem execCommitPreparationDone_keep : ∀ a0 a1 a2, keep (after (execCommitPreparationDone a0 a1 a2) a2) = keep a2 := by
  intro a0 a1 a2
  unfold execCommitPreparationDone
  simp only [↓keep_mk, ↓keep_fold, ↓id_eq, ↓after_next, ↓State_atTime_keep, ↓ownVerdict_keep, ↓finishPrep_keep]
  (repeat' split) <;> simp only [↓keep_mk, ↓keep_fold, ↓id_eq, ↓after_next, ↓State_atTime_keep, ↓ownVerdict_keep, ↓finishPrep_keep]

theorem execCommitTimePassed_keep : ∀ a0 a1 a2, keep (after (execCommitTimePassed a0 a1 a2) a2) = keep a2 := by
  intro a0 a1 a2
  unfold execCommitTimePassed
  simp only [↓keep_mk, ↓keep_fold, ↓id_eq, ↓after_next, ↓State_atTime_keep, ↓ownVerdict_keep]
  (repeat' split) <;> simp only [↓keep_mk, ↓keep_fold, ↓id_eq, ↓after_next, ↓State_atTime_keep, ↓ownVerdict_keep]

theorem rollBack_keep : ∀ a0 a1, keep (rollBack a0 a1) = keep a1 := by
  intro a0 a1
  unfold rollBack
  rfl

theorem actTxnRollback_keep (c : Ctx) (q : List Word) (s : State) : keep (actTxnRollback c q s).st = keep s := by
  unfold actTxnRollback
  (repeat' split) <;> simp only [↓keep_mk, ↓keep_fold, ↓id_eq, ↓after_next, ↓fail_keep, ↓done_keep, ↓toTwin_keep, ↓rollBack_keep]

theorem execTxnRollback_keep : ∀ a0 a1 a2, keep (after (execTxnRollback a0 a1 a2) a2) = keep a2 := fun _ _ _ => runCommand_keep _ actTxnRollback_keep _ _ _

theorem actTxnStatus_keep (c : Ctx) (q : List Word) (s : State) : keep (actTxnStatus c q s).st = keep s := by
  unfold actTxnStatus
  (repeat' split) <;> rfl

theorem execTxnStatus_keep : ∀ a0 a1 a2, keep (after (execTxnStatus a0 a1 a2) a2) = keep a2 := fun _ _ _ => runCommand_keep _ actTxnStatus_keep _ _ _

theorem actTxnList_keep (c : Ctx) (q : List Word) (s : State) : keep (actTxnList c q s).st = keep s := by
  unfold actTxnList
  rfl

theorem execTxnList_keep : ∀ a0 a1 a2, keep (after (execTxnList a0 a1 a2) a2) = keep a2 := fun _ _ _ => runCommand_keep _ actTxnList_keep _ _ _

theorem atBoundary_keep : ∀ a0 a1, keep (atBoundary a0 a1) = keep a1 := by
  intro a0 a1
  unfold atBoundary
  rfl

theorem withPrepared_keep : ∀ a0, keep (withPrepared a0) = keep a0 := by
  intro a0
  unfold withPrepared
  repeat' (first
    | with_reducible rfl
    | with_reducible assumption
    | simp only [↓keep_mk, ↓keep_fold, ↓id_eq, ↓after_next, ↓replayAll_keep, ↓atBoundary_keep, ↓replayAll_keep]
    | with_reducible refine keep_ite _ _ _ _ ?_ ?_
    | with_reducible refine keep_after_ite _ _ _ _ _ ?_ ?_
    | with_reducible refine (keep_foldl _ ?_ _ _).trans ?_
    | with_reducible refine (keep_foldl_snd _ ?_ _ _).trans ?_
    | (intros; simp only [*])
    | intro _
    | split)

theorem asCommitted_keep : ∀ {h s r}, asCommitted h s = some r → keep r = keep s := by
  intro h s r hr
  unfold asCommitted at hr
  simp only [] at hr
  split at hr
  · injection hr with hr; subst hr; exact withPrepared_keep _
  · obtain ⟨y, hy, rfl⟩ := Option.map_eq_some_iff.1 hr
    refine keep_ite _ _ _ _ (withPrepared_keep _) ?_
    rw [replayAll_keep, atBoundary_keep]
    exact withPrepared_keep _

theorem actDetCheck_keep (c : Ctx) (q : List Word) (s : State) : keep (actDetCheck c q s).st = keep s := by
  unfold actDetCheck
  repeat' (first
    | with_reducible rfl
    | with_reducible assumption
    | simp only [↓keep_mk, ↓keep_fold, ↓id_eq, ↓after_next, ↓fail_keep, ↓admCount_keep, ↓reply_keep]
    | with_reducible refine keep_ite _ _ _ _ ?_ ?_
    | with_reducible refine keep_after_ite _ _ _ _ _ ?_ ?_
    | with_reducible refine (keep_foldl _ ?_ _ _).trans ?_
    | with_reducible refine (keep_foldl_snd _ ?_ _ _).trans ?_
    | (intros; simp only [*])
    | intro _
    | split)

theorem execDetCheck_keep : ∀ a0 a1 a2, keep (after (execDetCheck a0 a1 a2) a2) = keep a2 := fun _ _ _ => runCommand_keep _ actDetCheck_keep _ _ _

theorem actDetExport_keep (c : Ctx) (q : List Word) (s : State) : keep (actDetExport c q s).st = keep s := by
  unfold actDetExport
  repeat' (first
    | with_reducible rfl
    | with_reducible assumption
    | simp only [↓keep_mk, ↓keep_fold, ↓id_eq, ↓after_next, ↓fail_keep, ↓State_took_keep, ↓freeBytes_keep, ↓reply_keep, ↓hostWrite_keep]
    | with_reducible refine keep_ite _ _ _ _ ?_ ?_
    | with_reducible refine keep_after_ite _ _ _ _ _ ?_ ?_
    | with_reducible refine (keep_foldl _ ?_ _ _).trans ?_
    | with_reducible refine (keep_foldl_snd _ ?_ _ _).trans ?_
    | (intros; simp only [*])
    | intro _
    | split)

theorem execDetExport_keep : ∀ a0 a1 a2, keep (after (execDetExport a0 a1 a2) a2) = keep a2 := fun _ _ _ => runCommand_keep _ actDetExport_keep _ _ _

theorem acceptMb_keep : ∀ a0 a1 a2, keep (acceptMb a0 a1 a2) = keep a2 := by
  intro a0 a1 a2
  unfold acceptMb
  simp only [↓keep_mk, ↓keep_fold, ↓id_eq, ↓after_next, ↓indirectError_keep, ↓acceptCmd_keep, ↓complete_keep]
  (repeat' split) <;> simp only [↓keep_mk, ↓keep_fold, ↓id_eq, ↓after_next, ↓indirectError_keep, ↓acceptCmd_keep, ↓complete_keep]

theorem doorbell_keep : ∀ a0 a1 a2, keep (doorbell a0 a1 a2) = keep a2 := by
  intro a0 a1 a2
  unfold doorbell
  repeat' (first
    | with_reducible rfl
    | with_reducible assumption
    | simp only [↓keep_mk, ↓keep_fold, ↓id_eq, ↓after_next, ↓mbRefuse_keep, ↓acceptMb_keep]
    | with_reducible refine keep_ite _ _ _ _ ?_ ?_
    | with_reducible refine keep_after_ite _ _ _ _ _ ?_ ?_
    | with_reducible refine (keep_foldl _ ?_ _ _).trans ?_
    | with_reducible refine (keep_foldl_snd _ ?_ _ _).trans ?_
    | (intros; simp only [*])
    | intro _
    | split)

theorem execMbDoorbell_keep : ∀ a0 a1 a2 a3 a4, keep (after (execMbDoorbell a0 a1 a2 a3 a4) a4) = keep a4 := by
  intro a0 a1 a2 a3 a4
  unfold execMbDoorbell
  (repeat' split) <;> simp only [↓keep_mk, ↓keep_fold, ↓id_eq, ↓after_next, ↓doorbell_keep, ↓hostFed_keep, ↓State_atTime_keep]

theorem partBoundary_keep : ∀ a0, keep (partBoundary a0) = keep a0 := by
  intro a0
  unfold partBoundary
  simp only [partSet_keep]

theorem applyTxn_keep : ∀ a0 a1 a2, keep (applyTxn a0 a1 a2) = keep a2 := by
  intro a0 a1 a2
  unfold applyTxn
  (repeat' split) <;> simp only [↓keep_mk, ↓keep_fold, ↓id_eq, ↓after_next, ↓replayAll_keep, ↓tablesApply_keep, ↓unreserve_keep, ↓putTxn_keep, ↓putBounds_keep, ↓raise_keep]

theorem flipEpoch_keep : ∀ a0, keep (flipEpoch a0) = keep a0 := by
  intro a0
  unfold flipEpoch
  simp only [↓keep_mk, ↓keep_fold, ↓id_eq, ↓after_next, ↓retireIn_keep, ↓retireEg_keep, ↓modFwd_keep]
  (repeat' split) <;> simp only [↓keep_mk, ↓keep_fold, ↓id_eq, ↓after_next, ↓retireIn_keep, ↓retireEg_keep, ↓modFwd_keep]

theorem commitBoundary_keep : ∀ a0, keep (commitBoundary a0) = keep a0 := by
  intro a0
  unfold commitBoundary
  repeat' (first
    | with_reducible rfl
    | with_reducible assumption
    | simp only [↓keep_mk, ↓keep_fold, ↓id_eq, ↓after_next, ↓applyTxn_keep, ↓flipEpoch_keep]
    | with_reducible refine keep_ite _ _ _ _ ?_ ?_
    | with_reducible refine keep_after_ite _ _ _ _ _ ?_ ?_
    | with_reducible refine (keep_foldl _ ?_ _ _).trans ?_
    | with_reducible refine (keep_foldl_snd _ ?_ _ _).trans ?_
    | (intros; simp only [*])
    | intro _
    | split)

theorem execPartitionShort_keep : ∀ a0 a1 a2, keep (after (execPartitionShort a0 a1 a2) a2) = keep a2 := by
  intro a0 a1 a2
  unfold execPartitionShort
  simp only [↓keep_mk, ↓keep_fold, ↓id_eq, ↓after_next, ↓State_atTime_keep, ↓partRaise_keep, ↓ownVerdict_keep, ↓partShort_keep, ↓admCount_keep]
  (repeat' split) <;> simp only [↓keep_mk, ↓keep_fold, ↓id_eq, ↓after_next, ↓State_atTime_keep, ↓partRaise_keep, ↓ownVerdict_keep, ↓partShort_keep, ↓admCount_keep]

/-! ### Host.lean -/

theorem execMbDone_keep : ∀ a0 a1 a2, keep (after (execMbDone a0 a1 a2) a2) = keep a2 := by
  intro a0 a1 a2
  unfold execMbDone
  rfl

theorem execEvrCtrl_keep : ∀ a0 a1 a2, keep (after (execEvrCtrl a0 a1 a2) a2) = keep a2 := by
  intro a0 a1 a2
  unfold execEvrCtrl
  (repeat' split) <;> simp only [↓keep_mk, ↓keep_fold, ↓id_eq, ↓after_next, ↓evrCtrlWrite_keep, ↓State_atTime_keep]

theorem execEvrConsumer_keep : ∀ a0 a1 a2, keep (after (execEvrConsumer a0 a1 a2) a2) = keep a2 := by
  intro a0 a1 a2
  unfold execEvrConsumer
  (repeat' split) <;> simp only [↓keep_mk, ↓keep_fold, ↓id_eq, ↓after_next, ↓evrConsumerWrite_keep, ↓State_atTime_keep]

theorem execEvrLost_keep : ∀ a0 a1, keep (after (execEvrLost a0 a1) a1) = keep a1 := by
  intro a0 a1
  unfold execEvrLost
  rfl

theorem execTsrConsumer_keep : ∀ a0 a1 a2, keep (after (execTsrConsumer a0 a1 a2) a2) = keep a2 := by
  intro a0 a1 a2
  unfold execTsrConsumer
  rfl

theorem execRingCtrl_keep : ∀ a0 a1 a2 a3 a4, keep (after (execRingCtrl a0 a1 a2 a3 a4) a4) = keep a4 := by
  intro a0 a1 a2 a3 a4
  unfold execRingCtrl
  (repeat' split) <;> simp only [↓keep_mk, ↓keep_fold, ↓id_eq, ↓after_next, ↓ringCtrlWrite_keep, ↓State_atTime_keep]

theorem execRxTail_keep : ∀ a0 a1 a2 a3, keep (after (execRxTail a0 a1 a2 a3) a3) = keep a3 := by
  intro a0 a1 a2 a3
  unfold execRxTail
  rfl

theorem execTxTail_keep : ∀ a0 a1 a2 a3, keep (after (execTxTail a0 a1 a2 a3) a3) = keep a3 := by
  intro a0 a1 a2 a3
  unfold execTxTail
  rfl

theorem pf0Write_keep : ∀ a0 a1 a2, keep (pf0Write a0 a1 a2) = keep a2 := by
  intro a0 a1 a2
  unfold pf0Write
  (repeat' split) <;> simp only [↓keep_mk, ↓keep_fold, ↓id_eq, ↓after_next, ↓mbHostWrite_keep, ↓modHost_keep, ↓doorbell_keep, ↓mbDoneWrite_keep, ↓lockViols_keep, ↓evrCtrlWrite_keep, ↓evrConsumerWrite_keep, ↓tsrConsumerWrite_keep, ↓pioCount_keep]

theorem pf1Write_keep : ∀ a0 a1 a2, keep (pf1Write a0 a1 a2) = keep a2 := by
  intro a0 a1 a2
  unfold pf1Write
  (repeat' split) <;> simp only [↓keep_mk, ↓keep_fold, ↓id_eq, ↓after_next, ↓pioCount_keep, ↓ringWrite_keep]

theorem execRegisterWrite_keep : ∀ a0 a1 a2 a3 a4, keep (after (execRegisterWrite a0 a1 a2 a3 a4) a4) = keep a4 := by
  intro a0 a1 a2 a3 a4
  unfold execRegisterWrite
  simp only [↓keep_mk, ↓keep_fold, ↓id_eq, ↓after_next, ↓State_atTime_keep, ↓pf0Write_keep, ↓pf1Write_keep, ↓msixWrite_keep, ↓pioCount_keep]
  (repeat' split) <;> simp only [↓keep_mk, ↓keep_fold, ↓id_eq, ↓after_next, ↓State_atTime_keep, ↓pf0Write_keep, ↓pf1Write_keep, ↓msixWrite_keep, ↓pioCount_keep]

theorem execPf2UserRead_keep : ∀ a0 a1 a2 a3, keep (after (execPf2UserRead a0 a1 a2 a3) a3) = keep a3 := by
  intro a0 a1 a2 a3
  unfold execPf2UserRead
  simp only [↓keep_mk, ↓keep_fold, ↓id_eq, ↓after_next, ↓State_atTime_keep, ↓pioCount_keep, ↓modHost_keep]
  (repeat' split) <;> simp only [↓keep_mk, ↓keep_fold, ↓id_eq, ↓after_next, ↓State_atTime_keep, ↓pioCount_keep, ↓modHost_keep]

theorem execPcieConfigRequest_keep : ∀ a0 a1 a2 a3 a4, keep (after (execPcieConfigRequest a0 a1 a2 a3 a4) a4) = keep a4 := by
  intro a0 a1 a2 a3 a4
  unfold execPcieConfigRequest
  simp only [↓keep_mk, ↓keep_fold, ↓id_eq, ↓after_next, ↓State_atTime_keep, ↓emit_keep, ↓modHost_keep]
  (repeat' split) <;> simp only [↓keep_mk, ↓keep_fold, ↓id_eq, ↓after_next, ↓State_atTime_keep, ↓emit_keep, ↓modHost_keep]

theorem execPerstNAssert_keep : ∀ a0 a1, keep (after (execPerstNAssert a0 a1) a1) = keep a1 := by
  intro a0 a1
  unfold execPerstNAssert
  (repeat' split) <;> simp only [↓keep_mk, ↓keep_fold, ↓id_eq, ↓after_next, ↓modHost_keep, ↓functionReset_keep, ↓State_atTime_keep]

theorem execFunctionLevelReset_keep : ∀ a0 a1 a2, keep (after (execFunctionLevelReset a0 a1 a2) a2) = keep a2 := by
  intro a0 a1 a2
  unfold execFunctionLevelReset
  (repeat' split) <;> simp only [↓keep_mk, ↓keep_fold, ↓id_eq, ↓after_next, ↓State_atTime_keep, ↓functionReset_keep]

theorem pcieLink_keep : ∀ a0 a1, keep (pcieLink a0 a1) = keep a1 := by
  intro a0 a1
  unfold pcieLink
  (repeat' split) <;> simp only [↓keep_mk, ↓keep_fold, ↓id_eq, ↓after_next, ↓raise_keep, ↓modHost_keep]

theorem execPcieLinkChange_keep : ∀ a0 a1 a2 a3 a4, keep (after (execPcieLinkChange a0 a1 a2 a3 a4) a4) = keep a4 := by
  intro a0 a1 a2 a3 a4
  unfold execPcieLinkChange
  (repeat' split) <;> simp only [↓keep_mk, ↓keep_fold, ↓id_eq, ↓after_next, ↓pcieLink_keep, ↓State_atTime_keep]

theorem execRxFrameDelivery_keep : ∀ a0 a1 a2 a3, keep (after (execRxFrameDelivery a0 a1 a2 a3) a3) = keep a3 := by
  intro a0 a1 a2 a3
  unfold execRxFrameDelivery
  (repeat' split) <;> simp only [↓keep_mk, ↓keep_fold, ↓id_eq, ↓after_next, ↓hostFed_keep, ↓State_atTime_keep, ↓rxDeliver_keep]

theorem execTxRingFrame_keep : ∀ a0 a1 a2, keep (after (execTxRingFrame a0 a1 a2) a2) = keep a2 := by
  intro a0 a1 a2
  unfold execTxRingFrame
  (repeat' split) <;> simp only [↓keep_mk, ↓keep_fold, ↓id_eq, ↓after_next, ↓txServe_keep, ↓hostFed_keep, ↓State_atTime_keep]

theorem execDmaError_keep : ∀ a0 a1 a2 a3, keep (after (execDmaError a0 a1 a2 a3) a3) = keep a3 := by
  intro a0 a1 a2 a3
  unfold execDmaError
  (repeat' split) <;> simp only [↓keep_mk, ↓keep_fold, ↓id_eq, ↓after_next, ↓dmaFail_keep, ↓State_atTime_keep]

theorem execEventRecordWrite_keep : ∀ a0 a1, keep (after (execEventRecordWrite a0 a1) a1) = keep a1 := by
  intro a0 a1
  unfold execEventRecordWrite
  simp only [↓keep_mk, ↓keep_fold, ↓id_eq, ↓after_next, ↓State_atTime_keep, ↓eventWrite_keep, ↓modHost_keep]
  (repeat' split) <;> simp only [↓keep_mk, ↓keep_fold, ↓id_eq, ↓after_next, ↓State_atTime_keep, ↓eventWrite_keep, ↓modHost_keep]

theorem execMsixModerationTimeout_keep : ∀ a0 a1 a2, keep (after (execMsixModerationTimeout a0 a1 a2) a2) = keep a2 := by
  intro a0 a1 a2
  unfold execMsixModerationTimeout
  (repeat' split) <;> simp only [↓keep_mk, ↓keep_fold, ↓id_eq, ↓after_next, ↓moderate_keep, ↓State_atTime_keep]

/-! ### Twin.lean -/

theorem execProfileConverted_keep : ∀ a0 a1, keep (after (execProfileConverted a0 a1) a1) = keep a1 := by
  intro a0 a1
  unfold execProfileConverted
  simp only [↓keep_mk, ↓keep_fold, ↓id_eq, ↓after_next, ↓State_atTime_keep, ↓setTwinFree_keep, ↓modTwin_keep, ↓raise_keep]
  (repeat' split) <;> simp only [↓keep_mk, ↓keep_fold, ↓id_eq, ↓after_next, ↓State_atTime_keep, ↓setTwinFree_keep, ↓modTwin_keep, ↓raise_keep]

theorem switchRelease_keep : ∀ a0, keep (switchRelease a0) = keep a0 := by
  intro a0
  unfold switchRelease
  (repeat' split) <;> simp only [↓keep_mk, ↓keep_fold, ↓id_eq, ↓after_next, ↓emit_keep, ↓sendManifest_keep, ↓setTwinFree_keep, ↓modTwin_keep]

theorem checkpointClose_keep : ∀ a0 a1, keep (checkpointClose a0 a1) = keep a1 := by
  intro a0 a1
  unfold checkpointClose
  simp only [↓keep_mk, ↓keep_fold, ↓id_eq, ↓after_next, ↓emit_keep, ↓modTwin_keep]
  (repeat' split) <;> simp only [↓keep_mk, ↓keep_fold, ↓id_eq, ↓after_next, ↓emit_keep, ↓modTwin_keep]

theorem becomeActive_keep : ∀ a0, keep (becomeActive a0) = keep a0 := by
  intro a0
  unfold becomeActive
  repeat' (first
    | with_reducible rfl
    | with_reducible assumption
    | simp only [↓keep_mk, ↓keep_fold, ↓id_eq, ↓after_next, ↓modTwin_keep, ↓setTwinFree_keep, ↓serveVoq_keep]
    | with_reducible refine keep_ite _ _ _ _ ?_ ?_
    | with_reducible refine keep_after_ite _ _ _ _ _ ?_ ?_
    | with_reducible refine (keep_foldl _ ?_ _ _).trans ?_
    | with_reducible refine (keep_foldl_snd _ ?_ _ _).trans ?_
    | (intros; simp only [*])
    | intro _
    | split)

theorem standbyBoundary_keep : ∀ a0 a1, keep (standbyBoundary a0 a1) = keep a1 := by
  intro a0 a1
  unfold standbyBoundary
  simp only [↓keep_mk, ↓keep_fold, ↓id_eq, ↓after_next, ↓modTwin_keep, ↓emit_keep, ↓becomeActive_keep]
  (repeat' split) <;> simp only [↓keep_mk, ↓keep_fold, ↓id_eq, ↓after_next, ↓modTwin_keep, ↓emit_keep, ↓becomeActive_keep]

theorem twinBoundary_keep : ∀ a0 a1, keep (twinBoundary a0 a1) = keep a1 := by
  intro a0 a1
  unfold twinBoundary
  (repeat' split) <;> simp only [↓keep_mk, ↓keep_fold, ↓id_eq, ↓after_next, ↓switchRelease_keep, ↓checkpointClose_keep, ↓standbyBoundary_keep]

theorem execHawserLinkState_keep : ∀ a0 a1 a2 a3 a4, keep (after (execHawserLinkState a0 a1 a2 a3 a4) a4) = keep a4 := by
  intro a0 a1 a2 a3 a4
  unfold execHawserLinkState
  simp only [↓keep_mk, ↓keep_fold, ↓id_eq, ↓after_next, ↓State_atTime_keep, ↓modTwin_keep, ↓sendHealth_keep, ↓twinRaise_keep, ↓startCopy_keep, ↓linkDown_keep]
  (repeat' split) <;> simp only [↓keep_mk, ↓keep_fold, ↓id_eq, ↓after_next, ↓State_atTime_keep, ↓modTwin_keep, ↓sendHealth_keep, ↓twinRaise_keep, ↓startCopy_keep, ↓linkDown_keep]

theorem takeEvidence_keep : ∀ a0 a1 a2, keep (takeEvidence a0 a1 a2) = keep a2 := by
  intro a0 a1 a2
  unfold takeEvidence
  simp only [↓keep_mk, ↓keep_fold, ↓id_eq, ↓after_next, ↓modTwin_keep, ↓decide__keep]
  (repeat' split) <;> simp only [↓keep_mk, ↓keep_fold, ↓id_eq, ↓after_next, ↓modTwin_keep, ↓decide__keep]

theorem takeManifest_keep : ∀ a0 a1, keep (takeManifest a0 a1) = keep a1 := by
  intro a0 a1
  unfold takeManifest
  simp only [modTwin_keep, takeEvidence_keep]

theorem takeHealth_keep : ∀ a0 a1 a2 a3 a4 a5, keep (takeHealth a0 a1 a2 a3 a4 a5) = keep a5 := by
  intro a0 a1 a2 a3 a4 a5
  unfold takeHealth
  repeat' (first
    | with_reducible rfl
    | with_reducible assumption
    | simp only [↓keep_mk, ↓keep_fold, ↓id_eq, ↓after_next, ↓modTwin_keep, ↓twinRaise_keep, ↓emit_keep, ↓startConvert_keep]
    | with_reducible refine keep_ite _ _ _ _ ?_ ?_
    | with_reducible refine keep_after_ite _ _ _ _ _ ?_ ?_
    | with_reducible refine (keep_foldl _ ?_ _ _).trans ?_
    | with_reducible refine (keep_foldl_snd _ ?_ _ _).trans ?_
    | (intros; simp only [*])
    | intro _
    | split)

theorem switchReady_keep : ∀ a0, keep (switchReady a0) = keep a0 := by
  intro a0
  unfold switchReady
  (repeat' split) <;> simp only [↓keep_mk, ↓keep_fold, ↓id_eq, ↓after_next, ↓abortSounding_keep, ↓modTwin_keep]

theorem takeCompared_keep : ∀ a0 a1 a2, keep (takeCompared a0 a1 a2) = keep a2 := by
  intro a0 a1 a2
  unfold takeCompared
  (repeat' split) <;> simp only [↓keep_mk, ↓keep_fold, ↓id_eq, ↓after_next, ↓modTwin_keep, ↓emit_keep, ↓decide__keep]

theorem takeControl_keep : ∀ a0 a1, keep (takeControl a0 a1) = keep a1 := by
  intro a0 a1
  unfold takeControl
  (repeat' split) <;> simp only [↓keep_mk, ↓keep_fold, ↓id_eq, ↓after_next, ↓sendHealth_keep, ↓takeHealth_keep, ↓switchReady_keep, ↓modTwin_keep, ↓takeEvidence_keep, ↓takeCompared_keep, ↓settleContest_keep]

theorem twinUpgrade_keep : ∀ a0 a1 a2, keep (twinUpgrade a0 a1 a2) = keep a2 := by
  intro a0 a1 a2
  unfold twinUpgrade
  (repeat' split) <;> simp only [↓keep_mk, ↓keep_fold, ↓id_eq, ↓after_next, ↓actUpgradeLoad_keep, ↓actUpgradeActivate_keep, ↓actUpgradeConfirm_keep, ↓startConvert_keep]

theorem replayOne_keep : ∀ a0 a1 a2 a3, keep (replayOne a0 a1 a2 a3) = keep a3 := by
  intro op q h s
  unfold replayOne
  split
  · rfl
  · rename_i k hk
    exact keep_ite _ _ _ _ (twinCmd_holds hk _ _ _) rfl

theorem takeRecord_keep : ∀ a0 a1 a2, keep (takeRecord a0 a1 a2) = keep a2 := by
  intro a0 a1 a2
  unfold takeRecord
  simp only [↓keep_mk, ↓keep_fold, ↓id_eq, ↓after_next, ↓modTwin_keep, ↓takeManifest_keep, ↓takeControl_keep, ↓twinCount_keep, ↓twinUpgrade_keep, ↓replayOne_keep]
  (repeat' split) <;> simp only [↓keep_mk, ↓keep_fold, ↓id_eq, ↓after_next, ↓modTwin_keep, ↓takeManifest_keep, ↓takeControl_keep, ↓twinCount_keep, ↓twinUpgrade_keep, ↓replayOne_keep]

theorem execHawserRecordReceived_keep : ∀ a0 a1 a2 a3 a4, keep (after (execHawserRecordReceived a0 a1 a2 a3 a4) a4) = keep a4 := by
  intro a0 a1 a2 a3 a4
  unfold execHawserRecordReceived
  simp only [↓keep_mk, ↓keep_fold, ↓id_eq, ↓after_next, ↓State_atTime_keep, ↓twinCount_keep, ↓skipDevice_keep, ↓takeRecord_keep]
  (repeat' split) <;> simp only [↓keep_mk, ↓keep_fold, ↓id_eq, ↓after_next, ↓State_atTime_keep, ↓twinCount_keep, ↓skipDevice_keep, ↓takeRecord_keep]

theorem rxTake_keep : ∀ a0 a1, keep ((rxTake a0 a1).2) = keep a1 := by
  intro a0 a1
  unfold rxTake
  (repeat' split) <;> rfl

theorem takeReplica_keep : ∀ a0 a1 a2 a3, keep (takeReplica a0 a1 a2 a3) = keep a3 := by
  intro a0 a1 a2 a3
  unfold takeReplica
  simp only [modTwin_keep, dealIn_keep]

theorem execDetFrameRecord_keep : ∀ a0 a1, keep (after (execDetFrameRecord a0 a1) a1) = keep a1 := by
  intro a0 a1
  unfold execDetFrameRecord
  repeat' (first
    | with_reducible rfl
    | with_reducible assumption
    | simp only [↓keep_mk, ↓keep_fold, ↓id_eq, ↓after_next, ↓State_atTime_keep, ↓rxTake_keep, ↓twinCount_keep, ↓takeReplica_keep]
    | simp only [*]
    | with_reducible refine keep_ite _ _ _ _ ?_ ?_
    | with_reducible refine keep_after_ite _ _ _ _ _ ?_ ?_
    | with_reducible refine keep_ite_snd _ _ _ _ ?_ ?_
    | with_reducible refine keep_ite_snd2 _ _ _ _ ?_ ?_
    | with_reducible refine (keep_foldl _ ?_ _ _).trans ?_
    | with_reducible refine (keep_foldl_snd _ ?_ _ _).trans ?_
    | (intros; simp only [*])
    | intro _
    | (split <;> try (rename_i h; first
        | (have k := (congrArg (fun p : _ × State => keep p.2) h).symm; simp only [↓keep_mk, ↓keep_fold, ↓id_eq, ↓after_next, ↓State_atTime_keep, ↓rxTake_keep, ↓twinCount_keep, ↓takeReplica_keep] at k)
        | (have k := (congrArg (fun p : _ × _ × State => keep p.2.2) h).symm; simp only [↓keep_mk, ↓keep_fold, ↓id_eq, ↓after_next, ↓State_atTime_keep, ↓rxTake_keep, ↓twinCount_keep, ↓takeReplica_keep] at k))))

theorem execCheckpointApply_keep : ∀ a0 a1, keep (after (execCheckpointApply a0 a1) a1) = keep a1 := by
  intro a0 a1
  unfold execCheckpointApply
  repeat' (first
    | with_reducible rfl
    | with_reducible assumption
    | simp only [↓keep_mk, ↓keep_fold, ↓id_eq, ↓after_next, ↓State_atTime_keep, ↓rxTake_keep, ↓ckTake_keep, ↓switchReady_keep, ↓modTwin_keep]
    | simp only [*]
    | with_reducible refine keep_ite _ _ _ _ ?_ ?_
    | with_reducible refine keep_after_ite _ _ _ _ _ ?_ ?_
    | with_reducible refine keep_ite_snd _ _ _ _ ?_ ?_
    | with_reducible refine keep_ite_snd2 _ _ _ _ ?_ ?_
    | with_reducible refine (keep_foldl _ ?_ _ _).trans ?_
    | with_reducible refine (keep_foldl_snd _ ?_ _ _).trans ?_
    | (intros; simp only [*])
    | intro _
    | (split <;> try (rename_i h; first
        | (have k := (congrArg (fun p : _ × State => keep p.2) h).symm; simp only [↓keep_mk, ↓keep_fold, ↓id_eq, ↓after_next, ↓State_atTime_keep, ↓rxTake_keep, ↓ckTake_keep, ↓switchReady_keep, ↓modTwin_keep] at k)
        | (have k := (congrArg (fun p : _ × _ × State => keep p.2.2) h).symm; simp only [↓keep_mk, ↓keep_fold, ↓id_eq, ↓after_next, ↓State_atTime_keep, ↓rxTake_keep, ↓ckTake_keep, ↓switchReady_keep, ↓modTwin_keep] at k))))

theorem openRecord_keep : ∀ a0 a1, keep (openRecord a0 a1) = keep a1 := by
  intro a0 a1
  unfold openRecord
  rfl

theorem stageRecord_keep : ∀ a0 a1 a2 a3 a4, keep (stageRecord a0 a1 a2 a3 a4) = keep a4 := by
  intro a0 a1 a2 a3 a4
  unfold stageRecord
  (repeat' split) <;> simp only [↓keep_mk, ↓keep_fold, ↓id_eq, ↓after_next, ↓reserve_keep, ↓putTxn_keep]

theorem takeVerdict_keep : ∀ a0 a1 a2 a3, keep (takeVerdict a0 a1 a2 a3) = keep a3 := by
  intro a0 a1 a2 a3
  unfold takeVerdict
  (repeat' split) <;> simp only [↓keep_mk, ↓keep_fold, ↓id_eq, ↓after_next, ↓modTxn_keep, ↓settleCommit_keep]

theorem takeConfig_keep : ∀ a0 a1, keep (takeConfig a0 a1) = keep a1 := by
  intro a0 a1
  unfold takeConfig
  simp only [↓keep_mk, ↓keep_fold, ↓id_eq, ↓after_next, ↓openRecord_keep, ↓stageRecord_keep, ↓rollBack_keep, ↓markCommit_keep, ↓putTxn_keep, ↓takeVerdict_keep, ↓faulty_keep, ↓twinUpgrade_keep, ↓replayOne_keep]
  (repeat' split) <;> simp only [↓keep_mk, ↓keep_fold, ↓id_eq, ↓after_next, ↓openRecord_keep, ↓stageRecord_keep, ↓rollBack_keep, ↓markCommit_keep, ↓putTxn_keep, ↓takeVerdict_keep, ↓faulty_keep, ↓twinUpgrade_keep, ↓replayOne_keep]

theorem execConfigurationRecord_keep : ∀ a0 a1, keep (after (execConfigurationRecord a0 a1) a1) = keep a1 := by
  intro a0 a1
  unfold execConfigurationRecord
  repeat' (first
    | with_reducible rfl
    | with_reducible assumption
    | simp only [↓keep_mk, ↓keep_fold, ↓id_eq, ↓after_next, ↓State_atTime_keep, ↓rxTake_keep, ↓takeConfig_keep]
    | simp only [*]
    | with_reducible refine keep_ite _ _ _ _ ?_ ?_
    | with_reducible refine keep_after_ite _ _ _ _ _ ?_ ?_
    | with_reducible refine keep_ite_snd _ _ _ _ ?_ ?_
    | with_reducible refine keep_ite_snd2 _ _ _ _ ?_ ?_
    | with_reducible refine (keep_foldl _ ?_ _ _).trans ?_
    | with_reducible refine (keep_foldl_snd _ ?_ _ _).trans ?_
    | (intros; simp only [*])
    | intro _
    | (split <;> try (rename_i h; first
        | (have k := (congrArg (fun p : _ × State => keep p.2) h).symm; simp only [↓keep_mk, ↓keep_fold, ↓id_eq, ↓after_next, ↓State_atTime_keep, ↓rxTake_keep, ↓takeConfig_keep] at k)
        | (have k := (congrArg (fun p : _ × _ × State => keep p.2.2) h).symm; simp only [↓keep_mk, ↓keep_fold, ↓id_eq, ↓after_next, ↓State_atTime_keep, ↓rxTake_keep, ↓takeConfig_keep] at k))))

theorem execCommitAckTimeout_keep : ∀ a0 a1 a2, keep (after (execCommitAckTimeout a0 a1 a2) a2) = keep a2 := by
  intro a0 a1 a2
  unfold execCommitAckTimeout
  simp only [↓keep_mk, ↓keep_fold, ↓id_eq, ↓after_next, ↓State_atTime_keep, ↓goStale_keep, ↓commitPrepared_keep, ↓failCommit_keep, ↓tablesUndo_keep, ↓rollBack_keep]
  (repeat' split) <;> simp only [↓keep_mk, ↓keep_fold, ↓id_eq, ↓after_next, ↓State_atTime_keep, ↓goStale_keep, ↓commitPrepared_keep, ↓failCommit_keep, ↓tablesUndo_keep, ↓rollBack_keep]

theorem trimHead_keep : ∀ a0 a1 a2, keep ((trimHead a0 a1 a2).2) = keep a2 := by
  intro q n
  induction n with
  | zero => intro s; rfl
  | succ n ih =>
    intro s
    unfold trimHead
    split
    · rename_i h; have k := queueTake_keep q s; rw [h] at k; exact k
    · rename_i h; have k := queueTake_keep q s; rw [h] at k
      simp only []
      exact (ih _).trans ((voqRelease_keep _ _ _).trans k)

theorem trimDeep_keep : ∀ a0 a1 a2 a3, keep (trimDeep a0 a1 a2 a3) = keep a3 := by
  intro q d n
  induction n with
  | zero => intro s; rfl
  | succ n ih =>
    intro s
    unfold trimDeep
    split
    · rfl
    · refine keep_ite _ _ _ _ rfl ?_
      split
      · rename_i h; have k := queueTake_keep q s; rw [h] at k; exact k
      · rename_i h; have k := queueTake_keep q s; rw [h] at k
        rw [ih, twinCount_keep, voqRelease_keep]; exact k

theorem trimVoq_keep : ∀ a0 a1 a2 a3, keep (trimVoq a0 a1 a2 a3) = keep a3 := by
  intro a0 a1 a2 a3
  unfold trimVoq
  simp only [↓keep_mk, ↓keep_fold, ↓id_eq, ↓after_next, ↓trimHead_keep, ↓twinCount_keep, ↓trimDeep_keep]
  (repeat' split) <;> simp only [↓keep_mk, ↓keep_fold, ↓id_eq, ↓after_next, ↓trimHead_keep, ↓twinCount_keep, ↓trimDeep_keep]

theorem execCompletionSummaryTrim_keep : ∀ a0 a1, keep (after (execCompletionSummaryTrim a0 a1) a1) = keep a1 := by
  intro a0 a1
  unfold execCompletionSummaryTrim
  repeat' (first
    | with_reducible rfl
    | with_reducible assumption
    | simp only [↓keep_mk, ↓keep_fold, ↓id_eq, ↓after_next, ↓State_atTime_keep, ↓rxTake_keep, ↓trimVoq_keep]
    | simp only [*]
    | with_reducible refine keep_ite _ _ _ _ ?_ ?_
    | with_reducible refine keep_after_ite _ _ _ _ _ ?_ ?_
    | with_reducible refine keep_ite_snd _ _ _ _ ?_ ?_
    | with_reducible refine keep_ite_snd2 _ _ _ _ ?_ ?_
    | with_reducible refine (keep_foldl _ ?_ _ _).trans ?_
    | with_reducible refine (keep_foldl_snd _ ?_ _ _).trans ?_
    | (intros; simp only [*])
    | intro _
    | (split <;> try (rename_i h; first
        | (have k := (congrArg (fun p : _ × State => keep p.2) h).symm; simp only [↓keep_mk, ↓keep_fold, ↓id_eq, ↓after_next, ↓State_atTime_keep, ↓rxTake_keep, ↓trimVoq_keep] at k)
        | (have k := (congrArg (fun p : _ × _ × State => keep p.2.2) h).symm; simp only [↓keep_mk, ↓keep_fold, ↓id_eq, ↓after_next, ↓State_atTime_keep, ↓rxTake_keep, ↓trimVoq_keep] at k))))

theorem reportCompared_keep : ∀ a0 a1 a2, keep (reportCompared a0 a1 a2) = keep a2 := by
  intro a0 a1 a2
  unfold reportCompared
  simp only [↓keep_mk, ↓keep_fold, ↓id_eq, ↓after_next, ↓modTwin_keep, ↓twinCount_keep, ↓emit_keep, ↓decide__keep, ↓twinRaise_keep]
  (repeat' split) <;> simp only [↓keep_mk, ↓keep_fold, ↓id_eq, ↓after_next, ↓modTwin_keep, ↓twinCount_keep, ↓emit_keep, ↓decide__keep, ↓twinRaise_keep]

theorem execManifestCompare_keep : ∀ a0 a1, keep (after (execManifestCompare a0 a1) a1) = keep a1 := by
  intro t s
  rw [← State_atTime_keep s t]
  unfold execManifestCompare
  generalize s.atTime t = u
  simp only []
  refine keep_after_ite _ _ _ _ _ rfl ?_
  split
  · refine keep_after_ite _ _ _ _ _ ?_ rfl
    exact reportCompared_keep _ _ _
  · rename_i w hw
    rw [after_next]
    have hf : ∀ p : Compared × State, keep ((mfEntries w).foldl (fun r e => comparePort (u.tm.tide - 1) (mfOf u.twin.twin (u.tm.tide - 1 - 1))
        (flag w 2 0 || devSkip u (u.tm.tide - 1)) e r) p).2 = keep p.2 :=
      fun p => keep_foldl_snd _ (fun p x => comparePort_keep _ _ _ _ _) _ _
    split
    · rw [reportCompared_keep]; exact hf _
    · exact hf _

theorem lateDecision_keep : ∀ a0, keep (lateDecision a0) = keep a0 := by
  intro a0
  unfold lateDecision
  (repeat' split) <;> simp only [↓keep_mk, ↓keep_fold, ↓id_eq, ↓after_next, ↓decide__keep, ↓modTwin_keep]

theorem execRefereeRun_keep : ∀ a0 a1, keep (after (execRefereeRun a0 a1) a1) = keep a1 := by
  intro a0 a1
  unfold execRefereeRun
  simp only [↓keep_mk, ↓keep_fold, ↓id_eq, ↓after_next, ↓lateDecision_keep, ↓State_atTime_keep, ↓twinCount_keep, ↓modTwin_keep, ↓settleContest_keep, ↓emit_keep]
  (repeat' split) <;> simp only [↓keep_mk, ↓keep_fold, ↓id_eq, ↓after_next, ↓lateDecision_keep, ↓State_atTime_keep, ↓twinCount_keep, ↓modTwin_keep, ↓settleContest_keep, ↓emit_keep]

theorem execHeartbeatLost_keep : ∀ a0 a1, keep (after (execHeartbeatLost a0 a1) a1) = keep a1 := by
  intro a0 a1
  unfold execHeartbeatLost
  simp only [↓keep_mk, ↓keep_fold, ↓id_eq, ↓after_next, ↓State_atTime_keep, ↓twinCount_keep, ↓modTwin_keep, ↓emit_keep, ↓twinRaise_keep]
  (repeat' split) <;> simp only [↓keep_mk, ↓keep_fold, ↓id_eq, ↓after_next, ↓State_atTime_keep, ↓twinCount_keep, ↓modTwin_keep, ↓emit_keep, ↓twinRaise_keep]

theorem execHealthQueryTimeout_keep : ∀ a0 a1, keep (after (execHealthQueryTimeout a0 a1) a1) = keep a1 := by
  intro a0 a1
  unfold execHealthQueryTimeout
  simp only [↓keep_mk, ↓keep_fold, ↓id_eq, ↓after_next, ↓State_atTime_keep, ↓twinFailed_keep, ↓modTwin_keep]
  (repeat' split) <;> simp only [↓keep_mk, ↓keep_fold, ↓id_eq, ↓after_next, ↓State_atTime_keep, ↓twinFailed_keep, ↓modTwin_keep]

theorem execMooringToggle_keep : ∀ a0 a1, keep (after (execMooringToggle a0 a1) a1) = keep a1 := by
  intro a0 a1
  unfold execMooringToggle
  simp only [↓keep_mk, ↓keep_fold, ↓id_eq, ↓after_next, ↓State_atTime_keep, ↓modTwin_keep, ↓emit_keep, ↓sendManifest_keep]
  (repeat' split) <;> simp only [↓keep_mk, ↓keep_fold, ↓id_eq, ↓after_next, ↓State_atTime_keep, ↓modTwin_keep, ↓emit_keep, ↓sendManifest_keep]

theorem takeoverEvent_keep : ∀ a0 a1 a2, keep (takeoverEvent a0 a1 a2) = keep a2 := by
  intro a0 a1 a2
  unfold takeoverEvent
  simp only [twinRaise_keep]

theorem execKillInRise_keep : ∀ a0 a1 a2, keep (after (execKillInRise a0 a1 a2) a2) = keep a2 := by
  intro a0 a1 a2
  unfold execKillInRise
  simp only [↓keep_mk, ↓keep_fold, ↓id_eq, ↓after_next, ↓State_atTime_keep, ↓modTwin_keep, ↓goCold_keep, ↓takeoverEvent_keep, ↓State_took_keep]
  (repeat' split) <;> simp only [↓keep_mk, ↓keep_fold, ↓id_eq, ↓after_next, ↓State_atTime_keep, ↓modTwin_keep, ↓goCold_keep, ↓takeoverEvent_keep, ↓State_took_keep]

theorem execKillInFall_keep : ∀ a0 a1, keep (after (execKillInFall a0 a1) a1) = keep a1 := by
  intro a0 a1
  unfold execKillInFall
  simp only [↓keep_mk, ↓keep_fold, ↓id_eq, ↓after_next, ↓State_atTime_keep, ↓modTwin_keep, ↓decideTakeover_keep]
  (repeat' split) <;> simp only [↓keep_mk, ↓keep_fold, ↓id_eq, ↓after_next, ↓State_atTime_keep, ↓modTwin_keep, ↓decideTakeover_keep]

theorem execTakeoverDecided_keep : ∀ a0 a1, keep (after (execTakeoverDecided a0 a1) a1) = keep a1 := by
  intro a0 a1
  unfold execTakeoverDecided
  simp only [↓keep_mk, ↓keep_fold, ↓id_eq, ↓after_next, ↓State_atTime_keep, ↓discardTxns_keep, ↓berthTake_keep]
  (repeat' split) <;> simp only [↓keep_mk, ↓keep_fold, ↓id_eq, ↓after_next, ↓State_atTime_keep, ↓discardTxns_keep, ↓berthTake_keep]

theorem execTakeoverActivate_keep : ∀ a0 a1, keep (after (execTakeoverActivate a0 a1) a1) = keep a1 := by
  intro a0 a1
  unfold execTakeoverActivate
  simp only [↓keep_mk, ↓keep_fold, ↓id_eq, ↓after_next, ↓State_atTime_keep, ↓becomeActive_keep, ↓pnAdvance_keep, ↓takeoverEvent_keep, ↓twinCount_keep]
  (repeat' split) <;> simp only [↓keep_mk, ↓keep_fold, ↓id_eq, ↓after_next, ↓State_atTime_keep, ↓becomeActive_keep, ↓pnAdvance_keep, ↓takeoverEvent_keep, ↓twinCount_keep]

theorem execSwitchFailed_keep : ∀ a0 a1, keep (after (execSwitchFailed a0 a1) a1) = keep a1 := by
  intro a0 a1
  unfold execSwitchFailed
  simp only [↓keep_mk, ↓keep_fold, ↓id_eq, ↓after_next, ↓State_atTime_keep, ↓modTwin_keep, ↓twinRaise_keep, ↓becomeActive_keep]
  (repeat' split) <;> simp only [↓keep_mk, ↓keep_fold, ↓id_eq, ↓after_next, ↓State_atTime_keep, ↓modTwin_keep, ↓twinRaise_keep, ↓becomeActive_keep]

theorem execBulkCopyDone_keep : ∀ a0 a1, keep (after (execBulkCopyDone a0 a1) a1) = keep a1 := by
  intro a0 a1
  unfold execBulkCopyDone
  simp only [↓keep_mk, ↓keep_fold, ↓id_eq, ↓after_next, ↓State_atTime_keep, ↓modTwin_keep]
  (repeat' split) <;> simp only [↓keep_mk, ↓keep_fold, ↓id_eq, ↓after_next, ↓State_atTime_keep, ↓modTwin_keep]

theorem execTwinWarm_keep : ∀ a0 a1, keep (after (execTwinWarm a0 a1) a1) = keep a1 := by
  intro a0 a1
  unfold execTwinWarm
  simp only [↓keep_mk, ↓keep_fold, ↓id_eq, ↓after_next, ↓State_atTime_keep, ↓twinRaise_keep, ↓setTwinFree_keep, ↓modTwin_keep]
  (repeat' split) <;> simp only [↓keep_mk, ↓keep_fold, ↓id_eq, ↓after_next, ↓State_atTime_keep, ↓twinRaise_keep, ↓setTwinFree_keep, ↓modTwin_keep]

theorem execAutoJoin_keep : ∀ a0 a1, keep (after (execAutoJoin a0 a1) a1) = keep a1 := by
  intro a0 a1
  unfold execAutoJoin
  simp only [↓keep_mk, ↓keep_fold, ↓id_eq, ↓after_next, ↓State_atTime_keep, ↓startJoin_keep, ↓joinFails_keep]
  (repeat' split) <;> simp only [↓keep_mk, ↓keep_fold, ↓id_eq, ↓after_next, ↓State_atTime_keep, ↓startJoin_keep, ↓joinFails_keep]

theorem execLastBreathReceived_keep : ∀ a0 a1, keep (after (execLastBreathReceived a0 a1) a1) = keep a1 := by
  intro a0 a1
  unfold execLastBreathReceived
  repeat' (first
    | with_reducible rfl
    | with_reducible assumption
    | simp only [↓keep_mk, ↓keep_fold, ↓id_eq, ↓after_next, ↓State_atTime_keep, ↓rxTake_keep, ↓twinFailed_keep, ↓twinRaise_keep]
    | simp only [*]
    | with_reducible refine keep_ite _ _ _ _ ?_ ?_
    | with_reducible refine keep_after_ite _ _ _ _ _ ?_ ?_
    | with_reducible refine keep_ite_snd _ _ _ _ ?_ ?_
    | with_reducible refine keep_ite_snd2 _ _ _ _ ?_ ?_
    | with_reducible refine (keep_foldl _ ?_ _ _).trans ?_
    | with_reducible refine (keep_foldl_snd _ ?_ _ _).trans ?_
    | (intros; simp only [*])
    | intro _
    | (split <;> try (rename_i h; first
        | (have k := (congrArg (fun p : _ × State => keep p.2) h).symm; simp only [↓keep_mk, ↓keep_fold, ↓id_eq, ↓after_next, ↓State_atTime_keep, ↓rxTake_keep, ↓twinFailed_keep, ↓twinRaise_keep] at k)
        | (have k := (congrArg (fun p : _ × _ × State => keep p.2.2) h).symm; simp only [↓keep_mk, ↓keep_fold, ↓id_eq, ↓after_next, ↓State_atTime_keep, ↓rxTake_keep, ↓twinFailed_keep, ↓twinRaise_keep] at k))))

theorem execMooringInputEdge_keep : ∀ a0 a1, keep (after (execMooringInputEdge a0 a1) a1) = keep a1 := by
  intro a0 a1
  unfold execMooringInputEdge
  simp only [↓keep_mk, ↓keep_fold, ↓id_eq, ↓after_next, ↓State_atTime_keep, ↓modTwin_keep]
  (repeat' split) <;> simp only [↓keep_mk, ↓keep_fold, ↓id_eq, ↓after_next, ↓State_atTime_keep, ↓modTwin_keep]

/-! ### Tide.lean -/

theorem clockLost_keep : ∀ a0 a1, keep (clockLost a0 a1) = keep a1 := by
  intro a0 a1
  unfold clockLost
  repeat' (first
    | with_reducible rfl
    | with_reducible assumption
    | simp only [↓keep_mk, ↓keep_fold, ↓id_eq, ↓after_next, ↓portConditions_keep, ↓fabricLane_keep, ↓hawserFails_keep, ↓errorAct_keep, ↓pcieLink_keep]
    | with_reducible refine keep_ite _ _ _ _ ?_ ?_
    | with_reducible refine keep_after_ite _ _ _ _ _ ?_ ?_
    | with_reducible refine (keep_foldl _ ?_ _ _).trans ?_
    | with_reducible refine (keep_foldl_snd _ ?_ _ _).trans ?_
    | (intros; simp only [*])
    | intro _
    | split)

theorem execRefclkLoss_keep : ∀ a0 a1 a2 a3, keep (after (execRefclkLoss a0 a1 a2 a3) a3) = keep a3 := by
  intro a0 a1 a2 a3
  unfold execRefclkLoss
  simp only [↓keep_mk, ↓keep_fold, ↓id_eq, ↓after_next, ↓State_atTime_keep, ↓clockLost_keep]
  (repeat' split) <;> simp only [↓keep_mk, ↓keep_fold, ↓id_eq, ↓after_next, ↓State_atTime_keep, ↓clockLost_keep]

theorem takeFec_keep : ∀ a0 a1 a2, keep (takeFec a0 a1 a2) = keep a2 := by
  intro a0 a1 a2
  unfold takeFec
  repeat' (first
    | with_reducible rfl
    | with_reducible assumption
    | simp only [↓keep_mk, ↓keep_fold, ↓id_eq, ↓after_next, ↓fabLaneCount_keep, ↓macAdd_keep, ↓modPort_keep]
    | with_reducible refine keep_ite _ _ _ _ ?_ ?_
    | with_reducible refine keep_after_ite _ _ _ _ _ ?_ ?_
    | with_reducible refine (keep_foldl _ ?_ _ _).trans ?_
    | with_reducible refine (keep_foldl_snd _ ?_ _ _).trans ?_
    | (intros; simp only [*])
    | intro _
    | split)

theorem takeBank_keep : ∀ a0 a1, keep (takeBank a0 a1) = keep a1 := by
  intro a0 a1
  unfold takeBank
  simp only [↓keep_mk, ↓keep_fold, ↓id_eq, ↓after_next, ↓modBank_keep, ↓bankAdd_keep]
  (repeat' split) <;> simp only [↓keep_mk, ↓keep_fold, ↓id_eq, ↓after_next, ↓modBank_keep, ↓bankAdd_keep]

theorem takeMeasured_keep : ∀ a0 a1, keep (takeMeasured a0 a1) = keep a1 := by
  intro a0 a1
  unfold takeMeasured
  repeat' (first
    | with_reducible rfl
    | with_reducible assumption
    | simp only [↓keep_mk, ↓keep_fold, ↓id_eq, ↓after_next, ↓modMon_keep, ↓defectsChangedAll_keep, ↓takeLabel_keep, ↓takeFec_keep, ↓clampCount_keep, ↓playStep_keep, ↓takeBank_keep]
    | with_reducible refine keep_ite _ _ _ _ ?_ ?_
    | with_reducible refine keep_after_ite _ _ _ _ _ ?_ ?_
    | with_reducible refine (keep_foldl _ ?_ _ _).trans ?_
    | with_reducible refine (keep_foldl_snd _ ?_ _ _).trans ?_
    | (intros; simp only [*])
    | intro _
    | split)

theorem degJudge_keep : ∀ a0 a1 a2, keep (degJudge a0 a1 a2) = keep a2 := by
  intro a0 a1 a2
  unfold degJudge
  simp only [↓keep_mk, ↓keep_fold, ↓id_eq, ↓after_next, ↓modMon_keep, ↓putDefect_keep]
  (repeat' split) <;> simp only [↓keep_mk, ↓keep_fold, ↓id_eq, ↓after_next, ↓modMon_keep, ↓putDefect_keep]

theorem sdhJudge_keep : ∀ a0 a1 a2, keep (sdhJudge a0 a1 a2) = keep a2 := by
  intro a0 a1 a2
  unfold sdhJudge
  (repeat' split) <;> simp only [↓keep_mk, ↓keep_fold, ↓id_eq, ↓after_next, ↓putDefect_keep]

theorem pmLatchObj_keep : ∀ a0 a1 a2, keep (pmLatchObj a0 a1 a2) = keep a2 := by
  intro a0 a1 a2
  unfold pmLatchObj
  simp only [↓keep_mk, ↓keep_fold, ↓id_eq, ↓after_next, ↓modMon_keep, ↓degJudge_keep, ↓sdhJudge_keep]
  (repeat' split) <;> simp only [↓keep_mk, ↓keep_fold, ↓id_eq, ↓after_next, ↓modMon_keep, ↓degJudge_keep, ↓sdhJudge_keep]

theorem fecDegrade_keep : ∀ a0 a1, keep (fecDegrade a0 a1) = keep a1 := by
  intro a0 a1
  unfold fecDegrade
  simp only [↓keep_mk, ↓keep_fold, ↓id_eq, ↓after_next, ↓modPort_keep, ↓raise_keep, ↓degradeClear_keep]
  (repeat' split) <;> simp only [↓keep_mk, ↓keep_fold, ↓id_eq, ↓after_next, ↓modPort_keep, ↓raise_keep, ↓degradeClear_keep]

theorem pmLatch_keep : ∀ a0 a1, keep (pmLatch a0 a1) = keep a1 := by
  intro a0 a1
  unfold pmLatch
  repeat' (first
    | with_reducible rfl
    | with_reducible assumption
    | simp only [↓keep_mk, ↓keep_fold, ↓id_eq, ↓after_next, ↓pmLatchObj_keep, ↓linkChanged_keep, ↓defectsChangedAll_keep, ↓fecDegrade_keep]
    | with_reducible refine keep_ite _ _ _ _ ?_ ?_
    | with_reducible refine keep_after_ite _ _ _ _ _ ?_ ?_
    | with_reducible refine (keep_foldl _ ?_ _ _).trans ?_
    | with_reducible refine (keep_foldl_snd _ ?_ _ _).trans ?_
    | (intros; simp only [*])
    | intro _
    | split)

theorem latches_keep : ∀ a0 a1 a2 a3, keep (latches a0 a1 a2 a3) = keep a3 := by
  intro a0 a1 a2 a3
  unfold latches
  simp only [↓keep_mk, ↓keep_fold, ↓id_eq, ↓after_next, ↓pmLatch_keep, ↓dumpBoundary_keep, ↓bwBoundary_keep, ↓tideStates_keep, ↓schedCount_keep, ↓twinBoundary_keep]
  (repeat' split) <;> simp only [↓keep_mk, ↓keep_fold, ↓id_eq, ↓after_next, ↓pmLatch_keep, ↓dumpBoundary_keep, ↓bwBoundary_keep, ↓tideStates_keep, ↓schedCount_keep, ↓twinBoundary_keep]

theorem tolBoundary_keep : ∀ a0, keep (tolBoundary a0) = keep a0 := by
  intro a0
  unfold tolBoundary
  rfl

theorem services_keep : ∀ a0 a1, keep (services a0 a1) = keep a1 := by
  intro a0 a1
  unfold services
  simp only [bankBoundary_keep, sageBoundary_keep, soundingReturn_keep, soundingFit_keep, portPowerBoundary_keep, concentrationBoundary_keep, tolBoundary_keep, avsBoundary_keep, retrainStarts_keep, governorFloors_keep]

theorem portBoundary_keep : ∀ a0 a1, keep (portBoundary a0 a1) = keep a1 := by
  intro a0 a1
  unfold portBoundary
  simp only [↓keep_mk, ↓keep_fold, ↓id_eq, ↓after_next, ↓applyPortCfg_keep, ↓enterService_keep, ↓modPort_keep]
  (repeat' split) <;> simp only [↓keep_mk, ↓keep_fold, ↓id_eq, ↓after_next, ↓applyPortCfg_keep, ↓enterService_keep, ↓modPort_keep]

theorem tportBoundary_keep : ∀ a0 a1, keep (tportBoundary a0 a1) = keep a1 := by
  intro a0 a1
  unfold tportBoundary
  (repeat' split) <;> simp only [↓keep_mk, ↓keep_fold, ↓id_eq, ↓after_next, ↓tportService_keep]

theorem circuitTide_keep : ∀ a0 a1 a2, keep (circuitTide a0 a1 a2) = keep a2 := by
  intro a0 a1 a2
  unfold circuitTide
  simp only [↓keep_mk, ↓keep_fold, ↓id_eq, ↓after_next, ↓modCircuit_keep, ↓circuitStart_keep, ↓circuitStop_keep, ↓circuitBoundary_keep]
  (repeat' split) <;> simp only [↓keep_mk, ↓keep_fold, ↓id_eq, ↓after_next, ↓modCircuit_keep, ↓circuitStart_keep, ↓circuitStop_keep, ↓circuitBoundary_keep]

theorem settings_keep : ∀ a0 a1, keep (settings a0 a1) = keep a1 := by
  intro a0 a1
  unfold settings
  repeat' (first
    | with_reducible rfl
    | with_reducible assumption
    | simp only [↓keep_mk, ↓keep_fold, ↓id_eq, ↓after_next, ↓schedBoundary_keep, ↓detBoundary_keep, ↓partBoundary_keep, ↓commitBoundary_keep, ↓portBoundary_keep, ↓tportBoundary_keep, ↓modFwd_keep, ↓circuitTide_keep, ↓linkChanged_keep]
    | with_reducible refine keep_ite _ _ _ _ ?_ ?_
    | with_reducible refine keep_after_ite _ _ _ _ _ ?_ ?_
    | with_reducible refine (keep_foldl _ ?_ _ _).trans ?_
    | with_reducible refine (keep_foldl_snd _ ?_ _ _).trans ?_
    | (intros; simp only [*])
    | intro _
    | split)

theorem boundary_keep : ∀ a0 a1, keep (boundary a0 a1) = keep a1 := by
  intro a0 a1
  unfold boundary
  simp only [↓keep_mk, ↓keep_fold, ↓id_eq, ↓after_next, ↓refreshAll_keep, ↓cutTide_keep, ↓takeMeasured_keep, ↓refSettleAll_keep, ↓stepTide_keep, ↓latches_keep, ↓gatesRestart_keep, ↓emit_keep, ↓bwOpened_keep, ↓services_keep, ↓settings_keep]
  (repeat' split) <;> simp only [↓keep_mk, ↓keep_fold, ↓id_eq, ↓after_next, ↓refreshAll_keep, ↓cutTide_keep, ↓takeMeasured_keep, ↓refSettleAll_keep, ↓stepTide_keep, ↓latches_keep, ↓gatesRestart_keep, ↓emit_keep, ↓bwOpened_keep, ↓services_keep, ↓settings_keep]

theorem execTideBoundary_keep : ∀ a0 a1 a2, keep (after (execTideBoundary a0 a1 a2) a2) = keep a2 := by
  intro a0 a1 a2
  unfold execTideBoundary
  (repeat' split) <;> simp only [↓keep_mk, ↓keep_fold, ↓id_eq, ↓after_next, ↓State_atTime_keep, ↓boundary_keep]

theorem execTimeStepApply_keep : ∀ a0 a1 a2, keep (after (execTimeStepApply a0 a1 a2) a2) = keep a2 := by
  intro a0 a1 a2
  unfold execTimeStepApply
  (repeat' split) <;> simp only [↓keep_mk, ↓keep_fold, ↓id_eq, ↓after_next, ↓State_atTime_keep, ↓boundary_keep]

theorem slewTo_keep : ∀ a0 a1, keep (slewTo a0 a1) = keep a1 := by
  intro a0 a1
  unfold slewTo
  rfl

theorem stepOnto_keep : ∀ a0 a1 a2 a3 a4 a5, keep (stepOnto a0 a1 a2 a3 a4 a5) = keep a5 := by
  intro b n t' st now s
  unfold stepOnto
  have k : ∀ v, keep v = keep s → keep (if v.id.fwState = 3 then v else emit (.tideOut (tideOutFrame v)) v) = keep s :=
    fun v h => keep_ite _ _ _ _ h ((emit_keep _ _).trans h)
  refine k _ ?_
  rw [setTimeState_keep, refreshAll_keep, gatesRestart_keep]
  exact (basisChange_keep _ _ _ _).trans rfl

theorem followStep_keep : ∀ a0 a1 a2 a3, keep (followStep a0 a1 a2 a3) = keep a3 := by
  intro a0 a1 a2 a3
  unfold followStep
  simp only [↓keep_mk, ↓keep_fold, ↓id_eq, ↓after_next, ↓latches_keep, ↓stepOnto_keep, ↓pmLatch_keep]
  (repeat' split) <;> simp only [↓keep_mk, ↓keep_fold, ↓id_eq, ↓after_next, ↓latches_keep, ↓stepOnto_keep, ↓pmLatch_keep]

theorem realigned_keep (st : Nat) (v : State) (d : Int) : keep (raise 0x0D 6 tbUnit (pay [(unsigned 32 d, 4)])
    (setTimeState st { v with tm := { v.tm with tideInLost := false, alignFault := false } })) = keep v := by
  rw [raise_keep, setTimeState_keep]; rfl

theorem tideRealign_keep : ∀ a0 a1 a2 a3 a4, keep (tideRealign a0 a1 a2 a3 a4) = keep a4 := by
  intro a b c d s
  unfold tideRealign
  generalize (1000000 : Nat) = x
  refine keep_ite _ _ _ _ ?_ (keep_ite _ _ _ _ ?_ (keep_ite _ _ _ _ rfl ?_))
  · exact (realigned_keep c _ d).trans (slewTo_keep (-(d * 65536 / 1000)) s)
  · exact (realigned_keep c _ d).trans (followStep_keep a b c s)
  · rw [raise_keep]; rfl

theorem execTideInFrame_keep : ∀ a0 a1 a2 a3 a4 a5 a6 a7, keep (after (execTideInFrame a0 a1 a2 a3 a4 a5 a6 a7) a7) = keep a7 := by
  intro a0 a1 a2 a3 a4 a5 a6 a7
  unfold execTideInFrame
  repeat' (first
    | with_reducible rfl
    | with_reducible assumption
    | simp only [↓keep_mk, ↓keep_fold, ↓id_eq, ↓after_next, ↓State_atTime_keep, ↓timeCount_keep, ↓tideRealign_keep, ↓followStep_keep, ↓setTimeState_keep, ↓slewTo_keep]
    | with_reducible refine keep_ite _ _ _ _ ?_ ?_
    | with_reducible refine keep_after_ite _ _ _ _ _ ?_ ?_
    | with_reducible refine (keep_foldl _ ?_ _ _).trans ?_
    | with_reducible refine (keep_foldl_snd _ ?_ _ _).trans ?_
    | (intros; simp only [*])
    | intro _
    | split)

theorem steer_keep : ∀ a0 a1, keep (steer a0 a1) = keep a1 := by
  intro a0 a1
  unfold steer
  (repeat' split) <;> simp only [↓keep_mk, ↓keep_fold, ↓id_eq, ↓after_next, ↓slewTo_keep, ↓followStep_keep]

theorem execTimeExchange_keep : ∀ a0 a1, keep (after (execTimeExchange a0 a1) a1) = keep a1 := by
  intro a0 a1
  unfold execTimeExchange
  repeat' (first
    | with_reducible rfl
    | with_reducible assumption
    | simp only [↓keep_mk, ↓keep_fold, ↓id_eq, ↓after_next, ↓State_atTime_keep, ↓rxTake_keep, ↓emit_keep, ↓setTimeState_keep, ↓steer_keep, ↓modTwin_keep]
    | simp only [*]
    | with_reducible refine keep_ite _ _ _ _ ?_ ?_
    | with_reducible refine keep_after_ite _ _ _ _ _ ?_ ?_
    | with_reducible refine keep_ite_snd _ _ _ _ ?_ ?_
    | with_reducible refine keep_ite_snd2 _ _ _ _ ?_ ?_
    | with_reducible refine (keep_foldl _ ?_ _ _).trans ?_
    | with_reducible refine (keep_foldl_snd _ ?_ _ _).trans ?_
    | (intros; simp only [*])
    | intro _
    | (split <;> try (rename_i h; first
        | (have k := (congrArg (fun p : _ × State => keep p.2) h).symm; simp only [↓keep_mk, ↓keep_fold, ↓id_eq, ↓after_next, ↓State_atTime_keep, ↓rxTake_keep, ↓emit_keep, ↓setTimeState_keep, ↓steer_keep, ↓modTwin_keep] at k)
        | (have k := (congrArg (fun p : _ × _ × State => keep p.2.2) h).symm; simp only [↓keep_mk, ↓keep_fold, ↓id_eq, ↓after_next, ↓State_atTime_keep, ↓rxTake_keep, ↓emit_keep, ↓setTimeState_keep, ↓steer_keep, ↓modTwin_keep] at k))))

end Sys2Proof.Machine
end

