-- ==== Sys2Proof/Laws/KeepLifecycle.lean ====
section
/-! SUPPORT. What LIFECYCLE.SET and the events that end SURVEY do to the lifecycle state (R499, R500, R501). -/

namespace Sys2Proof.Machine

set_option linter.unusedSimpArgs false

open Sys2Proof

/-- A move from one lifecycle state to another, or none, that keeps the queue of waiting commands. -/
def movesAs (m : Nat → Nat → Prop) (s t : State) : Prop :=
  (t.id.lifecycle = s.id.lifecycle ∨ m s.id.lifecycle t.id.lifecycle) ∧ t.pending = s.pending

theorem movesAs_of_keep {m : Nat → Nat → Prop} {s t : State} (h : keep t = keep s) : movesAs m s t := by
  simp only [keep, Prod.mk.injEq] at h
  exact ⟨.inl h.1, h.2⟩

theorem movesAs_congr {m : Nat → Nat → Prop} {s s' t t' : State} (hs : keep s' = keep s) (ht : keep t' = keep t) (h : movesAs m s' t') :
    movesAs m s t := by
  simp only [keep, Prod.mk.injEq] at hs ht
  simpa [movesAs, hs, ht] using h

/-- A command that runs no admission and whose own effect makes a move leaves what its own effect leaves. -/
theorem runCommand_moves (m : Nat → Nat → Prop) (k : Cmd) (ha : k.adm = false) (hk : ∀ c q s, movesAs m s (k.act c q s).st)
    (c : Call) (q : List Word) (s : State) : movesAs m s (runCommand k c q s) := by
  have hd : ∀ s, movesAs m s (directRun k c q s).st := by
    intro s
    unfold directRun
    simp only [ha, Bool.false_eq_true, if_false]
    split
    · split
      · exact hk _ _ _
      · refine movesAs_congr rfl ?_ (hk ⟨.direct, c.mb, 0, 0, false⟩ q s)
        dsimp only
        split <;> simp only [toTwin_keep, markDirect_keep]
    · exact hk _ _ _
  have ht : ∀ s, movesAs m s (stageRun k c q s).st := by
    intro s
    apply movesAs_of_keep
    unfold stageRun
    split
    · rfl
    · simp only []
      split
      · rfl
      · split
        · simp only [toTwin_keep, putTxn_keep, reserve_keep]
        · rfl
  have ho : ∀ s, movesAs m s (runOwned k c q s) := by
    intro s
    unfold runOwned
    split
    · exact movesAs_of_keep rfl
    · refine movesAs_congr (s' := s) rfl (t' := (runOp k c q s).st) ?_ ?_
      · simp only [complete_keep, zeroRequest_keep]
      · unfold runOp
        split
        · exact movesAs_congr (wakeNamed_keep _ _ _) rfl (hd _)
        · exact ht _
  refine movesAs_congr (State_atTime_keep s c.t) rfl ?_
  unfold runCommand
  simp only []
  split
  · exact movesAs_of_keep rfl
  · split
    · split
      · exact ho _
      · exact movesAs_of_keep rfl
    · split
      · exact movesAs_of_keep rfl
      · split
        · exact movesAs_of_keep (by simp only [complete_keep, indirectError_keep, takeMb_keep])
        · refine movesAs_congr ?_ rfl (ho _)
          simp only [indirectError_keep, takeMb_keep]

/-- LIFECYCLE.SET moves the lifecycle state only as its table allows (R500). -/
theorem actLifecycleSet_moves (c : Ctx) (q : List Word) (s : State) :
    movesAs (fun a b => (lifeMove a b).isSome = true) s (actLifecycleSet c q s).st := by
  unfold actLifecycleSet
  simp only []
  split
  · exact movesAs_of_keep rfl
  · rename_i auth hm
    split
    · exact movesAs_of_keep rfl
    · refine movesAs_congr (s' := s) rfl (t' := { s with id := { s.id with lifecycle := fld q 0 2 0 } }) ?_ ⟨.inr ?_, rfl⟩
      · unfold done
        dsimp only
        rw [raise_keep]
        have hz : ∀ u : State, (zeroise 1 u).pending = u.pending := fun u => congrArg Prod.snd (zeroise_keep 1 u)
        refine Prod.ext rfl ?_
        simp only [keep]
        repeat' split
        all_goals first | rfl | exact (hz _).symm | exact hz _
      · exact (congrArg Option.isSome hm).trans rfl

/-- The end of SURVEY by itself (R499, R501): SURVEY goes to COMMISSIONED. -/
theorem surveyEnd_moves (s : State) : movesAs (fun a b => a = 2 ∧ b = 1) s (surveyEnd s) := by
  unfold surveyEnd
  split
  · rename_i h
    refine movesAs_congr (s' := s) rfl (t' := { s with id := { s.id with lifecycle := 1 } }) (raise_keep _ _ _ _ _).symm ?_
    exact ⟨.inr ⟨h, rfl⟩, rfl⟩
  · exact movesAs_of_keep rfl

theorem packageReset_moves (devid : Nat) (twinEn : Bool) (verified : List Bool) (s : State) :
    movesAs (fun a b => a = 2 ∧ b = 1) s (packageReset devid twinEn verified s) := by
  unfold packageReset
  refine movesAs_congr (s' := { porst s with id := { (porst s).id with devid := devid, twinEn := twinEn }, boot := { (porst s).boot with held := false } }) ?_
    (bootStart_keep _ _).symm (surveyEnd_moves _)
  exact porst_keep s

theorem execPackageReset_moves (t : Nat) (verified : List Bool) (s : State) :
    movesAs (fun a b => a = 2 ∧ b = 1) s (after (execPackageReset t verified s) s) := by
  refine movesAs_congr (State_atTime_keep s t) rfl ?_
  unfold execPackageReset
  simp only []
  split
  · exact movesAs_of_keep rfl
  · exact packageReset_moves _ _ _ _

theorem execPorstNRelease_moves (t devid : Nat) (twinEn : Bool) (verified : List Bool) (s : State) :
    movesAs (fun a b => a = 2 ∧ b = 1) s (after (execPorstNRelease t devid twinEn verified s) s) := by
  refine movesAs_congr (State_atTime_keep s t) rfl ?_
  unfold execPorstNRelease
  simp only [after_next]
  split
  · exact packageReset_moves _ _ _ _
  · exact movesAs_of_keep rfl

theorem execScanFullRunDone_moves (t bits : Nat) (first : Option (Nat × Nat)) (sig : Nat) (verified : List Bool) (s : State) :
    movesAs (fun a b => a = 2 ∧ b = 1) s (after (execScanFullRunDone t bits first sig verified s) s) := by
  refine movesAs_congr (State_atTime_keep s t) rfl ?_
  unfold execScanFullRunDone
  simp only []
  split
  · exact movesAs_of_keep rfl
  · exact movesAs_congr (s' := { (s.atTime t) with aon := { (s.atTime t).aon with scan := some (bits, first, sig) } }) rfl rfl (packageReset_moves _ _ _ _)

theorem execAonPowerCycle_moves (t : Nat) (s : State) :
    movesAs (fun a b => a = 2 ∧ b = 1) s (after (execAonPowerCycle t s) s) := by
  refine movesAs_congr (State_atTime_keep s t) rfl ?_
  have h := porst_keep (s.atTime t)
  simp only [keep, Prod.mk.injEq] at h
  unfold execAonPowerCycle
  simp only [after_next, movesAs]
  rw [h.1]
  refine ⟨?_, h.2⟩
  split
  · exact .inr ⟨‹_›, rfl⟩
  · exact .inl rfl

theorem execSurveyValidityEnd_moves (t : Nat) (s : State) :
    movesAs (fun a b => a = 2 ∧ b = 1) s (after (execSurveyValidityEnd t s) s) := by
  refine movesAs_congr (State_atTime_keep s t) rfl ?_
  unfold execSurveyValidityEnd
  simp only [after_next]
  split
  · exact surveyEnd_moves _
  · exact movesAs_of_keep rfl

end Sys2Proof.Machine
end

