-- ==== Sys2Proof/Laws/Memory.lean ====
section
/-! SUPPORT. Tables and memories: a read after a write, and the canonical form that every write keeps. -/

namespace Sys2Proof.Machine

open Sys2Proof

/-! ### Tables -/

theorem tget_tset_self {α : Type} (t : Tab α) (k : Nat) (v : α) : tget (tset t k v) k = some v := by
  induction t with
  | nil => simp [tset, tget]
  | cons e r ih =>
    unfold tset
    split
    · simp [tget]
    · split
      · simp [tget]
      · unfold tget
        rw [if_neg ‹_›]
        exact ih

theorem tget_tset_ne {α : Type} (t : Tab α) (k j : Nat) (v : α) (h : j ≠ k) : tget (tset t k v) j = tget t j := by
  induction t with
  | nil => simp [tset, tget, h.symm]
  | cons e r ih =>
    unfold tset
    split
    · simp [tget, h.symm]
    · split
      · subst_vars; simp [tget, h.symm]
      · unfold tget; rw [ih]

theorem tget_terase_self {α : Type} (t : Tab α) (k : Nat) : tget (terase t k) k = none := by
  induction t with
  | nil => rfl
  | cons e r ih =>
    by_cases h : e.1 = k
    · simpa [terase, h] using ih
    · rw [show terase (e :: r) k = e :: terase r k by simp [terase, h]]
      unfold tget
      rw [if_neg h]
      exact ih

theorem tget_terase_ne {α : Type} (t : Tab α) (k j : Nat) (h : j ≠ k) : tget (terase t k) j = tget t j := by
  induction t with
  | nil => rfl
  | cons e r ih =>
    by_cases he : e.1 = k
    · rw [show terase (e :: r) k = terase r k by simp [terase, he], ih]
      conv => rhs; unfold tget
      rw [if_neg (by omega)]
    · rw [show terase (e :: r) k = e :: terase r k by simp [terase, he]]
      unfold tget
      rw [ih]

/-! ### Bytes -/

theorem mread_mwrite_self (m : Memory) (a : Nat) (b : Byte) : mread (mwrite m a b) a = b := by
  unfold mread mwrite mset tgetD
  split
  · rw [tget_terase_self]; simp [*]
  · rw [tget_tset_self]; rfl

theorem mread_mwrite_ne (m : Memory) (a x : Nat) (b : Byte) (h : x ≠ a) : mread (mwrite m a b) x = mread m x := by
  unfold mread mwrite mset tgetD
  split
  · rw [tget_terase_ne _ _ _ h]
  · rw [tget_tset_ne _ _ _ _ h]

theorem mread_mwriteBytes_out (bs : List Byte) (m : Memory) (a x : Nat) (h : x < a ∨ a + bs.length ≤ x) :
    mread (mwriteBytes m a bs) x = mread m x := by
  induction bs generalizing m a with
  | nil => rfl
  | cons b bs ih =>
    simp only [List.length_cons] at h
    unfold mwriteBytes
    rw [ih _ _ (by omega), mread_mwrite_ne _ _ _ _ (by omega)]

theorem mread_mwriteBytes_in (bs : List Byte) (m : Memory) (a i : Nat) (h : i < bs.length) :
    mread (mwriteBytes m a bs) (a + i) = bs[i] := by
  induction bs generalizing m a i with
  | nil => simp at h
  | cons b bs ih =>
    unfold mwriteBytes
    cases i with
    | zero => rw [mread_mwriteBytes_out _ _ _ _ (by omega)]; exact mread_mwrite_self _ _ _
    | succ i => rw [show a + (i + 1) = (a + 1) + i by omega, ih _ _ _ (by simpa using h)]; rfl

/-! ### Words -/

theorem leBytes_length (n k : Nat) : (leBytes n k).length = k := by
  induction k generalizing n with
  | zero => rfl
  | succ k ih => simp [leBytes, ih]

theorem leNat_leBytes (n k : Nat) : leNat (leBytes n k) = n % 256 ^ k := by
  induction k generalizing n with
  | zero => simp [leBytes, leNat]; omega
  | succ k ih =>
    simp only [leBytes, leNat, ih, BitVec.toNat_ofNat]
    rw [show n % 256 ^ (k + 1) = n % (256 * 256 ^ k) by rw [Nat.pow_succ, Nat.mul_comm], Nat.mod_mul]

theorem wordBytes_length (ws : List Word) : (wordBytes ws).length = 4 * ws.length := by
  induction ws with
  | nil => rfl
  | cons w ws ih =>
    rw [show wordBytes (w :: ws) = leBytes w.toNat 4 ++ wordBytes ws from rfl]
    simp [leBytes_length, ih]; omega

theorem mread_mwriteWords_out (ws : List Word) (m : Memory) (a x : Nat) (h : x < a ∨ a + 4 * ws.length ≤ x) :
    mread (mwriteWords m a ws) x = mread m x := mread_mwriteBytes_out _ _ _ _ (by rw [wordBytes_length]; exact h)

theorem mwriteBytes_append (bs cs : List Byte) (m : Memory) (a : Nat) :
    mwriteBytes m a (bs ++ cs) = mwriteBytes (mwriteBytes m a bs) (a + bs.length) cs := by
  induction bs generalizing m a with
  | nil => rfl
  | cons b bs ih =>
    simp only [List.cons_append, mwriteBytes, List.length_cons, ih]
    rw [show a + 1 + bs.length = a + (bs.length + 1) by omega]

theorem mreadWord_congr {m n : Memory} {a : Nat} (h : ∀ x, a ≤ x → x < a + 4 → mread m x = mread n x) : mreadWord m a = mreadWord n a := by
  unfold mreadWord mreadBytes
  congr 2
  apply List.map_congr_left
  intro x hx
  rw [List.mem_range'_1] at hx
  exact h x hx.1 hx.2

theorem mreadWord_mwriteWords_out (ws : List Word) (m : Memory) (a x : Nat) (h : x + 4 ≤ a ∨ a + 4 * ws.length ≤ x) :
    mreadWord (mwriteWords m a ws) x = mreadWord m x :=
  mreadWord_congr fun y h1 h2 => mread_mwriteWords_out _ _ _ _ (by omega)

theorem mreadWord_mwriteWord_self (m : Memory) (a : Nat) (w : Word) : mreadWord (mwriteWord m a w) a = w := by
  have hb : mreadBytes (mwriteWord m a w) a 4 = leBytes w.toNat 4 := by
    apply List.ext_getElem
    · simp [mreadBytes, leBytes_length]
    · intro i h1 h2
      rw [leBytes_length] at h2
      simp only [mreadBytes, List.getElem_map, List.getElem_range', mwriteWord, Nat.one_mul]
      exact mread_mwriteBytes_in _ _ _ _ (by rw [leBytes_length]; exact h2)
  unfold mreadWord
  rw [hb, leNat_leBytes]
  apply BitVec.eq_of_toNat_eq
  have := w.isLt
  simp only [toWord, BitVec.toNat_ofNat]
  omega

theorem mreadWord_mwriteWords_in (ws : List Word) (m : Memory) (a i : Nat) (h : i < ws.length) :
    mreadWord (mwriteWords m a ws) (a + 4 * i) = ws[i] := by
  induction ws generalizing m a i with
  | nil => simp at h
  | cons w ws ih =>
    have hw : mwriteWords m a (w :: ws) = mwriteWords (mwriteWord m a w) (a + 4) ws := by
      unfold mwriteWords mwriteWord
      rw [show wordBytes (w :: ws) = leBytes w.toNat 4 ++ wordBytes ws from rfl, mwriteBytes_append, leBytes_length]
    rw [hw]
    cases i with
    | zero =>
      rw [show a + 4 * 0 = a by omega, mreadWord_mwriteWords_out _ _ _ _ (by omega)]
      exact mreadWord_mwriteWord_self _ _ _
    | succ i => rw [show a + 4 * (i + 1) = (a + 4) + 4 * i by omega, ih _ _ _ (by simpa using h)]; rfl

/-! ### The canonical form -/

theorem risesFrom_mono {α : Type} {t : Tab α} {lo hi : Nat} (h : lo ≤ hi) (x : risesFrom hi t = true) : risesFrom lo t = true := by
  cases t with
  | nil => rfl
  | cons e r =>
    simp only [risesFrom, Bool.and_eq_true, decide_eq_true_eq] at x ⊢
    exact ⟨by omega, x.2⟩

theorem risesFrom_tset {α : Type} {t : Tab α} {lo k : Nat} (v : α) (hk : lo ≤ k) (h : risesFrom lo t = true) :
    risesFrom lo (tset t k v) = true := by
  induction t generalizing lo with
  | nil => simp [tset, risesFrom, hk]
  | cons e r ih =>
    simp only [risesFrom, Bool.and_eq_true, decide_eq_true_eq] at h
    unfold tset
    split
    · simp only [risesFrom, Bool.and_eq_true, decide_eq_true_eq]
      exact ⟨hk, by omega, h.2⟩
    · split
      · subst_vars
        simp only [risesFrom, Bool.and_eq_true, decide_eq_true_eq]
        exact h
      · simp only [risesFrom, Bool.and_eq_true, decide_eq_true_eq]
        exact ⟨h.1, ih (by omega) h.2⟩

theorem risesFrom_terase {α : Type} {t : Tab α} {lo : Nat} (k : Nat) (h : risesFrom lo t = true) : risesFrom lo (terase t k) = true := by
  induction t generalizing lo with
  | nil => rfl
  | cons e r ih =>
    simp only [risesFrom, Bool.and_eq_true, decide_eq_true_eq] at h
    by_cases he : e.1 = k
    · rw [show terase (e :: r) k = terase r k by simp [terase, he]]
      exact risesFrom_mono (by omega) (ih h.2)
    · rw [show terase (e :: r) k = e :: terase r k by simp [terase, he]]
      simp only [risesFrom, Bool.and_eq_true, decide_eq_true_eq]
      exact ⟨h.1, ih h.2⟩

theorem all_tset {α : Type} (p : Nat × α → Bool) (t : Tab α) (k : Nat) (v : α) (hv : p (k, v) = true) (h : t.all p = true) :
    (tset t k v).all p = true := by
  induction t with
  | nil => simp [tset, hv]
  | cons e r ih =>
    simp only [List.all_cons, Bool.and_eq_true] at h
    unfold tset
    split
    · simp only [List.all_cons, Bool.and_eq_true]; exact ⟨hv, h.1, h.2⟩
    · split
      · simp only [List.all_cons, Bool.and_eq_true]; exact ⟨hv, h.2⟩
      · simp only [List.all_cons, Bool.and_eq_true]; exact ⟨h.1, ih h.2⟩

/-- Writing a byte keeps the canonical form. -/
theorem mwrite_wf (m : Memory) (a : Nat) (b : Byte) (h : m.wf = true) : (mwrite m a b).wf = true := by
  simp only [Memory.wf, Bool.and_eq_true] at h ⊢
  unfold mwrite mset
  split
  · refine ⟨risesFrom_terase _ h.1, ?_⟩
    simp only [terase, List.all_filter]
    rw [List.all_eq_true] at h ⊢
    intro x hx
    simp [h.2 x hx]
  · exact ⟨risesFrom_tset _ (Nat.zero_le _) h.1, all_tset _ _ _ _ (by simp [*]) h.2⟩

/-- Writing bytes keeps the canonical form. -/
theorem mwriteBytes_wf (bs : List Byte) (m : Memory) (a : Nat) (h : m.wf = true) : (mwriteBytes m a bs).wf = true := by
  induction bs generalizing m a with
  | nil => exact h
  | cons b bs ih => exact ih _ _ (mwrite_wf _ _ _ h)

/-- Writing a word keeps the canonical form. -/
theorem mwriteWord_wf (m : Memory) (a : Nat) (w : Word) (h : m.wf = true) : (mwriteWord m a w).wf = true := mwriteBytes_wf _ _ _ h

/-- Writing words keeps the canonical form. -/
theorem mwriteWords_wf (m : Memory) (a : Nat) (ws : List Word) (h : m.wf = true) : (mwriteWords m a ws).wf = true := mwriteBytes_wf _ _ _ h

end Sys2Proof.Machine
end

