-- ==== Sys2Proof/Laws/State.lean ====
section
/-! SUPPORT. The small lemmas of State: what each named update does to each field, true by rfl. For an update of one field, x_<field>
says what the field becomes and x_frame that every other field keeps its value; simp uses both, so that no proof unfolds a record update. -/

namespace Sys2Proof.Machine

open Sys2Proof

@[simp] theorem modTd_td (f : TdSt → TdSt) (s : State) : (modTd f s).td = f s.td := rfl
@[simp] theorem modTd_frame (f : TdSt → TdSt) (s : State) :
    (modTd f s).id = s.id ∧ (modTd f s).tm = s.tm ∧ (modTd f s).line = s.line ∧ (modTd f s).tr = s.tr
      ∧ (modTd f s).circuits = s.circuits ∧ (modTd f s).fwd = s.fwd ∧ (modTd f s).tab = s.tab ∧ (modTd f s).learn = s.learn
      ∧ (modTd f s).det = s.det ∧ (modTd f s).fab = s.fab ∧ (modTd f s).twin = s.twin ∧ (modTd f s).flt = s.flt
      ∧ (modTd f s).aon = s.aon ∧ (modTd f s).flash = s.flash ∧ (modTd f s).boot = s.boot ∧ (modTd f s).hbm = s.hbm
      ∧ (modTd f s).pow = s.pow ∧ (modTd f s).test = s.test ∧ (modTd f s).tel = s.tel ∧ (modTd f s).board = s.board
      ∧ (modTd f s).host = s.host ∧ (modTd f s).ecs = s.ecs ∧ (modTd f s).ctr = s.ctr ∧ (modTd f s).snap = s.snap
      ∧ (modTd f s).wire = s.wire ∧ (modTd f s).fresh = s.fresh ∧ (modTd f s).pending = s.pending := by
  and_intros <;> rfl

@[simp] theorem modFab_fab (f : FabSt → FabSt) (s : State) : (modFab f s).fab = f s.fab := rfl
@[simp] theorem modFab_frame (f : FabSt → FabSt) (s : State) :
    (modFab f s).id = s.id ∧ (modFab f s).tm = s.tm ∧ (modFab f s).line = s.line ∧ (modFab f s).tr = s.tr
      ∧ (modFab f s).circuits = s.circuits ∧ (modFab f s).fwd = s.fwd ∧ (modFab f s).tab = s.tab ∧ (modFab f s).learn = s.learn
      ∧ (modFab f s).td = s.td ∧ (modFab f s).det = s.det ∧ (modFab f s).twin = s.twin ∧ (modFab f s).flt = s.flt
      ∧ (modFab f s).aon = s.aon ∧ (modFab f s).flash = s.flash ∧ (modFab f s).boot = s.boot ∧ (modFab f s).hbm = s.hbm
      ∧ (modFab f s).pow = s.pow ∧ (modFab f s).test = s.test ∧ (modFab f s).tel = s.tel ∧ (modFab f s).board = s.board
      ∧ (modFab f s).host = s.host ∧ (modFab f s).ecs = s.ecs ∧ (modFab f s).ctr = s.ctr ∧ (modFab f s).snap = s.snap
      ∧ (modFab f s).wire = s.wire ∧ (modFab f s).fresh = s.fresh ∧ (modFab f s).pending = s.pending := by
  and_intros <;> rfl

@[simp] theorem modFwd_fwd (f : FwdSt → FwdSt) (s : State) : (modFwd f s).fwd = f s.fwd := rfl
@[simp] theorem modFwd_frame (f : FwdSt → FwdSt) (s : State) :
    (modFwd f s).id = s.id ∧ (modFwd f s).tm = s.tm ∧ (modFwd f s).line = s.line ∧ (modFwd f s).tr = s.tr
      ∧ (modFwd f s).circuits = s.circuits ∧ (modFwd f s).tab = s.tab ∧ (modFwd f s).learn = s.learn ∧ (modFwd f s).td = s.td
      ∧ (modFwd f s).det = s.det ∧ (modFwd f s).fab = s.fab ∧ (modFwd f s).twin = s.twin ∧ (modFwd f s).flt = s.flt
      ∧ (modFwd f s).aon = s.aon ∧ (modFwd f s).flash = s.flash ∧ (modFwd f s).boot = s.boot ∧ (modFwd f s).hbm = s.hbm
      ∧ (modFwd f s).pow = s.pow ∧ (modFwd f s).test = s.test ∧ (modFwd f s).tel = s.tel ∧ (modFwd f s).board = s.board
      ∧ (modFwd f s).host = s.host ∧ (modFwd f s).ecs = s.ecs ∧ (modFwd f s).ctr = s.ctr ∧ (modFwd f s).snap = s.snap
      ∧ (modFwd f s).wire = s.wire ∧ (modFwd f s).fresh = s.fresh ∧ (modFwd f s).pending = s.pending := by
  and_intros <;> rfl

@[simp] theorem modTab_tab (f : TableSt → TableSt) (s : State) : (modTab f s).tab = f s.tab := rfl
@[simp] theorem modTab_frame (f : TableSt → TableSt) (s : State) :
    (modTab f s).id = s.id ∧ (modTab f s).tm = s.tm ∧ (modTab f s).line = s.line ∧ (modTab f s).tr = s.tr
      ∧ (modTab f s).circuits = s.circuits ∧ (modTab f s).fwd = s.fwd ∧ (modTab f s).learn = s.learn ∧ (modTab f s).td = s.td
      ∧ (modTab f s).det = s.det ∧ (modTab f s).fab = s.fab ∧ (modTab f s).twin = s.twin ∧ (modTab f s).flt = s.flt
      ∧ (modTab f s).aon = s.aon ∧ (modTab f s).flash = s.flash ∧ (modTab f s).boot = s.boot ∧ (modTab f s).hbm = s.hbm
      ∧ (modTab f s).pow = s.pow ∧ (modTab f s).test = s.test ∧ (modTab f s).tel = s.tel ∧ (modTab f s).board = s.board
      ∧ (modTab f s).host = s.host ∧ (modTab f s).ecs = s.ecs ∧ (modTab f s).ctr = s.ctr ∧ (modTab f s).snap = s.snap
      ∧ (modTab f s).wire = s.wire ∧ (modTab f s).fresh = s.fresh ∧ (modTab f s).pending = s.pending := by
  and_intros <;> rfl

@[simp] theorem modLearn_learn (f : LearnSt → LearnSt) (s : State) : (modLearn f s).learn = f s.learn := rfl
@[simp] theorem modLearn_frame (f : LearnSt → LearnSt) (s : State) :
    (modLearn f s).id = s.id ∧ (modLearn f s).tm = s.tm ∧ (modLearn f s).line = s.line ∧ (modLearn f s).tr = s.tr
      ∧ (modLearn f s).circuits = s.circuits ∧ (modLearn f s).fwd = s.fwd ∧ (modLearn f s).tab = s.tab ∧ (modLearn f s).td = s.td
      ∧ (modLearn f s).det = s.det ∧ (modLearn f s).fab = s.fab ∧ (modLearn f s).twin = s.twin ∧ (modLearn f s).flt = s.flt
      ∧ (modLearn f s).aon = s.aon ∧ (modLearn f s).flash = s.flash ∧ (modLearn f s).boot = s.boot ∧ (modLearn f s).hbm = s.hbm
      ∧ (modLearn f s).pow = s.pow ∧ (modLearn f s).test = s.test ∧ (modLearn f s).tel = s.tel ∧ (modLearn f s).board = s.board
      ∧ (modLearn f s).host = s.host ∧ (modLearn f s).ecs = s.ecs ∧ (modLearn f s).ctr = s.ctr ∧ (modLearn f s).snap = s.snap
      ∧ (modLearn f s).wire = s.wire ∧ (modLearn f s).fresh = s.fresh ∧ (modLearn f s).pending = s.pending := by
  and_intros <;> rfl

@[simp] theorem modDet_det (f : DetSt → DetSt) (s : State) : (modDet f s).det = f s.det := rfl
@[simp] theorem modDet_frame (f : DetSt → DetSt) (s : State) :
    (modDet f s).id = s.id ∧ (modDet f s).tm = s.tm ∧ (modDet f s).line = s.line ∧ (modDet f s).tr = s.tr
      ∧ (modDet f s).circuits = s.circuits ∧ (modDet f s).fwd = s.fwd ∧ (modDet f s).tab = s.tab ∧ (modDet f s).learn = s.learn
      ∧ (modDet f s).td = s.td ∧ (modDet f s).fab = s.fab ∧ (modDet f s).twin = s.twin ∧ (modDet f s).flt = s.flt
      ∧ (modDet f s).aon = s.aon ∧ (modDet f s).flash = s.flash ∧ (modDet f s).boot = s.boot ∧ (modDet f s).hbm = s.hbm
      ∧ (modDet f s).pow = s.pow ∧ (modDet f s).test = s.test ∧ (modDet f s).tel = s.tel ∧ (modDet f s).board = s.board
      ∧ (modDet f s).host = s.host ∧ (modDet f s).ecs = s.ecs ∧ (modDet f s).ctr = s.ctr ∧ (modDet f s).snap = s.snap
      ∧ (modDet f s).wire = s.wire ∧ (modDet f s).fresh = s.fresh ∧ (modDet f s).pending = s.pending := by
  and_intros <;> rfl

@[simp] theorem modTel_tel (f : TelemSt → TelemSt) (s : State) : (modTel f s).tel = f s.tel := rfl
@[simp] theorem modTel_frame (f : TelemSt → TelemSt) (s : State) :
    (modTel f s).id = s.id ∧ (modTel f s).tm = s.tm ∧ (modTel f s).line = s.line ∧ (modTel f s).tr = s.tr
      ∧ (modTel f s).circuits = s.circuits ∧ (modTel f s).fwd = s.fwd ∧ (modTel f s).tab = s.tab ∧ (modTel f s).learn = s.learn
      ∧ (modTel f s).td = s.td ∧ (modTel f s).det = s.det ∧ (modTel f s).fab = s.fab ∧ (modTel f s).twin = s.twin
      ∧ (modTel f s).flt = s.flt ∧ (modTel f s).aon = s.aon ∧ (modTel f s).flash = s.flash ∧ (modTel f s).boot = s.boot
      ∧ (modTel f s).hbm = s.hbm ∧ (modTel f s).pow = s.pow ∧ (modTel f s).test = s.test ∧ (modTel f s).board = s.board
      ∧ (modTel f s).host = s.host ∧ (modTel f s).ecs = s.ecs ∧ (modTel f s).ctr = s.ctr ∧ (modTel f s).snap = s.snap
      ∧ (modTel f s).wire = s.wire ∧ (modTel f s).fresh = s.fresh ∧ (modTel f s).pending = s.pending := by
  and_intros <;> rfl

@[simp] theorem modTwin_twin (f : TwinSt → TwinSt) (s : State) : (modTwin f s).twin = f s.twin := rfl
@[simp] theorem modTwin_frame (f : TwinSt → TwinSt) (s : State) :
    (modTwin f s).id = s.id ∧ (modTwin f s).tm = s.tm ∧ (modTwin f s).line = s.line ∧ (modTwin f s).tr = s.tr
      ∧ (modTwin f s).circuits = s.circuits ∧ (modTwin f s).fwd = s.fwd ∧ (modTwin f s).tab = s.tab ∧ (modTwin f s).learn = s.learn
      ∧ (modTwin f s).td = s.td ∧ (modTwin f s).det = s.det ∧ (modTwin f s).fab = s.fab ∧ (modTwin f s).flt = s.flt
      ∧ (modTwin f s).aon = s.aon ∧ (modTwin f s).flash = s.flash ∧ (modTwin f s).boot = s.boot ∧ (modTwin f s).hbm = s.hbm
      ∧ (modTwin f s).pow = s.pow ∧ (modTwin f s).test = s.test ∧ (modTwin f s).tel = s.tel ∧ (modTwin f s).board = s.board
      ∧ (modTwin f s).host = s.host ∧ (modTwin f s).ecs = s.ecs ∧ (modTwin f s).ctr = s.ctr ∧ (modTwin f s).snap = s.snap
      ∧ (modTwin f s).wire = s.wire ∧ (modTwin f s).fresh = s.fresh ∧ (modTwin f s).pending = s.pending := by
  and_intros <;> rfl

@[simp] theorem modHost_host (f : HostIf → HostIf) (s : State) : (modHost f s).host = f s.host := rfl
@[simp] theorem modHost_frame (f : HostIf → HostIf) (s : State) :
    (modHost f s).id = s.id ∧ (modHost f s).tm = s.tm ∧ (modHost f s).line = s.line ∧ (modHost f s).tr = s.tr
      ∧ (modHost f s).circuits = s.circuits ∧ (modHost f s).fwd = s.fwd ∧ (modHost f s).tab = s.tab ∧ (modHost f s).learn = s.learn
      ∧ (modHost f s).td = s.td ∧ (modHost f s).det = s.det ∧ (modHost f s).fab = s.fab ∧ (modHost f s).twin = s.twin
      ∧ (modHost f s).flt = s.flt ∧ (modHost f s).aon = s.aon ∧ (modHost f s).flash = s.flash ∧ (modHost f s).boot = s.boot
      ∧ (modHost f s).hbm = s.hbm ∧ (modHost f s).pow = s.pow ∧ (modHost f s).test = s.test ∧ (modHost f s).tel = s.tel
      ∧ (modHost f s).board = s.board ∧ (modHost f s).ecs = s.ecs ∧ (modHost f s).ctr = s.ctr ∧ (modHost f s).snap = s.snap
      ∧ (modHost f s).wire = s.wire ∧ (modHost f s).fresh = s.fresh ∧ (modHost f s).pending = s.pending := by
  and_intros <;> rfl

@[simp] theorem modGate_det (p : Nat) (f : GatePort → GatePort) (s : State) : (modGate p f s).det = { s.det with gates := lmod s.det.gates p f } := rfl
@[simp] theorem modGate_frame (p : Nat) (f : GatePort → GatePort) (s : State) :
    (modGate p f s).id = s.id ∧ (modGate p f s).tm = s.tm ∧ (modGate p f s).line = s.line ∧ (modGate p f s).tr = s.tr
      ∧ (modGate p f s).circuits = s.circuits ∧ (modGate p f s).fwd = s.fwd ∧ (modGate p f s).tab = s.tab
      ∧ (modGate p f s).learn = s.learn ∧ (modGate p f s).td = s.td ∧ (modGate p f s).fab = s.fab ∧ (modGate p f s).twin = s.twin
      ∧ (modGate p f s).flt = s.flt ∧ (modGate p f s).aon = s.aon ∧ (modGate p f s).flash = s.flash ∧ (modGate p f s).boot = s.boot
      ∧ (modGate p f s).hbm = s.hbm ∧ (modGate p f s).pow = s.pow ∧ (modGate p f s).test = s.test ∧ (modGate p f s).tel = s.tel
      ∧ (modGate p f s).board = s.board ∧ (modGate p f s).host = s.host ∧ (modGate p f s).ecs = s.ecs ∧ (modGate p f s).ctr = s.ctr
      ∧ (modGate p f s).snap = s.snap ∧ (modGate p f s).wire = s.wire ∧ (modGate p f s).fresh = s.fresh
      ∧ (modGate p f s).pending = s.pending := by
  and_intros <;> rfl

@[simp] theorem modStack_hbm (i : Nat) (f : Stack → Stack) (s : State) : (modStack i f s).hbm = { s.hbm with stks := lmod s.hbm.stks i f } := rfl
@[simp] theorem modStack_frame (i : Nat) (f : Stack → Stack) (s : State) :
    (modStack i f s).id = s.id ∧ (modStack i f s).tm = s.tm ∧ (modStack i f s).line = s.line ∧ (modStack i f s).tr = s.tr
      ∧ (modStack i f s).circuits = s.circuits ∧ (modStack i f s).fwd = s.fwd ∧ (modStack i f s).tab = s.tab
      ∧ (modStack i f s).learn = s.learn ∧ (modStack i f s).td = s.td ∧ (modStack i f s).det = s.det ∧ (modStack i f s).fab = s.fab
      ∧ (modStack i f s).twin = s.twin ∧ (modStack i f s).flt = s.flt ∧ (modStack i f s).aon = s.aon
      ∧ (modStack i f s).flash = s.flash ∧ (modStack i f s).boot = s.boot ∧ (modStack i f s).pow = s.pow
      ∧ (modStack i f s).test = s.test ∧ (modStack i f s).tel = s.tel ∧ (modStack i f s).board = s.board
      ∧ (modStack i f s).host = s.host ∧ (modStack i f s).ecs = s.ecs ∧ (modStack i f s).ctr = s.ctr
      ∧ (modStack i f s).snap = s.snap ∧ (modStack i f s).wire = s.wire ∧ (modStack i f s).fresh = s.fresh
      ∧ (modStack i f s).pending = s.pending := by
  and_intros <;> rfl

@[simp] theorem modDom_pow (d : Nat) (f : Domain → Domain) (s : State) : (modDom d f s).pow = { s.pow with doms := lmod s.pow.doms d f } := rfl
@[simp] theorem modDom_frame (d : Nat) (f : Domain → Domain) (s : State) :
    (modDom d f s).id = s.id ∧ (modDom d f s).tm = s.tm ∧ (modDom d f s).line = s.line ∧ (modDom d f s).tr = s.tr
      ∧ (modDom d f s).circuits = s.circuits ∧ (modDom d f s).fwd = s.fwd ∧ (modDom d f s).tab = s.tab
      ∧ (modDom d f s).learn = s.learn ∧ (modDom d f s).td = s.td ∧ (modDom d f s).det = s.det ∧ (modDom d f s).fab = s.fab
      ∧ (modDom d f s).twin = s.twin ∧ (modDom d f s).flt = s.flt ∧ (modDom d f s).aon = s.aon ∧ (modDom d f s).flash = s.flash
      ∧ (modDom d f s).boot = s.boot ∧ (modDom d f s).hbm = s.hbm ∧ (modDom d f s).test = s.test ∧ (modDom d f s).tel = s.tel
      ∧ (modDom d f s).board = s.board ∧ (modDom d f s).host = s.host ∧ (modDom d f s).ecs = s.ecs ∧ (modDom d f s).ctr = s.ctr
      ∧ (modDom d f s).snap = s.snap ∧ (modDom d f s).wire = s.wire ∧ (modDom d f s).fresh = s.fresh
      ∧ (modDom d f s).pending = s.pending := by
  and_intros <;> rfl

@[simp] theorem modSlice_test (d : Nat) (f : Slice → Slice) (s : State) : (modSlice d f s).test = { s.test with slices := lmod s.test.slices d f } := rfl
@[simp] theorem modSlice_frame (d : Nat) (f : Slice → Slice) (s : State) :
    (modSlice d f s).id = s.id ∧ (modSlice d f s).tm = s.tm ∧ (modSlice d f s).line = s.line ∧ (modSlice d f s).tr = s.tr
      ∧ (modSlice d f s).circuits = s.circuits ∧ (modSlice d f s).fwd = s.fwd ∧ (modSlice d f s).tab = s.tab
      ∧ (modSlice d f s).learn = s.learn ∧ (modSlice d f s).td = s.td ∧ (modSlice d f s).det = s.det ∧ (modSlice d f s).fab = s.fab
      ∧ (modSlice d f s).twin = s.twin ∧ (modSlice d f s).flt = s.flt ∧ (modSlice d f s).aon = s.aon
      ∧ (modSlice d f s).flash = s.flash ∧ (modSlice d f s).boot = s.boot ∧ (modSlice d f s).hbm = s.hbm
      ∧ (modSlice d f s).pow = s.pow ∧ (modSlice d f s).tel = s.tel ∧ (modSlice d f s).board = s.board
      ∧ (modSlice d f s).host = s.host ∧ (modSlice d f s).ecs = s.ecs ∧ (modSlice d f s).ctr = s.ctr
      ∧ (modSlice d f s).snap = s.snap ∧ (modSlice d f s).wire = s.wire ∧ (modSlice d f s).fresh = s.fresh
      ∧ (modSlice d f s).pending = s.pending := by
  and_intros <;> rfl

@[simp] theorem modPipe_fwd (p : Nat) (f : Pipe → Pipe) (s : State) : (modPipe p f s).fwd = { s.fwd with pipes := lmod s.fwd.pipes p f } := rfl
@[simp] theorem modPipe_frame (p : Nat) (f : Pipe → Pipe) (s : State) :
    (modPipe p f s).id = s.id ∧ (modPipe p f s).tm = s.tm ∧ (modPipe p f s).line = s.line ∧ (modPipe p f s).tr = s.tr
      ∧ (modPipe p f s).circuits = s.circuits ∧ (modPipe p f s).tab = s.tab ∧ (modPipe p f s).learn = s.learn
      ∧ (modPipe p f s).td = s.td ∧ (modPipe p f s).det = s.det ∧ (modPipe p f s).fab = s.fab ∧ (modPipe p f s).twin = s.twin
      ∧ (modPipe p f s).flt = s.flt ∧ (modPipe p f s).aon = s.aon ∧ (modPipe p f s).flash = s.flash ∧ (modPipe p f s).boot = s.boot
      ∧ (modPipe p f s).hbm = s.hbm ∧ (modPipe p f s).pow = s.pow ∧ (modPipe p f s).test = s.test ∧ (modPipe p f s).tel = s.tel
      ∧ (modPipe p f s).board = s.board ∧ (modPipe p f s).host = s.host ∧ (modPipe p f s).ecs = s.ecs ∧ (modPipe p f s).ctr = s.ctr
      ∧ (modPipe p f s).snap = s.snap ∧ (modPipe p f s).wire = s.wire ∧ (modPipe p f s).fresh = s.fresh
      ∧ (modPipe p f s).pending = s.pending := by
  and_intros <;> rfl

@[simp] theorem modBank_tel (b : Nat) (f : Bank → Bank) (s : State) : (modBank b f s).tel = { s.tel with banks := tset s.tel.banks b (f (tgetD s.tel.banks b {})) } := rfl
@[simp] theorem modBank_frame (b : Nat) (f : Bank → Bank) (s : State) :
    (modBank b f s).id = s.id ∧ (modBank b f s).tm = s.tm ∧ (modBank b f s).line = s.line ∧ (modBank b f s).tr = s.tr
      ∧ (modBank b f s).circuits = s.circuits ∧ (modBank b f s).fwd = s.fwd ∧ (modBank b f s).tab = s.tab
      ∧ (modBank b f s).learn = s.learn ∧ (modBank b f s).td = s.td ∧ (modBank b f s).det = s.det ∧ (modBank b f s).fab = s.fab
      ∧ (modBank b f s).twin = s.twin ∧ (modBank b f s).flt = s.flt ∧ (modBank b f s).aon = s.aon ∧ (modBank b f s).flash = s.flash
      ∧ (modBank b f s).boot = s.boot ∧ (modBank b f s).hbm = s.hbm ∧ (modBank b f s).pow = s.pow ∧ (modBank b f s).test = s.test
      ∧ (modBank b f s).board = s.board ∧ (modBank b f s).host = s.host ∧ (modBank b f s).ecs = s.ecs ∧ (modBank b f s).ctr = s.ctr
      ∧ (modBank b f s).snap = s.snap ∧ (modBank b f s).wire = s.wire ∧ (modBank b f s).fresh = s.fresh
      ∧ (modBank b f s).pending = s.pending := by
  and_intros <;> rfl

@[simp] theorem modQueue_td (q : Nat) (f : Queue → Queue) (s : State) : (modQueue q f s).td = { s.td with queues := tmodify s.td.queues q f } := rfl
@[simp] theorem modQueue_frame (q : Nat) (f : Queue → Queue) (s : State) :
    (modQueue q f s).id = s.id ∧ (modQueue q f s).tm = s.tm ∧ (modQueue q f s).line = s.line ∧ (modQueue q f s).tr = s.tr
      ∧ (modQueue q f s).circuits = s.circuits ∧ (modQueue q f s).fwd = s.fwd ∧ (modQueue q f s).tab = s.tab
      ∧ (modQueue q f s).learn = s.learn ∧ (modQueue q f s).det = s.det ∧ (modQueue q f s).fab = s.fab
      ∧ (modQueue q f s).twin = s.twin ∧ (modQueue q f s).flt = s.flt ∧ (modQueue q f s).aon = s.aon
      ∧ (modQueue q f s).flash = s.flash ∧ (modQueue q f s).boot = s.boot ∧ (modQueue q f s).hbm = s.hbm
      ∧ (modQueue q f s).pow = s.pow ∧ (modQueue q f s).test = s.test ∧ (modQueue q f s).tel = s.tel
      ∧ (modQueue q f s).board = s.board ∧ (modQueue q f s).host = s.host ∧ (modQueue q f s).ecs = s.ecs
      ∧ (modQueue q f s).ctr = s.ctr ∧ (modQueue q f s).snap = s.snap ∧ (modQueue q f s).wire = s.wire
      ∧ (modQueue q f s).fresh = s.fresh ∧ (modQueue q f s).pending = s.pending := by
  and_intros <;> rfl

@[simp] theorem modNode_td (h : Nat) (f : Node → Node) (s : State) : (modNode h f s).td = { s.td with nodes := tmodify s.td.nodes h f } := rfl
@[simp] theorem modNode_frame (h : Nat) (f : Node → Node) (s : State) :
    (modNode h f s).id = s.id ∧ (modNode h f s).tm = s.tm ∧ (modNode h f s).line = s.line ∧ (modNode h f s).tr = s.tr
      ∧ (modNode h f s).circuits = s.circuits ∧ (modNode h f s).fwd = s.fwd ∧ (modNode h f s).tab = s.tab
      ∧ (modNode h f s).learn = s.learn ∧ (modNode h f s).det = s.det ∧ (modNode h f s).fab = s.fab ∧ (modNode h f s).twin = s.twin
      ∧ (modNode h f s).flt = s.flt ∧ (modNode h f s).aon = s.aon ∧ (modNode h f s).flash = s.flash ∧ (modNode h f s).boot = s.boot
      ∧ (modNode h f s).hbm = s.hbm ∧ (modNode h f s).pow = s.pow ∧ (modNode h f s).test = s.test ∧ (modNode h f s).tel = s.tel
      ∧ (modNode h f s).board = s.board ∧ (modNode h f s).host = s.host ∧ (modNode h f s).ecs = s.ecs ∧ (modNode h f s).ctr = s.ctr
      ∧ (modNode h f s).snap = s.snap ∧ (modNode h f s).wire = s.wire ∧ (modNode h f s).fresh = s.fresh
      ∧ (modNode h f s).pending = s.pending := by
  and_intros <;> rfl

@[simp] theorem emit_wire (o : Output) (s : State) : (emit o s).wire = o :: s.wire := rfl
@[simp] theorem emit_frame (o : Output) (s : State) :
    (emit o s).id = s.id ∧ (emit o s).tm = s.tm ∧ (emit o s).line = s.line ∧ (emit o s).tr = s.tr
      ∧ (emit o s).circuits = s.circuits ∧ (emit o s).fwd = s.fwd ∧ (emit o s).tab = s.tab ∧ (emit o s).learn = s.learn
      ∧ (emit o s).td = s.td ∧ (emit o s).det = s.det ∧ (emit o s).fab = s.fab ∧ (emit o s).twin = s.twin ∧ (emit o s).flt = s.flt
      ∧ (emit o s).aon = s.aon ∧ (emit o s).flash = s.flash ∧ (emit o s).boot = s.boot ∧ (emit o s).hbm = s.hbm
      ∧ (emit o s).pow = s.pow ∧ (emit o s).test = s.test ∧ (emit o s).tel = s.tel ∧ (emit o s).board = s.board
      ∧ (emit o s).host = s.host ∧ (emit o s).ecs = s.ecs ∧ (emit o s).ctr = s.ctr ∧ (emit o s).snap = s.snap
      ∧ (emit o s).fresh = s.fresh ∧ (emit o s).pending = s.pending := by
  and_intros <;> rfl

@[simp] theorem ctrPut_ctr (g i k v : Nat) (s : State) : (ctrPut g i k v s).ctr = mset 0 s.ctr (ctrKey g i k) v := rfl
@[simp] theorem ctrPut_frame (g i k v : Nat) (s : State) :
    (ctrPut g i k v s).id = s.id ∧ (ctrPut g i k v s).tm = s.tm ∧ (ctrPut g i k v s).line = s.line ∧ (ctrPut g i k v s).tr = s.tr
      ∧ (ctrPut g i k v s).circuits = s.circuits ∧ (ctrPut g i k v s).fwd = s.fwd ∧ (ctrPut g i k v s).tab = s.tab
      ∧ (ctrPut g i k v s).learn = s.learn ∧ (ctrPut g i k v s).td = s.td ∧ (ctrPut g i k v s).det = s.det
      ∧ (ctrPut g i k v s).fab = s.fab ∧ (ctrPut g i k v s).twin = s.twin ∧ (ctrPut g i k v s).flt = s.flt
      ∧ (ctrPut g i k v s).aon = s.aon ∧ (ctrPut g i k v s).flash = s.flash ∧ (ctrPut g i k v s).boot = s.boot
      ∧ (ctrPut g i k v s).hbm = s.hbm ∧ (ctrPut g i k v s).pow = s.pow ∧ (ctrPut g i k v s).test = s.test
      ∧ (ctrPut g i k v s).tel = s.tel ∧ (ctrPut g i k v s).board = s.board ∧ (ctrPut g i k v s).host = s.host
      ∧ (ctrPut g i k v s).ecs = s.ecs ∧ (ctrPut g i k v s).snap = s.snap ∧ (ctrPut g i k v s).wire = s.wire
      ∧ (ctrPut g i k v s).fresh = s.fresh ∧ (ctrPut g i k v s).pending = s.pending := by
  and_intros <;> rfl

@[simp] theorem atTime_tm (s : State) (t : Nat) : (s.atTime t).tm = { s.tm with sub := max s.tm.sub t } := rfl
@[simp] theorem atTime_frame (s : State) (t : Nat) :
    (s.atTime t).id = s.id ∧ (s.atTime t).line = s.line ∧ (s.atTime t).tr = s.tr ∧ (s.atTime t).circuits = s.circuits
      ∧ (s.atTime t).fwd = s.fwd ∧ (s.atTime t).tab = s.tab ∧ (s.atTime t).learn = s.learn ∧ (s.atTime t).td = s.td
      ∧ (s.atTime t).det = s.det ∧ (s.atTime t).fab = s.fab ∧ (s.atTime t).twin = s.twin ∧ (s.atTime t).flt = s.flt
      ∧ (s.atTime t).aon = s.aon ∧ (s.atTime t).flash = s.flash ∧ (s.atTime t).boot = s.boot ∧ (s.atTime t).hbm = s.hbm
      ∧ (s.atTime t).pow = s.pow ∧ (s.atTime t).test = s.test ∧ (s.atTime t).tel = s.tel ∧ (s.atTime t).board = s.board
      ∧ (s.atTime t).host = s.host ∧ (s.atTime t).ecs = s.ecs ∧ (s.atTime t).ctr = s.ctr ∧ (s.atTime t).snap = s.snap
      ∧ (s.atTime t).wire = s.wire ∧ (s.atTime t).fresh = s.fresh ∧ (s.atTime t).pending = s.pending := by
  and_intros <;> rfl

end Sys2Proof.Machine
end

