-- ==== Sys2Proof/Tests/Slice0.lean ====
section
/-! SUPPORT. Tests. For every obligation with hypotheses, a theorem witness_<its name> shows concrete states and operands that meet them,
clause by clause; for every check of well-formedness an ill-formed term that it refuses; and worked examples of the spec. Expected
values come from the spec's examples or from its rules by hand. -/

namespace Sys2Proof.Tests

set_option Elab.async false

open Sys2Proof Sys2Proof.Machine

/-! ### States and operands -/

/-- A K12 in service: firmware is ready and the lifecycle state is COMMISSIONED. -/
def up : State := { State.reset with id := { State.reset.id with fwState := 1 }, boot := { State.reset.boot with held := false, ready := true } }
/-- A direct command from mailbox 0 at the start of a tide. -/
def call0 : Call := ⟨0, 0, 0, 0, .mailbox⟩
/-- A word, and a word that holds a handle. -/
def word (n : Nat) : Word := toWord n
def hw (ty i : Nat) : Word := toWord (handle ty i)
/-- n words of zeros. -/
def z (n : Nat) : List Word := List.replicate n 0#32
/-- The hypotheses of a command's statement are met. -/
abbrev met (k : Cmd) (cond : Call → List Word → State → Prop) (c : Call) (q : List Word) (s : State) : Prop :=
  Ready k c q s = true ∧ cond c q (accepted k c q s)
/-- The same, for a command whose change admission judges (R295). -/
abbrev metA (k : Cmd) (f : Call → List Word → State → State) (cond : Call → List Word → State → Prop) (c : Call) (q : List Word)
    (s : State) : Prop :=
  Ready k c q s = true ∧ admits k (accepted k c q s) (f c q (accepted k c q s)) = true ∧ cond c q (accepted k c q s)
/-- The hypotheses of an event's statement are met. -/
abbrev at0 (cond : State → Prop) (s : State) : Prop := cond (s.atTime 0)

/-- Ethernet ports 0 and 63, port 0 in loopback, with an SA each way on port 0. -/
def port0 : Port := { mode := 1, fec := 0, training := false }
def sa0 : Sa := ⟨1, 1, 0, 0, [], [], false, false⟩
def onLine : State :=
  { up with line := { ports := [(0, port0), (63, { port0 with loop := 2 })], sas := [(0, sa0), (128, sa0)] } }

def cktCfg : CircuitCfg := ⟨false, 0, false, false, 1, 1, 1, 0, 0, 16, 0, 0, 0x60000000, 0, 1, 0, 96⟩
def ckt : Circuit := { bound := 0, cfg := cktCfg, recs := [{ first := 8000 }] }
/-- A next hop and a circuit. -/
def nh0 : NextHop := ⟨0, 0, 0, 0, 0, 0⟩
def circ : State :=
  { up with circuits := [(0, ckt), (16383, { ckt with enabled := true })], fwd := { cfg := { nhs := [(0, nh0)] } } }

/-- Two SDH ports, an OTU4 port, an ODU4 in it, paths and a group. -/
def rec0 : PmRec := ⟨0, 0, 0, 0, 0, 0, 0, false, false, false, 8000⟩
def tport (m : Nat) : TPort := { mode := m, loopTiming := false, s1 := 0, mon := { recs := [rec0] } }
def odu (server kind term : Nat) (client : Option Nat) : Odu :=
  { server := server, kind := kind, term := term, slots := 1, tpn := 1, expPt := 0, client := client }
def path (server kind au : Nat) : Path := { server := server, kind := kind, au := au, tu12 := 0, tug3 := 0, label := 0 }
def group (ty worker protect : Nat) : Prot :=
  { ty := ty, bidir := true, revert := false, sdTrig := false, worker := worker, protect := protect, trigW := 0, trigP := 0,
    holdOff := 0, wtr := 0 }
def transport : State := { up with tr := {
  ports := [(0, tport 0x20), (8, tport 0x20), (16, tport 0x31), (63, tport 0x20)]
  odus := [(0, odu (handle 0x32 16) 0 1 none), (1, odu (handle 0x32 16) 6 6 (some 0)), (2, odu (handle 0x32 16) 0 1 none)]
  paths := [(0, path (handle 0x32 0) 0 0), (1, path (handle 0x41 0) 2 0)]
  clients := [(0, ⟨1, true⟩)]
  groups := [(4094, group 2 (handle 0x32 1) (handle 0x32 2)), (4095, group 2 (handle 0x32 0) (handle 0x32 8))] } }


/-- Forwarding objects: a next hop, an ECMP group, an encapsulation and an action record. -/
def act0 : Action := ⟨[0#32, 0#32, 0#32, 0#32]⟩
def fwd : State := { up with fwd := { cfg := {
  nhs := [(0, nh0), (1, nh0)]
  ecmps := [(0, [(handle 0x60 0, true)])]
  encaps := [(0, ⟨1, 1, false, false, [0#32]⟩)]
  actions := [(0, act0)] } } }
/-- Table objects: a Dill table with an entry, a route of length 32, and a Sage group with an entry. -/
def dill0 : DillTab := { k := 4, base := 0, seed := 0#32 }
def routeQ : List Word := [word (32 * 2 ^ 24), 0#32, 0#32, 0#32, 0#32, hw 0x70 0]
def tables : State := { fwd with tab := {
  dill := [(0, dill0)]
  buckets := [(slotKey 0 (bucketOf dill0 0) 0, { key := 0, v := ⟨some { act := 0, cookie := 0#32, static := false }, []⟩ })]
  routes := [(routeIn routeQ, ⟨some 0, []⟩)]
  groups := [(0, ⟨0, 1, 0, 5⟩)]
  sage := [(0, ⟨0, 0, 0, 0, 0, ⟨some 0, []⟩⟩)] } }
def dillE : DillEntry := { key := 0, v := ⟨some { act := 0, cookie := 0#32, static := false }, []⟩ }
def slot (key e : Nat) : Nat := slotKey 0 (bucketOf dill0 key) e

/-- A port node with a group node and queues below it, a VOQ set, and streams with their context. -/
def nodeP : Node := { level := 0, port := 0, top := 1000000000 }
def nodeG : Node := { level := 1, port := 0, sch := { parent := handle 0xA1 0 } }
def detQ : Queue := { cfg := { det := true }, sch := { parent := handle 0xA1 0, band := 0 } }
def queued : State := { onLine with
  td := {
  v := 16
  sets := [(0, { dsp := 0, mask := 129, cred := List.replicate 8 { g := 100000 } })]
  queues := [(0, { cfg := { det := true } }), (1, {}), (7, { cfg := { det := true } }), (1048575, {}), (1048574, detQ)]
  nodes := [(handle 0xA1 0, nodeP), (handle 0xA2 0, nodeG)] }
  fab := { octets := 0xFFF, rates := 0xFFFFFF } }
def strmCfg : StreamCfg := ⟨0, 7, false, 1, 0, 0, 64, 1, 1000000, 1000000, 0, [⟨handle 0x60 0, 0, true, 1⟩]⟩
def strm : Stream := { cfg := strmCfg, seq := 0 }
def frer0 : Frer := { mtch := false, h := 1, takeNo := false, dcw := false, timeout := 1 }
def streams : State := { queued with
  fwd := { cfg := { nhs := [(0, nh0)] } }
  det := { frer := [(0, frer0)], recs := [(0, ⟨0, 1048574, 64, 1, 1000, 100000⟩)], streams := [(0, strm)] } }
def noStreams : State := { queued with fwd := { cfg := { nhs := [(0, nh0)] } } }

/-- One of a twin pair, ACTIVE with its twin WARM, and one that can join. -/
def duo : State := { up with id := { up.id with twinEn := true }, twin := { up.twin with st := 1, peer := 2 } }
def cold : State := { duo with twin := { duo.twin with st := 4, peer := 1, hawser := true } }
/-- A manifest with one entry, of port 63. -/
def mfE : List Word := [word 63, 0#32, 0#32, 0#32, 0#32, 0#32, 0#32]
def mfW : List Word := [0#32, 0#32, word 4] ++ mfE

theorem fits (s : State) (d : Nat) (h : (s.test.slices.getD d {}).budget = 2000) : (setsFit s d).isEmpty = false := by
  rw [List.isEmpty_eq_false_iff]
  exact List.ne_nil_of_mem (a := 0) (List.mem_filter.mpr ⟨List.mem_range.mpr (by decide),
    by rw [h]; exact decide_eq_true (Nat.min_le_left 2000 _)⟩)

/-- A transaction in slot 0 that is being prepared. -/
def prep (x : Txn) (s : State) : State := { s with ecs := { s.ecs with slots := s.ecs.slots.set 0 ⟨0, true, some x⟩ } }
def memOp : StagedOp := ⟨0x0E01, [0#32, word 1600, word 2000, word 1024, word 24], 0, []⟩
/-- A deterministic stream, a staged change of the retraining interval, and no free buffer in the die. -/
def shortage : State := prep { phase := 1, ops := [memOp] }
  { streams with td := { streams.td with die := { streams.td.die with cache := [], next := streams.td.die.size } } }
abbrev okP (v : Option Verdict) : Nat := match v with | some (.ok p _ _) => p | _ => 0
abbrev okA (v : Option Verdict) : Tab (List Nat) := match v with | some (.ok _ a _) => a | _ => []
abbrev okN (v : Option Verdict) : Nat := match v with | some (.ok _ _ n) => n | _ => 0
abbrev isOk (v : Option Verdict) : Bool := match v with | some (.ok _ _ _) => true | _ => false
theorem isOk_eq (v : Option Verdict) (h : isOk v = true) : v = some (.ok (okP v) (okA v) (okN v)) := by
  unfold isOk at h; split at h <;> simp_all
abbrev shortV : Option Verdict :=
  admitTxn (txnHandle 0 0) ((shortage.atTime 0).tm.tide + 3) { phase := 1, ops := [memOp] } (shortage.atTime 0)
/-- A K12 that starts the image of slot B, 3 seconds after the start, its HBM stacks trained. -/
def booting : State := { State.reset with
  boot := { State.reset.boot with held := false, slot := some 1 }
  tm := { State.reset.tm with elapsed := msU 3000 }
  hbm := { State.reset.hbm with stks := State.reset.hbm.stks.map fun x => { x with st := 1 } } }

/-- The event ring is on. -/
def evr (s : State) : State := { s with host := { s.host with evrEnable := true } }
def ev0 : EventRec := ⟨1, 1, 0, 0, []⟩
def dump0 : Dump := { writing := some [0#8] }
/-- A sounding of domain d in phase p. -/
def sounding (d p : Nat) (s : State) : State := { s with test := { s.test with run := some ⟨d, p, 0, 0, false, false, true, []⟩ } }
def run0 (d p : Nat) : Sounding := ⟨d, p, 0, 0, false, false, true, []⟩
/-- HBM stack i in service, and its channel c in a retraining window. -/
def inService (i : Nat) (s : State) : State := { s with hbm := { s.hbm with stks := lmod s.hbm.stks i fun x => { x with st := 1 } } }
def window (i c : Nat) (s : State) : State := modChan i c (fun x => { x with window := true }) (inService i s)
/-- The domains at a state and a floor, one that wakes, and one whose self-test is due. -/
def floor (st fl : Nat) : State := 
  { up with
    pow := { up.pow with doms := up.pow.doms.map fun x => { x with st := st, floor := fl } }
    tm := { up.tm with elapsed := 2 ^ 60 } }
def waking : State := { up with pow := { up.pow with doms := up.pow.doms.map fun x => { x with wake := 1 } } }
def due : State := { up with
  test := { up.test with enable := true }
  tm := { up.tm with bounds := 24 * 28800000 } }
/-- Octet 7 is concentrated and its ingress buffer holds 16,385 bytes. -/
def full : State := { up with
  pow := { up.pow with octOn := 128 }
  fwd := { up.fwd with pipes := lmod up.fwd.pipes 15 fun x => { x with waiting := [{ bytes := [], md := { len := 16385 } }] } } }
/-- A sounding of domain 61 waits 8 boundaries for a buffer of the lower half. -/
def lastDie : State := sounding 61 0 { up with
  tm := { up.tm with bounds := 8 }
  td := { up.td with die := { up.td.die with bufs := [(0, ⟨true, 0, 1, false, 0⟩)] } } }
def sampler : State := { up with tel := { up.tel with banks := [(80, { sel := List.replicate 8 { en := true, sample := true, ev := 3 * 64 + 20, period := 1 } })] } }
def asked40 : State := { up with test := { up.test with asked := [40] } }
def user2 : State := { up with host := { up.host with grants := [6] } }
def migrating : State := modStack 5 (fun x => { x with migs := [⟨0, 0, 112, false⟩] }) up

/-- Port 63 is up and in service; a packet waits for it, at its MAC or in the egress pipeline. -/
def frame : List Byte := List.replicate 64 0#8
def upPort : Port := { port0 with up := true, inService := true, conds := 0 }
def linked : State := { up with line := { up.line with ports := [(63, upPort)] } }
def held (isUp : Bool) : State :=
  { linked with
    line := { linked.line with ports := [(63, { upPort with up := isUp, holdOn := true })] }
    tm := { linked.tm with elapsed := 2 ^ 60 } }
def pkt0 : Pkt := { bytes := frame, md := {} }
def txq (k : Pkt) : State := { linked with fwd := { linked.fwd with txq := [(63, k)] } }
def originating : State := { linked with tm := { linked.tm with ports := linked.tm.ports.set 63 { origRate := 1 } } }
/-- A packet client of a transport port that is up. -/
def clientUp : State := { up with tr := { up.tr with
  ports := [(16, { mode := 0x31, loopTiming := false, s1 := 0, enabled := true })]
  odus := [(1, odu (handle 0x32 16) 6 6 (some 0))]
  clients := [(0, ⟨1, true⟩)] } }
def egress : State := { linked with pow := (floor 0 0).pow, fwd := { linked.fwd with
  cfg := { nhs := [(0, nh0)] }
  egress := [(63, { pkt0 with own := true })] } }
/-- A packet has waited for 300 ns in pipeline 14, and one that a slot is granted to. -/
def late : State := { up with
  fwd := { up.fwd with pipes := lmod up.fwd.pipes 14 fun x => { x with waiting := [pkt0] } }
  tm := { up.tm with elapsed := 300 * nsU } }
def granting : State := { up with
  fwd := { up.fwd with pipes := lmod up.fwd.pipes 15 fun x => { x with waiting := [pkt0], credit := 200, tok := 4 } } }
/-- Learning into table 0: a request, a flush, and an entry that a walk holds; its first page has digest d, if any. -/
def dill1 (d : Option Word) : DillTab :=
  { k := 6, base := 0, seed := 0#32, compare := true, repair := true, digests := (d.map fun x => (0, x)).toList }
def learnt (d : Option Word) : State := { up with
  tab := { up.tab with dill := [(0, dill1 d)], held := [⟨0, 5, 0, 0, 0, 0⟩] }
  learn := { up.learn with
    profs := [(1, { table := 0, mode := 1 })]
    queue := [⟨0, 0, 0, 0, 0⟩]
    flushes := [(15, ⟨0, none, none, 0, []⟩)] } }
/-- An entry of page 0 that a commit has changed. -/
def learning : State :=
  let v : DillVal := { act := 0, cookie := 0#32, static := false }
  { learnt none with tab := { (learnt none).tab with
      buckets := [(slotKey 0 (bucketOf (dill1 none) 0 % 32) 0, { key := 0, v := ⟨some v, [(1, some v)]⟩ })] } }
/-- A request for a table that is gone. -/
def unlearnt : State := { learnt none with tab := { up.tab with held := [] } }
def moved (lock : Nat) : State := { up with
  learn := { up.learn with slots := [⟨0, 0, 0, 0, lock⟩] }
  tm := { up.tm with tide := 8000 } }

/-- A queue of port 0 that the scheduler picks, one that the sampler visits, a stream's packet, and a recovery context. -/
def busy : State := { queued with td := { queued.td with
  queues := [(1048574, { detQ with cfg := {}, pkts := [pkt0] })]
  nodes := [(handle 0xA1 0, { nodeP with nxt := lset nodeP.nxt 0 [handle 0xA0 1048574] })] } }
def aged : State := { up with td := { up.td with
  wred := [(0, ⟨0, 0, 0, 0⟩)]
  queues := [(7, { cfg := { age := 0 }, pkts := [pkt0] })] } }
def gate (clear : Bool) : State := { up with det := { up.det with
  gates := up.det.gates.set 63 { pend := some ⟨[(255, 1000)], 1000, 0, false, 0, clear⟩ } } }
def unitFrame : State := { streams with td := { streams.td with
  ingress := [{ pkt0 with rep := true, md := { sValid := true, port := 63 } }] } }
def recovery : State := { up with det := { up.det with frer := [(0, { frer0 with timeout := 0, any := false })] } }
/-- Buffer 5 of the die pool held by client 2, or by two copies. -/
def granted5 (owner count : Nat) : State := { up with td := { up.td with
  die := { up.td.die with bufs := [(5, ⟨true, owner, count, false, 0⟩)] } } }
def waitingFor (k : Pkt) : State := { up with td := { up.td with ingress := [k] } }
theorem pairEta {α β : Type} (p : α × β) : p = (p.1, p.2) := rfl

/-- Transport objects with no defect, groups on either side, and circuits on a path. -/
def sdh : State := { transport with tr := { transport.tr with
  ports := [(0, { tport 0x20 with mon := {}, enabled := true })]
  paths := [(1, { path (handle 0x32 0) 2 0 with mon := {} })] } }
def revertive : State := { transport with tr := { transport.tr with groups := [(4095, { group 2 (handle 0x32 0) (handle 0x32 8) with wtrAt := some 0 })] } }
def lagging : State := { transport with tr := { transport.tr with groups := [(4095, { group 2 (handle 0x32 0) (handle 0x32 8) with rxK2 := 16, bridgeAt := some 0 })] } }
def runs (timing : Nat) : Circuit := { ckt with enabled := true, played := timing != 0, bound := handle 0x41 1, cfg := { cktCfg with timing := timing } }
def circuitOn (timing : Nat) : State := { sdh with circuits := [(16383, runs timing)] }

/-- Fabric lanes in use, device 1 behind system port 1, and packets in a VOQ of it. -/
def fabric : State := { up with fab := { up.fab with
  octets := 0xFFF, rates := 0xFFFFFF, lanes := up.fab.lanes.map fun x => { x with up := true, far := true, use := true }, sysp := [(0, (0, 0)), (1, (1, 0))]
  tx := [(2, { lane := 95 }), (3, { lane := 95 })] } }
def voqs (mask : Nat) (c : Credit) : State := { fabric with td := { fabric.td with
  v := 16, sets := [(0, { dsp := 1, mask := mask, cred := List.replicate 8 c })]
  queues := [(7, { cfg := { det := mask == 255 }, pkts := [pkt0] })] } }
def loaded (det : Bool) : State := (voqs (if det then 255 else 0) { tokens := 3 }).atTime 0
def flows (u : State) : State := (sendOrder u).foldl (fun s d => startPacket d false (startPacket d true s)) u
/-- A device whose flow of traffic det waits for the lane. -/
def flowOn (lane : Nat) (det : Bool) (v : State) : Option Nat :=
  (sendOrder v).find? fun d => (tgetD v.fab.tx (2 * d + b2n det) {}).cur.isSome && flowLane v d det == some lane
def reorder : State := { fabric with
  fab := { fabric.fab with rx := [(2 * 1 + 1, { held := [(7, (0, []))], gap := 1 })] }
  tm := { fabric.tm with elapsed := 2 ^ 60 } }
def meshOff : State := { fabric with fab := { fabric.fab with mesh := false } }
def waits : State := { voqs 0 {} with tm := { up.tm with elapsed := 2 ^ 60 } }

/-- One of a pair with twin state t, and with a record received. -/
def twinned (f : TwinSt → TwinSt) : State := { duo with twin := f duo.twin }
def received (r : TwinRec) (st : Nat) (d : Bool) : State :=
  twinned fun x => { x with st := st, dMode := d, rx := [r], timeSent := some 0 }
def comparing : State :=
  { (twinned fun x => { x with st := 2, twin := [(4, mfW), (3, mfW)] }) with tm := { up.tm with tide := 5, sub := usU 100 } }
def taking (d : Bool) : State := twinned fun x => { x with st := 2, takeAt := 1, killOut := true, detector := 1, dMode := d }
def duoReach : State := { duo with twin := { duo.twin with hawser := true } }
/-- A pair with a deterministic stream, in the profile LOOKUP. -/
def paired : State :=
  { streams with id := duo.id, twin := duo.twin, fwd := { streams.fwd with profile := 1 } }
abbrev converted : State :=
  let u := accepted cmdUpgradeProfile call0 [word 2] paired
  { u with fwd := { u.fwd with profile := 2 } }
/-- A moderation whose time has come, and rings 63 on, with a record that waits for its vector. -/
def due1 : Moderation := { m := 1, u := 0, unsig := 1 }
def ring63 (tx : Bool) : State :=
  let r : Ring := { enable := true, mdr := due1 }
  if tx then { up with host := { up.host with tx := up.host.tx.set 63 r } } else { up with host := { up.host with rx := up.host.rx.set 63 r } }
abbrev Reading : Type := Int × Bool
abbrev Form : Type := List (Nat × Nat × Nat × Nat)
/-- Port 63 no longer in service with a packet that waits, an egress pipeline behind a bridge that sleeps or is fenced. -/
def offLine : State :=
  { txq pkt0 with line := { linked.line with ports := [(63, { upPort with inService := false })] } }
def asleep : State := { egress with pow := (floor 3 3).pow }
def walled (d : Nat) (s : State) : State := { s with flt := { s.flt with fences := [(d, ⟨false, 0⟩)] } }
/-- One request, a release or a replication of 2 copies, in the queue of the die's reference unit. -/
def refs (copies : Bool) : State := modPool 1 (fun p => { p with refs := [⟨0, copies, 5, 2, 0⟩] }) (granted5 7 2)
/-- A stream whose deadline its path cannot meet. -/
def tight : State := { streams with det := { streams.det with streams := [(0, { strm with cfg := { strmCfg with d := 2600 } })] } }
abbrev tightV : Verdict := admJudge (withPrepared (accepted cmdDetCheck call0 [word 0, word 0] tight))
abbrev noSt (v : Verdict) : Nat := match v with | .no st _ => st | _ => 0
abbrev noBlock (v : Verdict) : List Word := match v with | .no _ b => b | _ => []
theorem isNo_eq (v : Verdict) (h : (match v with | .no _ _ => true | _ => false) = true) : v = .no (noSt v) (noBlock v) := by
  cases v <;> simp_all
/-- An open transaction in slot 0, and one that stages a gate list. -/
def open0 : State := prep {} up
def gates0 : Txn := { ops := [⟨0x0B20, [hw 0x30 0, 0#32, 0#32, 0#32, 0#32, 0#32], 0, []⟩] }
def loadQ : List Word := [word (2 + 2047 * 4 + 1 * 8192), word 2047]
def inTxn : Call := { call0 with txn := txnHandle 0 0 }
/-- The hypotheses of TXN.COMMIT's statement, but for the tide it names. -/
abbrev commits (q : List Word) (x : Txn) : Prop :=
  (match (prep x up).ecs.mbs[0]? with | some b => !b.owned | none => false) = true ∧ served cmdTxnCommit (prep x up) = true
    ∧ refuse cmdTxnCommit call0 q (taken cmdTxnCommit call0 q (prep x up)) = none
    ∧ txnSlot (taken cmdTxnCommit call0 q (prep x up)) (wd q 0) = some (0, x) ∧ x.phase = 0
/-- The hypotheses of a refusal with status st. -/
abbrev refused (k : Cmd) (c : Call) (q : List Word) (s : State) (st : Nat) : Prop :=
  (match s.ecs.mbs[c.mb]? with | some b => !b.owned | none => false) = true ∧ served k s = true ∧ refuse k c q (checked k c q s) = some st
def drydock (f : FlashSt → FlashSt) : State := { up with id := { up.id with lifecycle := 0 }, flash := f up.flash }
/-- A declaration whose D is 1 ns below the fixed path latency of LINE. -/
def tightQ : List Word := [word (7 * 64), word 64, word 1, word 1000000, word 2599, word 0, hw 0x60 0, word (64 + 256)] ++ z 6
def tightSet : List Word := hw 0xB0 0 :: tightQ
def staging : State := prep {} streams

/-! ### Witnesses: the hypotheses of every obligation can be met -/

theorem witness_StepRunsTheFrontCommand :
    State.reset.pending = [] :=
  by decide +kernel

theorem witness_CompletionFillsTheMailbox :
    31 < 32 ∧ (up.ecs.mbs.getD 31 {}).discard = false :=
  by decide +kernel

theorem witness_RefusedCommandsComplete :
    (refused cmdLifecycleKeyRevoke call0 [] (drydock id) stBadLength)
    ∧ (refused cmdLifecycleKeyRevoke inTxn [0#32] (drydock id) stNotPermitted)
    ∧ (refused cmdParserLoad call0 loadQ up stNotPermitted)
    ∧ (refused cmdLifecycleKeyRevoke call0 [0#32] up stNotPermitted
    ∧ gateOk cmdLifecycleKeyRevoke (checked cmdLifecycleKeyRevoke call0 [0#32] up) = false)
    ∧ (refused cmdLifecycleKeyRevoke call0 [0#32] { drydock id with twin := { duo.twin with st := 2 } } stNotActive)
    ∧ (refused cmdParserLoad inTxn loadQ up stTxnUnknown)
    ∧ (∀ u, exec (.parserLoad inTxn loadQ) u = .next (runCommand cmdParserLoad inTxn loadQ u)) := by
  refine ⟨?_,
    ?_,
    ?_,
    ?_,
    ?_,
    ?_,
    fun _ => rfl⟩ <;> decide +kernel

theorem witness_KeyRevokeRevokesOneSlot :
    (((drydock id).ecs.mbs.getD 0 {}).discard = false ∧ Ready cmdLifecycleKeyRevoke call0 [word 3] (drydock id) = true
    ∧ (slotAt (drydock id) 0).key ≠ fld [word 3] 0 1 0 ∧ bit (drydock id).flash.revoked 2 = false)
    ∧ (Ready cmdLifecycleKeyRevoke call0 [word 0] (drydock id) = true
    ∧ (slotAt (drydock id) (drydock id).flash.pref).key = fld [word 0] 0 1 0)
    ∧ (Ready cmdLifecycleKeyRevoke call0 [word 3] (drydock fun f => { f with revoked := 7 }) = true
    ∧ bit (drydock fun f => { f with revoked := 7 }).flash.revoked 3 = false
    ∧ ∀ j < 4, j ≠ 3 → bit (drydock fun f => { f with revoked := 7 }).flash.revoked j = true)
    ∧ (served cmdLifecycleKeyRevoke up = true ∧ up.id.fwState ≠ 2 ∧ call0.src = .mailbox
    ∧ up.id.lifecycle ≠ 0 ∧ (up.ecs.mbs[0]?.map fun b => b.owned) = some false) := by
  decide +kernel

theorem witness_RefusedJtagInstructionIsBypass :
    tapAccepts (up.atTime 0) 4 = false :=
  by decide +kernel

theorem witness_LifecycleStaysLegal :
    LifecycleLegal up ∧ ∃ t, step { up with pending := [.porstNAssert 0] } = .next t :=
  ⟨by unfold LifecycleLegal; decide +kernel, _, rfl⟩

theorem witness_LifecycleMovesAreThoseOfTheTable :
    ∃ t, step { drydock id with pending := [.lifecycleSet call0 [1#32, 0#32]] } = .next t
    ∧ t.id.lifecycle ≠ (drydock id).id.lifecycle :=
  ⟨_, rfl, by decide +kernel⟩

theorem witness_DeadlineBelowTheFixedPathIsUnmet :
    (Ready cmdStreamCreate call0 tightQ streams = true
    ∧ streamRangeOk (accepted cmdStreamCreate call0 tightQ streams) tightQ (streamIn tightQ) = true
    ∧ streamKnown ⟨.direct, 0, 0, 0, false⟩ (accepted cmdStreamCreate call0 tightQ streams) (streamIn tightQ) = true
    ∧ (streamIn tightQ).d < fixedPath (accepted cmdStreamCreate call0 tightQ streams).fwd.profile)
    ∧ (stageReady cmdStreamCreate inTxn tightQ staging 0 {}
    ∧ streamRangeOk (taken cmdStreamCreate inTxn tightQ staging) tightQ (streamIn tightQ) = true
    ∧ streamKnown ⟨.stage, 0, txnHandle 0 0, 0, false⟩ (taken cmdStreamCreate inTxn tightQ staging) (streamIn tightQ) = true
    ∧ (streamIn tightQ).d < fixedPath (taken cmdStreamCreate inTxn tightQ staging).fwd.profile)
    ∧ (Ready cmdStreamSet call0 tightSet streams = true
    ∧ (streamAt (accepted cmdStreamSet call0 tightSet streams) (wd tightSet 0)).isSome = true
    ∧ streamRangeOk (accepted cmdStreamSet call0 tightSet streams) (tightSet.drop 1) (streamIn (tightSet.drop 1)) = true
    ∧ streamKnown ⟨.direct, 0, 0, 0, false⟩ (accepted cmdStreamSet call0 tightSet streams) (streamIn (tightSet.drop 1)) = true
    ∧ (streamIn (tightSet.drop 1)).d < fixedPath (accepted cmdStreamSet call0 tightSet streams).fwd.profile)
    ∧ (stageReady cmdStreamSet inTxn tightSet staging 0 {}
    ∧ (streamAt (taken cmdStreamSet inTxn tightSet staging) (wd tightSet 0)).isSome = true
    ∧ streamRangeOk (taken cmdStreamSet inTxn tightSet staging) (tightSet.drop 1) (streamIn (tightSet.drop 1)) = true
    ∧ streamKnown ⟨.stage, 0, txnHandle 0 0, 0, false⟩ (taken cmdStreamSet inTxn tightSet staging) (streamIn (tightSet.drop 1)) = true
    ∧ (streamIn (tightSet.drop 1)).d < fixedPath (taken cmdStreamSet inTxn tightSet staging).fwd.profile) := by
  refine ⟨?_,
    ⟨⟨⟨_, rfl, by decide +kernel⟩, by decide +kernel, by decide +kernel, by decide +kernel, by decide +kernel, by decide +kernel⟩, by decide +kernel,
    by decide +kernel, by decide +kernel⟩,
    ?_,
    ⟨⟨⟨_, rfl, by decide +kernel⟩, by decide +kernel, by decide +kernel, by decide +kernel, by decide +kernel, by decide +kernel⟩, by decide +kernel,
    by decide +kernel, by decide +kernel, by decide +kernel⟩⟩ <;> decide +kernel

theorem witness_DeviceAndTxnCommandsComplete :
    (met cmdDeviceInfo (fun _ _ _ => True) (call0) ([]) (up))
    ∧ (met cmdDeviceMailboxSet (fun c q _ => c.mb = 0 ∧ fld q 0 4 0 ≠ 0 ∧ bit (wd q 1) 0 = false ∧ wd q 1 < 2 ^ 22) (call0) ([word 31, word 0x003FFFFE, word 1]) (up))
    ∧ (met cmdDeviceMailboxGet (fun _ q _ => fld q 0 4 0 ≠ 0) (call0) ([word 31]) (up))
    ∧ (met cmdDeviceEcho (fun _ _ _ => True) (call0) ([]) (up))
    ∧ (∃ i h x, met cmdTxnBegin (fun _ _ u => ((List.range 8).find? fun i => (txnAt u i).isNone) = some i ∧ txnAt (openTxn i u) i = some (h, x)) (call0) ([]) (up))
    ∧ (met cmdTxnRollback (fun _ q u => ∃ i x, txnSlot u (wd q 0) = some (i, x) ∧ x.phase = 0) (call0) ([hw 0x20 0]) (openTxn 0 up))
    ∧ (∃ i x, met cmdTxnStatus (fun _ q u => txnSlot u (wd q 0) = some (i, x)) (call0) ([hw 0x20 0]) (openTxn 0 up))
    ∧ (met cmdTxnList (fun _ _ _ => True) (call0) ([]) (up)) := by
  refine ⟨?_,
    ?_,
    ?_,
    ?_,
    ⟨0, _, _, ?_, ?_, rfl⟩,
    ⟨?_, 0, _, rfl, ?_⟩,
    ⟨_, _, ?_, rfl⟩,
    ?_⟩ <;> decide +kernel

theorem witness_ParserLoadIsStaged :
    stageReady cmdParserLoad inTxn loadQ open0 0 {} ∧ fld loadQ 0 1 0 ≠ 3
    ∧ fld loadQ 0 12 2 + fld loadQ 0 22 13 ≤ parserSize (fld loadQ 0 1 0)
    ∧ ∀ j < fld loadQ 0 22 13, parserEntryOk (fld loadQ 0 1 0)
        (wordsAt loadQ (1 + j * parserWords (fld loadQ 0 1 0)) (parserWords (fld loadQ 0 1 0))) = true :=
  ⟨⟨⟨_, rfl, by decide +kernel⟩, by decide +kernel, by decide +kernel, by decide +kernel, by decide +kernel, by decide +kernel⟩, by decide +kernel, by decide +kernel,
    by decide +kernel⟩

theorem witness_TxnCommitBeginsPreparation :
    (commits [word (txnHandle 0 0), 1#32, word 3, 0#32] {}
    ∧ up.tm.tide + 2 < wd64 [word (txnHandle 0 0), 1#32, word 3, 0#32] 2)
    ∧ (commits [word (txnHandle 0 0), 0#32] {} ∧ stagesGates {} = false)
    ∧ (commits [word (txnHandle 0 0), 0#32] gates0 ∧ stagesGates gates0 = true) := by
  decide +kernel

theorem witness_PortCommandsComplete_1 :
    (∃ mode n rate fecs x fec, metA cmdPortCreate (fun _ => (fun q u =>
        let p := fld q 0 5 0
        let y : Port := { mode := mode, fec := fec, training := flag q 0 16, cfg := portCfgOf q, conds := allFailed fec }
        ecmpUpdate (portNodePut p (ethSpeed mode * 1000000) (parseReset p (twinPortNew p { u with
          line := { u.line with ports := tset u.line.ports p y }
          ctr := u.ctr.filter fun e => e.1 / 1024 != 2 ^ 32 + p
          snap := u.snap.filter fun e => e.1 / 1024 != 2 ^ 32 + p }))))) (fun _ q u => fld q 0 11 8 = mode ∧ ethMode mode = some (n, rate, fecs, x) ∧ fec = (if fld q 0 15 12 = 0xF then fecs.headD 0 else fld q 0 15 12) ∧ fecs.contains fec = true ∧ portCfgOk (portCfgOf q) = true ∧ laneFree (laneUses u) (fld q 0 5 0) n rate = true) (call0) ([word (63 + 9 * 256 + 0xF * 4096), word 9216, word 0, word 800, word 0]) (up))
    ∧ (∃ y, metA cmdPortDelete (fun _ => (fun q u =>
        let p := hIdx (wd q 0)
        let v := dropSas p (dropPortFrames p (modPort p (fun y => { y with inService := false, pendEn := none }) u))
        ecmpUpdate (protUpdate { v with line := { v.line with ports := terase v.line.ports p } }))) (fun _ q u => portOf u (wd q 0) = some y) (call0) ([hw 0x30 63]) (onLine))
    ∧ (∃ y, metA cmdPortEnable (fun _ => (fun q u => modPort (hIdx (wd q 0)) (fun y => { y with pendEn := some true }) u)) (fun _ q u => portOf u (wd q 0) = some y ∧ y.loop = 0) (call0) ([hw 0x30 0]) (onLine))
    ∧ (∃ y, metA cmdPortDisable (fun _ => (fun q u => modPort (hIdx (wd q 0)) (fun y => { y with pendEn := some false }) u)) (fun _ q u => portOf u (wd q 0) = some y) (call0) ([hw 0x30 63]) (onLine))
    ∧ (∃ y, metA cmdPortSet (fun _ => (fun q u => modPort (hIdx (wd q 0)) (fun y => { y with pendCfg := some (portCfgOf q) }) u)) (fun _ q u => portOf u (wd q 0) = some y ∧ portCfgOk (portCfgOf q) = true) (call0) ([hw 0x30 0, word 16000, word 800, word 80000, word 0]) (onLine))
    ∧ (∃ y, met cmdPortFilterSet (fun _ q u => portOf u (wd q 0) = some y) (call0) ([hw 0x30 0, word 7, word 0, word 0]) (onLine))
    ∧ (∃ y, met cmdPortStatus (fun _ q u => portOf u (wd q 0) = some y) (call0) ([hw 0x30 63]) (onLine))
    ∧ (∃ y, met cmdPortCounters (fun _ q u => portOf u (wd q 0) = some y) (call0) ([hw 0x30 0, word 0]) (onLine)) := by
  refine ⟨⟨_, _, _, _, _, _, ?_, ?_, rfl, rfl, rfl, ?_⟩,
    ⟨_, ?_, ?_, rfl⟩,
    ⟨_, ?_, ?_, rfl, ?_⟩,
    ⟨_, ?_, ?_, rfl⟩,
    ⟨_, ?_, ?_, rfl, ?_⟩,
    ⟨_, ?_, rfl⟩,
    ⟨_, ?_, rfl⟩,
    ⟨_, ?_, rfl⟩⟩ <;> decide +kernel

theorem witness_PortCommandsComplete_2 :
    (∃ y, metA cmdPortLoopback (fun _ => (fun q u => modPort (hIdx (wd q 0)) (fun y => { y with loop := 0 }) u)) (fun _ q u => portOf u (wd q 0) = some y ∧ fld q 1 1 0 = 0) (call0) ([hw 0x30 63, word 0]) (onLine))
    ∧ (∃ y, metA cmdPortLoopback (fun _ => (fun q u => modPort (hIdx (wd q 0)) (fun y => { y with loop := fld q 1 1 0 })
        (if y.loop = fld q 1 1 0 then u else outOfService (hIdx (wd q 0)) 1 u))) (fun _ q u => portOf u (wd q 0) = some y ∧ (fld q 1 1 0 = 1 ∨ fld q 1 1 0 = 2)) (call0) ([hw 0x30 63, word 1]) (onLine))
    ∧ (∃ y, metA cmdPortLoopback ((fun _ q u => (modPort (hIdx (wd q 0)) (fun y => { y with loop := 3, prbs13 := flag q 1 2 })
        (if y.loop = 3 ∧ y.prbs13 = flag q 1 2 then u else outOfService (hIdx (wd q 0)) 2 u)).took)) (fun _ q u => portOf u (wd q 0) = some y ∧ fld q 1 1 0 = 3) (call0) ([hw 0x30 63, word 3]) (onLine))
    ∧ (∃ old, met cmdLaneSet (fun _ q u => u.line.lanes[wd q 0]? = some old ∧ (fld q 1 6 4 = old.phys ∨ (laneUses u).any (fun x => x.port / 8 == wd q 0 / 8) = false)) (call0) ([word 159, word (7 * 16), word 0]) (onLine)) := by
  refine ⟨⟨_, ?_, ?_, rfl, ?_⟩,
    ⟨_, ?_, ?_, rfl, ?_⟩,
    ⟨_, ?_, ?_, rfl, ?_⟩,
    ⟨_, ?_, rfl, ?_⟩⟩ <;> decide +kernel

theorem witness_MacsecCommandsComplete :
    (∃ y, metA cmdMacsecSecySet (fun _ => (fun q u =>
        let x : SecY := {
          cipher := fld q 1 1 0, confOff := fld q 1 3 2, integ := flag q 1 4, sciIn := flag q 1 5
          validate := fld q 1 7 6, replay := flag q 1 8, window := wd q 2
          txSci := if flag q 1 9 then (y.filter.getD 0 (0, false)).1 * 65536 + 1 else wd64 q 3, pnThr := wd64 q 5
          bypass := [(fld q 7 15 0, flag q 9 0), (fld q 7 31 16, flag q 9 1), (fld q 8 15 0, flag q 9 2), (fld q 8 31 16, flag q 9 3)] }
        modPort (hIdx (wd q 0)) (fun y => { y with secY := x }) u)) (fun _ q u => portOf u (wd q 0) = some y ∧ fld q 1 1 0 ≠ 3 ∧ fld q 1 3 2 ≠ 3 ∧ fld q 1 7 6 ≠ 3 ∧ wd64 q 5 ≠ 0 ∧ (fld q 1 1 0 = 2 → wd q 2 ≤ 2 ^ 30) ∧ (fld q 1 1 0 ≠ 2 → wd q 6 = 0) ∧ (fld q 1 1 0 = y.secY.cipher ∨ hasSa (hIdx (wd q 0)) u = false) ∧ (fld q 1 1 0 = 0 ∨ flag q 1 9 = false ∨ (y.filter.getD 0 (0, false)).1 ≠ 0)) (call0) ([hw 0x30 0, word 0, word 0, word 0, word 0, word 1] ++ z 12) (onLine))
    ∧ (∃ y, met cmdMacsecSaInstall (fun _ q u => portOf u (wd q 0) = some y ∧ thas u.line.sas (saIndex (hIdx (wd q 0)) (flag q 1 0) (if flag q 1 0 then 0 else fld q 1 11 8) (fld q 1 2 1)) = false) (call0) ([hw 0x30 0, word 2] ++ z 20) (onLine))
    ∧ (∃ sa, met cmdMacsecSaActivate (fun _ q u => saOf u (wd q 0) = some sa ∧ bit (hIdx (wd q 0)) 7 = true ∧ (u.twin.st ≤ 1 ∨ u.twin.dMode = true)) (call0) ([hw 0x31 128]) (onLine))
    ∧ (∃ sa, met cmdMacsecSaDelete (fun _ q u => saOf u (wd q 0) = some sa ∧ ∀ y, tget u.line.ports (hIdx (wd q 0) / 256) = some y → (bit (hIdx (wd q 0)) 7 = false ∨ y.activeTx ≠ some (hIdx (wd q 0) % 4))) (call0) ([hw 0x31 0]) (onLine))
    ∧ (∃ y, met cmdMacsecCounters (fun _ q u => portOf u (wd q 0) = some y) (call0) ([hw 0x30 0, word 0]) (onLine))
    ∧ (∃ sa, met cmdMacsecCounters (fun _ q u => portOf u (wd q 0) = none ∧ saOf u (wd q 0) = some sa) (call0) ([hw 0x31 128, word 0]) (onLine)) := by
  refine ⟨⟨_, ?_, ?_, rfl, ?_⟩,
    ⟨_, ?_, rfl, ?_⟩,
    ⟨_, ?_, rfl, ?_⟩,
    ⟨_, ?_, rfl, ?_⟩,
    ⟨_, ?_, rfl⟩,
    ⟨_, ?_, ?_, rfl⟩⟩ <;> decide +kernel

theorem witness_TransportPortCommandsComplete :
    (∃ n rate sl stm, metA cmdTportCreate (fun _ => (fun q u =>
        let y : TPort := { mode := fld q 0 15 8, loopTiming := flag q 0 16, s1 := fld q 1 7 0 }
        portNodePut (fld q 0 5 0) (Config.tportRate (fld q 0 15 8)) (parseReset (fld q 0 5 0) (twinPortNew (fld q 0 5 0)
          { u with tr := { u.tr with ports := tset u.tr.ports (fld q 0 5 0) y } })))) (fun _ q u => tpMode (fld q 0 15 8) = some (n, rate, sl, stm) ∧ laneFree (laneUses u) (fld q 0 5 0) n rate = true ∧ otucSum u + sl ≤ 32 ∧ stmSum u + stm ≤ 256) (call0) ([word (62 + 0x20 * 256), word 0]) (transport))
    ∧ (∃ y, metA cmdTportDelete (fun _ => (fun q u => { u with tr := { u.tr with ports := terase u.tr.ports (hIdx (wd q 0)) } })) (fun _ q u => hType (wd q 0) = 0x32 ∧ tget u.tr.ports (hIdx (wd q 0)) = some y ∧ inGroup u (handle 0x32 (hIdx (wd q 0))) = false ∧ childrenOf u (handle 0x32 (hIdx (wd q 0))) = []) (call0) ([hw 0x32 63]) (transport))
    ∧ (∃ y, metA cmdTportEnable (fun _ => (fun q u => modTport (hIdx (wd q 0)) (fun y => { y with pendEn := some true }) u)) (fun _ q u => hType (wd q 0) = 0x32 ∧ tget u.tr.ports (hIdx (wd q 0)) = some y) (call0) ([hw 0x32 0]) (transport))
    ∧ (∃ y, metA cmdTportDisable (fun _ => (fun q u => modTport (hIdx (wd q 0)) (fun y => { y with pendEn := some false }) u)) (fun _ q u => hType (wd q 0) = 0x32 ∧ tget u.tr.ports (hIdx (wd q 0)) = some y) (call0) ([hw 0x32 16]) (transport)) := by
  refine ⟨⟨_, _, _, _, ?_, ?_, rfl, ?_⟩,
    ⟨_, ?_, ?_, ?_, rfl, ?_⟩,
    ⟨_, ?_, ?_, ?_, rfl⟩,
    ⟨_, ?_, ?_, ?_, rfl⟩⟩ <;> decide +kernel

theorem witness_TransportPathCommandsComplete :
    (∃ v i, met cmdOduCreate (fun _ q u => (hType (wd q 0) = 0x32 ∨ hType (wd q 0) = 0x40) ∧ objExists u (wd q 0) = true ∧ fld q 1 3 0 ≤ 6 ∧ fld q 1 7 4 ≤ 3 ∧ (fld q 1 7 4 = 0 ∨ termKind (fld q 1 7 4) = some (fld q 1 3 0)) ∧ 1 ≤ fld q 1 16 8 ∧ fld q 1 16 8 ≤ 320 ∧ popCount (slotBits q) 320 = fld q 1 16 8 ∧ oduServer u (wd q 0) (fld q 1 3 0) = some v ∧ v.kinds.contains (fld q 1 3 0) = true ∧ v.depth ≤ 2 ∧ slotBits q < 2 ^ v.slots ∧ (u.tr.odus.any fun e => e.2.server == wd q 0 && Nat.land e.2.slots (slotBits q) != 0) = false ∧ stmSum u + termStm (fld q 1 7 4) ≤ 256 ∧ lowestFreeBut u.tr.odus (reservedIdx u 0x40) 4096 = some i) (call0) ([hw 0x32 16, word 256, word 2] ++ z 13) (transport))
    ∧ (∃ v i ci, met cmdOduCreate (fun _ q u => (hType (wd q 0) = 0x32 ∨ hType (wd q 0) = 0x40) ∧ objExists u (wd q 0) = true ∧ fld q 1 3 0 ≤ 6 ∧ 4 ≤ fld q 1 7 4 ∧ termKind (fld q 1 7 4) = some (fld q 1 3 0) ∧ 1 ≤ fld q 1 16 8 ∧ fld q 1 16 8 ≤ (if fld q 1 7 4 = 7 then 80 else 320) ∧ popCount (slotBits q) 320 = fld q 1 16 8 ∧ oduServer u (wd q 0) (fld q 1 3 0) = some v ∧ v.kinds.contains (fld q 1 3 0) = true ∧ v.depth ≤ 2 ∧ slotBits q < 2 ^ v.slots ∧ (u.tr.odus.any fun e => e.2.server == wd q 0 && Nat.land e.2.slots (slotBits q) != 0) = false ∧ stmSum u + termStm (fld q 1 7 4) ≤ 256 ∧ lowestFreeBut u.tr.odus (reservedIdx u 0x40) 4096 = some i ∧ lowestFreeBut u.tr.clients (reservedIdx u 0x43) 256 = some ci ∧ clientNodeFree (oduPort u 5 (wd q 0)) u = true) (call0) ([hw 0x32 16, word (6 + 16 * 6 + 256 * 1), word 2] ++ z 13) (transport))
    ∧ (∃ o, met cmdOduDelete (fun _ q u => hType (wd q 0) = 0x40 ∧ tget u.tr.odus (hIdx (wd q 0)) = some o ∧ o.client = none ∧ childrenOf u (wd q 0) = [] ∧ inGroup u (wd q 0) = false ∧ boundCircuit u (wd q 0) = false) (call0) ([hw 0x40 0]) (transport))
    ∧ (∃ o ci, met cmdOduDelete (fun _ q u => hType (wd q 0) = 0x40 ∧ tget u.tr.odus (hIdx (wd q 0)) = some o ∧ o.client = some ci ∧ childrenOf u (wd q 0) = [] ∧ inGroup u (wd q 0) = false ∧ boundCircuit u (wd q 0) = false) (call0) ([hw 0x40 1]) (transport))
    ∧ (∃ i, met cmdSdhPathCreate (fun _ q u => (hType (wd q 0) = 0x32 ∨ hType (wd q 0) = 0x40) ∧ objExists u (wd q 0) = true ∧ ((fld q 1 1 0 = 0 ∧ fld q 1 11 2 < stmOf u (wd q 0) ∧ (u.tr.paths.any fun e => e.2.server == wd q 0 && ((e.2.kind == 0 && e.2.au == fld q 1 11 2) || (e.2.kind == 1 && e.2.au / 3 == fld q 1 11 2))) = false) ∨ (fld q 1 1 0 = 1 ∧ fld q 1 11 2 < 3 * stmOf u (wd q 0) ∧ (u.tr.paths.any fun e => e.2.server == wd q 0 && ((e.2.kind == 1 && e.2.au == fld q 1 11 2) || (e.2.kind == 0 && e.2.au == fld q 1 11 2 / 3))) = false)) ∧ lowestFreeBut u.tr.paths (reservedIdx u 0x41) (2 ^ 24) = some i) (call0) ([hw 0x32 8, word (15 * 4), word 0]) (transport))
    ∧ (∃ i ph y, met cmdSdhPathCreate (fun _ q u => (hType (wd q 0) = 0x32 ∨ hType (wd q 0) = 0x40 ∨ hType (wd q 0) = 0x41) ∧ objExists u (wd q 0) = true ∧ fld q 1 1 0 = 2 ∧ fld q 1 16 12 ≤ 20 ∧ fld q 1 18 17 ≤ 2 ∧ vc12Server u (wd q 0) (fld q 1 11 2) = some (ph, y) ∧ (y.kind = 1 → fld q 1 18 17 = 0) ∧ (u.tr.paths.any fun e => e.2.server == ph && e.2.kind == 2 && e.2.tu12 == fld q 1 16 12 && e.2.tug3 == fld q 1 18 17) = false ∧ lowestFreeBut u.tr.paths (reservedIdx u 0x41) (2 ^ 24) = some i) (call0) ([hw 0x41 0, word (2 + 20 * 4096 + 2 * 131072), word 0]) (transport))
    ∧ (∃ y, met cmdSdhPathDelete (fun _ q u => hType (wd q 0) = 0x41 ∧ tget u.tr.paths (hIdx (wd q 0)) = some y ∧ childrenOf u (wd q 0) = [] ∧ inGroup u (wd q 0) = false ∧ boundCircuit u (wd q 0) = false) (call0) ([hw 0x41 1]) (transport)) := by
  refine ⟨⟨_, _, ?_, ?_, ?_, ?_, ?_, ?_, ?_, ?_, ?_, rfl, ?_, ?_, ?_, ?_, ?_, rfl⟩,
    ⟨_, _, _, ?_, ?_, ?_, ?_, ?_, ?_, ?_, ?_, ?_, rfl, ?_, ?_, ?_, ?_, ?_, rfl, rfl, ?_⟩,
    ⟨_, ?_, ?_, rfl, ?_⟩,
    ⟨_, _, ?_, ?_, rfl, rfl, ?_⟩,
    ⟨_, ?_, ?_, ?_, ?_, rfl⟩,
    ⟨_, _, _, ?_, ?_, ?_, ?_, ?_, ?_, rfl, ?_, ?_, rfl⟩,
    ⟨_, ?_, ?_, rfl, ?_⟩⟩ <;> decide +kernel

theorem witness_SupervisionCommandsComplete :
    (∃ m, met cmdTraceSet (fun _ q u => hType (wd q 0) ≠ 0x44 ∧ monOf u (wd q 0) = some m ∧ traceOk u (wd q 0) (fld q 1 1 0) (fld q 1 4 2) = true ∧ fld q 1 23 7 ≤ 80000) (call0) ([hw 0x32 0, word (4 * 4 + 80000 * 128)] ++ z 40) (transport))
    ∧ (∃ m, met cmdTraceGet (fun _ q u => hType (wd q 0) ≠ 0x44 ∧ monOf u (wd q 0) = some m) (call0) ([hw 0x32 16]) (transport))
    ∧ (∃ m, met cmdMonSet (fun _ q u => hType (wd q 0) ≠ 0x44 ∧ monOf u (wd q 0) = some m ∧ isSdhObj u (wd q 0) = true ∧ 3 ≤ fld q 1 14 12 ∧ fld q 1 14 12 ≤ 5 ∧ 5 ≤ fld q 1 19 16 ∧ fld q 1 19 16 ≤ 9) (call0) ([hw 0x41 1, word (5 * 4096 + 9 * 65536)]) (transport))
    ∧ (∃ m, met cmdMonSet (fun _ q u => hType (wd q 0) ≠ 0x44 ∧ monOf u (wd q 0) = some m ∧ isSdhObj u (wd q 0) = false ∧ 1 ≤ fld q 1 6 0 ∧ fld q 1 6 0 ≤ 100 ∧ 2 ≤ fld q 1 11 8 ∧ fld q 1 11 8 ≤ 10) (call0) ([hw 0x40 0, word (100 + 10 * 256)]) (transport))
    ∧ (∃ m, met cmdDefectStatus (fun _ q u => hType (wd q 0) ≠ 0x44 ∧ monOf u (wd q 0) = some m) (call0) ([hw 0x41 0]) (transport))
    ∧ (∃ m, met cmdPmRead (fun _ q u => hType (wd q 0) ≠ 0x44 ∧ monOf u (wd q 0) = some m ∧ 1 ≤ fld q 3 9 0 ∧ fld q 3 9 0 ≤ 112 ∧ ∃ r ∈ m.recs, wd64 q 1 ≤ r.first) (call0) ([hw 0x32 0, word 8000, word 0, word 112]) (transport)) := by
  refine ⟨⟨_, ?_, ?_, rfl, ?_⟩,
    ⟨_, ?_, ?_, rfl⟩,
    ⟨_, ?_, ?_, rfl, ?_⟩,
    ⟨_, ?_, ?_, rfl, ?_⟩,
    ⟨_, ?_, ?_, rfl⟩,
    ⟨_, ?_, ?_, rfl, ?_⟩⟩ <;> decide +kernel

theorem witness_ProtectionCommandsComplete :
    (∃ i, met cmdProtCreate (fun _ q u => 1 ≤ fld q 0 3 0 ∧ fld q 0 3 0 ≤ 4 ∧ (flag q 0 4 = true → fld q 0 3 0 = 2) ∧ wd q 3 = 0 ∧ wd q 4 = 0 ∧ fld q 5 16 0 ≤ 80000 ∧ fld q 6 22 0 ≤ 5760000 ∧ objExists u (wd q 1) = true ∧ objExists u (wd q 2) = true ∧ hType (wd q 1) = memberType (fld q 0 3 0) ∧ hType (wd q 2) = memberType (fld q 0 3 0) ∧ wd q 1 ≠ wd q 2 ∧ inGroup u (wd q 1) = false ∧ inGroup u (wd q 2) = false ∧ membersEqual u (fld q 0 3 0) (wd q 1) (wd q 2) = true ∧ lowestFreeBut u.tr.groups (reservedIdx u 0x42) 4096 = some i) (call0) ([word 1, hw 0x40 0, hw 0x40 2, word 0, word 0, word 80000, word 5760000]) (transport))
    ∧ (∃ i, met cmdProtCreate (fun _ q u => fld q 0 3 0 = 5 ∧ flag q 0 4 = false ∧ fld q 5 16 0 ≤ 80000 ∧ fld q 6 22 0 ≤ 5760000 ∧ (hType (wd q 1) = 0x60 ∨ hType (wd q 1) = 0x61) ∧ (hType (wd q 2) = 0x60 ∨ hType (wd q 2) = 0x61) ∧ (hType (wd q 3) = 0x30 ∨ hType (wd q 3) = 0x40) ∧ (hType (wd q 4) = 0x30 ∨ hType (wd q 4) = 0x40) ∧ objExists u (wd q 1) = true ∧ objExists u (wd q 2) = true ∧ objExists u (wd q 3) = true ∧ objExists u (wd q 4) = true ∧ wd q 1 ≠ wd q 2 ∧ inGroup u (wd q 1) = false ∧ inGroup u (wd q 2) = false ∧ lowestFreeBut u.tr.groups (reservedIdx u 0x42) 4096 = some i) (call0) ([word 5, hw 0x60 0, hw 0x60 1, hw 0x40 0, hw 0x40 2, word 80000, word 5760000]) ({ transport with fwd := { cfg := { nhs := [(0, nh0), (1, nh0)] } } }))
    ∧ (∃ g, met cmdProtDelete (fun _ q u => hType (wd q 0) = 0x42 ∧ tget u.tr.groups (hIdx (wd q 0)) = some g) (call0) ([hw 0x42 4095]) (transport))
    ∧ (∃ g, met cmdProtRequest (fun _ q u => hType (wd q 0) = 0x42 ∧ tget u.tr.groups (hIdx (wd q 0)) = some g ∧ 1 ≤ fld q 1 2 0 ∧ fld q 1 2 0 ≤ 5 ∧ (fld q 1 2 0 = 5 → g.ty = 2 ∧ g.bidir = true) ∧ requestRank (fld q 1 2 0) ≤ (topRequest g).1) (call0) ([hw 0x42 4094, word 5]) (transport))
    ∧ (∃ g, met cmdProtRequest (fun _ q u => hType (wd q 0) = 0x42 ∧ tget u.tr.groups (hIdx (wd q 0)) = some g ∧ fld q 1 2 0 = 0) (call0) ([hw 0x42 4095, word 0]) (transport))
    ∧ (∃ g, met cmdProtStatus (fun _ q u => hType (wd q 0) = 0x42 ∧ tget u.tr.groups (hIdx (wd q 0)) = some g) (call0) ([hw 0x42 4095]) (transport)) := by
  refine ⟨⟨0, ?_⟩,
    ⟨0, ?_⟩,
    ⟨_, ?_, ?_, rfl⟩,
    ⟨_, ?_, ?_, rfl, ?_⟩,
    ⟨_, ?_, ?_, rfl, ?_⟩,
    ⟨_, ?_, ?_, rfl⟩⟩ <;> decide +kernel

theorem witness_CircuitCommandsComplete :
    (∃ i, met cmdCircuitCreate (fun _ q u => circuitCfgOk (circuitCfgOf q) = true ∧ hType (wd q 4) = 0x60 ∧ objExists u (wd q 4) = true ∧ (hwd q 0 = 0 ∨ (objExists u (hwd q 0) = true ∧ bindable u (hwd q 0) = true ∧ boundCircuit u (hwd q 0) = false)) ∧ lowestFreeBut u.circuits (reservedIdx u 0x50) 16384 = some i) (call0) ([word 0, word 0, word 0, word 16, hw 0x60 0, word 65536, word 0, word 96]) (circ))
    ∧ (∃ y, met cmdCircuitDelete (fun _ q u => hType (wd q 0) = 0x50 ∧ tget u.circuits (hIdx (wd q 0)) = some y) (call0) ([hw 0x50 16383]) (circ))
    ∧ (∃ y, met cmdCircuitEnable (fun _ q u => hType (wd q 0) = 0x50 ∧ tget u.circuits (hIdx (wd q 0)) = some y) (call0) ([hw 0x50 0]) (circ))
    ∧ (∃ y, met cmdCircuitDisable (fun _ q u => hType (wd q 0) = 0x50 ∧ tget u.circuits (hIdx (wd q 0)) = some y) (call0) ([hw 0x50 16383]) (circ))
    ∧ (∃ y, met cmdCircuitSet (fun _ q u => hType (wd q 0) = 0x50 ∧ tget u.circuits (hIdx (wd q 0)) = some y ∧ circuitCfgOk (circuitCfgOf q) = true ∧ hType (wd q 4) = 0x60 ∧ objExists u (wd q 4) = true ∧ (y.enabled = true → flag q 1 0 = y.cfg.cesop ∧ fld q 1 2 1 = y.cfg.timing ∧ fld q 1 10 5 + 1 = y.cfg.n ∧ fld q 1 16 11 + 1 = y.cfg.c ∧ fld q 1 22 17 + 1 = y.cfg.f ∧ wd q 2 = y.cfg.slots)) (call0) ([hw 0x50 16383, word 0, word 0, word 16, hw 0x60 0, word 65536, word 0, word 96]) (circ))
    ∧ (∃ y, met cmdCircuitStatus (fun _ q u => hType (wd q 0) = 0x50 ∧ tget u.circuits (hIdx (wd q 0)) = some y) (call0) ([hw 0x50 0]) (circ))
    ∧ (∃ y, met cmdCircuitCounters (fun _ q u => hType (wd q 0) = 0x50 ∧ tget u.circuits (hIdx (wd q 0)) = some y) (call0) ([hw 0x50 0, word 0]) (circ))
    ∧ (∃ y, met cmdCircuitPmRead (fun _ q u => hType (wd q 0) = 0x50 ∧ tget u.circuits (hIdx (wd q 0)) = some y ∧ 1 ≤ fld q 3 9 0 ∧ fld q 3 9 0 ≤ 112 ∧ ∃ r ∈ y.recs, wd64 q 1 ≤ r.first) (call0) ([hw 0x50 0, word 8000, word 0, word 112]) (circ)) := by
  refine ⟨⟨_, ?_, ?_, ?_, ?_, ?_, rfl⟩,
    ⟨_, ?_, ?_, rfl⟩,
    ⟨_, ?_, ?_, rfl⟩,
    ⟨_, ?_, ?_, rfl⟩,
    ⟨_, ?_, ?_, rfl, ?_⟩,
    ⟨_, ?_, ?_, rfl⟩,
    ⟨_, ?_, ?_, rfl⟩,
    ⟨_, ?_, ?_, rfl, ?_⟩⟩ <;> decide +kernel

theorem witness_ParserAndLookupCommandsComplete :
    (metA cmdProfileSet (fun _ => (fun q u => raise 6 1 mpcUnit (pay [(u.fwd.profile, 1), (fld q 0 1 0, 1)]) (modLearn (fun l => { l with slots := [], queue := [] })
      (modFwd (fun w => { w with profile := fld q 0 1 0 }) (discardTables (fld q 0 1 0) (discardTxns 3 u)))))) (fun _ q u => fld q 0 1 0 ≠ 3 ∧ fld q 0 1 0 ≠ u.fwd.profile ∧ portsOff u = true ∧ drained u = true ∧ (∀ e ∈ txns u, e.2.phase = 0) ∧ ∀ e ∈ u.tab.dill, e.2.base + 2 ^ e.2.k ≤ bucketsMax (fld q 0 1 0)) (call0) ([word 2]) (up))
    ∧ (metA cmdProfileSet (fun _ => (fun _ u => u)) (fun _ q u => fld q 0 1 0 ≠ 3 ∧ fld q 0 1 0 = u.fwd.profile ∧ portsOff u = true ∧ drained u = true ∧ ∀ e ∈ txns u, e.2.phase = 0) (call0) ([word 0]) (up))
    ∧ (met cmdProfileGet (fun _ _ _ => True) (call0) ([]) (up))
    ∧ (∃ k, met cmdParserPortSet (fun _ q u => parseSource u (wd q 0) = some k ∧ fld q 1 9 8 ≠ 3) (call0) ([hw 0x30 63, word 0, word 0]) (onLine))
    ∧ (met cmdIfSet (fun _ q _ => hType (wd q 0) = 0x64 ∧ hIdx (wd q 0) < 262400) (call0) ([hw 0x64 262399] ++ z 3) (up))
    ∧ (met cmdLkpKeySet (fun _ q u => hType (wd q 0) = 0x66 ∧ hIdx (wd q 0) < 256 ∧ keySetOk (selectorsOf q) = true ∧ ∀ e ∈ u.fwd.cfg.progs, namesKey e.2 (hIdx (wd q 0)) = true → progOk u { u.fwd.cfg with keys := tset u.fwd.cfg.keys (hIdx (wd q 0)) (selectorsOf q) } e.2 = true) (call0) ([hw 0x66 255, word 1, word 0]) (up))
    ∧ (met cmdLkpProgramSet (fun _ q u => hType (wd q 0) = 0x65 ∧ hIdx (wd q 0) < 4096 ∧ (hType (wd q 5) = 0x70 ∨ wd q 5 % 16 ≤ 4) ∧ reservedNamed u (progOf q (tgetD u.fwd.cfg.progs (hIdx (wd q 0)) {}).learn) = false ∧ progUnknown u (progOf q (tgetD u.fwd.cfg.progs (hIdx (wd q 0)) {}).learn) = false ∧ progOk u u.fwd.cfg (progOf q (tgetD u.fwd.cfg.progs (hIdx (wd q 0)) {}).learn) = true) (call0) ([hw 0x65 4095] ++ z 7) (up)) := by
  refine ⟨?_,
    ?_,
    ?_,
    ⟨_, ?_, rfl, ?_⟩,
    ?_⟩ <;> decide +kernel

theorem witness_NextHopAndEcmpCommandsComplete_1 :
    (∃ i, met cmdNhCreate (fun _ q u => (hType (wd q 2) = 0 ∨ (hType (wd q 2) = 0x63 ∧ objExists u (wd q 2) = true)) ∧ lowestFreeBut u.fwd.cfg.nhs (reservedIdx u 0x60) 1048576 = some i) (call0) (z 7) (fwd))
    ∧ (metA cmdNhSet (fun _ => (fun q u => ecmpUpdate (setCfg false (fun c => { c with
        nhs := tmodify c.nhs (hIdx (wd q 0)) fun old => nhOf q old.dsp 1 }) u))) (fun _ q u => hType (wd q 0) = 0x60 ∧ objExists u (wd q 0) = true ∧ (hType (wd q 2) = 0 ∨ (hType (wd q 2) = 0x63 ∧ objExists u (wd q 2) = true))) (call0) ([hw 0x60 1] ++ z 7) (fwd))
    ∧ (metA cmdNhDelete (fun _ => (fun q u => setCfg false (fun c => { c with nhs := terase c.nhs (hIdx (wd q 0)) }) u)) (fun _ q u => hType (wd q 0) = 0x60 ∧ objExists u (wd q 0) = true ∧ hopNamed u (wd q 0) = false) (call0) ([hw 0x60 1]) (fwd))
    ∧ (∃ i, met cmdEncapCreate (fun _ q u => encapKindOk q = true ∧ lowestFreeBut u.fwd.cfg.encaps (reservedIdx u 0x63) 262144 = some i) (call0) ([word (1 + 12 * 16)] ++ z 16) (fwd))
    ∧ (met cmdEncapDelete (fun _ q u => hType (wd q 0) = 0x63 ∧ objExists u (wd q 0) = true ∧ hopNamed u (wd q 0) = false) (call0) ([hw 0x63 0]) (fwd))
    ∧ (∃ i, met cmdEcmpCreate (fun _ q u => 1 ≤ fld q 0 9 0 ∧ fld q 0 9 0 ≤ 512 ∧ (∀ m ∈ membersOf q 1 (fld q 0 9 0) false, hType m.1 = 0x60 ∧ objExists u m.1 = true) ∧ ecmpEntries u + fld q 0 9 0 ≤ 1048576 ∧ lowestFreeBut u.fwd.cfg.ecmps (reservedIdx u 0x61) 65536 = some i) (call0) ([word 1, hw 0x60 0]) (fwd))
    ∧ (met cmdEcmpSetMembers (fun _ q u => hType (wd q 0) = 0x61 ∧ objExists u (wd q 0) = true ∧ 1 ≤ fld q 1 9 0 ∧ fld q 1 9 0 ≤ 512 ∧ (∀ m ∈ membersOf q 2 (fld q 1 9 0) true, hType m.1 = 0x60 ∧ objExists u m.1 = true) ∧ ecmpEntries u + fld q 1 9 0 - (tgetD u.fwd.cfg.ecmps (hIdx (wd q 0)) []).length ≤ 1048576) (call0) ([hw 0x61 0, word 1, hw 0x60 0]) (fwd))
    ∧ (met cmdEcmpDelete (fun _ q u => hType (wd q 0) = 0x61 ∧ objExists u (wd q 0) = true ∧ hopNamed u (wd q 0) = false) (call0) ([hw 0x61 0]) (fwd)) := by
  refine ⟨⟨_, ?_, ?_, rfl⟩,
    ?_,
    ?_,
    ⟨_, ?_, ?_, rfl⟩,
    ?_,
    ⟨_, ?_, ?_, ?_, ?_, ?_, rfl⟩,
    ?_⟩ <;> decide +kernel

theorem witness_NextHopAndEcmpCommandsComplete_2 :
    met cmdHashSet (fun _ _ _ => True) (call0) (z 2) (up) :=
  by decide +kernel

theorem witness_PolicerAndPipeCommandsComplete :
    (met cmdPolicerSet (fun _ q _ => hType (wd q 0) = 0x62 ∧ hIdx (wd q 0) < 1048576 ∧ polOk q = true) (call0) ([hw 0x62 1048575] ++ z 9) (up))
    ∧ (met cmdPolicerRead (fun _ q _ => hType (wd q 0) = 0x62 ∧ hIdx (wd q 0) < 1048576) (call0) ([hw 0x62 1048575]) (up))
    ∧ (met cmdStatsRead (fun _ q _ => 1 ≤ fld q 1 9 0 ∧ fld q 1 9 0 ≤ 254 ∧ fld q 0 25 0 + fld q 1 9 0 ≤ 67108864) (call0) ([word 67108863, word 1]) (up))
    ∧ (met cmdStatsClear (fun _ q _ => fld q 0 25 0 + fld q 1 25 0 ≤ 67108864) (call0) ([word 67108863, word 1]) (up))
    ∧ (met cmdPipeSet (fun _ q _ => 2 ≤ fld q 0 5 0 ∧ ∀ i < 9, hType (wd q (1 + i)) = 0 ∨ (hType (wd q (1 + i)) = 0x62 ∧ hIdx (wd q (1 + i)) < 1048576)) (call0) ([word 2] ++ z 12) (up))
    ∧ (met cmdPipeCounters (fun _ _ _ => True) (call0) ([word 15, word 0]) (up)) := by
  decide +kernel

theorem witness_DillCommandsComplete :
    (∃ j, met cmdDillTableCreate (fun _ q u => 4 ≤ fld q 0 12 8 ∧ fld q 0 12 8 ≤ 23 ∧ thas u.tab.dill (fld q 0 7 0) = false ∧ ((List.range (bucketsMax u.fwd.profile / 2 ^ fld q 0 12 8)).find? fun j => u.tab.dill.all fun e => decide (j * 2 ^ fld q 0 12 8 + 2 ^ fld q 0 12 8 ≤ e.2.base) || decide (e.2.base + 2 ^ e.2.k ≤ j * 2 ^ fld q 0 12 8)) = some j) (call0) ([word (255 + 22 * 256), word 0, word 0]) (up))
    ∧ (∃ t tb a p, met cmdDillInsert (fun c q u => dillTab u (wd q 0) = some (t, tb) ∧ actionIn ⟨.direct, c.mb, 0, 0, false⟩ q 6 u = some a ∧ dillAt u t tb (dillKey q 1) = none ∧ dillPlace u t (bucketOf tb (dillKey q 1)) = some p) (call0) ([hw 0x71 0, word 0, word 0, word 0, word 0, word 0x01000000, hw 0x70 0, word 0, word 0]) (tables))
    ∧ (∃ t tb a p e v, met cmdDillModify (fun c q u => dillTab u (wd q 0) = some (t, tb) ∧ actionIn ⟨.direct, c.mb, 0, 0, false⟩ q 6 u = some a ∧ dillAt u t tb (dillKey q 1) = some (p, e) ∧ e.v.seen true = some v) (call0) ([hw 0x71 0, word 0, word 0, word 0, word 0, word 0, hw 0x70 0, word 0, word 0]) (tables))
    ∧ (∃ t tb p e v, met cmdDillDelete (fun _ q u => dillTab u (wd q 0) = some (t, tb) ∧ dillAt u t tb (dillKey q 1) = some (p, e) ∧ e.v.seen true = some v) (call0) ([hw 0x71 0, word 0, word 0, word 0, word 0, word 0]) (tables))
    ∧ (∃ t tb, met cmdDillTableDelete (fun _ q u => dillTab u (wd q 0) = some (t, tb) ∧ dillNamed u t = false ∧ stagedRef u (wd q 0) = false) (call0) ([hw 0x71 0]) (tables))
    ∧ (∃ t tb, met cmdDillStatus (fun _ q u => dillTab u (wd q 0) = some (t, tb)) (call0) ([hw 0x71 0]) (tables)) := by
  refine ⟨⟨_, ?_, ?_, ?_, ?_, rfl⟩,
    ⟨0, dill0, 0, .bucket (slot 1 0), ?_⟩,
    ⟨0, dill0, 0, .bucket (slot 0 0), dillE, { act := 0, cookie := 0#32, static := false }, ?_⟩,
    ⟨0, dill0, .bucket (slot 0 0), dillE, { act := 0, cookie := 0#32, static := false }, ?_⟩,
    ⟨_, _, ?_, rfl, ?_⟩,
    ⟨_, _, ?_, rfl⟩⟩ <;> decide +kernel

theorem witness_SorrelCommandsComplete :
    (∃ a, met cmdSorrelAdd (fun c q u => routeOk q = true ∧ actionIn ⟨.direct, c.mb, 0, 0, false⟩ q 5 u = some a ∧ tget u.tab.routes (routeIn q) = none ∧ unitsUsed u + routeUnits (routeIn q) ≤ unitsMax u) (call0) (routeQ) (fwd))
    ∧ (∃ a b, met cmdSorrelSet (fun c q u => routeOk q = true ∧ actionIn ⟨.direct, c.mb, 0, 0, false⟩ q 5 u = some a ∧ ∃ l, tget u.tab.routes (routeIn q) = some l ∧ l.seen true = some b) (call0) (routeQ) (tables))
    ∧ (∃ b, met cmdSorrelDelete (fun _ q u => routeOk q = true ∧ ∃ l, tget u.tab.routes (routeIn q) = some l ∧ l.seen true = some b) (call0) (routeQ) (tables))
    ∧ (∃ a, met cmdSorrelGet (fun _ q u => routeOk q = true ∧ ∃ l, tget u.tab.routes (routeIn q) = some l ∧ l.seen true = some a) (call0) (routeQ) (tables))
    ∧ (∃ l a, met cmdSorrelMatch (fun _ q u => sorrelFind u true (fld q 0 15 0) (flag q 0 16) (routeAddr q) = some (l, a)) (call0) (z 5) (tables))
    ∧ (met cmdSorrelMatch (fun _ q u => sorrelFind u true (fld q 0 15 0) (flag q 0 16) (routeAddr q) = none) (call0) (z 5) (up))
    ∧ (met cmdSorrelStatus (fun _ _ _ => True) (call0) ([]) (up)) := by
  refine ⟨⟨_, ?_, ?_, rfl, ?_⟩,
    ⟨0, 0, ?_, ?_, ?_, ⟨⟨some 0, []⟩, ?_⟩⟩,
    ⟨0, ?_, ?_, ⟨⟨some 0, []⟩, ?_⟩⟩,
    ⟨0, ?_, ?_, ⟨⟨some 0, []⟩, ?_⟩⟩,
    ⟨32, 0, ?_⟩,
    ?_⟩ <;> decide +kernel

theorem witness_SageCommandsComplete :
    (∃ i, met cmdSageGroupCreate (fun _ q u => lowestFree u.tab.groups 16 = some i ∧ groupOk u ⟨fld q 0 3 0, fld q 0 8 4, fld q 0 10 9, fld q 0 14 11⟩ = true) (call0) ([word (15 + 1 * 16 + 3 * 2048)]) (tables))
    ∧ (∃ i g, met cmdSageGroupDelete (fun _ q u => sageGroup u (wd q 0) = some (i, g) ∧ groupNamed u i = false ∧ (u.fwd.profile ≠ 2 ∨ i ≠ 15) ∧ stagedRef u (wd q 0) = false) (call0) ([hw 0x72 0]) (tables))
    ∧ (∃ gi g a i p, met cmdSageInsert (fun c q u => sageGroup u (wd q 0) = some (gi, g) ∧ 3 + 2 * g.words ≤ q.length ∧ actionIn ⟨.direct, c.mb, 0, 0, false⟩ q 2 u = some a ∧ lowestFreeBut u.tab.sage (reservedIdx u 0x73) 262144 = some i ∧ occPlace (sageOcc u gi) (2 ^ g.logH) (g.size / 2 ^ g.logH) (wd q 1) = some p) (call0) ([hw 0x72 0, word 5, hw 0x70 0] ++ z 10) (tables))
    ∧ (∃ a i e b, met cmdSageModify (fun c q u => actionIn ⟨.direct, c.mb, 0, 0, false⟩ q 1 u = some a ∧ sageEntry u (wd q 0) = some (i, e) ∧ e.v.seen true = some b) (call0) ([hw 0x73 0, hw 0x70 0]) (tables))
    ∧ (∃ i e b, met cmdSageDelete (fun _ q u => sageEntry u (wd q 0) = some (i, e) ∧ e.v.seen true = some b) (call0) ([hw 0x73 0]) (tables))
    ∧ (∃ i e a g, met cmdSageRead (fun _ q u => sageEntry u (wd q 0) = some (i, e) ∧ e.v.seen true = some a ∧ tget u.tab.groups e.grp = some g) (call0) ([hw 0x73 0]) (tables))
    ∧ (∃ i g, met cmdSageStatus (fun _ q u => sageGroup u (wd q 0) = some (i, g)) (call0) ([hw 0x72 0]) (tables)) := by
  refine ⟨⟨_, ?_, rfl, ?_⟩,
    ⟨_, _, ?_, rfl, ?_⟩,
    ⟨_, _, _, _, _, ?_, rfl, ?_, rfl, rfl, rfl⟩,
    ⟨_, _, _, _, ?_, rfl, rfl, rfl⟩,
    ⟨_, _, _, ?_, rfl, rfl⟩,
    ⟨_, _, _, _, ?_, rfl, rfl, rfl⟩,
    ⟨_, _, ?_, rfl⟩⟩ <;> decide +kernel

theorem witness_ActionCommandsComplete :
    (∃ i, met cmdActionCreate (fun _ q u => actionCheck ⟨.direct, 0, 0, 0, false⟩ u (actionOf q 0) = stOk ∧ lowestFreeBut u.fwd.cfg.actions (reservedIdx u 0x70) 2097152 = some i) (call0) (z 4) (fwd))
    ∧ (met cmdActionSet (fun _ q u => hType (wd q 0) = 0x70 ∧ objExists u (wd q 0) = true ∧ actionCheck ⟨.direct, 0, 0, 0, false⟩ u (actionOf q 1) = stOk) (call0) ([hw 0x70 0] ++ z 4) (fwd))
    ∧ (met cmdActionDelete (fun _ q u => hType (wd q 0) = 0x70 ∧ objExists u (wd q 0) = true ∧ actionNamed u (hIdx (wd q 0)) = false ∧ stagedRef u (wd q 0) = false) (call0) ([hw 0x70 0]) (fwd))
    ∧ (met cmdTableCounters (fun _ _ _ => True) (call0) ([word 0, word 0]) (up)) := by
  refine ⟨⟨_, ?_, ?_, rfl⟩,
    ?_⟩ <;> decide +kernel

theorem witness_LearnCommandsComplete :
    (met cmdLearnProfileSet (fun _ q u => fld q 0 7 0 ≠ 0 ∧ fld q 0 9 8 ≠ 3 ∧ fld q 0 21 20 ≠ 3
      ∧ (wd q 1 = 0 ∨ 8000 ≤ wd q 1) ∧ 1 ≤ fld q 2 24 8 ∧ fld q 2 24 8 ≤ 80000 ∧ 1 ≤ fld q 3 22 0 ∧ fld q 3 22 0 ≤ 5760000
      ∧ ((tgetD u.learn.profs (fld q 0 7 0) {}).table = fld q 0 19 12 ∨ ∀ e ∈ u.learn.doms, e.2 ≠ fld q 0 7 0)
      ∧ thas u.tab.dill (fld q 0 19 12) = true
      ∧ let p : LearnProf := {
          mode := fld q 0 9 8, notify := flag q 0 10, refresh := flag q 0 11, table := fld q 0 19 12, flap := fld q 0 21 20,
          age := wd q 1, limit := fld q 2 7 0, window := fld q 2 24 8, hold := fld q 3 22 0 }
        sweepOk u u.learn.sweep (tset u.learn.profs (fld q 0 7 0) p) = true) (call0) ([word 255, word 0, word (80000 * 256), word 5760000]) (tables))
    ∧ (met cmdLearnDomainSet (fun _ q _ => 0 < fld q 1 20 0 ∧ fld q 0 19 0 + fld q 1 20 0 ≤ 1048576) (call0) ([word 1048575, word 1, word 0]) (up))
    ∧ (met cmdLearnPortSet (fun _ q u => objExists u (wd q 0) = true ∧ (hType (wd q 0) = 0x30 ∨ hType (wd q 0) = 0x32) ∧ (hType (wd q 2) = 0 ∨ (hType (wd q 2) = 0x70 ∧ objExists u (wd q 2) = true)) ∧ fld q 1 20 0 ≤ 1048576) (call0) ([hw 0x30 63, word 1048576, word 0]) (onLine))
    ∧ (met cmdLearnPortStatus (fun _ q u => (hType (wd q 0) = 0x30 ∨ hType (wd q 0) = 0x32) ∧ objExists u (wd q 0) = true) (call0) ([hw 0x30 0]) (onLine))
    ∧ (∃ p n, met cmdLearnFlushPort (fun _ q u => linePort u (wd q 0) = some p ∧ (flag q 1 0 = true → linePort u (wd q 3) = some n ∧ (learnAction u n).isSome = true) ∧ u.learn.flushes.length < 4) (call0) ([hw 0x30 63, word 0, word 0, word 0]) (onLine))
    ∧ (met cmdLearnProgramSet (fun _ q u => hType (wd q 0) = 0x65 ∧ hIdx (wd q 0) < 4096 ∧ (flag q 1 0 = true → keyLen u.fwd.cfg (fld q 1 15 8) ≤ 9)) (call0) ([hw 0x65 4095, word 0]) (up))
    ∧ (met cmdLearnDeviceSet (fun _ q u => (hType (wd q 1) = 0 ∨ (hType (wd q 1) = 0x62 ∧ hIdx (wd q 1) < 1048576)) ∧ (hType (wd q 2) = 0 ∨ (hType (wd q 2) = 0x62 ∧ hIdx (wd q 2) < 1048576)) ∧ 4000 ≤ fld q 0 16 0 ∧ fld q 0 16 0 ≤ 80000 ∧ sweepOk u (fld q 0 16 0) u.learn.profs = true) (call0) ([word 80000, hw 0x62 1048575, word 0]) (up))
    ∧ (met cmdLearnCounters (fun _ _ _ => True) (call0) ([word 0, word 0]) (up)) := by
  refine ⟨?_,
    ?_,
    ?_,
    ?_,
    ⟨63, 0, ?_⟩,
    ?_⟩ <;> decide +kernel

theorem witness_TableWalkCommandsComplete :
    (∃ t tb p e, met cmdDillSearch (fun _ q u => dillTab u (wd q 0) = some (t, tb) ∧ dillAt u t tb (dillKey q 1) = some (p, e) ∧ (e.v.seen true).isSome = true) (call0) ([hw 0x71 0, word 0, word 0, word 0, word 0, word 0]) (tables))
    ∧ (∃ t tb, met cmdDillNext (fun _ q u => dillTab u (wd q 0) = some (t, tb) ∧ 1 ≤ fld q 3 6 0 ∧ fld q 3 6 0 ≤ 100 ∧ fld q 1 22 0 < 2 ^ tb.k) (call0) ([hw 0x71 0, word 15, word 0, word 100, word 0]) (tables))
    ∧ (met cmdTableCmdlist (fun _ q u => 1 ≤ fld q 2 20 0 ∧ fld q 2 20 0 ≤ 1048576 ∧ (hType (wd q 5) ≠ 0 → ∃ i x, txnSlot u (wd q 5) = some (i, x) ∧ x.phase = 0 ∧ x.count < 1048576) ∧ u.learn.lists.length < 4) (call0) ([word 0, word 0, word 1048576, word 0, word 0, word 0]) (up))
    ∧ (∃ t tb, met cmdTableCompareSet (fun _ q u => dillTab u (wd q 0) = some (t, tb)) (call0) ([hw 0x71 0, word 0]) (tables))
    ∧ (∃ t tb, met cmdTableDigestLoad (fun _ q u => dillTab u (wd q 0) = some (t, tb) ∧ 1 ≤ fld q 2 9 0 ∧ fld q 2 9 0 ≤ 1000 ∧ fld q 1 17 0 + fld q 2 9 0 ≤ tb.pageCount) (call0) ([hw 0x71 0, word 0, word 1, word 0]) (tables))
    ∧ (∃ t tb, met cmdTableCompareStatus (fun _ q u => dillTab u (wd q 0) = some (t, tb)) (call0) ([hw 0x71 0]) (tables)) := by
  refine ⟨⟨0, dill0, .bucket (slot 0 0), dillE, ?_⟩,
    ⟨_, _, ?_, rfl, ?_⟩,
    ⟨?_, ?_, ?_, fun h => absurd rfl h, ?_⟩,
    ⟨_, _, ?_, rfl⟩,
    ⟨_, _, ?_, rfl, ?_⟩,
    ⟨_, _, ?_, rfl⟩⟩ <;> decide +kernel

theorem witness_BufferCommandsComplete :
    (met cmdBufPoolSet (fun _ q u => fld q 0 10 8 ∈ poolClients (fld q 0 0 0) ∧ fld q 3 26 0 < fld q 4 26 0 ∧ (lset (poolOf u (fld q 0 0 0)).lims (fld q 0 10 8) (fld q 1 26 0, fld q 2 26 0)).foldl (fun n e => n + e.1) 0 ≤ if fld q 0 0 0 = 0 then 125829120 - 1048576 else 262144) (call0) ([word (5 * 256), word 0, word 0, word 1, word 2]) (up))
    ∧ (met cmdBufPoolStatus (fun _ _ _ => True) (call0) ([word 1]) (up))
    ∧ (met cmdBufInspect (fun _ q u => fld q 1 26 0 < (poolOf (refSettleAll u) (fld q 0 0 0)).size) (call0) ([word 0, word 125829119]) (up))
    ∧ (met cmdBufCounters (fun _ _ _ => True) (call0) ([word 0, word 0]) (up)) := by
  decide +kernel

theorem witness_QueueCommandsComplete_1 :
    (met cmdQueueSpaceSet (fun _ q u => fld q 0 18 0 % 8 = 0 ∧ fld q 0 18 0 ≤ 262144 ∧ queuesIn u (min (fld q 0 18 0) u.td.v) (max (fld q 0 18 0) u.td.v) = false) (call0) ([word 262144]) (up))
    ∧ (metA cmdVoqCreate (fun _ => (fun q u => modTd (fun t => { t with
          sets := tset t.sets (fld q 1 19 0 / 8) { dsp := fld q 0 15 0, mask := fld q 2 7 0 }
          queues := (List.range 8).foldl (fun qs c => tset qs (fld q 1 19 0 + c) { cfg := { det := bit (fld q 2 7 0) c } }) t.queues })
        ((List.range 8).foldl (fun s c => newQueueCtrs (fld q 1 19 0 + c) s) u))) (fun _ q u => fld q 1 19 0 % 8 = 0 ∧ fld q 1 19 0 + 8 ≤ u.td.v ∧ thas u.td.sets (fld q 1 19 0 / 8) = false ∧ setOf u.td.sets (fld q 0 15 0) = none ∧ (reservedIdx u 0xA7).contains (fld q 1 19 0 / 8) = false) (call0) ([word 65535, word 262136, word 0]) ({ up with td := { up.td with v := 262144 } }))
    ∧ (metA cmdVoqDelete (fun _ => (fun q u => modTd (fun t => { t with
        sets := terase t.sets (hIdx (wd q 0))
        queues := (List.range 8).foldl (fun qs c => terase qs (8 * hIdx (wd q 0) + c)) t.queues }) u)) (fun _ q u => hType (wd q 0) = 0xA7 ∧ objExists u (wd q 0) = true ∧ ∀ c < 8, ∀ y, tget u.td.queues (8 * hIdx (wd q 0) + c) = some y → y.pkts = []) (call0) ([hw 0xA7 0]) ({ up with td := { up.td with sets := [(0, { dsp := 0, mask := 1 })] } }))
    ∧ (metA cmdQueueCreate (fun _ => (fun q u =>
        let y : Queue := { cfg := queueIn q, sch := schedIn q (nowLin u) }
        newQueueCtrs (fld q 0 19 0) (modTd (fun t => { t with queues := tset t.queues (fld q 0 19 0) y }) u))) (fun _ q u => u.td.v ≤ fld q 0 19 0 ∧ thas u.td.queues (fld q 0 19 0) = false ∧ schedRangeOk q = true ∧ queueRangeOk (queueIn q) = true ∧ queueKindOk (queueIn q) q = true ∧ (reservedIdx u 0xA0).contains (fld q 0 19 0) = false ∧ wredKnown u (queueIn q) = true ∧ (hwd q 1 = 0 ∨ parentRefuses u (hwd q 1) 4 (fld q 2 2 0) (queueIn q).det none = none)) (call0) ([word 1048573, hw 0xA2 0, word (7 + 65535 * 8)] ++ z 6 ++ [word 1, word 0, word 0, word 2048000]) (queued))
    ∧ (∃ i y, metA cmdQueueSet (fun _ => (fun q u => modQueue i (fun y => { y with pend := some (queueIn q, schedIn q (nowLin u)) }) u)) (fun _ q u => queueAt u (wd q 0) = some (i, y) ∧ u.td.v ≤ i ∧ schedRangeOk q = true ∧ queueRangeOk (queueIn q) = true ∧ queueKindOk (queueIn q) q = true ∧ wredKnown u (queueIn q) = true ∧ ((queueIn q).det = y.cfg.det ∨ y.pkts = []) ∧ (hwd q 1 = 0 ∨ parentRefuses u (wd q 1) 4 (fld q 2 2 0) (queueIn q).det (portOfQueue u i) = none)) (call0) ([hw 0xA0 1048575, word 0, word (1 + 8)] ++ z 6 ++ [word 1, word 0, word 0, word 8]) (queued))
    ∧ (∃ i y, metA cmdQueueSet (fun _ => (fun q u => modQueue i (fun z => { z with pend := some ({ queueIn q with det := y.cfg.det }, z.sch) }) u)) (fun _ q u => queueAt u (wd q 0) = some (i, y) ∧ i < u.td.v ∧ (∀ j < 8, wd q (j + 1) = 0) ∧ queueRangeOk { queueIn q with det := y.cfg.det } = true ∧ (y.cfg.det = true → ∀ w ∈ (queueIn q).wred, w = 0) ∧ wredKnown u { queueIn q with det := y.cfg.det } = true) (call0) ([hw 0xA0 0] ++ z 8 ++ [word 1, word 0, word 0, word 8]) (queued))
    ∧ (∃ i y, metA cmdQueueDelete (fun _ => (fun _ u => modTd (fun t => { t with queues := terase t.queues i }) u)) (fun _ q u => queueAt u (wd q 0) = some (i, y) ∧ u.td.v ≤ i ∧ y.pkts = [] ∧ y.sch.parent = 0) (call0) ([hw 0xA0 1048575]) (queued))
    ∧ (∃ i y, met cmdQueueFlush (fun _ q u => queueAt u (wd q 0) = some (i, y)) (call0) ([hw 0xA0 1]) (queued)) := by
  refine ⟨?_,
    ?_,
    ⟨?_, ?_, ?_, ?_, fun _ _ _ h => nomatch h⟩,
    ?_,
    ⟨_, _, ?_, ?_, rfl, ?_⟩,
    ⟨_, _, ?_, ?_, rfl, ?_⟩,
    ⟨_, _, ?_, ?_, rfl, ?_⟩,
    ⟨_, _, ?_, rfl⟩⟩ <;> decide +kernel

theorem witness_QueueCommandsComplete_2 :
    (∃ i y, met cmdQueueStatus (fun _ q u => queueAt u (wd q 0) = some (i, y)) (call0) ([hw 0xA0 1048575]) (queued))
    ∧ (∃ i y, met cmdQueueCounters (fun _ q u => queueAt u (wd q 0) = some (i, y)) (call0) ([hw 0xA0 0, word 0]) (queued)) := by
  refine ⟨⟨_, _, ?_, rfl⟩,
    ⟨_, _, ?_, rfl⟩⟩ <;> decide +kernel

theorem witness_SchedulerCommandsComplete :
    (∃ n i, met cmdNodeCreate (fun _ q u => fld q 0 1 0 ≠ 0 ∧ schedRangeOk q = true ∧ hwd q 1 ≠ 0 ∧ parentRefuses u (hwd q 1) (fld q 0 1 0) (fld q 2 2 0) false none = none ∧ tget u.td.nodes (hwd q 1) = some n ∧ quarterCount u (fld q 0 1 0) n.port < [0, 1024, 16384, 65536].getD (fld q 0 1 0) 0 ∧ nodeIdx u (fld q 0 1 0) (reservedIdx u (levelType (fld q 0 1 0))) = some i) (call0) ([word 3, hw 0xA2 0, word (7 + 8)] ++ z 6) (queued))
    ∧ (∃ n, met cmdNodeSet (fun _ q u => tget u.td.nodes (wd q 0) = some n ∧ shapersOk q = true ∧ (n.level = 0 ∨ fld q 2 18 3 ≠ 0) ∧ nodeSetRefuses u n q = none) (call0) ([hw 0xA1 0] ++ z 5 ++ [word 1000, word 0, word 0]) (queued))
    ∧ (∃ n, met cmdNodeDelete (fun _ q u => tget u.td.nodes (wd q 0) = some n ∧ n.level ≠ 0 ∧ n.client = none ∧ childrenIn u (wd q 0) = [] ∧ awaited u (wd q 0) = false ∧ stagedRef u (wd q 0) = false) (call0) ([hw 0xA2 0]) ({ queued with td := { queued.td with queues := [] } }))
    ∧ (∃ n, met cmdNodeStatus (fun _ q u => tget u.td.nodes (wd q 0) = some n) (call0) ([hw 0xA1 0]) (queued))
    ∧ (met cmdWredProfileSet (fun _ q _ => fld q 0 7 0 ≠ 0 ∧ wd q 1 < wd q 2 ∧ fld q 3 8 0 ≤ 256) (call0) ([word 255, word 0, word 1, word 256]) (up))
    ∧ (met cmdSamplerGroupSet (fun _ q _ => fld q 1 15 0 ≠ 0 ∧ fld q 1 31 16 ≠ 0 ∧ wd q 3 ≤ wd q 2 ∧ wd q 5 ≤ wd q 4) (call0) ([word 4095, word (1 + 65536), word 0, word 0, word 0, word 0]) (up))
    ∧ (met cmdSamplerHistRead (fun _ _ _ => True) (call0) ([word 4095, word 0]) (up))
    ∧ (met cmdSchedCounters (fun _ _ _ => True) (call0) ([word 0, word 0]) (up)) := by
  refine ⟨⟨_, _, ?_, ?_, ?_, ?_, ?_, rfl, ?_, rfl⟩,
    ⟨_, ?_, rfl, ?_⟩,
    ⟨_, ?_, rfl, ?_⟩,
    ⟨_, ?_, rfl⟩,
    ?_⟩ <;> decide +kernel

theorem witness_StreamCommandsComplete_1 :
    (∃ i, metA cmdStreamCreate (fun _ => (fun q u =>
        let y : Stream := { cfg := streamIn q, seq := (streamIn q).init, live := false, pend := some (streamIn q) }
        ctrClear 4 i (List.range 6) (modDet (fun d => { d with streams := tset d.streams i y }) u))) (fun _ q u => streamRangeOk u q (streamIn q) = true ∧ ((streamIn q).ctx = 0 ∨ (hType (streamIn q).ctx = 0xB1 ∧ objExists u (streamIn q).ctx = true)) ∧ (∀ m ∈ (streamIn q).members, hType m.nh = 0x60 ∧ objExists u m.nh = true) ∧ fixedPath u.fwd.profile ≤ (streamIn q).d ∧ streamPathsOk u (streamIn q) = true ∧ ((streamIn q).ctx = 0 ∨ ctxUsers u (streamIn q).ctx 0x1000000 < 16) ∧ detObjects u < 262144 ∧ lowestFreeBut u.det.streams (reservedIdx u 0xB0) 262144 = some i) (call0) ([word (7 * 64), word 64, word 1, word 1000000, word 1000000, word 0, hw 0x60 0, word (64 + 256)] ++ z 6) (noStreams))
    ∧ (∃ i y, metA cmdStreamSet (fun _ => (fun q u => modDet (fun d => { d with streams := tset d.streams i { y with pend := some (streamIn (q.drop 1)) } }) u)) (fun _ q u => streamAt u (wd q 0) = some (i, y) ∧ streamRangeOk u (q.drop 1) (streamIn (q.drop 1)) = true ∧ ((streamIn (q.drop 1)).ctx = 0 ∨ (hType (streamIn (q.drop 1)).ctx = 0xB1 ∧ objExists u (streamIn (q.drop 1)).ctx = true)) ∧ (∀ m ∈ (streamIn (q.drop 1)).members, hType m.nh = 0x60 ∧ objExists u m.nh = true) ∧ fixedPath u.fwd.profile ≤ (streamIn (q.drop 1)).d ∧ streamPathsOk u (streamIn (q.drop 1)) = true ∧ ((streamIn (q.drop 1)).ctx = 0 ∨ ctxUsers u (streamIn (q.drop 1)).ctx i < 16)) (call0) ([hw 0xB0 0, word (7 * 64), word 64, word 1, word 1000000, word 1000000, word 0, hw 0x60 0, word (64 + 256)] ++ z 6) (streams))
    ∧ (∃ i y, metA cmdStreamDelete (fun _ => (fun _ u => modDet (fun d => { d with streams := terase d.streams i }) u)) (fun _ q u => streamAt u (wd q 0) = some (i, y) ∧ actionTargets u (wd q 0) = false ∧ stagedRef u (wd q 0) = false) (call0) ([hw 0xB0 0]) (streams)) := by
  refine ⟨⟨_, ?_, ?_, ?_, ?_, ?_, ?_, ?_, ?_, ?_, rfl⟩,
    ⟨_, _, ?_, ?_, rfl, ?_⟩,
    ⟨_, _, ?_, ?_, rfl, ?_⟩⟩ <;> decide +kernel

theorem witness_StreamCommandsComplete_2 :
    (∃ i y, met cmdStreamStatus (fun _ q u => streamAt u (wd q 0) = some (i, y)) (call0) ([hw 0xB0 0]) (streams))
    ∧ (∃ i y, met cmdStreamCounters (fun _ q u => streamAt u (wd q 0) = some (i, y)) (call0) ([hw 0xB0 0, word 0]) (streams))
    ∧ (∃ i y, metA cmdStreamEgressCreate (fun _ => (fun q u =>
        let r : EgressRec := {
          port := fld q 0 5 0, queue := wd q 1, ltx := fld q 2 13 0, n := fld q 3 15 0, i := fld q 4 29 0, e := fld q 5 23 0 }
        modDet (fun d => { d with recs := tset d.recs i r }) u)) (fun _ q u => hType (wd q 1) = 0xA0 ∧ tget u.td.queues (hIdx (wd q 1)) = some y ∧ y.cfg.det = true ∧ u.td.v ≤ hIdx (wd q 1) ∧ portOfQueue u (hIdx (wd q 1)) = some (fld q 0 5 0) ∧ 64 ≤ fld q 2 13 0 ∧ fld q 2 13 0 ≤ 16000 ∧ fld q 3 15 0 ≠ 0 ∧ 1000 ≤ fld q 4 29 0 ∧ fld q 4 29 0 ≤ 1000000000 ∧ fld q 5 23 0 ≠ 0 ∧ detObjects u < 262144 ∧ lowestFreeBut u.det.recs (reservedIdx u 0xB2) 262144 = some i) (call0) ([word 0, hw 0xA0 1048574, word 64, word 1, word 1000, word 0xFFFFFF]) (noStreams)) := by
  refine ⟨⟨_, _, ?_, rfl⟩,
    ⟨_, _, ?_, rfl⟩,
    ⟨_, _, ?_, ?_, ?_, rfl, ?_, ?_, ?_, ?_, ?_, ?_, ?_, ?_, ?_, ?_, rfl⟩⟩ <;> decide +kernel

theorem witness_StreamCommandsComplete_3 :
    metA cmdStreamEgressDelete (fun _ => (fun q u => modDet (fun d => { d with recs := terase d.recs (hIdx (wd q 0)) }) u)) (fun _ q u => hType (wd q 0) = 0xB2 ∧ thas u.det.recs (hIdx (wd q 0)) = true) (call0) ([hw 0xB2 0]) (streams) :=
  by decide +kernel

theorem witness_RecoveryCommandsComplete :
    (∃ i, metA cmdFrerCreate (fun _ => (fun q u => ctrClear 5 i (List.range 7) (modDet (fun d => { d with frer := tset d.frer i (frerIn q 0) }) u))) (fun _ q u => frerOk (frerIn q 0) = true ∧ lowestFreeBut u.det.frer (reservedIdx u 0xB1) 1048576 = some i) (call0) ([word (64 * 2), word 80000]) (up))
    ∧ (∃ i y, metA cmdFrerSet (fun _ => (fun q u => modDet (fun d => { d with frer := tset d.frer i { frerIn q 1 with seq := y.seq, hist := y.hist, any := true } }) u)) (fun _ q u => frerAt u (wd q 0) = some (i, y) ∧ frerOk (frerIn q 1) = true) (call0) ([hw 0xB1 0, word 2, word 1]) (streams))
    ∧ (∃ i y, metA cmdFrerDelete (fun _ => (fun _ u => modDet (fun d => { d with frer := terase d.frer i }) u)) (fun _ q u => frerAt u (wd q 0) = some (i, y) ∧ stagedRef u (wd q 0) = false ∧ ∀ e ∈ u.det.streams, e.2.cfg.ctx ≠ wd q 0 ∧ ∀ c, e.2.pend = some c → c.ctx ≠ wd q 0) (call0) ([hw 0xB1 0]) ({ streams with det := { frer := [(0, frer0)] } }))
    ∧ (∃ i y, met cmdFrerStatus (fun _ q u => frerAt u (wd q 0) = some (i, y)) (call0) ([hw 0xB1 0]) (streams))
    ∧ (∃ i y, met cmdFrerCounters (fun _ q u => frerAt u (wd q 0) = some (i, y)) (call0) ([hw 0xB1 0, word 0]) (streams))
    ∧ (∃ i y, met cmdFrerReset (fun _ q u => frerAt u (wd q 0) = some (i, y)) (call0) ([hw 0xB1 0]) (streams)) := by
  refine ⟨⟨_, ?_, ?_, ?_, rfl⟩,
    ⟨_, _, ?_, ?_, rfl, ?_⟩,
    ⟨0, frer0, ?_, ?_, ?_, ?_, fun e he => nomatch he⟩,
    ⟨_, _, ?_, rfl⟩,
    ⟨_, _, ?_, rfl⟩,
    ⟨_, _, ?_, rfl⟩⟩ <;> decide +kernel

theorem witness_GateAndAdmissionCommandsComplete :
    (∃ t, metA cmdGateSet ((fun _ q u => modGate (hIdx (wd q 0)) (fun g => { g with next := g.next ++ [{ gateIn q with t := t }] }) u)) (fun _ q u => hType (wd q 0) = 0x30 ∧ objExists u (wd q 0) = true ∧ gateOkList q (gateIn q) = true ∧ t = gateTakeover (u.det.gates.getD (hIdx (wd q 0)) {}) (gateIn q) ((u.tm.tide + 1) * tideU) ∧ t < tbWrap ∧ (flag q 1 16 = true → t = (gateIn q).base)) (call0) ([hw 0x30 0, word 1, word 0, word 0, word 0, word 1000, word 255, word 1000]) (onLine))
    ∧ (∃ t, metA cmdGateClear ((fun _ q u => modGate (hIdx (wd q 0)) (fun g => { g with next := g.next ++ [{ gateClearList with t := t }] }) u)) (fun _ q u => hType (wd q 0) = 0x30 ∧ objExists u (wd q 0) = true ∧ t = gateTakeover (u.det.gates.getD (hIdx (wd q 0)) {}) gateClearList ((u.tm.tide + 1) * tideU) ∧ t < tbWrap) (call0) ([hw 0x30 63]) (onLine))
    ∧ (met cmdGateStatus (fun _ q u => hType (wd q 0) = 0x30 ∧ objExists u (wd q 0) = true) (call0) ([hw 0x30 0]) (onLine))
    ∧ (∃ n a b k, met cmdDetCheck (fun _ q u => asCommitted (hwd q 0) u = some n ∧ admJudge n = .ok a b k) (call0) ([word 0, word 0]) (up))
    ∧ (∃ n st block, Ready cmdDetCheck call0 [word 0, word 0] tight = true ∧ asCommitted (hwd [word 0, word 0] 0) (accepted cmdDetCheck call0 [word 0, word 0] tight) = some n ∧ admJudge n = .no st block ∧ st ≠ stOk ∧ st ≠ stAccepted)
    ∧ (∃ n, met cmdDetExport (fun _ q u => asCommitted (hwd q 3) u = some n ∧ freeVal u % 2 ^ 32 ≤ wd q 2) (call0) ([word 0, word 0, word 0xFFFFFFFF, word 0]) (up))
    ∧ (met cmdDetCounters (fun _ _ _ => True) (call0) ([word 0, word 0]) (up)) := by
  refine ⟨⟨_, ?_, ?_, ?_, ?_, ?_, rfl, ?_⟩,
    ⟨_, ?_, ?_, ?_, ?_, rfl, ?_⟩,
    ?_,
    ⟨_, 0, [], 0, ?_, rfl, ?_⟩,
    ⟨_, noSt tightV, noBlock tightV, ?_, rfl, isNo_eq tightV (by decide +kernel), ?_⟩,
    ⟨_, ?_, rfl, Nat.le_of_lt_succ (Nat.mod_lt _ (by decide))⟩,
    ?_⟩ <;> decide +kernel

theorem witness_FabricCommandsComplete_1 :
    (met cmdFabricSet (fun _ q u => u.td.sets = [] ∧ octetRatesOk (flag q 0 0) (fld q 2 11 0) (fld q 3 23 0) = true ∧ (flag q 0 0 = true → fld q 0 25 16 = u.id.devid) ∧ 100 ≤ fld q 4 14 0 ∧ fld q 4 14 0 ≤ 20000 ∧ 1 ≤ fld q 5 9 0 ∧ fld q 5 9 0 ≤ 1000) (call0) ([word 0, word 0, word 0, word 0, word 20000, word 1000]) (up))
    ∧ (metA cmdFabricProfileSet (fun _ => (fun q u => fabCheck (modFab (fun f => { f with ffixed := wd q 0, tau := wd q 1, kmin := fld q 2 6 0 }) u))) (fun _ q u => wd q 0 ≤ 1000000 ∧ wd q 1 ≤ 1000000 ∧ 1 ≤ fld q 2 6 0 ∧ fld q 2 6 0 ≤ if u.fab.mesh then 32 else 96) (call0) ([word 1000000, word 1000000, word 96]) (up))
    ∧ (met cmdFabricSysportSet (fun _ q _ => 1 ≤ fld q 1 16 0 ∧ fld q 0 15 0 + fld q 1 16 0 ≤ 65536 ∧ ∀ i < fld q 1 16 0, fld q (2 + i) 22 16 ≤ 64) (call0) ([word 65535, word 1, word (64 * 65536 + 2 ^ 31)]) (up))
    ∧ (∃ v, metA cmdFabricVoqGuarantee (fun _ => (fun q u => modCred (8 * hIdx (wd q 0) + fld q 1 2 0) (fun y => { y with g := fld q 2 19 0 }) u)) (fun _ q u => hType (wd q 0) = 0xA7 ∧ tget u.td.sets (hIdx (wd q 0)) = some v ∧ bit v.mask (fld q 1 2 0) = true) (call0) ([hw 0xA7 0, word 0, word 1]) (queued))
    ∧ (∃ s', metA cmdFabricGrantSet (fun _ => (fun _ _ => s')) (fun _ q u => fld q 0 6 0 ≤ 64
        ∧ s' = (let key := demandKey (fld q 0 6 0) (fld q 1 9 0) (fld q 2 15 0) (fld q 3 2 0)
          modFab (fun f => { f with
            grants := mset 0 f.grants key (fld q 4 19 0)
            demands := if thas f.demands key then f.demands else tset f.demands key { det := true } }) u)
        ∧ (fld q 4 19 0 = 0 ∨ grantsFit s' (fld q 0 6 0) = true)) (call0) ([word 64, word 1023, word 65535, word 7, word 0]) (up))
    ∧ (∃ s', metA cmdFabricCreditSet (fun _ => (fun _ _ => s')) (fun _ q u => fld q 0 6 0 ≤ 64 ∧ 256 ≤ fld q 1 8 0 ∧ fld q 1 8 0 ≤ 384 ∧ 1 ≤ fld q 3 7 0 ∧ s' = modFab (fun y => { y with dests := lmod y.dests (fld q 0 6 0) fun d => { d with factor := fld q 1 8 0, bp := fld q 2 24 0, maxOut := fld q 3 7 0 } }) u ∧ grantsFit s' (fld q 0 6 0) = true) (call0) ([word 64, word 384, word 0, word 1]) (up))
    ∧ (met cmdFabricStatus (fun _ _ _ => True) (call0) ([]) (up))
    ∧ (∃ x, met cmdFabricLaneReach (fun _ q u => u.fab.lanes[fld q 0 6 0]? = some x) (call0) ([word 95]) (up)) := by
  refine ⟨?_,
    ?_,
    ?_,
    ⟨_, ?_, ?_, ?_, rfl, ?_⟩,
    ⟨_, ?_, ?_, ?_, rfl, ?_⟩,
    ⟨_, ?_, ?_, ?_, ?_, ?_, ?_, rfl, ?_⟩,
    ?_,
    ⟨_, ?_, rfl⟩⟩ <;> decide +kernel

theorem witness_FabricCommandsComplete_2 :
    (met cmdFabricCounters (fun _ q _ => fld q 1 7 0 = 255) (call0) ([word 0, word 255]) (up))
    ∧ (met cmdFabricCounters (fun _ q _ => fld q 1 7 0 < 96) (call0) ([word 0, word 95]) (up)) := by
  decide +kernel

theorem witness_TimeCommandsComplete_1 :
    (met cmdTimeGet (fun _ _ _ => True) (call0) ([]) (up))
    ∧ (met cmdTimeAdjust (fun _ q u => tideSource u = 0 ∧ -32768000 ≤ signed 32 (wd q 0) ∧ signed 32 (wd q 0) ≤ 32768000 ∧ (flag q 1 0 = true → 1 ≤ fld q 1 9 1 ∧ fld q 1 9 1 ≤ 500 ∧ -(secU : Int) ≤ signed 64 (wd64 q 2) ∧ signed 64 (wd64 q 2) ≤ (secU : Int))) (call0) ([word 32768000, word (1 + 500 * 2), word 0, word 0]) (up))
    ∧ (∃ t : Nat, met cmdTimeStep (fun _ q u => commitNamed u = false ∧ tideSource u = 0 ∧ (flag q 0 0 = false → bits (wd q 1 + 2 ^ 32 * wd q 2 + 2 ^ 64 * fld q 3 15 0) 45 16 < 1000000000) ∧ (t : Int) = (if flag q 0 0 then ((u.tm.tide + 1) * tideU : Int) + signed 80 (wd q 1 + 2 ^ 32 * wd q 2 + 2 ^ 64 * fld q 3 15 0) else tbLinear (wd q 1 + 2 ^ 32 * wd q 2 + 2 ^ 64 * fld q 3 15 0)) ∧ t < tbWrap) (call0) ([word 0, word 0, word 0, word 0]) (up))
    ∧ (met cmdTimeStateSet (fun _ q u => u.tm.st ≠ 0 ∧ tideSource u = 0 ∧ (fld q 0 1 0 = 1 ∨ fld q 0 1 0 = 2)) (call0) ([word 1]) ({ up with tm := { up.tm with st := 2 } }))
    ∧ (met cmdTimeStatus (fun _ _ _ => True) (call0) ([]) (up))
    ∧ (∃ y, met cmdTimePortSet (fun _ q u => portOf u (wd q 0) = some y ∧ fld q 1 1 0 ≠ 3 ∧ offsetOk (signed 32 (wd q 2)) = true ∧ offsetOk (signed 32 (wd q 3)) = true) (call0) ([hw 0x30 63, word 2, word 0, word 0]) (onLine))
    ∧ (met cmdTimeTsringSet (fun _ _ u => u.host.tsrEnable = false ∨ u.host.tsrStopped = true ∨ ((u.tm.ports.any (fun p => p.fifo.any fun e => !e.own)) = false ∧ u.host.tsrProducer = u.host.tsrConsumer)) (call0) ([word 0, word 0, word 1, word 0]) (up))
    ∧ (∃ y, met cmdTimeOriginate (fun _ q u => portOf u (wd q 0) = some y ∧ fld q 1 7 0 ≤ 128) (call0) ([hw 0x30 0, word 128] ++ z 20) (onLine)) := by
  refine ⟨?_,
    ?_,
    ⟨0, ?_⟩,
    ?_,
    ?_,
    ⟨_, ?_, rfl, ?_⟩,
    ?_,
    ⟨_, ?_, rfl, ?_⟩⟩ <;> decide +kernel

theorem witness_TimeCommandsComplete_2 :
    (met cmdTimePpsSet (fun _ q _ => -10000 ≤ signed 32 (wd q 0) ∧ signed 32 (wd q 0) ≤ 10000 ∧ 1 ≤ fld q 1 8 0 ∧ fld q 1 8 0 ≤ 500) (call0) ([word 10000, word 500]) (up))
    ∧ (met cmdTimeTodSet (fun _ _ _ => True) (call0) ([word 0]) (up))
    ∧ (met cmdTimeSynceSet (fun _ q _ => fld q 0 7 1 < 64 ∧ fld q 0 9 8 ≠ 3) (call0) ([word (63 * 2)]) (up))
    ∧ (met cmdTimeTideSet (fun _ q u => fld q 0 1 0 ≤ 1 ∧ fld q 1 14 0 ≤ 20000 ∧ commitNamed u = false) (call0) ([word 1, word 20000]) (up))
    ∧ (met cmdTimeCounters (fun _ q _ => fld q 1 6 0 < 64) (call0) ([word 0, word 63]) (up))
    ∧ (met cmdTimeCounters (fun _ q _ => fld q 1 6 0 = 127) (call0) ([word 0, word 127]) (up)) := by
  decide +kernel

theorem witness_SelfTestCommandsComplete_1 :
    (met cmdSoundSet (fun _ q _ => 1 ≤ fld q 0 6 2 ∧ fld q 0 6 2 ≤ 24 ∧ (fld q 1 6 0 ≤ 79 ∨ fld q 1 6 0 = 127) ∧ 500 ≤ fld q 2 14 0 ∧ fld q 2 14 0 ≤ 20000) (call0) ([word (24 * 4), word 0, word 500]) (up))
    ∧ (met cmdSoundNow (fun _ q u => fld q 0 6 0 ≤ 79 ∧ soundEligible u (fld q 0 6 0) = true) (call0) ([word 20]) (up))
    ∧ (∃ x, met cmdSoundStatus (fun _ q u => fld q 0 6 0 ≤ 79 ∧ u.test.slices.getD (fld q 0 6 0) {} = x) (call0) ([word 3]) (up))
    ∧ (met cmdSoundSliceInfo (fun _ q _ => fld q 0 6 0 ≤ 81) (call0) ([word 81]) (up))
    ∧ (met cmdScanFull (fun _ _ _ => True) (call0) ([]) ({ up with id := { up.id with lifecycle := 0 } }))
    ∧ (∃ bits f sig, met cmdScanResult (fun _ _ u => u.aon.scan = some (bits, f, sig)) (call0) ([]) ({ up with aon := { up.aon with scan := some (5, some (1, 2), 9) } }))
    ∧ (met cmdLifecycleChallenge (fun _ _ _ => True) (call0) ([]) (up))
    ∧ (∃ auth old new, met cmdLifecycleSet (fun _ q u => u.id.lifecycle = old ∧ fld q 0 2 0 = new ∧ lifeMove old new = some auth ∧ (auth = true → authorised u new (q.drop 2) = true) ∧ (new = 4 → wd q 1 = Config.udn.toNat % 2 ^ 32) ∧ (old = 3 → new = 0 → u.flash.drydocks < 3)) (call0) ([word 1, word 0]) ({ up with id := { up.id with lifecycle := 0 } })) := by
  refine ⟨?_,
    ⟨by decide +kernel, by decide +kernel, by change soundEligible (accepted cmdSoundNow call0 [word 20] up) 20 = true; unfold soundEligible; rw [fits _ _ (by decide +kernel)]; decide +kernel⟩,
    ⟨{}, ?_⟩,
    ?_,
    ?_,
    ⟨_, _, _, ?_, rfl⟩,
    ?_,
    ⟨_, _, _, ?_, rfl, rfl, rfl, ?_⟩⟩ <;> decide +kernel

theorem witness_SelfTestCommandsComplete_2 :
    (met cmdLifecycleKeyRevoke (fun _ q u => (slotAt u u.flash.pref).key ≠ fld q 0 1 0 ∧ ((List.range 4).filter fun j => !bit u.flash.revoked j) ≠ [fld q 0 1 0]) (call0) ([word 3]) ({ up with id := { up.id with lifecycle := 0 } }))
    ∧ (met cmdSelftestCounters (fun _ _ _ => True) (call0) ([word 0]) (up)) := by
  decide +kernel

theorem witness_FaultAndMemoryCommandsComplete_1 :
    (met cmdFaultStatus (fun _ _ _ => True) (call0) ([]) (up))
    ∧ (met cmdFaultLogRead (fun _ q _ => 1 ≤ fld q 0 12 6 ∧ fld q 0 5 0 + fld q 0 12 6 ≤ 64) (call0) ([word (63 + 1 * 64)]) (up))
    ∧ (met cmdFaultLastBreathSet (fun _ q _ => wd64 q 0 % 4096 = 0) (call0) ([word 4096, word 1, word 1]) (up))
    ∧ (∃ r, met cmdFaultLastBreathRead (fun _ q u => (if flag q 0 0 then u.aon.twin else u.aon.own) = some r) (call0) ([word 0]) ({ up with aon := { up.aon with own := some [0#8] } }))
    ∧ (∃ f, met cmdFaultClusterReinit (fun _ q u => tget u.flt.fences (fld q 0 6 0) = some f) (call0) ([word 4]) ({ up with flt := { up.flt with fences := [(4, ⟨false, 0⟩)] } }))
    ∧ (met cmdFaultReset (fun _ q u => u.id.fwState = 3 ∨ wd q 0 = Config.udn.toNat % 2 ^ 32) (call0) ([word 0]) ({ up with id := { up.id with fwState := 3 } }))
    ∧ (met cmdFaultCounters (fun _ _ _ => True) (call0) ([word 0]) (up))
    ∧ (metA cmdMemSet (fun _ => (fun q u => let x : MemCfg := { p := fld q 1 16 0, w := fld q 2 11 0, ce := fld q 3 15 0, pred := flag q 3 16, scrub := fld q 4 7 0 }
        { u with hbm := if flag q 0 0 then { u.hbm with td := x } else { u.hbm with fd := x } })) (fun _ q _ => 64 ≤ fld q 1 16 0 ∧ fld q 1 16 0 ≤ 80000 ∧ 500 ≤ fld q 2 11 0 ∧ fld q 2 11 0 ≤ 4000 ∧ 1 ≤ fld q 4 7 0 ∧ fld q 4 7 0 ≤ 168) (call0) ([word 1, word 64, word 500, word 1, word 168]) (up)) := by
  refine ⟨?_,
    ?_,
    ?_,
    ⟨[0#8], ?_⟩,
    ⟨⟨false, 0⟩, ?_, rfl⟩,
    ⟨?_, Or.inl rfl⟩,
    ?_⟩ <;> decide +kernel

theorem witness_FaultAndMemoryCommandsComplete_2 :
    (∃ x, met cmdMemStatus (fun _ q u => fld q 0 2 0 < 6 ∧ stackAt u (fld q 0 2 0) = x) (call0) ([word 5]) (up))
    ∧ (met cmdMemRemapRead (fun _ q _ => fld q 0 2 0 < 6) (call0) ([word 5]) (up))
    ∧ (met cmdMemSpare (fun _ q u => fld q 0 2 0 < 6 ∧ ((stackAt u (fld q 0 2 0)).entry (fld q 1 6 0)).st ≤ 1 ∧ ((stackAt u (fld q 0 2 0)).migs.any fun m => m.rank == fld q 1 6 0) = false ∧ (stackAt u (fld q 0 2 0)).freeSpares ≠ []) (call0) ([word 5, word 0]) (up))
    ∧ (∃ x, met cmdMemTrainReport (fun _ q u => fld q 0 2 0 < 6 ∧ (stackAt u (fld q 0 2 0)).chans.getD (fld q 1 4 0) {} = x) (call0) ([word 5, word 31]) (up))
    ∧ (met cmdMemCounters (fun _ q _ => fld q 0 2 0 < 6) (call0) ([word 5, word 0]) (up)) := by
  refine ⟨⟨stackAt up 5, ?_, ?_, rfl⟩,
    ?_,
    ?_,
    ⟨(stackAt up 5).chans.getD 31 {}, ?_, ?_, rfl⟩,
    ?_⟩ <;> decide +kernel

theorem witness_TwinCommandsComplete_1 :
    (met cmdTwinSet (fun _ _ u => u.id.twinEn = true ∧ u.twin.st = 4) (call0) ([word 7]) ({ up with id := { up.id with twinEn := true }, twin := { up.twin with st := 4 } }))
    ∧ (met cmdTwinStatus (fun _ _ u => u.id.twinEn = true) (call0) ([]) (duo))
    ∧ (met cmdTwinStatus (fun _ _ u => u.id.twinEn = false) (call0) ([]) (up))
    ∧ (met cmdTwinSwitch (fun _ q u => u.id.twinEn = true ∧ u.twin.st = 1 ∧ u.twin.peer = 2 ∧ u.tm.tide + 2 ≤ wd64 q 0 ∧ ((txns u).any fun e => (e.2.phase == 2 || e.2.named) && (e.2.c == wd64 q 0 || e.2.c == wd64 q 0 + 1)) = false) (call0) ([word 2, word 0]) (duo))
    ∧ (met cmdTwinForce (fun _ q u => u.id.twinEn = true ∧ flag q 0 0 = true) (call0) ([word 1]) (duo))
    ∧ (met cmdTwinForce (fun _ q u => u.id.twinEn = true ∧ flag q 0 0 = false) (call0) ([word 0]) ({ duo with twin := { duo.twin with st := 2 } }))
    ∧ (met cmdTwinJoin (fun _ _ u => u.id.twinEn = true ∧ u.twin.st = 4 ∧ canJoin u = true ∧ versionsFit u = true) (call0) ([]) (cold))
    ∧ (met cmdTwinRefereeLoad (fun _ q u => u.id.twinEn = true ∧ flag q 0 8 = true ∧ 60 ≤ fld q 4 8 0 ∧ fld q 4 8 0 ≤ 256) (call0) ([word (63 + 256), word 0, word 0, word 0, word 60] ++ z 15) (duo)) := by
  decide +kernel

theorem witness_TwinCommandsComplete_2 :
    (met cmdTwinRefereeLoad (fun _ q u => u.id.twinEn = true ∧ flag q 0 8 = false) (call0) ([word 63]) (duo))
    ∧ (met cmdTwinDecide (fun _ _ u => u.id.twinEn = true ∧ u.twin.undecided = true) (call0) ([word 0]) ({ duo with twin := { duo.twin with undecided := true, hawser := true } }))
    ∧ (∃ n w a v b, met cmdTwinManifestRead (fun _ q u => u.id.twinEn = true ∧ wd64 q 0 = n ∧ mfOf u.twin.own n = some w ∧ mfPort w (fld q 2 5 0) = some a ∧ mfOf u.twin.twin n = some v ∧ mfPort v (fld q 2 5 0) = some b) (call0) ([word 5, word 0, word 63]) ({ duo with twin := { duo.twin with own := [(5, mfW)], twin := [(5, mfW)] } }))
    ∧ (met cmdTwinCounters (fun _ _ u => u.id.twinEn = true) (call0) ([word 0]) (duo)) := by
  refine ⟨?_,
    ?_,
    ⟨5, mfW, _, mfW, _, ?_, ?_, ?_, ?_, rfl, ?_, rfl⟩,
    ?_⟩ <;> decide +kernel

theorem witness_TelemetryAndPacketIoCommandsComplete_1 :
    (met cmdTelemBankSet (fun _ q u => fld q 0 6 0 ≤ 81 ∧ bankEventOk (fld q 0 6 0) (fld q 1 11 0) = true ∧ (flag q 1 13 = true → ((fld q 0 6 0 ≤ 15 ∧ packetEvent (fld q 1 11 0 / 64) (fld q 1 11 0 % 64) = true) ∨ (fld q 0 6 0 = 80 ∧ mpcEvent (fld q 1 11 0 / 64) (fld q 1 11 0 % 64) = true)) ∧ 1024 ≤ wd64 q 2 ∧ wd64 q 2 ≤ 2 ^ 47) ∧ (bankGranted u (fld q 0 6 0) = true → privilegedEvent (fld q 0 6 0) (fld q 1 11 0) = false)) (call0) ([word 1, word 0, word 0, word 0]) (up))
    ∧ (met cmdTelemBankRead (fun _ q _ => fld q 0 6 0 ≤ 81) (call0) ([word 81]) (up))
    ∧ (met cmdTelemUserGrant (fun _ q u => fld q 0 7 0 = 0x60 ∧ fld q 0 15 8 ≤ 81 ∧ (flag q 0 16 = true → fld q 0 15 8 < 80 ∧ (((bankOf u (fld q 0 15 8)).sel ++ (bankOf u (fld q 0 15 8)).pend.map Prod.snd).any fun e => e.en && privilegedEvent (fld q 0 15 8) e.ev) = false)) (call0) ([word (96 + 256 * 79 + 65536)]) (up))
    ∧ (met cmdTelemUserGrant (fun _ q _ => groupKnown (fld q 0 7 0) = true ∧ fld q 0 7 0 ≠ 0x60) (call0) ([word 1]) (up))
    ∧ (met cmdTelemBwSet (fun _ q u => ((hType (wd q 0) = 0x30 ∧ thas u.line.ports (hIdx (wd q 0)) = true) ∨ (hType (wd q 0) = 0x32 ∧ thas u.tr.ports (hIdx (wd q 0)) = true)) ∧ 1 ≤ fld q 1 12 0 ∧ fld q 1 12 0 ≤ 8000) (call0) ([hw 0x30 63, word 8000]) (onLine))
    ∧ (met cmdTelemDumpSet (fun _ q u => (dumpCfgOf q).en = true → dumpCfgOk (dumpCfgOf q) = true ∧ dumpRateOk (dumpCfgOf q :: (((u.tel.dumps.zipIdx).filter fun e => e.2 != fld q 0 1 0).map fun e => e.1.pend.getD e.1.cfg).filter fun x => x.en) = true) (call0) ([word 0, word 0, word 0, word 0, word 0, word 0]) (up))
    ∧ (met cmdTelemDumpStatus (fun _ _ _ => True) (call0) ([word 0]) (up))
    ∧ (met cmdTelemCounters (fun _ _ _ => True) (call0) ([word 0]) (up)) := by
  decide +kernel

theorem witness_TelemetryAndPacketIoCommandsComplete_2 :
    (met cmdPioRingMap (fun _ q _ => fld q 0 7 0 ≠ 0) (call0) ([word 127, word 63]) (up))
    ∧ (met cmdPioCounters (fun _ q _ => fld q 0 6 0 < 64) (call0) ([word 63, word 0]) (up))
    ∧ (met cmdPioCounters (fun _ q _ => fld q 0 6 0 = 64) (call0) ([word 64, word 0]) (up)) := by
  decide +kernel

theorem witness_UpgradeCommandsComplete_1 :
    (met cmdUpgradeLoad (fun _ q u => 512 ≤ fld q 2 24 0 ∧ fld q 2 24 0 ≤ 25165824 ∧ flag q 3 0 = false ∧ u.boot.load = none ∧ u.id.image ≠ loadSlot u ∧ (slotAt u (loadSlot u)).st ≠ 3) (call0) ([word 4096, word 0, word 512, word 0]) (up))
    ∧ (met cmdUpgradeLoad (fun _ q u => 512 ≤ fld q 2 24 0 ∧ fld q 2 24 0 ≤ 25165824 ∧ flag q 3 0 = true ∧ twinReach u = true ∧ u.boot.twinLoad = false) (call0) ([word 4096, word 0, word 25165824, word 1]) (duoReach))
    ∧ (met cmdUpgradeActivate (fun _ q u => fld q 1 11 0 ≤ 3600 ∧ flag q 0 1 = false ∧ flag q 0 0 = true ∧ ((slotAt u (loadSlot u)).st = 2 ∨ (slotAt u (loadSlot u)).st = 3) ∧ u.id.image ≠ loadSlot u ∧ u.boot.swap = 0 ∧ hotOk u (loadSlot u) = true) (call0) ([word 1, word 3600]) ({ up with flash := { up.flash with slots := [{ st := 4 }, { st := 2 }] } }))
    ∧ (met cmdUpgradeActivate (fun _ q u => fld q 1 11 0 ≤ 3600 ∧ flag q 0 1 = false ∧ flag q 0 0 = false ∧ ((slotAt u (loadSlot u)).st = 2 ∨ (slotAt u (loadSlot u)).st = 3) ∧ u.id.image ≠ loadSlot u ∧ u.boot.swap = 0 ∧ (2 ≤ u.twin.st ∨ flag q 0 2 = true)) (call0) ([word 4, word 3600]) ({ up with flash := { up.flash with slots := [{ st := 4 }, { st := 2 }] } }))
    ∧ (met cmdUpgradeActivate (fun _ q u => fld q 1 11 0 ≤ 3600 ∧ flag q 0 1 = true ∧ twinReach u = true) (call0) ([word 2, word 0]) (duoReach))
    ∧ (met cmdUpgradeConfirm (fun _ q u => flag q 0 0 = true ∧ twinReach u = true) (call0) ([word 1]) (duoReach))
    ∧ (met cmdUpgradeConfirm (fun _ q u => flag q 0 0 = false ∧ (slotAt u u.id.image).st = 3 ∧ u.id.fwState = 1) (call0) ([word 0]) ({ up with flash := { up.flash with slots := [{ st := 3 }, {}] } }))
    ∧ (met cmdUpgradeStatus (fun _ _ _ => True) (call0) ([]) (up)) := by
  decide +kernel

theorem witness_UpgradeCommandsComplete_2 :
    (met cmdUpgradeProfile (fun _ q u => fld q 0 1 0 ≠ 3 ∧ u.twin.st = 1 ∧ u.twin.peer = 2 ∧ (fld q 0 1 0 = 2 ∨ u.det.streams.any (fun e => e.2.cfg.sage) = false) ∧ (fld q 0 1 0 = 2 → actUpgradeProfile.sageReservedClash u = false) ∧ tablesFit (fld q 0 1 0) u = true ∧ admNeeded u { u with fwd := { u.fwd with profile := fld q 0 1 0 } } = false) (call0) ([word 0]) ({ duo with fwd := { duo.fwd with profile := 1 } }))
    ∧ (∃ a b k, met cmdUpgradeProfile (fun _ q u => fld q 0 1 0 ≠ 3 ∧ u.twin.st = 1 ∧ u.twin.peer = 2 ∧ (fld q 0 1 0 = 2 ∨ u.det.streams.any (fun e => e.2.cfg.sage) = false) ∧ (fld q 0 1 0 = 2 → actUpgradeProfile.sageReservedClash u = false) ∧ tablesFit (fld q 0 1 0) u = true ∧ admNeeded u { u with fwd := { u.fwd with profile := fld q 0 1 0 } } = true ∧ admJudge { u with fwd := { u.fwd with profile := fld q 0 1 0 } } = .ok a b k) (call0) ([word 2]) (paired)) := by
  refine ⟨?_,
    ⟨okP (some (admJudge converted)), okA (some (admJudge converted)), okN (some (admJudge converted)), ?_, ?_, ?_, ?_, ?_, ?_, ?_, ?_, Option.some.inj (isOk_eq (some (admJudge converted)) (by decide +kernel))⟩⟩ <;> decide +kernel

theorem witness_PowerCommandsComplete :
    (metA cmdPowerTolSet (fun _ => (fun q u => { u with pow := { u.pow with
        tol := tolIn q u.pow.tol, lag := some (2, match u.pow.lag with | some (_, o) => o | none => u.pow.tol) } })) (fun _ q _ => (∀ i, i < 9 → wd q i ≤ 1000000000)) (call0) ([word 1000000000] ++ z 8) (up))
    ∧ (metA cmdPowerPortSet (fun _ => (fun q u => { u with pow := { u.pow with
        tol := { u.pow.tol with ports := tset u.pow.tol.ports (hIdx (wd q 0)) (powerPortIn q) }
        lag := some (2, match u.pow.lag with | some (_, o) => o | none => u.pow.tol) } })) (fun _ q u => ((hType (wd q 0) = 0x30 ∧ thas u.line.ports (hIdx (wd q 0)) = true) ∨ (hType (wd q 0) = 0x32 ∧ thas u.tr.ports (hIdx (wd q 0)) = true)) ∧ (powerPortIn q).tol ≤ 1000000000 ∧ 8 ≤ (powerPortIn q).delay ∧ (powerPortIn q).delay ≤ 80000000 ∧ ((powerPortIn q).off = true → neverOff u (hIdx (wd q 0)) = false)) (call0) ([hw 0x30 63, word 0, word 1, word 80000000]) (onLine))
    ∧ (met cmdPowerConcentrateSet (fun _ _ _ => True) (call0) ([word 65535]) (up))
    ∧ (met cmdPowerDomainStatus (fun _ q _ => fld q 0 6 0 < 80) (call0) ([word 79]) (up))
    ∧ (met cmdPowerStatus (fun _ _ _ => True) (call0) ([]) (up))
    ∧ (met cmdPowerCounters (fun _ q _ => fld q 0 6 0 < 80) (call0) ([word 79, word 0]) (up))
    ∧ (met cmdPowerCounters (fun _ q _ => fld q 0 6 0 = 127) (call0) ([word 127, word 0]) (up)) := by
  decide +kernel

theorem witness_TransactionEventsComplete :
    (∃ i h x, at0 (fun u => txnAt u i = some (h, x) ∧ x.phase = 1 ∧ x.own = none ∧ (x.named = true → u.tm.tide + 2 < x.c)) (prep { phase := 1 } up))
    ∧ (∃ i h x, at0 (fun u => txnAt u i = some (h, x) ∧ x.phase = 1 ∧ x.own = none ∧ x.named = true ∧ x.c ≤ u.tm.tide + 2) (prep { phase := 1, named := true, c := 2 } up))
    ∧ (∃ i h x, at0 (fun u => txnAt u i = some (h, x) ∧ x.phase = 1 ∧ x.own = none ∧ x.named = true ∧ x.c ≤ u.tm.tide + 2) (prep { phase := 1, named := true, c := 2 } up))
    ∧ (∃ i h x p a n b short v, at0 (fun u => txnAt u i = some (h, x) ∧ x.phase = 1 ∧ x.own = none ∧ admitTxn h (if x.named then x.c else u.tm.tide + 3) x u = some (.ok p a n) ∧ partRaise p u = (b, short, v) ∧ short ≠ 0) (shortage))
    ∧ (∃ id records l r, at0 (fun u => served cmdTableCmdlist u = true ∧ tget u.learn.lists id = some l ∧ (List.range l.count).foldl (fun r i => r.bind (listStep l i)) (some { st := u, rest := records }) = some r) ({ up with learn := { up.learn with lists := [(0, ⟨0, 1, false, 0, 0, 0⟩)] } }))
    ∧ (∃ i h x st resp, at0 (fun u => txnAt u i = some (h, x) ∧ x.own = some (st, resp) ∧ x.twin = none ∧ x.phase = 1 ∧ x.c ≤ u.tm.tide + 2 ∧ u.twin.st = 1) (prep { phase := 1, own := some (0, []), c := 2 } { duo with twin := { duo.twin with peer := 0 } }))
    ∧ (∃ i h x st resp, at0 (fun u => txnAt u i = some (h, x) ∧ x.own = some (st, resp) ∧ x.twin = none ∧ x.phase = 1 ∧ x.c ≤ u.tm.tide + 2 ∧ u.twin.st ≠ 1) (prep { phase := 1, own := some (0, []), c := 2 } up)) := by
  refine ⟨⟨0, txnHandle 0 0, { phase := 1 }, ?_⟩,
    ⟨0, txnHandle 0 0, { phase := 1, named := true, c := 2 }, ?_⟩,
    ⟨0, txnHandle 0 0, { phase := 1, named := true, c := 2 }, ?_⟩,
    ⟨0, txnHandle 0 0, { phase := 1, ops := [memOp] }, okP shortV, okA shortV, okN shortV, (partRaise (okP shortV) (shortage.atTime 0)).1, (partRaise (okP shortV) (shortage.atTime 0)).2.1, (partRaise (okP shortV) (shortage.atTime 0)).2.2, ?_, rfl, rfl, isOk_eq shortV (by decide +kernel), rfl, ?_⟩,
    ⟨0, [word 0x0702], _, _, ?_, rfl, rfl⟩,
    ⟨0, txnHandle 0 0, { phase := 1, own := some (0, []), c := 2 }, 0, [], ?_⟩,
    ⟨0, txnHandle 0 0, { phase := 1, own := some (0, []), c := 2 }, 0, [], ?_⟩⟩ <;> decide +kernel

theorem witness_BootEventsComplete_1 :
    (at0 (fun _ => True) (up))
    ∧ (at0 (fun u => u.boot.held = true) (State.reset))
    ∧ (at0 (fun _ => True) (up))
    ∧ (at0 (fun u => u.flt.resetAt ≠ 0 ∧ u.flt.resetAt ≤ elapsed u + 1) ({ up with flt := { up.flt with resetAt := 1 } }))
    ∧ (∃ i, at0 (fun u => u.boot.slot = some i ∧ u.id.fwState = 0 ∧ u.boot.held = false ∧ u.boot.start + msU 3000 ≤ elapsed u) (booting))
    ∧ (∃ i, at0 (fun u => u.boot.slot = some i ∧ u.id.fwState = 0 ∧ u.boot.held = false ∧ ∀ x ∈ u.hbm.stks, x.st ≠ 0) (booting))
    ∧ (∃ i b, at0 (fun u => u.boot.load = some (i, b)) ({ up with boot := { up.boot with load := some (1, {}) } }))
    ∧ (at0 (fun u => u.boot.load = none) (up)) := by
  refine ⟨?_,
    ?_,
    ?_,
    ?_,
    ⟨1, ?_⟩,
    ⟨1, ?_⟩,
    ⟨_, _, rfl⟩,
    ?_⟩ <;> decide +kernel

theorem witness_BootEventsComplete_2 :
    (at0 (fun u => u.boot.swap = 1 ∧ u.id.fwState = 1 ∧ coreClocks u.tm.sub = 0 ∧ ∀ b ∈ u.ecs.mbs, b.owned = false) ({ up with boot := { up.boot with swap := 1 } }))
    ∧ (at0 (fun u => u.boot.swap = 2) ({ up with boot := { up.boot with swap := 2 } }))
    ∧ (at0 (fun u => u.boot.swap = 2) ({ up with boot := { up.boot with swap := 2 } }))
    ∧ (at0 (fun u => u.boot.swap = 3 ∧ u.boot.swapBack = true) ({ up with boot := { up.boot with swap := 3, swapBack := true } }))
    ∧ (at0 (fun u => u.boot.swap = 3 ∧ u.boot.swapBack = false) ({ up with boot := { up.boot with swap := 3 } }))
    ∧ (at0 (fun u => u.boot.confirmEnd ≠ 0 ∧ u.boot.confirmEnd ≤ u.tm.bounds + 1 ∧ u.boot.swap = 0 ∧ (slotAt u u.id.image).st = 3) ({ up with boot := { up.boot with confirmEnd := 1 }, flash := { up.flash with slots := [{ st := 3 }, {}] } }))
    ∧ (at0 (fun u => u.twin.st = 3 ∧ u.twin.join = 2 ∧ u.boot.convert = true) ({ duo with twin := { duo.twin with st := 3, join := 2 }, boot := { duo.boot with convert := true } })) := by
  decide +kernel

theorem witness_TimeEventsComplete_1 :
    (up.boot.held = false)
    ∧ (({ up with tm := { up.tm with step := some ⟨false, true, 0, 1⟩ } } : State).boot.held = false
    ∧ ({ up with tm := { up.tm with step := some ⟨false, true, 0, 1⟩ } } : State).tm.step.isSome = true)
    ∧ (at0 (fun u => slewRemaining u = 0) (up))
    ∧ (at0 (fun u => tideSource u = 1) ({ up with tm := { up.tm with source := 1 } }))
    ∧ (∃ tide, at0 (fun u => tideSource u = 1 ∧ u.tm.tideInLost = false ∧ tide = edgeTide u) ({ up with tm := { up.tm with source := 1 } }))
    ∧ (at0 (fun u => tideSource u = 1 ∧ u.tm.tideInLost = true) ({ up with tm := { up.tm with source := 1, tideInLost := true } }))
    ∧ (∃ tide br, at0 (fun u => tideSource u = 1 ∧ u.tm.tideInLost = false ∧ (br = true ∨ tide ≠ edgeTide u)) ({ up with tm := { up.tm with source := 1 } }))
    ∧ (at0 (fun u => tideSource u = 1 ∧ 8 < u.tm.tideInBad ∧ u.tm.tideInLost = false) ({ up with tm := { up.tm with source := 1, tideInBad := 9 } })) := by
  refine ⟨?_,
    ?_,
    ?_,
    ?_,
    ⟨_, ?_, ?_, rfl⟩,
    ?_,
    ⟨5, true, ?_⟩,
    ?_⟩ <;> decide +kernel

theorem witness_TimeEventsComplete_2 :
    (at0 (fun _ => True) (up))
    ∧ (at0 (fun u => u.id.fwState ≠ 3 ∧ u.tm.ppsEdge ≠ nowLin u + 1 ∧ ((nowLin u : Int) - u.tm.ppsOffset * 65536) % (secU : Int) = 0) (up))
    ∧ (at0 (fun u => u.id.fwState ≠ 3 ∧ u.tm.todTx = true ∧ u.tm.todDue = true ∧ u.tm.ppsEdge ≠ 0 ∧ nowLin u < u.tm.ppsEdge - 1 + msU 100) ({ up with tm := { up.tm with todTx := true, todDue := true, ppsEdge := 1 } }))
    ∧ (at0 (fun u => u.tm.todRx = true) ({ up with tm := { up.tm with todRx := true } }))
    ∧ (at0 (fun u => u.tm.todRx = true) ({ up with tm := { up.tm with todRx := true } }))
    ∧ (∃ port e, at0 (fun u => u.host.tsrEnable = true ∧ u.host.tsrStopped = false ∧ (u.host.tsrProducer - u.host.tsrConsumer).toNat < 65536 ∧ (u.tm.ports.getD port {}).fifo.find? (fun e => !e.own) = some e) ({ up with host := { up.host with tsrEnable := true }, tm := { up.tm with ports := up.tm.ports.set 63 { fifo := [⟨0, 0, false, false, 0, false⟩] } } })) := by
  refine ⟨?_,
    ?_,
    ?_,
    ?_,
    ?_,
    ⟨63, _, ?_, ?_, ?_, rfl⟩⟩ <;> decide +kernel

theorem witness_HostRegisterEventsComplete_1 :
    (at0 (fun u => u.id.fwState ≠ 0 ∧ (u.flt.mpcFailed = false ∨ u.flt.pilotDead = false)) (up))
    ∧ (at0 (fun _ => True) (up))
    ∧ (at0 (fun _ => True) (up))
    ∧ (∃ v, at0 (fun u => (u.host.evrProducer - toWord v).toNat ≤ 2 ^ u.host.evrLog) (up))
    ∧ (∃ v, at0 (fun u => 2 ^ u.host.evrLog < (u.host.evrProducer - toWord v).toNat) (up))
    ∧ (at0 (fun _ => True) (up))
    ∧ (at0 (fun _ => True) (up))
    ∧ (at0 (fun _ => True) (up)) := by
  refine ⟨?_,
    ?_,
    ?_,
    ⟨0, ?_⟩,
    ⟨1, ?_⟩,
    ?_⟩ <;> decide +kernel

theorem witness_HostRegisterEventsComplete_2 :
    (at0 (fun _ => True) (up))
    ∧ (at0 (fun _ => True) (up))
    ∧ (∃ off, at0 (fun _ => off / 4 * 4 < 0x40000) (up))
    ∧ (∃ off, at0 (fun _ => off / 4 * 4 < 0x10000) (up))
    ∧ (∃ off, at0 (fun _ => off / 4 * 4 < 0x1000) (up))
    ∧ (∃ off, at0 (fun _ => off / 4 * 4 < 0x1000) (up))
    ∧ (∃ off, at0 (fun _ => off / 4 * 4 < 2 ^ 31) (up))
    ∧ (∃ off, at0 (fun _ => off / 4 * 4 < 2 ^ 31) (up)) := by
  refine ⟨?_,
    ?_,
    ⟨0x3FFFF, ?_⟩,
    ⟨0xFFFF, ?_⟩,
    ⟨0xFFF, ?_⟩,
    ⟨0xFFF, ?_⟩,
    ⟨2 ^ 31 - 1, ?_⟩,
    ⟨2 ^ 31 - 1, ?_⟩⟩ <;> decide +kernel

theorem witness_HostRegisterEventsComplete_3 :
    (∃ off n bs k, at0 (fun u => n ≤ 4096 ∧ userRead u 3 (off % 2 ^ 31) n = (bs, k + 1)) (up))
    ∧ (∃ off n bs, at0 (fun u => n ≤ 4096 ∧ userRead u 3 (off % 2 ^ 31) n = (bs, 0)) (user2))
    ∧ (at0 (fun u => u.id.fwState = 0) (State.reset))
    ∧ (at0 (fun u => u.id.fwState ≠ 0) (up))
    ∧ (at0 (fun u => u.id.fwState ≠ 0) (up))
    ∧ (at0 (fun _ => True) (up))
    ∧ (∃ fn, at0 (fun _ => fn < 3) (up))
    ∧ (∃ rate width flit, at0 (fun u => toWord (rate % 8 + width % 32 * 16 + b2n flit * 512) ≠ u.host.linkStatus) (up)) := by
  refine ⟨⟨0, 8, (userRead (up.atTime 0) 3 0 8).1, (userRead (up.atTime 0) 3 0 8).2 - 1, ?_⟩,
    ⟨2 ^ 31 - 2, 2, (userRead (user2.atTime 0) 3 (2 ^ 31 - 2) 2).1, ?_⟩,
    ?_,
    ?_,
    ?_,
    ?_,
    ⟨2, ?_⟩,
    ⟨5, 16, true, ?_⟩⟩ <;> decide +kernel

theorem witness_HostQueueEventsComplete_1 :
    (∃ r, at0 (fun _ => r < 64) (up))
    ∧ (at0 (fun _ => True) (up))
    ∧ (at0 (fun u => u.host.evrEnable = true) (evr up))
    ∧ (at0 (fun u => u.host.tsrEnable = true ∧ u.host.tsrStopped = false) ({ up with host := { up.host with tsrEnable := true } }))
    ∧ (∃ r, (r < 64) ∧ at0 (fun u => (ringOf false r u).enable = true) (ring63 false))
    ∧ (∃ r, (r < 64) ∧ at0 (fun u => (ringOf true r u).enable = true) (ring63 true))
    ∧ (∃ e r, at0 (fun u => u.host.evrEnable = true ∧ evrFull u = false ∧ u.host.evDiscarded = 0 ∧ u.host.evQueue = e :: r) (evr { up with host := { up.host with evQueue := [ev0] } }))
    ∧ (at0 (fun u => u.host.evrEnable = true ∧ evrFull u = false ∧ 0 < u.host.evDiscarded) (evr { up with host := { up.host with evDiscarded := 1 } })) := by
  refine ⟨⟨63, ?_⟩,
    ?_,
    ?_,
    ?_,
    ⟨63, ?_⟩,
    ⟨63, ?_⟩,
    ⟨ev0, [], ?_⟩,
    ?_⟩ <;> decide +kernel

theorem witness_HostQueueEventsComplete_2 :
    (at0 (fun u => u.host.evrMod.due (elapsed u) = true) ({ up with host := { up.host with evrMod := due1 } }))
    ∧ (at0 (fun u => u.host.tsrMod.due (elapsed u) = true) ({ up with host := { up.host with tsrMod := due1 } }))
    ∧ (∃ r, (r < 64) ∧ at0 (fun u => (ringOf false r u).mdr.due (elapsed u) = true) (ring63 false))
    ∧ (∃ r, (r < 64) ∧ at0 (fun u => (ringOf true r u).mdr.due (elapsed u) = true) (ring63 true))
    ∧ (∃ (i : Nat) (d : Dump) (r : List Byte), at0 (fun u => u.tel.dumps[i]? = some d ∧ d.writing = some r) ({ up with tel := { up.tel with dumps := [{}, dump0] } }))
    ∧ (∃ (i : Nat) (d : Dump) (r : List Byte), at0 (fun u => u.tel.dumps[i]? = some d ∧ d.writing = some r) ({ up with tel := { up.tel with dumps := [{}, dump0] } }))
    ∧ (at0 (fun u => u.boot.held = true ∨ u.flt.pilotDead = true) (State.reset))
    ∧ (at0 (fun u => u.boot.held = false ∧ u.flt.pilotDead = false) (up)) := by
  refine ⟨?_,
    ?_,
    ⟨63, ?_⟩,
    ⟨63, ?_⟩,
    ⟨1, dump0, [0#8], ?_⟩,
    ⟨1, dump0, [0#8], ?_⟩,
    ?_⟩ <;> decide +kernel

theorem witness_HostQueueEventsComplete_3 :
    (at0 (fun u => u.boot.held = false ∧ u.flt.pilotDead = false) (up))
    ∧ (at0 (fun _ => True) (up))
    ∧ (∃ i, at0 (fun u => i ≠ 1 ∧ tapAccepts u i = true ∧ (i < 4 ∨ 7 < i)) ({ up with id := { up.id with lifecycle := 0 } }))
    ∧ (∃ i, (4 ≤ i) ∧ (i ≤ 7) ∧ at0 (fun u => tapAccepts u i = true) ({ up with id := { up.id with lifecycle := 0 } }))
    ∧ (∃ i, at0 (fun u => tapAccepts u i = false) (up))
    ∧ (at0 (fun _ => True) (up)) := by
  refine ⟨?_,
    ?_,
    ⟨8, ?_⟩,
    ⟨7, ?_⟩,
    ⟨4, ?_⟩,
    ?_⟩ <;> decide +kernel

theorem witness_FaultEventsComplete_1 :
    (∃ unit kind, at0 (fun u => u.boot.held = false ∧ 1 ≤ kind ∧ kind ≤ 15 ∧ ¬(kind = 2 ∧ (unit = unitOf 60 2 ∨ unit = unitOf 60 3)) ∧ soundingMasks u (clusterOf unit) = false) (up))
    ∧ (∃ pool, at0 (fun u => u.boot.held = false ∧ pool < 2 ∧ soundingMasks u (clusterOf (unitOf 60 2 + pool)) = false) (up))
    ∧ (∃ d f, at0 (fun u => tget u.flt.fences d = some f ∧ f.perm = false ∧ u.id.fwState ≠ 3 ∧ coreClocks u.tm.sub = 0) ({ up with flt := { up.flt with fences := [(4, ⟨false, 0⟩)] } }))
    ∧ (∃ cause, at0 (fun u => u.boot.held = false ∧ u.boot.ready = true ∧ u.flt.mpcFailed = false ∧ (cause = 3 → u.boot.swap = 3) ∧ u.id.fwState = 3) ({ up with id := { up.id with fwState := 3 } }))
    ∧ (∃ cause times, at0 (fun u => u.boot.held = false ∧ u.boot.ready = true ∧ u.flt.mpcFailed = false ∧ (cause = 3 → u.boot.swap = 3) ∧ u.id.fwState ≠ 3 ∧ times = (u.flt.mpcTimes.filter fun x => decide (elapsed u < x + 3600 * secU)) ++ [elapsed u] ∧ 4 ≤ times.length) ({ up with flt := { up.flt with mpcTimes := [0, 0, 0] } }))
    ∧ (∃ cause times, at0 (fun u => u.boot.held = false ∧ u.boot.ready = true ∧ u.flt.mpcFailed = false ∧ (cause = 3 → u.boot.swap = 3) ∧ u.id.fwState ≠ 3 ∧ times = (u.flt.mpcTimes.filter fun x => decide (elapsed u < x + 3600 * secU)) ++ [elapsed u] ∧ times.length < 4) (up))
    ∧ (at0 (fun u => u.flt.mpcFailed = true ∧ u.id.fwState = 2) ({ up with id := { up.id with fwState := 2 }, flt := { up.flt with mpcFailed := true } }))
    ∧ (at0 (fun u => u.boot.held = false) (up)) := by
  refine ⟨⟨0xFFFF, 15, ?_⟩,
    ⟨1, ?_⟩,
    ⟨4, ⟨false, 0⟩, ?_⟩,
    ⟨0, ?_⟩,
    ⟨0, _, ?_, ?_, ?_, ?_, ?_, rfl, ?_⟩,
    ⟨0, _, ?_, ?_, ?_, ?_, ?_, rfl, ?_⟩,
    ?_⟩ <;> decide +kernel

theorem witness_FaultEventsComplete_2 :
    (at0 (fun u => u.boot.held = false) (up))
    ∧ (at0 (fun u => u.boot.held = false) (up))
    ∧ (∃ clk, at0 (fun u => clk ≤ 10 ∧ bit u.board.clkLost clk = false) (up))
    ∧ (∃ clk, at0 (fun u => clk ≤ 10 ∧ bit u.board.clkLost clk = true) ({ up with board := { up.board with clkLost := 1024 } })) := by
  refine ⟨?_,
    ?_,
    ⟨10, ?_⟩,
    ⟨10, ?_⟩⟩ <;> decide +kernel

theorem witness_PowerEventsComplete :
    (∃ (region : Nat) (sensors : List Reading), at0 (fun u => u.boot.held = false ∧ region < 4 ∧ sensors.length = 4) (up))
    ∧ (∃ d, at0 (fun u => u.boot.swap < 2 ∧ (domOf u d).wake = 0 ∧ (domOf u d).st < (domOf u d).floor ∧ (domOf u d).floor < 4 ∧ max (domOf u d).asked (domOf u d).since + entryDelay (domOf u d).floor ≤ elapsed u ∧ (d = 39 → bridgeTraffic u = false)) (floor 0 3))
    ∧ (at0 (fun _ => True) (up))
    ∧ (∃ d, at0 (fun u => (domOf u d).wake ≠ 0) (waking))
    ∧ (∃ k, at0 (fun u => k < 8 ∧ bit u.pow.octOn k = true ∧ bit u.pow.unconc k = false ∧ (16384 < octetFill u k ∨ 16384 < ((u.fwd.egress.filter fun e => e.1 / 8 == k).map fun e => e.2.md.len).sum)) (full)) := by
  refine ⟨⟨3, [(-40, true), (114, true), (0, true), (0, false)], ?_⟩,
    ⟨79, ?_⟩,
    ?_,
    ⟨79, ?_⟩,
    ⟨7, ?_⟩⟩ <;> decide +kernel

theorem witness_SelfTestEventsComplete_1 :
    (∃ d, at0 (fun u => coreClocks u.tm.sub = 0 ∧ d ≤ 79 ∧ u.test.run = none ∧ u.id.lifecycle = 1 ∧ u.id.fwState = 1 ∧ soundEligible u d = true ∧ (u.test.asked.contains d = true ∨ soundDue u d = true)) (asked40))
    ∧ (∃ r, at0 (fun u => u.test.run = some r ∧ r.phase = 0 ∧ holdsNone u r.dom = true) (sounding 36 0 up))
    ∧ (∃ r, at0 (fun u => u.test.run = some r ∧ r.phase = 0 ∧ (r.dom = 61 ∨ r.dom = 62) ∧ r.start + 8 ≤ u.tm.bounds ∧ holdsNone u r.dom = false) (lastDie))
    ∧ (∃ r, at0 (fun u => u.test.run = some r ∧ r.phase = 1) (sounding 40 1 up))
    ∧ (∃ r, at0 (fun u => u.test.run = some r ∧ r.phase = 1 ∧ r.again = false) (sounding 40 1 up))
    ∧ (∃ r, at0 (fun u => u.test.run = some r ∧ r.phase = 1 ∧ r.again = true) ({ up with test := { up.test with run := some { run0 40 1 with again := true } } }))
    ∧ (∃ d k, at0 (fun u => d ≤ 79 ∧ u.test.enable = true ∧ k = (u.tm.bounds - u.test.start) / soundPeriod u ∧ 1 ≤ k ∧ (u.test.slices.getD d {}).failed = false ∧ (u.test.slices.getD d {}).overduePeriod ≠ k ∧ ((u.test.slices.getD d {}).done = 0 ∨ (u.test.slices.getD d {}).done - 1 < u.test.start + (k - 1) * soundPeriod u)) (due))
    ∧ (at0 (fun u => u.test.scan = true) ({ up with test := { up.test with scan := true } })) := by
  refine ⟨⟨40, by decide +kernel, by decide +kernel, by decide +kernel, by decide +kernel, by decide +kernel, by change soundEligible (asked40.atTime 0) 40 = true; unfold soundEligible; rw [fits _ _ (by decide +kernel)]; decide +kernel, by decide +kernel⟩,
    ⟨run0 36 0, ?_⟩,
    ⟨run0 61 0, ?_⟩,
    ⟨run0 40 1, ?_⟩,
    ⟨run0 40 1, ?_⟩,
    ⟨{ run0 40 1 with again := true }, ?_⟩,
    ⟨79, 1, ?_⟩,
    ?_⟩ <;> decide +kernel

theorem witness_SelfTestEventsComplete_2 :
    (at0 (fun u => u.test.nonceEnd ≤ u.tm.bounds) (up))
    ∧ (at0 (fun u => u.test.surveyEnd ≤ u.tm.bounds ∧ u.id.lifecycle = 2) ({ up with id := { up.id with lifecycle := 2 } }))
    ∧ (∃ i sel v, at0 (fun u => sel = (bankOf u 80).sel.getD i {} ∧ sel.en = true ∧ sel.sample = true ∧ mpcEvent (sel.ev / 64) (sel.ev % 64) = true ∧ sampleAllowed 80 (modBank 80 (fun x => { x with pc := x.pc.set i (2 ^ 48 - sel.period) }) u) = (true, v)) (sampler))
    ∧ (∃ i sel v, at0 (fun u => sel = (bankOf u 80).sel.getD i {} ∧ sel.en = true ∧ sel.sample = true ∧ mpcEvent (sel.ev / 64) (sel.ev % 64) = true ∧ sampleAllowed 80 (modBank 80 (fun x => { x with pc := x.pc.set i (2 ^ 48 - sel.period) }) u) = (false, v)) ({ sampler with tel := { sampler.tel with samples := 4096 } })) := by
  refine ⟨?_,
    ?_,
    ⟨7, _, _, rfl, ?_, ?_, ?_, rfl⟩,
    ⟨7, _, _, rfl, ?_, ?_, ?_, rfl⟩⟩ <;> decide +kernel

theorem witness_HbmEventsComplete_1 :
    (∃ i, at0 (fun u => i < 6 ∧ (stackAt u i).st = 0) (up))
    ∧ (∃ i, at0 (fun u => i < 6 ∧ (stackAt u i).st = 0) (up))
    ∧ (∃ i a, at0 (fun u => i < 6 ∧ a < 31 * gib ∧ (stackAt u i).st ≠ 0 ∧ (stackAt u i).st ≠ 3 ∧ (stackAt u i).selfRefresh = false) (inService 5 up))
    ∧ (∃ i a, at0 (fun u => i < 6 ∧ a < 31 * gib ∧ (stackAt u i).st ≠ 0 ∧ (stackAt u i).st ≠ 3 ∧ (stackAt u i).selfRefresh = false ∧ ((stackAt u i).chans.getD (rankOf a / 4) {}).window = false) (inService 5 up))
    ∧ (∃ i m ms, at0 (fun u => (stackAt u i).migs = m :: ms) (migrating))
    ∧ (∃ i r, at0 (fun u => tgetD (stackAt u i).ceFrom r 0 + 28800000 ≤ u.tm.bounds) ({ up with tm := { up.tm with bounds := 28800000 } }))
    ∧ (∃ i, at0 (fun _ => i < 6) (up))
    ∧ (∃ i c x, at0 (fun u => x = (stackAt u i).chans.getD c {} ∧ x.window = true ∧ (u.tm.tide - x.lastWin) * tideU + u.tm.sub < (memCfg u i).w * nsU) (window 5 31 up)) := by
  refine ⟨⟨5, ?_⟩,
    ⟨5, ?_⟩,
    ⟨5, 31 * gib - 1, ?_⟩,
    ⟨5, 31 * gib - 1, ?_⟩,
    ⟨5, ⟨0, 0, 112, false⟩, [], ?_⟩,
    ⟨5, 40, ?_⟩,
    ⟨5, ?_⟩,
    ⟨5, 31, _, rfl, ?_⟩⟩ <;> decide +kernel

theorem witness_HbmEventsComplete_2 :
    (∃ i c x, at0 (fun u => x = (stackAt u i).chans.getD c {} ∧ x.window = true ∧ (memCfg u i).w * nsU ≤ (u.tm.tide - x.lastWin) * tideU + u.tm.sub ∧ x.ovf ≠ 2) ({ (window 5 31 up) with tm := { up.tm with tide := 1000 } }))
    ∧ (∃ i c x, at0 (fun u => x = (stackAt u i).chans.getD c {} ∧ x.window = true ∧ (memCfg u i).w * nsU ≤ (u.tm.tide - x.lastWin) * tideU + u.tm.sub ∧ x.ovf = 2) (modChan 5 31 (fun x => { x with ovf := 2 }) { (window 5 31 up) with tm := { up.tm with tide := 1000 } })) := by
  refine ⟨⟨5, 31, _, rfl, ?_⟩,
    ⟨5, 31, _, rfl, ?_⟩⟩ <;> decide +kernel

theorem witness_LineEventsComplete_1 :
    (at0 (fun _ => True) (up))
    ∧ (∃ (p : Nat) (x : Port), at0 (fun u => tget u.line.ports p = some x ∧ x.up = false ∧ holdReached x (elapsed u) = true) (held false))
    ∧ (∃ (p : Nat) (x : Port), at0 (fun u => tget u.line.ports p = some x ∧ x.up = true ∧ holdReached x (elapsed u) = true) (held true))
    ∧ (∃ p ab x, at0 (fun u => macFenced u p none = false ∧ tget u.line.ports p = some x ∧ x.loop = 0 ∧ x.poweredOff = false ∧ (x.up = true ∨ ab = true)) (linked))
    ∧ (∃ p c ab cl tp, at0 (fun u => macFenced u p (some c) = false ∧ tget u.tr.clients c = some cl ∧ tget u.tr.ports p = some tp ∧ tp.enabled = true ∧ oduPort u 5 (handle 0x40 cl.odu) = p ∧ (cl.up = true ∨ ab = true)) (clientUp))
    ∧ (∃ p x, at0 (fun u => firstStart u p = some x ∧ x ≤ nowLin u) (txq { pkt0 with start := some 0 }))
    ∧ (at0 (fun _ => True) (up))
    ∧ (∃ p x e m, at0 (fun u => firstStart u p = some x ∧ x ≤ nowLin u ∧ (u.fwd.txq.find? fun e => e.1 == p && e.2.start == some x) = some e ∧ macOf u p e.2 = some m ∧ txOpen u p e.2.outClient = true ∧ macFenced u p e.2.outClient = false) (txq { pkt0 with start := some 0 })) := by
  refine ⟨?_,
    ⟨63, _, rfl, ?_⟩,
    ⟨63, _, rfl, ?_⟩,
    ⟨63, false, _, ?_, rfl, ?_⟩,
    ⟨16, 0, false, _, _, ?_, rfl, rfl, ?_⟩,
    ⟨63, _, rfl, ?_⟩,
    ?_,
    ⟨63, _, _, _, rfl, ?_, rfl, rfl, ?_⟩⟩ <;> decide +kernel

theorem witness_LineEventsComplete_2 :
    (∃ p e m, at0 (fun u => (u.fwd.txq.find? fun e => e.1 == p && e.2.start.isNone) = some e ∧ macOf u p e.2 = some m ∧ txOpen u p e.2.outClient = true ∧ macFenced u p e.2.outClient = false) (txq pkt0))
    ∧ (∃ p e m, at0 (fun u => (u.fwd.txq.find? fun e => e.1 == p && e.2.start.isNone) = some e ∧ macOf u p e.2 = some m ∧ txOpen u p e.2.outClient = false ∧ macFenced u p e.2.outClient = false) (offLine))
    ∧ (∃ p x, at0 (fun u => u.tm.ports.getD p {} = x ∧ 0 < x.origRate ∧ (x.origLast = 0 ∨ x.origLast - 1 + secU / x.origRate ≤ elapsed u) ∧ thas u.line.ports p = true ∧ txOpen u p none = true) (originating))
    ∧ (∃ p e, at0 (fun u => (u.fwd.egress.find? fun e => e.1 == p) = some e ∧ (domOf u 39).st ≠ 0) (asleep))
    ∧ (∃ p e, at0 (fun u => (u.fwd.egress.find? fun e => e.1 == p) = some e ∧ (domOf u 39).st = 0 ∧ ((fenced (egressTaken p e u) 39 || fenced (egressTaken p e u) e.2.pipe) = true ∨ macOf (egressTaken p e u) p e.2 = none)) (walled 39 egress))
    ∧ (∃ p e m, at0 (fun u => (u.fwd.egress.find? fun e => e.1 == p) = some e ∧ (domOf u 39).st = 0 ∧ (fenced (egressTaken p e u) 39 || fenced (egressTaken p e u) e.2.pipe) = false ∧ macOf (egressTaken p e u) p e.2 = some m) (egress)) := by
  refine ⟨⟨63, _, _, rfl, rfl, ?_⟩,
    ⟨63, _, _, rfl, rfl, ?_⟩,
    ⟨63, _, rfl, ?_⟩,
    ⟨63, _, rfl, ?_⟩,
    ⟨63, _, rfl, ?_⟩,
    ⟨63, _, _, rfl, ?_, ?_, rfl⟩⟩ <;> decide +kernel

theorem witness_ForwardingEventsComplete :
    (∃ o both held low v q, at0 (fun u => both = ((u.fwd.pipes.getD (2 * (o % 8)) {}).waiting.filter fun k => !k.pre) ++ ((u.fwd.pipes.getD (2 * (o % 8) + 1) {}).waiting.filter fun k => !k.pre) ∧ (both.find? fun k => decide (k.since + holdLimit u ≤ elapsed u)) = some held ∧ pickPkt (fun k x => decide (k.prio < x.prio) || (k.prio == x.prio && decide (k.since < x.since))) both = some low ∧ v = (if low.prio < held.prio then low else held) ∧ q = (if ((u.fwd.pipes.getD (2 * (o % 8)) {}).waiting.filter fun k => !k.pre).contains v then 2 * (o % 8) else 2 * (o % 8) + 1)) (late))
    ∧ (∃ pipe c p, at0 (fun u => p = pipe % 16 ∧ slotClock u.fwd.slots c = true ∧ fenced u p = false) (up))
    ∧ (at0 (fun u => ∀ p, p < 16 → staleIn u p = 0) (up))
    ∧ (at0 (fun u => ∀ p, p < 16 → staleEg u p = 0) (up))
    ∧ (at0 (fun u => usU 10 ≤ u.tm.sub ∧ u.fwd.oldIn.isSome = true) ({ up with fwd := { up.fwd with oldIn := some {} }, tm := { up.tm with sub := usU 10 } }))
    ∧ (at0 (fun u => usU 10 ≤ u.tm.sub ∧ u.fwd.oldEg.isSome = true) ({ up with fwd := { up.fwd with oldEg := some {} }, tm := { up.tm with sub := usU 10 } })) := by
  refine ⟨⟨7, _, _, _, _, _, rfl, rfl, rfl, rfl, rfl⟩,
    ⟨15, 0, _, rfl, ?_⟩,
    ?_⟩ <;> decide +kernel

theorem witness_LearningEventsComplete_1 :
    (∃ (i : Nat) (r : LearnReq) (tb : DillTab), at0 (fun u => mayDrive u = true ∧ u.learn.queue[i]? = some r ∧ tget u.tab.dill r.table = some tb ∧ ((u.learn.queue.take i).any fun x => x.table == r.table && bucketOf tb x.key == bucketOf tb r.key) = false) (learnt none))
    ∧ (∃ (i : Nat) (r : LearnReq), at0 (fun u => mayDrive u = true ∧ u.learn.queue[i]? = some r ∧ tget u.tab.dill r.table = none) (unlearnt))
    ∧ (∃ tab key m, at0 (fun u => slotOf u tab key = some m ∧ m.lock ≠ 0 ∧ m.lock ≤ u.tm.tide + 1) (moved 1))
    ∧ (∃ tab key m, at0 (fun u => slotOf u tab key = some m ∧ m.lock = 0 ∧ m.start + (profOf u (keyDomain key)).window ≤ u.tm.tide) (moved 0))
    ∧ (∃ tab, at0 (fun u => isLearnTable u tab = true ∧ mayDrive u = true) (learnt none))
    ∧ (∃ tab page tb v, at0 (fun u => tget u.tab.dill tab = some tb ∧ mayDrive u = true ∧ takePage tab page u = some v ∧ ((pageEntries v tab page).any fun e => e.2.2.v.open) = true) (learning))
    ∧ (∃ tab page tb v, at0 (fun u => tget u.tab.dill tab = some tb ∧ mayDrive u = true ∧ takePage tab page u = some v ∧ ((pageEntries v tab page).any fun e => e.2.2.v.open) = false) (learnt none))
    ∧ (∃ tab page tb v, at0 (fun u => tget u.tab.dill tab = some tb ∧ mayDrive u = true ∧ takePage tab page u = some v ∧ ((pageEntries v tab page).any fun e => e.2.2.v.open) = false ∧ tget tb.digests page = none) (learnt none)) := by
  refine ⟨⟨0, _, _, ?_, rfl, rfl, ?_⟩,
    ⟨0, _, ?_, rfl, ?_⟩,
    ⟨0, 0, _, rfl, ?_⟩,
    ⟨0, 0, _, rfl, ?_⟩,
    ⟨0, ?_⟩,
    ⟨0, 0, _, _, rfl, ?_, rfl, ?_⟩,
    ⟨0, 0, _, _, rfl, ?_, rfl, ?_⟩,
    ⟨0, 0, _, _, rfl, ?_, rfl, ?_⟩⟩ <;> decide +kernel

theorem witness_LearningEventsComplete_2 :
    (∃ tab page tb yours v, at0 (fun u => tget u.tab.dill tab = some tb ∧ mayDrive u = true ∧ takePage tab page u = some v ∧ ((pageEntries v tab page).any fun e => e.2.2.v.open) = false ∧ tget tb.digests page = some yours ∧ canonDigest (pageCanon v tab tb page) = yours.toNat) (learnt (some 0#32)))
    ∧ (∃ tab page tb yours mine v w, at0 (fun u => tget u.tab.dill tab = some tb ∧ mayDrive u = true ∧ takePage tab page u = some v ∧ ((pageEntries v tab page).any fun e => e.2.2.v.open) = false ∧ tget tb.digests page = some yours ∧ mine = canonDigest (pageCanon v tab tb page) ∧ mine ≠ yours.toNat ∧ w = learnCount 14 1 (modDill tab (fun d => { d with pages := d.pages + 1 }) v)) (learnt (some 1#32)))
    ∧ (∃ (tab page : Nat) (form : Form) (tb : DillTab) (m : Tab DillVal), at0 (fun u => tget u.tab.dill tab = some tb ∧ m = form.foldl (fun m e => tset m (e.1 % 2 ^ 160) ({ act := e.2.1 % 2 ^ 24, cookie := toWord e.2.2.2, static := bit e.2.2.1 7, learned := bit e.2.2.1 6, port := bits e.2.2.1 5 0 } : DillVal)) [] ∧ repairable u tb = true ∧ (tget tb.digests page).map BitVec.toNat = some (canonDigest m) ∧ ((pageEntries u tab page).any fun e => e.2.2.v.open) = false) ({ learnt (some 0#32) with twin := { up.twin with st := 1, hawser := true, peer := 2 } }))
    ∧ (∃ tab, at0 (fun u => isLearnTable u tab = true ∧ mayDrive u = true) (learnt none))
    ∧ (∃ id f v, at0 (fun u => thas u.learn.flushes id = true ∧ mayDrive u = true ∧ v = (dillAll u).foldl (fun s e => if isLearnTable s e.2.1 then flushBucket id e.2.1 e.2.2.1 s else s) u ∧ tget v.learn.flushes id = some f) (learnt none))
    ∧ (∃ tab b, at0 (fun u => (u.tab.held.any fun h => h.table == tab && h.bucket == b && decide (h.till ≤ elapsed u)) = true) (learnt none)) := by
  refine ⟨⟨0, 0, _, _, _, rfl, ?_, rfl, ?_, rfl, ?_⟩,
    ⟨0, 0, _, _, _, _, _, rfl, ?_, rfl, ?_, rfl, rfl, ?_, rfl⟩,
    ⟨0, 0, [], _, _, rfl, rfl, ?_, rfl, ?_⟩,
    ⟨0, ?_⟩,
    ⟨15, _, _, ?_, ?_, rfl, rfl⟩,
    ⟨0, 5, ?_⟩⟩ <;> decide +kernel

theorem witness_TrafficEventsComplete_1 :
    (at0 (fun _ => True) (up))
    ∧ (at0 (fun _ => True) (up))
    ∧ (at0 (fun _ => True) (up))
    ∧ (∃ p k b id unit now, (poolOf (refs false) p).refs = [⟨k, false, b, id, unit⟩] ∧ (poolOf (refs false) p).refAt ≤ k ∧ k < now)
    ∧ (∃ p k b n unit now, (poolOf (refs true) p).refs = [⟨k, true, b, n, unit⟩] ∧ (poolOf (refs true) p).refAt ≤ k ∧ k < now)
    ∧ ((∃ x, tget (poolOf (granted5 7 2) 1).bufs 5 = some x ∧ x.used = true ∧ x.since ≠ 2 ∧ x.owner = 7 ∧ 1 < x.count) ∧ (∃ x, tget (poolOf (granted5 7 1) 1).bufs 5 = some x ∧ x.used = true ∧ x.since ≠ 2 ∧ x.owner = 7 ∧ x.count ≤ 1))
    ∧ (∃ client egress i k, at0 (fun u => fenced u 60 = true ∧ i = ((waitingAt egress u).findIdx fun k => k.ready && k.owner == client) ∧ (waitingAt egress u)[i]? = some k) (walled 60 (waitingFor pkt0)))
    ∧ (∃ client egress i k, at0 (fun u => fenced u 60 = false ∧ i = ((waitingAt egress u).findIdx fun k => k.ready && k.owner == client) ∧ (waitingAt egress u)[i]? = some k) (waitingFor pkt0)) := by
  refine ⟨?_,
    ?_,
    ?_,
    ⟨1, 0, 5, 2, 0, 1, ?_⟩,
    ⟨1, 0, 5, 2, 0, 1, ?_⟩,
    ⟨⟨_, rfl, ?_⟩, ⟨_, rfl, ?_⟩⟩,
    ⟨0, false, _, _, ?_, rfl, rfl⟩,
    ⟨0, false, _, _, ?_, rfl, rfl⟩⟩ <;> decide +kernel

theorem witness_TrafficEventsComplete_2 :
    (∃ port, at0 (fun u => portHeld (dropTooLongs port u) port = true ∨ mayDrive (dropTooLongs port u) = false ∨ fenced (dropTooLongs port u) (56 + port / 16) = true) ({ duo with twin := { duo.twin with st := 2 } }))
    ∧ (∃ port v q co w, at0 (fun u => portHeld (dropTooLongs port u) port = false ∧ mayDrive (dropTooLongs port u) = true ∧ fenced (dropTooLongs port u) (56 + port / 16) = false ∧ v = refreshSelect port (nowLin (dropTooLongs port u)) (dropTooLongs port u) ∧ portChoice port (nowLin v) v = some (q, co, w)) (busy))
    ∧ (∃ port v, at0 (fun u => portHeld (dropTooLongs port u) port = false ∧ mayDrive (dropTooLongs port u) = true ∧ fenced (dropTooLongs port u) (56 + port / 16) = false ∧ v = refreshSelect port (nowLin (dropTooLongs port u)) (dropTooLongs port u) ∧ portChoice port (nowLin v) v = none) (up))
    ∧ (∃ h p, at0 (fun u => portOfNode u h = some p) (queued))
    ∧ (∃ q x, at0 (fun u => tget u.td.queues q = some x) (queued)) := by
  refine ⟨⟨0, ?_⟩,
    (let ⟨(q, co, w), h⟩ := Option.isSome_iff_exists.mp (by decide +kernel : (portChoice 0 (nowLin (refreshSelect 0 (nowLin (dropTooLongs 0 (busy.atTime 0))) (dropTooLongs 0 (busy.atTime 0)))) (refreshSelect 0 (nowLin (dropTooLongs 0 (busy.atTime 0))) (dropTooLongs 0 (busy.atTime 0)))).isSome = true); ⟨0, _, q, co, w, by decide +kernel, by decide +kernel, by decide +kernel, rfl, h⟩),
    ⟨0, _, ?_, ?_, ?_, rfl, ?_⟩,
    ⟨handle 0xA0 1048574, _, rfl⟩,
    ⟨1048575, _, rfl⟩⟩ <;> decide +kernel

theorem witness_DetEventsComplete :
    (∃ p l, at0 (fun u => (u.det.gates.getD p {}).pend = some l ∧ l.t ≤ nowLin u ∧ l.clear = false) (gate false))
    ∧ (∃ p l, at0 (fun u => (u.det.gates.getD p {}).pend = some l ∧ l.t ≤ nowLin u ∧ l.clear = true) (gate true))
    ∧ (∃ octet i k kk v, at0 (fun u => i = (u.td.ingress.findIdx fun k => k.md.sValid && !k.unit && k.md.port / 8 == octet) ∧ u.td.ingress[i]? = some k ∧ streamFrame k u = (some kk, v)) (unitFrame))
    ∧ (∃ octet i k v, at0 (fun u => i = (u.td.ingress.findIdx fun k => k.md.sValid && !k.unit && k.md.port / 8 == octet) ∧ u.td.ingress[i]? = some k ∧ streamFrame k u = (none, v)) ({ streams with td := { streams.td with ingress := [{ pkt0 with md := { sValid := true, stream := 1 } }] } }))
    ∧ (∃ ctx f, at0 (fun u => tget u.det.frer ctx = some f ∧ f.any = false ∧ f.start + f.timeout ≤ u.tm.bounds) (recovery)) := by
  refine ⟨⟨63, _, rfl, ?_⟩,
    ⟨63, _, rfl, ?_⟩,
    ⟨7, _, _, _, _, rfl, rfl, rfl⟩,
    ⟨0, _, _, _, rfl, rfl, rfl⟩,
    ⟨0, _, rfl, ?_⟩⟩ <;> decide +kernel

theorem witness_TransportEventsComplete_1 :
    (at0 (fun u => fenced u 36 = false) (up))
    ∧ (at0 (fun u => fenced u 36 = false) (up))
    ∧ (∃ o n trace m, at0 (fun u => fenced u 36 = false ∧ monOf u o = some m ∧ (if m.acc5 then 5 else 3) ≤ n ∧ traceSound u o m trace = true ∧ m.accTrace = trace) (transport))
    ∧ (∃ o n trace m, at0 (fun u => fenced u 36 = false ∧ monOf u o = some m ∧ (if m.acc5 then 5 else 3) ≤ n ∧ traceSound u o m trace = true ∧ m.accTrace ≠ trace) (transport))
    ∧ (at0 (fun u => fenced u 36 = false) (up))
    ∧ (∃ i g, at0 (fun u => fenced u 36 = false ∧ tget u.tr.groups i = some g ∧ u.twin.st ≤ 1) (transport))
    ∧ (∃ i g e, at0 (fun u => fenced u 36 = false ∧ tget u.tr.groups i = some g ∧ g.wtrAt = some e ∧ e ≤ u.tm.bounds ∧ u.twin.st ≤ 1) (revertive))
    ∧ (∃ i k1 k2 g g2 c v, at0 (fun u => fenced u 36 = false ∧ tget u.tr.groups i = some g ∧ g.bidir = true ∧ c = (if bit k2 3 || k2 % 8 == 4 then 1 else if !k1Valid (k1 % 256) then 3 else if g.fop = 2 ∧ k2 / 16 % 16 ≠ b2n g.side then 2 else 0) ∧ v = setFop i c { u with tr := { u.tr with groups := tset u.tr.groups i { g with rxK1 := k1 % 256, rxK2 := k2 % 256 } } } ∧ tget v.tr.groups i = some g2) (transport)) := by
  refine ⟨?_,
    ?_,
    ⟨handle 0x32 16, 5, _, _, ?_, rfl, ?_, ?_, rfl⟩,
    ⟨handle 0x32 16, 5, [1#8], _, ?_, rfl, ?_⟩,
    ?_,
    ⟨4095, _, ?_, rfl, ?_⟩,
    ⟨4095, _, _, ?_, rfl, rfl, ?_⟩,
    ⟨4095, 1, 0, _, _, _, _, ?_, rfl, ?_, rfl, rfl, rfl⟩⟩ <;> decide +kernel

theorem witness_TransportEventsComplete_2 :
    (∃ i g e, at0 (fun u => fenced u 36 = false ∧ tget u.tr.groups i = some g ∧ g.fop = 0 ∧ g.bridgeAt = some e ∧ e ≤ u.tm.bounds) (lagging))
    ∧ (∃ i path frame c r, at0 (fun u => tget u.circuits i = some c ∧ takesFrom u c path = true ∧ c.cfg.timing = 0 ∧ r = tdmTake i frame u) (circuitOn 0))
    ∧ (∃ i path frame c r, at0 (fun u => tget u.circuits i = some c ∧ takesFrom u c path = true ∧ c.cfg.timing ≠ 0 ∧ r = tdmTake i frame u) (circuitOn 1))
    ∧ (∃ i instant pkt v, at0 (fun u => fenced u 36 = false ∧ nextPw i u = (some pkt, v) ∧ ((playDue v i = true ∧ firstClock v = true) ∨ (instant = true ∧ throughTimed v i = true))) ({ circuitOn 0 with fwd := { up.fwd with toCkt := [(16383, frame)] } }))
    ∧ (∃ i instant pkt v, at0 (fun u => fenced u 36 = false ∧ nextPw i u = (some pkt, v) ∧ (playDue v i = false ∨ firstClock v = false) ∧ (instant = false ∨ throughTimed v i = false)) ({ circuitOn 1 with fwd := { up.fwd with toCkt := [(16383, frame)] } }))
    ∧ (∃ i c, at0 (fun u => fenced u 36 = false ∧ tget u.circuits i = some c ∧ (c.cfg.timing = 0 → c.played = false ∧ firstClock u = true)) (circuitOn 1))
    ∧ (∃ i c, at0 (fun u => fenced u 36 = false ∧ tget u.circuits i = some c ∧ c.enabled = true ∧ c.bound ≠ 0 ∧ c.lops = false ∧ lopsDue u c = true) ({ up with circuits := [(16383, { runs 0 with quiet := 2 ^ 40 })] })) := by
  refine ⟨⟨4095, _, _, ?_, rfl, ?_, rfl, ?_⟩,
    ⟨16383, handle 0x41 1, [], _, _, rfl, ?_, ?_, rfl⟩,
    ⟨16383, handle 0x41 1, [], _, _, rfl, ?_, ?_, rfl⟩,
    ⟨16383, false, _, _, ?_, rfl, ?_⟩,
    ⟨16383, false, _, _, ?_, rfl, ?_⟩,
    ⟨16383, _, ?_, rfl, ?_⟩,
    ⟨16383, _, ?_, rfl, ?_⟩⟩ <;> decide +kernel

theorem witness_FabricEventsComplete_1 :
    (∃ lane, at0 (fun u => octetRho u (lane / 8) ≠ 0 ∧ domOut u (67 + lane / 8) = false) (fabric))
    ∧ (∃ lane x, at0 (fun u => octetRho u (lane / 8) ≠ 0 ∧ domOut u (67 + lane / 8) = false ∧ mayDrive u = true ∧ x = u.fab.lanes.getD lane {} ∧ x.due ≤ elapsed u) (fabric))
    ∧ (∃ lane, laneUsable up lane = false ∨ (up.fab.lanes.getD lane {}).use = false)
    ∧ (∃ lane d, laneUsable (loaded true) lane = true ∧ ((loaded true).fab.lanes.getD lane {}).use = true ∧ flowOn lane true (flows (loaded true)) = some d)
    ∧ (∃ lane d, laneUsable (loaded false) lane = true ∧ ((loaded false).fab.lanes.getD lane {}).use = true ∧ flowOn lane true (flows (loaded false)) = none ∧ flowOn lane false (flows (loaded false)) = some d ∧ laneUsable fabric lane = true ∧ (fabric.fab.lanes.getD lane {}).use = true ∧ flowOn lane true (flows fabric) = none ∧ flowOn lane false (flows fabric) = none)
    ∧ (∃ lane cell c l, at0 (fun u => (flitOk cell = true → flitBits cell 127 124 ≠ 0) ∧ judgeFlit u lane cell false 1 (flitBits cell 119 110) (flitBits cell 109 100) = .bad c l) (fabric))
    ∧ (∃ lane cell c l, at0 (fun u => judgeFlit u lane cell true 1 (flitBits cell 119 110) (flitBits cell 109 100) = .bad c l) (fabric))
    ∧ (∃ lane cell key e off v, at0 (fun u => flitBits cell 127 124 ≠ 0 ∧ judgeFlit u lane cell false 1 (flitBits cell 119 110) (flitBits cell 109 100) = .good ∧ v = fabLaneCount lane 1 1 (fabCount 1 1 u) ∧ key = 2 * flitBits cell 119 110 + flitBits cell 123 123 ∧ e = (tgetD v.fab.rx key {}).e ∧ off = (flitBits cell 83 64 + 2 ^ 20 - e) % 2 ^ 20) (fabric)) := by
  refine ⟨⟨63, ?_⟩,
    ⟨95, _, ?_, ?_, ?_, rfl, ?_⟩,
    ⟨95, ?_⟩,
    ⟨95, 1, ?_⟩,
    ⟨95, 1, ?_⟩,
    ⟨95, flitOf (2 * 2 ^ 116), 4, none, ?_⟩,
    ⟨95, [], 3, some 6, ?_⟩,
    ⟨95, flitOf (1 * 2 ^ 116), _, _, _, _, ?_, ?_, rfl, rfl, rfl, rfl⟩⟩ <;> decide +kernel

theorem witness_FabricEventsComplete_2 :
    (∃ dev det key f n c r, at0 (fun u => key = 2 * dev + b2n det ∧ f = tgetD u.fab.rx key {} ∧ f.held = (n, c) :: r ∧ f.gap ≠ 0 ∧ f.gap - 1 + u.fab.reorder * nsU ≤ elapsed u) (reorder))
    ∧ (∃ lane flit dm c l, at0 (fun u => judgeFlit u lane flit dm 2 (flitBits flit 119 110) (flitBits flit 109 100) = .bad c l) (fabric))
    ∧ (∃ lane flit dm, at0 (fun u => judgeFlit u lane flit dm 2 (flitBits flit 119 110) (flitBits flit 109 100) = .good ∧ tget (fabCount 12 1 u).fab.sysp (flitBits flit 99 84) = none) (fabric))
    ∧ (∃ lane flit dm p l, at0 (fun u => judgeFlit u lane flit dm 2 (flitBits flit 119 110) (flitBits flit 109 100) = .good ∧ tget (fabCount 12 1 u).fab.sysp (flitBits flit 99 84) = some (p, l)) (fabric))
    ∧ (∃ lane flit dm c l, at0 (fun u => judgeFlit u lane flit dm 3 (flitBits flit 119 110) (flitBits flit 109 100) = .bad c l) (fabric))
    ∧ (∃ lane flit dm, at0 (fun u => judgeFlit u lane flit dm 3 (flitBits flit 119 110) (flitBits flit 109 100) = .good ∧ setOf (fabCount 14 1 u).td.sets (flitBits flit 99 84) = none) (fabric))
    ∧ (∃ (lane : Nat) (flit : List Byte) (dm : Bool) (x : Nat) (y : VoqSet), at0 (fun u => judgeFlit u lane flit dm 3 (flitBits flit 119 110) (flitBits flit 109 100) = .good ∧ setOf (fabCount 14 1 u).td.sets (flitBits flit 99 84) = some (x, y)) (voqs 0 {}))
    ∧ (∃ lane, at0 (fun u => laneDeaf u lane = false) (fabric)) := by
  refine ⟨⟨1, true, _, _, _, _, _, rfl, rfl, rfl, ?_⟩,
    ⟨95, [], true, 3, some 6, ?_⟩,
    ⟨95, statusFlit false 0 0 0 7 0 0 0, false, ?_⟩,
    ⟨95, statusFlit false 0 0 0 1 0 0 0, false, 1, 0, ?_⟩,
    ⟨95, [], true, 3, some 6, ?_⟩,
    ⟨95, flitOf (3 * 2 ^ 116 + 1 * 2 ^ 76), false, ?_⟩,
    ⟨95, flitOf (3 * 2 ^ 116 + 1 * 2 ^ 76), false, 0, { dsp := 1, mask := 0, cred := List.replicate 8 {} }, ?_⟩,
    ⟨95, ?_⟩⟩ <;> decide +kernel

theorem witness_FabricEventsComplete_3 :
    (∃ lane flit, at0 (fun u => laneDeaf u lane = false ∧ flitOk flit = false) (fabric))
    ∧ (∃ lane flit, at0 (fun u => laneDeaf u lane = false ∧ flitOk flit = true ∧ (flitBits flit 127 124 ≠ 5 ∨ u.fab.mesh = true)) (fabric))
    ∧ (∃ lane flit d, at0 (fun u => laneDeaf u lane = false ∧ flitOk flit = true ∧ flitBits flit 127 124 = 5 ∧ u.fab.mesh = false ∧ d = flitBits flit 123 114) (meshOff))
    ∧ (∃ q r c x, at0 (fun u => credOf u q = some (r, c) ∧ tget u.td.queues q = some x ∧ c.lastStatus + usU u.fab.refresh ≤ elapsed u ∧ (x.pkts ≠ [] ∨ 0 < c.credit)) (waits))
    ∧ (∃ d, at0 (fun _ => d ≤ 64) (up)) := by
  refine ⟨⟨95, [1#8], ?_⟩,
    ⟨95, flitOf (3 * 2 ^ 116), ?_⟩,
    ⟨95, flitOf (5 * 2 ^ 116 + 2 ^ 105), _, ?_, ?_, ?_, ?_, rfl⟩,
    ⟨7, _, _, _, rfl, rfl, ?_⟩,
    ⟨64, ?_⟩⟩ <;> decide +kernel

theorem witness_TwinRecordEventsComplete_1 :
    (∃ v, at0 (fun u => u.id.twinEn = true ∧ u.twin.hawser = false ∧ domOut u 79 = false ∧ v = sendHealth (twinRaise 2 [] (modTwin (fun x => { x with hawser := true }) u))) (duo))
    ∧ (at0 (fun u => u.id.twinEn = true ∧ u.twin.hawser = true) (cold))
    ∧ (∃ h dm, at0 (fun u => u.id.twinEn = true ∧ u.twin.hawser = true ∧ fenced u 79 = false ∧ (dm = true ∨ crc8 (bits h 31 8) 24 ≠ bits h 7 0 ∨ 10 ≤ bits h 31 28)) (cold))
    ∧ (∃ (h : Nat) (r : TwinRec), at0 (fun u => u.id.twinEn = true ∧ u.twin.hawser = true ∧ fenced u 79 = false ∧ crc8 (bits h 31 8) 24 = bits h 7 0 ∧ bits h 31 28 < 10 ∧ bits h 31 28 = r.ty) (cold))
    ∧ (∃ ws bs v, at0 (fun u => rxTake (fun r => r.ty == 1 || r.ty == 2) u = (some (.frame ws bs), v)) (received (.frame [] frame) 0 true))
    ∧ (∃ ws bs v, at0 (fun u => rxTake (fun r => r.ty == 1 || r.ty == 2) u = (some (.sample ws bs), v)) (received (.sample [] frame) 0 true))
    ∧ (∃ n classB items v, at0 (fun u => ¬(u.twin.st = 3 ∧ u.twin.join = 1) ∧ rxTake (fun r => r.ty == 5) u = (some (.checkpoint n classB items), v) ∧ standbyApplies v = true) (received (.checkpoint 7 false []) 2 false))
    ∧ (∃ n classB items v, at0 (fun u => ¬(u.twin.st = 3 ∧ u.twin.join = 1) ∧ rxTake (fun r => r.ty == 5) u = (some (.checkpoint n classB items), v) ∧ standbyApplies v = false) (received (.checkpoint 7 true []) 1 false)) := by
  refine ⟨⟨_, ?_, ?_, ?_, rfl⟩,
    ?_,
    ⟨0, true, ?_⟩,
    ⟨9 * 2 ^ 28 + crc8 (9 * 2 ^ 20) 24, .bulk 0 [] 0, ?_⟩,
    ⟨_, _, _, rfl⟩,
    ⟨_, _, _, rfl⟩,
    ⟨_, _, _, _, ?_, rfl, ?_⟩,
    ⟨_, _, _, _, ?_, rfl, ?_⟩⟩ <;> decide +kernel

theorem witness_TwinRecordEventsComplete_2 :
    (∃ c v, at0 (fun u => ¬(u.twin.st = 3 ∧ u.twin.join = 1) ∧ rxTake (fun r => r.ty == 6) u = (some (.config c), v)) (received (.config (.direct 0x0F07 [] 0)) 2 false))
    ∧ (∃ w v, at0 (fun u => rxTake (fun r => r.ty == 4) u = (some (.summary w), v) ∧ standbyApplies v = true) (received (.summary []) 2 false))
    ∧ (∃ v, at0 (fun u => rxTake (fun r => r.ty == 7) u = (some (.time none), v) ∧ v.twin.st = 1) (received (.time none) 1 false))
    ∧ (∃ t1 t2 t3 st v, at0 (fun u => rxTake (fun r => r.ty == 7) u = (some (.time (some (t2, t3, st))), v) ∧ v.twin.timeSent = some t1 ∧ 2 ≤ v.twin.st) (received (.time (some (1, 2, 1))) 2 false))
    ∧ (∃ (n : Nat) (w : List Word) (c : Compared) (v : State), at0 (fun u => n = u.tm.tide - 1 ∧ u.twin.st = 2 ∧ usU 100 ≤ u.tm.sub ∧ u.tm.tide ≠ 0 ∧ u.twin.lastMf < n ∧ u.twin.switch = none ∧ mfOf u.twin.twin n = some w ∧ (mfEntries w).foldl (fun r e => comparePort n (mfOf u.twin.twin (n - 1)) (flag w 2 0 || devSkip u n) e r) (({} : Compared), u) = (c, v)) (comparing))
    ∧ (∃ n, at0 (fun u => n = u.tm.tide - 1 ∧ u.twin.st = 2 ∧ usU 100 ≤ u.tm.sub ∧ u.tm.tide ≠ 0 ∧ u.twin.lastMf < n ∧ u.twin.switch = none ∧ mfOf u.twin.twin n = none ∧ u.twin.hawser = true) ({ comparing with twin := { comparing.twin with twin := [], hawser := true } }))
    ∧ (∃ bs v, at0 (fun u => rxTake (fun r => match r with | .control (.lastBreath _) => true | _ => false) u = (some (.control (.lastBreath bs)), v)) (received (.control (.lastBreath [1#8])) 2 false)) := by
  refine ⟨⟨_, _, ?_, rfl⟩,
    ⟨_, _, rfl, ?_⟩,
    ⟨_, rfl, ?_⟩,
    ⟨_, _, _, _, _, rfl, rfl, ?_⟩,
    ⟨4, mfW, _, _, ?_, ?_, ?_, ?_, ?_, ?_, ?_, pairEta _⟩,
    ⟨_, rfl, ?_⟩,
    ⟨_, _, rfl⟩⟩ <;> decide +kernel

theorem witness_TwinRoleEventsComplete_1 :
    (∃ c pass w, at0 (fun u => w = lateDecision u ∧ w.twin.contest = some c ∧ c.own = none ∧ c.tide + 2 ≤ w.tm.tide ∧ pass = w.twin.vectors.all fun e => vectorPasses w e.2) ({ (twinned fun x => { x with contest := some { tide := 3 } }) with tm := { up.tm with tide := 5 } }))
    ∧ (at0 (fun u => u.id.twinEn = true ∧ u.twin.hbLost = false ∧ (u.twin.moorIn - 1) + usU 150 ≤ elapsed u ∧ u.twin.hawser = true) ({ cold with tm := { up.tm with elapsed := usU 150 } }))
    ∧ (at0 (fun u => u.id.twinEn = true ∧ u.twin.hbLost = false ∧ (u.twin.moorIn - 1) + usU 150 ≤ elapsed u ∧ u.twin.hawser = false) ({ duo with tm := { up.tm with elapsed := usU 150 } }))
    ∧ (at0 (fun u => u.twin.query ≠ 0 ∧ u.twin.query - 1 + usU 20 ≤ elapsed u) ({ (twinned fun x => { x with query := 1 }) with tm := { up.tm with elapsed := usU 20 } }))
    ∧ (at0 (fun u => u.id.twinEn = true ∧ u.flt.mpcFailed = false ∧ u.flt.pilotDead = false ∧ u.id.fwState ≠ 3 ∧ coreClocks u.tm.sub = 0 ∧ u.twin.moorAt ≠ 2 * u.tm.bounds + 1) (duo))
    ∧ (at0 (fun u => u.id.twinEn = true ∧ u.flt.mpcFailed = false ∧ u.flt.pilotDead = false ∧ u.id.fwState ≠ 3 ∧ coreClocks u.tm.sub ≠ 0 ∧ coreClocks u.tm.sub = coreClocks (tideLen u / 2) ∧ u.twin.moorAt ≠ 2 * u.tm.bounds + 2) ({ duo with tm := { up.tm with sub := tideU / 2 } }))
    ∧ (at0 (fun u => u.id.twinEn = true) (duo))
    ∧ (∃ same, at0 (fun u => u.id.twinEn = false ∨ u.twin.killOut = false ∨ (same && u.id.devid % 2 == 0) = true) (up)) := by
  refine ⟨⟨_, _, _, rfl, rfl, ?_, ?_, rfl⟩,
    ?_,
    ?_,
    ?_,
    ?_,
    ?_,
    ?_,
    ⟨false, ?_⟩⟩ <;> decide +kernel

theorem witness_TwinRoleEventsComplete_2 :
    (∃ same, at0 (fun u => u.id.twinEn = true ∧ u.twin.killOut = true ∧ (same && u.id.devid % 2 == 0) = false) (twinned fun x => { x with killOut := true }))
    ∧ (at0 (fun u => u.id.twinEn = false ∨ u.twin.killIn = false ∨ u.twin.st = 1 ∨ u.twin.switch.isSome = true) (up))
    ∧ (at0 (fun u => u.id.twinEn = true ∧ u.twin.killIn = true ∧ u.twin.st ≠ 1 ∧ u.twin.switch = none ∧ (u.twin.hawser = true ∨ (u.twin.moorIn ≠ 0 ∧ u.twin.hbLost = false))) (twinned fun x => { x with st := 2, killIn := true, hawser := true }))
    ∧ (at0 (fun u => u.id.twinEn = true ∧ u.twin.killIn = true ∧ u.twin.st ≠ 1 ∧ u.twin.switch = none ∧ u.twin.hawser = false ∧ (u.twin.moorIn = 0 ∨ u.twin.hbLost = true)) (twinned fun x => { x with st := 2, killIn := true }))
    ∧ (at0 (fun u => u.twin.detector ≠ 0 ∧ u.twin.takeAt = 0 ∧ 2 ≤ u.twin.st ∧ u.twin.st ≠ 4) (twinned fun x => { x with st := 5, detector := 2 }))
    ∧ (at0 (fun u => u.twin.takeAt ≠ 0 ∧ u.twin.killOut = true ∧ u.twin.takeAt - 1 ≤ elapsed u ∧ u.twin.detector = 0) (twinned fun x => { x with st := 2, takeAt := 1, killOut := true }))
    ∧ (at0 (fun u => u.twin.takeAt ≠ 0 ∧ u.twin.killOut = true ∧ u.twin.takeAt - 1 ≤ elapsed u ∧ u.twin.detector ≠ 0) (taking true))
    ∧ (∃ w, at0 (fun u => u.twin.switch = some w ∧ w.released = true ∧ u.twin.st = 2 ∧ u.twin.killOut = false ∧ u.twin.peer ≠ 1 ∧ w.n + 2 ≤ u.tm.tide) ({ (twinned fun x => { x with st := 2, switch := some { n := 3, released := true } }) with tm := { up.tm with tide := 5 } })) := by
  refine ⟨⟨false, ?_⟩,
    ?_,
    ?_,
    ?_,
    ?_,
    ?_,
    ?_,
    ⟨_, rfl, ?_⟩⟩ <;> decide +kernel

theorem witness_TwinRoleEventsComplete_3 :
    (at0 (fun u => u.twin.st = 3 ∧ u.twin.join = 1) (twinned fun x => { x with st := 3, join := 1 }))
    ∧ (at0 (fun u => u.twin.st = 3 ∧ u.twin.join = 2 ∧ u.twin.rotate = 0 ∧ u.boot.convert = false) (twinned fun x => { x with st := 3, join := 2 }))
    ∧ (at0 (fun u => u.twin.auto = true ∧ (u.twin.st = 4 ∨ (u.twin.st = 5 ∧ u.twin.stale ≠ 4)) ∧ u.id.twinEn = true ∧ u.id.fwState = 1) (cold)) := by
  decide +kernel

/-! ### Well-formedness: each check refuses an ill-formed term -/

def hdr : ImageHeader := ⟨0, 0, false, 0, 0, 0⟩
/-- An envelope of a command (Table 16-2), with each of its checks failing in turn. -/
theorem test_well_formed_envelope : (Instr.deviceInfo ⟨12287999999, 31, 65535, 2 ^ 32 - 1, .indirect 8⟩ []).wellFormed = true := by
  decide +kernel
theorem test_ill_formed_instant : (Instr.deviceInfo { call0 with t := 12288000000 } []).wellFormed = false := by decide +kernel
theorem test_ill_formed_mailbox : (Instr.deviceInfo { call0 with mb := 32 } []).wellFormed = false := by decide +kernel
theorem test_ill_formed_tag : (Instr.deviceInfo { call0 with tag := 65536 } []).wellFormed = false := by decide +kernel
theorem test_ill_formed_transaction : (Instr.deviceInfo { call0 with txn := 2 ^ 32 } []).wellFormed = false := by decide +kernel
theorem test_ill_formed_indirect_alignment : (Instr.deviceInfo { call0 with src := .indirect 4 } []).wellFormed = false := by decide +kernel
theorem test_ill_formed_indirect_address : (Instr.deviceInfo { call0 with src := .indirect (2 ^ 64) } []).wellFormed = false := by
  decide +kernel
theorem test_ill_formed_failed_address : (Instr.deviceInfo { call0 with src := .indirectFailed (2 ^ 64) } []).wellFormed = false := by
  decide +kernel
theorem test_ill_formed_request_length : (Instr.deviceInfo call0 (List.replicate 32768 0#32)).wellFormed = false := by decide +kernel

theorem test_ill_formed_events_1 : ([.commitPreparationDone 12288000000 0,
    .commitPreparationDone 0 8,
    .commitTimePassed 12288000000 0,
    .commitTimePassed 0 8,
    .dillNextHoldExpiry 12288000000 0 0,
    .dillNextHoldExpiry 0 256 0,
    .cmdlistDone 12288000000 0 [],
    .flushDone 12288000000 0,
    .scanFullRunDone 12288000000 0 none 0 [],
    .nonceExpiry 12288000000,
    .surveyValidityEnd 12288000000,
    .upgradeLoaded 12288000000 hdr false,
    .profileConverted 12288000000,
    .mbDoorbell 12288000000 0 [] [],
    .mbDoorbell 0 (2 ^ 32) [] [],
    .mbDone 12288000000 0,
    .mbDone 0 (2 ^ 32),
    .evrCtrl 12288000000 0,
    .evrCtrl 0 (2 ^ 32),
    .evrConsumer 12288000000 0,
    .evrConsumer 0 (2 ^ 32),
    .evrLost 12288000000,
    .tsrConsumer 12288000000 0,
    .tsrConsumer 0 (2 ^ 32),
    .ringCtrl 12288000000 false 0 0,
    .ringCtrl 0 false 64 0,
    .ringCtrl 0 false 0 (2 ^ 32),
    .rxTail 12288000000 0 0,
    .rxTail 0 64 0,
    .rxTail 0 0 (2 ^ 32),
    .txTail 12288000000 0 0,
    .txTail 0 64 0,
    .txTail 0 0 (2 ^ 32),
    .registerWrite 12288000000 .pf0Regs 0 0,
    .registerWrite 0 .pf0Regs 0 (2 ^ 32)] : List Instr).all (fun i => !i.wellFormed) = true := by
  decide +kernel
theorem test_well_formed_events_1 : ([.commitPreparationDone 0 0,
    .commitTimePassed 0 0,
    .dillNextHoldExpiry 0 0 0,
    .cmdlistDone 0 0 [],
    .flushDone 0 0,
    .scanFullRunDone 0 0 none 0 [],
    .nonceExpiry 0,
    .surveyValidityEnd 0,
    .upgradeLoaded 0 hdr false,
    .profileConverted 0,
    .mbDoorbell 0 0 [] [],
    .mbDone 0 0,
    .evrCtrl 0 0,
    .evrConsumer 0 0,
    .evrLost 0,
    .tsrConsumer 0 0,
    .ringCtrl 0 false 0 0,
    .rxTail 0 0 0,
    .txTail 0 0 0,
    .registerWrite 0 .pf0Regs 0 0] : List Instr).all Instr.wellFormed = true := by
  decide +kernel

theorem test_ill_formed_events_2 : ([.pf2UserRead 12288000000 0 0,
    .pcieConfigRequest 12288000000 0 0 none,
    .pcieConfigRequest 0 3 0 none,
    .i2c0Access 12288000000 [] 0,
    .jtagInstruction 12288000000 0,
    .jtagInstruction 0 256,
    .porstNAssert 12288000000,
    .porstNRelease 12288000000 0 false [],
    .porstNRelease 0 4 false [],
    .bootSlotTimeout 12288000000,
    .firmwareReady 12288000000,
    .hbmTrainingDone 12288000000 0 0 false [],
    .hbmTrainingDone 0 6 0 false [],
    .perstNAssert 12288000000,
    .functionLevelReset 12288000000 0,
    .functionLevelReset 0 3,
    .pcieLinkChange 12288000000 0 0 false,
    .pcieLinkChange 0 16 0 false,
    .pcieLinkChange 0 0 64 false,
    .refclkLoss 12288000000 0 false,
    .refclkLoss 0 11 false,
    .powerWarning 12288000000,
    .tideBoundary 12288000000 {},
    .retrainWindowEnd 12288000000 0 0,
    .retrainWindowEnd 0 6 0,
    .retrainWindowEnd 0 0 32,
    .dumpRecordWritten 12288000000 0 none,
    .dumpRecordWritten 0 4 none,
    .swapBegin 12288000000,
    .swapHandover 12288000000 false,
    .swapDone 12288000000] : List Instr).all (fun i => !i.wellFormed) = true := by
  decide +kernel
theorem test_well_formed_events_2 : ([.pf2UserRead 0 0 0,
    .pcieConfigRequest 0 0 0 none,
    .i2c0Access 0 [] 0,
    .jtagInstruction 0 0,
    .porstNAssert 0,
    .porstNRelease 0 0 false [],
    .bootSlotTimeout 0,
    .firmwareReady 0,
    .hbmTrainingDone 0 0 0 false [],
    .perstNAssert 0,
    .functionLevelReset 0 0,
    .pcieLinkChange 0 0 0 false,
    .refclkLoss 0 0 false,
    .powerWarning 0,
    .tideBoundary 0 {},
    .retrainWindowEnd 0 0 0,
    .dumpRecordWritten 0 0 none,
    .swapBegin 0,
    .swapHandover 0 false,
    .swapDone 0] : List Instr).all Instr.wellFormed = true := by
  decide +kernel

theorem test_ill_formed_events_3 : ([.confirmTimeout 12288000000,
    .portConditionsChange 12288000000 0 0,
    .portConditionsChange 0 64 0,
    .linkUp 12288000000 0,
    .linkUp 0 64,
    .linkDown 12288000000 0,
    .linkDown 0 64,
    .frameReceived 12288000000 0 none [] false false 0,
    .frameReceived 0 64 none [] false false 0,
    .frameReceived 0 0 none (List.replicate 65536 0#8) false false 0,
    .holdLimitDrop 12288000000 0,
    .holdLimitDrop 0 8,
    .ingressPipelinePass 12288000000 0 0 0 [],
    .ingressPipelinePass 0 16 0 0 [],
    .learnRequestApply 12288000000 0,
    .flapClear 12288000000 0 0,
    .flapClear 0 256 0,
    .moveWindowEnd 12288000000 0 0,
    .moveWindowEnd 0 256 0,
    .sweepVisit 12288000000 0 0,
    .sweepVisit 0 256 0,
    .comparePageVisit 12288000000 0 0 none none,
    .comparePageVisit 0 256 0 none none,
    .comparePageVisit 0 0 0 (some 32) none,
    .twinPageRepair 12288000000 0 0 [],
    .twinPageRepair 0 256 0 [],
    .epochRetire 12288000000 0,
    .epochRetire 0 2,
    .epochStale 12288000000 0,
    .epochStale 0 2,
    .thermalSensorRead 12288000000 0 [],
    .thermalSensorRead 0 4 [],
    .streamUnitFrame 12288000000 0,
    .streamUnitFrame 0 8,
    .frerResetTimeout 12288000000 0,
    .frerResetTimeout 0 (2 ^ 20),
    .bufferAllocate 12288000000 0 [],
    .bufferAllocate 0 2 [],
    .bufferRelease 12288000000 0 0 0 0,
    .bufferRelease 0 2 0 0 0,
    .bufferRelease 0 0 0 0 65536] : List Instr).all (fun i => !i.wellFormed) = true := by
  decide +kernel
theorem test_well_formed_events_3 : ([.confirmTimeout 0,
    .portConditionsChange 0 0 0,
    .linkUp 0 0,
    .linkDown 0 0,
    .frameReceived 0 0 none [] false false 0,
    .holdLimitDrop 0 0,
    .ingressPipelinePass 0 0 0 0 [],
    .learnRequestApply 0 0,
    .flapClear 0 0 0,
    .moveWindowEnd 0 0 0,
    .sweepVisit 0 0 0,
    .comparePageVisit 0 0 0 none none,
    .twinPageRepair 0 0 0 [],
    .epochRetire 0 0,
    .epochStale 0 0,
    .thermalSensorRead 0 0 [],
    .streamUnitFrame 0 0,
    .frerResetTimeout 0 0,
    .bufferAllocate 0 0 [],
    .bufferRelease 0 0 0 0 0] : List Instr).all Instr.wellFormed = true := by
  decide +kernel

theorem test_ill_formed_events_4 : ([.bufferReplicate 12288000000 0 0 0,
    .bufferReplicate 0 2 0 0,
    .partitionShort 12288000000 0,
    .partitionShort 0 8,
    .queueEnqueue 12288000000 0 false,
    .schedulerSelect 12288000000 0,
    .schedulerSelect 0 65,
    .shaperRecovered 12288000000 0,
    .shaperRecovered 0 (2 ^ 32),
    .samplerVisit 12288000000 0,
    .samplerVisit 0 (2 ^ 20),
    .gateListStarted 12288000000 0,
    .gateListStarted 0 64,
    .egressPipelinePass 12288000000 0,
    .egressPipelinePass 0 64,
    .frameLaunch 12288000000 0 false,
    .frameLaunch 0 64 false,
    .macTransmitFrame 12288000000 0 false false,
    .macTransmitFrame 0 64 false false,
    .tsrMergerWrite 12288000000 0,
    .tsrMergerWrite 0 64,
    .defectSet 12288000000 0 0 {},
    .defectSet 0 (2 ^ 32) 0 {},
    .defectClear 12288000000 0 0 {},
    .defectClear 0 (2 ^ 32) 0 {},
    .traceAccepted 12288000000 0 ⟨0, []⟩,
    .traceAccepted 0 (2 ^ 32) ⟨0, []⟩,
    .timPersistenceExpiry 12288000000 0,
    .timPersistenceExpiry 0 (2 ^ 32),
    .holdoffExpiry 12288000000 0,
    .holdoffExpiry 0 (2 ^ 24),
    .wtrExpiry 12288000000 0,
    .wtrExpiry 0 (2 ^ 24),
    .apsKBytesAccepted 12288000000 0 0 0,
    .apsKBytesAccepted 0 (2 ^ 24) 0 0,
    .apsKBytesAccepted 0 0 256 0,
    .apsKBytesAccepted 0 0 0 256,
    .apsBridgeTimeout 12288000000 0,
    .apsBridgeTimeout 0 (2 ^ 24),
    .vc12FrameComplete 12288000000 0 0 [],
    .vc12FrameComplete 0 16384 0 (List.replicate 32 0#8),
    .vc12FrameComplete 0 0 (2 ^ 32) (List.replicate 32 0#8),
    .vc12FrameComplete 0 0 0 []] : List Instr).all (fun i => !i.wellFormed) = true := by
  decide +kernel
theorem test_well_formed_events_4 : ([.bufferReplicate 0 0 0 0,
    .partitionShort 0 0,
    .queueEnqueue 0 0 false,
    .schedulerSelect 0 0,
    .shaperRecovered 0 0,
    .samplerVisit 0 0,
    .gateListStarted 0 0,
    .egressPipelinePass 0 0,
    .frameLaunch 0 0 false,
    .macTransmitFrame 0 0 false false,
    .tsrMergerWrite 0 0,
    .defectSet 0 0 0 {},
    .defectClear 0 0 0 {},
    .traceAccepted 0 0 ⟨0, []⟩,
    .timPersistenceExpiry 0 0,
    .holdoffExpiry 0 0,
    .wtrExpiry 0 0,
    .apsKBytesAccepted 0 0 0 0,
    .apsBridgeTimeout 0 0,
    .vc12FrameComplete 0 0 0 (List.replicate 32 0#8)] : List Instr).all Instr.wellFormed = true := by
  decide +kernel

theorem test_ill_formed_events_5 : ([.pseudowireReceived 12288000000 0 false,
    .pseudowireReceived 0 16384 false,
    .circuitPlayout 12288000000 0 false,
    .circuitPlayout 0 16384 false,
    .lopsSet 12288000000 0,
    .lopsSet 0 16384,
    .fabricLaneState 12288000000 0 false false 0,
    .fabricLaneState 0 96 false false 0,
    .fabricLaneState 0 0 false false 256,
    .fabricCellTransmit 12288000000 0,
    .fabricCellTransmit 0 96,
    .fabricCellReceived 12288000000 0 [] false,
    .fabricCellReceived 0 96 (List.replicate 272 0#8) false,
    .fabricCellReceived 0 0 [] false,
    .reorderTimeout 12288000000 0 false,
    .reorderTimeout 0 1024 false,
    .statusMessageReceived 12288000000 0 [] false,
    .statusMessageReceived 0 96 (List.replicate 16 0#8) false,
    .statusMessageReceived 0 0 [] false,
    .statusRefresh 12288000000 0,
    .statusRefresh 0 (2 ^ 20),
    .tokenMessageReceived 12288000000 0 [] false,
    .tokenMessageReceived 0 96 (List.replicate 16 0#8) false,
    .tokenMessageReceived 0 0 [] false,
    .creditTokenIssue 12288000000 0,
    .creditTokenIssue 0 65,
    .reachabilityReceived 12288000000 0 [] false,
    .reachabilityReceived 0 96 (List.replicate 16 0#8) false,
    .reachabilityReceived 0 0 [] false,
    .phaseSlewDone 12288000000,
    .timeStepApply 12288000000 {},
    .tideInFrame 12288000000 false 0 0 false 0 0,
    .tideInLost 12288000000,
    .ppsInCapture 12288000000,
    .ppsOutEdge 12288000000,
    .todTxMessage 12288000000,
    .todRx 12288000000 [] false] : List Instr).all (fun i => !i.wellFormed) = true := by
  decide +kernel
theorem test_well_formed_events_5 : ([.pseudowireReceived 0 0 false,
    .circuitPlayout 0 0 false,
    .lopsSet 0 0,
    .fabricLaneState 0 0 false false 0,
    .fabricCellTransmit 0 0,
    .fabricCellReceived 0 0 (List.replicate 272 0#8) false,
    .reorderTimeout 0 0 false,
    .statusMessageReceived 0 0 (List.replicate 16 0#8) false,
    .statusRefresh 0 0,
    .tokenMessageReceived 0 0 (List.replicate 16 0#8) false,
    .creditTokenIssue 0 0,
    .reachabilityReceived 0 0 (List.replicate 16 0#8) false,
    .phaseSlewDone 0,
    .timeStepApply 0 {},
    .tideInFrame 0 false 0 0 false 0 0,
    .tideInLost 0,
    .ppsInCapture 0,
    .ppsOutEdge 0,
    .todTxMessage 0,
    .todRx 0 [] false] : List Instr).all Instr.wellFormed = true := by
  decide +kernel

theorem test_ill_formed_events_6 : ([.hbmRequest 12288000000 0 0 none 0 0 0 false 0 0 0,
    .hbmRequest 0 6 0 none 0 0 0 false 0 0 0,
    .hbmRequest 0 0 0 none 0 4 0 false 0 0 0,
    .scrubRead 12288000000 0 0 0,
    .scrubRead 0 6 0 0,
    .scrubRead 0 0 0 4,
    .rankMigrated 12288000000 0 [],
    .rankMigrated 0 6 [],
    .ceWindowEnd 12288000000 0 0,
    .ceWindowEnd 0 6 0,
    .ceWindowEnd 0 0 128,
    .hbmTemp 12288000000 0 0,
    .hbmTemp 0 6 0,
    .hawserLinkState 12288000000 false 0 0,
    .hawserLinkState 0 false 16 0,
    .hawserLinkState 0 false 0 256,
    .hawserRecordReceived 12288000000 0 false .idle,
    .detFrameRecord 12288000000,
    .checkpointApply 12288000000,
    .configurationRecord 12288000000,
    .commitAckTimeout 12288000000 0,
    .commitAckTimeout 0 8,
    .completionSummaryTrim 12288000000,
    .timeExchange 12288000000,
    .manifestCompare 12288000000,
    .refereeRun 12288000000,
    .heartbeatLost 12288000000,
    .healthQueryTimeout 12288000000,
    .mooringToggle 12288000000,
    .killInRise 12288000000 false,
    .killInFall 12288000000] : List Instr).all (fun i => !i.wellFormed) = true := by
  decide +kernel
theorem test_well_formed_events_6 : ([.hbmRequest 0 0 0 none 0 0 0 false 0 0 0,
    .scrubRead 0 0 0 0,
    .rankMigrated 0 0 [],
    .ceWindowEnd 0 0 0,
    .hbmTemp 0 0 0,
    .hawserLinkState 0 false 0 0,
    .hawserRecordReceived 0 0 false .idle,
    .detFrameRecord 0,
    .checkpointApply 0,
    .configurationRecord 0,
    .commitAckTimeout 0 0,
    .completionSummaryTrim 0,
    .timeExchange 0,
    .manifestCompare 0,
    .refereeRun 0,
    .heartbeatLost 0,
    .healthQueryTimeout 0,
    .mooringToggle 0,
    .killInRise 0 false,
    .killInFall 0] : List Instr).all Instr.wellFormed = true := by
  decide +kernel

theorem test_ill_formed_events_7 : ([.takeoverDecided 12288000000,
    .takeoverActivate 12288000000,
    .switchFailed 12288000000,
    .bulkCopyDone 12288000000,
    .twinWarm 12288000000,
    .autoJoin 12288000000,
    .rxFrameDelivery 12288000000 0 [],
    .rxFrameDelivery 0 64 [],
    .txRingFrame 12288000000 [],
    .dmaError 12288000000 0 0,
    .dmaError 0 130 0,
    .eventRecordWrite 12288000000,
    .msixModerationTimeout 12288000000 0,
    .msixModerationTimeout 0 130,
    .domainEnterFloor 12288000000 0,
    .domainEnterFloor 0 80,
    .domainWake 12288000000 0 none,
    .domainWake 0 80 none,
    .domainWakeDone 12288000000 0,
    .domainWakeDone 0 80,
    .deconcentrate 12288000000 0,
    .deconcentrate 0 8,
    .soundingStart 12288000000 0,
    .soundingStart 0 80,
    .soundingWithdrawn 12288000000,
    .soundingPostponed 12288000000,
    .soundingTestDone 12288000000 0 false,
    .soundingOverdue 12288000000 0,
    .soundingOverdue 0 82] : List Instr).all (fun i => !i.wellFormed) = true := by
  decide +kernel
theorem test_well_formed_events_7 : ([.takeoverDecided 0,
    .takeoverActivate 0,
    .switchFailed 0,
    .bulkCopyDone 0,
    .twinWarm 0,
    .autoJoin 0,
    .rxFrameDelivery 0 0 [],
    .txRingFrame 0 [],
    .dmaError 0 0 0,
    .eventRecordWrite 0,
    .msixModerationTimeout 0 0,
    .domainEnterFloor 0 0,
    .domainWake 0 0 none,
    .domainWakeDone 0 0,
    .deconcentrate 0 0,
    .soundingStart 0 0,
    .soundingWithdrawn 0,
    .soundingPostponed 0,
    .soundingTestDone 0 0 false,
    .soundingOverdue 0 0] : List Instr).all Instr.wellFormed = true := by
  decide +kernel

theorem test_ill_formed_events_8 : ([.errorDetected 12288000000 0 0 0,
    .errorDetected 0 65536 0 0,
    .clusterRestored 12288000000 0,
    .clusterRestored 0 80,
    .mpcFailed 12288000000 0,
    .mpcFailed 0 4,
    .mpcRecovered 12288000000,
    .pilotLockstepMismatch 12288000000,
    .pilotWatchdogExpiry 12288000000,
    .lastBreathReceived 12288000000,
    .packageReset 12288000000 [],
    .mooringInputEdge 12288000000,
    .aonPowerCycle 12288000000,
    .trstNAssert 12288000000,
    .sampleMpc 12288000000 0 0,
    .sampleMpc 0 16 0,
    .flushWalkerVisit 12288000000 0 0 0,
    .flushWalkerVisit 0 0 256 0] : List Instr).all (fun i => !i.wellFormed) = true := by
  decide +kernel
theorem test_well_formed_events_8 : ([.errorDetected 0 0 0 0,
    .clusterRestored 0 0,
    .mpcFailed 0 0,
    .mpcRecovered 0,
    .pilotLockstepMismatch 0,
    .pilotWatchdogExpiry 0,
    .lastBreathReceived 0,
    .packageReset 0 [],
    .mooringInputEdge 0,
    .aonPowerCycle 0,
    .trstNAssert 0,
    .sampleMpc 0 0 0,
    .flushWalkerVisit 0 0 0 0] : List Instr).all Instr.wellFormed = true := by
  decide +kernel

/-! ### Worked examples of the spec -/

/-- The state after a step that is taken, else the state of reset. -/
def next (o : Host.Outcome State Fault Refusal) : State := match o with | .next t => t | _ => State.reset

/-- spec/00_scope.md, Example 1: handle 0x0B00_2A10 has type 0x0B and index 10,768. -/
theorem test_handle_fields : hType 0x0B002A10 = 0x0B ∧ hIdx 0x0B002A10 = 10768 := by decide +kernel
/-- spec/01_architecture.md, Example 1: unit ID 0x24C5 is unit 5 of cluster 19, in FD-E. -/
theorem test_unit_id_fields : unitOf 19 5 = 0x24C5 ∧ clusterOf 0x24C5 = 19 ∧ homeOf 19 = 1 := by decide +kernel

/-- spec/08_buffer_pools.md, Example 1: P is 131,072 and F is 3; MPC receives 1 cell and FABRIC_RX receives EMPTY. -/
def example8 (last : Nat) : State := { up with td := { up.td with
  die := { up.td.die with cache := [0, 1, 2], next := 524288, p := 131072, held := [0, 352255, 32766, 0, 0, 8192], last := last } } }
theorem test_pool_serves_in_order :
    (next (exec (.bufferAllocate 0 1 [(1, 4), (5, 1)]) (example8 2))).td.die.held = [0, 352255, 32766, 0, 0, 8193] := by decide +kernel
/-- Had the last client served been MPC, FABRIC_RX would have received 1 of its 4 cells and MPC EMPTY. -/
theorem test_pool_serves_the_other_order :
    (next (exec (.bufferAllocate 0 1 [(1, 4), (5, 1)]) (example8 5))).td.die.held = [0, 352256, 32766, 0, 0, 8192] := by decide +kernel
/-- spec/08_buffer_pools.md, Example 2: the count of a shared buffer goes from 3 to 2. -/
theorem test_shared_release : tget (bufReleaseAt (some 0) 0 7340001 0 0
    { up with td := { up.td with hbm := { up.td.hbm with bufs := [(7340001, ⟨true, 7, 3, false, 0⟩)] } } }).td.hbm.bufs 7340001
      = some ⟨true, 7, 2, false, 0⟩ := by decide +kernel

/-- spec/09_queues_scheduling.md, Example 3: the average 380,000 becomes 388,750. -/
theorem test_wred_average : avgNext 380000 520000 4 = 388750 := by decide +kernel
/-- spec/09_queues_scheduling.md, Example 4: a delay of 37,312 ns with a base of 1,024 ns is counted in bin 6. -/
theorem test_delay_bin : histBin 37312 1024 = 6 := by decide +kernel

/-- spec/11_fabric_mesh.md, Example 1: bundle 2 of device 1 connects to device 0. -/
theorem test_mesh_peer : bundlePeer { up with fab := { up.fab with dev := 1 } } 2 = 0 := by decide +kernel

/-- spec/12_time_tides.md, Example 1: TIME.STEP to 1,700,000,000.000 040 000 s with the lock flag, issued in tide 95,999. -/
def value12 : Nat := 1700000000 * 2 ^ 46 + 40000 * 2 ^ 16
def request12 : List Word := [2#32, word value12, word (value12 / 2 ^ 32), word (value12 / 2 ^ 64)]
def example12 : State := { up with tm := { up.tm with tide := 95999, tideStart := 95999 * 8192000000 } }
theorem test_time_step_answers :
    (List.range 7).map (fun i => mailboxWord (next (exec (.timeStep call0 request12) example12)) 0 (8 + i))
      = [word 96000, 0#32, word 13600000000000, word (13600000000000 / 2 ^ 32), word value12, word (value12 / 2 ^ 32),
        word (value12 / 2 ^ 64)] := by decide +kernel
/-- The bridging tide is numbered 13,600,000,000,000, its phase is 40,000 ns and the state is LOCKED. -/
theorem test_time_step_bridges :
    let t := (stepTide (cutTide (next (exec (.timeStep call0 request12) example12)))).tm
    t.tide = 13600000000000 ∧ t.bridging = true ∧ t.bridgePhase = 40000 * 65536 ∧ t.st = 1 := by
  decide +kernel

/-- spec/13_hbm_memory.md, Example 1: logical rank 57 is channel 14, SID 1; the first and the last buffer retired lie in rank 111. -/
theorem test_rank_of_buffers : 57 / 4 = 14 ∧ 57 % 4 = 1 ∧ rankOf (gib + 96469102 / 4 * 1024) = 111 ∧ rankOf (gib + 125829118 / 4 * 1024) = 111 := by
  decide +kernel

/-- spec/15_host_pcie.md, Example 2: TAIL_DROP of queue 528,948 is at PF2 BAR0 offset 0x0C09_1A20. -/
theorem test_counter_page : pf2Byte (queueCount 528948 4 7 up) 0x0C091A20 = 7#8 ∧ pf2Byte up 0x0C091A20 = 0#8 := by decide +kernel

/-- The queue is first in, first out: a step takes the command at its front and leaves the rest. -/
theorem test_queue_is_fifo : (next (step { up with pending := [.porstNAssert 0, .evrLost 0] })).pending = [.evrLost 0] := by decide +kernel
/-- PORT.CREATE is refused with NOT_PERMITTED while its area is gated, and DEVICE.ECHO answers the words that it is given (R446, R447). -/
theorem test_echo : let t := next (exec (.deviceEcho { call0 with mb := 31, tag := 77 } [5#32, 6#32]) up)
    mailboxWord t 31 5 = 0#32 ∧ mailboxWord t 31 6 = word (2 + 77 * 65536) ∧ mailboxWord t 31 8 = 5#32 ∧ mailboxWord t 31 9 = 6#32
      ∧ t.host.mbDone = word (2 ^ 31) := by decide +kernel

end Sys2Proof.Tests
end

section
/-! Proofs of the statements on the device's own events and settings (spec/01_architecture.md): parser and lookup commands, boot events
and time events. -/

namespace Sys2Proof.Machine

open Sys2Proof

/-! ### Parser and lookup commands (R44 to R46, R140 to R142, R164, R179, R185, R585) -/

/-- What a direct command of mailbox c.mb is given beside its request block. -/
def directCtx (c : Call) : Ctx := ⟨.direct, c.mb, 0, 0, false⟩

/-- No transaction is past its staging, as PROFILE.SET asks (R459). -/
theorem txns_any_phase_eq_false {u : State} (hopen : ∀ e ∈ txns u, e.2.phase = 0) :
    (txns u).any (fun e => e.2.phase != 0) = false := by simpa using hopen

/-- PROFILE.SET to another profile that every Dill table fits, on drained pipelines with the ports off and nothing preparing
(R45, R46, R169, R459). -/
theorem actProfileSet_other {x : Ctx} {q : List Word} {u : State} (hlegal : fld q 0 1 0 ≠ 3) (hother : fld q 0 1 0 ≠ u.fwd.profile)
    (hports : portsOff u = true) (hdrained : drained u = true) (hopen : ∀ e ∈ txns u, e.2.phase = 0)
    (hfit : ∀ e ∈ u.tab.dill, e.2.base + 2 ^ e.2.k ≤ bucketsMax (fld q 0 1 0)) :
    actProfileSet x q u = done (raise 6 1 mpcUnit (pay [(u.fwd.profile, 1), (fld q 0 1 0, 1)])
      (modLearn (fun l => { l with slots := [], queue := [] })
        (modFwd (fun w => { w with profile := fld q 0 1 0 }) (discardTables (fld q 0 1 0) (discardTxns 3 u))))) := by
  have hdill : u.tab.dill.any (fun e => decide (bucketsMax (fld q 0 1 0) < e.2.base + 2 ^ e.2.k)) = false := by simpa using hfit
  rw [actProfileSet, if_neg (by simp [hlegal, hports, hdrained, txns_any_phase_eq_false hopen]), if_neg hother, hdill]
  rfl

/-- PROFILE.SET to the profile in force changes nothing (R45). -/
theorem actProfileSet_same {x : Ctx} {q : List Word} {u : State} (hlegal : fld q 0 1 0 ≠ 3) (hsame : fld q 0 1 0 = u.fwd.profile)
    (hports : portsOff u = true) (hdrained : drained u = true) (hopen : ∀ e ∈ txns u, e.2.phase = 0) :
    actProfileSet x q u = done u := by
  rw [actProfileSet, if_neg (by simp [hlegal, hports, hdrained, txns_any_phase_eq_false hopen]), if_pos hsame]

theorem actParserPortSet_direct {x : Ctx} {q : List Word} {u : State} {k : Nat} (hph : x.ph = .direct)
    (hsrc : parseSource u (wd q 0) = some k) (hexc : fld q 1 9 8 ≠ 3) :
    actParserPortSet x q u = done (modFwd (fun w => { w with
      parse := tset w.parse k ⟨fld q 1 7 0, fld q 1 9 8, fld q 1 12 10, flag q 1 13, wd q 2⟩ }) u) := by
  simp [actParserPortSet, hph, hsrc, hexc]

theorem actIfSet_direct {x : Ctx} {q : List Word} {u : State} (hph : x.ph = .direct) (hty : hType (wd q 0) = 0x64)
    (hidx : hIdx (wd q 0) < 262400) :
    actIfSet x q u = done (setCfg false (fun c => { c with
      ifs := tset c.ifs (hIdx (wd q 0)) ⟨flag q 1 20, fld q 1 19 16, fld q 1 15 0, fld q 2 19 0⟩ }) u) := by
  rw [actIfSet, if_neg (by omega), hph]
  rfl

/-- LKP.KEY_SET for a key profile that no program would break the rules of R142 or R164 by. -/
theorem actLkpKeySet_direct {x : Ctx} {q : List Word} {u : State} (hph : x.ph = .direct) (hty : hType (wd q 0) = 0x66)
    (hidx : hIdx (wd q 0) < 256) (hsels : keySetOk (selectorsOf q) = true)
    (hprogs : ∀ e ∈ u.fwd.cfg.progs, namesKey e.2 (hIdx (wd q 0)) = true →
      progOk u { u.fwd.cfg with keys := tset u.fwd.cfg.keys (hIdx (wd q 0)) (selectorsOf q) } e.2 = true) :
    actLkpKeySet x q u = done (setCfg false (fun c => { c with keys := tset c.keys (hIdx (wd q 0)) (selectorsOf q) }) u) := by
  have hany : u.fwd.cfg.progs.any (fun e => namesKey e.2 (hIdx (wd q 0))
      && !progOk u { u.fwd.cfg with keys := tset u.fwd.cfg.keys (hIdx (wd q 0)) (selectorsOf q) } e.2) = false := by
    simpa using hprogs
  rw [actLkpKeySet, if_neg (by omega), hsels, hph]
  exact if_neg (ne_true_of_eq_false hany)

/-- LKP.PROGRAM_SET for a program whose miss action is a record or a disposition of R141, whose tables and groups exist and which keeps
R142, R164, R179 and R185. -/
theorem actLkpProgramSet_direct {x : Ctx} {q : List Word} {u : State} {p : Prog} (hph : x.ph = .direct)
    (hp : progOf q (tgetD u.fwd.cfg.progs (hIdx (wd q 0)) {}).learn = p) (hty : hType (wd q 0) = 0x65) (hidx : hIdx (wd q 0) < 4096)
    (hmiss : hType (wd q 5) = 0x70 ∨ wd q 5 % 16 ≤ 4) (hreserved : reservedNamed u p = false) (hknown : progUnknown u p = false)
    (hok : progOk u u.fwd.cfg p = true) :
    actLkpProgramSet x q u = done (setCfg false (fun c => { c with progs := tset c.progs (hIdx (wd q 0)) p }) u) := by
  have hdisp : ¬ (p.missRec.isNone ∧ 4 < p.miss % 16) := by
    have hm : p.miss = wd q 5 := by rw [← hp]; rfl
    rcases hmiss with hrec | hcode
    · simp [Prog.missRec, hm, hrec]
    · omega
  rw [actLkpProgramSet, if_neg (by omega), hp, if_neg (not_or.2 ⟨hdisp, ne_true_of_eq_false hreserved⟩), hph, hknown, hok]
  rfl

/-- Settles O20: each row runs its command, and the command's own meaning answers OK under the clause's conditions. -/
theorem parserAndLookupCommandsComplete : Obligations.ParserAndLookupCommandsComplete := by
  unfold Obligations.ParserAndLookupCommandsComplete
  refine ⟨runs_of_act (.inl rfl) (fun _ _ _ => rfl) ?profileOther,
    runs_of_act (.inl rfl) (fun _ _ _ => rfl) ?profileSame,
    runs_of_act (.inl rfl) (fun _ _ _ => rfl) fun _ _ _ _ => rfl,
    fun k => runs_of_act (.inl rfl) (fun _ _ _ => rfl) ?parserPort,
    runs_of_act (.inl rfl) (fun _ _ _ => rfl) ?interface,
    runs_of_act (.inl rfl) (fun _ _ _ => rfl) ?keyProfile,
    runs_of_act (.inl rfl) (fun _ _ _ => rfl) ?program⟩
  case profileOther =>
    rintro c q u ⟨hlegal, hother, hports, hdrained, hopen, hfit⟩
    exact actProfileSet_other (x := directCtx c) hlegal hother hports hdrained hopen hfit
  case profileSame =>
    rintro c q u ⟨hlegal, hsame, hports, hdrained, hopen⟩
    exact actProfileSet_same (x := directCtx c) hlegal hsame hports hdrained hopen
  case parserPort =>
    rintro c q u ⟨hsrc, hexc⟩
    exact actParserPortSet_direct (x := directCtx c) rfl hsrc hexc
  case interface =>
    rintro c q u ⟨hty, hidx⟩
    exact actIfSet_direct (x := directCtx c) rfl hty hidx
  case keyProfile =>
    rintro c q u ⟨hty, hidx, hsels, hprogs⟩
    exact actLkpKeySet_direct (x := directCtx c) rfl hty hidx hsels hprogs
  case program =>
    rintro c q u ⟨hty, hidx, hmiss, hreserved, hknown, hok⟩
    exact actLkpProgramSet_direct (x := directCtx c) rfl rfl hty hidx hmiss hreserved hknown hok

/-! ### Events and their instant -/

/-- An event whose whole meaning is a state function of its instant happens whatever the state. -/
theorem happens_of_exec {mk : Nat → Instr} {cond : State → Prop} {f : State → State}
    (he : ∀ t s, exec (mk t) s = .next (f (s.atTime t))) : Happens mk cond f := fun t s _ => he t s

/-- An event whose meaning tests its own condition, and which does nothing outside it, happens where the condition holds. -/
theorem happens_of_guard {mk : Nat → Instr} {cond : State → Prop} [∀ u, Decidable (cond u)] {f : State → State}
    (he : ∀ t s, exec (mk t) s = .next (if cond (s.atTime t) then f (s.atTime t) else s.atTime t)) : Happens mk cond f :=
  fun t s h => by rw [he, if_pos h]

/-! ### Boot events (R31, R467, R469, R472 to R477, R480, R532, R536) -/

theorem execPorstNRelease_of_held {t devid : Nat} {en : Bool} {ver : List Bool} {s : State} (hheld : (s.atTime t).boot.held = true) :
    execPorstNRelease t devid en ver s = .next (packageReset (devid % 4) en ver (s.atTime t)) := by
  rw [execPorstNRelease, if_pos hheld]

theorem execPackageReset_of_due {t : Nat} {ver : List Bool} {s : State} (hset : (s.atTime t).flt.resetAt ≠ 0)
    (hdue : (s.atTime t).flt.resetAt ≤ elapsed (s.atTime t) + 1) :
    execPackageReset t ver s = .next (packageReset (s.atTime t).id.devid (s.atTime t).id.twinEn ver (s.atTime t)) := by
  rw [execPackageReset, if_neg (not_or.2 ⟨hset, Nat.not_lt.2 hdue⟩)]

/-- A started slot that is not ready in time is marked BAD, and the rest of the order is tried (R469). -/
theorem execBootSlotTimeout_of_late {t i : Nat} {s : State} (hslot : (s.atTime t).boot.slot = some i) (hfw : (s.atTime t).id.fwState = 0)
    (hheld : (s.atTime t).boot.held = false) (hlate : (s.atTime t).boot.start + msU 3000 ≤ elapsed (s.atTime t)) :
    execBootSlotTimeout t s = .next (bootNext (s.atTime t).boot.order (upgradeFailed i 3 (slotState i 5
      { s.atTime t with boot := { (s.atTime t).boot with slot := none } }))) := by
  have hnot : (!(s.atTime t).boot.held) = true := by rw [hheld]; rfl
  rw [execBootSlotTimeout, hslot]
  exact if_pos ⟨hfw, hnot, hlate⟩

/-- The started slot's firmware is ready once every stack has been trained; a slot that was LOADED is then on trial (R467, R478). -/
theorem execFirmwareReady_of_trained {t i : Nat} {s : State} (hslot : (s.atTime t).boot.slot = some i) (hfw : (s.atTime t).id.fwState = 0)
    (hheld : (s.atTime t).boot.held = false) (htrained : ∀ x ∈ (s.atTime t).hbm.stks, x.st ≠ 0) :
    execFirmwareReady t s = .next (firmwareReady i
      (if (slotAt (readyState (s.atTime t)) i).st = 2 then slotState i 3 (readyState (s.atTime t)) else readyState (s.atTime t))) := by
  have hstks : (s.atTime t).hbm.stks.any (fun x => x.st == 0) = false := by simpa using htrained
  rw [execFirmwareReady, hslot]
  exact if_neg (not_or.2 ⟨not_not_intro hfw, not_or.2 ⟨ne_true_of_eq_false hheld, ne_true_of_eq_false hstks⟩⟩)

/-- Settles O44, event by event: where the clause's conditions hold at the event's instant, they choose its branch. -/
theorem bootEventsComplete : Obligations.BootEventsComplete := by
  unfold Obligations.BootEventsComplete
  refine ⟨happens_of_exec fun _ _ => rfl, fun _ _ _ _ _ => execPorstNRelease_of_held, happens_of_exec fun _ _ => rfl,
    fun _ _ _ ⟨hset, hdue⟩ => execPackageReset_of_due hset hdue,
    fun _ _ _ ⟨hslot, hfw, hheld, hlate⟩ => execBootSlotTimeout_of_late hslot hfw hheld hlate,
    fun _ _ _ ⟨hslot, hfw, hheld, htrained⟩ => execFirmwareReady_of_trained hslot hfw hheld htrained,
    ?loaded, ?twinLoaded, ?swapBegin, ?handedOver, ?handoverFailed, ?swappedBack, ?onTrial, ?confirmTimeout,
    happens_of_guard fun _ _ => rfl⟩
  case loaded =>
    intro i b img ver t s hload
    show execUpgradeLoaded t img ver s = _
    rw [execUpgradeLoaded, hload]
  case twinLoaded =>
    intro img ver t s hload
    show execUpgradeLoaded t img ver s = _
    rw [execUpgradeLoaded, hload]
  case swapBegin =>
    intro t s ⟨hswap, hfw, hclk, hfree⟩
    have hall : (s.atTime t).ecs.mbs.all (fun b => !b.owned) = true := by simpa using hfree
    exact if_pos ⟨hswap, hfw, hclk, hall⟩
  case handedOver =>
    intro t s hswap
    show execSwapHandover t true s = _
    rw [execSwapHandover, if_neg (not_not_intro hswap), if_pos rfl]
  case handoverFailed =>
    intro t s hswap
    show execSwapHandover t false s = _
    rw [execSwapHandover, if_neg (not_not_intro hswap), if_neg Bool.false_ne_true]
  case swappedBack =>
    intro t s ⟨hswap, hback⟩
    show execSwapDone t s = _
    rw [execSwapDone, if_neg (not_not_intro hswap)]
    simp only [hback, if_true, true_or]
  case onTrial =>
    intro t s ⟨hswap, hback⟩
    show execSwapDone t s = _
    rw [execSwapDone, if_neg (not_not_intro hswap)]
    simp only [hback, Bool.false_eq_true, if_false, false_or]
    rfl
  case confirmTimeout => exact fun _ _ hdue => if_pos hdue

/-! ### Time events (R40, R334, R337, R344, R348, R351) -/

/-- The state in which a follower has taken the fields of a good tide frame: its own count of bad ones is 0 (R351). -/
def tideFrameTaken (tide : Nat) (off : Int) (u : State) : State :=
  { u with tm := { u.tm with tideInBad := 0, lastGood := tide, lastDiff := off } }

/-- The time at which the tide of a frame began at its source: that of the frame's phase in a bridging tide (Table 12-4). -/
def tideFrameStart (tide : Nat) (phase : Int) (br : Bool) : Nat :=
  if br then ((tide * tideU : Int) + phase).toNat else tide * tideU

/-- A follower takes a good tide frame: it realigns where TIDE_IN was lost, steps where the frame is of another basis than its own
boundary's, and otherwise slews (R349, R351). -/
theorem execTideInFrame_good {t tide st : Nat} {phase diff : Int} {br : Bool} {s : State} (hsrc : tideSource (s.atTime t) = 1) :
    execTideInFrame t true tide phase br st diff s =
      (let off := diff - (s.atTime t).tm.chain
       let v := tideFrameTaken tide off (s.atTime t)
       .next (if v.tm.tideInLost then tideRealign tide (tideFrameStart tide phase br) st off v
         else if br ∨ tide ≠ edgeTide v then followStep tide (tideFrameStart tide phase br) st v
         else setTimeState st (if off.natAbs ≤ 5000 then v else slewTo (-(off * 65536 / 1000)) v))) := by
  rw [execTideInFrame, if_neg (not_not_intro hsrc)]
  rfl

/-- Settles O45, event by event; the three clauses of a good tide frame are the branches of `execTideInFrame_good`. -/
theorem timeEventsComplete : Obligations.TimeEventsComplete := by
  unfold Obligations.TimeEventsComplete
  refine ⟨?boundary, ?step, happens_of_guard fun _ _ => rfl, ?badFrame, ?slew, ?realign, ?follow, happens_of_guard fun _ _ => rfl,
    happens_of_exec fun _ _ => rfl, happens_of_guard fun _ _ => rfl, happens_of_guard fun _ _ => rfl, ?todValid, ?todInvalid, ?tsr⟩
  case boundary =>
    intro m t s hheld
    show execTideBoundary t m s = _
    rw [execTideBoundary, hheld]
    rfl
  case step =>
    intro m t s hheld hstep
    show execTimeStepApply t m s = _
    rw [execTimeStepApply, if_neg (by simp [hheld, Option.isSome_iff_ne_none.1 hstep])]
  case badFrame =>
    intro tide phase br st diff t s hsrc
    show execTideInFrame t false tide phase br st diff s = _
    rw [execTideInFrame, if_neg (not_not_intro hsrc)]
    rfl
  case slew =>
    intro tide phase st diff t s ⟨hsrc, hlost, htide⟩
    exact (execTideInFrame_good hsrc).trans
      (congrArg Host.Outcome.next ((if_neg (ne_true_of_eq_false hlost)).trans
        (if_neg (not_or.2 ⟨Bool.false_ne_true, not_not_intro htide⟩))))
  case realign =>
    intro tide phase br st diff t s ⟨hsrc, hlost⟩
    exact (execTideInFrame_good hsrc).trans (congrArg Host.Outcome.next (if_pos hlost))
  case follow =>
    intro tide phase br st diff t s ⟨hsrc, hlost, hbasis⟩
    exact (execTideInFrame_good hsrc).trans
      (congrArg Host.Outcome.next ((if_neg (ne_true_of_eq_false hlost)).trans (if_pos hbasis)))
  case todValid =>
    intro bs t s hrx
    show execTodRx t bs true s = _
    rw [execTodRx, hrx]
    rfl
  case todInvalid =>
    intro bs t s hrx
    show execTodRx t bs false s = _
    rw [execTodRx, hrx]
    rfl
  case tsr =>
    intro port e t s ⟨hen, hrun, hroom, hfind⟩
    show execTsrMergerWrite t port s = _
    have hopen : ¬ ((!(s.atTime t).host.tsrEnable || (s.atTime t).host.tsrStopped
        || decide (65536 ≤ ((s.atTime t).host.tsrProducer - (s.atTime t).host.tsrConsumer).toNat)) = true) := by
      rw [hen, hrun, decide_eq_false (Nat.not_le.2 hroom)]
      decide
    rw [execTsrMergerWrite, if_neg hopen, hfind]

end Sys2Proof.Machine
end

section
/-! Proofs of the statements on ports, MACsec and the line (spec/02_lanes_ethernet.md): PORT and LANE commands, MACSEC commands, and line
and MAC events. -/

namespace Sys2Proof.Machine

open Sys2Proof

/-! ### Port and lane commands (R52 to R60, R67, R68, R77, R78) -/

/-- A command on an existing Ethernet port runs on that port. -/
theorem withPort_of_portOf {x : Ctx} {q : List Word} {u : State} {y : Port} (hport : portOf u (wd q 0) = some y) (f : Nat → Port → Res) :
    withPort x q u f = f (hIdx (wd q 0)) y := by
  rw [withPort, hport]

/-- Outside staging a new port is judged against the ports that exist. -/
theorem stagedUses_direct {x : Ctx} (hph : x.ph = .direct) (u : State) : stagedUses x u = laneUses u := by
  rw [stagedUses, hph]
  rfl

/-- The snapshot or the live counters are read; live ones in clear-on-read mode are cleared (R67). -/
theorem readPortCtrs_eq_reply (p : Nat) (ks : List Nat) (snapshot clearMode : Bool) (u : State) :
    readPortCtrs p ks snapshot clearMode u = reply (ctrWords (if snapshot then u.snap else u.ctr) 1 p ks)
      (if clearMode ∧ snapshot = false then ctrClear 1 p ks u else u) := by
  cases snapshot <;> cases clearMode <;> rfl

/-- The state in which a new Ethernet port stands on its lanes, its counters and their snapshot empty (R53, R67). -/
def portPut (p : Nat) (y : Port) (u : State) : State :=
  { u with
    line := { u.line with ports := tset u.line.ports p y }
    ctr := u.ctr.filter fun e => e.1 / 1024 != 2 ^ 32 + p
    snap := u.snap.filter fun e => e.1 / 1024 != 2 ^ 32 + p }

/-- The port that PORT.CREATE makes of a request in a mode and with an FEC code: disabled, with every condition failing. -/
def portOfRequest (q : List Word) (mode fec : Nat) : Port :=
  { mode := mode, fec := fec, training := flag q 0 16, cfg := portCfgOf q, conds := allFailed fec }

/-- PORT.CREATE in a mode of Table 2-2 with an FEC code that the mode allows, on free lanes (R53, R54). -/
theorem actPortCreate_direct {x : Ctx} {q : List Word} {u : State} {mode n rate fec : Nat} {fecs : List Nat} {speed : Nat}
    (hph : x.ph = .direct) (hfld : fld q 0 11 8 = mode) (hmode : ethMode mode = some (n, rate, fecs, speed))
    (hfec : fec = if fld q 0 15 12 = 0xF then fecs.headD 0 else fld q 0 15 12) (hallowed : fecs.contains fec = true)
    (hcfg : portCfgOk (portCfgOf q) = true) (hfree : laneFree (laneUses u) (fld q 0 5 0) n rate = true) :
    actPortCreate x q u = created (handle 0x30 (fld q 0 5 0))
      (ecmpUpdate (portNodePut (fld q 0 5 0) (ethSpeed mode * 1000000) (parseReset (fld q 0 5 0) (twinPortNew (fld q 0 5 0)
        (portPut (fld q 0 5 0) (portOfRequest q mode fec) u))))) := by
  have hok : ¬ (!fecs.contains fec || !portCfgOk (portCfgOf q) || !laneFree (laneUses u) (fld q 0 5 0) n rate) = true := by
    rw [hallowed, hcfg, hfree]
    decide
  rw [actPortCreate, hfld, hmode, stagedUses_direct hph]
  simp only [← hfec]
  exact if_neg hok

theorem actPortDelete_of_portOf {x : Ctx} {q : List Word} {u : State} {y : Port} (hport : portOf u (wd q 0) = some y) :
    actPortDelete x q u =
      (let p := hIdx (wd q 0)
       let v := dropSas p (dropPortFrames p (modPort p (fun y => { y with inService := false, pendEn := none }) u))
       done (ecmpUpdate (protUpdate { v with line := { v.line with ports := terase v.line.ports p } }))) :=
  withPort_of_portOf hport _

theorem actPortEnable_direct {x : Ctx} {q : List Word} {u : State} {y : Port} (hph : x.ph = .direct) (hport : portOf u (wd q 0) = some y)
    (hloop : y.loop = 0) :
    actPortEnable x q u = done (modPort (hIdx (wd q 0)) (fun y => { y with pendEn := some true }) u) := by
  rw [actPortEnable, withPort_of_portOf hport, if_neg (fun h => h.2 hloop), hph]
  rfl

theorem actPortDisable_direct {x : Ctx} {q : List Word} {u : State} {y : Port} (hph : x.ph = .direct) (hport : portOf u (wd q 0) = some y) :
    actPortDisable x q u = done (modPort (hIdx (wd q 0)) (fun y => { y with pendEn := some false }) u) := by
  rw [actPortDisable, withPort_of_portOf hport, hph]
  rfl

theorem actPortSet_direct {x : Ctx} {q : List Word} {u : State} {y : Port} (hph : x.ph = .direct) (hport : portOf u (wd q 0) = some y)
    (hcfg : portCfgOk (portCfgOf q) = true) :
    actPortSet x q u = done (modPort (hIdx (wd q 0)) (fun y => { y with pendCfg := some (portCfgOf q) }) u) := by
  have hok : ¬ (!portCfgOk (portCfgOf q)) = true := by
    rw [hcfg]
    decide
  have hnow : x.ph ≠ .commit := by
    rw [hph]
    decide
  rw [actPortSet, withPort_of_portOf hport]
  exact (if_neg hok).trans (if_neg hnow)

theorem actPortFilterSet_of_portOf {x : Ctx} {q : List Word} {u : State} {y : Port} (hport : portOf u (wd q 0) = some y) :
    actPortFilterSet x q u = done (modPort (hIdx (wd q 0)) (fun y => { y with
      filter := y.filter.set (fld q 1 2 0) (wd q 2 + 2 ^ 32 * fld q 3 15 0, flag q 1 3) }) u) :=
  withPort_of_portOf hport _

theorem actPortStatus_of_portOf {x : Ctx} {q : List Word} {u : State} {y : Port} (hport : portOf u (wd q 0) = some y) :
    actPortStatus x q u = reply (toWord (b2n y.up + 2 * b2n (bit y.conds 4) + 4 * b2n (bit y.conds 5) + 8 * b2n y.degrade
      + 16 * b2n y.clearMode + 32 * b2n y.inService) :: toWords y.declTide 2) u :=
  withPort_of_portOf hport _

theorem actPortCounters_of_portOf {x : Ctx} {q : List Word} {u : State} {y : Port} (hport : portOf u (wd q 0) = some y) :
    actPortCounters x q u = reply (ctrWords (if flag q 1 0 then u.snap else u.ctr) 1 (hIdx (wd q 0)) (List.range 45))
      (if y.clearMode ∧ flag q 1 0 = false then ctrClear 1 (hIdx (wd q 0)) (List.range 45) u else u) := by
  rw [actPortCounters, withPort_of_portOf hport, readPortCtrs_eq_reply]

/-- PORT.LOOPBACK to normal operation or to a loopback: a mode that the port is not in takes it out of service (R68, R77). -/
theorem actPortLoopback_of_ne_prbs {x : Ctx} {q : List Word} {u : State} {y : Port} (hport : portOf u (wd q 0) = some y)
    (hmode : fld q 1 1 0 ≠ 3) :
    actPortLoopback x q u = done (modPort (hIdx (wd q 0)) (fun y => { y with loop := fld q 1 1 0 })
      (if fld q 1 1 0 = 0 ∨ y.loop = fld q 1 1 0 then u else outOfService (hIdx (wd q 0)) 1 u)) := by
  rw [actPortLoopback, withPort_of_portOf hport]
  simp [hmode]

/-- PORT.LOOPBACK to a PRBS test: a test that does not run yet takes the port out of service, and the response is the checker's error
count (R68, R77). -/
theorem actPortLoopback_of_prbs {x : Ctx} {q : List Word} {u : State} {y : Port} (hport : portOf u (wd q 0) = some y)
    (hmode : fld q 1 1 0 = 3) :
    actPortLoopback x q u =
      (let v := if y.loop = 3 ∧ y.prbs13 = flag q 1 2 then u else outOfService (hIdx (wd q 0)) 2 u
       reply [toWord (freeVal v)] (modPort (hIdx (wd q 0)) (fun y => { y with loop := 3, prbs13 := flag q 1 2 }) v).took) := by
  have hprbs : (3 : Nat) ≠ 0 := by decide
  rw [actPortLoopback, withPort_of_portOf hport]
  simp only [hmode, hprbs, reduceIte, bne_self_eq_false, Bool.false_or, Bool.and_eq_true, beq_iff_eq, false_or]
  rfl

/-- The lane settings of a LANE.SET request. -/
def laneOfRequest (q : List Word) : Lane :=
  { txInv := flag q 1 0, rxInv := flag q 1 1, training := flag q 1 2, phys := fld q 1 6 4, taps := fld q 2 27 0 }

/-- LANE.SET of a lane, which keeps its physical lane or whose octet holds no port (R52). -/
theorem actLaneSet_of_lane {x : Ctx} {q : List Word} {u : State} {old : Lane} (hlane : u.line.lanes[wd q 0]? = some old)
    (hmap : fld q 1 6 4 = old.phys ∨ (laneUses u).any (fun x => x.port / 8 == wd q 0 / 8) = false) :
    actLaneSet x q u = done { u with line := { u.line with lanes := u.line.lanes.set (wd q 0) (laneOfRequest q) } } := by
  rw [actLaneSet, hlane]
  exact if_neg fun ⟨hphys, hany⟩ => hmap.elim hphys (ne_true_of_eq_false · hany)

/-- Settles O13: each row runs its command, and the command's own meaning answers OK under the clause's conditions. -/
theorem portCommandsComplete : Obligations.PortCommandsComplete := by
  unfold Obligations.PortCommandsComplete
  refine ⟨fun mode n rate fecs speed fec => runs_of_act (.inl rfl) (fun _ _ _ => rfl) ?create,
    fun y => runs_of_act (.inl rfl) (fun _ _ _ => rfl) fun _ _ _ hport => actPortDelete_of_portOf hport,
    fun y => runs_of_act (.inl rfl) (fun _ _ _ => rfl) fun c _ _ ⟨hport, hloop⟩ => actPortEnable_direct (x := directCtx c) rfl hport hloop,
    fun y => runs_of_act (.inl rfl) (fun _ _ _ => rfl) fun c _ _ hport => actPortDisable_direct (x := directCtx c) rfl hport,
    fun y => runs_of_act (.inl rfl) (fun _ _ _ => rfl) fun c _ _ ⟨hport, hcfg⟩ => actPortSet_direct (x := directCtx c) rfl hport hcfg,
    fun y => runs_of_act (.inl rfl) (fun _ _ _ => rfl) fun _ _ _ hport => actPortFilterSet_of_portOf hport,
    fun y => runs_of_act (.inl rfl) (fun _ _ _ => rfl) fun _ _ _ hport => actPortStatus_of_portOf hport,
    fun y => runs_of_act (.inl rfl) (fun _ _ _ => rfl) fun _ _ _ hport => actPortCounters_of_portOf hport,
    fun y => runs_of_act (.inl rfl) (fun _ _ _ => rfl) ?normal,
    fun y => runs_of_act (.inl rfl) (fun _ _ _ => rfl) ?loopback,
    fun y => runs_of_act (.inl rfl) (fun _ _ _ => rfl) fun _ _ _ ⟨hport, hmode⟩ => actPortLoopback_of_prbs hport hmode,
    fun old => runs_of_act (.inl rfl) (fun _ _ _ => rfl) fun c _ _ ⟨hlane, hmap⟩ => actLaneSet_of_lane (x := directCtx c) hlane hmap⟩
  case create =>
    rintro c q u ⟨hfld, hmode, hfec, hallowed, hcfg, hfree⟩
    exact actPortCreate_direct (x := directCtx c) rfl hfld hmode hfec hallowed hcfg hfree
  case normal =>
    rintro c q u ⟨hport, hmode⟩
    refine (actPortLoopback_of_ne_prbs hport (by omega)).trans ?_
    rw [hmode, if_pos (.inl rfl)]
    rfl
  case loopback =>
    rintro c q u ⟨hport, hmode⟩
    refine (actPortLoopback_of_ne_prbs hport (by omega)).trans ?_
    exact congrArg (fun v => done (modPort (hIdx (wd q 0)) _ v))
      (ite_congr (propext (or_iff_right (by omega))) (fun _ => rfl) fun _ => rfl)

/-! ### MACsec commands (R72 to R74, R79, R393, R461) -/

/-- The SecY of a MACSEC.SECY_SET request for port y, whose default SCI is made of the port's own address (Table 2-10). -/
def secYOfRequest (q : List Word) (y : Port) : SecY :=
  { cipher := fld q 1 1 0, confOff := fld q 1 3 2, integ := flag q 1 4, sciIn := flag q 1 5
    validate := fld q 1 7 6, replay := flag q 1 8, window := wd q 2
    txSci := if flag q 1 9 then (y.filter.getD 0 (0, false)).1 * 65536 + 1 else wd64 q 3, pnThr := wd64 q 5
    bypass := [(fld q 7 15 0, flag q 9 0), (fld q 7 31 16, flag q 9 1), (fld q 8 15 0, flag q 9 2), (fld q 8 31 16, flag q 9 3)] }

/-- The ranges of Table 2-10: a cipher suite, a confidentiality offset and a validation mode that exist, a packet number threshold, and a
replay window and threshold of the suite's number width. -/
structure SecYInRange (q : List Word) : Prop where
  cipher : fld q 1 1 0 ≠ 3
  confOff : fld q 1 3 2 ≠ 3
  validate : fld q 1 7 6 ≠ 3
  threshold : wd64 q 5 ≠ 0
  window : fld q 1 1 0 = 2 → wd q 2 ≤ 2 ^ 30
  shortNumber : fld q 1 1 0 ≠ 2 → wd q 6 = 0

/-- MACSEC.SECY_SET in the ranges, which keeps the cipher suite or finds no SA, and which has an address for a default SCI (R79). -/
theorem actMacsecSecySet_of_inRange {x : Ctx} {q : List Word} {u : State} {y : Port} (hport : portOf u (wd q 0) = some y)
    (hrange : SecYInRange q) (hsuite : fld q 1 1 0 = y.secY.cipher ∨ hasSa (hIdx (wd q 0)) u = false)
    (hsci : fld q 1 1 0 = 0 ∨ flag q 1 9 = false ∨ (y.filter.getD 0 (0, false)).1 ≠ 0) :
    actMacsecSecySet x q u = done (modPort (hIdx (wd q 0)) (fun z => { z with secY := secYOfRequest q y }) u) := by
  obtain ⟨hcipher, hoff, hval, hthr, hwin, hshort⟩ := hrange
  have hrangeBad : (fld q 1 1 0 == 3 || fld q 1 3 2 == 3 || fld q 1 7 6 == 3 || wd64 q 5 == 0 || (!(fld q 1 1 0 == 2) && wd q 6 != 0)
      || (fld q 1 1 0 == 2 && decide (2 ^ 30 < wd q 2))) = false := by
    simp only [Bool.or_eq_false_iff, Bool.and_eq_false_imp, beq_eq_false_iff_ne, bne_eq_false_iff_eq, Bool.not_eq_true', beq_iff_eq,
      decide_eq_false_iff_not, Nat.not_lt]
    exact ⟨⟨⟨⟨⟨hcipher, hoff⟩, hval⟩, hthr⟩, hshort⟩, hwin⟩
  have hstateBad : ((fld q 1 1 0 != y.secY.cipher && hasSa (hIdx (wd q 0)) u)
      || (fld q 1 1 0 != 0 && flag q 1 9 && (y.filter.getD 0 (0, false)).1 == 0)) = false := by
    simp only [Bool.or_eq_false_iff, Bool.and_eq_false_iff, bne_eq_false_iff_eq, beq_eq_false_iff_ne, or_assoc]
    exact ⟨hsuite, hsci⟩
  rw [actMacsecSecySet, withPort_of_portOf hport]
  refine if_neg ?_
  rw [hrangeBad, hstateBad, Bool.and_false]
  decide

/-- The index of the SA that a MACSEC.SA_INSTALL request names on its port (R72). -/
def saIndexOfRequest (q : List Word) : Nat :=
  saIndex (hIdx (wd q 0)) (flag q 1 0) (if flag q 1 0 then 0 else fld q 1 11 8) (fld q 1 2 1)

/-- The SA of a MACSEC.SA_INSTALL request, its key in both stores (R73). -/
def saOfRequest (q : List Word) : Sa :=
  { sci := wd64 q 2, pn := wd64 q 4, ssci := wd q 6, salt := wd64 q 7 + 2 ^ 64 * wd q 9
    sak := wordBytes ((q.drop 10).take 8), work := wordBytes ((q.drop 10).take 8) }

/-- MACSEC.SA_INSTALL in a free place of the port (R73). -/
theorem actMacsecSaInstall_of_free {x : Ctx} {q : List Word} {u : State} {y : Port} (hport : portOf u (wd q 0) = some y)
    (hfree : thas u.line.sas (saIndexOfRequest q) = false) :
    actMacsecSaInstall x q u = created (handle 0x31 (saIndexOfRequest q))
      { u with line := { u.line with sas := tset u.line.sas (saIndexOfRequest q) (saOfRequest q) } } := by
  rw [actMacsecSaInstall, withPort_of_portOf hport]
  exact if_neg (ne_true_of_eq_false hfree)

/-- MACSEC.SA_ACTIVATE of a transmit SA, not on a standby in Y mode (R74, R393). -/
theorem actMacsecSaActivate_of_transmit {x : Ctx} {q : List Word} {u : State} {sa : Sa} (hsa : saOf u (wd q 0) = some sa)
    (htx : bit (hIdx (wd q 0)) 7 = true) (htwin : u.twin.st ≤ 1 ∨ u.twin.dMode = true) :
    actMacsecSaActivate x q u =
      done (modPort (hIdx (wd q 0) / 256) (fun y => { y with activeTx := some (hIdx (wd q 0) % 4) }) u) := by
  have hserved : (!bit (hIdx (wd q 0)) 7 || (decide (2 ≤ u.twin.st) && !u.twin.dMode)) = false := by
    simp only [htx, Bool.not_true, Bool.false_or, Bool.and_eq_false_iff, decide_eq_false_iff_not, Bool.not_eq_false']
    exact htwin.imp_left (by omega)
  rw [actMacsecSaActivate, hsa]
  exact if_neg (ne_true_of_eq_false hserved)

/-- MACSEC.SA_DELETE of an SA that is not the port's active transmit SA (R73). -/
theorem actMacsecSaDelete_of_inactive {x : Ctx} {q : List Word} {u : State} {sa : Sa} (hsa : saOf u (wd q 0) = some sa)
    (hidle : ∀ y, tget u.line.ports (hIdx (wd q 0) / 256) = some y →
      bit (hIdx (wd q 0)) 7 = false ∨ y.activeTx ≠ some (hIdx (wd q 0) % 4)) :
    actMacsecSaDelete x q u = done { u with line := { u.line with sas := terase u.line.sas (hIdx (wd q 0)) } } := by
  rw [actMacsecSaDelete, hsa]
  refine if_neg ?_
  cases hy : tget u.line.ports (hIdx (wd q 0) / 256) with
  | none => exact Bool.false_ne_true
  | some y =>
    show ¬ (bit (hIdx (wd q 0)) 7 && y.activeTx == some (hIdx (wd q 0) % 4)) = true
    rw [Bool.and_eq_true, beq_iff_eq]
    exact fun ⟨htx, hactive⟩ => (hidle y hy).elim (fun hrx => Bool.false_ne_true (hrx.symm.trans htx)) (· hactive)

/-- MACSEC.COUNTERS of a port reads the counters of its SecY (R461). -/
theorem actMacsecCounters_of_portOf {x : Ctx} {q : List Word} {u : State} {y : Port} (hport : portOf u (wd q 0) = some y) :
    actMacsecCounters x q u = reply (ctrWords (if flag q 1 0 then u.snap else u.ctr) 1 (hIdx (wd q 0)) (List.range' 64 9))
      (if y.clearMode ∧ flag q 1 0 = false then ctrClear 1 (hIdx (wd q 0)) (List.range' 64 9) u else u) := by
  rw [actMacsecCounters, hport]
  exact readPortCtrs_eq_reply _ _ _ _ _

/-- Of the SA counters 80 to 93 of Table 16-10 a transmit SA counts those from 90, a receive SA those below. -/
theorem saCounters_contains {i k : Nat} (hk : k ∈ List.range' 80 14) :
    (if bit i 7 then List.range' 90 4 else List.range' 80 10).contains k = decide (if bit i 7 then 90 ≤ k else k < 90) := by
  rw [List.mem_range'_1] at hk
  split <;> simp [List.mem_range'_1] <;> omega

/-- Whether port p exists and is in clear-on-read mode (R67). -/
def clearsOnRead (u : State) (p : Nat) : Bool :=
  match tget u.line.ports p with
  | some y => y.clearMode
  | none => false

/-- MACSEC.COUNTERS of an SA reads the counters of its direction, with zeros for those of the other (R461). -/
theorem actMacsecCounters_of_saOf {x : Ctx} {q : List Word} {u : State} {sa : Sa} (hport : portOf u (wd q 0) = none)
    (hsa : saOf u (wd q 0) = some sa) :
    actMacsecCounters x q u = reply
      ((List.range' 80 14).flatMap fun k =>
        if (if bit (hIdx (wd q 0)) 7 then 90 ≤ k else k < 90)
        then toWords (tgetD (if flag q 1 0 then u.snap else u.ctr) (ctrKey 1 (hIdx (wd q 0) / 256) (saCtrIndex (hIdx (wd q 0)) k)) 0) 2
        else [0#32, 0#32])
      (if clearsOnRead u (hIdx (wd q 0) / 256) && !flag q 1 0
        then ctrClear 1 (hIdx (wd q 0) / 256)
          ((if bit (hIdx (wd q 0)) 7 then List.range' 90 4 else List.range' 80 10).map (saCtrIndex (hIdx (wd q 0)))) u else u) := by
  rw [actMacsecCounters, hport, hsa]
  refine congrArg (fun words => reply words.flatten _) (List.map_congr_left fun k hk => ?_)
  rw [saCounters_contains hk]
  exact ite_congr (propext decide_eq_true_iff) (fun _ => rfl) fun _ => rfl

/-- Settles O14: each row runs its command, and the command's own meaning answers OK under the clause's conditions. -/
theorem macsecCommandsComplete : Obligations.MacsecCommandsComplete := by
  unfold Obligations.MacsecCommandsComplete
  refine ⟨fun y => runs_of_act (.inl rfl) (fun _ _ _ => rfl) ?secY,
    fun y => runs_of_act (.inl rfl) (fun _ _ _ => rfl) fun c _ _ ⟨hport, hfree⟩ =>
      actMacsecSaInstall_of_free (x := directCtx c) hport hfree,
    fun sa => runs_of_act (.inl rfl) (fun _ _ _ => rfl) fun c _ _ ⟨hsa, htx, htwin⟩ =>
      actMacsecSaActivate_of_transmit (x := directCtx c) hsa htx htwin,
    fun sa => runs_of_act (.inl rfl) (fun _ _ _ => rfl) fun c _ _ ⟨hsa, hidle⟩ =>
      actMacsecSaDelete_of_inactive (x := directCtx c) hsa hidle,
    fun y => runs_of_act (.inl rfl) (fun _ _ _ => rfl) fun c _ _ hport => actMacsecCounters_of_portOf (x := directCtx c) hport,
    fun sa => runs_of_act (.inl rfl) (fun _ _ _ => rfl) fun c _ _ ⟨hport, hsa⟩ =>
      actMacsecCounters_of_saOf (x := directCtx c) hport hsa⟩
  case secY =>
    rintro c q u ⟨hport, hcipher, hoff, hval, hthr, hwin, hshort, hsuite, hsci⟩
    exact actMacsecSecySet_of_inRange (x := directCtx c) hport ⟨hcipher, hoff, hval, hthr, hwin, hshort⟩ hsuite hsci

/-! ### Line and MAC events (R55 to R58, R61, R64, R153, R252, R289, R344) -/

/-- The state in which port p has been declared up or down at the end of its hold (R56, R57). -/
def linkTurned (p : Nat) (u : State) : State :=
  skipDevice (modPort p (fun y => { y with up := !y.up, holdOn := false, cause := 0, declTide := u.tm.tide }) u)

theorem declareLink_of_down {p : Nat} {x : Port} {u : State} (hport : tget u.line.ports p = some x) (hdown : x.up = false) :
    declareLink p u = raise 3 1 (macUnit p) (pay [(handle 0x30 p, 4)]) (linkTurned p u) := by
  rw [declareLink, hport]
  exact if_neg (ne_true_of_eq_false hdown)

theorem declareLink_of_up {p : Nat} {x : Port} {u : State} (hport : tget u.line.ports p = some x) (hup : x.up = true) :
    declareLink p u = raise 3 2 (macUnit p) (pay [(handle 0x30 p, 4), (x.cause, 1)]) (linkTurned p u) := by
  rw [declareLink, hport]
  exact if_pos hup

/-- LINK_UP of a port that is down, whose link-up hold has run (R56). -/
theorem execLinkUp_of_held {t p : Nat} {x : Port} {s : State} (hport : tget (s.atTime t).line.ports p = some x) (hdown : x.up = false)
    (hheld : holdReached x (elapsed (s.atTime t)) = true) :
    execLinkUp t p s =
      .next (linkChanged (raise 3 1 (macUnit p) (pay [(handle 0x30 p, 4)]) (linkTurned p (s.atTime t)))) := by
  rw [execLinkUp, hport, ← declareLink_of_down hport hdown]
  exact congrArg Host.Outcome.next (if_pos (by rw [hdown, hheld]; rfl))

/-- LINK_DOWN of a port that is up, whose link-down hold has run (R57). -/
theorem execLinkDown_of_held {t p : Nat} {x : Port} {s : State} (hport : tget (s.atTime t).line.ports p = some x) (hup : x.up = true)
    (hheld : holdReached x (elapsed (s.atTime t)) = true) :
    execLinkDown t p s =
      .next (linkChanged (raise 3 2 (macUnit p) (pay [(handle 0x30 p, 4), (x.cause, 1)]) (linkTurned p (s.atTime t)))) := by
  rw [execLinkDown, hport, ← declareLink_of_up hport hup]
  exact congrArg Host.Outcome.next (if_pos (by rw [hup, hheld]; rfl))

/-- A frame on an Ethernet port that is powered, in no loopback or test, and that was up at the frame's start (R58, R61). -/
theorem execFrameReceived_of_port {t p : Nat} {bs : List Byte} {good ab : Bool} {dur : Nat} {x : Port} {s : State}
    (hclear : macFenced (s.atTime t) p none = false) (hport : tget (s.atTime t).line.ports p = some x) (hloop : x.loop = 0)
    (hpower : x.poweredOff = false) (hup : x.up = true ∨ ab = true) :
    execFrameReceived t p none bs good ab dur s =
      .next (macReceive (.port p) p bs good (ab || decide (x.conds ≠ 0)) dur (s.atTime t)) := by
  have hhears : ¬ (x.loop ≠ 0 ∨ x.poweredOff = true ∨ (!x.up) = true ∧ (!ab) = true) := by
    rcases hup with hup | hab
    · simp [hloop, hpower, hup]
    · simp [hloop, hpower, hab]
  rw [execFrameReceived, if_neg (ne_true_of_eq_false hclear), hport]
  exact congrArg Host.Outcome.next (if_neg hhears)

/-- A frame on a packet client of an enabled transport port that carries it, up at the frame's start (R61, R90). -/
theorem execFrameReceived_of_client {t p c : Nat} {bs : List Byte} {good ab : Bool} {dur : Nat} {cl : Client} {tp : TPort} {s : State}
    (hclear : macFenced (s.atTime t) p (some c) = false) (hclient : tget (s.atTime t).tr.clients c = some cl)
    (hport : tget (s.atTime t).tr.ports p = some tp) (hen : tp.enabled = true) (hon : oduPort (s.atTime t) 5 (handle 0x40 cl.odu) = p)
    (hup : cl.up = true ∨ ab = true) :
    execFrameReceived t p (some c) bs good ab dur s = .next (macReceive (.client c) p bs good ab dur (s.atTime t)) := by
  rw [execFrameReceived, if_neg (ne_true_of_eq_false hclear), hclient, hport]
  exact congrArg Host.Outcome.next (if_pos ⟨hen, hon, hup⟩)

theorem execFrameLaunch_of_due {t p x : Nat} {cut : Bool} {s : State} (hstart : firstStart (s.atTime t) p = some x)
    (hdue : x ≤ nowLin (s.atTime t)) :
    execFrameLaunch t p cut s = .next (sendNext p cut (fun k => k.start == some x) (s.atTime t)) := by
  rw [execFrameLaunch, hstart]
  exact congrArg Host.Outcome.next (if_neg (Nat.not_lt.2 hdue))

/-- The state in which the waiting frame e has been taken for transmission. -/
def txTaken (e : Nat × Pkt) (u : State) : State := modFwd (fun w => { w with txq := w.txq.erase e }) u

/-- The oldest waiting frame of a kind, on a port whose MAC is not fenced, is sent where the port is open and else counted as
discarded (R58, R64). -/
theorem sendNext_of_find {p : Nat} {cut : Bool} {which : Pkt → Bool} {u : State} {e : Nat × Pkt} {m : Mac}
    (hfind : (u.fwd.txq.find? fun e => e.1 == p && which e.2) = some e) (hmac : macOf u p e.2 = some m)
    (hclear : macFenced u p e.2.outClient = false) :
    sendNext p cut which u = if txOpen u p e.2.outClient then macSend m p e.2 cut (txTaken e u)
      else notSent p e.2 (macAdd m 44 1 (txTaken e u)) := by
  have htaken : macOf (modFwd (fun w => { w with txq := w.txq.erase e }) u) p e.2 = some m := hmac
  rw [sendNext, hfind]
  simp only [htaken]
  exact if_neg (ne_true_of_eq_false hclear)

/-- The message that Enenhild originates on a port (TIME.ORIGINATE, R344). -/
def origMessage (x : TimePort) : Pkt := { bytes := x.origTemplate, md := {}, own := true, cap := some 0 }

/-- The state in which Enenhild originates a message on port p: it has taken the captures of the messages before (R344). -/
def origTaken (p : Nat) (u : State) : State :=
  modTimePort p (fun y => { y with origLast := elapsed u + 1, fifo := y.fifo.filter fun e => !e.own }) u

/-- A message that the set rate allows on an open port is sent, or waits for its scheduled start on a gated port (R289, R344). -/
theorem originate_of_due {p : Nat} {cut : Bool} {u : State} {x : TimePort} (hset : u.tm.ports.getD p {} = x) (hrate : 0 < x.origRate)
    (hdue : x.origLast = 0 ∨ x.origLast - 1 + secU / x.origRate ≤ elapsed u) (hport : thas u.line.ports p = true)
    (hopen : txOpen u p none = true) :
    originate p cut u =
      (let v := origTaken p u
       let k := origMessage x
       let till := launchAt v p (nowLin v) + byteTime (max 64 (k.bytes.length + macsecBytes v p k.bytes + 4) + 20) (macRate v p)
       if gated v p then
         modFwd (fun w => { w with txq := w.txq ++ [(p, { k with start := some (launchAt v p (nowLin v)) })] })
           (modGate p (fun g => { g with busy := till }) v)
       else macSend (.port p) p k cut v) := by
  subst hset
  refine if_neg ?_
  rintro (hzero | ⟨hlast, hearly⟩ | hnone | hshut)
  · omega
  · exact hdue.elim hlast (Nat.not_le.2 hearly)
  · simp [hport] at hnone
  · simp [hopen] at hshut

/-- An egress pass while the FD bridge end is not ON wakes it, or discards the packet where it is fenced (R14, R22). -/
theorem execEgressPipelinePass_of_asleep {t p : Nat} {e : Nat × Pkt} {s : State}
    (hfind : ((s.atTime t).fwd.egress.find? fun e => e.1 == p) = some e) (hasleep : (domOf (s.atTime t) 39).st ≠ 0) :
    execEgressPipelinePass t p s = .next (if (domOf (s.atTime t) 39).st = 6 ∧ fenced (s.atTime t) 39
      then notSent p e.2 (modFwd (fun w => { w with egress := w.egress.erase e }) (s.atTime t)) else wakeDom 39 (s.atTime t)) := by
  rw [execEgressPipelinePass, hfind]
  exact if_pos hasleep

/-- An egress pass discards the packet where the bridge end or the pipeline is fenced, or where no port of the number exists (R22, R252). -/
theorem execEgressPipelinePass_of_lost {t p : Nat} {e : Nat × Pkt} {s : State}
    (hfind : ((s.atTime t).fwd.egress.find? fun e => e.1 == p) = some e) (hon : (domOf (s.atTime t) 39).st = 0)
    (hlost : (fenced (egressTaken p e (s.atTime t)) 39 || fenced (egressTaken p e (s.atTime t)) e.2.pipe) = true
      ∨ macOf (egressTaken p e (s.atTime t)) p e.2 = none) :
    execEgressPipelinePass t p s = .next (notSent p e.2 (egressTaken p e (s.atTime t))) := by
  rw [execEgressPipelinePass, hfind]
  refine (if_neg (not_not_intro hon)).trans ?_
  by_cases hfenced : (fenced (egressTaken p e (s.atTime t)) 39 || fenced (egressTaken p e (s.atTime t)) e.2.pipe) = true
  · exact if_pos hfenced
  · refine (if_neg hfenced).trans ?_
    have hmac := hlost.resolve_left hfenced
    simp only [egressTaken] at hmac ⊢
    rw [hmac]

/-- The state in which an egress pass has edited the packet of entry e, with x the outcome of its edit: the pass is counted and
sampled (R153, R156). -/
def egressPassed (e : Nat × Pkt) (x : Edited) (v : State) : State :=
  samplePackets e.2.pipe 1 e.2.md.words (bankEvent e.2.pipe 10 16 1 (pipeCount e.2.pipe 17 x.exc v))

/-- What an egress pass does with the edited packet: it waits for the MAC, or is dropped for a reason that is counted (R153). -/
def egressHandedOn (p : Nat) (e : Nat × Pkt) (x : Edited) (w : State) : State :=
  match x.drop with
  | some .edit => notSent p e.2 w
  | some .ttl => notSent p e.2 (pipeCount e.2.pipe 18 1 w)
  | some .notEct => notSent p e.2 (schedCount (sliceUnit w e.2.md.queue) 3 1 w)
  | none => modFwd (fun f => { f with txq := f.txq ++ [(p, { e.2 with bytes := x.bytes })] }) w

theorem next_egressHandedOn (p : Nat) (e : Nat × Pkt) (x : Edited) (w : State) :
    (.next (egressHandedOn p e x w) : Host.Outcome State Fault Refusal) =
      match x.drop with
      | some .edit => .next (notSent p e.2 w)
      | some .ttl => .next (notSent p e.2 (pipeCount e.2.pipe 18 1 w))
      | some .notEct => .next (notSent p e.2 (schedCount (sliceUnit w e.2.md.queue) 3 1 w))
      | none => .next (modFwd (fun f => { f with txq := f.txq ++ [(p, { e.2 with bytes := x.bytes })] }) w) := by
  obtain ⟨bytes, exc, drop⟩ := x
  cases drop with
  | none => rfl
  | some reason => cases reason <;> rfl

/-- An egress pass of a packet with a MAC: on a port that is not open it is discarded and counted, else it is edited (R58, R153). -/
theorem execEgressPipelinePass_of_mac {t p : Nat} {e : Nat × Pkt} {m : Mac} {s : State}
    (hfind : ((s.atTime t).fwd.egress.find? fun e => e.1 == p) = some e) (hon : (domOf (s.atTime t) 39).st = 0)
    (hclear : (fenced (egressTaken p e (s.atTime t)) 39 || fenced (egressTaken p e (s.atTime t)) e.2.pipe) = false)
    (hmac : macOf (egressTaken p e (s.atTime t)) p e.2 = some m) :
    execEgressPipelinePass t p s = .next
      (let v := egressTaken p e (s.atTime t)
       let x := egressEdit v (cfgEg v e.2.md.egEpoch) p e.2
       if !txOpen v p e.2.outClient then notSent p e.2 (macAdd m 44 1 v) else egressHandedOn p e x (egressPassed e x v)) := by
  rw [execEgressPipelinePass, hfind]
  refine (if_neg (not_not_intro hon)).trans ((if_neg (ne_true_of_eq_false hclear)).trans ?_)
  simp only [egressTaken] at hmac ⊢
  rw [hmac]
  exact (ite_congr rfl (fun _ => rfl) fun _ => (next_egressHandedOn _ _ _ _).symm).trans (apply_ite Host.Outcome.next _ _ _).symm

/-- Settles O52, event by event: where the clause's conditions hold at the event's instant, they choose its branch. -/
theorem lineEventsComplete : Obligations.LineEventsComplete := by
  unfold Obligations.LineEventsComplete
  refine ⟨fun _ _ => happens_of_exec fun _ _ => rfl,
    fun _ _ _ _ ⟨hport, hdown, hheld⟩ => execLinkUp_of_held hport hdown hheld,
    fun _ _ _ _ ⟨hport, hup, hheld⟩ => execLinkDown_of_held hport hup hheld,
    fun _ _ _ _ _ _ _ _ ⟨hclear, hport, hloop, hpower, hup⟩ => execFrameReceived_of_port hclear hport hloop hpower hup,
    fun _ _ _ _ _ _ _ _ _ _ ⟨hclear, hclient, hport, hen, hon, hup⟩ => execFrameReceived_of_client hclear hclient hport hen hon hup,
    fun _ _ _ _ _ ⟨hstart, hdue⟩ => execFrameLaunch_of_due hstart hdue,
    fun _ _ => happens_of_exec fun _ _ => rfl,
    ?launched, ?sent, ?discarded, ?originated,
    fun _ _ _ _ ⟨hfind, hasleep⟩ => execEgressPipelinePass_of_asleep hfind hasleep,
    fun _ _ _ _ ⟨hfind, hon, hlost⟩ => execEgressPipelinePass_of_lost hfind hon hlost, ?edited⟩
  case launched =>
    rintro p cut x e m t s ⟨hstart, hdue, hfind, hmac, hopen, hclear⟩
    refine (execFrameLaunch_of_due hstart hdue).trans (congrArg Host.Outcome.next ?_)
    exact (sendNext_of_find hfind hmac hclear).trans (if_pos hopen)
  case sent =>
    rintro p cut e m t s ⟨hfind, hmac, hopen, hclear⟩
    exact congrArg Host.Outcome.next
      ((sendNext_of_find (which := fun k => k.start.isNone) hfind hmac hclear).trans (if_pos hopen))
  case discarded =>
    rintro p cut e m t s ⟨hfind, hmac, hshut, hclear⟩
    exact congrArg Host.Outcome.next
      ((sendNext_of_find (which := fun k => k.start.isNone) hfind hmac hclear).trans (if_neg (ne_true_of_eq_false hshut)))
  case originated =>
    rintro p cut x t s ⟨hset, hrate, hdue, hport, hopen⟩
    exact congrArg Host.Outcome.next (originate_of_due hset hrate hdue hport hopen)
  case edited =>
    rintro p e m t s ⟨hfind, hon, hclear, hmac⟩
    exact execEgressPipelinePass_of_mac hfind hon hclear hmac

end Sys2Proof.Machine
end

section
/-! Proofs of the statements on transport and framing (spec/03_transport_framing.md): transport ports, ODU and SDH paths, supervision,
protection, and the events of transport and of circuits. -/

namespace Sys2Proof.Machine

open Sys2Proof

/-! ### What a create and a reference meet outside staging (R454) -/

/-- A direct create takes the lowest index that is free and not reserved. -/
theorem newIdx_direct {α : Type} {x : Ctx} (hph : x.ph = .direct) (ty : Nat) (t : Tab α) (n : Nat) (u : State) :
    newIdx x ty t n u = lowestFreeBut t (reservedIdx u ty) n := by
  rw [newIdx, hph]

/-- A direct ODU.CREATE takes the lowest packet client index that is free and not reserved (R90). -/
theorem newClient_direct {x : Ctx} (hph : x.ph = .direct) (u : State) :
    newClient x u = lowestFreeBut u.tr.clients (reservedIdx u 0x43) 256 := by
  rw [newClient, hph]

theorem knows_of_objExists {x : Ctx} {u : State} {h : Nat} (hexists : objExists u h = true) : x.knows u h = true := by
  rw [Ctx.knows, hexists, Bool.true_or]

/-! ### Transport port commands (R82 to R84, R101) -/

/-- A command on an existing transport port runs on that port. -/
theorem withTport_of_tget {x : Ctx} {q : List Word} {u : State} {y : TPort} (hty : hType (wd q 0) = 0x32)
    (hport : tget u.tr.ports (hIdx (wd q 0)) = some y) (f : Nat → TPort → Res) : withTport x q u f = f (hIdx (wd q 0)) y := by
  rw [withTport, if_pos hty, hport]

/-- TPORT.CREATE in a mode of Table 3-1, on free lanes and within the transport totals (R82 to R84). -/
theorem actTportCreate_direct {x : Ctx} {q : List Word} {u : State} {n rate sl stm : Nat} (hph : x.ph = .direct)
    (hmode : tpMode (fld q 0 15 8) = some (n, rate, sl, stm)) (hfree : laneFree (laneUses u) (fld q 0 5 0) n rate = true)
    (hotn : otucSum u + sl ≤ 32) (hstm : stmSum u + stm ≤ 256) :
    actTportCreate x q u = created (handle 0x32 (fld q 0 5 0))
      (portNodePut (fld q 0 5 0) (Config.tportRate (fld q 0 15 8)) (parseReset (fld q 0 5 0) (twinPortNew (fld q 0 5 0)
        { u with tr := { u.tr with
          ports := tset u.tr.ports (fld q 0 5 0) { mode := fld q 0 15 8, loopTiming := flag q 0 16, s1 := fld q 1 7 0 } } }))) := by
  rw [actTportCreate, hmode, stagedUses_direct hph]
  have hlanes : ¬ (!laneFree (laneUses u) (fld q 0 5 0) n rate) = true := by simp [hfree]
  exact (if_neg hlanes).trans (if_neg (by omega))

/-- TPORT.DELETE of a port in no group and without ODU or path objects (R82). -/
theorem actTportDelete_of_unused {x : Ctx} {q : List Word} {u : State} {y : TPort} (hty : hType (wd q 0) = 0x32)
    (hport : tget u.tr.ports (hIdx (wd q 0)) = some y) (hgroup : inGroup u (handle 0x32 (hIdx (wd q 0))) = false)
    (hchildren : childrenOf u (handle 0x32 (hIdx (wd q 0))) = []) :
    actTportDelete x q u = done { u with tr := { u.tr with ports := terase u.tr.ports (hIdx (wd q 0)) } } := by
  rw [actTportDelete, withTport_of_tget hty hport]
  exact if_neg (by simp [hgroup, hchildren])

theorem actTportEnable_direct {x : Ctx} {q : List Word} {u : State} {y : TPort} (hph : x.ph = .direct) (hty : hType (wd q 0) = 0x32)
    (hport : tget u.tr.ports (hIdx (wd q 0)) = some y) :
    actTportEnable x q u = done (modTport (hIdx (wd q 0)) (fun y => { y with pendEn := some true }) u) := by
  rw [actTportEnable, withTport_of_tget hty hport]
  exact if_neg (by simp [hph])

theorem actTportDisable_direct {x : Ctx} {q : List Word} {u : State} {y : TPort} (hph : x.ph = .direct) (hty : hType (wd q 0) = 0x32)
    (hport : tget u.tr.ports (hIdx (wd q 0)) = some y) :
    actTportDisable x q u = done (modTport (hIdx (wd q 0)) (fun y => { y with pendEn := some false }) u) := by
  rw [actTportDisable, withTport_of_tget hty hport]
  exact if_neg (by simp [hph])

/-- Settles O15: each row runs its command, and the command's own meaning answers OK under the clause's conditions. -/
theorem transportPortCommandsComplete : Obligations.TransportPortCommandsComplete := by
  unfold Obligations.TransportPortCommandsComplete
  refine ⟨fun n rate sl stm => runs_of_act (.inl rfl) (fun _ _ _ => rfl) fun c _ _ ⟨hmode, hfree, hotn, hstm⟩ =>
      actTportCreate_direct (x := directCtx c) rfl hmode hfree hotn hstm,
    fun y => runs_of_act (.inl rfl) (fun _ _ _ => rfl) fun _ _ _ ⟨hty, hport, hgroup, hchildren⟩ =>
      actTportDelete_of_unused hty hport hgroup hchildren,
    fun y => runs_of_act (.inl rfl) (fun _ _ _ => rfl) fun c _ _ ⟨hty, hport⟩ =>
      actTportEnable_direct (x := directCtx c) rfl hty hport,
    fun y => runs_of_act (.inl rfl) (fun _ _ _ => rfl) fun c _ _ ⟨hty, hport⟩ =>
      actTportDisable_direct (x := directCtx c) rfl hty hport⟩

/-! ### ODU and SDH path commands (R88 to R92, Tables 3-3, 3-4 and 3-14) -/

/-- What ODU.CREATE asks of its request and of the server v (Tables 3-3 and 3-4): a server that exists, a kind with a termination of it or
none, as many tributary slots as the count says, a server that carries the kind and holds the slots free, and the STM total in its limit. -/
structure OduFits (q : List Word) (u : State) (v : OduServer) : Prop where
  type : hType (wd q 0) = 0x32 ∨ hType (wd q 0) = 0x40
  existing : objExists u (wd q 0) = true
  kind : fld q 1 3 0 ≤ 6
  term : fld q 1 7 4 = 0 ∨ termKind (fld q 1 7 4) = some (fld q 1 3 0)
  low : 1 ≤ fld q 1 16 8
  high : fld q 1 16 8 ≤ if fld q 1 7 4 = 7 then 80 else 320
  slots : popCount (slotBits q) 320 = fld q 1 16 8
  server : oduServer u (wd q 0) (fld q 1 3 0) = some v
  carries : v.kinds.contains (fld q 1 3 0) = true
  depth : v.depth ≤ 2
  inServer : slotBits q < 2 ^ v.slots
  free : (u.tr.odus.any fun e => e.2.server == wd q 0 && Nat.land e.2.slots (slotBits q) != 0) = false
  total : stmSum u + termStm (fld q 1 7 4) ≤ 256

/-- The packet client that ODU.CREATE makes: none below termination 4, else one with a free index and a free scheduler node (R90). -/
inductive ClientFits (q : List Word) (u : State) : Option Nat → Prop where
  | unasked (hterm : fld q 1 7 4 < 4) : ClientFits q u none
  | free {c : Nat} (hterm : 4 ≤ fld q 1 7 4) (hidx : lowestFreeBut u.tr.clients (reservedIdx u 0x43) 256 = some c)
      (hnode : clientNodeFree (oduPort u 5 (wd q 0)) u = true) : ClientFits q u (some c)

theorem ClientFits.newClient_eq {x : Ctx} {q : List Word} {u : State} {client : Option Nat} (hph : x.ph = .direct)
    (hclient : ClientFits q u client) : (if decide (4 ≤ fld q 1 7 4) = true then newClient x u else none) = client := by
  cases hclient with
  | unasked hterm => exact if_neg (by simpa using hterm)
  | free hterm hidx hnode => rw [newClient_direct hph, hidx, if_pos (decide_eq_true hterm)]

/-- A packet client that ODU.CREATE makes finds its index and its scheduler node. -/
theorem ClientFits.not_short {x : Ctx} {q : List Word} {u : State} {client : Option Nat} (hph : x.ph = .direct)
    (hclient : ClientFits q u client) :
    ¬ (decide (4 ≤ fld q 1 7 4) && ((newClient x u).isNone || !clientNodeFree (oduPort u 5 (wd q 0)) u)) = true := by
  cases hclient with
  | unasked hterm =>
    rw [decide_eq_false (Nat.not_le.2 hterm), Bool.false_and]
    exact Bool.false_ne_true
  | free hterm hidx hnode => simp [newClient_direct hph, hidx, hnode]

/-- The ODU of an ODU.CREATE request with a packet client or none. -/
def oduOfRequest (q : List Word) (client : Option Nat) : Odu :=
  { server := wd q 0, kind := fld q 1 3 0, term := fld q 1 7 4, slots := slotBits q, tpn := fld q 12 8 0, expPt := fld q 13 7 0
    client := client }

/-- The state in which packet client c of ODU i stands with its scheduler node, where the ODU has one (R90). -/
def oduClientPut (q : List Word) (i : Nat) (client : Option Nat) (u : State) : State :=
  match client with
  | some c => clientNodePut (oduPort u 5 (wd q 0)) c (clientRate (oduOfRequest q client))
      (clientPut c i { u with tr := { u.tr with odus := tset u.tr.odus i (oduOfRequest q client) } })
  | none => { u with tr := { u.tr with odus := tset u.tr.odus i (oduOfRequest q client) } }

/-- What ODU.CREATE answers: the handles of ODU i and of its packet client, SSF spread from a server that has failed (R90, R93). -/
def oduCreated (q : List Word) (i : Nat) (client : Option Nat) (u : State) : Res :=
  ⟨stOk, [toWord (handle 0x40 i), match client with | some c => toWord (c + 2 ^ 31) | none => 0#32],
    clientsUpdate (spreadSsf 2 (handle 0x40 i) (putDefect (handle 0x40 i) 12 (downFail u (wd q 0)) (oduClientPut q i client u))),
    handle 0x40 i⟩

/-- ODU.CREATE in free tributary slots of a server, with a packet client or none (R88 to R90). -/
theorem actOduCreate_direct {x : Ctx} {q : List Word} {u : State} {v : OduServer} {i : Nat} {client : Option Nat} (hph : x.ph = .direct)
    (hfits : OduFits q u v) (hidx : lowestFreeBut u.tr.odus (reservedIdx u 0x40) 4096 = some i) (hclient : ClientFits q u client) :
    actOduCreate x q u = oduCreated q i client u := by
  obtain ⟨htype, hexists, hkind, hterm, hlow, hhigh, hslots, hserver, hcarries, hdepth, hinServer, hfree, htotal⟩ := hfits
  have hnamed : ¬ ((hType (wd q 0) ≠ 0x32 ∧ hType (wd q 0) ≠ 0x40) ∨ (!x.knows u (wd q 0)) = true) := by
    have hknown : ¬ (!x.knows u (wd q 0)) = true := by simp [knows_of_objExists hexists]
    exact not_or.2 ⟨by omega, hknown⟩
  have hlegal : ¬ (6 < fld q 1 3 0 ∨ (fld q 1 7 4 != 0 && termKind (fld q 1 7 4) != some (fld q 1 3 0)) = true ∨ fld q 1 16 8 < 1
      ∨ 320 < fld q 1 16 8 ∨ popCount (slotBits q) 320 ≠ fld q 1 16 8 ∨ (fld q 1 7 4 = 7 ∧ 80 < fld q 1 16 8)) := by
    have htermOk : (fld q 1 7 4 != 0 && termKind (fld q 1 7 4) != some (fld q 1 3 0)) = false := by
      rcases hterm with hnone | hsome
      · rw [hnone, bne_self_eq_false, Bool.false_and]
      · rw [hsome, bne_self_eq_false, Bool.and_false]
    simp only [htermOk, Bool.false_eq_true, false_or]
    split at hhigh <;> omega
  have hroom : ¬ (!v.kinds.contains (fld q 1 3 0) || decide (2 < v.depth) || decide (2 ^ v.slots ≤ slotBits q)
      || u.tr.odus.any fun e => e.2.server == wd q 0 && Nat.land e.2.slots (slotBits q) != 0) = true := by
    rw [hcarries, hfree]
    simp [hdepth, hinServer]
  rw [actOduCreate, hserver, newIdx_direct hph, hidx]
  refine (if_neg hnamed).trans ((if_neg hlegal).trans ((if_neg hroom).trans ((if_neg (by omega)).trans
    ((if_neg (hclient.not_short hph)).trans ?_))))
  rw [hclient.newClient_eq hph]
  cases client <;> rfl

/-- ODU.DELETE of an ODU without clients, circuit and group (R90). -/
theorem actOduDelete_of_unused {x : Ctx} {q : List Word} {u : State} {o : Odu} (hty : hType (wd q 0) = 0x40)
    (hodu : tget u.tr.odus (hIdx (wd q 0)) = some o) (hchildren : childrenOf u (wd q 0) = []) (hgroup : inGroup u (wd q 0) = false)
    (hbound : boundCircuit u (wd q 0) = false) :
    actOduDelete x q u =
      (let v := match o.client with | some c => clientNodeDrop c u | none => u
       done { v with tr := { v.tr with
         odus := terase v.tr.odus (hIdx (wd q 0))
         clients := match o.client with | some c => terase u.tr.clients c | none => u.tr.clients } }) := by
  rw [actOduDelete, if_pos hty, hodu]
  exact if_neg (by simp [hchildren, hgroup, hbound])

/-- The path of an SDH.PATH_CREATE request below a server. -/
def pathOfRequest (q : List Word) (srv : Nat) : Path :=
  { server := srv, kind := fld q 1 1 0, au := fld q 1 11 2, tu12 := fld q 1 16 12, tug3 := fld q 1 18 17, label := fld q 2 7 0 }

/-- What SDH.PATH_CREATE answers: path i below a server, with SSF where the server has failed (R92, R93). -/
def pathCreated (q : List Word) (srv i : Nat) (u : State) : Res :=
  created (handle 0x41 i) (putDefect (handle 0x41 i) 12 (downFail u (failFrom u srv))
    { u with tr := { u.tr with paths := tset u.tr.paths i (pathOfRequest q srv) } })

/-- Whether a VC-4 (kind 0) or VC-3 below a server would overlap a path that exists (R92). -/
def auTaken (u : State) (srv kind au : Nat) : Bool :=
  u.tr.paths.any fun e => e.2.server == srv &&
    (if kind = 0 then (e.2.kind == 0 && e.2.au == au) || (e.2.kind == 1 && e.2.au / 3 == au)
     else (e.2.kind == 1 && e.2.au == au) || (e.2.kind == 0 && e.2.au == au / 3))

/-- A path's server is named by an existing transport port, ODU or path (R11, R92). -/
theorem pathServer_named {x : Ctx} {u : State} {h : Nat} (htype : hType h = 0x32 ∨ hType h = 0x40 ∨ hType h = 0x41)
    (hexists : objExists u h = true) : ¬ ((hType h ≠ 0x32 ∧ hType h ≠ 0x40 ∧ hType h ≠ 0x41) ∨ (!x.knows u h) = true) := by
  have hknown : ¬ (!x.knows u h) = true := by simp [knows_of_objExists hexists]
  exact not_or.2 ⟨by omega, hknown⟩

/-- SDH.PATH_CREATE of a VC-4 or VC-3 at a free AU of its server (R92). -/
theorem actSdhPathCreate_of_highOrder {x : Ctx} {q : List Word} {u : State} {i : Nat} (hph : x.ph = .direct)
    (htype : hType (wd q 0) = 0x32 ∨ hType (wd q 0) = 0x40) (hexists : objExists u (wd q 0) = true)
    (hkind : fld q 1 1 0 = 0 ∨ fld q 1 1 0 = 1)
    (hau : fld q 1 11 2 < if fld q 1 1 0 = 0 then stmOf u (wd q 0) else 3 * stmOf u (wd q 0))
    (hfree : auTaken u (wd q 0) (fld q 1 1 0) (fld q 1 11 2) = false)
    (hidx : lowestFreeBut u.tr.paths (reservedIdx u 0x41) (2 ^ 24) = some i) :
    actSdhPathCreate x q u = pathCreated q (wd q 0) i u := by
  have hplace : ¬ (hType (wd q 0) = 0x41
      ∨ (objExists u (wd q 0) = true ∧ (if fld q 1 1 0 = 0 then decide (stmOf u (wd q 0) ≤ fld q 1 11 2)
          else decide (3 * stmOf u (wd q 0) ≤ fld q 1 11 2)) = true)
      ∨ auTaken u (wd q 0) (fld q 1 1 0) (fld q 1 11 2) = true) := by
    refine not_or.2 ⟨by omega, not_or.2 ⟨fun ⟨_, hpast⟩ => ?_, ne_true_of_eq_false hfree⟩⟩
    rcases hkind with hvc4 | hvc3
    · rw [if_pos hvc4] at hau
      rw [if_pos hvc4, decide_eq_true_eq] at hpast
      omega
    · have hne : fld q 1 1 0 ≠ 0 := by omega
      rw [if_neg hne] at hau
      rw [if_neg hne, decide_eq_true_eq] at hpast
      omega
  rw [actSdhPathCreate, newIdx_direct hph, hidx]
  exact (if_neg (pathServer_named (htype.imp_right .inl) hexists)).trans
    ((if_neg (by omega)).trans ((if_neg (by omega)).trans (if_neg hplace)))

/-- SDH.PATH_CREATE of a VC-12 at a free TU of its VC-4 or VC-3 (R92). -/
theorem actSdhPathCreate_of_vc12 {x : Ctx} {q : List Word} {u : State} {i ph : Nat} {y : Path} (hph : x.ph = .direct)
    (htype : hType (wd q 0) = 0x32 ∨ hType (wd q 0) = 0x40 ∨ hType (wd q 0) = 0x41) (hexists : objExists u (wd q 0) = true)
    (hkind : fld q 1 1 0 = 2) (htu : fld q 1 16 12 ≤ 20) (htug : fld q 1 18 17 ≤ 2)
    (hserver : vc12Server u (wd q 0) (fld q 1 11 2) = some (ph, y)) (hvc3 : y.kind = 1 → fld q 1 18 17 = 0)
    (hfree : (u.tr.paths.any fun e => e.2.server == ph && e.2.kind == 2 && e.2.tu12 == fld q 1 16 12 && e.2.tug3 == fld q 1 18 17) = false)
    (hidx : lowestFreeBut u.tr.paths (reservedIdx u 0x41) (2 ^ 24) = some i) :
    actSdhPathCreate x q u = pathCreated q ph i u := by
  have hplace : ¬ ((y.kind = 1 ∧ fld q 1 18 17 ≠ 0) ∨ (u.tr.paths.any fun e =>
      e.2.server == ph && e.2.kind == 2 && e.2.tu12 == fld q 1 16 12 && e.2.tug3 == fld q 1 18 17) = true) :=
    not_or.2 ⟨fun ⟨hk, hne⟩ => hne (hvc3 hk), ne_true_of_eq_false hfree⟩
  rw [actSdhPathCreate, newIdx_direct hph, hidx, hserver]
  exact (if_neg (pathServer_named htype hexists)).trans
    ((if_neg (by omega)).trans ((if_pos hkind).trans ((if_neg (by omega)).trans (if_neg hplace))))

/-- SDH.PATH_DELETE of a path without VC-12s, circuit and group (R92). -/
theorem actSdhPathDelete_of_unused {x : Ctx} {q : List Word} {u : State} {y : Path} (hty : hType (wd q 0) = 0x41)
    (hpath : tget u.tr.paths (hIdx (wd q 0)) = some y) (hchildren : childrenOf u (wd q 0) = []) (hgroup : inGroup u (wd q 0) = false)
    (hbound : boundCircuit u (wd q 0) = false) :
    actSdhPathDelete x q u = done { u with tr := { u.tr with paths := terase u.tr.paths (hIdx (wd q 0)) } } := by
  rw [actSdhPathDelete, if_pos hty, hpath]
  exact if_neg (by simp [hchildren, hgroup, hbound])

/-- Settles O16: each row runs its command, and the command's own meaning answers OK under the clause's conditions. -/
theorem transportPathCommandsComplete : Obligations.TransportPathCommandsComplete := by
  unfold Obligations.TransportPathCommandsComplete
  refine ⟨fun v i => runs_of_act (.inl rfl) (fun _ _ _ => rfl) ?plainOdu,
    fun v i ci => runs_of_act (.inl rfl) (fun _ _ _ => rfl) ?clientOdu,
    fun o => runs_of_act (.inl rfl) (fun _ _ _ => rfl) ?plainDelete,
    fun o ci => runs_of_act (.inl rfl) (fun _ _ _ => rfl) ?clientDelete,
    fun i => runs_of_act (.inl rfl) (fun _ _ _ => rfl) ?highOrder,
    fun i ph y => runs_of_act (.inl rfl) (fun _ _ _ => rfl) ?vc12,
    fun y => runs_of_act (.inl rfl) (fun _ _ _ => rfl) fun _ _ _ ⟨hty, hpath, hchildren, hgroup, hbound⟩ =>
      actSdhPathDelete_of_unused hty hpath hchildren hgroup hbound⟩
  case plainOdu =>
    rintro c q u ⟨htype, hexists, hkind, hterm3, hterm, hlow, hhigh, hslots, hserver, hcarries, hdepth, hinServer, hfree, htotal, hidx⟩
    have hfits : OduFits q u v := ⟨htype, hexists, hkind, hterm, hlow, by rwa [if_neg (by omega)], hslots, hserver, hcarries, hdepth,
      hinServer, hfree, htotal⟩
    exact actOduCreate_direct (x := directCtx c) (client := none) rfl hfits hidx (.unasked (by omega))
  case clientOdu =>
    rintro c q u ⟨htype, hexists, hkind, hterm4, hterm, hlow, hhigh, hslots, hserver, hcarries, hdepth, hinServer, hfree, htotal, hidx,
      hclient, hnode⟩
    have hfits : OduFits q u v := ⟨htype, hexists, hkind, .inr hterm, hlow, hhigh, hslots, hserver, hcarries, hdepth, hinServer, hfree,
      htotal⟩
    refine (actOduCreate_direct (x := directCtx c) rfl hfits hidx (.free hterm4 hclient hnode)).trans ?_
    rw [oduCreated, oduClientPut]
    rfl
  case plainDelete =>
    rintro c q u ⟨hty, hodu, hclient, hchildren, hgroup, hbound⟩
    refine (actOduDelete_of_unused hty hodu hchildren hgroup hbound).trans ?_
    rw [hclient]
    rfl
  case clientDelete =>
    rintro c q u ⟨hty, hodu, hclient, hchildren, hgroup, hbound⟩
    refine (actOduDelete_of_unused hty hodu hchildren hgroup hbound).trans ?_
    rw [hclient]
    rfl
  case highOrder =>
    rintro c q u ⟨htype, hexists, ⟨hkind, hau, hfree⟩ | ⟨hkind, hau, hfree⟩, hidx⟩
    · exact actSdhPathCreate_of_highOrder (x := directCtx c) rfl htype hexists (.inl hkind) (by rwa [if_pos hkind])
        (by rwa [hkind]) hidx
    · exact actSdhPathCreate_of_highOrder (x := directCtx c) rfl htype hexists (.inr hkind) (by rwa [if_neg (by omega)])
        (by rwa [hkind]) hidx
  case vc12 =>
    rintro c q u ⟨htype, hexists, hkind, htu, htug, hserver, hvc3, hfree, hidx⟩
    refine (actSdhPathCreate_of_vc12 (x := directCtx c) rfl htype hexists hkind htu htug hserver hvc3 hfree hidx).trans ?_
    rw [pathCreated, pathOfRequest, hkind]
    rfl

/-! ### Supervision commands (R93 to R97, R99, Tables 3-7 to 3-10) -/

/-- A command on an object with supervision of its own runs on that; that of a demapped STM-N (type 0x44) has no handle. -/
theorem withMon_of_monOf {x : Ctx} {q : List Word} {u : State} {m : Mon} (hty : hType (wd q 0) ≠ 0x44) (hmon : monOf u (wd q 0) = some m)
    (f : Nat → Mon → Res) : withMon x q u f = f (wd q 0) m := by
  rw [withMon, if_neg hty, hmon]

/-- The supervision m with the trace settings of a TRACE.SET request (R95 to R97). -/
def traceSettings (q : List Word) (m : Mon) : Mon :=
  let tx := wordBytes ((q.drop 2).take 16)
  { m with
    trFmt := fld q 1 1 0, trMode := fld q 1 4 2, timEn := flag q 1 5, acc5 := flag q 1 6, persist := fld q 1 23 7
    txTrace := if fld q 1 1 0 = 0 then trace16 (tx.drop 1) else tx, expTrace := wordBytes ((q.drop 18).take 16) }

/-- TRACE.SET of a format and comparison mode that fit the object, with a persistence in range: TIM is judged anew (R95 to R97). -/
theorem actTraceSet_of_monOf {x : Ctx} {q : List Word} {u : State} {m : Mon} (hty : hType (wd q 0) ≠ 0x44)
    (hmon : monOf u (wd q 0) = some m) (hfits : traceOk u (wd q 0) (fld q 1 1 0) (fld q 1 4 2) = true) (hpersist : fld q 1 23 7 ≤ 80000) :
    actTraceSet x q u = done (defectsChanged (wd q 0)
      (timJudge (wd q 0) (wordBytes ((q.drop 18).take 16) != m.expTrace) (modMon (wd q 0) (traceSettings q) u))) := by
  rw [actTraceSet, withMon_of_monOf hty hmon]
  exact if_neg (by simp [hfits, hpersist])

theorem actTraceGet_of_monOf {x : Ctx} {q : List Word} {u : State} {m : Mon} (hty : hType (wd q 0) ≠ 0x44)
    (hmon : monOf u (wd q 0) = some m) :
    actTraceGet x q u = reply (toWord (b2n (bit m.defects 6)) :: packWords ((m.accTrace ++ List.replicate 64 0#8).take 64)) u :=
  withMon_of_monOf hty hmon _

/-- MON.SET of an SDH object takes the exponents of its EXC and DEG thresholds (R94, Table 3-7). -/
theorem actMonSet_of_sdh {x : Ctx} {q : List Word} {u : State} {m : Mon} (hty : hType (wd q 0) ≠ 0x44) (hmon : monOf u (wd q 0) = some m)
    (hsdh : isSdhObj u (wd q 0) = true) (hexc : 3 ≤ fld q 1 14 12 ∧ fld q 1 14 12 ≤ 5)
    (hdeg : 5 ≤ fld q 1 19 16 ∧ fld q 1 19 16 ≤ 9) :
    actMonSet x q u = done (defectsChanged (wd q 0) (modMon (wd q 0) (fun m => { m with
      exc := fld q 1 14 12, deg := fld q 1 19 16, excEn := flag q 1 20 }) u)) := by
  rw [actMonSet, withMon_of_monOf hty hmon]
  exact (if_pos hsdh).trans (if_neg (by omega))

/-- MON.SET of an OTN object takes DEGTHR and DEGM (R94, Table 3-7). -/
theorem actMonSet_of_otn {x : Ctx} {q : List Word} {u : State} {m : Mon} (hty : hType (wd q 0) ≠ 0x44) (hmon : monOf u (wd q 0) = some m)
    (hotn : isSdhObj u (wd q 0) = false) (hthr : 1 ≤ fld q 1 6 0 ∧ fld q 1 6 0 ≤ 100)
    (hcount : 2 ≤ fld q 1 11 8 ∧ fld q 1 11 8 ≤ 10) :
    actMonSet x q u = done (modMon (wd q 0) (fun m => { m with degThr := fld q 1 6 0, degM := fld q 1 11 8 }) u) := by
  rw [actMonSet, withMon_of_monOf hty hmon]
  exact (if_neg (ne_true_of_eq_false hotn)).trans (if_neg (by omega))

theorem actDefectStatus_of_monOf {x : Ctx} {q : List Word} {u : State} {m : Mon} (hty : hType (wd q 0) ≠ 0x44)
    (hmon : monOf u (wd q 0) = some m) :
    actDefectStatus x q u = reply [toWord m.defects, toWord (m.rxLabel + 256 * sectS1 u (wd q 0))] u :=
  withMon_of_monOf hty hmon _

/-- PM.READ of 1 to 112 records, of which at least one is retained from the wanted tide on (R99). -/
theorem actPmRead_of_retained {x : Ctx} {q : List Word} {u : State} {m : Mon} (hty : hType (wd q 0) ≠ 0x44)
    (hmon : monOf u (wd q 0) = some m) (hcount : 1 ≤ fld q 3 9 0 ∧ fld q 3 9 0 ≤ 112)
    (hretained : ∃ r ∈ m.recs, wd64 q 1 ≤ r.first) :
    actPmRead x q u =
      (let rs := (m.recs.filter fun r => decide (wd64 q 1 ≤ r.first)).take (fld q 3 9 0)
       reply (toWord rs.length :: rs.flatMap pmWords) u) := by
  have hfound : ¬ ((m.recs.filter fun r => decide (wd64 q 1 ≤ r.first)).take (fld q 3 9 0)).isEmpty = true := by
    obtain ⟨r, hr, hfirst⟩ := hretained
    rw [List.isEmpty_iff, List.take_eq_nil_iff, not_or]
    exact ⟨by omega, List.ne_nil_of_mem (List.mem_filter.2 ⟨hr, decide_eq_true hfirst⟩)⟩
  rw [actPmRead, withMon_of_monOf hty hmon]
  exact (if_neg (by omega)).trans (if_neg hfound)

/-- Settles O17: each row runs its command, and the command's own meaning answers OK under the clause's conditions. -/
theorem supervisionCommandsComplete : Obligations.SupervisionCommandsComplete := by
  unfold Obligations.SupervisionCommandsComplete
  exact ⟨fun m => runs_of_act (.inl rfl) (fun _ _ _ => rfl) fun c _ _ ⟨hty, hmon, hfits, hpersist⟩ =>
      actTraceSet_of_monOf (x := directCtx c) hty hmon hfits hpersist,
    fun m => runs_of_act (.inl rfl) (fun _ _ _ => rfl) fun c _ _ ⟨hty, hmon⟩ => actTraceGet_of_monOf (x := directCtx c) hty hmon,
    fun m => runs_of_act (.inl rfl) (fun _ _ _ => rfl) fun c _ _ ⟨hty, hmon, hsdh, hexcLow, hexcHigh, hdeg⟩ =>
      actMonSet_of_sdh (x := directCtx c) hty hmon hsdh ⟨hexcLow, hexcHigh⟩ hdeg,
    fun m => runs_of_act (.inl rfl) (fun _ _ _ => rfl) fun c _ _ ⟨hty, hmon, hotn, hthrLow, hthrHigh, hcount⟩ =>
      actMonSet_of_otn (x := directCtx c) hty hmon hotn ⟨hthrLow, hthrHigh⟩ hcount,
    fun m => runs_of_act (.inl rfl) (fun _ _ _ => rfl) fun c _ _ ⟨hty, hmon⟩ => actDefectStatus_of_monOf (x := directCtx c) hty hmon,
    fun m => runs_of_act (.inl rfl) (fun _ _ _ => rfl) fun c _ _ ⟨hty, hmon, hlow, hhigh, hretained⟩ =>
      actPmRead_of_retained (x := directCtx c) hty hmon ⟨hlow, hhigh⟩ hretained⟩

/-! ### Protection commands (R102 to R107, Tables 3-11 to 3-13) -/

/-- A command on an existing protection group runs on that group. -/
theorem withProt_of_tget {x : Ctx} {q : List Word} {u : State} {g : Prot} (hty : hType (wd q 0) = 0x42)
    (hgroup : tget u.tr.groups (hIdx (wd q 0)) = some g) (f : Nat → Prot → Res) : withProt x q u f = f (hIdx (wd q 0)) g := by
  rw [withProt, if_pos hty, hgroup]

/-- The group of a PROT.CREATE request (Table 3-13). -/
def protOfRequest (q : List Word) : Prot :=
  { ty := fld q 0 3 0, bidir := flag q 0 4, revert := flag q 0 5, sdTrig := flag q 0 6, worker := wd q 1, protect := wd q 2
    trigW := wd q 3, trigP := wd q 4, holdOff := fld q 5 16 0, wtr := fld q 6 22 0 }

/-- What PROT.CREATE answers: group i, evaluated on its members' conditions but by a standby (R102, R393). -/
def protCreated (q : List Word) (i : Nat) (u : State) : Res :=
  let v := { u with tr := { u.tr with groups := tset u.tr.groups i (protOfRequest q) } }
  created (handle 0x42 i) (if u.twin.st ≤ 1 then protStep i v else v)

/-- What every PROT.CREATE needs, whatever its type (Table 3-13): timers in range, and two different members that exist and are in no
group. -/
structure ProtMembersFree (q : List Word) (u : State) : Prop where
  hold : fld q 5 16 0 ≤ 80000
  wtr : fld q 6 22 0 ≤ 5760000
  worker : objExists u (wd q 1) = true
  protection : objExists u (wd q 2) = true
  distinct : wd q 1 ≠ wd q 2
  workerFree : inGroup u (wd q 1) = false
  protectionFree : inGroup u (wd q 2) = false

/-- PROT.CREATE of a group of types 1 to 4, of equal members of the type (R102, Table 3-11). -/
theorem actProtCreate_of_equalMembers {x : Ctx} {q : List Word} {u : State} {i : Nat} (hph : x.ph = .direct)
    (hty : 1 ≤ fld q 0 3 0 ∧ fld q 0 3 0 ≤ 4) (hbidir : flag q 0 4 = true → fld q 0 3 0 = 2)
    (htrigW : wd q 3 = 0) (htrigP : wd q 4 = 0)
    (hmembers : ProtMembersFree q u) (hworker : hType (wd q 1) = memberType (fld q 0 3 0))
    (hprotect : hType (wd q 2) = memberType (fld q 0 3 0)) (hequal : membersEqual u (fld q 0 3 0) (wd q 1) (wd q 2) = true)
    (hidx : lowestFreeBut u.tr.groups (reservedIdx u 0x42) 4096 = some i) :
    actProtCreate x q u = protCreated q i u := by
  obtain ⟨hhold, hwtr, hexistsW, hexistsP, hdistinct, hfreeW, hfreeP⟩ := hmembers
  have hpacket : fld q 0 3 0 ≠ 5 := by omega
  have hpos : fld q 0 3 0 ≠ 0 := by omega
  have hle : fld q 0 3 0 ≤ 5 := by omega
  rw [actProtCreate, newIdx_direct hph, hidx]
  refine (if_neg ?legal).trans ((if_neg ?typed).trans (if_neg ?free))
  case legal => simpa [hpacket, htrigW, htrigP, hhold, hwtr, hpos, hle] using hbidir
  case typed => simp [knows_of_objExists, hexistsW, hexistsP, hpacket, hworker, hprotect]
  case free => simp [hdistinct, hfreeW, hfreeP, hequal]

/-- A handle of one of two types passes the test of its type. -/
theorem hType_beq_either {h a b : Nat} (hty : hType h = a ∨ hType h = b) : (hType h == a || hType h == b) = true := by
  rw [Bool.or_eq_true, beq_iff_eq, beq_iff_eq]
  exact hty

/-- PROT.CREATE of a group of packet objects, next hops or ECMP groups, with triggers that exist (R102, Table 3-11). -/
theorem actProtCreate_of_packetObjects {x : Ctx} {q : List Word} {u : State} {i : Nat} (hph : x.ph = .direct)
    (hty : fld q 0 3 0 = 5) (hbidir : flag q 0 4 = false)
    (hworker : hType (wd q 1) = 0x60 ∨ hType (wd q 1) = 0x61) (hprotect : hType (wd q 2) = 0x60 ∨ hType (wd q 2) = 0x61)
    (htrigW : hType (wd q 3) = 0x30 ∨ hType (wd q 3) = 0x40) (htrigP : hType (wd q 4) = 0x30 ∨ hType (wd q 4) = 0x40)
    (hexistsTW : objExists u (wd q 3) = true) (hexistsTP : objExists u (wd q 4) = true)
    (hmembers : ProtMembersFree q u) (hidx : lowestFreeBut u.tr.groups (reservedIdx u 0x42) 4096 = some i) :
    actProtCreate x q u = protCreated q i u := by
  obtain ⟨hhold, hwtr, hexistsW, hexistsP, hdistinct, hfreeW, hfreeP⟩ := hmembers
  rw [actProtCreate, newIdx_direct hph, hidx]
  refine (if_neg ?legal).trans ((if_neg ?typed).trans (if_neg ?free))
  case legal =>
    simp only [hbidir, hType_beq_either hworker, hType_beq_either hprotect, Bool.not_true,
      Bool.false_eq_true, false_and, and_false, or_false, false_or]
    omega
  case typed =>
    simp only [knows_of_objExists, hexistsW, hexistsP, hexistsTW, hexistsTP, hType_beq_either htrigW, hType_beq_either htrigP,
      hty, Bool.not_true, Bool.false_eq_true, ne_eq, not_true_eq_false, false_and, and_false, or_self, not_false_eq_true]
  case free => simp [hdistinct, hfreeW, hfreeP, hty]

/-- PROT.DELETE selects the worker and removes the group (R107). -/
theorem actProtDelete_of_tget {x : Ctx} {q : List Word} {u : State} {g : Prot} (hty : hType (wd q 0) = 0x42)
    (hgroup : tget u.tr.groups (hIdx (wd q 0)) = some g) :
    actProtDelete x q u =
      (let v := putProt (hIdx (wd q 0)) g { g with side := false } u
       done { v with tr := { v.tr with groups := terase v.tr.groups (hIdx (wd q 0)) } }) :=
  withProt_of_tget hty hgroup _

/-- The group with the request that a PROT.REQUEST code other than CLEAR makes stand (R103, Table 3-12). -/
def withRequest (code : Nat) (g : Prot) : Prot :=
  match code with
  | 1 => { g with lo := true }
  | 2 => { g with fs := true }
  | 3 => { g with ms := 1 }
  | 4 => { g with ms := 2 }
  | _ => { g with exer := true }

/-- PROT.REQUEST of a request that ranks no lower than the highest standing one; EXER only in a bidirectional group (R103). -/
theorem actProtRequest_of_rank {x : Ctx} {q : List Word} {u : State} {g : Prot} (hty : hType (wd q 0) = 0x42)
    (hgroup : tget u.tr.groups (hIdx (wd q 0)) = some g) (hcode : 1 ≤ fld q 1 2 0 ∧ fld q 1 2 0 ≤ 5)
    (hexer : fld q 1 2 0 = 5 → g.ty = 2 ∧ g.bidir = true) (hrank : requestRank (fld q 1 2 0) ≤ (topRequest g).1) :
    actProtRequest x q u =
      done (putProt (hIdx (wd q 0)) g (protSelect u.tm.bounds (workerBad g) (withRequest (fld q 1 2 0) g)) u) := by
  have hlegal : ¬ (5 < fld q 1 2 0 ∨ (fld q 1 2 0 = 5 ∧ (!(g.ty == 2 && g.bidir)) = true)) :=
    not_or.2 ⟨by omega, fun ⟨hfive, hnot⟩ => by simp [hexer hfive] at hnot⟩
  rw [actProtRequest, withProt_of_tget hty hgroup]
  exact (if_neg hlegal).trans ((if_neg (by omega)).trans (if_neg (Nat.not_lt.2 hrank)))

/-- PROT.REQUEST of CLEAR removes every host request and ends wait-to-restore (R103). -/
theorem actProtRequest_of_clear {x : Ctx} {q : List Word} {u : State} {g : Prot} (hty : hType (wd q 0) = 0x42)
    (hgroup : tget u.tr.groups (hIdx (wd q 0)) = some g) (hclear : fld q 1 2 0 = 0) :
    actProtRequest x q u = done (putProt (hIdx (wd q 0)) g
      (protSelect u.tm.bounds false { g with lo := false, fs := false, ms := 0, exer := false, wtrAt := none }) u) := by
  rw [actProtRequest, withProt_of_tget hty hgroup]
  exact (if_neg (by omega)).trans (if_pos hclear)

theorem actProtStatus_of_tget {x : Ctx} {q : List Word} {u : State} {g : Prot} (hty : hType (wd q 0) = 0x42)
    (hgroup : tget u.tr.groups (hIdx (wd q 0)) = some g) :
    actProtStatus x q u = reply [toWord (b2n g.side + 2 * g.rank + 32 * b2n (g.fop != 0)),
      toWord (match g.wtrAt with | some e => e - u.tm.bounds | none => 0), toWord (g.rxK1 + 256 * g.rxK2)] u :=
  withProt_of_tget hty hgroup _

/-- Settles O18: each row runs its command, and the command's own meaning answers OK under the clause's conditions. -/
theorem protectionCommandsComplete : Obligations.ProtectionCommandsComplete := by
  unfold Obligations.ProtectionCommandsComplete
  refine ⟨fun i => runs_of_act (.inl rfl) (fun _ _ _ => rfl) ?equalMembers,
    fun i => runs_of_act (.inl rfl) (fun _ _ _ => rfl) ?packetObjects,
    fun g => runs_of_act (.inl rfl) (fun _ _ _ => rfl) fun c _ _ ⟨hty, hgroup⟩ => actProtDelete_of_tget (x := directCtx c) hty hgroup,
    fun g => runs_of_act (.inl rfl) (fun _ _ _ => rfl) fun c _ _ ⟨hty, hgroup, hlow, hhigh, hexer, hrank⟩ =>
      actProtRequest_of_rank (x := directCtx c) hty hgroup ⟨hlow, hhigh⟩ hexer hrank,
    fun g => runs_of_act (.inl rfl) (fun _ _ _ => rfl) fun c _ _ ⟨hty, hgroup, hclear⟩ =>
      actProtRequest_of_clear (x := directCtx c) hty hgroup hclear,
    fun g => runs_of_act (.inl rfl) (fun _ _ _ => rfl) fun c _ _ ⟨hty, hgroup⟩ => actProtStatus_of_tget (x := directCtx c) hty hgroup⟩
  case equalMembers =>
    rintro c q u ⟨htyLow, htyHigh, hbidir, htrigW, htrigP, hhold, hwtr, hexistsW, hexistsP, hworker, hprotect, hdistinct, hfreeW, hfreeP,
      hequal, hidx⟩
    refine (actProtCreate_of_equalMembers (x := directCtx c) rfl ⟨htyLow, htyHigh⟩ hbidir htrigW htrigP
      ⟨hhold, hwtr, hexistsW, hexistsP, hdistinct, hfreeW, hfreeP⟩ hworker hprotect hequal hidx).trans ?_
    rw [protCreated, protOfRequest, htrigW, htrigP]
    rfl
  case packetObjects =>
    rintro c q u ⟨hty, hbidir, hhold, hwtr, hworker, hprotect, htrigW, htrigP, hexistsW, hexistsP, hexistsTW, hexistsTP, hdistinct, hfreeW,
      hfreeP, hidx⟩
    refine (actProtCreate_of_packetObjects (x := directCtx c) rfl hty hbidir hworker hprotect htrigW htrigP hexistsTW hexistsTP
      ⟨hhold, hwtr, hexistsW, hexistsP, hdistinct, hfreeW, hfreeP⟩ hidx).trans ?_
    rw [protCreated, protOfRequest, hty, hbidir]
    rfl

/-! ### Transport and circuit events (R93, R96, R104, R106, R116, R121, R122 and R125) -/

/-- While domain 36 is not fenced, an event of its reads what it looks up (R22). -/
theorem unfenced_lookup {α : Type} {u : State} (hclear : fenced u 36 = false) (a : Option α) :
    (if fenced u 36 then none else a) = a :=
  if_neg (ne_true_of_eq_false hclear)

/-- An event of domain 36 that only a raised fence stops happens where the fence is down (R22). -/
theorem happens_of_unfenced {mk : Nat → Instr} {f : State → State}
    (he : ∀ t s, exec (mk t) s = .next (if fenced (s.atTime t) 36 then s.atTime t else f (s.atTime t))) :
    Happens mk (fun u => fenced u 36 = false) f := fun t s hclear => by
  rw [he, if_neg (ne_true_of_eq_false hclear)]

/-- A trace received for the required periods and sound becomes the accepted one; one that differs raises TRACE_ACCEPTED (R96, R97). -/
theorem execTraceAccepted_of_sound {t h n : Nat} {trace : List Byte} {m : Mon} {s : State} (hclear : fenced (s.atTime t) 36 = false)
    (hmon : monOf (s.atTime t) h = some m) (hperiods : (if m.acc5 then 5 else 3) ≤ n)
    (hsound : traceSound (s.atTime t) h m trace = true) :
    execTraceAccepted t h ⟨n, trace⟩ s = .next (timJudge h false
      (let v := modMon h (fun m => { m with accTrace := trace }) (s.atTime t)
       if m.accTrace = trace then v else raise 4 3 monUnit (leBytes (objHandle h) 4 ++ (trace ++ List.replicate 16 0#8).take 16) v)) := by
  rw [execTraceAccepted, unfenced_lookup hclear, hmon]
  exact if_neg (not_or.2 ⟨Nat.not_lt.2 hperiods, by simp [hsound]⟩)

theorem execHoldoffExpiry_of_group {t i : Nat} {g : Prot} {s : State} (hclear : fenced (s.atTime t) 36 = false)
    (hgroup : tget (s.atTime t).tr.groups i = some g) (htwin : (s.atTime t).twin.st ≤ 1) :
    execHoldoffExpiry t i s = .next (putProt i g (protSelect (s.atTime t).tm.bounds (workerBad g)
      (protHoldExpire (s.atTime t).tm.bounds (protRaw (s.atTime t) g) g)) (s.atTime t)) := by
  rw [execHoldoffExpiry, unfenced_lookup hclear, hgroup]
  exact congrArg Host.Outcome.next (if_pos htwin)

/-- Wait-to-restore has ended at the boundary, and no standby judges it (R104, R393). -/
theorem execWtrExpiry_of_due {t i e : Nat} {g : Prot} {s : State} (hclear : fenced (s.atTime t) 36 = false)
    (hgroup : tget (s.atTime t).tr.groups i = some g) (hwtr : g.wtrAt = some e) (hdue : e ≤ (s.atTime t).tm.bounds)
    (htwin : (s.atTime t).twin.st ≤ 1) :
    execWtrExpiry t i s = .next (putProt i g (protSelect (s.atTime t).tm.bounds false { g with wtrAt := none }) (s.atTime t)) := by
  simp only [execWtrExpiry, unfenced_lookup hclear, hgroup, hwtr]
  exact congrArg Host.Outcome.next (if_pos ⟨hdue, htwin⟩)

/-- The cause of APS_FOP that accepted K bytes leave a group with, 0 for none (R106). -/
def kBytesCause (g : Prot) (k1 k2 : Nat) : Nat :=
  if bit k2 3 || k2 % 8 == 4 then 1 else if !k1Valid (k1 % 256) then 3 else if g.fop = 2 ∧ k2 / 16 % 16 ≠ b2n g.side then 2 else 0

/-- The state in which group i has taken K bytes and the cause of APS_FOP that follows from them (R106). -/
def kBytesTaken (i k1 k2 : Nat) (g : Prot) (u : State) : State :=
  setFop i (kBytesCause g k1 k2)
    { u with tr := { u.tr with groups := tset u.tr.groups i { g with rxK1 := k1 % 256, rxK2 := k2 % 256 } } }

/-- Accepted K bytes of a bidirectional group: the group is evaluated again, but by a standby (R106, R393). -/
theorem execApsKBytesAccepted_of_bidir {t i k1 k2 : Nat} {g g2 : Prot} {s : State} (hclear : fenced (s.atTime t) 36 = false)
    (hgroup : tget (s.atTime t).tr.groups i = some g) (hbidir : g.bidir = true)
    (htaken : tget (kBytesTaken i k1 k2 g (s.atTime t)).tr.groups i = some g2) :
    execApsKBytesAccepted t i k1 k2 s = .next
      (let v := kBytesTaken i k1 k2 g (s.atTime t)
       if (s.atTime t).twin.st ≤ 1 then putProt i g2 (protSelect (s.atTime t).tm.bounds (workerBad g2) g2) v else v) := by
  have htwoWay : ¬ (!g.bidir) = true := by simp [hbidir]
  rw [kBytesTaken, kBytesCause] at htaken
  simp only [execApsKBytesAccepted, unfenced_lookup hclear, hgroup, if_neg htwoWay, htaken]
  rfl

/-- The far-end bridge has not agreed in time: the group goes on as unidirectional (R106). -/
theorem execApsBridgeTimeout_of_due {t i e : Nat} {g : Prot} {s : State} (hclear : fenced (s.atTime t) 36 = false)
    (hgroup : tget (s.atTime t).tr.groups i = some g) (hfop : g.fop = 0) (hbridge : g.bridgeAt = some e)
    (hdue : e ≤ (s.atTime t).tm.bounds) :
    execApsBridgeTimeout t i s = .next
      (if (s.atTime t).twin.st ≤ 1 then protStep i (setFop i 2 (s.atTime t)) else setFop i 2 (s.atTime t)) := by
  have hacts : (!decide (e ≤ (s.atTime t).tm.bounds) || fenced (s.atTime t) 36 || g.fop != 0) = false := by
    rw [decide_eq_true hdue, hclear, hfop]
    rfl
  simp only [execApsBridgeTimeout, hgroup, hbridge]
  exact if_neg (ne_true_of_eq_false hacts)

/-- A frame of the VC-12 that a circuit receives from, by its timing: into the ingress store, or to the packet being collected, which
goes when it holds N frames (R116, R120). -/
theorem execVc12FrameComplete_of_takes {t i path : Nat} {frame : List Byte} {c : Circuit} {s : State}
    (hcircuit : tget (s.atTime t).circuits i = some c) (htakes : takesFrom (s.atTime t) c path = true) :
    execVc12FrameComplete t i path frame s =
      (let r := tdmTake i frame (s.atTime t)
       let v := modCircuit i (fun c => { c with coll := c.coll ++ r.1.toList }) r.2
       if c.cfg.timing = 0 then .next (storeFull i (storePut i r.1 r.2))
       else .next (if c.cfg.n ≤ c.coll.length + 1 then sendPacket i v else v)) := by
  rw [execVc12FrameComplete, hcircuit]
  exact if_neg (by simp [htakes])

/-- A pseudowire packet in the clock of a playout instant is one step with it (R119, R123). -/
theorem execPseudowireReceived_of_instant {t i : Nat} {instant : Bool} {pkt : List Byte} {v s : State}
    (hclear : fenced (s.atTime t) 36 = false) (hpkt : nextPw i (s.atTime t) = (some pkt, v))
    (hinstant : (playDue v i = true ∧ firstClock v = true) ∨ (instant = true ∧ throughTimed v i = true)) :
    execPseudowireReceived t i instant s = .next (playStep i (some pkt) v) := by
  rw [execPseudowireReceived, hpkt]
  exact (if_neg (ne_true_of_eq_false hclear)).trans (if_pos (by simpa using hinstant))

/-- A pseudowire packet outside a playout instant comes after the tide's frame has left (R119, R122). -/
theorem execPseudowireReceived_of_between {t i : Nat} {instant : Bool} {pkt : List Byte} {v s : State}
    (hclear : fenced (s.atTime t) 36 = false) (hpkt : nextPw i (s.atTime t) = (some pkt, v))
    (hframe : playDue v i = false ∨ firstClock v = false) (hthrough : instant = false ∨ throughTimed v i = false) :
    execPseudowireReceived t i instant s = .next
      (let w := if playDue v i then playStep i none v else v
       judgeStart i (judgeFull i (pwAccept i pkt w).1 (pwAccept i pkt w).2)) := by
  have hbetween : ((playDue v i && firstClock v) || (instant && throughTimed v i)) = false := by
    rw [Bool.or_eq_false_iff, Bool.and_eq_false_iff, Bool.and_eq_false_iff]
    exact ⟨hframe, hthrough⟩
  rw [execPseudowireReceived, hpkt]
  exact (if_neg (ne_true_of_eq_false hclear)).trans (if_neg (ne_true_of_eq_false hbetween))

/-- A playout instant: of a frame-aligned circuit the first clock of a tide whose frame is still to be played (R119, R122). -/
theorem execCircuitPlayout_of_instant {t i : Nat} {arrival : Bool} {c : Circuit} {s : State} (hclear : fenced (s.atTime t) 36 = false)
    (hcircuit : tget (s.atTime t).circuits i = some c)
    (hinstant : c.cfg.timing = 0 → c.played = false ∧ firstClock (s.atTime t) = true) :
    execCircuitPlayout t i arrival s = .next
      (if arrival then playStep i (nextPw i (s.atTime t)).1 (nextPw i (s.atTime t)).2 else playStep i none (s.atTime t)) := by
  have hplays : ¬ (c.cfg.timing = 0 ∧ (c.played = true ∨ (!firstClock (s.atTime t)) = true)) := fun ⟨haligned, hpast⟩ => by
    simp [hinstant haligned] at hpast
  rw [execCircuitPlayout, unfenced_lookup hclear, hcircuit]
  exact (if_neg hplays).trans (apply_ite Host.Outcome.next _ _ _).symm

/-- No packet has been accepted for the LOPS threshold of a circuit that is enabled and bound: LOPS is declared (R125). -/
theorem execLopsSet_of_due {t i : Nat} {c : Circuit} {s : State} (hclear : fenced (s.atTime t) 36 = false)
    (hcircuit : tget (s.atTime t).circuits i = some c) (henabled : c.enabled = true) (hbound : c.bound ≠ 0) (hlops : c.lops = false)
    (hdue : lopsDue (s.atTime t) c = true) :
    execLopsSet t i s = .next (raise 5 1 (unitOf 36 12) (pay [(handle 0x50 i, 4)])
      (modCircuit i (fun c => { c with lops := true, playing := false, cur := { c.cur with lops := true } }) (s.atTime t))) := by
  rw [execLopsSet, unfenced_lookup hclear, hcircuit]
  exact congrArg Host.Outcome.next (if_pos (by simp [henabled, hbound, hlops, hdue]))

/-- Settles O57, event by event: where the clause's conditions hold at the event's instant, they choose its branch. -/
theorem transportEventsComplete : Obligations.TransportEventsComplete := by
  unfold Obligations.TransportEventsComplete
  refine ⟨fun _ _ _ => happens_of_unfenced fun _ _ => rfl, fun _ _ _ => happens_of_unfenced fun _ _ => rfl, ?sameTrace, ?newTrace,
    fun _ => happens_of_unfenced fun _ _ => rfl,
    fun _ _ _ _ ⟨hclear, hgroup, htwin⟩ => execHoldoffExpiry_of_group hclear hgroup htwin,
    fun _ _ _ _ _ ⟨hclear, hgroup, hwtr, hdue, htwin⟩ => execWtrExpiry_of_due hclear hgroup hwtr hdue htwin,
    ?kBytes,
    fun _ _ _ _ _ ⟨hclear, hgroup, hfop, hbridge, hdue⟩ => execApsBridgeTimeout_of_due hclear hgroup hfop hbridge hdue,
    ?stored, ?collected,
    fun _ _ _ _ _ _ ⟨hclear, hpkt, hinstant⟩ => execPseudowireReceived_of_instant hclear hpkt hinstant,
    fun _ _ _ _ _ _ ⟨hclear, hpkt, hframe, hthrough⟩ => execPseudowireReceived_of_between hclear hpkt hframe hthrough,
    fun _ _ _ _ _ ⟨hclear, hcircuit, hinstant⟩ => execCircuitPlayout_of_instant hclear hcircuit hinstant,
    fun _ _ _ _ ⟨hclear, hcircuit, henabled, hbound, hlops, hdue⟩ => execLopsSet_of_due hclear hcircuit henabled hbound hlops hdue⟩
  case sameTrace =>
    rintro o n trace m t s ⟨hclear, hmon, hperiods, hsound, hsame⟩
    refine (execTraceAccepted_of_sound hclear hmon hperiods hsound).trans ?_
    rw [if_pos hsame]
  case newTrace =>
    rintro o n trace m t s ⟨hclear, hmon, hperiods, hsound, hnew⟩
    refine (execTraceAccepted_of_sound hclear hmon hperiods hsound).trans ?_
    rw [if_neg hnew]
  case kBytes =>
    rintro i k1 k2 g g2 cause v t s ⟨hclear, hgroup, hbidir, rfl, rfl, htaken⟩
    exact execApsKBytesAccepted_of_bidir hclear hgroup hbidir htaken
  case stored =>
    rintro i path frame c r t s ⟨hcircuit, htakes, haligned, rfl⟩
    exact (execVc12FrameComplete_of_takes hcircuit htakes).trans (if_pos haligned)
  case collected =>
    rintro i path frame c r t s ⟨hcircuit, htakes, hthrough, rfl⟩
    exact (execVc12FrameComplete_of_takes hcircuit htakes).trans (if_neg hthrough)

end Sys2Proof.Machine
end

section
/-! Proofs of the statement on circuit emulation (spec/04_circuit_emulation.md): CIRCUIT commands. -/

namespace Sys2Proof.Machine

open Sys2Proof

/-! ### Circuit commands (R109 to R111, R121, R122, R127 to R129, Tables 4-1 and 4-6) -/

/-- A command on an existing circuit runs on that circuit. -/
theorem withCircuit_of_tget {x : Ctx} {q : List Word} {u : State} {y : Circuit} (hty : hType (wd q 0) = 0x50)
    (hcircuit : tget u.circuits (hIdx (wd q 0)) = some y) (f : Nat → Circuit → Res) : withCircuit x q u f = f (hIdx (wd q 0)) y := by
  rw [withCircuit, if_pos hty, hcircuit]

/-- A circuit's next hop is one that exists: the handle test of CIRCUIT.CREATE and CIRCUIT.SET passes (R109, Table 4-6). -/
theorem nextHop_named {x : Ctx} {u : State} {h : Nat} (hty : hType h = 0x60) (hexists : objExists u h = true) :
    ¬ (hType h ≠ 0x60 ∨ (!x.knows u h) = true) := by
  simp [hty, knows_of_objExists hexists]

/-- What a circuit may be bound to: nothing, or a VC-12 object that exists and has no circuit yet (R109). -/
def Attachable (u : State) (b : Nat) : Prop :=
  b = 0 ∨ (objExists u b = true ∧ bindable u b = true ∧ boundCircuit u b = false)

theorem Attachable.known {x : Ctx} {u : State} {b : Nat} (hattach : Attachable u b) : ¬ (b ≠ 0 ∧ (!x.knows u b) = true) := by
  rintro ⟨hbound, hunknown⟩
  obtain hnone | ⟨hexists, -, -⟩ := hattach
  · exact hbound hnone
  · simp [knows_of_objExists hexists] at hunknown

theorem Attachable.not_refused {x : Ctx} {u : State} {b : Nat} (hattach : Attachable u b) :
    ¬ (b ≠ 0 ∧ ((objExists u b = true ∧ (!bindable u b) = true) ∨ (x.ph ≠ .stage ∧ boundCircuit u b = true))) := by
  rintro ⟨hbound, hrefused⟩
  obtain hnone | ⟨-, hbindable, hfree⟩ := hattach
  · exact hbound hnone
  · simp [hbindable, hfree] at hrefused

/-- The state in which circuit i of a CIRCUIT.CREATE request stands disabled, its counters and their snapshot empty (R109, R127). -/
def circuitPut (q : List Word) (i : Nat) (u : State) : State :=
  { u with
    ctr := u.ctr.filter fun e => e.1 / 1024 != 2 * 2 ^ 32 + i
    snap := u.snap.filter fun e => e.1 / 1024 != 2 * 2 ^ 32 + i
    circuits := tset u.circuits i { bound := hwd q 0, cfg := circuitCfgOf q } }

/-- CIRCUIT.CREATE of settings in range, towards a next hop that exists (R109 to R111). -/
theorem actCircuitCreate_direct {x : Ctx} {q : List Word} {u : State} {i : Nat} (hph : x.ph = .direct)
    (hcfg : circuitCfgOk (circuitCfgOf q) = true) (hhop : hType (wd q 4) = 0x60) (hhopExists : objExists u (wd q 4) = true)
    (hattach : Attachable u (hwd q 0)) (hidx : lowestFreeBut u.circuits (reservedIdx u 0x50) 16384 = some i) :
    actCircuitCreate x q u = created (handle 0x50 i) (circuitPut q i u) := by
  have hlegal : ¬ (!circuitCfgOk (circuitCfgOf q)) = true := by simp [hcfg]
  rw [actCircuitCreate, newIdx_direct hph, hidx]
  exact (if_neg (not_or.2 ⟨hattach.known, nextHop_named hhop hhopExists⟩)).trans
    (if_neg (not_or.2 ⟨hlegal, hattach.not_refused⟩))

theorem actCircuitDelete_of_tget {x : Ctx} {q : List Word} {u : State} {y : Circuit} (hty : hType (wd q 0) = 0x50)
    (hcircuit : tget u.circuits (hIdx (wd q 0)) = some y) :
    actCircuitDelete x q u = done { u with circuits := terase u.circuits (hIdx (wd q 0)) } :=
  withCircuit_of_tget hty hcircuit _

/-- A direct CIRCUIT.ENABLE takes effect at the next tide (R122). -/
theorem actCircuitEnable_direct {x : Ctx} {q : List Word} {u : State} {y : Circuit} (hph : x.ph = .direct)
    (hty : hType (wd q 0) = 0x50) (hcircuit : tget u.circuits (hIdx (wd q 0)) = some y) :
    actCircuitEnable x q u = done (modCircuit (hIdx (wd q 0)) (fun c => { c with pendEn := some true }) u) := by
  rw [actCircuitEnable, withCircuit_of_tget hty hcircuit]
  exact congrArg done (if_neg (by simp [hph]))

/-- A direct CIRCUIT.DISABLE takes effect at the next tide (R129). -/
theorem actCircuitDisable_direct {x : Ctx} {q : List Word} {u : State} {y : Circuit} (hph : x.ph = .direct)
    (hty : hType (wd q 0) = 0x50) (hcircuit : tget u.circuits (hIdx (wd q 0)) = some y) :
    actCircuitDisable x q u = done (modCircuit (hIdx (wd q 0)) (fun c => { c with pendEn := some false }) u) := by
  rw [actCircuitDisable, withCircuit_of_tget hty hcircuit]
  exact congrArg done (if_neg (by simp [hph]))

/-- Two configurations agree in what only a disabled circuit may change (R129). -/
structure SameStructure (new old : CircuitCfg) : Prop where
  cesop : new.cesop = old.cesop
  timing : new.timing = old.timing
  n : new.n = old.n
  c : new.c = old.c
  f : new.f = old.f
  slots : new.slots = old.slots

/-- A direct CIRCUIT.SET of settings in range, structural ones only of a disabled circuit: they take effect at the next tide (R129). -/
theorem actCircuitSet_direct {x : Ctx} {q : List Word} {u : State} {y : Circuit} (hph : x.ph = .direct)
    (hty : hType (wd q 0) = 0x50) (hcircuit : tget u.circuits (hIdx (wd q 0)) = some y)
    (hcfg : circuitCfgOk (circuitCfgOf q) = true) (hhop : hType (wd q 4) = 0x60) (hhopExists : objExists u (wd q 4) = true)
    (hkept : y.enabled = true → SameStructure (circuitCfgOf q) y.cfg) :
    actCircuitSet x q u = done (modCircuit (hIdx (wd q 0)) (fun c => { c with pendCfg := some (circuitCfgOf q) }) u) := by
  rw [actCircuitSet, withCircuit_of_tget hty hcircuit]
  refine (if_neg (nextHop_named hhop hhopExists)).trans ((if_neg (not_or.2 ⟨by simp [hcfg], ?structural⟩)).trans
    (if_neg (by simp [hph])))
  case structural =>
    rintro ⟨-, henabled, hchanged⟩
    obtain ⟨hcesop, htiming, hn, hc, hf, hslots⟩ := hkept henabled
    simp [hcesop, htiming, hn, hc, hf, hslots] at hchanged

theorem actCircuitStatus_of_tget {x : Ctx} {q : List Word} {u : State} {y : Circuit} (hty : hType (wd q 0) = 0x50)
    (hcircuit : tget u.circuits (hIdx (wd q 0)) = some y) :
    actCircuitStatus x q u =
      reply ([toWord (b2n y.enabled + 2 * b2n y.playing + 4 * b2n y.lops + 8 * b2n y.lLast + 16 * b2n y.noAlign),
        toWord y.held.length] ++ toWords (unsigned 64 y.p) 2) u :=
  withCircuit_of_tget hty hcircuit _

/-- CIRCUIT.COUNTERS reads the snapshot or the live counters; live ones in clear-on-read mode are cleared (R127). -/
theorem actCircuitCounters_of_tget {x : Ctx} {q : List Word} {u : State} {y : Circuit} (hty : hType (wd q 0) = 0x50)
    (hcircuit : tget u.circuits (hIdx (wd q 0)) = some y) :
    actCircuitCounters x q u = reply (ctrWords (if flag q 1 0 then u.snap else u.ctr) 2 (hIdx (wd q 0)) (List.range 16))
      (if flag q 1 0 = false ∧ y.clearMode = true then ctrClear 2 (hIdx (wd q 0)) (List.range 16) u else u) := by
  rw [actCircuitCounters, withCircuit_of_tget hty hcircuit]
  cases flag q 1 0 with
  | true => rfl
  | false => simp

/-- CIRCUIT.PM_READ of 1 to 112 records, of which at least one is retained from the wanted tide on (R128). -/
theorem actCircuitPmRead_of_retained {x : Ctx} {q : List Word} {u : State} {y : Circuit} (hty : hType (wd q 0) = 0x50)
    (hcircuit : tget u.circuits (hIdx (wd q 0)) = some y) (hcount : 1 ≤ fld q 3 9 0 ∧ fld q 3 9 0 ≤ 112)
    (hretained : ∃ r ∈ y.recs, wd64 q 1 ≤ r.first) :
    actCircuitPmRead x q u =
      (let rs := (y.recs.filter fun r => decide (wd64 q 1 ≤ r.first)).take (fld q 3 9 0)
       reply (toWord rs.length :: rs.flatMap circuitRecWords) u) := by
  obtain ⟨r, hr, hfirst⟩ := hretained
  have hfound : r ∈ y.recs.filter fun r => decide (wd64 q 1 ≤ r.first) := List.mem_filter.2 ⟨hr, decide_eq_true hfirst⟩
  have hsome : (y.recs.filter fun r => decide (wd64 q 1 ≤ r.first)).take (fld q 3 9 0) ≠ [] :=
    mt List.take_eq_nil_iff.1 (not_or.2 ⟨by omega, List.ne_nil_of_mem hfound⟩)
  rw [actCircuitPmRead, withCircuit_of_tget hty hcircuit]
  exact (if_neg (by omega)).trans (if_neg (mt List.isEmpty_iff.1 hsome))

/-- Settles O19: each row runs its command, and the command's own meaning answers OK under the clause's conditions. -/
theorem circuitCommandsComplete : Obligations.CircuitCommandsComplete := by
  unfold Obligations.CircuitCommandsComplete
  exact ⟨fun i => runs_of_act (.inl rfl) (fun _ _ _ => rfl) fun c _ _ ⟨hcfg, hhop, hhopExists, hattach, hidx⟩ =>
      actCircuitCreate_direct (x := directCtx c) rfl hcfg hhop hhopExists hattach hidx,
    fun y => runs_of_act (.inl rfl) (fun _ _ _ => rfl) fun c _ _ ⟨hty, hcircuit⟩ =>
      actCircuitDelete_of_tget (x := directCtx c) hty hcircuit,
    fun y => runs_of_act (.inl rfl) (fun _ _ _ => rfl) fun c _ _ ⟨hty, hcircuit⟩ =>
      actCircuitEnable_direct (x := directCtx c) rfl hty hcircuit,
    fun y => runs_of_act (.inl rfl) (fun _ _ _ => rfl) fun c _ _ ⟨hty, hcircuit⟩ =>
      actCircuitDisable_direct (x := directCtx c) rfl hty hcircuit,
    fun y => runs_of_act (.inl rfl) (fun _ _ _ => rfl) fun c _ _ ⟨hty, hcircuit, hcfg, hhop, hhopExists, hkept⟩ =>
      actCircuitSet_direct (x := directCtx c) rfl hty hcircuit hcfg hhop hhopExists fun henabled =>
        have ⟨hcesop, htiming, hn, hc, hf, hslots⟩ := hkept henabled
        ⟨hcesop, htiming, hn, hc, hf, hslots⟩,
    fun y => runs_of_act (.inl rfl) (fun _ _ _ => rfl) fun c _ _ ⟨hty, hcircuit⟩ =>
      actCircuitStatus_of_tget (x := directCtx c) hty hcircuit,
    fun y => runs_of_act (.inl rfl) (fun _ _ _ => rfl) fun c _ _ ⟨hty, hcircuit⟩ =>
      actCircuitCounters_of_tget (x := directCtx c) hty hcircuit,
    fun y => runs_of_act (.inl rfl) (fun _ _ _ => rfl) fun c _ _ ⟨hty, hcircuit, hlow, hhigh, hretained⟩ =>
      actCircuitPmRead_of_retained (x := directCtx c) hty hcircuit ⟨hlow, hhigh⟩ hretained⟩

end Sys2Proof.Machine
end

section
/-! Proofs of the statements on the forwarding pipeline (spec/05_forwarding_pipeline.md): PARSER.LOAD, next hops, encapsulations and ECMP
groups, policers, statistics and pipeline settings, and the forwarding events. -/

namespace Sys2Proof.Machine

open Sys2Proof

/-! ### PARSER.LOAD (R136, R137, R139) -/

/-- What PARSER.LOAD asks of its request: a kind of entry, a range within the kind's table, and every entry in the range of its fields
(Tables 5-2 to 5-4). -/
structure ParserLoadLegal (q : List Word) : Prop where
  kind : fld q 0 1 0 ≠ 3
  range : fld q 0 12 2 + fld q 0 22 13 ≤ parserSize (fld q 0 1 0)
  entries : ∀ j < fld q 0 22 13,
    parserEntryOk (fld q 0 1 0) (wordsAt q (1 + j * parserWords (fld q 0 1 0)) (parserWords (fld q 0 1 0))) = true

/-- The configuration in which the entries of a PARSER.LOAD request stand in the table of their kind. -/
def parserLoaded (q : List Word) (c : FwdCfg) : FwdCfg :=
  let put (t : Tab (List Word)) : Tab (List Word) := (List.range (fld q 0 22 13)).foldl (fun t j =>
    tset t (fld q 0 12 2 + j) (wordsAt q (1 + j * parserWords (fld q 0 1 0)) (parserWords (fld q 0 1 0)))) t
  if fld q 0 1 0 = 0 then { c with nodes := put c.nodes }
  else if fld q 0 1 0 = 1 then { c with trans := put c.trans } else { c with extr := put c.extr }

/-- A legal PARSER.LOAD changes nothing while it is staged, and writes its entries otherwise (R137, R139). -/
theorem actParserLoad_of_legal {x : Ctx} {q : List Word} {u : State} (hlegal : ParserLoadLegal q) :
    actParserLoad x q u = if x.ph = .stage then done u else done (setCfg true (parserLoaded q) u) := by
  obtain ⟨hkind, hrange, hentries⟩ := hlegal
  have hall : (List.range (fld q 0 22 13)).all (fun j => parserEntryOk (fld q 0 1 0)
      (wordsAt q (1 + j * parserWords (fld q 0 1 0)) (parserWords (fld q 0 1 0)))) = true := by simpa using hentries
  exact if_neg (not_or.2 ⟨hkind, not_or.2 ⟨Nat.not_lt.2 hrange, by simp [hall]⟩⟩)

/-- Settles O11: PARSER.LOAD answers OK at staging, and the commit writes its entries. -/
theorem parserLoadIsStaged : Obligations.ParserLoadIsStaged := by
  unfold Obligations.ParserLoadIsStaged
  constructor
  · intro c q s i x hready hkind hrange hentries
    exact congrArg Host.Outcome.next (staged_of_act hready (actParserLoad_of_legal ⟨hkind, hrange, hentries⟩))
  · intro m h pre q u hkind hrange hentries
    exact actParserLoad_of_legal ⟨hkind, hrange, hentries⟩

/-! ### Next hop, encapsulation and ECMP commands (R145 to R147, R155, R454) -/

/-- The handle test of a command passes for an object of the type it wants that exists. -/
theorem handle_named {x : Ctx} {u : State} {h ty : Nat} (hty : hType h = ty) (hexists : objExists u h = true) :
    ¬ (hType h ≠ ty ∨ (!x.knows u h) = true) := by
  simp [hty, knows_of_objExists hexists]

/-- The encapsulation that a next hop may name: none, or one that exists (R145). -/
def EncapNamed (u : State) (h : Nat) : Prop := hType h = 0 ∨ (hType h = 0x63 ∧ objExists u h = true)

theorem EncapNamed.encapOk_eq_true {x : Ctx} {u : State} {h : Nat} (hencap : EncapNamed u h) : encapOk x u h = true := by
  obtain hnull | ⟨hty, hexists⟩ := hencap
  · simp [encapOk, hnull]
  · simp [encapOk, hty, knows_of_objExists hexists]

/-- A handle field holds 0 for every null handle (R11), so naming no encapsulation stays naming none. -/
theorem EncapNamed.null_named {u : State} {h : Nat} (hencap : EncapNamed u h) : EncapNamed u (nullOr h) := by
  rw [nullOr]
  split
  · exact .inl rfl
  · exact hencap

/-- A direct NH.CREATE under the lowest free index (R145, R454). -/
theorem actNhCreate_direct {x : Ctx} {q : List Word} {u : State} {i : Nat} (hph : x.ph = .direct) (hencap : EncapNamed u (wd q 2))
    (hidx : lowestFreeBut u.fwd.cfg.nhs (reservedIdx u 0x60) 1048576 = some i) :
    actNhCreate x q u =
      created (handle 0x60 i) (setCfg false (fun c => { c with nhs := tset c.nhs i (nhOf q (fld q 0 15 0) 1) }) u) := by
  have hok : ¬ (!encapOk x u (hwd q 2)) = true := by simp [hwd, hencap.null_named.encapOk_eq_true]
  rw [actNhCreate, newIdx_direct hph, hidx, hph]
  exact if_neg hok

/-- A direct NH.SET keeps the destination system port (R145, Table 5-12). -/
theorem actNhSet_direct {x : Ctx} {q : List Word} {u : State} (hph : x.ph = .direct) (hty : hType (wd q 0) = 0x60)
    (hexists : objExists u (wd q 0) = true) (hencap : EncapNamed u (wd q 2)) :
    actNhSet x q u = done (ecmpUpdate (setCfg false (fun c => { c with
      nhs := tmodify c.nhs (hIdx (wd q 0)) fun old => nhOf q old.dsp 1 }) u)) := by
  have hnamed : ¬ (hType (wd q 0) ≠ 0x60 ∨ (!x.knows u (wd q 0)) = true ∨ (!encapOk x u (wd q 2)) = true) := by
    simp [hty, knows_of_objExists hexists, hencap.encapOk_eq_true]
  rw [actNhSet, hph]
  exact if_neg hnamed

/-- A direct NH.DELETE of a next hop that nothing names (R155). -/
theorem actNhDelete_direct {x : Ctx} {q : List Word} {u : State} (hph : x.ph = .direct) (hty : hType (wd q 0) = 0x60)
    (hexists : objExists u (wd q 0) = true) (hunnamed : hopNamed u (wd q 0) = false) :
    actNhDelete x q u = done (setCfg false (fun c => { c with nhs := terase c.nhs (hIdx (wd q 0)) }) u) := by
  rw [actNhDelete, hph]
  exact (if_neg (handle_named hty hexists)).trans (if_neg (ne_true_of_eq_false hunnamed))

/-- The encapsulation of an ENCAP.CREATE request (Table 5-12). -/
def encapOfRequest (q : List Word) : Encap := ⟨fld q 0 3 0, fld q 0 7 4, flag q 0 8, flag q 0 9, wordsAt q 1 40⟩

/-- A direct ENCAP.CREATE of a supported kind, under the lowest free index (R145, R454). -/
theorem actEncapCreate_direct {x : Ctx} {q : List Word} {u : State} {i : Nat} (hph : x.ph = .direct) (hkind : encapKindOk q = true)
    (hidx : lowestFreeBut u.fwd.cfg.encaps (reservedIdx u 0x63) 262144 = some i) :
    actEncapCreate x q u =
      created (handle 0x63 i) (setCfg false (fun c => { c with encaps := tset c.encaps i (encapOfRequest q) }) u) := by
  rw [actEncapCreate, hkind, newIdx_direct hph, hidx, hph]
  rfl

/-- A direct ENCAP.DELETE of an encapsulation that nothing names (R155). -/
theorem actEncapDelete_direct {x : Ctx} {q : List Word} {u : State} (hph : x.ph = .direct) (hty : hType (wd q 0) = 0x63)
    (hexists : objExists u (wd q 0) = true) (hunnamed : hopNamed u (wd q 0) = false) :
    actEncapDelete x q u = done (setCfg false (fun c => { c with encaps := terase c.encaps (hIdx (wd q 0)) }) u) := by
  rw [actEncapDelete, hph]
  exact (if_neg (handle_named hty hexists)).trans (if_neg (ne_true_of_eq_false hunnamed))

/-- The members of an ECMP group are next hops that exist (R146). -/
def MembersExist (u : State) (ms : List (Nat × Bool)) : Prop := ∀ m ∈ ms, hType m.1 = 0x60 ∧ objExists u m.1 = true

theorem MembersExist.any_unknown {x : Ctx} {u : State} {ms : List (Nat × Bool)} (hmembers : MembersExist u ms) :
    ms.any (fun m => hType m.1 != 0x60 || !x.knows u m.1) = false := by
  rw [List.any_eq_false]
  intro m hm
  obtain ⟨hty, hexists⟩ := hmembers m hm
  simp [hty, knows_of_objExists hexists]

/-- A direct ECMP.CREATE of 1 to 512 members within the device's member entries, under the lowest free index (R146, R454). -/
theorem actEcmpCreate_direct {x : Ctx} {q : List Word} {u : State} {i : Nat} (hph : x.ph = .direct)
    (hcount : 1 ≤ fld q 0 9 0 ∧ fld q 0 9 0 ≤ 512) (hmembers : MembersExist u (membersOf q 1 (fld q 0 9 0) false))
    (hroom : ecmpEntries u + fld q 0 9 0 ≤ 1048576) (hidx : lowestFreeBut u.fwd.cfg.ecmps (reservedIdx u 0x61) 65536 = some i) :
    actEcmpCreate x q u = created (handle 0x61 i) (ecmpUpdate (setCfg false (fun c => { c with
      ecmps := tset c.ecmps i ((membersOf q 1 (fld q 0 9 0) false).map fun m => (hIdx m.1, false)) }) u)) := by
  rw [actEcmpCreate, newIdx_direct hph, hidx, hph]
  exact (if_neg (by omega)).trans ((if_neg (ne_true_of_eq_false hmembers.any_unknown)).trans (if_neg (by omega)))

/-- A direct ECMP.SET_MEMBERS of 1 to 512 members within the device's member entries (R146, R147). -/
theorem actEcmpSetMembers_direct {x : Ctx} {q : List Word} {u : State} (hph : x.ph = .direct) (hty : hType (wd q 0) = 0x61)
    (hexists : objExists u (wd q 0) = true) (hcount : 1 ≤ fld q 1 9 0 ∧ fld q 1 9 0 ≤ 512)
    (hmembers : MembersExist u (membersOf q 2 (fld q 1 9 0) true))
    (hroom : ecmpEntries u + fld q 1 9 0 - (tgetD u.fwd.cfg.ecmps (hIdx (wd q 0)) []).length ≤ 1048576) :
    actEcmpSetMembers x q u = done (ecmpUpdate (setCfg false (fun c => { c with
      ecmps := tset c.ecmps (hIdx (wd q 0)) ((membersOf q 2 (fld q 1 9 0) true).map fun m => (hIdx m.1, m.2)) }) u)) := by
  rw [actEcmpSetMembers, hph]
  exact (if_neg (handle_named hty hexists)).trans ((if_neg (by omega)).trans
    ((if_neg (ne_true_of_eq_false hmembers.any_unknown)).trans (if_neg (Nat.not_lt.2 hroom))))

/-- A direct ECMP.DELETE of a group that nothing names (R146, R155). -/
theorem actEcmpDelete_direct {x : Ctx} {q : List Word} {u : State} (hph : x.ph = .direct) (hty : hType (wd q 0) = 0x61)
    (hexists : objExists u (wd q 0) = true) (hunnamed : hopNamed u (wd q 0) = false) :
    actEcmpDelete x q u = done (ecmpUpdate (setCfg false (fun c => { c with ecmps := terase c.ecmps (hIdx (wd q 0)) }) u)) := by
  rw [actEcmpDelete, hph]
  exact (if_neg (handle_named hty hexists)).trans (if_neg (ne_true_of_eq_false hunnamed))

/-- Settles O21: each row runs its command, and the command's own meaning answers OK under the clause's conditions. -/
theorem nextHopAndEcmpCommandsComplete : Obligations.NextHopAndEcmpCommandsComplete := by
  unfold Obligations.NextHopAndEcmpCommandsComplete
  exact ⟨fun i => runs_of_act (.inl rfl) (fun _ _ _ => rfl) fun c _ _ ⟨hencap, hidx⟩ =>
      actNhCreate_direct (x := directCtx c) rfl hencap hidx,
    runs_of_act (.inl rfl) (fun _ _ _ => rfl) fun c _ _ ⟨hty, hexists, hencap⟩ =>
      actNhSet_direct (x := directCtx c) rfl hty hexists hencap,
    runs_of_act (.inl rfl) (fun _ _ _ => rfl) fun c _ _ ⟨hty, hexists, hunnamed⟩ =>
      actNhDelete_direct (x := directCtx c) rfl hty hexists hunnamed,
    fun i => runs_of_act (.inl rfl) (fun _ _ _ => rfl) fun c _ _ ⟨hkind, hidx⟩ =>
      actEncapCreate_direct (x := directCtx c) rfl hkind hidx,
    runs_of_act (.inl rfl) (fun _ _ _ => rfl) fun c _ _ ⟨hty, hexists, hunnamed⟩ =>
      actEncapDelete_direct (x := directCtx c) rfl hty hexists hunnamed,
    fun i => runs_of_act (.inl rfl) (fun _ _ _ => rfl) fun c _ _ ⟨hlow, hhigh, hmembers, hroom, hidx⟩ =>
      actEcmpCreate_direct (x := directCtx c) rfl ⟨hlow, hhigh⟩ hmembers hroom hidx,
    runs_of_act (.inl rfl) (fun _ _ _ => rfl) fun c _ _ ⟨hty, hexists, hlow, hhigh, hmembers, hroom⟩ =>
      actEcmpSetMembers_direct (x := directCtx c) rfl hty hexists ⟨hlow, hhigh⟩ hmembers hroom,
    runs_of_act (.inl rfl) (fun _ _ _ => rfl) fun c _ _ ⟨hty, hexists, hunnamed⟩ =>
      actEcmpDelete_direct (x := directCtx c) rfl hty hexists hunnamed,
    runs_of_act (.inl rfl) (fun _ _ _ => rfl) fun _ _ _ _ => rfl⟩

/-! ### Policer, statistics and pipeline commands (R134, R148, R150, R152, R158, R159, R461) -/

/-- A policer handle within the policers of the device passes the handle test (R148). -/
theorem policer_named {h : Nat} (hty : hType h = 0x62) (hidx : hIdx h < 1048576) : ¬ (hType h ≠ 0x62 ∨ 1048576 ≤ hIdx h) := by
  omega

/-- A direct POLICER.SET of settings in the ranges of Table 5-11 (R148, R150). -/
theorem actPolicerSet_direct {x : Ctx} {q : List Word} {u : State} (hph : x.ph = .direct) (hty : hType (wd q 0) = 0x62)
    (hidx : hIdx (wd q 0) < 1048576) (hrange : polOk q = true) :
    actPolicerSet x q u = done (polClamp (hIdx (wd q 0)) (polOf q)
      (setCfg false (fun w => { w with pols := tset w.pols (hIdx (wd q 0)) (polOf q) }) u)) := by
  rw [actPolicerSet, hrange, hph]
  exact if_neg (policer_named hty hidx)

/-- A direct STATS.CLEAR of a range within the counters (R152). -/
theorem actStatsClear_direct {x : Ctx} {q : List Word} {u : State} (hph : x.ph = .direct)
    (hrange : fld q 0 25 0 + fld q 1 25 0 ≤ 67108864) :
    actStatsClear x q u = done (modFwd (fun w => { w with stats := w.stats.filter fun e =>
      !(decide (fld q 0 25 0 ≤ e.1 / 2) && decide (e.1 / 2 < fld q 0 25 0 + fld q 1 25 0)) }) u) := by
  rw [actStatsClear, hph]
  exact if_neg (Nat.not_lt.2 hrange)

/-- What a punt policer field of PIPE.SET may hold: null, or a policer of the device (R158). -/
def PuntNamed (h : Nat) : Prop := hType h = 0 ∨ (hType h = 0x62 ∧ hIdx h < 1048576)

theorem PuntNamed.not_refused {h : Nat} (hpunt : PuntNamed h) :
    (nullOr h != 0 && (hType (nullOr h) != 0x62 || decide (1048576 ≤ hIdx (nullOr h)))) = false := by
  obtain hnull | ⟨hty, hidx⟩ := hpunt
  · simp [nullOr, hnull]
  · simp [nullOr, hty, hidx]

/-- A direct PIPE.SET of a weight from 2 on and of the policers of the nine punt reasons (R134, R158). -/
theorem actPipeSet_direct {x : Ctx} {q : List Word} {u : State} (hph : x.ph = .direct) (hweight : 2 ≤ fld q 0 5 0)
    (hpunts : ∀ i < 9, PuntNamed (wd q (1 + i))) :
    actPipeSet x q u = done (modFwd (fun f => { f with
      w := fld q 0 5 0,
      punt := (((List.range 9).map fun i => hwd q (1 + i)).zipIdx).foldl (fun t (h, i) => mset 0 t (i + 1) h) f.punt }) u) := by
  have hnamed : ((List.range 9).map fun i => hwd q (1 + i)).any
      (fun h => h != 0 && (hType h != 0x62 || decide (1048576 ≤ hIdx h))) = false := by
    rw [List.any_map, List.any_eq_false]
    intro i hi
    exact ne_true_of_eq_false (hpunts i (List.mem_range.1 hi)).not_refused
  rw [actPipeSet, hph]
  exact (if_neg (ne_true_of_eq_false hnamed)).trans (if_neg (Nat.not_lt.2 hweight))

/-- Settles O22: each row runs its command, and the command's own meaning answers OK under the clause's conditions. -/
theorem policerAndPipeCommandsComplete : Obligations.PolicerAndPipeCommandsComplete := by
  unfold Obligations.PolicerAndPipeCommandsComplete
  exact ⟨runs_of_act (.inl rfl) (fun _ _ _ => rfl) fun c _ _ ⟨hty, hidx, hrange⟩ =>
      actPolicerSet_direct (x := directCtx c) rfl hty hidx hrange,
    runs_of_act (.inl rfl) (fun _ _ _ => rfl) fun _ _ _ ⟨hty, hidx⟩ => if_neg (policer_named hty hidx),
    runs_of_act (.inl rfl) (fun _ _ _ => rfl) fun _ _ _ ⟨hlow, hhigh, hrange⟩ => if_neg (by omega),
    runs_of_act (.inl rfl) (fun _ _ _ => rfl) fun c _ _ hrange => actStatsClear_direct (x := directCtx c) rfl hrange,
    runs_of_act (.inl rfl) (fun _ _ _ => rfl) fun c _ _ ⟨hweight, hpunts⟩ =>
      actPipeSet_direct (x := directCtx c) rfl hweight hpunts,
    runs_of_act (.inl rfl) (fun _ _ _ => rfl) fun _ _ _ _ => rfl⟩

/-! ### Forwarding events (R133, R134, R143, R156) -/

/-- The headers that wait for pipeline p and that the hold limit can drop: pre-classed ones are not dropped (R133). -/
def droppable (u : State) (p : Nat) : List Pkt := (u.fwd.pipes.getD p {}).waiting.filter fun k => !k.pre

/-- The headers that wait in the two pipelines of octet o and that the hold limit can drop. -/
def octetDroppable (u : State) (o : Nat) : List Pkt := droppable u (2 * (o % 8)) ++ droppable u (2 * (o % 8) + 1)

/-- Pipeline q of octet o drops the waiting header v: the octet sets its skip flags, and the drop counts in HOLD_DROP or, while the
device throttles, in THROTTLE_DROP (R133, R400). -/
def heldDropped (o q : Nat) (v : Pkt) (u : State) : State :=
  let w := modPipe q (fun x => { x with waiting := x.waiting.erase v }) (heldOctet o u)
  reorderRelease (pipeCount q (if throttle w = 0 then 4 else 5) 1 w)

/-- HOLD_LIMIT_DROP drops the lowest-priority, oldest header where that one is of lower priority than the one at the limit, and the one
at the limit otherwise (R133). -/
theorem execHoldLimitDrop_of_held {t o : Nat} {held low : Pkt} {s : State}
    (hheld : ((octetDroppable (s.atTime t) o).find? fun k =>
      decide (k.since + holdLimit (s.atTime t) ≤ elapsed (s.atTime t))) = some held)
    (hlow : pickPkt (fun k x => decide (k.prio < x.prio) || (k.prio == x.prio && decide (k.since < x.since)))
      (octetDroppable (s.atTime t) o) = some low) :
    execHoldLimitDrop t o s =
      (let v := if low.prio < held.prio then low else held
       let q := if (droppable (s.atTime t) (2 * (o % 8))).contains v then 2 * (o % 8) else 2 * (o % 8) + 1
       .next (heldDropped o q v (s.atTime t))) := by
  simp only [octetDroppable, droppable] at hheld hlow
  simp only [execHoldLimitDrop, hheld, hlow]
  rfl

/-- The state in which a slot clock of pipeline p is granted: `idle` slot clocks before it granted nothing (R134, R542). -/
def slotReached (p idle : Nat) (u : State) : State :=
  let v := (List.range idle).foldl (fun s _ => idleSlot p (modPipe p (slotTick s) s)) u
  modPipe p (slotTick v) v

/-- Pipeline p pays the throttle tokens of a pass from its own line or its recirculation queue (R189). -/
def tokensSpent (p : Nat) (v : State) : State := modPipe p (fun x => { x with tok := x.tok - 4 }) v

/-- What the slot clock c of pipeline p does with its grant in state v; a grant without the tokens for it idles (R134, R189). -/
def slotServed (p c : Nat) (bad : List Nat) (v : State) : State :=
  match grantOf v p c with
  | .pre i res =>
    match (v.fwd.pipes.getD i {}).waiting.find? fun k => k.pre with
    | some k =>
      let v := modPipe i (fun x => { x with waiting := x.waiting.erase k }) (pipeCount p 0 1 v)
      runPass p bad k (if res then pipeCount p 2 1 v else v)
    | none => v
  | .recirc =>
    if 4 ≤ (v.fwd.pipes.getD p {}).tok then
      match (v.fwd.pipes.getD p {}).recirc with
      | k :: r => runPass p bad k (pipeCount p 3 1 (pipeCount p 0 1 (modPipe p (fun x => { x with recirc := r }) (tokensSpent p v))))
      | [] => v
    else idleSlot p (tabCount 12 1 v)
  | .line k =>
    if 4 ≤ (v.fwd.pipes.getD p {}).tok then
      runPass p bad k (pipeCount p 0 1 (modPipe p (fun x => { x with waiting := x.waiting.erase k }) (tokensSpent p v)))
    else idleSlot p (tabCount 12 1 v)
  | .none => idleSlot p v

/-- A pass of a pipeline in service on a slot clock serves the grant of that clock, whichever it is (R134, R143). -/
theorem execIngressPipelinePass_of_slot {t pipe c idle : Nat} {bad : List Nat} {s : State}
    (hslot : slotClock (s.atTime t).fwd.slots c = true) (hclear : fenced (s.atTime t) (pipe % 16) = false) :
    execIngressPipelinePass t pipe c idle bad s =
      .next (slotServed (pipe % 16) c bad (slotReached (pipe % 16) idle (s.atTime t))) := by
  have hopen : ¬ (!slotClock (s.atTime t).fwd.slots c || fenced (s.atTime t) (pipe % 16)) = true := by
    rw [hslot, hclear]
    decide
  refine (if_neg hopen).trans ?_
  obtain ⟨v, hv⟩ : ∃ v, slotReached (pipe % 16) idle (s.atTime t) = v := ⟨_, rfl⟩
  rw [hv, slotServed]
  rw [slotReached] at hv
  simp only [hv, tokensSpent]
  cases grantOf v (pipe % 16) c with
  | pre i res =>
    dsimp only
    cases (v.fwd.pipes.getD i {}).waiting.find? fun k => k.pre with
    | some k => rfl
    | none => rfl
  | recirc =>
    by_cases htok : 4 ≤ (v.fwd.pipes.getD (pipe % 16) {}).tok
    · simp only [htok, decide_true, if_true]
      cases (v.fwd.pipes.getD (pipe % 16) {}).recirc with
      | cons k r => rfl
      | nil => rfl
    · simp only [htok, decide_false, Bool.false_eq_true, if_false]
  | line k =>
    by_cases htok : 4 ≤ (v.fwd.pipes.getD (pipe % 16) {}).tok
    · simp only [htok, decide_true, if_true]
    · simp only [htok, decide_false, Bool.false_eq_true, if_false]
  | none => rfl

theorem execEpochRetire_ingress {t : Nat} {s : State} (hnone : ∀ p, p < 16 → staleIn (s.atTime t) p = 0) :
    execEpochRetire t 0 s = .next (retireIn (s.atTime t)) := by
  have hall : ((List.range 16).all fun p => decide (staleIn (s.atTime t) p = 0)) = true := by simpa using hnone
  exact congrArg Host.Outcome.next (if_pos hall)

theorem execEpochRetire_egress {t : Nat} {s : State} (hnone : ∀ p, p < 16 → staleEg (s.atTime t) p = 0) :
    execEpochRetire t 1 s = .next (retireEg (s.atTime t)) := by
  have hall : ((List.range 16).all fun p => decide (staleEg (s.atTime t) p = 0)) = true := by simpa using hnone
  exact congrArg Host.Outcome.next (if_pos hall)

/-- A segment's old versions that stand ten microseconds into the tide end there (R156). -/
theorem stale_due {α : Type} {u : State} {old : Option α} (hdue : usU 10 ≤ u.tm.sub) (hold : old.isSome = true) :
    ¬ (u.tm.sub < usU 10 ∨ old.isNone = true) :=
  not_or.2 ⟨Nat.not_lt.2 hdue, by simp [Option.isSome_iff_ne_none.1 hold]⟩

/-- Settles O53, event by event: where the clause's conditions hold at the event's instant, they choose its branch. -/
theorem forwardingEventsComplete : Obligations.ForwardingEventsComplete := by
  unfold Obligations.ForwardingEventsComplete
  refine ⟨?held, ?pass, fun _ _ => execEpochRetire_ingress, fun _ _ => execEpochRetire_egress,
    fun _ _ ⟨hdue, hold⟩ => if_neg (stale_due hdue hold), fun _ _ ⟨hdue, hold⟩ => if_neg (stale_due hdue hold)⟩
  case held =>
    rintro o both held low v q t s ⟨rfl, hheld, hlow, rfl, rfl⟩
    exact execHoldLimitDrop_of_held hheld hlow
  case pass =>
    rintro pipe c idle bad p t s ⟨rfl, hslot, hclear⟩
    exact execIngressPipelinePass_of_slot hslot hclear

end Sys2Proof.Machine
end

section
/-! Proofs of the statements on the table engines (spec/06_table_engines.md): DILL, SORREL, SAGE and ACTION commands, and the power and
thermal events. -/

namespace Sys2Proof.Machine

open Sys2Proof

/-! ### What a direct command is given -/

@[simp] theorem directCtx_ph (c : Call) : (directCtx c).ph = .direct := rfl

@[simp] theorem directCtx_pre (c : Call) : (directCtx c).pre = false := rfl

/-- A direct command is not staged, and is no commit whose operations wait for its preparation (R455). -/
theorem directCtx_not_deferred (c : Call) :
    ¬ ((directCtx c).ph = .stage ∨ ((directCtx c).ph = .commit ∧ (!(directCtx c).pre) = true)) := by
  simp

/-! ### Dill commands (R169 to R172, R176, R461) -/

/-- A command on an existing Dill table runs on that table. -/
theorem withDill_of_dillTab {q : List Word} {u : State} {t : Nat} {tb : DillTab} (htab : dillTab u (wd q 0) = some (t, tb))
    (f : Nat → DillTab → Res) : withDill q u f = f t tb := by
  rw [withDill, htab]

/-- The lowest aligned range of 2 ^ k buckets that no Dill table overlaps, as a multiple of its size (R169). -/
def dillRange (u : State) (k : Nat) : Option Nat :=
  (List.range (bucketsMax u.fwd.profile / 2 ^ k)).find? fun j =>
    u.tab.dill.all fun e => decide (j * 2 ^ k + 2 ^ k ≤ e.2.base) || decide (e.2.base + 2 ^ e.2.k ≤ j * 2 ^ k)

/-- DILL.TABLE_CREATE of a table that does not exist, of a size of R169, takes the lowest free aligned range. -/
theorem actDillTableCreate_of_range {x : Ctx} {q : List Word} {u : State} {j : Nat} (hlow : 4 ≤ fld q 0 12 8) (hhigh : fld q 0 12 8 ≤ 23)
    (hnew : thas u.tab.dill (fld q 0 7 0) = false) (hrange : dillRange u (fld q 0 12 8) = some j) :
    actDillTableCreate x q u =
      reply [toWord (handle 0x71 (fld q 0 7 0)), toWord (j * 2 ^ fld q 0 12 8)] (modTab (fun t => { t with
        dill := tset t.dill (fld q 0 7 0) { k := fld q 0 12 8, base := j * 2 ^ fld q 0 12 8, seed := toWord (wd q 1) } }) u) := by
  have hallowed : ¬ (fld q 0 12 8 < 4 ∨ 23 < fld q 0 12 8 ∨ thas u.tab.dill (fld q 0 7 0) = true) := by
    simp only [hnew, Bool.false_eq_true, or_false]
    omega
  rw [dillRange] at hrange
  exact (if_neg hallowed).trans (by rw [hrange])


/-- A direct DILL.INSERT of a key that is not there, in the place of R171. -/
theorem actDillInsert_direct {c : Call} {q : List Word} {u : State} {t a : Nat} {tb : DillTab} {p : Place}
    (htab : dillTab u (wd q 0) = some (t, tb)) (haction : actionIn (directCtx c) q 6 u = some a)
    (habsent : dillAt u t tb (dillKey q 1) = none) (hplace : dillPlace u t (bucketOf tb (dillKey q 1)) = some p) :
    actDillInsert (directCtx c) q u =
      reply (placeWords p (bucketOf tb (dillKey q 1))) (dillNew p t (bucketOf tb (dillKey q 1))
        { key := dillKey q 1, v := ⟨some { act := a, cookie := toWord (wd q 8), static := flag q 7 0 }, []⟩ } (placeHeal p u)) := by
  rw [actDillInsert, withDill_of_dillTab htab]
  simp only [haction, habsent, hplace, directCtx_ph]

/-- A change outside a preparation replaces the version that every lookup sees, and frees the entry with its last version (R170, R176). -/
theorem dillChange_of_not_pre {x : Ctx} (hpre : x.pre = false) (v : Option DillVal) (p : Place) (e : DillEntry) (u : State) :
    dillChange x v p e u =
      if (e.v.direct v).free then dillFree p (placeHeal p u) else dillPut p { e with v := e.v.direct v } (placeHeal p u) := by
  rw [dillChange, hpre]
  rfl

/-- A direct DILL.MODIFY or DILL.DELETE changes the entry of its key where a version of it is visible (R176). -/
theorem dillUpdate_direct {c : Call} {q : List Word} {u : State} {t : Nat} {tb : DillTab} {p : Place} {e : DillEntry} {v : DillVal}
    (htab : dillTab u (wd q 0) = some (t, tb)) (hentry : dillAt u t tb (dillKey q 1) = some (p, e)) (hseen : e.v.seen true = some v)
    (f : DillVal → Option DillVal) :
    dillUpdate (directCtx c) q u f = done (if (e.v.direct (f v)).free then dillFree p (placeHeal p u)
      else dillPut p { e with v := e.v.direct (f v) } (placeHeal p u)) := by
  rw [dillUpdate, withDill_of_dillTab htab, ← dillChange_of_not_pre (directCtx_pre c)]
  simp only [hentry, hseen, directCtx_ph]

/-- A direct DILL.MODIFY of a visible entry (R176). -/
theorem actDillModify_direct {c : Call} {q : List Word} {u : State} {t a : Nat} {tb : DillTab} {p : Place} {e : DillEntry} {v : DillVal}
    (htab : dillTab u (wd q 0) = some (t, tb)) (haction : actionIn (directCtx c) q 6 u = some a)
    (hentry : dillAt u t tb (dillKey q 1) = some (p, e)) (hseen : e.v.seen true = some v) :
    actDillModify (directCtx c) q u =
      (let w := e.v.direct (some { v with act := a, cookie := toWord (wd q 8), static := flag q 7 0 })
       done (if w.free then dillFree p (placeHeal p u) else dillPut p { e with v := w } (placeHeal p u))) := by
  rw [actDillModify, haction]
  exact dillUpdate_direct htab hentry hseen _

/-- DILL.TABLE_DELETE of a table that no program, profile or staged command names (R454, R194). -/
theorem actDillTableDelete_of_unnamed {x : Ctx} {q : List Word} {u : State} {t : Nat} {tb : DillTab}
    (htab : dillTab u (wd q 0) = some (t, tb)) (hunnamed : dillNamed u t = false) (hunstaged : stagedRef u (wd q 0) = false) :
    actDillTableDelete x q u = done (overCheck (modTab (fun st => { st with
      dill := terase st.dill t, buckets := st.buckets.filter fun e => e.1 / 4 / 2 ^ 23 != t,
      ovf := st.ovf.filter fun e => e.2.1 != t, held := st.held.filter fun h => h.table != t })
      { u with learn := { u.learn with slots := u.learn.slots.filter fun m => m.table != t } })) := by
  rw [actDillTableDelete, withDill_of_dillTab htab]
  exact if_neg (by simp [hunnamed, hunstaged])

/-- Settles O23: each row runs its command, and the command's own meaning answers OK under the clause's conditions. -/
theorem dillCommandsComplete : Obligations.DillCommandsComplete := by
  unfold Obligations.DillCommandsComplete
  exact ⟨fun j => runs_of_act (.inl rfl) (fun _ _ _ => rfl) fun c _ _ ⟨hlow, hhigh, hnew, hrange⟩ =>
      actDillTableCreate_of_range (x := directCtx c) hlow hhigh hnew hrange,
    fun t tb a p => runs_of_act (.inl rfl) (fun _ _ _ => rfl) fun c _ _ ⟨htab, haction, habsent, hplace⟩ =>
      actDillInsert_direct (c := c) htab haction habsent hplace,
    fun t tb a p e v => runs_of_act (.inl rfl) (fun _ _ _ => rfl) fun c _ _ ⟨htab, haction, hentry, hseen⟩ =>
      actDillModify_direct (c := c) htab haction hentry hseen,
    fun t tb p e v => runs_of_act (.inl rfl) (fun _ _ _ => rfl) fun c _ _ ⟨htab, hentry, hseen⟩ =>
      dillUpdate_direct (c := c) htab hentry hseen fun _ => none,
    fun t tb => runs_of_act (.inl rfl) (fun _ _ _ => rfl) fun c _ _ ⟨htab, hunnamed, hunstaged⟩ =>
      actDillTableDelete_of_unnamed (x := directCtx c) htab hunnamed hunstaged,
    fun t tb => runs_of_act (.inl rfl) (fun _ _ _ => rfl) fun _ _ _ htab => withDill_of_dillTab htab _⟩

/-! ### Sorrel commands (R164, R166, R167, R168, R192) -/

/-- Outside a preparation a command judges the version that is visible (R168). -/
theorem routeNow_of_tget {x : Ctx} {u : State} {k : Nat} {l : Layered Nat} (hpre : x.pre = false) (hroute : tget u.tab.routes k = some l) :
    routeNow x k u = l.seen true := by
  rw [routeNow, hpre, tgetD, hroute]
  rfl

/-- Outside a preparation a route that does not stand has no version to judge. -/
theorem routeNow_of_absent {x : Ctx} {u : State} {k : Nat} (hpre : x.pre = false) (habsent : tget u.tab.routes k = none) :
    routeNow x k u = none := by
  rw [routeNow, hpre, tgetD, habsent]
  rfl

/-- A change outside a preparation replaces the version that every lookup sees, and frees the route with its last version (R168). -/
theorem routeChange_of_not_pre {x : Ctx} (hpre : x.pre = false) (k : Nat) (v : Option Nat) (u : State) :
    routeChange x k v u =
      (let w := (tgetD u.tab.routes k ⟨none, []⟩).direct v
       sorrelCheck (modTab (fun t => { t with routes := if w.free then terase t.routes k else tset t.routes k w }) u)) := by
  rw [routeChange, hpre]
  rfl

/-- A change of a route that does not stand adds it with the new version alone (R167). -/
theorem routeChange_of_absent {x : Ctx} {u : State} {k : Nat} (hpre : x.pre = false) (habsent : tget u.tab.routes k = none) (a : Nat) :
    routeChange x k (some a) u = sorrelCheck (modTab (fun t => { t with routes := tset t.routes k ⟨some a, []⟩ }) u) := by
  rw [routeChange_of_not_pre hpre, tgetD, habsent]
  rfl

/-- A direct SORREL.ADD of a route that does not stand, within the route units of the profile (R166, R167). -/
theorem actSorrelAdd_direct {c : Call} {q : List Word} {u : State} {a : Nat} (hok : routeOk q = true)
    (haction : actionIn (directCtx c) q 5 u = some a) (habsent : tget u.tab.routes (routeIn q) = none)
    (hroom : unitsUsed u + routeUnits (routeIn q) ≤ unitsMax u) :
    actSorrelAdd (directCtx c) q u =
      done (sorrelCheck (modTab (fun t => { t with routes := tset t.routes (routeIn q) ⟨some a, []⟩ }) u)) := by
  have hunstaged : (tgetD u.tab.routes (routeIn q) ⟨none, []⟩).staged = false := by
    rw [tgetD, habsent]
    rfl
  have hnew : ¬ ((routeNow (directCtx c) (routeIn q) u).isSome = true
      ∨ (!(directCtx c).pre) = true ∧ (tgetD u.tab.routes (routeIn q) ⟨none, []⟩).staged = true) := by
    simp [routeNow_of_absent (directCtx_pre c) habsent, hunstaged]
  have hfits : ¬ ((!thas u.tab.routes (routeIn q)) = true ∧ unitsMax u < unitsUsed u + routeUnits (routeIn q)) := by omega
  simp only [actSorrelAdd, haction, ← routeChange_of_absent (directCtx_pre c) habsent]
  rw [hok, if_neg (directCtx_not_deferred c), if_neg hnew, if_neg hfits]
  rfl

/-- A direct SORREL.SET of a visible route (R167, R168). -/
theorem actSorrelSet_direct {c : Call} {q : List Word} {u : State} {a b : Nat} {l : Layered Nat} (hok : routeOk q = true)
    (haction : actionIn (directCtx c) q 5 u = some a) (hroute : tget u.tab.routes (routeIn q) = some l) (hseen : l.seen true = some b) :
    actSorrelSet (directCtx c) q u = done (routeChange (directCtx c) (routeIn q) (some a) u) := by
  have hnow := (routeNow_of_tget (directCtx_pre c) hroute).trans hseen
  simp only [actSorrelSet, haction]
  rw [hok, hnow, if_neg (directCtx_not_deferred c)]
  rfl

/-- A direct SORREL.DELETE of a visible route (R167, R168). -/
theorem actSorrelDelete_direct {c : Call} {q : List Word} {u : State} {b : Nat} {l : Layered Nat} (hok : routeOk q = true)
    (hroute : tget u.tab.routes (routeIn q) = some l) (hseen : l.seen true = some b) :
    actSorrelDelete (directCtx c) q u = done (routeChange (directCtx c) (routeIn q) none u) := by
  have hnow := (routeNow_of_tget (directCtx_pre c) hroute).trans hseen
  rw [actSorrelDelete, hok, hnow, if_neg (directCtx_not_deferred c)]
  rfl

/-- A direct SORREL.GET of a visible route (R167). -/
theorem actSorrelGet_direct {c : Call} {q : List Word} {u : State} {a : Nat} {l : Layered Nat} (hok : routeOk q = true)
    (hroute : tget u.tab.routes (routeIn q) = some l) (hseen : l.seen true = some a) :
    actSorrelGet (directCtx c) q u = reply [toWord (handle 0x70 a)] u := by
  rw [actSorrelGet, hok, (routeNow_of_tget (directCtx_pre c) hroute).trans hseen]
  rfl

/-- What SORREL.MATCH answers: the hit bit with the prefix length, and the action record; two null words where nothing matches (Table 6-6). -/
def matchWords : Option (Nat × Nat) → List Word
  | some (l, a) => [toWord (l + 2 ^ 31), toWord (handle 0x70 a)]
  | none => [0#32, 0#32]

/-- SORREL.MATCH answers the longest match of the current epoch (R164). -/
theorem actSorrelMatch_eq (x : Ctx) (q : List Word) (u : State) :
    actSorrelMatch x q u = reply (matchWords (sorrelFind u true (fld q 0 15 0) (flag q 0 16) (routeAddr q))) u := by
  rw [actSorrelMatch]
  cases sorrelFind u true (fld q 0 15 0) (flag q 0 16) (routeAddr q) with
  | some found => rfl
  | none => rfl

/-- Settles O24: each row runs its command, and the command's own meaning answers OK under the clause's conditions. -/
theorem sorrelCommandsComplete : Obligations.SorrelCommandsComplete := by
  unfold Obligations.SorrelCommandsComplete
  exact ⟨fun a => runs_of_act (.inl rfl) (fun _ _ _ => rfl) fun c _ _ ⟨hok, haction, habsent, hroom⟩ =>
      actSorrelAdd_direct (c := c) hok haction habsent hroom,
    fun a b => runs_of_act (.inl rfl) (fun _ _ _ => rfl) fun c _ _ ⟨hok, haction, _, hroute, hseen⟩ =>
      actSorrelSet_direct (c := c) hok haction hroute hseen,
    fun b => runs_of_act (.inl rfl) (fun _ _ _ => rfl) fun c _ _ ⟨hok, _, hroute, hseen⟩ =>
      actSorrelDelete_direct (c := c) hok hroute hseen,
    fun a => runs_of_act (.inl rfl) (fun _ _ _ => rfl) fun c _ _ ⟨hok, _, hroute, hseen⟩ =>
      actSorrelGet_direct (c := c) hok hroute hseen,
    fun l a => runs_of_act (.inl rfl) (fun _ _ _ => rfl) fun c q u hfound =>
      (actSorrelMatch_eq (directCtx c) q u).trans (by rw [hfound]; rfl),
    runs_of_act (.inl rfl) (fun _ _ _ => rfl) fun c q u hnone =>
      (actSorrelMatch_eq (directCtx c) q u).trans (by rw [hnone]; rfl),
    runs_of_act (.inl rfl) (fun _ _ _ => rfl) fun _ _ _ _ => rfl⟩

/-! ### Sage commands (R179 to R184, R188 to R190) -/

/-- The segment group that a SAGE.GROUP_CREATE request describes (Table 6-6). -/
def groupOfRequest (q : List Word) : SageGroup := ⟨fld q 0 3 0, fld q 0 8 4, fld q 0 10 9, fld q 0 14 11⟩

/-- SAGE.GROUP_CREATE of free segments, under the lowest free index (R179). -/
theorem actSageGroupCreate_of_ok {x : Ctx} {q : List Word} {u : State} {i : Nat} (hidx : lowestFree u.tab.groups 16 = some i)
    (hok : groupOk u (groupOfRequest q) = true) :
    actSageGroupCreate x q u =
      reply [toWord (handle 0x72 i), toWord (groupOfRequest q).size, toWord (groupOfRequest q).usable]
        (modTab (fun t => { t with groups := tset t.groups i (groupOfRequest q) }) u) := by
  rw [actSageGroupCreate, hidx]
  exact if_pos hok

/-- SAGE.GROUP_DELETE of a group that no program or staged command names and that is not the reserved one of TIME (R179, R185). -/
theorem actSageGroupDelete_of_unnamed {x : Ctx} {q : List Word} {u : State} {i : Nat} {g : SageGroup}
    (hgroup : sageGroup u (wd q 0) = some (i, g)) (hunnamed : groupNamed u i = false) (hfree : u.fwd.profile ≠ 2 ∨ i ≠ 15)
    (hunstaged : stagedRef u (wd q 0) = false) :
    actSageGroupDelete x q u =
      done (modTab (fun t => { t with groups := terase t.groups i, sage := t.sage.filter fun e => e.2.grp != i }) u) := by
  have hallowed : ¬ (groupNamed u i || (u.fwd.profile == 2 && i == 15) || stagedRef u (wd q 0)) = true := by
    simp only [hunnamed, hunstaged, Bool.false_or, Bool.or_false, Bool.and_eq_true, beq_iff_eq]
    omega
  rw [actSageGroupDelete, hgroup]
  exact if_neg hallowed

/-- The entry that a direct SAGE.INSERT writes in group gi at a position: the value keeps the bits of its mask only (R181). -/
def sageNew (q : List Word) (gi n pos a : Nat) : SageEntry where
  grp := gi
  pos := pos
  prio := wd q 1
  value := Nat.land (sageField q 3 n) (sageField q (3 + n) n)
  mask := sageField q (3 + n) n
  v := ⟨some a, []⟩

/-- A direct SAGE.INSERT at the place that the placement gives, with the entries that move (R181 to R184). -/
theorem actSageInsert_direct {c : Call} {q : List Word} {u : State} {gi a i : Nat} {g : SageGroup} {p : Placed}
    (hgroup : sageGroup u (wd q 0) = some (gi, g)) (hlen : 3 + 2 * g.words ≤ q.length)
    (haction : actionIn (directCtx c) q 2 u = some a) (hidx : lowestFreeBut u.tab.sage (reservedIdx u 0x73) 262144 = some i)
    (hplace : occPlace (sageOcc u gi) (2 ^ g.logH) (g.size / 2 ^ g.logH) (wd q 1) = some p) :
    actSageInsert (directCtx c) q u =
      ⟨stOk, [toWord (handle 0x73 i), toWord (g.addr p.pos), toWord (p.moves + p.borrowed * 2 ^ 16), toWord p.spread],
        modTab (fun t => { t with sage := tset t.sage i (sageNew q gi g.words p.pos a) })
          (tabCount 11 (p.moves + p.borrowed + p.spread) (sageMoveTo p.occ u)), handle 0x73 i⟩ := by
  simp only [actSageInsert, hgroup, haction, newIdx_direct (directCtx_ph c), hidx, hplace]
  exact (if_neg (Nat.not_lt.2 hlen)).trans rfl

/-- A change outside a preparation replaces the version that every search sees, and frees the entry with its last version (R184, R190). -/
theorem sageChange_of_not_pre {x : Ctx} (hpre : x.pre = false) (i : Nat) (e : SageEntry) (v : Option Nat) (u : State) :
    sageChange x i e v u = modTab (fun t => { t with
      sage := if (e.v.direct v).free then terase t.sage i else tset t.sage i { e with v := e.v.direct v } }) u := by
  rw [sageChange, hpre]
  rfl

/-- A direct SAGE.MODIFY or SAGE.DELETE changes a visible entry (R184, R190). -/
theorem sageUpdate_direct {c : Call} {q : List Word} {u : State} {i b : Nat} {e : SageEntry}
    (hentry : sageEntry u (wd q 0) = some (i, e)) (hseen : e.v.seen true = some b) (v : Option Nat) :
    sageUpdate (directCtx c) q u v = done (modTab (fun t => { t with
      sage := if (e.v.direct v).free then terase t.sage i else tset t.sage i { e with v := e.v.direct v } }) u) := by
  rw [← sageChange_of_not_pre (directCtx_pre c), sageUpdate, hentry]
  simp [hseen]

/-- A direct SAGE.MODIFY of a visible entry (R181). -/
theorem actSageModify_direct {c : Call} {q : List Word} {u : State} {a i b : Nat} {e : SageEntry}
    (haction : actionIn (directCtx c) q 1 u = some a) (hentry : sageEntry u (wd q 0) = some (i, e)) (hseen : e.v.seen true = some b) :
    actSageModify (directCtx c) q u = done (modTab (fun t => { t with
      sage := if (e.v.direct (some a)).free then terase t.sage i else tset t.sage i { e with v := e.v.direct (some a) } }) u) := by
  rw [actSageModify, haction]
  exact sageUpdate_direct hentry hseen (some a)

/-- SAGE.READ of a visible entry (R181). -/
theorem actSageRead_of_entry {x : Ctx} {q : List Word} {u : State} {i a : Nat} {e : SageEntry} {g : SageGroup}
    (hentry : sageEntry u (wd q 0) = some (i, e)) (hseen : e.v.seen true = some a) (hgroup : tget u.tab.groups e.grp = some g) :
    actSageRead x q u = reply ([toWord e.prio, toWord (g.addr e.pos), toWord (handle 0x70 a),
        toWord (b2n (e.v.vis u.fwd.epoch).1 * 2 + b2n (e.v.vis u.fwd.epoch).2)]
      ++ toWords e.value g.words ++ toWords e.mask g.words) u := by
  simp only [actSageRead, hentry, hseen, hgroup]

/-- SAGE.STATUS of an existing group (R188, R189). -/
theorem actSageStatus_of_group {x : Ctx} {q : List Word} {u : State} {i : Nat} {g : SageGroup}
    (hgroup : sageGroup u (wd q 0) = some (i, g)) :
    actSageStatus x q u = reply [toWord (sageOcc u i).length, toWord g.usable,
      toWord ((List.range (g.size / 2 ^ g.logH)).filter fun j => holesOf (sageOcc u i) (2 ^ g.logH) j == 1).length,
      toWord (throttle u), toWord (u.tab.step.getD 0 0), toWord (u.tab.step.getD 1 0)] u := by
  rw [actSageStatus, hgroup]

/-- Settles O25: each row runs its command, and the command's own meaning answers OK under the clause's conditions. -/
theorem sageCommandsComplete : Obligations.SageCommandsComplete := by
  unfold Obligations.SageCommandsComplete
  exact ⟨fun i => runs_of_act (.inl rfl) (fun _ _ _ => rfl) fun c _ _ ⟨hidx, hok⟩ =>
      actSageGroupCreate_of_ok (x := directCtx c) hidx hok,
    fun i g => runs_of_act (.inl rfl) (fun _ _ _ => rfl) fun c _ _ ⟨hgroup, hunnamed, hfree, hunstaged⟩ =>
      actSageGroupDelete_of_unnamed (x := directCtx c) hgroup hunnamed hfree hunstaged,
    fun gi g a i p => runs_of_act (.inl rfl) (fun _ _ _ => rfl) fun c _ _ ⟨hgroup, hlen, haction, hidx, hplace⟩ =>
      actSageInsert_direct (c := c) hgroup hlen haction hidx hplace,
    fun a i e b => runs_of_act (.inl rfl) (fun _ _ _ => rfl) fun c _ _ ⟨haction, hentry, hseen⟩ =>
      actSageModify_direct (c := c) haction hentry hseen,
    fun i e b => runs_of_act (.inl rfl) (fun _ _ _ => rfl) fun c _ _ ⟨hentry, hseen⟩ =>
      sageUpdate_direct (c := c) hentry hseen none,
    fun i e a g => runs_of_act (.inl rfl) (fun _ _ _ => rfl) fun c _ _ ⟨hentry, hseen, hgroup⟩ =>
      actSageRead_of_entry (x := directCtx c) hentry hseen hgroup,
    fun i g => runs_of_act (.inl rfl) (fun _ _ _ => rfl) fun c _ _ hgroup =>
      actSageStatus_of_group (x := directCtx c) hgroup⟩

/-! ### Action commands (R163, R191, R454) -/

/-- A handle is known to every direct command alike: only a staged one may name what its transaction has reserved (R454). -/
theorem knows_direct {x : Ctx} (hph : x.ph = .direct) (u : State) (h : Nat) : x.knows u h = objExists u h := by
  simp [Ctx.knows, Ctx.reservedHere, hph]

/-- An action record is judged alike for every direct command (Table 5-6). -/
theorem actionCheck_direct {x y : Ctx} (hx : x.ph = .direct) (hy : y.ph = .direct) (u : State) (a : Action) :
    actionCheck x u a = actionCheck y u a := by
  simp only [actionCheck, knows_direct hx, knows_direct hy]

/-- A direct ACTION.CREATE of a record that passes its check, under the lowest free index (R163, R454). -/
theorem actActionCreate_direct {x : Ctx} {q : List Word} {u : State} {i : Nat} (hph : x.ph = .direct)
    (hcheck : actionCheck x u (actionOf q 0) = stOk)
    (hidx : lowestFreeBut u.fwd.cfg.actions (reservedIdx u 0x70) 2097152 = some i) :
    actActionCreate x q u =
      created (handle 0x70 i) (setCfg false (fun c => { c with actions := tset c.actions i (actionOf q 0) }) u) := by
  rw [actActionCreate, newIdx_direct hph, hidx, hph]
  exact if_neg fun hrefused => hrefused hcheck

/-- The handle test of ACTION.SET and ACTION.DELETE passes for an action record that exists (R163). -/
theorem action_named {x : Ctx} {u : State} {h : Nat} (hty : hType h = 0x70) (hexists : objExists u h = true) :
    ¬ (!decide (hType h = 0x70 ∧ x.knows u h = true)) = true := by
  simp [hty, knows_of_objExists hexists]

/-- A direct ACTION.SET changes the record in place (R163). -/
theorem actActionSet_direct {x : Ctx} {q : List Word} {u : State} (hph : x.ph = .direct) (hty : hType (wd q 0) = 0x70)
    (hexists : objExists u (wd q 0) = true) (hcheck : actionCheck x u (actionOf q 1) = stOk) :
    actActionSet x q u = done (setCfg false (fun c => { c with actions := tset c.actions (hIdx (wd q 0)) (actionOf q 1) }) u) := by
  rw [actActionSet, hph]
  exact (if_neg (action_named hty hexists)).trans (if_neg fun hrefused => hrefused hcheck)

/-- A direct ACTION.DELETE of a record that nothing names (R163, R454). -/
theorem actActionDelete_direct {x : Ctx} {q : List Word} {u : State} (hph : x.ph = .direct) (hty : hType (wd q 0) = 0x70)
    (hexists : objExists u (wd q 0) = true) (hunnamed : actionNamed u (hIdx (wd q 0)) = false)
    (hunstaged : stagedRef u (wd q 0) = false) :
    actActionDelete x q u = done (setCfg false (fun c => { c with actions := terase c.actions (hIdx (wd q 0)) }) u) := by
  rw [actActionDelete, hph, hunnamed, hunstaged]
  exact if_neg (action_named hty hexists)

/-- Settles O26: each row runs its command, and the command's own meaning answers OK under the clause's conditions. -/
theorem actionCommandsComplete : Obligations.ActionCommandsComplete := by
  unfold Obligations.ActionCommandsComplete
  exact ⟨fun i => runs_of_act (.inl rfl) (fun _ _ _ => rfl) fun c _ u ⟨hcheck, hidx⟩ =>
      actActionCreate_direct (x := directCtx c) rfl ((actionCheck_direct rfl rfl u _).trans hcheck) hidx,
    runs_of_act (.inl rfl) (fun _ _ _ => rfl) fun c _ u ⟨hty, hexists, hcheck⟩ =>
      actActionSet_direct (x := directCtx c) rfl hty hexists ((actionCheck_direct rfl rfl u _).trans hcheck),
    runs_of_act (.inl rfl) (fun _ _ _ => rfl) fun c _ _ ⟨hty, hexists, hunnamed, hunstaged⟩ =>
      actActionDelete_direct (x := directCtx c) rfl hty hexists hunnamed hunstaged,
    runs_of_act (.inl rfl) (fun _ _ _ => rfl) fun _ _ _ _ => rfl⟩

/-! ### Power and thermal events (R188, R484, R492 to R494) -/

/-- A region of a running device whose four sensors are read passes the test of THERMAL_SENSOR_READ (R26). -/
theorem region_read {u : State} {region : Nat} {sensors : List (Int × Bool)} (hheld : u.boot.held = false) (hregion : region < 4)
    (hfour : sensors.length = 4) : ¬ (u.boot.held = true ∨ 4 ≤ region ∨ sensors.length ≠ 4) := by
  simp [hheld, hfour, hregion]

/-- A domain without a request for the entry delay enters its floor, domain 39 while the bridge has no traffic (R14, R492). -/
theorem execDomainEnterFloor_of_due {t d : Nat} {s : State} (hswap : (s.atTime t).boot.swap < 2) (hwake : (domOf (s.atTime t) d).wake = 0)
    (habove : (domOf (s.atTime t) d).st < (domOf (s.atTime t) d).floor) (hfloor : (domOf (s.atTime t) d).floor < 4)
    (hdue : max (domOf (s.atTime t) d).asked (domOf (s.atTime t) d).since + entryDelay (domOf (s.atTime t) d).floor ≤ elapsed (s.atTime t))
    (hbridge : d = 39 → bridgeTraffic (s.atTime t) = false) :
    execDomainEnterFloor t d s = .next (setDom d (domOf (s.atTime t) d).floor (s.atTime t)) := by
  have hquiet : (!(d == 39 && bridgeTraffic (s.atTime t))) = true := by
    by_cases hd : d = 39
    · rw [hbridge hd, Bool.and_false, Bool.not_false]
    · rw [beq_eq_false_iff_ne.2 hd, Bool.false_and, Bool.not_false]
  exact congrArg Host.Outcome.next (if_pos ⟨hswap, hwake, habove, hfloor, hdue, hquiet⟩)

/-- DECONCENTRATE of a concentrated octet that exceeds 16 KiB in front of or behind its pipelines: alternate dealing resumes at once where
the sibling pipeline is awake, and with its wake otherwise (R494). -/
theorem execDeconcentrate_of_full {t k : Nat} {s : State} (hoctet : k < 8) (hon : bit (s.atTime t).pow.octOn k = true)
    (hnot : bit (s.atTime t).pow.unconc k = false)
    (hfull : 16384 < octetFill (s.atTime t) k
      ∨ 16384 < (((s.atTime t).fwd.egress.filter fun e => e.1 / 8 == k).map fun e => e.2.md.len).sum) :
    execDeconcentrate t k s = .next (
      let v := raise 0x10 2 govUnit (pay [(k, 1), (0, 1), (0, 1)]) (powCount 127 2 1 (s.atTime t))
      if (domOf v (2 * k + 1)).st = 0 then { v with pow := { v.pow with octOn := v.pow.octOn - 2 ^ k } }
      else wakeDom (2 * k + 1) { v with pow := { v.pow with unconc := v.pow.unconc + 2 ^ k } }) := by
  have hdue : ¬ (8 ≤ k ∨ (!bit (s.atTime t).pow.octOn k) = true ∨ bit (s.atTime t).pow.unconc k = true
      ∨ (octetFill (s.atTime t) k ≤ 16384
        ∧ (((s.atTime t).fwd.egress.filter fun e => e.1 / 8 == k).map fun e => e.2.md.len).sum ≤ 16384)) := by
    simp only [hon, hnot, Bool.not_true, Bool.false_eq_true, false_or]
    omega
  exact (if_neg hdue).trans (apply_ite Host.Outcome.next _ _ _).symm

/-- Settles O49, event by event: where the clause's conditions hold at the event's instant, they choose its branch. -/
theorem powerEventsComplete : Obligations.PowerEventsComplete := by
  unfold Obligations.PowerEventsComplete
  exact ⟨fun _ _ _ _ ⟨hheld, hregion, hfour⟩ => if_neg (region_read hheld hregion hfour),
    fun _ _ _ ⟨hswap, hwake, habove, hfloor, hdue, hbridge⟩ =>
      execDomainEnterFloor_of_due hswap hwake habove hfloor hdue hbridge,
    fun _ _ _ _ _ => rfl,
    fun _ _ _ hwake => if_neg hwake,
    fun _ _ _ ⟨hoctet, hon, hnot, hfull⟩ => execDeconcentrate_of_full hoctet hon hnot hfull⟩

end Sys2Proof.Machine
end

section
/-! Proofs of the statements on learning and table upkeep (spec/07_learning_table_upkeep.md): LEARN commands, the commands that walk,
load and compare tables, and the events of the learn engine, the walkers and commit preparation. -/

namespace Sys2Proof.Machine

open Sys2Proof

/-! ### Learn commands (R193, R195, R200, R207, R212, R220) -/

/-- The learn profile of a LEARN.PROFILE_SET request (Table 7-1). -/
def learnProfOfRequest (q : List Word) : LearnProf where
  mode := fld q 0 9 8
  notify := flag q 0 10
  refresh := flag q 0 11
  table := fld q 0 19 12
  flap := fld q 0 21 20
  age := wd q 1
  limit := fld q 2 7 0
  window := fld q 2 24 8
  hold := fld q 3 22 0

/-- A profile may name the table that it named before; another one only while no domain names the profile (R193). -/
theorem learnTable_free {u : State} {i table : Nat}
    (htable : (tgetD u.learn.profs i {}).table = table ∨ ∀ e ∈ u.learn.doms, e.2 ≠ i) :
    ¬ ((tgetD u.learn.profs i {}).table ≠ table ∧ (u.learn.doms.any fun e => e.2 == i) = true) := by
  rintro ⟨hother, hnamed⟩
  obtain hsame | hunnamed := htable
  · exact hother hsame
  · obtain ⟨e, he, hi⟩ := List.any_eq_true.1 hnamed
    exact hunnamed e he (eq_of_beq hi)

/-- A direct LEARN.PROFILE_SET of settings in the ranges of Table 7-1 that the sweep period bears (R193, R207). -/
theorem actLearnProfileSet_direct {x : Ctx} {q : List Word} {u : State} (hph : x.ph = .direct) (hprofile : fld q 0 7 0 ≠ 0)
    (hmode : fld q 0 9 8 ≠ 3) (hflap : fld q 0 21 20 ≠ 3) (hage : wd q 1 = 0 ∨ 8000 ≤ wd q 1)
    (hwindow : 1 ≤ fld q 2 24 8 ∧ fld q 2 24 8 ≤ 80000) (hhold : 1 ≤ fld q 3 22 0 ∧ fld q 3 22 0 ≤ 5760000)
    (htable : (tgetD u.learn.profs (fld q 0 7 0) {}).table = fld q 0 19 12 ∨ ∀ e ∈ u.learn.doms, e.2 ≠ fld q 0 7 0)
    (hdill : thas u.tab.dill (fld q 0 19 12) = true)
    (hsweep : sweepOk u u.learn.sweep (tset u.learn.profs (fld q 0 7 0) (learnProfOfRequest q)) = true) :
    actLearnProfileSet x q u =
      done (modLearn (fun l => { l with profs := tset l.profs (fld q 0 7 0) (learnProfOfRequest q) }) u) := by
  have hrange : ¬ (fld q 0 7 0 = 0 ∨ fld q 0 9 8 = 3 ∨ fld q 0 21 20 = 3 ∨ (wd q 1 ≠ 0 ∧ wd q 1 < 8000) ∨ fld q 2 24 8 = 0
      ∨ 80000 < fld q 2 24 8 ∨ fld q 3 22 0 = 0 ∨ 5760000 < fld q 3 22 0) := by omega
  have hstands : ¬ (((tgetD u.learn.profs (fld q 0 7 0) {}).table ≠ fld q 0 19 12
        ∧ (u.learn.doms.any fun e => e.2 == fld q 0 7 0) = true)
      ∨ (!thas u.tab.dill (fld q 0 19 12)) = true
      ∨ (!sweepOk u u.learn.sweep (tset u.learn.profs (fld q 0 7 0) (learnProfOfRequest q))) = true) := by
    simp only [learnTable_free htable, hdill, hsweep, Bool.not_true, Bool.false_eq_true, or_self, not_false_eq_true]
  rw [actLearnProfileSet, hph]
  exact (if_neg hrange).trans (if_neg hstands)

/-- A direct LEARN.DOMAIN_SET of a range within the domains (R193). -/
theorem actLearnDomainSet_direct {x : Ctx} {q : List Word} {u : State} (hph : x.ph = .direct) (hsome : 0 < fld q 1 20 0)
    (hrange : fld q 0 19 0 + fld q 1 20 0 ≤ 1048576) :
    actLearnDomainSet x q u = done (modLearn (fun l => { l with
      doms := (l.doms.filter fun e => decide (e.1 < fld q 0 19 0))
        ++ (if fld q 2 7 0 = 0 then [] else (rangeFrom (fld q 0 19 0) (fld q 1 20 0)).map fun d => (d, fld q 2 7 0))
        ++ l.doms.filter fun e => decide (fld q 0 19 0 + fld q 1 20 0 ≤ e.1) }) u) := by
  have hallowed : ¬ (fld q 1 20 0 = 0 ∨ 1048576 < fld q 0 19 0 + fld q 1 20 0) := by omega
  rw [actLearnDomainSet, hph]
  exact if_neg hallowed

/-- What the learn action field of LEARN.PORT_SET may hold: null, or an action record that exists (R200). -/
def LearnActionNamed (u : State) (h : Nat) : Prop := hType h = 0 ∨ (hType h = 0x70 ∧ objExists u h = true)

theorem LearnActionNamed.accepted {x : Ctx} {u : State} {h : Nat} (haction : LearnActionNamed u h) :
    (nullOr h == 0 || (hType (nullOr h) == 0x70 && x.knows u (nullOr h))) = true := by
  obtain hnull | ⟨hty, hexists⟩ := haction
  · simp [nullOr, hnull]
  · simp [nullOr, hty, knows_of_objExists hexists]

/-- A direct LEARN.PORT_SET of a line port that exists (R200). -/
theorem actLearnPortSet_direct {x : Ctx} {q : List Word} {u : State} (hph : x.ph = .direct) (hexists : objExists u (wd q 0) = true)
    (hty : hType (wd q 0) = 0x30 ∨ hType (wd q 0) = 0x32) (haction : LearnActionNamed u (wd q 2)) (hlimit : fld q 1 20 0 ≤ 1048576) :
    actLearnPortSet x q u = done (modLearn (fun l => { l with
      ports := lset l.ports (hIdx (wd q 0)) { limit := fld q 1 20 0, drop := flag q 1 24, act := hwd q 2 } }) u) := by
  have hnamed : ¬ (!x.knows u (wd q 0) || !(hType (wd q 0) == 0x30 || hType (wd q 0) == 0x32)
      || !(hwd q 2 == 0 || (hType (hwd q 2) == 0x70 && x.knows u (hwd q 2)))) = true := by
    rw [knows_of_objExists hexists, hType_beq_either hty, hwd, haction.accepted]
    decide
  rw [actLearnPortSet, if_neg hnamed, if_neg (Nat.not_lt.2 hlimit), hph]
  rfl

/-- The handle of a line port that exists names it, Ethernet or transport (R200). -/
theorem linePort_of_objExists {u : State} {h : Nat} (hty : hType h = 0x30 ∨ hType h = 0x32) (hexists : objExists u h = true) :
    linePort u h = some (hIdx h) := if_pos ⟨hty, hexists⟩

/-- LEARN.PORT_STATUS answers for the port that its handle names (R200). -/
theorem actLearnPortStatus_of_linePort {x : Ctx} {q : List Word} {u : State} {p : Nat} (hport : linePort u (wd q 0) = some p) :
    actLearnPortStatus x q u = reply [toWord (learnedOf u p), toWord (pendingOf u p)] u := by
  rw [actLearnPortStatus, hport]

/-- The flush of a LEARN.FLUSH_PORT request of port p; in move mode its entries go to port n (R212). -/
def flushOfRequest (q : List Word) (p n : Nat) : Flush where
  port := p
  move := if flag q 1 0 then some n else none
  dom := if flag q 1 1 then some (fld q 2 19 0) else none

/-- LEARN.FLUSH_PORT starts its flush under the next flush number while fewer than four run (R212). -/
theorem actLearnFlushPort_of_room {x : Ctx} {q : List Word} {u : State} {p n : Nat} (hport : linePort u (wd q 0) = some p)
    (hmove : flag q 1 0 = true → linePort u (wd q 3) = some n ∧ (learnAction u n).isSome = true)
    (hroom : u.learn.flushes.length < 4) :
    actLearnFlushPort x q u = ⟨stAccepted, [toWord u.learn.nextFlush], modLearn (fun l => { l with
      flushes := tset l.flushes u.learn.nextFlush (flushOfRequest q p n),
      nextFlush := (u.learn.nextFlush + 1) % 2 ^ 32 }) u, 0⟩ := by
  rw [actLearnFlushPort, flushOfRequest, hport]
  cases hmode : flag q 1 0 with
  | false => exact if_neg (Nat.not_le.2 hroom)
  | true =>
    obtain ⟨hdest, haction⟩ := hmove hmode
    simp only [if_true, hdest, Option.isNone_eq_false_iff.2 haction, Bool.and_false, Bool.false_eq_true, if_false]
    exact if_neg (Nat.not_le.2 hroom)

/-- A direct LEARN.PROGRAM_SET whose key profile fits a learn table's key (R195). -/
theorem actLearnProgramSet_direct {x : Ctx} {q : List Word} {u : State} (hph : x.ph = .direct) (hty : hType (wd q 0) = 0x65)
    (hidx : hIdx (wd q 0) < 4096) (hkey : flag q 1 0 = true → keyLen u.fwd.cfg (fld q 1 15 8) ≤ 9) :
    actLearnProgramSet x q u = done (setCfg false (fun c => { c with
      progs := tset c.progs (hIdx (wd q 0)) { tgetD c.progs (hIdx (wd q 0)) {} with
        learn := if flag q 1 0 then some (fld q 1 15 8) else none } }) u) := by
  have hnamed : ¬ (hType (wd q 0) ≠ 0x65 ∨ 4096 ≤ hIdx (wd q 0)) := by omega
  have hfits : ¬ (flag q 1 0 && decide (9 < keyLen u.fwd.cfg (fld q 1 15 8))) = true := by
    simpa using hkey
  rw [actLearnProgramSet, hph]
  exact (if_neg hnamed).trans (if_neg hfits)

/-- A punt policer field that may stand passes the test of LEARN.DEVICE_SET (R209). -/
theorem PuntNamed.accepted {h : Nat} (hpunt : PuntNamed h) :
    (nullOr h == 0 || (hType (nullOr h) == 0x62 && decide (hIdx (nullOr h) < 1048576))) = true := by
  obtain hnull | ⟨hty, hidx⟩ := hpunt
  · simp [nullOr, hnull]
  · simp [nullOr, hty, hidx]

/-- LEARN.DEVICE_SET of a sweep period that every profile bears, and of the policers of punt reasons NEW_SOURCE and MOVE_LOCKED
(R207, R209). -/
theorem actLearnDeviceSet_of_sweepOk {x : Ctx} {q : List Word} {u : State} (hnewSource : PuntNamed (wd q 1))
    (hmoveLocked : PuntNamed (wd q 2)) (hlow : 4000 ≤ fld q 0 16 0) (hhigh : fld q 0 16 0 ≤ 80000)
    (hsweep : sweepOk u (fld q 0 16 0) u.learn.profs = true) :
    actLearnDeviceSet x q u = done (modFwd (fun w => { w with punt := mset 0 (mset 0 w.punt 0x10 (hwd q 1)) 0x11 (hwd q 2) })
      (modLearn (fun l => { l with sweep := fld q 0 16 0 }) u)) := by
  have hnamed : ¬ (!(hwd q 1 == 0 || (hType (hwd q 1) == 0x62 && decide (hIdx (hwd q 1) < 1048576)))
      || !(hwd q 2 == 0 || (hType (hwd q 2) == 0x62 && decide (hIdx (hwd q 2) < 1048576)))) = true := by
    rw [hwd, hwd, hnewSource.accepted, hmoveLocked.accepted]
    decide
  have hborne : ¬ (fld q 0 16 0 < 4000 ∨ 80000 < fld q 0 16 0 ∨ (!sweepOk u (fld q 0 16 0) u.learn.profs) = true) := by
    simp only [hsweep, Bool.not_true, Bool.false_eq_true, or_false]
    omega
  rw [actLearnDeviceSet]
  exact (if_neg hnamed).trans (if_neg hborne)

/-- Settles O27: each row runs its command, and the command's own meaning answers OK or ACCEPTED under the clause's conditions. -/
theorem learnCommandsComplete : Obligations.LearnCommandsComplete := by
  unfold Obligations.LearnCommandsComplete
  exact ⟨runs_of_act (.inl rfl) (fun _ _ _ => rfl) fun c _ _
        ⟨hprofile, hmode, hflap, hage, hwinLow, hwinHigh, hholdLow, hholdHigh, htable, hdill, hsweep⟩ =>
      actLearnProfileSet_direct (x := directCtx c) rfl hprofile hmode hflap hage ⟨hwinLow, hwinHigh⟩ ⟨hholdLow, hholdHigh⟩
        htable hdill hsweep,
    runs_of_act (.inl rfl) (fun _ _ _ => rfl) fun c _ _ ⟨hsome, hrange⟩ =>
      actLearnDomainSet_direct (x := directCtx c) rfl hsome hrange,
    runs_of_act (.inl rfl) (fun _ _ _ => rfl) fun c _ _ ⟨hexists, hty, haction, hlimit⟩ =>
      actLearnPortSet_direct (x := directCtx c) rfl hexists hty haction hlimit,
    runs_of_act (.inl rfl) (fun _ _ _ => rfl) fun c _ _ ⟨hty, hexists⟩ =>
      actLearnPortStatus_of_linePort (x := directCtx c) (linePort_of_objExists hty hexists),
    fun _ _ => runs_of_act (.inr rfl) (fun _ _ _ => rfl) fun c _ _ ⟨hport, hmove, hroom⟩ =>
      actLearnFlushPort_of_room (x := directCtx c) hport hmove hroom,
    runs_of_act (.inl rfl) (fun _ _ _ => rfl) fun c _ _ ⟨hty, hidx, hkey⟩ =>
      actLearnProgramSet_direct (x := directCtx c) rfl hty hidx hkey,
    runs_of_act (.inl rfl) (fun _ _ _ => rfl) fun c _ _ ⟨hnewSource, hmoveLocked, hlow, hhigh, hsweep⟩ =>
      actLearnDeviceSet_of_sweepOk (x := directCtx c) hnewSource hmoveLocked hlow hhigh hsweep,
    runs_of_act (.inl rfl) (fun _ _ _ => rfl) fun _ _ _ _ => rfl⟩

/-! ### Table walk commands (R210, R211, R214, R217, R218) -/

/-- DILL.SEARCH answers an entry that the current epoch sees (R210). -/
theorem actDillSearch_of_seen {x : Ctx} {q : List Word} {u : State} {t : Nat} {tb : DillTab} {p : Place} {e : DillEntry}
    (htab : dillTab u (wd q 0) = some (t, tb)) (hentry : dillAt u t tb (dillKey q 1) = some (p, e))
    (hseen : (e.v.seen true).isSome = true) :
    actDillSearch x q u = reply (placeWords p (bucketOf tb (dillKey q 1)) ++ dillWords e u.fwd.epoch) u := by
  rw [actDillSearch, withDill_of_dillTab htab, hentry]
  exact if_neg (by rw [Option.isNone_eq_false_iff.2 hseen]; decide)

/-- What DILL.NEXT answers of the entries w that its walk of table tb has left: where the walk goes on, and the first n entries with
their places (R210). -/
def walkWords (tb : DillTab) (n : Nat) (epoch : Bool) (w : Tab (Place × DillEntry)) : List Word :=
  [toWord (walkOn tb n w).1, toWord ((walkOn tb n w).2 - 4), toWord (w.take n).length]
    ++ (w.take n).flatMap fun e => (placeWords e.2.1 (e.1 / walkSpan)).take 1 ++ dillWords e.2.2 epoch

/-- DILL.NEXT of 1 to 100 entries from a bucket of the table (R210, R211). -/
theorem actDillNext_of_bucket {x : Ctx} {q : List Word} {u : State} {t : Nat} {tb : DillTab}
    (htab : dillTab u (wd q 0) = some (t, tb)) (hsome : 1 ≤ fld q 3 6 0) (hmost : fld q 3 6 0 ≤ 100)
    (hbucket : fld q 1 22 0 < 2 ^ tb.k) :
    actDillNext x q u = reply (walkWords tb (fld q 3 6 0) u.fwd.epoch (walkLeft u t x.mb q))
      (walkHold t x.mb (fld q 1 22 0) (fld q 2 15 0) (walkOn tb (fld q 3 6 0) (walkLeft u t x.mb q)) u) := by
  have hallowed : ¬ (fld q 3 6 0 = 0 ∨ 100 < fld q 3 6 0 ∨ 2 ^ tb.k ≤ fld q 1 22 0) := by omega
  rw [actDillNext, withDill_of_dillTab htab]
  exact if_neg hallowed

/-- What the transaction field of TABLE.CMDLIST may hold: null, or a transaction that is open below its limit (R214, R453). -/
def ListTxnOpen (u : State) (h : Nat) : Prop :=
  hType h ≠ 0 → ∃ i x, txnSlot u h = some (i, x) ∧ x.phase = 0 ∧ x.count < 1048576

/-- The command list of a TABLE.CMDLIST request that came by mailbox m (R214). -/
def listOfRequest (q : List Word) (m : Nat) : CmdList where
  addr := wd64 q 0
  count := fld q 2 20 0
  stop := flag q 2 31
  res := wd64 q 3
  txn := hwd q 5
  mb := m

/-- TABLE.CMDLIST of a list within its length is accepted under the next list number while fewer than four run (R214). -/
theorem actTableCmdlist_of_room {x : Ctx} {q : List Word} {u : State} (hsome : 1 ≤ fld q 2 20 0) (hmost : fld q 2 20 0 ≤ 1048576)
    (htxn : ListTxnOpen u (wd q 5)) (hroom : u.learn.lists.length < 4) :
    actTableCmdlist x q u = ⟨stAccepted, [toWord u.learn.nextList], modLearn (fun l => { l with
      nextList := (u.learn.nextList + 1) % 2 ^ 32,
      lists := tset l.lists u.learn.nextList (listOfRequest q x.mb) }) u, 0⟩ := by
  have hlength : ¬ (fld q 2 20 0 = 0 ∨ 1048576 < fld q 2 20 0) := by omega
  have hfree : ¬ 4 ≤ u.learn.lists.length := Nat.not_le.2 hroom
  rw [actTableCmdlist, if_neg hlength, listOfRequest]
  by_cases hnull : hType (wd q 5) = 0
  · have hnone : hwd q 5 = 0 := if_pos hnull
    simp only [hnone, hfree, ne_eq, not_true_eq_false, false_and, if_false, bne_self_eq_false, Bool.false_and, Bool.false_eq_true]
  · obtain ⟨i, y, hslot, hphase, hcount⟩ := htxn hnull
    simp only [hslot, hphase, Nat.not_le.2 hcount, hfree, Option.isNone_some, bne_self_eq_false, decide_false, Bool.and_false,
      Bool.false_eq_true, and_false, if_false]

/-- A direct TABLE.COMPARE_SET of an existing table (R217). -/
theorem actTableCompareSet_direct {x : Ctx} {q : List Word} {u : State} {t : Nat} {tb : DillTab} (hph : x.ph = .direct)
    (htab : dillTab u (wd q 0) = some (t, tb)) :
    actTableCompareSet x q u =
      done (modDill t (fun d => { d with compare := flag q 1 0, inclLearned := flag q 1 1, repair := flag q 1 2 }) u) := by
  rw [actTableCompareSet, withDill_of_dillTab htab, hph]
  rfl

/-- A direct TABLE.DIGEST_LOAD of 1 to 1,000 pages of the table (R217). -/
theorem actTableDigestLoad_direct {x : Ctx} {q : List Word} {u : State} {t : Nat} {tb : DillTab} (hph : x.ph = .direct)
    (htab : dillTab u (wd q 0) = some (t, tb)) (hsome : 1 ≤ fld q 2 9 0) (hmost : fld q 2 9 0 ≤ 1000)
    (hpages : fld q 1 17 0 + fld q 2 9 0 ≤ tb.pageCount) :
    actTableDigestLoad x q u = done (modDill t (fun d => { d with
      digests := (List.range (fld q 2 9 0)).foldl (fun m j => tset m (fld q 1 17 0 + j) (toWord (wd q (3 + j)))) d.digests }) u) := by
  have hrange : ¬ (fld q 2 9 0 = 0 ∨ 1000 < fld q 2 9 0 ∨ tb.pageCount < fld q 1 17 0 + fld q 2 9 0) := by omega
  rw [actTableDigestLoad, withDill_of_dillTab htab, hph]
  exact if_neg hrange

/-- Settles O28: each row runs its command, and the command's own meaning answers OK or ACCEPTED under the clause's conditions. -/
theorem tableWalkCommandsComplete : Obligations.TableWalkCommandsComplete := by
  unfold Obligations.TableWalkCommandsComplete
  exact ⟨fun _ _ _ _ => runs_of_act (.inl rfl) (fun _ _ _ => rfl) fun c _ _ ⟨htab, hentry, hseen⟩ =>
      actDillSearch_of_seen (x := directCtx c) htab hentry hseen,
    fun _ _ => runs_of_act (.inl rfl) (fun _ _ _ => rfl) fun c _ _ ⟨htab, hsome, hmost, hbucket⟩ =>
      actDillNext_of_bucket (x := directCtx c) htab hsome hmost hbucket,
    runs_of_act (.inr rfl) (fun _ _ _ => rfl) fun c _ _ ⟨hsome, hmost, htxn, hroom⟩ =>
      actTableCmdlist_of_room (x := directCtx c) hsome hmost htxn hroom,
    fun _ _ => runs_of_act (.inl rfl) (fun _ _ _ => rfl) fun c _ _ htab =>
      actTableCompareSet_direct (x := directCtx c) rfl htab,
    fun _ _ => runs_of_act (.inl rfl) (fun _ _ _ => rfl) fun c _ _ ⟨htab, hsome, hmost, hpages⟩ =>
      actTableDigestLoad_direct (x := directCtx c) rfl htab hsome hmost hpages,
    fun _ _ => runs_of_act (.inl rfl) (fun _ _ _ => rfl) fun _ _ _ htab => withDill_of_dillTab htab _⟩

/-! ### Transaction events (R214 to R216, R236, R392, R456, R457) -/

section
variable {t i h : Nat} {x : Txn} {s : State}

/-- A transaction that still prepares, without a verdict of its own, is not passed over (R456). -/
theorem preparing_not_over (hphase : x.phase = 1) (hown : x.own = none) : ¬ (x.phase ≠ 1 ∨ x.own.isSome = true) := by
  simp [hphase, hown]

/-- A preparation that is done in time finishes (R455 to R457). -/
theorem execCommitPreparationDone_of_inTime (htxn : txnAt (s.atTime t) i = some (h, x)) (hphase : x.phase = 1) (hown : x.own = none)
    (htime : x.named = true → (s.atTime t).tm.tide + 2 < x.c) :
    execCommitPreparationDone t i s = .next (finishPrep i (s.atTime t)) := by
  have hinTime : ¬ (x.named = true ∧ x.c ≤ (s.atTime t).tm.tide + 2) := fun ⟨hnamed, hlate⟩ =>
    absurd (htime hnamed) (Nat.not_lt.2 hlate)
  simp only [execCommitPreparationDone, htxn]
  rw [if_neg (preparing_not_over hphase hown), if_neg hinTime]

/-- A preparation that is done once boundary C − 2 of its named tide is there fails (R456). -/
theorem execCommitPreparationDone_of_late (htxn : txnAt (s.atTime t) i = some (h, x)) (hphase : x.phase = 1) (hown : x.own = none)
    (hnamed : x.named = true) (hlate : x.c ≤ (s.atTime t).tm.tide + 2) :
    execCommitPreparationDone t i s = .next (ownVerdict i stTimePassed [] (s.atTime t)) := by
  simp only [execCommitPreparationDone, htxn]
  rw [if_neg (preparing_not_over hphase hown), if_pos ⟨hnamed, hlate⟩]

/-- A preparation that boundary C − 2 of its named tide finds incomplete fails (R456). -/
theorem execCommitTimePassed_of_late (htxn : txnAt (s.atTime t) i = some (h, x)) (hphase : x.phase = 1) (hown : x.own = none)
    (hnamed : x.named = true) (hlate : x.c ≤ (s.atTime t).tm.tide + 2) :
    execCommitTimePassed t i s = .next (ownVerdict i stTimePassed [] (s.atTime t)) := by
  simp only [execCommitTimePassed, htxn]
  exact if_pos ⟨hphase, Option.isNone_iff_eq_none.2 hown, hnamed, hlate⟩

/-- The tide C at which a transaction's commit applies if its preparation ends in state u: the one that it names, or the third from
then (R456). -/
def commitTide (x : Txn) (u : State) : Nat := if x.named then x.c else u.tm.tide + 3

/-- A preparation whose partition lacks cells fails for want of them (R236). -/
theorem execPartitionShort_of_short {p n short : Nat} {a : Tab (List Nat)} {b : List Nat} {v : State}
    (htxn : txnAt (s.atTime t) i = some (h, x)) (hphase : x.phase = 1) (hown : x.own = none)
    (hadm : admitTxn h (commitTide x (s.atTime t)) x (s.atTime t) = some (.ok p a n))
    (hraise : partRaise p (s.atTime t) = (b, short, v)) (hshort : short ≠ 0) :
    execPartitionShort t i s = .next (ownVerdict i stResourceShort (shortBlock p short n)
      (partShort (commitTide x (s.atTime t)) short (admCount false (s.atTime t)))) := by
  obtain ⟨k, rfl⟩ := Nat.exists_eq_succ_of_ne_zero hshort
  rw [commitTide] at hadm ⊢
  simp only [execPartitionShort, htxn]
  rw [if_neg (preparing_not_over hphase hown), hadm]
  simp only [hraise]

/-- A commit whose own verdict stands at boundary C − 2 without the twin's: the active settles it alone and notes its standby
stale, and a standby drops it and is stale itself; the cause is commit missed (R392). -/
theorem execCommitAckTimeout_of_unanswered {st : Nat} {resp : List Word} (htxn : txnAt (s.atTime t) i = some (h, x))
    (hown : x.own = some (st, resp)) (htwin : x.twin = none) (hphase : x.phase = 1) (hdue : x.c ≤ (s.atTime t).tm.tide + 2) :
    execCommitAckTimeout t i s = .next (if (s.atTime t).twin.st = 1 then
        if st = stOk then commitPrepared i (goStale 2 (s.atTime t)) else failCommit i st resp (goStale 2 (s.atTime t))
      else goStale 2 (tablesUndo h (rollBack h (s.atTime t)))) := by
  have hover : ¬ (x.phase ≠ 1 ∨ (s.atTime t).tm.tide + 2 < x.c) := by omega
  simp only [execCommitAckTimeout, htxn, hown, htwin]
  exact (if_neg hover).trans (apply_ite Host.Outcome.next _ _ _).symm

end

/-- A command list whose records have all run leaves the running lists and raises CMDLIST_DONE (R214 to R216). -/
theorem execCmdlistDone_of_run {t id : Nat} {records : List Word} {l : CmdList} {r : ListRun} {s : State}
    (hserved : served cmdTableCmdlist (s.atTime t) = true) (hlist : tget (s.atTime t).learn.lists id = some l)
    (hrun : (List.range l.count).foldl (fun r i => r.bind (listStep l i)) (some { st := s.atTime t, rest := records }) = some r) :
    execCmdlistDone t id records s = .next (raise 8 7 mpcUnit (pay [(id, 4), (r.ran, 4), (r.bad, 4)])
      (modLearn (fun x => { x with lists := terase x.lists id }) r.st)) := by
  simp only [execCmdlistDone, hlist, hserved, if_true, hrun]

/-- Settles O43, event by event: where the clause's conditions hold at the event's instant, they choose its branch. -/
theorem transactionEventsComplete : Obligations.TransactionEventsComplete := by
  unfold Obligations.TransactionEventsComplete
  exact ⟨fun _ _ _ _ _ ⟨htxn, hphase, hown, htime⟩ => execCommitPreparationDone_of_inTime htxn hphase hown htime,
    fun _ _ _ _ _ ⟨htxn, hphase, hown, hnamed, hlate⟩ => execCommitPreparationDone_of_late htxn hphase hown hnamed hlate,
    fun _ _ _ _ _ ⟨htxn, hphase, hown, hnamed, hlate⟩ => execCommitTimePassed_of_late htxn hphase hown hnamed hlate,
    fun _ _ _ _ _ _ _ _ _ _ _ ⟨htxn, hphase, hown, hadm, hraise, hshort⟩ =>
      execPartitionShort_of_short htxn hphase hown hadm hraise hshort,
    fun _ _ _ _ _ _ ⟨hserved, hlist, hrun⟩ => execCmdlistDone_of_run hserved hlist hrun,
    fun _ _ _ _ _ _ _ ⟨htxn, hown, htwin, hphase, hdue, hactive⟩ =>
      (execCommitAckTimeout_of_unanswered htxn hown htwin hphase hdue).trans (congrArg Host.Outcome.next (if_pos hactive)),
    fun _ _ _ _ _ _ _ ⟨htxn, hown, htwin, hphase, hdue, hstandby⟩ =>
      (execCommitAckTimeout_of_unanswered htxn hown htwin hphase hdue).trans (congrArg Host.Outcome.next (if_neg hstandby))⟩

/-! ### Learning and table events (R198, R201, R203, R207, R211 to R213, R218, R219) -/

section
variable {t : Nat} {s : State}

/-- The walkers and the learn engine act only in a unit that may drive its lines (R387). -/
theorem learnTable_driven {u : State} {tab : Nat} (hlearn : isLearnTable u tab = true) (hdrive : mayDrive u = true) :
    (isLearnTable u tab && mayDrive u) = true := by
  rw [hlearn, hdrive, Bool.and_self]

/-- A request that is the first of its bucket in the learn queue is applied (R197, R198). -/
theorem execLearnRequestApply_of_first {i : Nat} {r : LearnReq} {tb : DillTab} (hdrive : mayDrive (s.atTime t) = true)
    (hreq : (s.atTime t).learn.queue[i]? = some r) (htab : tget (s.atTime t).tab.dill r.table = some tb)
    (hfirst : (((s.atTime t).learn.queue.take i).any fun x =>
      x.table == r.table && bucketOf tb x.key == bucketOf tb r.key) = false) :
    execLearnRequestApply t i s =
      .next (learnApply r tb (modLearn (fun l => { l with queue := l.queue.eraseIdx i }) (s.atTime t))) := by
  simp only [execLearnRequestApply, hdrive, if_true, hreq, htab, hfirst, Bool.false_eq_true, if_false]

/-- A request of a table that does not exist any more is dropped (R198). -/
theorem execLearnRequestApply_of_noTable {i : Nat} {r : LearnReq} (hdrive : mayDrive (s.atTime t) = true)
    (hreq : (s.atTime t).learn.queue[i]? = some r) (htab : tget (s.atTime t).tab.dill r.table = none) :
    execLearnRequestApply t i s = .next (modLearn (fun l => { l with queue := l.queue.eraseIdx i }) (s.atTime t)) := by
  simp only [execLearnRequestApply, hdrive, if_true, hreq, htab]

/-- The lock of an entry that expires at the boundary is cleared with FLAP_CLEAR (R203). -/
theorem execFlapClear_of_expired {tab key : Nat} {m : MoveSlot} (hslot : slotOf (s.atTime t) tab key = some m) (hlocked : m.lock ≠ 0)
    (hexpired : m.lock ≤ (s.atTime t).tm.tide + 1) :
    execFlapClear t tab key s = .next (raise 8 5 mpcUnit (learnPay tab key []) (slotDrop tab key (s.atTime t))) := by
  simp only [execFlapClear, hslot]
  exact if_pos ⟨hlocked, hexpired⟩

/-- The tracker slot of an entry whose window ends unlocked is freed (R201, R202). -/
theorem execMoveWindowEnd_of_unlocked {tab key : Nat} {m : MoveSlot} (hslot : slotOf (s.atTime t) tab key = some m)
    (hunlocked : m.lock = 0) (hend : m.start + (profOf (s.atTime t) (keyDomain key)).window ≤ (s.atTime t).tm.tide) :
    execMoveWindowEnd t tab key s = .next (slotDrop tab key (s.atTime t)) := by
  simp only [execMoveWindowEnd, hslot]
  exact if_pos ⟨hunlocked, hend⟩

/-- A page that the compare walker takes while an entry of it is in an open commit is skipped (R218). -/
theorem execComparePageVisit_of_open {tab page : Nat} {unc twin : Option Nat} {tb : DillTab} {v : State}
    (htab : tget (s.atTime t).tab.dill tab = some tb) (hdrive : mayDrive (s.atTime t) = true)
    (htake : takePage tab page (s.atTime t) = some v) (hopen : ((pageEntries v tab page).any fun e => e.2.2.v.open) = true) :
    execComparePageVisit t tab page unc twin s = .next (modLearn (fun l => { l with skipped := l.skipped ++ [(tab, page)] }) v) := by
  simp only [execComparePageVisit, htab, hdrive, if_true, htake, hopen]

/-- The state in which the comparison of a page is counted (R218). -/
def pageCounted (tab : Nat) (v : State) : State := learnCount 14 1 (modDill tab (fun d => { d with pages := d.pages + 1 }) v)

/-- What the visit of a page of closed entries leaves of the state v in which the walker has taken it: the page fails where a bucket of
it cannot be read, is passed where no digest of it is loaded, and is compared otherwise, with PAGE_MISMATCH where its own digest is
another (R175, R217, R218). -/
def pageVisited (tab page : Nat) (tb : DillTab) (unc twin : Option Nat) (v : State) : State :=
  match unc with
  | some b => pageFail tab (page * 32 + b) (tabCount 7 1 v)
  | none =>
    match tget tb.digests page with
    | none => v
    | some yours =>
      let mine := canonDigest (pageCanon v tab tb page)
      let w := pageCounted tab v
      if mine = yours.toNat then w
      else
        raise 8 8 mpcUnit
          (pay [(tab, 1), (page, 3), (mine, 4), (yours.toNat, 4), (b2n (repairable w tb && twin == some yours.toNat), 1)])
          (learnCount 15 1 (modDill tab (fun d => { d with mism := d.mism + 1, sweepBad := d.sweepBad + 1 }) w))

/-- The visit of a page of closed entries that the compare walker takes may end the sweep (R218). -/
theorem execComparePageVisit_of_closed {tab page : Nat} {unc twin : Option Nat} {tb : DillTab} {v : State}
    (htab : tget (s.atTime t).tab.dill tab = some tb) (hdrive : mayDrive (s.atTime t) = true)
    (htake : takePage tab page (s.atTime t) = some v) (hclosed : ((pageEntries v tab page).any fun e => e.2.2.v.open) = false) :
    execComparePageVisit t tab page unc twin s = .next (sweepEnd (pageVisited tab page tb unc twin v)) := by
  simp only [execComparePageVisit, htab, hdrive, if_true, htake, hclosed, Bool.false_eq_true, if_false]
  cases unc with
  | some b => rfl
  | none =>
    rw [pageVisited]
    cases tget tb.digests page with
    | none => rfl
    | some yours => rfl

section
variable {tab page : Nat} {tb : DillTab} {twin : Option Nat} {v : State}

theorem pageVisited_unreadable (b : Nat) :
    pageVisited tab page tb (some b) twin v = pageFail tab (page * 32 + b) (tabCount 7 1 v) := rfl

theorem pageVisited_unloaded (hunloaded : tget tb.digests page = none) : pageVisited tab page tb none twin v = v := by
  rw [pageVisited, hunloaded]

theorem pageVisited_equal {yours : Word} (hloaded : tget tb.digests page = some yours)
    (hequal : canonDigest (pageCanon v tab tb page) = yours.toNat) : pageVisited tab page tb none twin v = pageCounted tab v := by
  rw [pageVisited, hloaded]
  exact if_pos hequal

theorem pageVisited_unequal {yours : Word} (hloaded : tget tb.digests page = some yours)
    (hunequal : canonDigest (pageCanon v tab tb page) ≠ yours.toNat) :
    pageVisited tab page tb none twin v =
      raise 8 8 mpcUnit (pay [(tab, 1), (page, 3), (canonDigest (pageCanon v tab tb page), 4), (yours.toNat, 4),
          (b2n (repairable (pageCounted tab v) tb && twin == some yours.toNat), 1)])
        (learnCount 15 1 (modDill tab (fun d => { d with mism := d.mism + 1, sweepBad := d.sweepBad + 1 }) (pageCounted tab v))) := by
  rw [pageVisited, hloaded]
  exact if_neg hunequal

end

/-- The page content that the twin sends: its entries by key, each of the 32-byte form of R217 (R219). -/
def twinForm (form : List (Nat × Nat × Nat × Nat)) : Tab DillVal :=
  form.foldl (fun m e => tset m (e.1 % 2 ^ 160)
    { act := e.2.1 % 2 ^ 24, cookie := toWord e.2.2.2, static := bit e.2.2.1 7, learned := bit e.2.2.1 6, port := bits e.2.2.1 5 0 }) []

/-- A form of the twin's whose digest is the loaded one replaces a page of closed entries, with PAGE_REPAIRED (R219). -/
theorem execTwinPageRepair_of_digest {tab page : Nat} {form : List (Nat × Nat × Nat × Nat)} {tb : DillTab}
    (htab : tget (s.atTime t).tab.dill tab = some tb) (hrepair : repairable (s.atTime t) tb = true)
    (hdigest : (tget tb.digests page).map BitVec.toNat = some (canonDigest (twinForm form)))
    (hclosed : ((pageEntries (s.atTime t) tab page).any fun e => e.2.2.v.open) = false) :
    execTwinPageRepair t tab page form s = .next (raise 8 9 mpcUnit (pay [(tab, 1), (page, 3)]) (learnCount 16 1 (modDill tab
      (fun d => { d with
        failed := d.failed.filter fun p => p != page, bad := d.bad.filter fun b => b / 32 != page, repaired := d.repaired + 1 })
      (pageRewrite tab page tb (twinForm form) (s.atTime t))))) := by
  have hmatch : (repairable (s.atTime t) tb && (tget tb.digests page).map BitVec.toNat == some (canonDigest (twinForm form))
      && !(pageEntries (s.atTime t) tab page).any fun e => e.2.2.v.open) = true := by
    rw [hrepair, hdigest, beq_self_eq_true, hclosed]
    rfl
  simp only [execTwinPageRepair, htab]
  exact if_pos hmatch

/-- The state in which the walker of a flush has visited every bucket that holds entries (R213). -/
def flushSwept (id : Nat) (u : State) : State :=
  (dillAll u).foldl (fun s e => if isLearnTable s e.2.1 then flushBucket id e.2.1 e.2.2.1 s else s) u

/-- A flush that runs ends with FLUSH_DONE, which reports the entries that it changed (R213). -/
theorem execFlushDone_of_swept {id : Nat} {f : Flush} (hruns : thas (s.atTime t).learn.flushes id = true)
    (hdrive : mayDrive (s.atTime t) = true) (hflush : tget (flushSwept id (s.atTime t)).learn.flushes id = some f) :
    execFlushDone t id s = .next (raise 8 6 mpcUnit (pay [(id, 4), (f.changed, 4)])
      (modLearn (fun l => { l with flushes := terase l.flushes id }) (flushSwept id (s.atTime t)))) := by
  rw [flushSwept] at hflush
  simp only [execFlushDone, hruns, hdrive, Bool.not_true, Bool.or_self, Bool.false_eq_true, if_false, hflush]
  rfl

end

/-- Settles O54, event by event: where the clause's conditions hold at the event's instant, they choose its branch. -/
theorem learningEventsComplete : Obligations.LearningEventsComplete := by
  unfold Obligations.LearningEventsComplete
  refine ⟨fun _ _ _ _ _ ⟨hdrive, hreq, htab, hfirst⟩ => execLearnRequestApply_of_first hdrive hreq htab hfirst,
    fun _ _ _ _ ⟨hdrive, hreq, htab⟩ => execLearnRequestApply_of_noTable hdrive hreq htab,
    fun _ _ _ _ _ ⟨hslot, hlocked, hexpired⟩ => execFlapClear_of_expired hslot hlocked hexpired,
    fun _ _ _ _ _ ⟨hslot, hunlocked, hend⟩ => execMoveWindowEnd_of_unlocked hslot hunlocked hend,
    fun _ _ _ _ ⟨hlearn, hdrive⟩ => if_pos (learnTable_driven hlearn hdrive),
    fun _ _ _ _ _ _ _ _ ⟨htab, hdrive, htake, hopen⟩ => execComparePageVisit_of_open htab hdrive htake hopen,
    ?unreadable, ?unloaded, ?equal, ?unequal, ?repaired,
    fun _ _ _ _ _ ⟨hlearn, hdrive⟩ => congrArg Host.Outcome.next (if_pos (learnTable_driven hlearn hdrive)),
    ?flushed, fun _ _ _ _ hexpired => if_pos hexpired⟩
  case unreadable =>
    rintro tab page b twin tb v t s ⟨htab, hdrive, htake, hclosed⟩
    exact execComparePageVisit_of_closed (unc := some b) (twin := twin) htab hdrive htake hclosed
  case unloaded =>
    rintro tab page twin tb v t s ⟨htab, hdrive, htake, hclosed, hunloaded⟩
    refine (execComparePageVisit_of_closed (unc := none) (twin := twin) htab hdrive htake hclosed).trans ?_
    rw [pageVisited_unloaded hunloaded]
  case equal =>
    rintro tab page twin tb yours v t s ⟨htab, hdrive, htake, hclosed, hloaded, hequal⟩
    refine (execComparePageVisit_of_closed (unc := none) (twin := twin) htab hdrive htake hclosed).trans ?_
    rw [pageVisited_equal hloaded hequal]
    rfl
  case unequal =>
    rintro tab page twin tb yours mine v w t s ⟨htab, hdrive, htake, hclosed, hloaded, rfl, hunequal, rfl⟩
    refine (execComparePageVisit_of_closed (unc := none) (twin := twin) htab hdrive htake hclosed).trans ?_
    rw [pageVisited_unequal hloaded hunequal]
    rfl
  case repaired =>
    rintro tab page form tb m t s ⟨htab, rfl, hrepair, hdigest, hclosed⟩
    exact execTwinPageRepair_of_digest htab hrepair hdigest hclosed
  case flushed =>
    rintro id f v t s ⟨hruns, hdrive, rfl, hflush⟩
    exact execFlushDone_of_swept hruns hdrive hflush

end Sys2Proof.Machine
end

section
/-! Proofs of the statements on the buffer pools and the traffic director (spec/08_buffer_pools.md): BUF commands, the reference unit
and the events of buffers, queues and the scheduler. -/

namespace Sys2Proof.Machine

open Sys2Proof

/-! ### Buffer commands (R224, R227, R237, R241) -/

/-- A direct BUF.POOL_SET for a client of the pool, with a low mark below the clear mark and reserves that the pool can bear
(R237, Tables 8-2 and 8-3). -/
theorem actBufPoolSet_direct {x : Ctx} {q : List Word} {u : State} (hph : x.ph = .direct)
    (hclient : fld q 0 10 8 ∈ poolClients (fld q 0 0 0)) (hmarks : fld q 3 26 0 < fld q 4 26 0)
    (hborne : (lset (poolOf u (fld q 0 0 0)).lims (fld q 0 10 8) (fld q 1 26 0, fld q 2 26 0)).foldl (fun n e => n + e.1) 0
      ≤ if fld q 0 0 0 = 0 then 125829120 - 1048576 else 262144) :
    actBufPoolSet x q u = done (poolCheck (fld q 0 0 0) (modPool (fld q 0 0 0) (fun pl => { pl with
      lims := lset (poolOf u (fld q 0 0 0)).lims (fld q 0 10 8) (fld q 1 26 0, fld q 2 26 0)
      low := fld q 3 26 0, clear := fld q 4 26 0 }) u)) := by
  have hallowed : ¬ ((!(poolClients (fld q 0 0 0)).contains (fld q 0 10 8)) = true ∨ fld q 4 26 0 ≤ fld q 3 26 0) := by
    simp [hclient, hmarks]
  rw [actBufPoolSet, hph]
  exact (if_neg hallowed).trans (if_neg (Nat.not_lt.2 hborne))

/-- The word that BUF.INSPECT answers of buffer i of a pool (R224). -/
def inspectWord (pl : Pool) (i : Nat) : Word :=
  let b := tgetD pl.bufs i { used := false, owner := 0, count := 0, part := false }
  toWord (b2n b.used + 2 * b.owner + 16 * b.count + 4096 * b2n (pl.retired.contains i))

/-- BUF.INSPECT of a buffer within the pool (R224). -/
theorem actBufInspect_of_inPool {x : Ctx} {q : List Word} {u : State}
    (hwithin : fld q 1 26 0 < (poolOf (refSettleAll u) (fld q 0 0 0)).size) :
    actBufInspect x q u = reply [inspectWord (poolOf (refSettleAll u) (fld q 0 0 0)) (fld q 1 26 0)] (refSettleAll u) :=
  if_neg (Nat.not_le.2 hwithin)

/-- Settles O29: each row runs its command, and the command's own meaning answers OK under the clause's conditions. -/
theorem bufferCommandsComplete : Obligations.BufferCommandsComplete := by
  unfold Obligations.BufferCommandsComplete
  exact ⟨runs_of_act (.inl rfl) (fun _ _ _ => rfl) fun c _ _ ⟨hclient, hmarks, hborne⟩ =>
      actBufPoolSet_direct (x := directCtx c) rfl hclient hmarks hborne,
    runs_of_act (.inl rfl) (fun _ _ _ => rfl) fun _ _ _ _ => rfl,
    runs_of_act (.inl rfl) (fun _ _ _ => rfl) fun c _ _ hwithin => actBufInspect_of_inPool (x := directCtx c) hwithin,
    runs_of_act (.inl rfl) (fun _ _ _ => rfl) fun _ _ _ _ => rfl⟩

/-! ### The reference unit (R230 to R232) -/

/-- A change of a pool depends on what it makes of that pool alone. -/
theorem modPool_congr {p : Nat} {f g : Pool → Pool} {s : State} (hsame : f (poolOf s p) = g (poolOf s p)) :
    modPool p f s = modPool p g s := by
  rw [poolOf] at hsame
  rw [modPool, modPool]
  by_cases hp : p = 0
  · rw [if_pos hp] at hsame
    rw [if_pos hp, if_pos hp]
    exact congrArg (fun pl => modTd (fun t => { t with hbm := pl }) s) hsame
  · rw [if_neg hp] at hsame
    rw [if_neg hp, if_neg hp]
    exact congrArg (fun pl => modTd (fun t => { t with die := pl }) s) hsame

/-- The state in which the reference unit of pool p has taken all that it held, in clock c. -/
def refsTaken (p c : Nat) (s : State) : State := modPool p (fun pl => { pl with refs := [], refAt := c + 1 }) s

/-- What the reference unit does with one request in clock c (R230, R231). -/
def refApply (p c : Nat) (r : RefReq) (s : State) : State :=
  if r.copies then bufReplicate p r.b r.n s else bufReleaseAt (some c) p r.b r.n r.unit s

/-- A clock of the reference unit that finds one request, come by then, applies it (R231). -/
theorem refClock_single {p c : Nat} {r : RefReq} {s : State} (hrefs : (poolOf s p).refs = [r]) (hcome : r.clk ≤ c) :
    refClock p c s = refApply p c r (refsTaken p c s) := by
  have hhere : [r].filter (fun r => decide (r.clk ≤ c)) = [r] := List.filter_cons_of_pos (decide_eq_true hcome)
  have hone (f : RefReq → Bool) : ([r].filter f).drop 16 = [] :=
    List.drop_eq_nil_of_le (Nat.le_trans (List.length_filter_le f [r]) (by decide : 1 ≤ 16))
  have htaken : modPool p (fun pl => { pl with
      refs := [] ++ [] ++ pl.refs.filter fun r => decide (c < r.clk), refAt := c + 1 }) s = refsTaken p c s :=
    modPool_congr (by simp [hrefs, hcome])
  simp only [refClock, hrefs, hhere, hone, htaken, refApply]
  cases hkind : r.copies with
  | true => simp [hkind]
  | false => simp [hkind, refInsert]

/-- The reference unit, idle since before its one request came, applies that in the clock in which it came (R231). -/
theorem refSettle_single {p now : Nat} {r : RefReq} {s : State} (hrefs : (poolOf s p).refs = [r])
    (hidle : (poolOf s p).refAt ≤ r.clk) (hpast : r.clk < now) :
    refSettle p now s = refApply p r.clk r (refsTaken p r.clk s) := by
  have hclk : max (poolOf s p).refAt r.clk = r.clk := Nat.max_eq_right hidle
  simp only [refSettle, hrefs, List.length_singleton, refSettleFor, List.map_cons, List.map_nil, List.foldl_nil, hclk, if_pos hpast]
  exact refClock_single hrefs (Nat.le_refl _)

section
variable {p k b id unit : Nat} {x : Buf} {s : State}

/-- A release of a buffer in use that was not granted in the release's own clock turns on the buffer's owner (R231, R232). -/
theorem bufReleaseAt_of_used (hbuf : tget (poolOf s p).bufs b = some x) (hused : x.used = true) (hsince : x.since ≠ k + 1) :
    bufReleaseAt (some k) p b id unit s =
      if x.owner = 7 then
        if x.count ≤ 1 then bufFree p b { x with count := 0 } s
        else modPool p (fun pl => { pl with bufs := tset pl.bufs b { x with count := x.count - 1 } }) s
      else if x.owner = id then bufFree p b x s
      else badFree p b id x.owner 2 unit s := by
  have hgood : ¬ (!x.used || (some k).any fun c => x.since == c + 1) = true := by
    simp [hused, hsince]
  rw [bufReleaseAt, hbuf]
  exact if_neg hgood

/-- The cases of `bufReleaseAt_of_used`: a holder of a shared buffer, the last holder, the owner, and another client. -/
theorem bufReleaseAt_cases (hbuf : tget (poolOf s p).bufs b = some x) (hused : x.used = true) (hsince : x.since ≠ k + 1) :
    (x.owner = 7 → 1 < x.count →
        bufReleaseAt (some k) p b id unit s = modPool p (fun pl => { pl with bufs := tset pl.bufs b { x with count := x.count - 1 } }) s)
      ∧ (x.owner = 7 → x.count ≤ 1 → bufReleaseAt (some k) p b id unit s = bufFree p b { x with count := 0 } s)
      ∧ (x.owner ≠ 7 → x.owner = id → bufReleaseAt (some k) p b id unit s = bufFree p b x s)
      ∧ (x.owner ≠ 7 → x.owner ≠ id → bufReleaseAt (some k) p b id unit s = badFree p b id x.owner 2 unit s) := by
  rw [bufReleaseAt_of_used hbuf hused hsince]
  refine ⟨?holder, ?lastHolder, ?owner, ?other⟩
  case holder =>
    intro hshared hmany
    rw [if_pos hshared, if_neg (Nat.not_le.2 hmany)]
  case lastHolder =>
    intro hshared hlast
    rw [if_pos hshared, if_pos hlast]
  case owner =>
    intro hown hid
    rw [if_neg hown, if_pos hid]
  case other =>
    intro hown hid
    rw [if_neg hown, if_neg hid]

end

/-! ### Queue and scheduler events (R254, R256, R261, R266 to R269) -/

section
variable {t : Nat} {s : State}

/-- The first packet of a client that waits is answered with the fenced indication where the pool manager is fenced, and enqueued
otherwise (R22, R261). -/
theorem execQueueEnqueue_of_waiting {client : Nat} {egress : Bool} {k : Pkt}
    (hfirst : (waitingAt egress (s.atTime t))[(waitingAt egress (s.atTime t)).findIdx fun k => k.ready && k.owner == client]? = some k) :
    execQueueEnqueue t client egress s =
      if fenced (s.atTime t) 60 then .next (fencedReq (40 + servingSlice (s.atTime t) k.md.queue) 0 (s.atTime t))
      else .next (enqueuePkt egress k (setWaiting egress ((waitingAt egress (s.atTime t)).eraseIdx
        ((waitingAt egress (s.atTime t)).findIdx fun k => k.ready && k.owner == client)) (s.atTime t))) := by
  simp only [execQueueEnqueue, hfirst]

/-- A port that is held, of a unit that may not drive its lines or of a fenced scheduler selects nothing (R254, R387). -/
theorem execSchedulerSelect_of_barred {port : Nat} (hbarred : portHeld (dropTooLongs port (s.atTime t)) port = true
      ∨ mayDrive (dropTooLongs port (s.atTime t)) = false ∨ fenced (dropTooLongs port (s.atTime t)) (56 + port / 16) = true) :
    execSchedulerSelect t port s = .next (refreshPort port (dropTooLongs port (s.atTime t))) :=
  if_pos (by simpa [or_assoc] using hbarred)

/-- What a port that may select does in state v, its lists in line with the clock: it serves the queue that it chooses, if any
(R254, R256, R291). -/
def portServed (port : Nat) (v : State) : State :=
  match portChoice port (nowLin v) v with
  | some (q, co, w) => selectPkt port q co (noteSelection port (topBand w q) (if topBand w q then w else countDeferral port w))
  | none => refreshPort port (countDeferral port v)

/-- A port that nothing bars brings its lists in line with the clock before it selects (R254, R256). -/
theorem execSchedulerSelect_of_free {port : Nat} (hfree : portHeld (dropTooLongs port (s.atTime t)) port = false)
    (hdrive : mayDrive (dropTooLongs port (s.atTime t)) = true)
    (hclear : fenced (dropTooLongs port (s.atTime t)) (56 + port / 16) = false) :
    execSchedulerSelect t port s = .next (portServed port
      (refreshSelect port (nowLin (dropTooLongs port (s.atTime t))) (dropTooLongs port (s.atTime t)))) := by
  have hopen : ¬ (portHeld (dropTooLongs port (s.atTime t)) port || !mayDrive (dropTooLongs port (s.atTime t))
      || fenced (dropTooLongs port (s.atTime t)) (56 + port / 16)) = true := by
    rw [hfree, hdrive, hclear]
    decide
  refine (if_neg hopen).trans ?_
  rw [portServed]
  cases portChoice port _ _ with
  | some choice => rfl
  | none => rfl

theorem execShaperRecovered_of_port {h p : Nat} (hport : portOfNode (s.atTime t) h = some p) :
    execShaperRecovered t h s = .next (refreshPort p (s.atTime t)) := by
  simp only [execShaperRecovered, hport]

/-- The state in which a sampler's visit has averaged the depth of queue q, found as x, and sampled its depth and delay
(R267 to R269). -/
def visitSampled (q : Nat) (x : Queue) (u : State) : State :=
  let v := queueSettled q u
  let w := match x.cfg.wred.findSome? fun i => tget v.td.wred i with
    | some w => modQueue q (fun y => { y with avg := avgNext y.avg x.depth w.w }) v
    | none => v
  sampleQueue q x.depth (match x.pkts with | k :: _ => delayOf v k | [] => 0) w

/-- What a visit leaves of state r, in which the age limit has discarded n packets of queue q, found as x (R266). -/
def visitAged (q : Nat) (x : Queue) (n : Nat) (r : State) : State :=
  if n = 0 then r
  else queueChanged q (if x.cfg.det then raise 0x0A 5 (sliceUnit r q) (pay [(handle 0xA0 q, 4), (n, 4)]) r else r)

/-- The visit of a queue samples it and then discards the packets past its age limit (R266 to R269). -/
theorem execSamplerVisit_of_queue {q : Nat} {x : Queue} (hqueue : tget (s.atTime t).td.queues q = some x) :
    execSamplerVisit t q s =
      (let aged := ageDrops q (min 4096 x.pkts.length) (visitSampled q x (s.atTime t))
       .next (visitAged q x aged.1 aged.2)) := by
  simp only [execSamplerVisit, hqueue]
  exact (apply_ite Host.Outcome.next ((ageDrops q (min 4096 x.pkts.length) (visitSampled q x (s.atTime t))).1 = 0) _ _).symm

end

/-- Settles O55: the reference unit's clauses by its laws, and event by event, where the clause's conditions choose its branch. -/
theorem trafficEventsComplete : Obligations.TrafficEventsComplete := by
  unfold Obligations.TrafficEventsComplete
  refine ⟨fun _ _ => happens_of_exec fun _ _ => rfl, fun _ _ _ _ => happens_of_exec fun _ _ => rfl,
    fun _ _ _ => happens_of_exec fun _ _ => rfl, fun _ _ _ _ _ _ _ => refSettle_single, fun _ _ _ _ _ _ _ => refSettle_single,
    fun _ _ _ _ _ _ _ => bufReleaseAt_cases, ?fenced, ?enqueued, fun _ _ _ => execSchedulerSelect_of_barred, ?served, ?unserved,
    fun _ _ _ _ => execShaperRecovered_of_port, fun _ _ _ _ => execSamplerVisit_of_queue⟩
  case fenced =>
    rintro client egress i k t s ⟨hfence, rfl, hfirst⟩
    exact (execQueueEnqueue_of_waiting hfirst).trans (if_pos hfence)
  case enqueued =>
    rintro client egress i k t s ⟨hclear, rfl, hfirst⟩
    exact (execQueueEnqueue_of_waiting hfirst).trans (if_neg (ne_true_of_eq_false hclear))
  case served =>
    rintro port v q co w t s ⟨hfree, hdrive, hclear, rfl, hchoice⟩
    refine (execSchedulerSelect_of_free hfree hdrive hclear).trans ?_
    rw [portServed, hchoice]
  case unserved =>
    rintro port v t s ⟨hfree, hdrive, hclear, rfl, hchoice⟩
    refine (execSchedulerSelect_of_free hfree hdrive hclear).trans ?_
    rw [portServed, hchoice]

end Sys2Proof.Machine
end

section
/-! Proofs of the statements on the queues and the scheduler (spec/09_queues_scheduling.md): QUEUE and VOQ commands, and NODE, WRED,
SAMPLER and SCHED commands. -/

namespace Sys2Proof.Machine

open Sys2Proof

/-! ### VOQ space and VOQ sets (R243, R245, R246, R271) -/

/-- QUEUE.SPACE_SET of a boundary between sets of eight that no queue lies on the way to (R243). -/
theorem actQueueSpaceSet_of_clear {x : Ctx} {q : List Word} {u : State} (haligned : fld q 0 18 0 % 8 = 0)
    (hmost : fld q 0 18 0 ≤ 262144)
    (hclear : queuesIn u (min (fld q 0 18 0) u.td.v) (max (fld q 0 18 0) u.td.v) = false) :
    actQueueSpaceSet x q u = done (modTd (fun t => { t with v := fld q 0 18 0 }) u) := by
  have hallowed : ¬ (fld q 0 18 0 % 8 ≠ 0 ∨ 262144 < fld q 0 18 0
      ∨ queuesIn u (min (fld q 0 18 0) u.td.v) (max (fld q 0 18 0) u.td.v) = true) := by
    simp [haligned, hmost, hclear]
  exact if_neg hallowed

/-- VOQ.CREATE of a set of eight below V, free and not reserved, for a destination that has no set (R245, R246). -/
theorem actVoqCreate_of_free {x : Ctx} {q : List Word} {u : State} (haligned : fld q 1 19 0 % 8 = 0)
    (hbelow : fld q 1 19 0 + 8 ≤ u.td.v)
    (hfree : thas u.td.sets (fld q 1 19 0 / 8) = false) (hdest : setOf u.td.sets (fld q 0 15 0) = none)
    (hopen : (reservedIdx u 0xA7).contains (fld q 1 19 0 / 8) = false) :
    actVoqCreate x q u = created (handle 0xA7 (fld q 1 19 0 / 8)) (modTd (fun t => { t with
        sets := tset t.sets (fld q 1 19 0 / 8) { dsp := fld q 0 15 0, mask := fld q 2 7 0 }
        queues := (List.range 8).foldl (fun qs c => tset qs (fld q 1 19 0 + c) { cfg := { det := bit (fld q 2 7 0) c } }) t.queues })
      ((List.range 8).foldl (fun s c => newQueueCtrs (fld q 1 19 0 + c) s) u)) := by
  have hallowed : ¬ (fld q 1 19 0 % 8 ≠ 0 ∨ u.td.v < fld q 1 19 0 + 8 ∨ thas u.td.sets (fld q 1 19 0 / 8) = true
      ∨ (setOf u.td.sets (fld q 0 15 0)).isSome = true
      ∨ (x.ph ≠ .commit ∧ (reservedIdx u 0xA7).contains (fld q 1 19 0 / 8) = true)) := by
    simp only [haligned, Nat.not_lt.2 hbelow, hfree, hdest, hopen, Option.isSome_none, Bool.false_eq_true, ne_eq, not_true_eq_false,
      and_false, or_self, not_false_eq_true]
  exact if_neg hallowed

/-- A direct VOQ.DELETE of a set whose queues are empty (R271). -/
theorem actVoqDelete_direct {x : Ctx} {q : List Word} {u : State} (hph : x.ph = .direct) (hty : hType (wd q 0) = 0xA7)
    (hexists : objExists u (wd q 0) = true)
    (hempty : ∀ c < 8, ∀ y, tget u.td.queues (8 * hIdx (wd q 0) + c) = some y → y.pkts = []) :
    actVoqDelete x q u = done (modTd (fun t => { t with
      sets := terase t.sets (hIdx (wd q 0))
      queues := (List.range 8).foldl (fun qs c => terase qs (8 * hIdx (wd q 0) + c)) t.queues }) u) := by
  have hdirect : x.ph ≠ .stage := by simp [hph]
  refine (if_neg (handle_named hty hexists)).trans ((if_neg hdirect).trans (if_neg fun hany => ?_))
  obtain ⟨c, hc, hholds⟩ := List.any_eq_true.1 hany
  cases hqueue : tget u.td.queues (8 * hIdx (wd q 0) + c) with
  | none => simp [hqueue] at hholds
  | some y => simp [hqueue, hempty c (List.mem_range.1 hc) y hqueue] at hholds

/-! ### Egress queues (R249 to R253, R270, R271, R273) -/

/-- The settings of an egress queue that a QUEUE.CREATE or QUEUE.SET request asks for are in the ranges of Table 9-3, keep R251 and name
WRED profiles that exist. -/
structure EgressSettings (q : List Word) (u : State) : Prop where
  place : schedRangeOk q = true
  range : queueRangeOk (queueIn q) = true
  kind : queueKindOk (queueIn q) q = true
  wred : wredKnown u (queueIn q) = true

/-- A request that names no parent, or one that takes the queue, meets no refusal of a parent (R249 to R251). -/
theorem parentRefusal_none {a : Nat} {r : Option Nat} (hparent : a = 0 ∨ r = none) : (if a = 0 then none else r) = none := by
  obtain hnone | htaken := hparent
  · exact if_pos hnone
  · rw [htaken, ite_self]

/-- A direct QUEUE.CREATE above V, of an index that is free and not reserved, under no parent or one that takes the queue
(R249 to R251). -/
theorem actQueueCreate_direct {x : Ctx} {q : List Word} {u : State} (hph : x.ph = .direct) (habove : u.td.v ≤ fld q 0 19 0)
    (hfree : thas u.td.queues (fld q 0 19 0) = false) (hopen : (reservedIdx u 0xA0).contains (fld q 0 19 0) = false)
    (hsettings : EgressSettings q u)
    (hparent : hwd q 1 = 0 ∨ parentRefuses u (hwd q 1) 4 (fld q 2 2 0) (queueIn q).det none = none) :
    actQueueCreate x q u = created (handle 0xA0 (fld q 0 19 0)) (newQueueCtrs (fld q 0 19 0) (modTd (fun t => { t with
      queues := tset t.queues (fld q 0 19 0) { cfg := queueIn q, sch := schedIn q (nowLin u) } }) u)) := by
  obtain ⟨hplace, hrange, hkind, hwred⟩ := hsettings
  have hallowed : ¬ (fld q 0 19 0 < u.td.v ∨ thas u.td.queues (fld q 0 19 0) = true ∨ (!schedRangeOk q) = true
      ∨ (!queueRangeOk (queueIn q)) = true ∨ (!queueKindOk (queueIn q) q) = true
      ∨ (x.ph ≠ .commit ∧ (reservedIdx u 0xA0).contains (fld q 0 19 0) = true)) := by
    simp only [Nat.not_lt.2 habove, hfree, hplace, hrange, hkind, hopen, Bool.not_true, Bool.false_eq_true, and_false, or_self,
      not_false_eq_true]
  have hknown : ¬ (x.ph ≠ .stage ∧ (!wredKnown u (queueIn q)) = true) := by simp [hwred]
  have hdirect : ¬ (hwd q 1 ≠ 0 ∧ x.ph = .stage ∧ x.reservedHere u (hwd q 1) = true) := by simp [hph]
  refine (if_neg hallowed).trans ((if_neg hdirect).trans ((if_neg hknown).trans ?_))
  rw [parentRefusal_none hparent]

/-- A direct QUEUE.SET of an egress queue waits for the tide boundary; its kind changes only while it is empty (R270). -/
theorem actQueueSet_egress {x : Ctx} {q : List Word} {u : State} {i : Nat} {y : Queue} (hph : x.ph = .direct)
    (hqueue : queueAt u (wd q 0) = some (i, y)) (habove : u.td.v ≤ i) (hsettings : EgressSettings q u)
    (hkeeps : (queueIn q).det = y.cfg.det ∨ y.pkts = [])
    (hparent : hwd q 1 = 0 ∨ parentRefuses u (wd q 1) 4 (fld q 2 2 0) (queueIn q).det (portOfQueue u i) = none) :
    actQueueSet x q u = done (modQueue i (fun z => { z with pend := some (queueIn q, schedIn q (nowLin u)) }) u) := by
  obtain ⟨hplace, hrange, hkind, hwred⟩ := hsettings
  have hallowed : ¬ (!schedRangeOk q || !queueRangeOk (queueIn q) || !queueKindOk (queueIn q) q) = true := by
    simp [hplace, hrange, hkind]
  have hstands : ¬ (!wredKnown u (queueIn q) || ((queueIn q).det != y.cfg.det && !y.pkts.isEmpty)) = true := by
    obtain hsame | hempty := hkeeps
    · simp [hwred, hsame]
    · simp [hwred, hempty]
  rw [actQueueSet, hqueue, hph]
  refine (if_neg (Nat.not_lt.2 habove)).trans ((if_neg hallowed).trans ((if_neg hstands).trans ?_))
  rw [parentRefusal_none hparent]
  rfl

/-- The settings that QUEUE.SET gives a VOQ, found as y: its kind stays (R270). -/
def voqSettings (q : List Word) (y : Queue) : QueueCfg := { queueIn q with det := y.cfg.det }

/-- A direct QUEUE.SET of a VOQ, with words 1 to 8 zero and no WRED profile for a deterministic one, waits for the tide boundary
(R251, R270). -/
theorem actQueueSet_voq {x : Ctx} {q : List Word} {u : State} {i : Nat} {y : Queue} (hph : x.ph = .direct)
    (hqueue : queueAt u (wd q 0) = some (i, y)) (hbelow : i < u.td.v) (hzero : ∀ j < 8, wd q (j + 1) = 0)
    (hrange : queueRangeOk (voqSettings q y) = true) (hplain : y.cfg.det = true → ∀ w ∈ (queueIn q).wred, w = 0)
    (hwred : wredKnown u (voqSettings q y) = true) :
    actQueueSet x q u = done (modQueue i (fun z => { z with pend := some (voqSettings q y, z.sch) }) u) := by
  have hwords : (List.range 8).any (fun j => wd q (j + 1) != 0) = false := by simpa using hzero
  have hkind : (y.cfg.det && (queueIn q).wred.any fun w => w != 0) = false := by
    cases hdet : y.cfg.det with
    | false => rfl
    | true => simpa using hplain hdet
  have hallowed : ¬ ((List.range 8).any (fun j => wd q (j + 1) != 0) || !queueRangeOk (voqSettings q y)
      || (y.cfg.det && (queueIn q).wred.any fun w => w != 0)) = true := by
    rw [hwords, hrange, hkind]
    decide
  have hknown : ¬ (!wredKnown u (voqSettings q y)) = true := by simp [hwred]
  rw [actQueueSet, hqueue, hph]
  exact (if_pos hbelow).trans ((if_neg hallowed).trans (if_neg hknown))

/-- A direct QUEUE.DELETE of an egress queue that is empty and has no parent (R271). -/
theorem actQueueDelete_direct {x : Ctx} {q : List Word} {u : State} {i : Nat} {y : Queue} (hph : x.ph = .direct)
    (hqueue : queueAt u (wd q 0) = some (i, y)) (habove : u.td.v ≤ i) (hempty : y.pkts = []) (hloose : y.sch.parent = 0) :
    actQueueDelete x q u = done (modTd (fun t => { t with queues := terase t.queues i }) u) := by
  have hallowed : ¬ (!y.pkts.isEmpty || y.sch.parent != 0) = true := by simp [hempty, hloose]
  rw [actQueueDelete, hqueue, hph]
  exact (if_neg (Nat.not_lt.2 habove)).trans (if_neg hallowed)

/-- QUEUE.FLUSH answers how many packets it dropped of the queue (R271). -/
theorem actQueueFlush_of_queue {x : Ctx} {q : List Word} {u : State} {i : Nat} {y : Queue}
    (hqueue : queueAt u (wd q 0) = some (i, y)) :
    actQueueFlush x q u = reply [toWord (queueFlushAll i 8 (queueSettled i u)).1]
      (queueChanged i (queueFlushAll i 8 (queueSettled i u)).2) := by
  rw [actQueueFlush, hqueue]

/-- What QUEUE.STATUS shows of the scheduling of queue i, whose handle is h: eligible and committed, both false of a VOQ and of a queue
under no port (R253, Table 9-5). -/
def queueShown (u : State) (i h : Nat) : Bool × Bool :=
  match if u.td.v ≤ i then portOfQueue u i else none with
  | some p => (eligible u p (nowLin u) 5 h, committed u p (nowLin u) h)
  | none => (false, false)

/-- The words that QUEUE.STATUS answers of queue i, whose handle is h, found as y (Table 9-5). -/
def queueStatusWords (u : State) (i h : Nat) (y : Queue) : List Word :=
  toWords y.depth 2 ++ toWords (unsigned 64 y.avg) 2
    ++ [toWord y.pkts.length,
      toWord (b2n (queueShown u i h).1 + 2 * b2n (queueShown u i h).2 + 4 * b2n y.depthFlag + 8 * b2n y.delayFlag)]
    ++ toWords y.sch.min.rate 2 ++ toWords y.sch.max.rate 2
    ++ [tokenWord y.sch.min (nowLin u), tokenWord y.sch.max (nowLin u), toWord y.sch.deficit]

theorem actQueueStatus_of_queue {x : Ctx} {q : List Word} {u : State} {i : Nat} {y : Queue}
    (hqueue : queueAt u (wd q 0) = some (i, y)) : actQueueStatus x q u = reply (queueStatusWords u i (wd q 0) y) u := by
  rw [actQueueStatus, hqueue]
  rfl

theorem actQueueCounters_of_queue {x : Ctx} {q : List Word} {u : State} {i : Nat} {y : Queue}
    (hqueue : queueAt u (wd q 0) = some (i, y)) :
    actQueueCounters x q u =
      reply (ctrWords u.ctr 3 i (List.range 10)) (if flag q 1 0 then ctrClear 3 i (List.range 10) u else u) := by
  rw [actQueueCounters, hqueue]

/-- Settles O30: each row runs its command, and the command's own meaning answers OK under the clause's conditions. -/
theorem queueCommandsComplete : Obligations.QueueCommandsComplete := by
  unfold Obligations.QueueCommandsComplete
  exact ⟨runs_of_act (.inl rfl) (fun _ _ _ => rfl) fun c _ _ ⟨haligned, hmost, hclear⟩ =>
      actQueueSpaceSet_of_clear (x := directCtx c) haligned hmost hclear,
    runs_of_act (.inl rfl) (fun _ _ _ => rfl) fun c _ _ ⟨haligned, hbelow, hfree, hdest, hopen⟩ =>
      actVoqCreate_of_free (x := directCtx c) haligned hbelow hfree hdest hopen,
    runs_of_act (.inl rfl) (fun _ _ _ => rfl) fun c _ _ ⟨hty, hexists, hempty⟩ =>
      actVoqDelete_direct (x := directCtx c) rfl hty hexists hempty,
    runs_of_act (.inl rfl) (fun _ _ _ => rfl) fun c _ _ ⟨habove, hfree, hplace, hrange, hkind, hopen, hwred, hparent⟩ =>
      actQueueCreate_direct (x := directCtx c) rfl habove hfree hopen ⟨hplace, hrange, hkind, hwred⟩ hparent,
    fun _ _ => runs_of_act (.inl rfl) (fun _ _ _ => rfl)
      fun c _ _ ⟨hqueue, habove, hplace, hrange, hkind, hwred, hkeeps, hparent⟩ =>
        actQueueSet_egress (x := directCtx c) rfl hqueue habove ⟨hplace, hrange, hkind, hwred⟩ hkeeps hparent,
    fun _ _ => runs_of_act (.inl rfl) (fun _ _ _ => rfl) fun c _ _ ⟨hqueue, hbelow, hzero, hrange, hplain, hwred⟩ =>
      actQueueSet_voq (x := directCtx c) rfl hqueue hbelow hzero hrange hplain hwred,
    fun _ _ => runs_of_act (.inl rfl) (fun _ _ _ => rfl) fun c _ _ ⟨hqueue, habove, hempty, hloose⟩ =>
      actQueueDelete_direct (x := directCtx c) rfl hqueue habove hempty hloose,
    fun _ _ => runs_of_act (.inl rfl) (fun _ _ _ => rfl) fun c _ _ hqueue => actQueueFlush_of_queue (x := directCtx c) hqueue,
    fun _ _ => runs_of_act (.inl rfl) (fun _ _ _ => rfl) fun c _ _ hqueue => actQueueStatus_of_queue (x := directCtx c) hqueue,
    fun _ _ => runs_of_act (.inl rfl) (fun _ _ _ => rfl) fun c _ _ hqueue => actQueueCounters_of_queue (x := directCtx c) hqueue⟩

/-! ### Scheduler nodes (R249 to R252, R258, R270) -/

/-- A direct NODE.CREATE under a node that takes it, while its level has room in the port's quarter, under the lowest free index
(R249, Table 9-3). -/
theorem actNodeCreate_direct {x : Ctx} {q : List Word} {u : State} {n : Node} {i : Nat} (hph : x.ph = .direct)
    (hlevel : fld q 0 1 0 ≠ 0) (hrange : schedRangeOk q = true) (hnamed : hwd q 1 ≠ 0)
    (hparent : parentRefuses u (hwd q 1) (fld q 0 1 0) (fld q 2 2 0) false none = none) (hnode : tget u.td.nodes (hwd q 1) = some n)
    (hroom : quarterCount u (fld q 0 1 0) n.port < [0, 1024, 16384, 65536].getD (fld q 0 1 0) 0)
    (hidx : nodeIdx u (fld q 0 1 0) (reservedIdx u (levelType (fld q 0 1 0))) = some i) :
    actNodeCreate x q u = created (handle (levelType (fld q 0 1 0)) i) (modTd (fun t => { t with
      nodes := tset t.nodes (handle (levelType (fld q 0 1 0)) i)
        { level := fld q 0 1 0, port := n.port, sch := schedIn q (nowLin u) } }) u) := by
  have hallowed : ¬ (fld q 0 1 0 = 0 ∨ (!schedRangeOk q) = true) := by simp [hlevel, hrange]
  have hfits : ¬ (true = true ∧ [0, 1024, 16384, 65536].getD (fld q 0 1 0) 0 ≤ quarterCount u (fld q 0 1 0) n.port) :=
    fun hfull => Nat.not_le.2 hroom hfull.2
  rw [actNodeCreate, hph]
  refine (if_neg hallowed).trans ((if_neg hnamed).trans ?_)
  rw [hparent, hnode]
  refine (if_neg hfits).trans ?_
  rw [hidx]
  rfl

/-- The place and shapers that NODE.SET gives node n at time t: a port node keeps its band and quantum (R252). -/
def nodeSettings (q : List Word) (n : Node) (t : Nat) : Sched :=
  if n.level = 0 then { schedIn q t with band := n.sch.band, quantum := n.sch.quantum } else schedIn q t

/-- A direct NODE.SET that nothing refuses waits for the tide boundary (R252, R270). -/
theorem actNodeSet_direct {x : Ctx} {q : List Word} {u : State} {n : Node} (hph : x.ph = .direct)
    (hnode : tget u.td.nodes (wd q 0) = some n) (hshapers : shapersOk q = true) (hquantum : n.level = 0 ∨ fld q 2 18 3 ≠ 0)
    (htaken : nodeSetRefuses u n q = none) :
    actNodeSet x q u =
      done (modTd (fun t => { t with nodePend := tset t.nodePend (wd q 0) (nodeSettings q n (nowLin u)) }) u) := by
  have hallowed : ¬ ((!shapersOk q) = true ∨ (n.level ≠ 0 ∧ fld q 2 18 3 = 0)) := by
    rintro (hrange | ⟨hbelow, hzero⟩)
    · simp only [hshapers, Bool.not_true, Bool.false_eq_true] at hrange
    · exact hquantum.elim hbelow fun hsome => hsome hzero
  rw [actNodeSet, hnode, hph]
  refine (if_neg hallowed).trans ?_
  rw [htaken]
  rfl

/-- A direct NODE.DELETE of a node below the ports that has no child, now or awaited, and that no client or staged command holds
(R250). -/
theorem actNodeDelete_direct {x : Ctx} {q : List Word} {u : State} {n : Node} (hph : x.ph = .direct)
    (hnode : tget u.td.nodes (wd q 0) = some n) (hlevel : n.level ≠ 0) (hclient : n.client = none)
    (hchildless : childrenIn u (wd q 0) = []) (hawaited : awaited u (wd q 0) = false) (hunstaged : stagedRef u (wd q 0) = false) :
    actNodeDelete x q u =
      done (modTd (fun t => { t with nodes := terase t.nodes (wd q 0), nodePend := terase t.nodePend (wd q 0) }) (unlist (wd q 0) u)) := by
  have hallowed : ¬ (n.level = 0 ∨ n.client.isSome = true) := by simp [hlevel, hclient]
  have hunused : ¬ (!(childrenIn u (wd q 0)).isEmpty || awaited u (wd q 0)
      || (Phase.direct == .direct && stagedRef u (wd q 0))) = true := by
    simp [hchildless, hawaited, hunstaged]
  rw [actNodeDelete, hnode, hph]
  exact (if_neg hallowed).trans (if_neg hunused)

/-- Whether a child of node h, which belongs to port p, is eligible in band b (R258). -/
def bandShown (u : State) (h p b : Nat) : Bool :=
  (childrenIn u h).any fun c => inBand u b c && eligible u p (nowLin u) 5 c

/-- The words that NODE.STATUS answers of the node of handle h, found as n (Table 9-5). -/
def nodeStatusWords (u : State) (h : Nat) (n : Node) : List Word :=
  [toWord (childrenIn u h).length, toWord ((List.range 8).foldl (fun a b => a + b2n (bandShown u h n.port b) * 2 ^ b) 0)]
    ++ toWords n.sch.min.rate 2 ++ toWords n.sch.max.rate 2
    ++ [tokenWord n.sch.min (nowLin u), tokenWord n.sch.max (nowLin u), toWord n.sch.deficit]

theorem actNodeStatus_of_node {x : Ctx} {q : List Word} {u : State} {n : Node} (hnode : tget u.td.nodes (wd q 0) = some n) :
    actNodeStatus x q u = reply (nodeStatusWords u (wd q 0) n) u := by
  rw [actNodeStatus, hnode]
  rfl

/-! ### WRED profiles and sampler groups (R263, R268 to R270) -/

/-- The WRED profile of a WRED.PROFILE_SET request (R263). -/
def wredOfRequest (q : List Word) : Wred where
  minT := wd q 1
  maxT := wd q 2
  pmax := fld q 3 8 0
  w := fld q 3 19 16

/-- A direct WRED.PROFILE_SET of a profile other than 0 waits for the tide boundary (R263, R270). -/
theorem actWredProfileSet_direct {x : Ctx} {q : List Word} {u : State} (hph : x.ph = .direct) (hprofile : fld q 0 7 0 ≠ 0)
    (hmarks : wd q 1 < wd q 2) (hpmax : fld q 3 8 0 ≤ 256) :
    actWredProfileSet x q u = done (modTd (fun t => { t with wredPend := tset t.wredPend (fld q 0 7 0) (wredOfRequest q) }) u) := by
  have hallowed : ¬ (fld q 0 7 0 = 0 ∨ wd q 2 ≤ wd q 1 ∨ 256 < fld q 3 8 0) := by omega
  rw [actWredProfileSet, hph]
  exact if_neg hallowed

/-- The sampler group of a SAMPLER.GROUP_SET request (R268, R269). -/
def samplerOfRequest (q : List Word) : Sampler where
  depthBase := fld q 1 15 0
  delayBase := fld q 1 31 16
  depthHigh := wd q 2
  depthClear := wd q 3
  delayHigh := wd q 4
  delayClear := wd q 5

/-- A direct SAMPLER.GROUP_SET with both bases set and no clear mark above its high mark waits for the tide boundary (R268 to R270). -/
theorem actSamplerGroupSet_direct {x : Ctx} {q : List Word} {u : State} (hph : x.ph = .direct) (hdepthBase : fld q 1 15 0 ≠ 0)
    (hdelayBase : fld q 1 31 16 ≠ 0) (hdepth : wd q 3 ≤ wd q 2) (hdelay : wd q 5 ≤ wd q 4) :
    actSamplerGroupSet x q u =
      done (modTd (fun t => { t with samplerPend := tset t.samplerPend (fld q 0 11 0) (samplerOfRequest q) }) u) := by
  have hallowed : ¬ (fld q 1 15 0 = 0 ∨ fld q 1 31 16 = 0 ∨ wd q 2 < wd q 3 ∨ wd q 4 < wd q 5) := by omega
  rw [actSamplerGroupSet, hph]
  exact if_neg hallowed

/-- Settles O31: each row runs its command, and the command's own meaning answers OK under the clause's conditions. -/
theorem schedulerCommandsComplete : Obligations.SchedulerCommandsComplete := by
  unfold Obligations.SchedulerCommandsComplete
  exact ⟨fun _ _ => runs_of_act (.inl rfl) (fun _ _ _ => rfl)
      fun c _ _ ⟨hlevel, hrange, hnamed, hparent, hnode, hroom, hidx⟩ =>
        actNodeCreate_direct (x := directCtx c) rfl hlevel hrange hnamed hparent hnode hroom hidx,
    fun _ => runs_of_act (.inl rfl) (fun _ _ _ => rfl) fun c _ _ ⟨hnode, hshapers, hquantum, htaken⟩ =>
      actNodeSet_direct (x := directCtx c) rfl hnode hshapers hquantum htaken,
    fun _ => runs_of_act (.inl rfl) (fun _ _ _ => rfl) fun c _ _ ⟨hnode, hlevel, hclient, hchildless, hawaited, hunstaged⟩ =>
      actNodeDelete_direct (x := directCtx c) rfl hnode hlevel hclient hchildless hawaited hunstaged,
    fun _ => runs_of_act (.inl rfl) (fun _ _ _ => rfl) fun c _ _ hnode => actNodeStatus_of_node (x := directCtx c) hnode,
    runs_of_act (.inl rfl) (fun _ _ _ => rfl) fun c _ _ ⟨hprofile, hmarks, hpmax⟩ =>
      actWredProfileSet_direct (x := directCtx c) rfl hprofile hmarks hpmax,
    runs_of_act (.inl rfl) (fun _ _ _ => rfl) fun c _ _ ⟨hdepthBase, hdelayBase, hdepth, hdelay⟩ =>
      actSamplerGroupSet_direct (x := directCtx c) rfl hdepthBase hdelayBase hdepth hdelay,
    runs_of_act (.inl rfl) (fun _ _ _ => rfl) fun _ _ _ _ => rfl,
    runs_of_act (.inl rfl) (fun _ _ _ => rfl) fun _ _ _ _ => rfl⟩

end Sys2Proof.Machine
end

section
/-! Proofs of the statements on deterministic service (spec/10_deterministic_service.md): a deadline below the fixed path, STREAM, FRER,
GATE and DET commands, and the events of deterministic traffic. -/

namespace Sys2Proof.Machine

open Sys2Proof

/-! ### What a command leaves whose own meaning refuses it (R445) -/

/-- A ready command whose own meaning answers neither OK nor ACCEPTED completes with what that meaning answers. -/
theorem runCommand_ready_of_refusal {k : Cmd} {c : Call} {q : List Word} {s : State} {st : Nat} {resp : List Word} {v : State}
    (hready : Ready k c q s = true) (hact : k.act (directCtx c) q (accepted k c q s) = ⟨st, resp, v, 0⟩) (hnotOk : st ≠ stOk)
    (hnotAccepted : st ≠ stAccepted) : runCommand k c q s = complete c.mb c.tag st resp v := by
  rw [directCtx] at hact
  rw [runCommand_ready hready, directRun, hact]
  simp only [if_neg (not_or.2 ⟨hnotOk, hnotAccepted⟩)]

/-- A command that its own meaning refuses at staging is not staged, and completes with what that meaning answers (R454). -/
theorem runCommand_staged_of_refusal {k : Cmd} {c : Call} {q : List Word} {s : State} {i : Nat} {x : Txn} {st : Nat} {resp : List Word}
    (hready : stageReady k c q s i x)
    (hact : k.act ⟨.stage, c.mb, c.txn, 0, false⟩ q (taken k c q s) = ⟨st, resp, taken k c q s, 0⟩)
    (hnotOk : st ≠ stOk) : runCommand k c q s = complete c.mb c.tag st resp (taken k c q s) := by
  rw [runCommand_staged hready]
  obtain ⟨-, -, -, -, -, hslot, hlimits⟩ := hready
  simp [stageRun, hslot, hlimits, hact, hnotOk]

/-! ### A deadline below the fixed path (R297, Table 10-6) -/

/-- The block of Table 10-6 that says that a deadline d is below the fixed path of a profile; h is the stream. -/
def fixedPathBlock (u : State) (h d : Nat) : List Word := breakdown stDeadlineUnmet 1 0 0 h (fixedPath u.fwd.profile) d 0 0

/-- Word 0 of the block holds the status and component 1 (Table 10-6). -/
theorem fixedPathBlock_names_component (u : State) (h d : Nat) :
    ∃ w ∈ fixedPathBlock u h d, bits w.toNat 15 0 = stDeadlineUnmet ∧ bits w.toNat 23 16 = 1 :=
  ⟨_, List.mem_cons_self, by decide, by decide⟩

section
variable {x : Ctx} {q : List Word} {u : State}

/-- STREAM.CREATE judges the deadline once settings and handles stand, staged or not; the word of its handle is 0 (R297). -/
theorem actStreamCreate_of_late (hrange : streamRangeOk u q (streamIn q) = true) (hknown : streamKnown x u (streamIn q) = true)
    (hlate : (streamIn q).d < fixedPath u.fwd.profile) :
    actStreamCreate x q u = ⟨stDeadlineUnmet, 0#32 :: fixedPathBlock u 0 (streamIn q).d, u, 0⟩ := by
  rw [actStreamCreate, hrange, hknown]
  exact if_pos hlate

/-- STREAM.SET of a stream, or at staging of a handle that its transaction reserves, judges the deadline so too (R297). -/
theorem actStreamSet_of_late
    (hnamed : (streamAt u (wd q 0)).isSome = true ∨ (x.reservedHere u (wd q 0) = true ∧ hType (wd q 0) = 0xB0))
    (hrange : streamRangeOk u (q.drop 1) (streamIn (q.drop 1)) = true) (hknown : streamKnown x u (streamIn (q.drop 1)) = true)
    (hlate : (streamIn (q.drop 1)).d < fixedPath u.fwd.profile) :
    actStreamSet x q u = ⟨stDeadlineUnmet, fixedPathBlock u (wd q 0) (streamIn (q.drop 1)).d, u, 0⟩ := by
  have hfound : ¬ ((streamAt u (wd q 0)).isNone && !(x.reservedHere u (wd q 0) && hType (wd q 0) == 0xB0)) = true := by
    obtain hstream | ⟨hreserved, hty⟩ := hnamed
    · simp [Option.isSome_iff_ne_none.1 hstream]
    · simp [hreserved, hty]
  rw [actStreamSet, hrange, hknown]
  exact (if_neg hfound).trans (if_pos hlate)

end

/-- Settles O9: the deadline is the check that refuses, direct and staged alike, and the block names component 1. -/
theorem deadlineBelowTheFixedPathIsUnmet : Obligations.DeadlineBelowTheFixedPathIsUnmet := by
  unfold Obligations.DeadlineBelowTheFixedPathIsUnmet
  have hnotOk : stDeadlineUnmet ≠ stOk := by decide
  have hnotAccepted : stDeadlineUnmet ≠ stAccepted := by decide
  have hcreateWord (u : State) (h d : Nat) :
      ∃ w ∈ 0#32 :: fixedPathBlock u h d, bits w.toNat 15 0 = stDeadlineUnmet ∧ bits w.toNat 23 16 = 1 := by
    obtain ⟨w, hmem, hword⟩ := fixedPathBlock_names_component u h d
    exact ⟨w, List.mem_cons_of_mem _ hmem, hword⟩
  refine ⟨?createDirect, ?createStaged, ?setDirect, ?setStaged⟩
  case createDirect =>
    intro c q s hready u hrange hknown hlate
    exact ⟨_, congrArg Host.Outcome.next (runCommand_ready_of_refusal hready
      (actStreamCreate_of_late hrange hknown hlate) hnotOk hnotAccepted), hcreateWord u _ _⟩
  case createStaged =>
    intro c q s i x hready u hrange hknown hlate
    exact ⟨_, congrArg Host.Outcome.next (runCommand_staged_of_refusal hready
      (actStreamCreate_of_late hrange hknown hlate) hnotOk), hcreateWord u _ _⟩
  case setDirect =>
    intro c q s hready u hstream hrange hknown hlate
    exact ⟨_, congrArg Host.Outcome.next (runCommand_ready_of_refusal hready
      (actStreamSet_of_late (.inl hstream) hrange hknown hlate) hnotOk hnotAccepted), fixedPathBlock_names_component u _ _⟩
  case setStaged =>
    intro c q s i x hready u hnamed hrange hknown hlate
    have hnamedHere : (streamAt u (wd q 0)).isSome = true
        ∨ (Ctx.reservedHere ⟨.stage, c.mb, c.txn, 0, false⟩ u (wd q 0) = true ∧ hType (wd q 0) = 0xB0) :=
      hnamed.imp_right fun ⟨hty, hreserved⟩ => ⟨by simpa [Ctx.reservedHere] using hreserved, hty⟩
    exact ⟨_, congrArg Host.Outcome.next (runCommand_staged_of_refusal hready
      (actStreamSet_of_late hnamedHere hrange hknown hlate) hnotOk), fixedPathBlock_names_component u _ _⟩

/-! ### Stream commands (R276, R279, R282, R283, R297, R298, R305, Tables 10-7 and 10-8) -/

/-- A declaration that stands in state u for a stream that is not counted among the users of its recovery context: its handles name a
context, or none, and next hops, its deadline is not below the fixed path, its members lead to their ports, and its context has room
(R276, R279, R297). -/
structure StreamStands (u : State) (c : StreamCfg) (but : Nat) : Prop where
  ctx : c.ctx = 0 ∨ (hType c.ctx = 0xB1 ∧ objExists u c.ctx = true)
  members : ∀ m ∈ c.members, hType m.nh = 0x60 ∧ objExists u m.nh = true
  deadline : fixedPath u.fwd.profile ≤ c.d
  paths : streamPathsOk u c = true
  room : c.ctx = 0 ∨ ctxUsers u c.ctx but < 16

theorem StreamStands.known {x : Ctx} {u : State} {c : StreamCfg} {but : Nat} (hstands : StreamStands u c but) :
    streamKnown x u c = true := by
  have hctx : (c.ctx == 0 || (hType c.ctx == 0xB1 && x.knows u c.ctx)) = true := by
    obtain hnone | ⟨hty, hexists⟩ := hstands.ctx
    · simp [hnone]
    · simp [hty, knows_of_objExists hexists]
  have hmembers : c.members.all (fun m => hType m.nh == 0x60 && x.knows u m.nh) = true := by
    rw [List.all_eq_true]
    intro m hm
    obtain ⟨hty, hexists⟩ := hstands.members m hm
    simp [hty, knows_of_objExists hexists]
  rw [streamKnown, hctx, hmembers, Bool.true_and]

theorem StreamStands.not_late {u : State} {c : StreamCfg} {but : Nat} (hstands : StreamStands u c but) :
    ¬ c.d < fixedPath u.fwd.profile := Nat.not_lt.2 hstands.deadline

theorem StreamStands.not_refused {u : State} {c : StreamCfg} {but : Nat} (hstands : StreamStands u c but) :
    ¬ (!streamPathsOk u c || (c.ctx != 0 && decide (16 ≤ ctxUsers u c.ctx but))) = true := by
  obtain hnone | hroom := hstands.room
  · simp [hstands.paths, hnone]
  · simp [hstands.paths, hroom]

theorem objExists_of_queue {u : State} {h : Nat} {y : Queue} (hty : hType h = 0xA0) (hqueue : tget u.td.queues (hIdx h) = some y) :
    objExists u h = true := by
  simp [objExists, hty, thas, hqueue]

section
variable {x : Ctx} {q : List Word} {u : State} {i : Nat}

/-- A declared stream before the tide boundary at which it becomes live (Table 10-7). -/
def streamDeclared (c : StreamCfg) : Stream where
  cfg := c
  seq := c.init
  live := false
  pend := some c

/-- A direct STREAM.CREATE of a declaration that stands, under the lowest free index (R276, R279). -/
theorem actStreamCreate_direct (hph : x.ph = .direct) (hrange : streamRangeOk u q (streamIn q) = true)
    (hstands : StreamStands u (streamIn q) 0x1000000) (hroom : detObjects u < 262144)
    (hidx : lowestFreeBut u.det.streams (reservedIdx u 0xB0) 262144 = some i) :
    actStreamCreate x q u = created (handle 0xB0 i) (ctrClear 4 i (List.range 6)
      (modDet (fun d => { d with streams := tset d.streams i (streamDeclared (streamIn q)) }) u)) := by
  rw [actStreamCreate, hrange, hstands.known, newIdx_direct hph, hidx, hph]
  exact (if_neg hstands.not_late).trans ((if_neg fun hrefused => hstands.not_refused hrefused.2).trans (if_neg (Nat.not_le.2 hroom)))

/-- A direct STREAM.SET to a declaration that stands waits for the tide boundary (R283). -/
theorem actStreamSet_direct {y : Stream} (hph : x.ph = .direct) (hstream : streamAt u (wd q 0) = some (i, y))
    (hrange : streamRangeOk u (q.drop 1) (streamIn (q.drop 1)) = true) (hstands : StreamStands u (streamIn (q.drop 1)) i) :
    actStreamSet x q u =
      done (modDet (fun d => { d with streams := tset d.streams i { y with pend := some (streamIn (q.drop 1)) } }) u) := by
  rw [actStreamSet, hstream, hrange, hstands.known, hph]
  exact (if_neg hstands.not_late).trans (if_neg hstands.not_refused)

/-- A direct STREAM.DELETE of a stream that no action record and no staged command names (R276, R454). -/
theorem actStreamDelete_direct {y : Stream} (hph : x.ph = .direct) (hstream : streamAt u (wd q 0) = some (i, y))
    (huntargeted : actionTargets u (wd q 0) = false) (hunstaged : stagedRef u (wd q 0) = false) :
    actStreamDelete x q u = done (modDet (fun d => { d with streams := terase d.streams i }) u) := by
  rw [actStreamDelete, hstream, huntargeted, hunstaged, hph]
  rfl

theorem actStreamStatus_of_stream {y : Stream} (hstream : streamAt u (wd q 0) = some (i, y)) :
    actStreamStatus x q u = reply (toWord (b2n y.live) :: ((List.range 4).map fun i => toWord (y.proved.getD i 0))
      ++ [toWord (y.cfg.share (u.twin.st != 0)), toWord y.seq]) u := by
  rw [actStreamStatus, hstream]

theorem actStreamCounters_of_stream {y : Stream} (hstream : streamAt u (wd q 0) = some (i, y)) :
    actStreamCounters x q u =
      reply (ctrWords u.ctr 4 i (List.range 6)) (if flag q 1 0 then ctrClear 4 i (List.range 6) u else u) := by
  rw [actStreamCounters, hstream]

/-- The egress record of a STREAM.EGRESS_CREATE request (Table 10-8). -/
def egressRecIn (q : List Word) : EgressRec where
  port := fld q 0 5 0
  queue := wd q 1
  ltx := fld q 2 13 0
  n := fld q 3 15 0
  i := fld q 4 29 0
  e := fld q 5 23 0

/-- The ranges of Table 10-8 for an egress record. -/
structure EgressRecInRange (r : EgressRec) : Prop where
  ltx : 64 ≤ r.ltx ∧ r.ltx ≤ 16000
  n : r.n ≠ 0
  i : 1000 ≤ r.i ∧ r.i ≤ 1000000000
  e : r.e ≠ 0

theorem EgressRecInRange.not_refused {r : EgressRec} (hrange : EgressRecInRange r) :
    ¬ (r.ltx < 64 ∨ 16000 < r.ltx ∨ r.n = 0 ∨ r.i < 1000 ∨ 1000000000 < r.i ∨ r.e = 0) := by
  obtain ⟨hltx, hn, hi, he⟩ := hrange
  omega

/-- A direct STREAM.EGRESS_CREATE for a deterministic egress queue of the port, under the lowest free index (R282). -/
theorem actStreamEgressCreate_direct {y : Queue} (hph : x.ph = .direct) (hty : hType (wd q 1) = 0xA0)
    (hqueue : tget u.td.queues (hIdx (wd q 1)) = some y) (hdet : y.cfg.det = true) (habove : u.td.v ≤ hIdx (wd q 1))
    (hport : portOfQueue u (hIdx (wd q 1)) = some (fld q 0 5 0)) (hrange : EgressRecInRange (egressRecIn q))
    (hroom : detObjects u < 262144) (hidx : lowestFreeBut u.det.recs (reservedIdx u 0xB2) 262144 = some i) :
    actStreamEgressCreate x q u =
      created (handle 0xB2 i) (modDet (fun d => { d with recs := tset d.recs i (egressRecIn q) }) u) := by
  have hkind : ¬ (!(y.cfg.det && decide (u.td.v ≤ hIdx (wd q 1))
      && portOfQueue u (hIdx (wd q 1)) == some (fld q 0 5 0))) = true := by
    simp [hdet, habove, hport]
  rw [actStreamEgressCreate, newIdx_direct hph, hidx, hqueue]
  exact (if_neg (handle_named hty (objExists_of_queue hty hqueue))).trans ((if_neg hrange.not_refused).trans
    ((if_neg fun hrefused => hkind hrefused.2).trans (if_neg (Nat.not_le.2 hroom))))

/-- A direct STREAM.EGRESS_DELETE of an egress record (R282). -/
theorem actStreamEgressDelete_direct (hph : x.ph = .direct) (hty : hType (wd q 0) = 0xB2)
    (hrec : thas u.det.recs (hIdx (wd q 0)) = true) :
    actStreamEgressDelete x q u = done (modDet (fun d => { d with recs := terase d.recs (hIdx (wd q 0)) }) u) := by
  rw [actStreamEgressDelete, hph]
  exact if_pos ⟨hty, hrec⟩

end

/-- Settles O32: each row runs its command, and the command's own meaning answers OK under the clause's conditions. -/
theorem streamCommandsComplete : Obligations.StreamCommandsComplete := by
  unfold Obligations.StreamCommandsComplete
  exact ⟨fun _ => runs_of_act (.inl rfl) (fun _ _ _ => rfl)
      fun c _ _ ⟨hrange, hctx, hmembers, hdeadline, hpaths, hplaces, hroom, hidx⟩ =>
        actStreamCreate_direct (x := directCtx c) rfl hrange ⟨hctx, hmembers, hdeadline, hpaths, hplaces⟩ hroom hidx,
    fun _ _ => runs_of_act (.inl rfl) (fun _ _ _ => rfl)
      fun c _ _ ⟨hstream, hrange, hctx, hmembers, hdeadline, hpaths, hplaces⟩ =>
        actStreamSet_direct (x := directCtx c) rfl hstream hrange ⟨hctx, hmembers, hdeadline, hpaths, hplaces⟩,
    fun _ _ => runs_of_act (.inl rfl) (fun _ _ _ => rfl) fun c _ _ ⟨hstream, huntargeted, hunstaged⟩ =>
      actStreamDelete_direct (x := directCtx c) rfl hstream huntargeted hunstaged,
    fun _ _ => runs_of_act (.inl rfl) (fun _ _ _ => rfl) fun c _ _ hstream => actStreamStatus_of_stream (x := directCtx c) hstream,
    fun _ _ => runs_of_act (.inl rfl) (fun _ _ _ => rfl) fun c _ _ hstream => actStreamCounters_of_stream (x := directCtx c) hstream,
    fun _ _ => runs_of_act (.inl rfl) (fun _ _ _ => rfl)
      fun c _ _ ⟨hty, hqueue, hdet, habove, hport, hltxLow, hltxHigh, hn, hiLow, hiHigh, he, hroom, hidx⟩ =>
        actStreamEgressCreate_direct (x := directCtx c) rfl hty hqueue hdet habove hport
          ⟨⟨hltxLow, hltxHigh⟩, hn, ⟨hiLow, hiHigh⟩, he⟩ hroom hidx,
    runs_of_act (.inl rfl) (fun _ _ _ => rfl) fun c _ _ ⟨hty, hrec⟩ =>
      actStreamEgressDelete_direct (x := directCtx c) rfl hty hrec⟩

/-! ### Recovery commands (R284 to R286, R305, Tables 10-1 and 10-8) -/

section
variable {x : Ctx} {q : List Word} {u : State} {i : Nat} {y : Frer}

/-- A direct FRER.CREATE of settings in range, under the lowest free index (R284, R285). -/
theorem actFrerCreate_direct (hph : x.ph = .direct) (hrange : frerOk (frerIn q 0) = true)
    (hidx : lowestFreeBut u.det.frer (reservedIdx u 0xB1) 1048576 = some i) :
    actFrerCreate x q u = created (handle 0xB1 i)
      (ctrClear 5 i (List.range 7) (modDet (fun d => { d with frer := tset d.frer i (frerIn q 0) }) u)) := by
  rw [actFrerCreate, hrange, newIdx_direct hph, hidx]
  rfl

/-- A direct FRER.SET keeps the sequence number and the history, and sets take_any (R284, Table 10-8). -/
theorem actFrerSet_direct (hph : x.ph = .direct) (hctx : frerAt u (wd q 0) = some (i, y)) (hrange : frerOk (frerIn q 1) = true) :
    actFrerSet x q u = done (modDet (fun d => { d with
      frer := tset d.frer i { frerIn q 1 with seq := y.seq, hist := y.hist, any := true } }) u) := by
  rw [actFrerSet, hrange, hctx, hph]
  rfl

/-- Whether a stream names a recovery context, in its declaration or in the one that waits for the tide boundary. -/
def namesCtx (h : Nat) (z : Stream) : Bool :=
  z.cfg.ctx == h || (match z.pend with | some c => c.ctx == h | none => false)

theorem namesCtx_eq_false {h : Nat} {z : Stream} (hcfg : z.cfg.ctx ≠ h) (hpend : ∀ c, z.pend = some c → c.ctx ≠ h) :
    namesCtx h z = false := by
  cases hwaiting : z.pend with
  | none => simp [namesCtx, hwaiting, hcfg]
  | some c => simp [namesCtx, hwaiting, hcfg, hpend c hwaiting]

/-- A direct FRER.DELETE of a context that no stream and no staged command names (R284, R454). -/
theorem actFrerDelete_direct (hph : x.ph = .direct) (hctx : frerAt u (wd q 0) = some (i, y)) (hunstaged : stagedRef u (wd q 0) = false)
    (hunnamed : ∀ e ∈ u.det.streams, e.2.cfg.ctx ≠ wd q 0 ∧ ∀ c, e.2.pend = some c → c.ctx ≠ wd q 0) :
    actFrerDelete x q u = done (modDet (fun d => { d with frer := terase d.frer i }) u) := by
  have hnone : u.det.streams.any (fun e => namesCtx (wd q 0) e.2) = false :=
    List.any_eq_false.2 fun e he => ne_true_of_eq_false (namesCtx_eq_false (hunnamed e he).1 (hunnamed e he).2)
  have hfree : ¬ (u.det.streams.any (fun e => namesCtx (wd q 0) e.2) || (Phase.direct == .direct && stagedRef u (wd q 0))) = true := by
    rw [hnone, hunstaged]
    decide
  rw [actFrerDelete, hctx, hph]
  exact if_neg hfree

theorem actFrerStatus_of_ctx (hctx : frerAt u (wd q 0) = some (i, y)) :
    actFrerStatus x q u = reply (toWord (y.seq + b2n y.any * 2 ^ 16) :: toWords y.hist 2) u := by
  rw [actFrerStatus, hctx]

theorem actFrerCounters_of_ctx (hctx : frerAt u (wd q 0) = some (i, y)) :
    actFrerCounters x q u =
      reply (ctrWords u.ctr 5 i (List.range 7)) (if flag q 1 0 then ctrClear 5 i (List.range 7) u else u) := by
  rw [actFrerCounters, hctx]

theorem actFrerReset_of_ctx (hctx : frerAt u (wd q 0) = some (i, y)) :
    actFrerReset x q u = done (modDet (fun d => { d with frer := tset d.frer i { y with any := true } }) u) := by
  rw [actFrerReset, hctx]

end

/-- Settles O33: each row runs its command, and the command's own meaning answers OK under the clause's conditions. -/
theorem recoveryCommandsComplete : Obligations.RecoveryCommandsComplete := by
  unfold Obligations.RecoveryCommandsComplete
  exact ⟨fun _ => runs_of_act (.inl rfl) (fun _ _ _ => rfl) fun c _ _ ⟨hrange, hidx⟩ =>
      actFrerCreate_direct (x := directCtx c) rfl hrange hidx,
    fun _ _ => runs_of_act (.inl rfl) (fun _ _ _ => rfl) fun c _ _ ⟨hctx, hrange⟩ =>
      actFrerSet_direct (x := directCtx c) rfl hctx hrange,
    fun _ _ => runs_of_act (.inl rfl) (fun _ _ _ => rfl) fun c _ _ ⟨hctx, hunstaged, hunnamed⟩ =>
      actFrerDelete_direct (x := directCtx c) rfl hctx hunstaged hunnamed,
    fun _ _ => runs_of_act (.inl rfl) (fun _ _ _ => rfl) fun c _ _ hctx => actFrerStatus_of_ctx (x := directCtx c) hctx,
    fun _ _ => runs_of_act (.inl rfl) (fun _ _ _ => rfl) fun c _ _ hctx => actFrerCounters_of_ctx (x := directCtx c) hctx,
    fun _ _ => runs_of_act (.inl rfl) (fun _ _ _ => rfl) fun c _ _ hctx => actFrerReset_of_ctx (x := directCtx c) hctx⟩

/-! ### Gate commands (R287, R293) -/

section
variable {x : Ctx} {q : List Word} {u : State}

theorem gatePortKnown_of_objExists {h : Nat} (hty : hType h = 0x30) (hexists : objExists u h = true) : gatePortKnown x u h = true := by
  simp [gatePortKnown, hty, knows_of_objExists hexists]

/-- A direct list whose takeover time t can be told, and which is its base where the list is strict, awaits the tide boundary (R293). -/
theorem gateSet_direct {l : GateList} {t : Nat} (hph : x.ph = .direct)
    (htime : t = gateTakeover (u.det.gates.getD (hIdx (wd q 0)) {}) l ((u.tm.tide + 1) * tideU)) (hwrap : t < tbWrap)
    (hstrict : l.strict = true → t = l.base) :
    gateSet x q l u = reply (gateTimeWords t)
      (modGate (hIdx (wd q 0)) (fun g => { g with next := g.next ++ [{ l with t := t }] }) u) := by
  subst htime
  have htaken : gateRefuses u (hIdx (wd q 0)) ((u.tm.tide + 1) * tideU) l = none :=
    (if_neg fun hpassed => hpassed.2 (hstrict hpassed.1)).trans (if_neg (Nat.not_le.2 hwrap))
  simp only [gateSet, hph, reduceCtorEq, if_false, htaken]

/-- A direct GATE.SET of a list that R287 allows (R293). -/
theorem actGateSet_direct {t : Nat} (hph : x.ph = .direct) (hty : hType (wd q 0) = 0x30) (hexists : objExists u (wd q 0) = true)
    (hlist : gateOkList q (gateIn q) = true)
    (htime : t = gateTakeover (u.det.gates.getD (hIdx (wd q 0)) {}) (gateIn q) ((u.tm.tide + 1) * tideU)) (hwrap : t < tbWrap)
    (hstrict : flag q 1 16 = true → t = (gateIn q).base) :
    actGateSet x q u = reply (gateTimeWords t)
      (modGate (hIdx (wd q 0)) (fun g => { g with next := g.next ++ [{ gateIn q with t := t }] }) u) := by
  rw [actGateSet, gatePortKnown_of_objExists hty hexists, hlist]
  exact gateSet_direct hph htime hwrap hstrict

/-- A direct GATE.CLEAR: its list has no base to keep to (R293). -/
theorem actGateClear_direct {t : Nat} (hph : x.ph = .direct) (hty : hType (wd q 0) = 0x30) (hexists : objExists u (wd q 0) = true)
    (htime : t = gateTakeover (u.det.gates.getD (hIdx (wd q 0)) {}) gateClearList ((u.tm.tide + 1) * tideU)) (hwrap : t < tbWrap) :
    actGateClear x q u = reply (gateTimeWords t)
      (modGate (hIdx (wd q 0)) (fun g => { g with next := g.next ++ [{ gateClearList with t := t }] }) u) := by
  rw [actGateClear, gatePortKnown_of_objExists hty hexists]
  exact gateSet_direct hph htime hwrap fun hstrict => absurd hstrict Bool.false_ne_true

/-- The entry and the cycle of the list that gates g run at time t (R287). -/
def gateEntryAt (g : GatePort) (t : Nat) : Nat × Nat :=
  match g.run with
  | none => (0, 0)
  | some l => if t < l.t then (l.entries.length - 1, 0) else ((l.entryAt ((t - l.t) % (l.cycle * nsU))).1, (t - l.t) / (l.cycle * nsU))

/-- The takeover time of a list in the words of GATE.STATUS, 0 where there is none. -/
def gateListTime (l : Option GateList) : List Word := gateTimeWords (match l with | some l => l.t | none => 0)

/-- The words that GATE.STATUS answers of gates g at time t (Table 10-8). -/
def gateStatusWords (g : GatePort) (t : Nat) : List Word :=
  toWord (b2n g.run.isSome + 2 * b2n g.pend.isSome + (gateEntryAt g t).1 % 512 * 4) :: gateListTime g.run ++ gateListTime g.pend
    ++ [toWord (gateEntryAt g t).2]

theorem actGateStatus_of_port (hty : hType (wd q 0) = 0x30) (hexists : objExists u (wd q 0) = true) :
    actGateStatus x q u = reply (gateStatusWords (u.det.gates.getD (hIdx (wd q 0)) {}) (nowLin u)) u := by
  have hnamed : ¬ (hType (wd q 0) ≠ 0x30 ∨ (!objExists u (wd q 0)) = true) := by simp [hty, hexists]
  rw [actGateStatus]
  exact if_neg hnamed

/-! ### Admission commands (R303 to R306) -/

theorem actDetCheck_of_ok {n : State} {a k : Nat} {b : Tab (List Nat)} (hstate : asCommitted (hwd q 0) u = some n)
    (hverdict : admJudge n = .ok a b k) :
    actDetCheck x q u = reply (breakdown 0 0 0 0 0 0 0 0 k) (admCount false u) := by
  simp only [actDetCheck, hstate, hverdict]

theorem actDetCheck_of_no {n : State} {st : Nat} {block : List Word} (hstate : asCommitted (hwd q 0) u = some n)
    (hverdict : admJudge n = .no st block) : actDetCheck x q u = ⟨st, block, admCount true u, 0⟩ := by
  simp only [actDetCheck, hstate, hverdict]

/-- DET.EXPORT of an admission input that the host's buffer holds (R304). -/
theorem actDetExport_of_room {n : State} (hstate : asCommitted (hwd q 3) u = some n) (hroom : freeVal u % 2 ^ 32 ≤ wd q 2) :
    actDetExport x q u = reply [toWord (freeVal u % 2 ^ 32), 0x0003#32]
      (hostWrite (wd64 q 0) (freeBytes (freeVal u % 2 ^ 32) u.took).1 (freeBytes (freeVal u % 2 ^ 32) u.took).2) := by
  rw [actDetExport, hstate]
  exact if_neg (Nat.not_lt.2 hroom)

end

/-- Settles O34: each row runs its command, and the command's own meaning answers under the clause's conditions what the clause says; a
DET.CHECK that admission refuses completes with the verdict. -/
theorem gateAndAdmissionCommandsComplete : Obligations.GateAndAdmissionCommandsComplete := by
  unfold Obligations.GateAndAdmissionCommandsComplete
  exact ⟨fun _ => runs_of_act (.inl rfl) (fun _ _ _ => rfl) fun c _ _ ⟨hty, hexists, hlist, htime, hwrap, hstrict⟩ =>
      actGateSet_direct (x := directCtx c) rfl hty hexists hlist htime hwrap hstrict,
    fun _ => runs_of_act (.inl rfl) (fun _ _ _ => rfl) fun c _ _ ⟨hty, hexists, htime, hwrap⟩ =>
      actGateClear_direct (x := directCtx c) rfl hty hexists htime hwrap,
    runs_of_act (.inl rfl) (fun _ _ _ => rfl) fun c _ _ ⟨hty, hexists⟩ => actGateStatus_of_port (x := directCtx c) hty hexists,
    fun _ _ _ _ => runs_of_act (.inl rfl) (fun _ _ _ => rfl) fun c _ _ ⟨hstate, hverdict⟩ =>
      actDetCheck_of_ok (x := directCtx c) hstate hverdict,
    fun _ _ _ c _ _ hready hstate hverdict hnotOk hnotAccepted => congrArg Host.Outcome.next
      (runCommand_ready_of_refusal hready (actDetCheck_of_no (x := directCtx c) hstate hverdict) hnotOk hnotAccepted),
    fun _ => runs_of_act (.inl rfl) (fun _ _ _ => rfl) fun c _ _ ⟨hstate, hroom⟩ =>
      actDetExport_of_room (x := directCtx c) hstate hroom,
    runs_of_act (.inl rfl) (fun _ _ _ => rfl) fun _ _ _ _ => rfl⟩

/-! ### Events of deterministic traffic (R280, R286, R293) -/

section
variable {t : Nat} {s : State}

/-- A pending list whose instant has come runs; the list of GATE.CLEAR starts without an event (R293). -/
theorem execGateListStarted_of_due {p : Nat} {l : GateList} (hpend : ((s.atTime t).det.gates.getD p {}).pend = some l)
    (hdue : l.t ≤ nowLin (s.atTime t)) :
    execGateListStarted t p s =
      (let v := modGate p (fun g => g.settled (nowLin (s.atTime t))) (s.atTime t)
       .next (refreshPort p (if l.clear then v else raise 0x0B 2 (quarterUnit p) (gatePay p l.t) v))) := by
  simp only [execGateListStarted, hpend, if_neg (Nat.not_lt.2 hdue)]

/-- The place of the next identified frame of an octet that its stream unit has not handled (R280). -/
def nextUnhandled (u : State) (octet : Nat) : Nat := u.td.ingress.findIdx fun k => k.md.sValid && !k.unit && k.md.port / 8 == octet

/-- What the stream unit of an octet leaves of its next frame, k at place i: the frame, changed, or its loss (R280). -/
def unitHandled (i : Nat) (k : Pkt) : Option Pkt × State → State
  | (some kk, v) => setWaiting false (v.td.ingress.set i kk) v
  | (none, v) => capLost k (setWaiting false (v.td.ingress.eraseIdx i) v)

theorem execStreamUnitFrame_of_waiting {octet : Nat} {k : Pkt}
    (hnext : (s.atTime t).td.ingress[nextUnhandled (s.atTime t) octet]? = some k) :
    execStreamUnitFrame t octet s = .next (unitHandled (nextUnhandled (s.atTime t) octet) k (streamFrame k (s.atTime t))) := by
  rw [nextUnhandled] at hnext
  simp only [execStreamUnitFrame, hnext]
  rcases streamFrame k (s.atTime t) with ⟨_ | kk, v⟩
  · rfl
  · rfl

/-- The reset timer of a context has run out without a frame passing (R286). -/
theorem execFrerResetTimeout_of_due {ctx : Nat} {f : Frer} (hctx : tget (s.atTime t).det.frer ctx = some f) (hidle : f.any = false)
    (hdue : f.start + f.timeout ≤ (s.atTime t).tm.bounds) :
    execFrerResetTimeout t ctx s = .next (raise 0x0B 7 mpcUnit (pay [(handle 0xB1 ctx, 4), (f.seq, 2)])
      (ctrAdd64 5 ctx 6 1 (modDet (fun d => { d with frer := tset d.frer ctx { f with any := true } }) (s.atTime t)))) := by
  have hran : ¬ (f.any || decide ((s.atTime t).tm.bounds < f.start + f.timeout)) = true := by
    rw [hidle, Bool.false_or, decide_eq_true_eq]
    exact Nat.not_lt.2 hdue
  simp only [execFrerResetTimeout, hctx]
  exact if_neg hran

end

/-- Settles O56, event by event: where the clause's conditions hold at the event's instant, they choose its branch. -/
theorem detEventsComplete : Obligations.DetEventsComplete := by
  unfold Obligations.DetEventsComplete
  refine ⟨?started, ?cleared, ?passed, ?dropped, fun _ _ _ _ ⟨hctx, hidle, hdue⟩ => execFrerResetTimeout_of_due hctx hidle hdue⟩
  case started =>
    intro p l t s ⟨hpend, hdue, hlist⟩
    refine (execGateListStarted_of_due hpend hdue).trans ?_
    rw [hlist]
    rfl
  case cleared =>
    intro p l t s ⟨hpend, hdue, hclear⟩
    refine (execGateListStarted_of_due hpend hdue).trans ?_
    rw [hclear]
    rfl
  case passed =>
    rintro octet i k kk v t s ⟨rfl, hnext, hframe⟩
    refine (execStreamUnitFrame_of_waiting hnext).trans ?_
    rw [hframe]
    rfl
  case dropped =>
    rintro octet i k v t s ⟨rfl, hnext, hframe⟩
    refine (execStreamUnitFrame_of_waiting hnext).trans ?_
    rw [hframe]
    rfl

end Sys2Proof.Machine
end

section
/-! Proofs of the statements on the fabric and the mesh (spec/11_fabric_mesh.md): FABRIC commands, and the events of lanes, cells and
control flits. -/

namespace Sys2Proof.Machine

open Sys2Proof

/-! ### Fabric commands (R308, R310, R315, R322 to R325, R327, R330, Tables 11-3 and 11-4) -/

/-- The settings of FABRIC.SET that the device takes in state u: no VOQ set exists, the rates fit the octets and the mesh, the device ID
in mesh mode is the unit's own, and both times are in range (R308, R318, R320, R325, Table 11-4). -/
structure FabricSettable (q : List Word) (u : State) : Prop where
  noVoqSets : u.td.sets = []
  rates : octetRatesOk (flag q 0 0) (fld q 2 11 0) (fld q 3 23 0) = true
  device : flag q 0 0 = true → fld q 0 25 16 = u.id.devid
  reorder : 100 ≤ fld q 4 14 0 ∧ fld q 4 14 0 ≤ 20000
  refresh : 1 ≤ fld q 5 9 0 ∧ fld q 5 9 0 ≤ 1000

/-- What an octet runs at: 0 where it is off, and otherwise its rate code, told apart from 0 (R308). -/
def octetCode (en rates k : Nat) : Nat := if bit en k then 4 + bits rates (2 * k + 1) (2 * k) else 0

/-- The state in which every octet that FABRIC.SET switches or whose rate it changes has lost its lanes (R308, R310). -/
def octetsDropped (q : List Word) (u : State) : State :=
  ((List.range 12).filter fun k => octetCode (fld q 2 11 0) (fld q 3 23 0) k != octetCode u.fab.octets u.fab.rates k).foldl
    (fun s k => octetDown k s) u

/-- The state in which the settings of FABRIC.SET stand (Table 11-4). -/
def fabricConfigured (q : List Word) (u : State) : State :=
  modFab (fun f => { f with
    mesh := flag q 0 0, dev := fld q 0 25 16, alias_ := if flag q 1 31 then some (fld q 1 9 0) else none
    octets := fld q 2 11 0, rates := fld q 3 23 0, reorder := fld q 4 14 0, refresh := fld q 5 9 0 }) u

section
variable {x : Ctx} {q : List Word} {u : State}

theorem actFabricSet_of_settable (hset : FabricSettable q u) :
    actFabricSet x q u = done (ecmpUpdate (fabCheck (fabricConfigured q (octetsDropped q u)))) := by
  obtain ⟨hnoVoqSets, hrates, hdevice, hreorder, hrefresh⟩ := hset
  have hmesh : (flag q 0 0 && fld q 0 25 16 != u.id.devid) = false := by
    rw [Bool.and_eq_false_imp]
    exact fun hmeshOn => by simp [hdevice hmeshOn]
  have htaken : ¬ (!u.td.sets.isEmpty || !octetRatesOk (flag q 0 0) (fld q 2 11 0) (fld q 3 23 0)
      || (flag q 0 0 && fld q 0 25 16 != u.id.devid) || decide (fld q 4 14 0 < 100) || decide (20000 < fld q 4 14 0)
      || decide (fld q 5 9 0 < 1) || decide (1000 < fld q 5 9 0)) = true := by
    rw [hnoVoqSets, hrates, hmesh]
    simp
    omega
  exact if_neg htaken

/-- A direct FABRIC.PROFILE_SET within the ranges of Table 11-3 (R327). -/
theorem actFabricProfileSet_direct (hph : x.ph = .direct) (hfixed : wd q 0 ≤ 1000000) (htau : wd q 1 ≤ 1000000) (hkmin : 1 ≤ fld q 2 6 0)
    (hlanes : fld q 2 6 0 ≤ if u.fab.mesh then 32 else 96) :
    actFabricProfileSet x q u =
      done (fabCheck (modFab (fun f => { f with ffixed := wd q 0, tau := wd q 1, kmin := fld q 2 6 0 }) u)) := by
  have hinRange : ¬ (1000000 < wd q 0 ∨ 1000000 < wd q 1 ∨ fld q 2 6 0 = 0 ∨ (if u.fab.mesh then 32 else 96) < fld q 2 6 0) := by omega
  rw [actFabricProfileSet, hph]
  exact if_neg hinRange

/-- A direct FABRIC.SYSPORT_SET of entries of the table that name local destinations (R315). -/
theorem actFabricSysportSet_direct (hph : x.ph = .direct) (hsome : 1 ≤ fld q 1 16 0) (hend : fld q 0 15 0 + fld q 1 16 0 ≤ 65536)
    (hdests : ∀ i < fld q 1 16 0, fld q (2 + i) 22 16 ≤ 64) :
    actFabricSysportSet x q u = done (ecmpUpdate (renamed (modFab (fun f => { f with
      sysp := (List.range (fld q 1 16 0)).foldl (fun t i =>
        if flag q (2 + i) 31 then tset t (fld q 0 15 0 + i) (fld q (2 + i) 9 0, fld q (2 + i) 22 16)
        else terase t (fld q 0 15 0 + i)) f.sysp }) u))) := by
  have hall : (List.range (fld q 1 16 0)).all (fun i => decide (fld q (2 + i) 22 16 ≤ 64)) = true := by simpa using hdests
  have hlegal : ¬ (fld q 1 16 0 = 0 ∨ 65536 < fld q 0 15 0 + fld q 1 16 0
      ∨ (!(List.range (fld q 1 16 0)).all fun i => decide (fld q (2 + i) 22 16 ≤ 64)) = true) := by
    rw [hall]
    simp
    omega
  rw [actFabricSysportSet, hph]
  exact if_neg hlegal

theorem objExists_of_voqSet {h : Nat} {v : VoqSet} (hty : hType h = 0xA7) (hset : tget u.td.sets (hIdx h) = some v) :
    objExists u h = true := by
  simp [objExists, hty, thas, hset]

/-- A direct FABRIC.VOQ_GUARANTEE for a deterministic offset of the VOQ set (R323, Table 11-4). -/
theorem actFabricVoqGuarantee_direct {v : VoqSet} (hph : x.ph = .direct) (hty : hType (wd q 0) = 0xA7)
    (hset : tget u.td.sets (hIdx (wd q 0)) = some v) (hdet : bit v.mask (fld q 1 2 0) = true) :
    actFabricVoqGuarantee x q u =
      done (modCred (8 * hIdx (wd q 0) + fld q 1 2 0) (fun y => { y with g := fld q 2 19 0 }) u) := by
  rw [actFabricVoqGuarantee, hset, hph]
  refine (if_neg (handle_named hty (objExists_of_voqSet hty hset))).trans ?_
  simp only [hdet]
  rfl

/-- The state in which the scheduler holds the grant of a FABRIC.GRANT_SET request, for a VOQ that it knows from then on (R323). -/
def grantHeld (q : List Word) (u : State) : State :=
  let key := demandKey (fld q 0 6 0) (fld q 1 9 0) (fld q 2 15 0) (fld q 3 2 0)
  modFab (fun f => { f with
    grants := mset 0 f.grants key (fld q 4 19 0)
    demands := if thas f.demands key then f.demands else tset f.demands key { det := true } }) u

/-- A direct FABRIC.GRANT_SET that withdraws a grant, or that leaves grants which fit the destination's credit rate (R323). -/
theorem actFabricGrantSet_direct (hph : x.ph = .direct) (hdest : fld q 0 6 0 ≤ 64)
    (hfit : fld q 4 19 0 = 0 ∨ grantsFit (grantHeld q u) (fld q 0 6 0) = true) :
    actFabricGrantSet x q u = done (grantHeld q u) := by
  rw [actFabricGrantSet, hph]
  exact (if_neg (Nat.not_lt.2 hdest)).trans (if_pos hfit)

/-- The state in which a local destination has the credit settings of a FABRIC.CREDIT_SET request (R322). -/
def creditConfigured (q : List Word) (u : State) : State :=
  modFab (fun y => { y with dests := lmod y.dests (fld q 0 6 0) fun d =>
    { d with factor := fld q 1 8 0, bp := fld q 2 24 0, maxOut := fld q 3 7 0 } }) u

/-- A direct FABRIC.CREDIT_SET in range whose credit rate still covers the destination's grants (R322, R323). -/
theorem actFabricCreditSet_direct (hph : x.ph = .direct) (hdest : fld q 0 6 0 ≤ 64) (hfactorLow : 256 ≤ fld q 1 8 0)
    (hfactorHigh : fld q 1 8 0 ≤ 384) (hmost : 1 ≤ fld q 3 7 0) (hfit : grantsFit (creditConfigured q u) (fld q 0 6 0) = true) :
    actFabricCreditSet x q u = done (creditConfigured q u) := by
  have hinRange : ¬ (64 < fld q 0 6 0 ∨ fld q 1 8 0 < 256 ∨ 384 < fld q 1 8 0 ∨ fld q 3 7 0 = 0) := by omega
  rw [creditConfigured] at hfit ⊢
  simp only [actFabricCreditSet, hph, if_neg hinRange, hfit, reduceCtorEq, if_false, if_true]

theorem actFabricLaneReach_of_lane {y : FabLane} (hlane : u.fab.lanes[fld q 0 6 0]? = some y) :
    actFabricLaneReach x q u = reply (bitWords 32 fun d => y.up && !y.noReach.contains d) u := by
  simp only [actFabricLaneReach, hlane]

/-- FABRIC.COUNTERS of the device, which lane 255 stands for (R330). -/
theorem actFabricCounters_device (hdevice : fld q 1 7 0 = 255) :
    actFabricCounters x q u = reply (ctrWords u.ctr 0x4C 0 (List.range 17)) u := if_pos hdevice

/-- FABRIC.COUNTERS of a lane (R330). -/
theorem actFabricCounters_lane (hlane : fld q 1 7 0 < 96) :
    actFabricCounters x q u = reply (ctrWords u.ctr 0x4C (fld q 1 7 0 + 1) (List.range 8)) u :=
  (if_neg (by omega)).trans (if_pos hlane)

end

/-- Settles O35: each row runs its command, and the command's own meaning answers OK under the clause's conditions. -/
theorem fabricCommandsComplete : Obligations.FabricCommandsComplete := by
  unfold Obligations.FabricCommandsComplete
  refine ⟨runs_of_act (.inl rfl) (fun _ _ _ => rfl)
      fun c _ _ ⟨hnoVoqSets, hrates, hdevice, hreorderLow, hreorderHigh, hrefreshLow, hrefreshHigh⟩ =>
        actFabricSet_of_settable (x := directCtx c)
          ⟨hnoVoqSets, hrates, hdevice, ⟨hreorderLow, hreorderHigh⟩, ⟨hrefreshLow, hrefreshHigh⟩⟩,
    runs_of_act (.inl rfl) (fun _ _ _ => rfl) fun c _ _ ⟨hfixed, htau, hkmin, hlanes⟩ =>
      actFabricProfileSet_direct (x := directCtx c) rfl hfixed htau hkmin hlanes,
    runs_of_act (.inl rfl) (fun _ _ _ => rfl) fun c _ _ ⟨hsome, hend, hdests⟩ =>
      actFabricSysportSet_direct (x := directCtx c) rfl hsome hend hdests,
    fun _ => runs_of_act (.inl rfl) (fun _ _ _ => rfl) fun c _ _ ⟨hty, hset, hdet⟩ =>
      actFabricVoqGuarantee_direct (x := directCtx c) rfl hty hset hdet,
    fun _ => runs_of_act (.inl rfl) (fun _ _ _ => rfl) ?granted,
    fun _ => runs_of_act (.inl rfl) (fun _ _ _ => rfl) ?credited,
    runs_of_act (.inl rfl) (fun _ _ _ => rfl) fun _ _ _ _ => rfl,
    fun _ => runs_of_act (.inl rfl) (fun _ _ _ => rfl) fun c _ _ hlane => actFabricLaneReach_of_lane (x := directCtx c) hlane,
    runs_of_act (.inl rfl) (fun _ _ _ => rfl) fun c _ _ hdevice => actFabricCounters_device (x := directCtx c) hdevice,
    runs_of_act (.inl rfl) (fun _ _ _ => rfl) fun c _ _ hlane => actFabricCounters_lane (x := directCtx c) hlane⟩
  case granted =>
    rintro c q u ⟨hdest, rfl, hfit⟩
    exact actFabricGrantSet_direct (x := directCtx c) rfl hdest hfit
  case credited =>
    rintro c q u ⟨hdest, hfactorLow, hfactorHigh, hmost, rfl, hfit⟩
    exact actFabricCreditSet_direct (x := directCtx c) rfl hdest hfactorLow hfactorHigh hmost hfit

/-! ### What a lane sends (R309, R310, R316) -/

/-- The next device, in the round robin, to which a lane may carry the next cell of a flow, deterministic or not (R316). -/
def laneFlow (u : State) (lane : Nat) (det : Bool) : Option Nat :=
  (sendOrder u).find? fun d => flowLane u d det == some lane && flowWaits u d det

/-- The state in which a lane has sent the next cell of the flow to device d, which the round robin then passes (R316). -/
def flowServed (lane d : Nat) (det : Bool) (u : State) : State :=
  sendCell d det lane (startPacket d det (modFab (fun f => { f with txDev := d + 1 }) u))

/-- A lane carries cells: it is usable, and was at the start of its lane frame (R310). -/
structure LaneCarries (u : State) (lane : Nat) : Prop where
  usable : laneUsable u lane = true
  use : (u.fab.lanes.getD lane {}).use = true

section
variable {lane : Nat} {u : State}

theorem LaneCarries.not_silent (hcarries : LaneCarries u lane) :
    ¬ (!laneUsable u lane || !(u.fab.lanes.getD lane {}).use) = true := by
  rw [hcarries.usable, hcarries.use]
  decide

theorem cellSlot_of_silent (hsilent : laneUsable u lane = false ∨ (u.fab.lanes.getD lane {}).use = false) :
    cellSlot lane u = emit (.cell lane idleCell) u :=
  if_pos (by simpa using hsilent)

/-- A deterministic flow goes before any other (R316). -/
theorem cellSlot_of_det {d : Nat} (hcarries : LaneCarries u lane) (hdet : laneFlow u lane true = some d) :
    cellSlot lane u = flowServed lane d true u := by
  rw [laneFlow] at hdet
  simp only [cellSlot, if_neg hcarries.not_silent, hdet]
  rfl

theorem cellSlot_of_bestEffort {d : Nat} (hcarries : LaneCarries u lane) (hdet : laneFlow u lane true = none)
    (hbest : laneFlow u lane false = some d) : cellSlot lane u = flowServed lane d false u := by
  rw [laneFlow] at hdet hbest
  simp only [cellSlot, if_neg hcarries.not_silent, hdet, hbest]
  rfl

theorem cellSlot_of_noFlow (hcarries : LaneCarries u lane) (hdet : laneFlow u lane true = none) (hbest : laneFlow u lane false = none) :
    cellSlot lane u = emit (.cell lane idleCell) u := by
  rw [laneFlow] at hdet hbest
  simp only [cellSlot, if_neg hcarries.not_silent, hdet, hbest]

end

/-! ### Lane events (R309, R310, R316, R324) -/

/-- The octet of a lane is on and in service (R22, R308). -/
structure LaneServed (u : State) (lane : Nat) : Prop where
  on : octetRho u (lane / 8) ≠ 0
  service : domOut u (67 + lane / 8) = false

theorem LaneServed.not_out {u : State} {lane : Nat} (hserved : LaneServed u lane) :
    (decide (octetRho u (lane / 8) = 0) || domOut u (67 + lane / 8)) = false := by
  rw [decide_eq_false hserved.on, hserved.service]
  rfl

/-- The state in which a lane's slot counter has moved on and its next slot is due: slot 0, the control slot, is sent together with slot
1 (R309, R310). -/
def slotAdvanced (lane : Nat) (x : FabLane) (u : State) : State :=
  let v := if x.slot = 0 then controlSlot lane u else u
  let next := elapsed v + slotsU (if x.slot = 0 then 2 else 1) (octetRho u (lane / 8))
  modFabLane lane (fun x => { x with slot := if x.slot = 0 then 2 else (x.slot + 1) % 32, due := next }) v

section
variable {t lane : Nat} {s : State}

theorem execFabricLaneState_of_served {up far : Bool} {cause : Nat} (hserved : LaneServed (s.atTime t) lane) :
    execFabricLaneState t lane up far cause s = .next (fabricLane lane up far cause (s.atTime t)) := by
  exact congrArg Host.Outcome.next (if_neg (ne_true_of_eq_false hserved.not_out))

/-- A slot of a lane in service that is due, of a device that may drive its lines (R309, R403). -/
theorem execFabricCellTransmit_of_due (hserved : LaneServed (s.atTime t) lane) (hdrive : mayDrive (s.atTime t) = true)
    (hdue : ((s.atTime t).fab.lanes.getD lane {}).due ≤ elapsed (s.atTime t)) :
    execFabricCellTransmit t lane s =
      .next (cellSlot lane (slotAdvanced lane ((s.atTime t).fab.lanes.getD lane {}) (s.atTime t))) := by
  have hsends : ¬ (decide (octetRho (s.atTime t) (lane / 8) = 0) || domOut (s.atTime t) (67 + lane / 8) || !mayDrive (s.atTime t)
      || decide (elapsed (s.atTime t) < ((s.atTime t).fab.lanes.getD lane {}).due)) = true := by
    rw [hserved.not_out, hdrive, decide_eq_false (Nat.not_lt.2 hdue)]
    decide
  exact if_neg hsends

end

/-! ### Received cells (R313, R318) -/

/-- The receive flow of a cell: its source device, and whether it is deterministic (R318). -/
def cellFlow (cell : List Byte) : Nat := 2 * flitBits cell 119 110 + flitBits cell 123 123

/-- How far a cell's sequence number is ahead of the one that its flow expects in state u (R318). -/
def cellAhead (cell : List Byte) (u : State) : Nat :=
  (flitBits cell 83 64 + 2 ^ 20 - (tgetD u.fab.rx (cellFlow cell) {}).e) % 2 ^ 20

/-- The state in which a cell is held at its place: where the reorder window would not reach it, the window has moved on (R318). -/
def cellHeld (cell : List Byte) (u : State) : State :=
  let passed := cellAhead cell u - 4095
  modRx (cellFlow cell) (fun f => { f with held := tset f.held (cellAhead cell u - passed) (beNat (cell.take 16), cell.drop 16) })
    (stepsRx (cellFlow cell) passed u)

/-- The state in which a good cell has been counted by the device and by its lane (R330). -/
def cellCounted (lane : Nat) (u : State) : State := fabLaneCount lane 1 1 (fabCount 1 1 u)

section
variable {t lane : Nat} {s : State}

/-- Only an undamaged idle flit is passed over before a cell is judged (R313). -/
theorem cell_not_idle {cell : List Byte} {damaged : Bool}
    (hbusy : damaged = false → flitOk cell = true → flitBits cell 127 124 ≠ 0) :
    ¬ (!damaged && flitOk cell && flitBits cell 127 124 == 0) = true := by
  simpa using hbusy

theorem execFabricCellReceived_of_bad {cell : List Byte} {damaged : Bool} {c : Nat} {l : Option Nat}
    (hbusy : damaged = false → flitOk cell = true → flitBits cell 127 124 ≠ 0)
    (hjudge : judgeFlit (s.atTime t) lane cell damaged 1 (flitBits cell 119 110) (flitBits cell 109 100) = .bad c l) :
    execFabricCellReceived t lane cell damaged s = .next (countBad lane c l (s.atTime t)) := by
  simp only [execFabricCellReceived, if_neg (cell_not_idle hbusy), hjudge]

/-- A good cell that is behind what its flow expects is counted as late; another is held, and its flow settles (R318). -/
theorem execFabricCellReceived_of_good {cell : List Byte} {v : State} (hbusy : flitBits cell 127 124 ≠ 0)
    (hjudge : judgeFlit (s.atTime t) lane cell false 1 (flitBits cell 119 110) (flitBits cell 109 100) = .good)
    (hcounted : v = cellCounted lane (s.atTime t)) :
    execFabricCellReceived t lane cell false s = .next (if 2 ^ 19 ≤ cellAhead cell v then fabCount 6 1 v
      else settleRx (cellFlow cell) (tgetD v.fab.rx (cellFlow cell) {}).e (cellHeld cell v)) := by
  subst hcounted
  simp only [execFabricCellReceived, if_neg (cell_not_idle fun _ _ => hbusy), hjudge]
  exact (apply_ite Host.Outcome.next _ _ _).symm

/-- The gap before the first held cell has lasted for the reorder timeout: the positions up to that cell are passed (R318). -/
theorem execReorderTimeout_of_due {dev n : Nat} {det : Bool} {f : RxFlow} {c : Nat × List Byte} {r : Tab (Nat × List Byte)}
    (hflow : f = tgetD (s.atTime t).fab.rx (2 * dev + b2n det) {}) (hheld : f.held = (n, c) :: r) (hgap : f.gap ≠ 0)
    (hdue : f.gap - 1 + (s.atTime t).fab.reorder * nsU ≤ elapsed (s.atTime t)) :
    execReorderTimeout t dev det s =
      .next (settleRx (2 * dev + b2n det) f.e (stepsRx (2 * dev + b2n det) n (s.atTime t))) := by
  subst hflow
  simp only [execReorderTimeout, hheld]
  exact if_neg (not_or.2 ⟨hgap, Nat.not_lt.2 hdue⟩)

end

/-! ### Received control flits (R313, R320, R321, R324) -/

section
variable {t lane : Nat} {flit : List Byte} {damaged : Bool} {c : Nat} {l : Option Nat} {s : State}

theorem execStatusMessageReceived_of_bad
    (hjudge : judgeFlit (s.atTime t) lane flit damaged 2 (flitBits flit 119 110) (flitBits flit 109 100) = .bad c l) :
    execStatusMessageReceived t lane flit damaged s = .next (countBad lane c l (s.atTime t)) := by
  simp only [execStatusMessageReceived, hjudge]

/-- A good status message for a system port that has no valid entry is only counted (R315). -/
theorem execStatusMessageReceived_of_noPort
    (hjudge : judgeFlit (s.atTime t) lane flit damaged 2 (flitBits flit 119 110) (flitBits flit 109 100) = .good)
    (hport : tget (fabCount 12 1 (s.atTime t)).fab.sysp (flitBits flit 99 84) = none) :
    execStatusMessageReceived t lane flit damaged s = .next (fabCount 12 1 (s.atTime t)) := by
  simp only [execStatusMessageReceived, hjudge, hport]

/-- A good status message is taken at the local destination of its system port, which answers it (R320, R321). -/
theorem execStatusMessageReceived_of_port {p dest : Nat}
    (hjudge : judgeFlit (s.atTime t) lane flit damaged 2 (flitBits flit 119 110) (flitBits flit 109 100) = .good)
    (hport : tget (fabCount 12 1 (s.atTime t)).fab.sysp (flitBits flit 99 84) = some (p, dest)) :
    execStatusMessageReceived t lane flit damaged s = .next
      (sendToken (demandKey dest (flitBits flit 119 110) (flitBits flit 99 84) (flitBits flit 122 120))
        (takeStatus dest (flitBits flit 119 110) (flitBits flit 99 84) (flitBits flit 122 120) (flitBits flit 123 123 == 1)
          (flitBits flit 83 60) (flitBits flit 59 36) (flitBits flit 35 16) (fabCount 12 1 (s.atTime t)))) := by
  simp only [execStatusMessageReceived, hjudge, hport]

theorem execTokenMessageReceived_of_bad
    (hjudge : judgeFlit (s.atTime t) lane flit damaged 3 (flitBits flit 119 110) (flitBits flit 109 100) = .bad c l) :
    execTokenMessageReceived t lane flit damaged s = .next (countBad lane c l (s.atTime t)) := by
  simp only [execTokenMessageReceived, hjudge]

/-- A good token message for a system port towards which no VOQ set stands is only counted (R321). -/
theorem execTokenMessageReceived_of_noSet
    (hjudge : judgeFlit (s.atTime t) lane flit damaged 3 (flitBits flit 119 110) (flitBits flit 109 100) = .good)
    (hset : setOf (fabCount 14 1 (s.atTime t)).td.sets (flitBits flit 99 84) = none) :
    execTokenMessageReceived t lane flit damaged s = .next (fabCount 14 1 (s.atTime t)) := by
  simp only [execTokenMessageReceived, hjudge, hset]

/-- A good token message reaches the VOQ of its class in the set of its system port (R321). -/
theorem execTokenMessageReceived_of_set {first : Nat} {v : VoqSet}
    (hjudge : judgeFlit (s.atTime t) lane flit damaged 3 (flitBits flit 119 110) (flitBits flit 109 100) = .good)
    (hset : setOf (fabCount 14 1 (s.atTime t)).td.sets (flitBits flit 99 84) = some (first, v)) :
    execTokenMessageReceived t lane flit damaged s =
      .next (takeToken (first + flitBits flit 122 120) (flitBits flit 83 60) (fabCount 14 1 (s.atTime t))) := by
  simp only [execTokenMessageReceived, hjudge, hset]

/-- A flit that spans an uncorrectable codeword, on a lane that is not deaf, is counted in DAMAGED (R313). -/
theorem execReachabilityReceived_of_damaged (hdeaf : laneDeaf (s.atTime t) lane = false) :
    execReachabilityReceived t lane flit true s = .next (countBad lane 3 (some 6) (s.atTime t)) :=
  (if_neg (ne_true_of_eq_false hdeaf)).trans (if_pos rfl)

/-- What an undamaged flit on a lane that is not deaf does turns on its checksum, its type and the mode (R313, R324). -/
theorem execReachabilityReceived_of_undamaged (hdeaf : laneDeaf (s.atTime t) lane = false) :
    execReachabilityReceived t lane flit false s =
      if (!flitOk flit) = true then .next (countBad lane 2 (some 5) (s.atTime t))
      else if flitBits flit 127 124 ≠ 5 ∨ (s.atTime t).fab.mesh = true then .next (countBad lane 4 none (s.atTime t))
      else .next (fabCheck (modFab (fun f => { f with lanes := lmod f.lanes lane fun x => { x with
        noReach := if flitBits flit 113 113 == 1 then flitBits flit 123 114 :: x.noReach.filter (fun y => y != flitBits flit 123 114)
          else x.noReach.filter fun y => y != flitBits flit 123 114 } }) (s.atTime t))) :=
  (if_neg (ne_true_of_eq_false hdeaf)).trans (if_neg Bool.false_ne_true)

end

/-! ### Status refresh and the issue of tokens (R320, R322) -/

section
variable {t : Nat} {s : State}

theorem execStatusRefresh_of_due {q : Nat} {r : VoqSet} {c : Credit} {x : Queue} (hcred : credOf (s.atTime t) q = some (r, c))
    (hqueue : tget (s.atTime t).td.queues q = some x) (hdue : c.lastStatus + usU (s.atTime t).fab.refresh ≤ elapsed (s.atTime t))
    (hwants : x.pkts ≠ [] ∨ 0 < c.credit) : execStatusRefresh t q s = .next (sendStatus q (s.atTime t)) := by
  have hsends : ¬ (elapsed (s.atTime t) < c.lastStatus + usU (s.atTime t).fab.refresh ∨ (x.pkts.isEmpty = true ∧ c.credit ≤ 0)) := by
    rw [List.isEmpty_iff]
    rintro (hearly | ⟨hempty, hspent⟩)
    · exact Nat.not_lt.2 hdue hearly
    · exact hwants.elim (fun hbacklog => hbacklog hempty) (not_lt.2 hspent)
  simp only [execStatusRefresh, hcred, hqueue, if_neg hsends]

theorem execCreditTokenIssue_of_dest {dest : Nat} (hdest : dest ≤ 64) :
    execCreditTokenIssue t dest s = .next (creditRun dest (s.atTime t)) :=
  if_neg (Nat.not_lt.2 hdest)

end

/-- Settles O58: the slot's clauses by its laws, and event by event, where the clause's conditions choose its branch. -/
theorem fabricEventsComplete : Obligations.FabricEventsComplete := by
  unfold Obligations.FabricEventsComplete
  refine ⟨fun _ _ _ _ _ _ ⟨hon, hservice⟩ => execFabricLaneState_of_served ⟨hon, hservice⟩, ?slot,
    fun _ _ hsilent => cellSlot_of_silent hsilent,
    fun _ _ _ husable huse hdet => cellSlot_of_det ⟨husable, huse⟩ hdet,
    fun _ _ husable huse hdet => ⟨fun _ hbest => cellSlot_of_bestEffort ⟨husable, huse⟩ hdet hbest,
      fun hbest => cellSlot_of_noFlow ⟨husable, huse⟩ hdet hbest⟩,
    fun _ _ _ _ _ _ ⟨hbusy, hjudge⟩ => execFabricCellReceived_of_bad (fun _ => hbusy) hjudge,
    fun _ _ _ _ _ _ hjudge => execFabricCellReceived_of_bad (fun hundamaged => absurd hundamaged.symm Bool.false_ne_true) hjudge,
    ?goodCell, ?reorder,
    fun _ _ _ _ _ _ _ hjudge => execStatusMessageReceived_of_bad hjudge,
    fun _ _ _ _ _ ⟨hjudge, hport⟩ => execStatusMessageReceived_of_noPort hjudge hport,
    fun _ _ _ _ _ _ _ ⟨hjudge, hport⟩ => execStatusMessageReceived_of_port hjudge hport,
    fun _ _ _ _ _ _ _ hjudge => execTokenMessageReceived_of_bad hjudge,
    fun _ _ _ _ _ ⟨hjudge, hset⟩ => execTokenMessageReceived_of_noSet hjudge hset,
    fun _ _ _ _ _ _ _ ⟨hjudge, hset⟩ => execTokenMessageReceived_of_set hjudge hset,
    fun _ _ _ _ hdeaf => execReachabilityReceived_of_damaged hdeaf, ?badChecksum, ?badType, ?reach,
    fun _ _ _ _ _ _ ⟨hcred, hqueue, hdue, hwants⟩ => execStatusRefresh_of_due hcred hqueue hdue hwants,
    fun _ _ _ hdest => execCreditTokenIssue_of_dest hdest⟩
  case slot =>
    rintro lane x t s ⟨hon, hservice, hdrive, rfl, hdue⟩
    exact execFabricCellTransmit_of_due ⟨hon, hservice⟩ hdrive hdue
  case goodCell =>
    rintro lane cell key e off v t s ⟨hbusy, hjudge, hcounted, rfl, rfl, rfl⟩
    exact execFabricCellReceived_of_good hbusy hjudge hcounted
  case reorder =>
    rintro dev det key f n c r t s ⟨rfl, hflow, hheld, hgap, hdue⟩
    exact execReorderTimeout_of_due hflow hheld hgap hdue
  case badChecksum =>
    rintro lane flit t s ⟨hdeaf, hbad⟩
    exact (execReachabilityReceived_of_undamaged hdeaf).trans (if_pos (by simp [hbad]))
  case badType =>
    rintro lane flit t s ⟨hdeaf, hok, hwrong⟩
    exact (execReachabilityReceived_of_undamaged hdeaf).trans ((if_neg (by simp [hok])).trans (if_pos hwrong))
  case reach =>
    rintro lane flit d t s ⟨hdeaf, hok, htype, hmode, rfl⟩
    have hreachable : ¬ (flitBits flit 127 124 ≠ 5 ∨ (s.atTime t).fab.mesh = true) :=
      not_or.2 ⟨not_not_intro htype, ne_true_of_eq_false hmode⟩
    exact (execReachabilityReceived_of_undamaged hdeaf).trans ((if_neg (by simp [hok])).trans (if_neg hreachable))

end Sys2Proof.Machine
end

section
/-! Proofs of the statements on the step and on the lifecycle state (spec/19_self_test_lifecycle.md, Tables 19-1 and 19-2). -/

namespace Sys2Proof.Machine

open Sys2Proof

/-! ### The step -/

/-- Settles O1: the front command runs on the queue's rest, which is the queue that the command was put before. -/
theorem stepRunsTheFrontCommand : Obligations.StepRunsTheFrontCommand := by
  unfold Obligations.StepRunsTheFrontCommand
  exact ⟨fun _ _ => rfl, fun s hidle => by rw [step, hidle]⟩

/-- A step that answers a next state has idled on an empty queue, or has run the front command on the state with the queue's rest. -/
theorem step_cases {s t : State} (hstep : step s = .next t) :
    (s.pending = [] ∧ t = s) ∨ ∃ i rest, s.pending = i :: rest ∧ t = after (exec i { s with pending := rest }) { s with pending := rest } := by
  cases hq : s.pending with
  | nil =>
    rw [step, hq] at hstep
    injection hstep with hidle
    exact .inl ⟨rfl, hidle.symm⟩
  | cons i rest =>
    rw [step, hq] at hstep
    exact .inr ⟨i, rest, rfl, by rw [show exec i { s with pending := rest } = .next t from hstep, after_next]⟩

/-! ### What moves the lifecycle state (R499 to R501, Table 19-2) -/

theorem tableMove_of_lifeMove {a b : Nat} (hmove : (lifeMove a b).isSome = true) : TableMove a b := by
  unfold lifeMove at hmove
  unfold TableMove
  split_ifs at hmove <;> simp at hmove <;> omega

theorem TableMove.le_four {a b : Nat} (hmove : TableMove a b) : b ≤ 4 := by
  unfold TableMove at hmove
  omega

theorem movesAs_mono {m n : Nat → Nat → Prop} {s t : State} (hmn : ∀ a b, m a b → n a b) (hmoves : movesAs m s t) : movesAs n s t :=
  ⟨hmoves.1.imp id (hmn _ _), hmoves.2⟩

theorem execLifecycleSet_moves (c : Call) (q : List Word) (s : State) : movesAs TableMove s (after (exec (.lifecycleSet c q) s) s) :=
  movesAs_mono (fun _ _ => tableMove_of_lifeMove) (runCommand_moves _ cmdLifecycleSet rfl actLifecycleSet_moves c q s)

/-- An event that ends SURVEY makes it COMMISSIONED, or leaves the lifecycle state as it was (R499, R501). -/
theorem endsSurvey_moves {i : Instr} (hends : EndsSurvey i) (s : State) : movesAs (fun a b => a = 2 ∧ b = 1) s (after (exec i s) s) := by
  rcases hends with ⟨t, d, en, ver, rfl⟩ | ⟨t, ver, rfl⟩ | ⟨t, b, f, g, ver, rfl⟩ | ⟨t, rfl⟩ | ⟨t, rfl⟩
  · exact execPorstNRelease_moves t d en ver s
  · exact execPackageReset_moves t ver s
  · exact execScanFullRunDone_moves t b f g ver s
  · exact execAonPowerCycle_moves t s
  · exact execSurveyValidityEnd_moves t s

/-- Every command and event but LIFECYCLE.SET and those that end SURVEY keeps the lifecycle state and the queue: exec's arms one by one,
each by the law of the meaning that it calls. -/
theorem exec_keep_or_moves (i : Instr) (s : State) :
    keep (after (exec i s) s) = keep s ∨ (∃ c q, i = .lifecycleSet c q) ∨ EndsSurvey i := by
  cases i with
  | deviceInfo c q => exact .inl (execDeviceInfo_keep c q s)
  | deviceMailboxSet c q => exact .inl (execDeviceMailboxSet_keep c q s)
  | deviceMailboxGet c q => exact .inl (execDeviceMailboxGet_keep c q s)
  | deviceEcho c q => exact .inl (execDeviceEcho_keep c q s)
  | txnBegin c q => exact .inl (execTxnBegin_keep c q s)
  | txnCommit c q => exact .inl (execTxnCommit_keep c q s)
  | commitPreparationDone t slot => exact .inl (execCommitPreparationDone_keep t slot s)
  | commitTimePassed t slot => exact .inl (execCommitTimePassed_keep t slot s)
  | txnRollback c q => exact .inl (execTxnRollback_keep c q s)
  | txnStatus c q => exact .inl (execTxnStatus_keep c q s)
  | txnList c q => exact .inl (execTxnList_keep c q s)
  | portCreate c q => exact .inl (execPortCreate_keep c q s)
  | portDelete c q => exact .inl (execPortDelete_keep c q s)
  | portEnable c q => exact .inl (execPortEnable_keep c q s)
  | portDisable c q => exact .inl (execPortDisable_keep c q s)
  | portSet c q => exact .inl (execPortSet_keep c q s)
  | portFilterSet c q => exact .inl (execPortFilterSet_keep c q s)
  | portStatus c q => exact .inl (execPortStatus_keep c q s)
  | portCounters c q => exact .inl (execPortCounters_keep c q s)
  | portLoopback c q => exact .inl (execPortLoopback_keep c q s)
  | laneSet c q => exact .inl (execLaneSet_keep c q s)
  | macsecSecySet c q => exact .inl (execMacsecSecySet_keep c q s)
  | macsecSaInstall c q => exact .inl (execMacsecSaInstall_keep c q s)
  | macsecSaActivate c q => exact .inl (execMacsecSaActivate_keep c q s)
  | macsecSaDelete c q => exact .inl (execMacsecSaDelete_keep c q s)
  | macsecCounters c q => exact .inl (execMacsecCounters_keep c q s)
  | tportCreate c q => exact .inl (execTportCreate_keep c q s)
  | tportDelete c q => exact .inl (execTportDelete_keep c q s)
  | tportEnable c q => exact .inl (execTportEnable_keep c q s)
  | tportDisable c q => exact .inl (execTportDisable_keep c q s)
  | oduCreate c q => exact .inl (execOduCreate_keep c q s)
  | oduDelete c q => exact .inl (execOduDelete_keep c q s)
  | sdhPathCreate c q => exact .inl (execSdhPathCreate_keep c q s)
  | sdhPathDelete c q => exact .inl (execSdhPathDelete_keep c q s)
  | traceSet c q => exact .inl (execTraceSet_keep c q s)
  | traceGet c q => exact .inl (execTraceGet_keep c q s)
  | monSet c q => exact .inl (execMonSet_keep c q s)
  | defectStatus c q => exact .inl (execDefectStatus_keep c q s)
  | pmRead c q => exact .inl (execPmRead_keep c q s)
  | protCreate c q => exact .inl (execProtCreate_keep c q s)
  | protDelete c q => exact .inl (execProtDelete_keep c q s)
  | protRequest c q => exact .inl (execProtRequest_keep c q s)
  | protStatus c q => exact .inl (execProtStatus_keep c q s)
  | circuitCreate c q => exact .inl (execCircuitCreate_keep c q s)
  | circuitDelete c q => exact .inl (execCircuitDelete_keep c q s)
  | circuitEnable c q => exact .inl (execCircuitEnable_keep c q s)
  | circuitDisable c q => exact .inl (execCircuitDisable_keep c q s)
  | circuitSet c q => exact .inl (execCircuitSet_keep c q s)
  | circuitStatus c q => exact .inl (execCircuitStatus_keep c q s)
  | circuitCounters c q => exact .inl (execCircuitCounters_keep c q s)
  | circuitPmRead c q => exact .inl (execCircuitPmRead_keep c q s)
  | profileSet c q => exact .inl (execProfileSet_keep c q s)
  | profileGet c q => exact .inl (execProfileGet_keep c q s)
  | parserLoad c q => exact .inl (execParserLoad_keep c q s)
  | parserPortSet c q => exact .inl (execParserPortSet_keep c q s)
  | ifSet c q => exact .inl (execIfSet_keep c q s)
  | lkpKeySet c q => exact .inl (execLkpKeySet_keep c q s)
  | lkpProgramSet c q => exact .inl (execLkpProgramSet_keep c q s)
  | nhCreate c q => exact .inl (execNhCreate_keep c q s)
  | nhSet c q => exact .inl (execNhSet_keep c q s)
  | nhDelete c q => exact .inl (execNhDelete_keep c q s)
  | encapCreate c q => exact .inl (execEncapCreate_keep c q s)
  | encapDelete c q => exact .inl (execEncapDelete_keep c q s)
  | ecmpCreate c q => exact .inl (execEcmpCreate_keep c q s)
  | ecmpSetMembers c q => exact .inl (execEcmpSetMembers_keep c q s)
  | ecmpDelete c q => exact .inl (execEcmpDelete_keep c q s)
  | hashSet c q => exact .inl (execHashSet_keep c q s)
  | policerSet c q => exact .inl (execPolicerSet_keep c q s)
  | policerRead c q => exact .inl (execPolicerRead_keep c q s)
  | statsRead c q => exact .inl (execStatsRead_keep c q s)
  | statsClear c q => exact .inl (execStatsClear_keep c q s)
  | pipeSet c q => exact .inl (execPipeSet_keep c q s)
  | pipeCounters c q => exact .inl (execPipeCounters_keep c q s)
  | dillTableCreate c q => exact .inl (execDillTableCreate_keep c q s)
  | dillInsert c q => exact .inl (execDillInsert_keep c q s)
  | dillModify c q => exact .inl (execDillModify_keep c q s)
  | dillDelete c q => exact .inl (execDillDelete_keep c q s)
  | dillTableDelete c q => exact .inl (execDillTableDelete_keep c q s)
  | dillStatus c q => exact .inl (execDillStatus_keep c q s)
  | sorrelAdd c q => exact .inl (execSorrelAdd_keep c q s)
  | sorrelSet c q => exact .inl (execSorrelSet_keep c q s)
  | sorrelDelete c q => exact .inl (execSorrelDelete_keep c q s)
  | sorrelGet c q => exact .inl (execSorrelGet_keep c q s)
  | sorrelMatch c q => exact .inl (execSorrelMatch_keep c q s)
  | sorrelStatus c q => exact .inl (execSorrelStatus_keep c q s)
  | sageGroupCreate c q => exact .inl (execSageGroupCreate_keep c q s)
  | sageGroupDelete c q => exact .inl (execSageGroupDelete_keep c q s)
  | sageInsert c q => exact .inl (execSageInsert_keep c q s)
  | sageModify c q => exact .inl (execSageModify_keep c q s)
  | sageDelete c q => exact .inl (execSageDelete_keep c q s)
  | sageRead c q => exact .inl (execSageRead_keep c q s)
  | sageStatus c q => exact .inl (execSageStatus_keep c q s)
  | actionCreate c q => exact .inl (execActionCreate_keep c q s)
  | actionSet c q => exact .inl (execActionSet_keep c q s)
  | actionDelete c q => exact .inl (execActionDelete_keep c q s)
  | tableCounters c q => exact .inl (execTableCounters_keep c q s)
  | dillSearch c q => exact .inl (execDillSearch_keep c q s)
  | dillNext c q => exact .inl (execDillNext_keep c q s)
  | dillNextHoldExpiry t tab b => exact .inl (execDillNextHoldExpiry_keep t tab b s)
  | tableCmdlist c q => exact .inl (execTableCmdlist_keep c q s)
  | cmdlistDone t id records => exact .inl (execCmdlistDone_keep t id records s)
  | tableCompareSet c q => exact .inl (execTableCompareSet_keep c q s)
  | tableDigestLoad c q => exact .inl (execTableDigestLoad_keep c q s)
  | tableCompareStatus c q => exact .inl (execTableCompareStatus_keep c q s)
  | learnProfileSet c q => exact .inl (execLearnProfileSet_keep c q s)
  | learnDomainSet c q => exact .inl (execLearnDomainSet_keep c q s)
  | learnPortSet c q => exact .inl (execLearnPortSet_keep c q s)
  | learnPortStatus c q => exact .inl (execLearnPortStatus_keep c q s)
  | learnFlushPort c q => exact .inl (execLearnFlushPort_keep c q s)
  | flushDone t id => exact .inl (execFlushDone_keep t id s)
  | learnProgramSet c q => exact .inl (execLearnProgramSet_keep c q s)
  | learnDeviceSet c q => exact .inl (execLearnDeviceSet_keep c q s)
  | learnCounters c q => exact .inl (execLearnCounters_keep c q s)
  | bufPoolSet c q => exact .inl (execBufPoolSet_keep c q s)
  | bufPoolStatus c q => exact .inl (execBufPoolStatus_keep c q s)
  | bufInspect c q => exact .inl (execBufInspect_keep c q s)
  | bufCounters c q => exact .inl (execBufCounters_keep c q s)
  | queueSpaceSet c q => exact .inl (execQueueSpaceSet_keep c q s)
  | voqCreate c q => exact .inl (execVoqCreate_keep c q s)
  | voqDelete c q => exact .inl (execVoqDelete_keep c q s)
  | queueCreate c q => exact .inl (execQueueCreate_keep c q s)
  | queueSet c q => exact .inl (execQueueSet_keep c q s)
  | queueDelete c q => exact .inl (execQueueDelete_keep c q s)
  | queueFlush c q => exact .inl (execQueueFlush_keep c q s)
  | queueStatus c q => exact .inl (execQueueStatus_keep c q s)
  | queueCounters c q => exact .inl (execQueueCounters_keep c q s)
  | nodeCreate c q => exact .inl (execNodeCreate_keep c q s)
  | nodeSet c q => exact .inl (execNodeSet_keep c q s)
  | nodeDelete c q => exact .inl (execNodeDelete_keep c q s)
  | nodeStatus c q => exact .inl (execNodeStatus_keep c q s)
  | wredProfileSet c q => exact .inl (execWredProfileSet_keep c q s)
  | samplerGroupSet c q => exact .inl (execSamplerGroupSet_keep c q s)
  | samplerHistRead c q => exact .inl (execSamplerHistRead_keep c q s)
  | schedCounters c q => exact .inl (execSchedCounters_keep c q s)
  | streamCreate c q => exact .inl (execStreamCreate_keep c q s)
  | streamSet c q => exact .inl (execStreamSet_keep c q s)
  | streamDelete c q => exact .inl (execStreamDelete_keep c q s)
  | streamStatus c q => exact .inl (execStreamStatus_keep c q s)
  | streamCounters c q => exact .inl (execStreamCounters_keep c q s)
  | streamEgressCreate c q => exact .inl (execStreamEgressCreate_keep c q s)
  | streamEgressDelete c q => exact .inl (execStreamEgressDelete_keep c q s)
  | frerCreate c q => exact .inl (execFrerCreate_keep c q s)
  | frerSet c q => exact .inl (execFrerSet_keep c q s)
  | frerDelete c q => exact .inl (execFrerDelete_keep c q s)
  | frerStatus c q => exact .inl (execFrerStatus_keep c q s)
  | frerCounters c q => exact .inl (execFrerCounters_keep c q s)
  | frerReset c q => exact .inl (execFrerReset_keep c q s)
  | gateSet c q => exact .inl (execGateSet_keep c q s)
  | gateClear c q => exact .inl (execGateClear_keep c q s)
  | gateStatus c q => exact .inl (execGateStatus_keep c q s)
  | detCheck c q => exact .inl (execDetCheck_keep c q s)
  | detExport c q => exact .inl (execDetExport_keep c q s)
  | detCounters c q => exact .inl (execDetCounters_keep c q s)
  | fabricSet c q => exact .inl (execFabricSet_keep c q s)
  | fabricProfileSet c q => exact .inl (execFabricProfileSet_keep c q s)
  | fabricSysportSet c q => exact .inl (execFabricSysportSet_keep c q s)
  | fabricVoqGuarantee c q => exact .inl (execFabricVoqGuarantee_keep c q s)
  | fabricGrantSet c q => exact .inl (execFabricGrantSet_keep c q s)
  | fabricCreditSet c q => exact .inl (execFabricCreditSet_keep c q s)
  | fabricStatus c q => exact .inl (execFabricStatus_keep c q s)
  | fabricLaneReach c q => exact .inl (execFabricLaneReach_keep c q s)
  | fabricCounters c q => exact .inl (execFabricCounters_keep c q s)
  | timeGet c q => exact .inl (execTimeGet_keep c q s)
  | timeAdjust c q => exact .inl (execTimeAdjust_keep c q s)
  | timeStep c q => exact .inl (execTimeStep_keep c q s)
  | timeStateSet c q => exact .inl (execTimeStateSet_keep c q s)
  | timeStatus c q => exact .inl (execTimeStatus_keep c q s)
  | timePortSet c q => exact .inl (execTimePortSet_keep c q s)
  | timeTsringSet c q => exact .inl (execTimeTsringSet_keep c q s)
  | timeOriginate c q => exact .inl (execTimeOriginate_keep c q s)
  | timePpsSet c q => exact .inl (execTimePpsSet_keep c q s)
  | timeTodSet c q => exact .inl (execTimeTodSet_keep c q s)
  | timeSynceSet c q => exact .inl (execTimeSynceSet_keep c q s)
  | timeTideSet c q => exact .inl (execTimeTideSet_keep c q s)
  | timeCounters c q => exact .inl (execTimeCounters_keep c q s)
  | memSet c q => exact .inl (execMemSet_keep c q s)
  | memStatus c q => exact .inl (execMemStatus_keep c q s)
  | memRemapRead c q => exact .inl (execMemRemapRead_keep c q s)
  | memSpare c q => exact .inl (execMemSpare_keep c q s)
  | memTrainReport c q => exact .inl (execMemTrainReport_keep c q s)
  | memCounters c q => exact .inl (execMemCounters_keep c q s)
  | twinSet c q => exact .inl (execTwinSet_keep c q s)
  | twinStatus c q => exact .inl (execTwinStatus_keep c q s)
  | twinSwitch c q => exact .inl (execTwinSwitch_keep c q s)
  | twinForce c q => exact .inl (execTwinForce_keep c q s)
  | twinJoin c q => exact .inl (execTwinJoin_keep c q s)
  | twinRefereeLoad c q => exact .inl (execTwinRefereeLoad_keep c q s)
  | twinDecide c q => exact .inl (execTwinDecide_keep c q s)
  | twinManifestRead c q => exact .inl (execTwinManifestRead_keep c q s)
  | twinCounters c q => exact .inl (execTwinCounters_keep c q s)
  | powerTolSet c q => exact .inl (execPowerTolSet_keep c q s)
  | powerPortSet c q => exact .inl (execPowerPortSet_keep c q s)
  | powerConcentrateSet c q => exact .inl (execPowerConcentrateSet_keep c q s)
  | powerDomainStatus c q => exact .inl (execPowerDomainStatus_keep c q s)
  | powerStatus c q => exact .inl (execPowerStatus_keep c q s)
  | powerCounters c q => exact .inl (execPowerCounters_keep c q s)
  | soundSet c q => exact .inl (execSoundSet_keep c q s)
  | soundNow c q => exact .inl (execSoundNow_keep c q s)
  | soundStatus c q => exact .inl (execSoundStatus_keep c q s)
  | soundSliceInfo c q => exact .inl (execSoundSliceInfo_keep c q s)
  | scanFull c q => exact .inl (execScanFull_keep c q s)
  | scanFullRunDone t bits first sig verified => exact .inr (.inr (.inr (.inr (.inl ⟨t, bits, first, sig, verified, rfl⟩))))
  | scanResult c q => exact .inl (execScanResult_keep c q s)
  | lifecycleChallenge c q => exact .inl (execLifecycleChallenge_keep c q s)
  | lifecycleSet c q => exact .inr (.inl ⟨c, q, rfl⟩)
  | lifecycleKeyRevoke c q => exact .inl (execLifecycleKeyRevoke_keep c q s)
  | selftestCounters c q => exact .inl (execSelftestCounters_keep c q s)
  | nonceExpiry t => exact .inl (execNonceExpiry_keep t s)
  | surveyValidityEnd t => exact .inr (.inr (.inr (.inr (.inr (.inr ⟨t, rfl⟩)))))
  | faultStatus c q => exact .inl (execFaultStatus_keep c q s)
  | faultLogRead c q => exact .inl (execFaultLogRead_keep c q s)
  | faultLastBreathSet c q => exact .inl (execFaultLastBreathSet_keep c q s)
  | faultLastBreathRead c q => exact .inl (execFaultLastBreathRead_keep c q s)
  | faultClusterReinit c q => exact .inl (execFaultClusterReinit_keep c q s)
  | faultReset c q => exact .inl (execFaultReset_keep c q s)
  | faultCounters c q => exact .inl (execFaultCounters_keep c q s)
  | telemBankSet c q => exact .inl (execTelemBankSet_keep c q s)
  | telemBankRead c q => exact .inl (execTelemBankRead_keep c q s)
  | telemBwSet c q => exact .inl (execTelemBwSet_keep c q s)
  | telemDumpSet c q => exact .inl (execTelemDumpSet_keep c q s)
  | telemDumpStatus c q => exact .inl (execTelemDumpStatus_keep c q s)
  | telemCounters c q => exact .inl (execTelemCounters_keep c q s)
  | telemUserGrant c q => exact .inl (execTelemUserGrant_keep c q s)
  | upgradeLoad c q => exact .inl (execUpgradeLoad_keep c q s)
  | upgradeLoaded t img verified => exact .inl (execUpgradeLoaded_keep t img verified s)
  | upgradeActivate c q => exact .inl (execUpgradeActivate_keep c q s)
  | upgradeConfirm c q => exact .inl (execUpgradeConfirm_keep c q s)
  | upgradeStatus c q => exact .inl (execUpgradeStatus_keep c q s)
  | upgradeProfile c q => exact .inl (execUpgradeProfile_keep c q s)
  | profileConverted t => exact .inl (execProfileConverted_keep t s)
  | pioRingMap c q => exact .inl (execPioRingMap_keep c q s)
  | pioCounters c q => exact .inl (execPioCounters_keep c q s)
  | mbDoorbell t v fed failed => exact .inl (execMbDoorbell_keep t v fed failed s)
  | mbDone t v => exact .inl (execMbDone_keep t v s)
  | evrCtrl t v => exact .inl (execEvrCtrl_keep t v s)
  | evrConsumer t v => exact .inl (execEvrConsumer_keep t v s)
  | evrLost t => exact .inl (execEvrLost_keep t s)
  | tsrConsumer t v => exact .inl (execTsrConsumer_keep t v s)
  | ringCtrl t tx ring v => exact .inl (execRingCtrl_keep t tx ring v s)
  | rxTail t ring v => exact .inl (execRxTail_keep t ring v s)
  | txTail t ring v => exact .inl (execTxTail_keep t ring v s)
  | registerWrite t bar off v => exact .inl (execRegisterWrite_keep t bar off v s)
  | pf2UserRead t off n => exact .inl (execPf2UserRead_keep t off n s)
  | pcieConfigRequest t fn off write => exact .inl (execPcieConfigRequest_keep t fn off write s)
  | i2c0Access t write n => exact .inl (execI2c0Access_keep t write n s)
  | jtagInstruction t code => exact .inl (execJtagInstruction_keep t code s)
  | porstNAssert t => exact .inl (execPorstNAssert_keep t s)
  | porstNRelease t devid twinEn verified => exact .inr (.inr (.inl ⟨t, devid, twinEn, verified, rfl⟩))
  | bootSlotTimeout t => exact .inl (execBootSlotTimeout_keep t s)
  | firmwareReady t => exact .inl (execFirmwareReady_keep t s)
  | hbmTrainingDone t stack ms geometry chans => exact .inl (execHbmTrainingDone_keep t stack ms geometry chans s)
  | perstNAssert t => exact .inl (execPerstNAssert_keep t s)
  | functionLevelReset t fn => exact .inl (execFunctionLevelReset_keep t fn s)
  | pcieLinkChange t rate width flit => exact .inl (execPcieLinkChange_keep t rate width flit s)
  | refclkLoss t clk lost => exact .inl (execRefclkLoss_keep t clk lost s)
  | powerWarning t => exact .inl (execPowerWarning_keep t s)
  | tideBoundary t m => exact .inl (execTideBoundary_keep t m s)
  | retrainWindowEnd t stack chan => exact .inl (execRetrainWindowEnd_keep t stack chan s)
  | dumpRecordWritten t n failed => exact .inl (execDumpRecordWritten_keep t n failed s)
  | swapBegin t => exact .inl (execSwapBegin_keep t s)
  | swapHandover t ok => exact .inl (execSwapHandover_keep t ok s)
  | swapDone t => exact .inl (execSwapDone_keep t s)
  | confirmTimeout t => exact .inl (execConfirmTimeout_keep t s)
  | portConditionsChange t port failing => exact .inl (execPortConditionsChange_keep t port failing s)
  | linkUp t port => exact .inl (execLinkUp_keep t port s)
  | linkDown t port => exact .inl (execLinkDown_keep t port s)
  | frameReceived t port client frame good aborted dur => exact .inl (execFrameReceived_keep t port client frame good aborted dur s)
  | holdLimitDrop t octet => exact .inl (execHoldLimitDrop_keep t octet s)
  | ingressPipelinePass t pipe c idle bad => exact .inl (execIngressPipelinePass_keep t pipe c idle bad s)
  | learnRequestApply t n => exact .inl (execLearnRequestApply_keep t n s)
  | flapClear t tab key => exact .inl (execFlapClear_keep t tab key s)
  | moveWindowEnd t tab key => exact .inl (execMoveWindowEnd_keep t tab key s)
  | sweepVisit t tab b => exact .inl (execSweepVisit_keep t tab b s)
  | comparePageVisit t tab page unc twin => exact .inl (execComparePageVisit_keep t tab page unc twin s)
  | twinPageRepair t tab page form => exact .inl (execTwinPageRepair_keep t tab page form s)
  | epochRetire t seg => exact .inl (execEpochRetire_keep t seg s)
  | epochStale t seg => exact .inl (execEpochStale_keep t seg s)
  | thermalSensorRead t region sensors => exact .inl (execThermalSensorRead_keep t region sensors s)
  | streamUnitFrame t octet => exact .inl (execStreamUnitFrame_keep t octet s)
  | frerResetTimeout t ctx => exact .inl (execFrerResetTimeout_keep t ctx s)
  | bufferAllocate t pool reqs => exact .inl (execBufferAllocate_keep t pool reqs s)
  | bufferRelease t pool b id unit => exact .inl (execBufferRelease_keep t pool b id unit s)
  | bufferReplicate t pool b n => exact .inl (execBufferReplicate_keep t pool b n s)
  | partitionShort t slot => exact .inl (execPartitionShort_keep t slot s)
  | queueEnqueue t client egress => exact .inl (execQueueEnqueue_keep t client egress s)
  | schedulerSelect t port => exact .inl (execSchedulerSelect_keep t port s)
  | shaperRecovered t h => exact .inl (execShaperRecovered_keep t h s)
  | samplerVisit t q => exact .inl (execSamplerVisit_keep t q s)
  | gateListStarted t port => exact .inl (execGateListStarted_keep t port s)
  | egressPipelinePass t port => exact .inl (execEgressPipelinePass_keep t port s)
  | frameLaunch t port cut => exact .inl (execFrameLaunch_keep t port cut s)
  | macTransmitFrame t port cut own => exact .inl (execMacTransmitFrame_keep t port cut own s)
  | tsrMergerWrite t port => exact .inl (execTsrMergerWrite_keep t port s)
  | defectSet t h b rx => exact .inl (execDefectSet_keep t h b rx s)
  | defectClear t h b rx => exact .inl (execDefectClear_keep t h b rx s)
  | traceAccepted t h trace => exact .inl (execTraceAccepted_keep t h trace s)
  | timPersistenceExpiry t h => exact .inl (execTimPersistenceExpiry_keep t h s)
  | holdoffExpiry t group => exact .inl (execHoldoffExpiry_keep t group s)
  | wtrExpiry t group => exact .inl (execWtrExpiry_keep t group s)
  | apsKBytesAccepted t group k1 k2 => exact .inl (execApsKBytesAccepted_keep t group k1 k2 s)
  | apsBridgeTimeout t group => exact .inl (execApsBridgeTimeout_keep t group s)
  | vc12FrameComplete t circuit path frame => exact .inl (execVc12FrameComplete_keep t circuit path frame s)
  | pseudowireReceived t circuit instant => exact .inl (execPseudowireReceived_keep t circuit instant s)
  | circuitPlayout t circuit arrival => exact .inl (execCircuitPlayout_keep t circuit arrival s)
  | lopsSet t circuit => exact .inl (execLopsSet_keep t circuit s)
  | fabricLaneState t lane up far cause => exact .inl (execFabricLaneState_keep t lane up far cause s)
  | fabricCellTransmit t lane => exact .inl (execFabricCellTransmit_keep t lane s)
  | fabricCellReceived t lane cell damaged => exact .inl (execFabricCellReceived_keep t lane cell damaged s)
  | reorderTimeout t dev det => exact .inl (execReorderTimeout_keep t dev det s)
  | statusMessageReceived t lane flit damaged => exact .inl (execStatusMessageReceived_keep t lane flit damaged s)
  | statusRefresh t q => exact .inl (execStatusRefresh_keep t q s)
  | tokenMessageReceived t lane flit damaged => exact .inl (execTokenMessageReceived_keep t lane flit damaged s)
  | creditTokenIssue t dest => exact .inl (execCreditTokenIssue_keep t dest s)
  | reachabilityReceived t lane flit damaged => exact .inl (execReachabilityReceived_keep t lane flit damaged s)
  | phaseSlewDone t => exact .inl (execPhaseSlewDone_keep t s)
  | timeStepApply t m => exact .inl (execTimeStepApply_keep t m s)
  | tideInFrame t good tide phase bridging state diff => exact .inl (execTideInFrame_keep t good tide phase bridging state diff s)
  | tideInLost t => exact .inl (execTideInLost_keep t s)
  | ppsInCapture t => exact .inl (execPpsInCapture_keep t s)
  | ppsOutEdge t => exact .inl (execPpsOutEdge_keep t s)
  | todTxMessage t => exact .inl (execTodTxMessage_keep t s)
  | todRx t bytes valid => exact .inl (execTodRx_keep t bytes valid s)
  | hbmRequest t stack addr write len res replays whole idle subj sub => exact .inl (execHbmRequest_keep t stack addr write len res replays whole idle subj sub s)
  | scrubRead t stack addr res => exact .inl (execScrubRead_keep t stack addr res s)
  | rankMigrated t stack poisoned => exact .inl (execRankMigrated_keep t stack poisoned s)
  | ceWindowEnd t stack rank => exact .inl (execCeWindowEnd_keep t stack rank s)
  | hbmTemp t stack temp => exact .inl (execHbmTemp_keep t stack temp s)
  | hawserLinkState t up lane cause => exact .inl (execHawserLinkState_keep t up lane cause s)
  | hawserRecordReceived t header damaged record => exact .inl (execHawserRecordReceived_keep t header damaged record s)
  | detFrameRecord t => exact .inl (execDetFrameRecord_keep t s)
  | checkpointApply t => exact .inl (execCheckpointApply_keep t s)
  | configurationRecord t => exact .inl (execConfigurationRecord_keep t s)
  | commitAckTimeout t slot => exact .inl (execCommitAckTimeout_keep t slot s)
  | completionSummaryTrim t => exact .inl (execCompletionSummaryTrim_keep t s)
  | timeExchange t => exact .inl (execTimeExchange_keep t s)
  | manifestCompare t => exact .inl (execManifestCompare_keep t s)
  | refereeRun t => exact .inl (execRefereeRun_keep t s)
  | heartbeatLost t => exact .inl (execHeartbeatLost_keep t s)
  | healthQueryTimeout t => exact .inl (execHealthQueryTimeout_keep t s)
  | mooringToggle t => exact .inl (execMooringToggle_keep t s)
  | killInRise t same => exact .inl (execKillInRise_keep t same s)
  | killInFall t => exact .inl (execKillInFall_keep t s)
  | takeoverDecided t => exact .inl (execTakeoverDecided_keep t s)
  | takeoverActivate t => exact .inl (execTakeoverActivate_keep t s)
  | switchFailed t => exact .inl (execSwitchFailed_keep t s)
  | bulkCopyDone t => exact .inl (execBulkCopyDone_keep t s)
  | twinWarm t => exact .inl (execTwinWarm_keep t s)
  | autoJoin t => exact .inl (execAutoJoin_keep t s)
  | rxFrameDelivery t ring fed => exact .inl (execRxFrameDelivery_keep t ring fed s)
  | txRingFrame t fed => exact .inl (execTxRingFrame_keep t fed s)
  | dmaError t src addr => exact .inl (execDmaError_keep t src addr s)
  | eventRecordWrite t => exact .inl (execEventRecordWrite_keep t s)
  | msixModerationTimeout t src => exact .inl (execMsixModerationTimeout_keep t src s)
  | domainEnterFloor t d => exact .inl (execDomainEnterFloor_keep t d s)
  | domainWake t d path => exact .inl (execDomainWake_keep t d path s)
  | domainWakeDone t d => exact .inl (execDomainWakeDone_keep t d s)
  | deconcentrate t k => exact .inl (execDeconcentrate_keep t k s)
  | soundingStart t d => exact .inl (execSoundingStart_keep t d s)
  | soundingWithdrawn t => exact .inl (execSoundingWithdrawn_keep t s)
  | soundingPostponed t => exact .inl (execSoundingPostponed_keep t s)
  | soundingTestDone t sig golden => exact .inl (execSoundingTestDone_keep t sig golden s)
  | soundingOverdue t d => exact .inl (execSoundingOverdue_keep t d s)
  | errorDetected t unit kind detail => exact .inl (execErrorDetected_keep t unit kind detail s)
  | clusterRestored t d => exact .inl (execClusterRestored_keep t d s)
  | mpcFailed t cause => exact .inl (execMpcFailed_keep t cause s)
  | mpcRecovered t => exact .inl (execMpcRecovered_keep t s)
  | pilotLockstepMismatch t => exact .inl (execPilotLockstepMismatch_keep t s)
  | pilotWatchdogExpiry t => exact .inl (execPilotWatchdogExpiry_keep t s)
  | lastBreathReceived t => exact .inl (execLastBreathReceived_keep t s)
  | packageReset t verified => exact .inr (.inr (.inr (.inl ⟨t, verified, rfl⟩)))
  | mooringInputEdge t => exact .inl (execMooringInputEdge_keep t s)
  | aonPowerCycle t => exact .inr (.inr (.inr (.inr (.inr (.inl ⟨t, rfl⟩)))))
  | trstNAssert t => exact .inl (execTrstNAssert_keep t s)
  | sampleMpc t n addr => exact .inl (execSampleMpc_keep t n addr s)
  | flushWalkerVisit t id tab b => exact .inl (execFlushWalkerVisit_keep t id tab b s)

/-- What one command or event can do to the lifecycle state, and that it leaves the queue as it was. -/
theorem exec_moves (i : Instr) (s : State) :
    movesAs (fun a b => ((∃ c q, i = .lifecycleSet c q) ∧ TableMove a b) ∨ (EndsSurvey i ∧ a = 2 ∧ b = 1)) s (after (exec i s) s) := by
  rcases exec_keep_or_moves i s with hkeep | ⟨c, q, rfl⟩ | hends
  · exact movesAs_of_keep hkeep
  · exact movesAs_mono (fun _ _ hmove => .inl ⟨⟨c, q, rfl⟩, hmove⟩) (execLifecycleSet_moves c q s)
  · exact movesAs_mono (fun _ _ hmove => .inr ⟨hends, hmove⟩) (endsSurvey_moves hends s)

/-- Settles O7: a step idles, or is one command or event, which moves the lifecycle state as Table 19-2 says or not at all and leaves the
queue's rest. -/
theorem lifecycleStaysLegal : Obligations.LifecycleStaysLegal := by
  unfold Obligations.LifecycleStaysLegal
  intro s t hlegal hstep
  rcases step_cases hstep with ⟨hempty, rfl⟩ | ⟨i, rest, hq, rfl⟩
  · exact ⟨hlegal, by rw [hempty, List.tail_nil]⟩
  · obtain ⟨hsame | ⟨-, hmove⟩ | ⟨-, -, hcommissioned⟩, hrest⟩ := exec_moves i { s with pending := rest }
    · exact ⟨hsame.trans_le hlegal, by rw [hrest, hq, List.tail_cons]⟩
    · exact ⟨hmove.le_four, by rw [hrest, hq, List.tail_cons]⟩
    · exact ⟨hcommissioned.trans_le (by decide), by rw [hrest, hq, List.tail_cons]⟩

/-- Settles O8: a step that changes the lifecycle state is not idle, and its command or event makes one of the moves of `exec_moves`. -/
theorem lifecycleMovesAreThoseOfTheTable : Obligations.LifecycleMovesAreThoseOfTheTable := by
  unfold Obligations.LifecycleMovesAreThoseOfTheTable
  intro s t hstep hchanged
  rcases step_cases hstep with ⟨-, rfl⟩ | ⟨i, rest, hq, rfl⟩
  · exact absurd rfl hchanged
  · exact ⟨i, rest, hq, (exec_moves i { s with pending := rest }).1.resolve_left hchanged⟩

end Sys2Proof.Machine
end

section
/-! Proofs of the statements on the time base (spec/12_time_tides.md): TIME commands. -/

namespace Sys2Proof.Machine

open Sys2Proof

/-! ### Time commands (R332 to R351) -/

section
variable {x : Ctx} {q : List Word} {u : State}

/-- TIME.ADJUST of a unit that keeps its own time: phi is in range, and a slew that it starts is (R333, R334). -/
theorem actTimeAdjust_of_inRange (hsrc : tideSource u = 0) (hlow : -32768000 ≤ signed 32 (wd q 0)) (hhigh : signed 32 (wd q 0) ≤ 32768000)
    (hslew : flag q 1 0 = true → 1 ≤ fld q 1 9 1 ∧ fld q 1 9 1 ≤ 500 ∧ -(secU : Int) ≤ signed 64 (wd64 q 2)
      ∧ signed 64 (wd64 q 2) ≤ (secU : Int)) :
    actTimeAdjust x q u = done { u with tm := { u.tm with
      phi := signed 32 (wd q 0)
      slew := if flag q 1 0 then some ⟨signed 64 (wd64 q 2), fld q 1 9 1, elapsed u⟩
        else u.tm.slew.map fun v => { v with phase := slewRemaining u, start := elapsed u } } } := by
  have hslewRefused : ¬ (flag q 1 0 = true ∧ (fld q 1 9 1 < 1 ∨ 500 < fld q 1 9 1 ∨ signed 64 (wd64 q 2) < -(secU : Int)
      ∨ (secU : Int) < signed 64 (wd64 q 2))) := by
    rintro ⟨hvalid, hout⟩
    have := hslew hvalid
    omega
  exact if_neg (not_or.2 ⟨not_not_intro hsrc, not_or.2 ⟨not_lt.2 hlow, not_or.2 ⟨not_lt.2 hhigh, hslewRefused⟩⟩⟩)

/-- The linear value that a TIME.STEP names: an offset from the next boundary, or a value in the layout of Table 12-1 (R336). -/
def stepTarget (q : List Word) (u : State) : Int :=
  if flag q 0 0 then ((u.tm.tide + 1) * tideU : Int) + signed 80 (wd q 1 + 2 ^ 32 * wd q 2 + 2 ^ 64 * fld q 3 15 0)
  else tbLinear (wd q 1 + 2 ^ 32 * wd q 2 + 2 ^ 64 * fld q 3 15 0)

/-- TIME.STEP to a value that the time base can hold, while no commit names its tide (R336). -/
theorem actTimeStep_of_target {t : Nat} (hcommit : commitNamed u = false) (hsrc : tideSource u = 0)
    (hnanos : flag q 0 0 = false → bits (wd q 1 + 2 ^ 32 * wd q 2 + 2 ^ 64 * fld q 3 15 0) 45 16 < 1000000000)
    (htarget : (t : Int) = stepTarget q u) (hwrap : t < tbWrap) :
    actTimeStep x q u = reply (toWords (u.tm.tide + 1) 2 ++ toWords (bridgeEnd t - 1) 2 ++ tbWords (tbLayout t))
      { u with tm := { u.tm with step := some ⟨flag q 0 0, flag q 0 1, t, u.tm.tide + 1⟩ } } := by
  have hmodel : (if flag q 0 0 = true then (((u.tm.tide + 1 : Nat) * tideU : Int)
      + signed 80 (wd q 1 + 2 ^ 32 * wd q 2 + 2 ^ 64 * fld q 3 15 0))
      else tbLinear (wd q 1 + 2 ^ 32 * wd q 2 + 2 ^ 64 * fld q 3 15 0)) = (t : Int) := by
    rw [htarget, stepTarget]
    push_cast
    rfl
  have htaken : ¬ (commitNamed u = true ∨ tideSource u ≠ 0 ∨ (flag q 0 0 = false
      ∧ 1000000000 ≤ bits (wd q 1 + 2 ^ 32 * wd q 2 + 2 ^ 64 * fld q 3 15 0) 45 16) ∨ (t : Int) < 0 ∨ (tbWrap : Int) ≤ t) := by
    rintro (hnamed | hother | ⟨habsolute, hbad⟩ | hneg | hover)
    · exact ne_true_of_eq_false hcommit hnamed
    · exact hother hsrc
    · exact Nat.not_lt.2 hbad (hnanos habsolute)
    · exact absurd hneg (by omega)
    · exact absurd hover (by exact_mod_cast Nat.not_le.2 hwrap)
  simp only [actTimeStep, hmodel, if_neg htaken, Int.toNat_natCast]

theorem actTimeStateSet_of_locked (hstarted : u.tm.st ≠ 0) (hsrc : tideSource u = 0) (hcode : fld q 0 1 0 = 1 ∨ fld q 0 1 0 = 2) :
    actTimeStateSet x q u = done (setTimeState (fld q 0 1 0) u) := if_neg (by omega)

theorem actTimePortSet_of_portOf {y : Port} (hport : portOf u (wd q 0) = some y) (hmode : fld q 1 1 0 ≠ 3)
    (hrx : offsetOk (signed 32 (wd q 2)) = true) (htx : offsetOk (signed 32 (wd q 3)) = true) :
    actTimePortSet x q u = done (modTimePort (hIdx (wd q 0)) (fun y => { y with
      ptpMode := fld q 1 1 0, rxOff := signed 32 (wd q 2), txOff := signed 32 (wd q 3) }) u) := by
  rw [actTimePortSet, withPort_of_portOf hport]
  exact if_neg (by simp [hmode, hrx, htx])

/-- TIME.TSRING_SET of a ring that is off, that is stopped, or that holds nothing that the host has not taken (R346, R433). -/
theorem actTimeTsringSet_of_idle (hidle : u.host.tsrEnable = false ∨ u.host.tsrStopped = true
      ∨ ((u.tm.ports.any (fun p => p.fifo.any fun e => !e.own)) = false ∧ u.host.tsrProducer = u.host.tsrConsumer)) :
    actTimeTsringSet x q u = done { u with host := { u.host with
      tsrBase := wd64 q 0, tsrEnable := true, tsrStopped := false, tsrProducer := 0#32, tsrConsumer := 0#32 } } := by
  refine if_neg ?_
  rcases hidle with hoff | hstopped | ⟨hempty, hcounts⟩
  · simp [hoff]
  · simp [hstopped]
  · rw [hempty, hcounts]
    simp

theorem actTimeOriginate_of_portOf {y : Port} (hport : portOf u (wd q 0) = some y) (hrate : fld q 1 7 0 ≤ 128) :
    actTimeOriginate x q u = done (modTimePort (hIdx (wd q 0)) (fun y => { y with
      origRate := fld q 1 7 0, origTemplate := (wordBytes (q.drop 3)).take (fld q 2 9 0) }) u) := by
  rw [actTimeOriginate, withPort_of_portOf hport]
  exact if_neg (Nat.not_lt.2 hrate)

theorem actTimePpsSet_of_inRange (hlow : -10000 ≤ signed 32 (wd q 0)) (hhigh : signed 32 (wd q 0) ≤ 10000) (hwidth : 1 ≤ fld q 1 8 0)
    (hwidest : fld q 1 8 0 ≤ 500) :
    actTimePpsSet x q u = done { u with tm := { u.tm with ppsOffset := signed 32 (wd q 0), ppsWidth := fld q 1 8 0 } } :=
  if_neg (by omega)

theorem actTimeSynceSet_of_lane (hlane : fld q 0 7 1 < 64) (hdiv : fld q 0 9 8 ≠ 3) :
    actTimeSynceSet x q u = done (syncEUpdate { u with tm := { u.tm with synce := lmod u.tm.synce (fld q 0 0 0) fun o =>
      { o with lane := fld q 0 7 1, div := fld q 0 9 8, squelch := flag q 0 10, enable := flag q 0 11 } } }) :=
  if_neg (by omega)

theorem actTimeTideSet_of_source (hsource : fld q 0 1 0 ≤ 1) (hchain : fld q 1 14 0 ≤ 20000) (hcommit : commitNamed u = false) :
    actTimeTideSet x q u = done { u with tm := { u.tm with
      source := fld q 0 1 0, chain := fld q 1 14 0, tideInBad := 0, tideInLost := false, alignFault := false } } := by
  refine if_neg (not_or.2 ⟨by omega, not_or.2 ⟨by omega, ne_true_of_eq_false hcommit⟩⟩)

theorem actTimeCounters_port (hport : fld q 1 6 0 < 64) :
    actTimeCounters x q u = reply (ctrWords u.ctr 0x4D (fld q 1 6 0 + 1) (List.range 5)) u :=
  (if_neg (by omega)).trans (if_pos hport)

theorem actTimeCounters_device (hdevice : fld q 1 6 0 = 127) :
    actTimeCounters x q u = reply (ctrWords u.ctr 0x4D 0 (List.range 5)) u := if_pos hdevice

end

/-- Settles O36: each row runs its command, and the command's own meaning answers OK under the clause's conditions. -/
theorem timeCommandsComplete : Obligations.TimeCommandsComplete := by
  unfold Obligations.TimeCommandsComplete
  exact ⟨runs_of_act (.inl rfl) (fun _ _ _ => rfl) fun _ _ _ _ => rfl,
    runs_of_act (.inl rfl) (fun _ _ _ => rfl) fun c _ _ ⟨hsrc, hlow, hhigh, hslew⟩ =>
      actTimeAdjust_of_inRange (x := directCtx c) hsrc hlow hhigh hslew,
    fun _ => runs_of_act (.inl rfl) (fun _ _ _ => rfl) fun c _ _ ⟨hcommit, hsrc, hnanos, htarget, hwrap⟩ =>
      actTimeStep_of_target (x := directCtx c) hcommit hsrc hnanos htarget hwrap,
    runs_of_act (.inl rfl) (fun _ _ _ => rfl) fun c _ _ ⟨hstarted, hsrc, hcode⟩ =>
      actTimeStateSet_of_locked (x := directCtx c) hstarted hsrc hcode,
    runs_of_act (.inl rfl) (fun _ _ _ => rfl) fun _ _ _ _ => rfl,
    fun _ => runs_of_act (.inl rfl) (fun _ _ _ => rfl) fun c _ _ ⟨hport, hmode, hrx, htx⟩ =>
      actTimePortSet_of_portOf (x := directCtx c) hport hmode hrx htx,
    runs_of_act (.inl rfl) (fun _ _ _ => rfl) fun c _ _ hidle => actTimeTsringSet_of_idle (x := directCtx c) hidle,
    fun _ => runs_of_act (.inl rfl) (fun _ _ _ => rfl) fun c _ _ ⟨hport, hrate⟩ =>
      actTimeOriginate_of_portOf (x := directCtx c) hport hrate,
    runs_of_act (.inl rfl) (fun _ _ _ => rfl) fun c _ _ ⟨hlow, hhigh, hwidth, hwidest⟩ =>
      actTimePpsSet_of_inRange (x := directCtx c) hlow hhigh hwidth hwidest,
    runs_of_act (.inl rfl) (fun _ _ _ => rfl) fun _ _ _ _ => rfl,
    runs_of_act (.inl rfl) (fun _ _ _ => rfl) fun c _ _ ⟨hlane, hdiv⟩ => actTimeSynceSet_of_lane (x := directCtx c) hlane hdiv,
    runs_of_act (.inl rfl) (fun _ _ _ => rfl) fun c _ _ ⟨hsource, hchain, hcommit⟩ =>
      actTimeTideSet_of_source (x := directCtx c) hsource hchain hcommit,
    runs_of_act (.inl rfl) (fun _ _ _ => rfl) fun c _ _ hport => actTimeCounters_port (x := directCtx c) hport,
    runs_of_act (.inl rfl) (fun _ _ _ => rfl) fun c _ _ hdevice => actTimeCounters_device (x := directCtx c) hdevice⟩

end Sys2Proof.Machine
end

section
/-! Proofs of the statements on faults and the HBM (spec/13_hbm_memory.md, spec/20_faults_recovery.md): FAULT and MEM commands. -/

namespace Sys2Proof.Machine

open Sys2Proof

/-! ### Fault commands (R521, R526, R530 to R532, R536, R537, Table 20-11) -/

section
variable {x : Ctx} {q : List Word} {u : State}

theorem actFaultLogRead_of_entries (hsome : 1 ≤ fld q 0 12 6) (hend : fld q 0 5 0 + fld q 0 12 6 ≤ 64) :
    actFaultLogRead x q u =
      reply ((List.range' (fld q 0 5 0) (fld q 0 12 6)).flatMap fun j => u.aon.log.getD j (List.replicate 8 0#32)) u :=
  if_neg (by omega)

theorem actFaultLastBreathSet_of_aligned (haligned : wd64 q 0 % 4096 = 0) :
    actFaultLastBreathSet x q u = done { u with flt := { u.flt with lbAddr := wd64 q 0, lbOn := flag q 2 0 } } :=
  if_neg (not_not_intro haligned)

theorem actFaultLastBreathRead_of_record {r : List Byte} (hrecord : (if flag q 0 0 then u.aon.twin else u.aon.own) = some r) :
    actFaultLastBreathRead x q u = reply (packWords ((r.drop (if flag q 0 1 then 2048 else 0)).take 2048)) u := by
  rw [actFaultLastBreathRead, hrecord]

theorem actFaultClusterReinit_of_fenced {f : Fenced} (hfenced : tget u.flt.fences (fld q 0 6 0) = some f) :
    actFaultClusterReinit x q u =
      ⟨stAccepted, [], { u with flt := { u.flt with fences := tset u.flt.fences (fld q 0 6 0) { f with perm := false } } }, 0⟩ := by
  simp only [actFaultClusterReinit, hfenced]

/-- FAULT.RESET in the safe state, or with the low half of the device's number (R536). -/
theorem actFaultReset_of_meant (hmeant : u.id.fwState = 3 ∨ wd q 0 = Config.udn.toNat % 2 ^ 32) :
    actFaultReset x q u = done { u with flt := { u.flt with resetAt := elapsed u + msU 1 + 1 } } :=
  if_neg fun ⟨hserving, hother⟩ => hmeant.elim hserving hother

/-! ### Memory commands (R359, R360, R370, R374, R377, R378, Tables 13-5 and 13-6) -/

theorem actMemSet_of_inRange (hlow : 64 ≤ fld q 1 16 0) (hhigh : fld q 1 16 0 ≤ 80000) (hwLow : 500 ≤ fld q 2 11 0)
    (hwHigh : fld q 2 11 0 ≤ 4000) (hscrubLow : 1 ≤ fld q 4 7 0) (hscrubHigh : fld q 4 7 0 ≤ 168) :
    actMemSet x q u =
      (let c : MemCfg := { p := fld q 1 16 0, w := fld q 2 11 0, ce := fld q 3 15 0, pred := flag q 3 16, scrub := fld q 4 7 0 }
       done { u with hbm := if flag q 0 0 then { u.hbm with td := c } else { u.hbm with fd := c } }) :=
  if_neg (by omega)

theorem actMemStatus_of_stack (hstack : fld q 0 2 0 < 6) :
    actMemStatus x q u =
      (let y := stackAt u (fld q 0 2 0)
       reply [toWord (y.st + 4 * y.freeSpares.length + 256 * y.donors.length + 8192 * b2n (!y.migs.isEmpty)), toWord y.failed.length,
         toWord (256 * y.donors.length), toWord (unsigned 8 y.temp)] u) :=
  if_neg (Nat.not_le.2 hstack)

theorem actMemRemapRead_of_stack (hstack : fld q 0 2 0 < 6) :
    actMemRemapRead x q u = reply ((stackAt u (fld q 0 2 0)).map.map Remap.word) u := if_neg (Nat.not_le.2 hstack)

/-- MEM.SPARE of a rank on its own or a spare rank that does not migrate, while the stack has a free spare (R377). -/
theorem actMemSpare_of_free (hstack : fld q 0 2 0 < 6) (hown : ((stackAt u (fld q 0 2 0)).entry (fld q 1 6 0)).st ≤ 1)
    (hstill : ((stackAt u (fld q 0 2 0)).migs.any fun m => m.rank == fld q 1 6 0) = false)
    (hfree : (stackAt u (fld q 0 2 0)).freeSpares ≠ []) :
    actMemSpare x q u = done (rankOut (fld q 0 2 0) (fld q 1 6 0) 5 true u) := by
  have hmoves : ¬ (1 < ((stackAt u (fld q 0 2 0)).entry (fld q 1 6 0)).st
      ∨ ((stackAt u (fld q 0 2 0)).migs.any fun m => m.rank == fld q 1 6 0) = true
      ∨ (stackAt u (fld q 0 2 0)).freeSpares.isEmpty = true) :=
    not_or.2 ⟨Nat.not_lt.2 hown, not_or.2 ⟨ne_true_of_eq_false hstill, fun hnone => hfree (List.isEmpty_iff.1 hnone)⟩⟩
  exact (if_neg (Nat.not_le.2 hstack)).trans (if_neg hmoves)

theorem actMemTrainReport_of_stack (hstack : fld q 0 2 0 < 6) :
    actMemTrainReport x q u =
      (let y := (stackAt u (fld q 0 2 0)).chans.getD (fld q 1 4 0) {}
       reply ([toWord (b2n y.trained + 16 * y.lanes), toWord y.rdWin, toWord y.wrWin] ++ toWords y.lastWin 2) u) :=
  if_neg (Nat.not_le.2 hstack)

theorem actMemCounters_of_stack (hstack : fld q 0 2 0 < 6) :
    actMemCounters x q u = reply (ctrWords u.ctr 0x4E (fld q 0 2 0 + 1) (List.range 19)) u := if_neg (Nat.not_le.2 hstack)

end

/-- Settles O38: each row runs its command, and the command's own meaning answers OK or ACCEPTED under the clause's conditions. -/
theorem faultAndMemoryCommandsComplete : Obligations.FaultAndMemoryCommandsComplete := by
  unfold Obligations.FaultAndMemoryCommandsComplete
  refine ⟨runs_of_act (.inl rfl) (fun _ _ _ => rfl) fun _ _ _ _ => rfl,
    runs_of_act (.inl rfl) (fun _ _ _ => rfl) fun c _ _ ⟨hsome, hend⟩ => actFaultLogRead_of_entries (x := directCtx c) hsome hend,
    runs_of_act (.inl rfl) (fun _ _ _ => rfl) fun c _ _ haligned => actFaultLastBreathSet_of_aligned (x := directCtx c) haligned,
    fun _ => runs_of_act (.inl rfl) (fun _ _ _ => rfl) fun c _ _ hrecord => actFaultLastBreathRead_of_record (x := directCtx c) hrecord,
    fun _ => runs_of_act (.inr rfl) (fun _ _ _ => rfl) fun c _ _ hfenced => actFaultClusterReinit_of_fenced (x := directCtx c) hfenced,
    runs_of_act (.inl rfl) (fun _ _ _ => rfl) fun c _ _ hmeant => actFaultReset_of_meant (x := directCtx c) hmeant,
    runs_of_act (.inl rfl) (fun _ _ _ => rfl) fun _ _ _ _ => rfl,
    runs_of_act (.inl rfl) (fun _ _ _ => rfl) fun c _ _ ⟨hlow, hhigh, hwLow, hwHigh, hscrubLow, hscrubHigh⟩ =>
      actMemSet_of_inRange (x := directCtx c) hlow hhigh hwLow hwHigh hscrubLow hscrubHigh,
    fun _ => runs_of_act (.inl rfl) (fun _ _ _ => rfl) ?status,
    runs_of_act (.inl rfl) (fun _ _ _ => rfl) fun c _ _ hstack => actMemRemapRead_of_stack (x := directCtx c) hstack,
    runs_of_act (.inl rfl) (fun _ _ _ => rfl) fun c _ _ ⟨hstack, hown, hstill, hfree⟩ =>
      actMemSpare_of_free (x := directCtx c) hstack hown hstill hfree,
    fun _ => runs_of_act (.inl rfl) (fun _ _ _ => rfl) ?train,
    runs_of_act (.inl rfl) (fun _ _ _ => rfl) fun c _ _ hstack => actMemCounters_of_stack (x := directCtx c) hstack⟩
  case status =>
    rintro c q u ⟨hstack, rfl⟩
    exact actMemStatus_of_stack (x := directCtx c) hstack
  case train =>
    rintro c q u ⟨hstack, rfl⟩
    exact actMemTrainReport_of_stack (x := directCtx c) hstack

end Sys2Proof.Machine
end

section
/-! Proofs of the statements on the commands of the twin pair (spec/14_twin_redundancy.md, Table 14-10). -/

namespace Sys2Proof.Machine

open Sys2Proof

/-! ### Twin commands (R380, R387, R402, R405, R409, R413, R415) -/

section
variable {x : Ctx} {q : List Word} {u : State}

/-- A twin command runs on a paired unit (R380). -/
theorem onPair_of_paired (hpaired : u.id.twinEn = true) (f : Act) : onPair f x q u = f x q u := if_pos hpaired

theorem actTwinSet_of_cold (hpaired : u.id.twinEn = true) (hcold : u.twin.st = 4) :
    actTwinSet x q u = done (modTwin (fun y => { y with
      dMode := flag q 0 0, auto := flag q 0 1, referee := flag q 0 2, mismatch := false }) u) :=
  (onPair_of_paired hpaired _).trans (if_neg (not_not_intro hcold))

theorem actTwinStatus_of_paired (hpaired : u.id.twinEn = true) :
    actTwinStatus x q u = reply (toWord (u.twin.st + u.twin.peer * 8 + b2n u.twin.hawser * 2 ^ 6
      + b2n (decide (u.twin.moorIn ≠ 0) && !u.twin.hbLost) * 2 ^ 7 + (b2n u.twin.killIn * 2 ^ 8 + b2n u.twin.killOut * 2 ^ 9)
      + b2n u.twin.dMode * 2 ^ 10 + u.twin.stale * 2 ^ 11) :: (toWords u.twin.lastCk 2 ++ toWords u.twin.lastMf 2)) u := if_pos hpaired

theorem actTwinStatus_of_solo (hsolo : u.id.twinEn = false) :
    actTwinStatus x q u = reply [toWord (b2n u.twin.killIn * 2 ^ 8 + b2n u.twin.killOut * 2 ^ 9), 0#32, 0#32, 0#32, 0#32] u :=
  if_neg (ne_true_of_eq_false hsolo)

/-- TWIN.SWITCH of an ACTIVE unit with a WARM standby, at a tide far enough ahead that no commit has named (R409). -/
theorem actTwinSwitch_of_warm (hpaired : u.id.twinEn = true) (hactive : u.twin.st = 1) (hwarm : u.twin.peer = 2)
    (hahead : u.tm.tide + 2 ≤ wd64 q 0)
    (hfree : ((txns u).any fun e => (e.2.phase == 2 || e.2.named) && (e.2.c == wd64 q 0 || e.2.c == wd64 q 0 + 1)) = false) :
    actTwinSwitch x q u = done (modTwin (fun y => { y with switch := some { n := wd64 q 0 } }) u) := by
  have hpeer : ¬ u.twin.peer = 5 := by omega
  have hserves : ¬ (u.twin.peer ≠ 2 ∨ wd64 q 0 < u.tm.tide + 2 ∨ ((txns u).any fun e =>
      (e.2.phase == 2 || e.2.named) && (e.2.c == wd64 q 0 || e.2.c == wd64 q 0 + 1)) = true) :=
    not_or.2 ⟨not_not_intro hwarm, not_or.2 ⟨Nat.not_lt.2 hahead, ne_true_of_eq_false hfree⟩⟩
  exact (onPair_of_paired hpaired _).trans ((if_neg (not_not_intro hactive)).trans ((if_neg hpeer).trans (if_neg hserves)))

theorem actTwinForce_yield (hpaired : u.id.twinEn = true) (hyield : flag q 0 0 = true) :
    actTwinForce x q u = done (if u.twin.st = 1 then goCold u else u) :=
  (onPair_of_paired hpaired _).trans (if_pos hyield)

theorem actTwinForce_take (hpaired : u.id.twinEn = true) (htake : flag q 0 0 = false) :
    actTwinForce x q u = done (if u.twin.st = 1 ∨ u.twin.takeAt ≠ 0 then u
      else berthTake true (modTwin (fun y => { y with detector := 0 }) u)) :=
  (onPair_of_paired hpaired _).trans ((if_neg (ne_true_of_eq_false htake)).trans (apply_ite done _ _ _).symm)

theorem actTwinJoin_of_able (hpaired : u.id.twinEn = true) (hcold : u.twin.st = 4) (hjoin : canJoin u = true)
    (hversions : versionsFit u = true) : actTwinJoin x q u = done (startJoin u) := by
  have hable : (canJoin u && versionsFit u) = true := by rw [hjoin, hversions]; rfl
  exact (onPair_of_paired hpaired _).trans ((if_neg (not_not_intro hcold)).trans (if_pos hable))

theorem not_bnot_of_eq_true {b : Bool} (hset : b = true) : ¬ (!b) = true := by
  rw [hset]
  decide

theorem actTwinRefereeLoad_of_vector (hpaired : u.id.twinEn = true) (hvalid : flag q 0 8 = true) (hshort : 60 ≤ fld q 4 8 0)
    (hlong : fld q 4 8 0 ≤ 256) :
    actTwinRefereeLoad x q u = done (modTwin (fun y => { y with
      vectors := tset y.vectors (fld q 0 5 0) ⟨fld q 1 5 0, wd64 q 2, (wordBytes (q.drop 5)).take (fld q 4 8 0)⟩ }) u) := by
  have hlength : ¬ (fld q 4 8 0 < 60 ∨ 256 < fld q 4 8 0) := by omega
  exact (onPair_of_paired hpaired _).trans ((if_neg (not_bnot_of_eq_true hvalid)).trans (if_neg hlength))

theorem actTwinRefereeLoad_delete (hpaired : u.id.twinEn = true) (hinvalid : flag q 0 8 = false) :
    actTwinRefereeLoad x q u = done (modTwin (fun y => { y with vectors := terase y.vectors (fld q 0 5 0) }) u) := by
  have hdeletes : (!flag q 0 8) = true := by rw [hinvalid]; rfl
  exact (onPair_of_paired hpaired _).trans (if_pos hdeletes)

theorem actTwinDecide_of_undecided (hpaired : u.id.twinEn = true) (hundecided : u.twin.undecided = true) :
    actTwinDecide x q u =
      (let v := if u.twin.hawser then emit (.hawser (.config (.direct 0x0F07 q 0))) u else u
       done (faulty (fld q 0 0 0 == activeId v) 3 v)) :=
  (onPair_of_paired hpaired _).trans (if_neg (not_bnot_of_eq_true hundecided))

/-- TWIN.MANIFEST_READ of a port that both manifests of the tide hold (R402). -/
theorem actTwinManifestRead_of_held {w v a b : List Word} (hpaired : u.id.twinEn = true) (hown : mfOf u.twin.own (wd64 q 0) = some w)
    (hownPort : mfPort w (fld q 2 5 0) = some a) (htwin : mfOf u.twin.twin (wd64 q 0) = some v)
    (htwinPort : mfPort v (fld q 2 5 0) = some b) : actTwinManifestRead x q u = reply (a ++ b) u := by
  refine (onPair_of_paired hpaired _).trans ?_
  simp only [hown, htwin, Option.bind_some, hownPort, htwinPort]

theorem actTwinCounters_of_paired (hpaired : u.id.twinEn = true) :
    actTwinCounters x q u = reply (ctrWords u.ctr 0x4F 0 (List.range 16)) u := onPair_of_paired hpaired _

end

/-- Settles O39: each row runs its command, and the command's own meaning answers OK under the clause's conditions. -/
theorem twinCommandsComplete : Obligations.TwinCommandsComplete := by
  unfold Obligations.TwinCommandsComplete
  refine ⟨runs_of_act (.inl rfl) (fun _ _ _ => rfl) fun c _ _ ⟨hpaired, hcold⟩ => actTwinSet_of_cold (x := directCtx c) hpaired hcold,
    runs_of_act (.inl rfl) (fun _ _ _ => rfl) fun c q _ hpaired => actTwinStatus_of_paired (x := directCtx c) (q := q) hpaired,
    runs_of_act (.inl rfl) (fun _ _ _ => rfl) fun c q _ hsolo => actTwinStatus_of_solo (x := directCtx c) (q := q) hsolo,
    runs_of_act (.inl rfl) (fun _ _ _ => rfl) fun c _ _ ⟨hpaired, hactive, hwarm, hahead, hfree⟩ =>
      actTwinSwitch_of_warm (x := directCtx c) hpaired hactive hwarm hahead hfree,
    runs_of_act (.inl rfl) (fun _ _ _ => rfl) fun c _ _ ⟨hpaired, hyield⟩ => actTwinForce_yield (x := directCtx c) hpaired hyield,
    runs_of_act (.inl rfl) (fun _ _ _ => rfl) fun c _ _ ⟨hpaired, htake⟩ => actTwinForce_take (x := directCtx c) hpaired htake,
    runs_of_act (.inl rfl) (fun _ _ _ => rfl) fun c q _ ⟨hpaired, hcold, hjoin, hversions⟩ =>
      actTwinJoin_of_able (x := directCtx c) (q := q) hpaired hcold hjoin hversions,
    runs_of_act (.inl rfl) (fun _ _ _ => rfl) fun c _ _ ⟨hpaired, hvalid, hshort, hlong⟩ =>
      actTwinRefereeLoad_of_vector (x := directCtx c) hpaired hvalid hshort hlong,
    runs_of_act (.inl rfl) (fun _ _ _ => rfl) fun c _ _ ⟨hpaired, hinvalid⟩ =>
      actTwinRefereeLoad_delete (x := directCtx c) hpaired hinvalid,
    runs_of_act (.inl rfl) (fun _ _ _ => rfl) fun c _ _ ⟨hpaired, hundecided⟩ =>
      actTwinDecide_of_undecided (x := directCtx c) hpaired hundecided,
    fun _ _ _ _ _ => runs_of_act (.inl rfl) (fun _ _ _ => rfl) ?manifest,
    runs_of_act (.inl rfl) (fun _ _ _ => rfl) fun c q _ hpaired => actTwinCounters_of_paired (x := directCtx c) (q := q) hpaired⟩
  case manifest =>
    rintro c q u ⟨hpaired, rfl, hown, hownPort, htwin, htwinPort⟩
    exact actTwinManifestRead_of_held (x := directCtx c) hpaired hown hownPort htwin htwinPort

end Sys2Proof.Machine
end

section
/-! Proofs of the statements on telemetry and packet I/O commands (spec/15_host_pcie.md, spec/21_telemetry_counters.md). -/

namespace Sys2Proof.Machine

open Sys2Proof

/-! ### Telemetry commands (R435, R539, R544, R547, R549, R550, R553, R555) -/

section
variable {x : Ctx} {q : List Word} {u : State}

/-- A selection of TELEM.BANK_SET that samples does so on a bank and an event that can, at a period in range (R545). -/
def SamplesLegally (q : List Word) : Prop :=
  ((fld q 0 6 0 ≤ 15 ∧ packetEvent (fld q 1 11 0 / 64) (fld q 1 11 0 % 64) = true)
    ∨ (fld q 0 6 0 = 80 ∧ mpcEvent (fld q 1 11 0 / 64) (fld q 1 11 0 % 64) = true)) ∧ 1024 ≤ wd64 q 2 ∧ wd64 q 2 ≤ 2 ^ 47

/-- TELEM.BANK_SET of an event that the bank counts, which samples only as it may, and which a bank granted to users may hold (R544,
R547). -/
theorem actTelemBankSet_of_legal (hbank : fld q 0 6 0 ≤ 81) (hevent : bankEventOk (fld q 0 6 0) (fld q 1 11 0) = true)
    (hsample : flag q 1 13 = true → SamplesLegally q)
    (hgranted : bankGranted u (fld q 0 6 0) = true → privilegedEvent (fld q 0 6 0) (fld q 1 11 0) = false) :
    actTelemBankSet x q u =
      (let y : Sel := { ev := fld q 1 11 0, en := flag q 1 12, sample := flag q 1 13, period := wd64 q 2 }
       done (modBank (fld q 0 6 0) (fun z => { z with pend := tset z.pend (fld q 0 10 8) y }) u)) := by
  have hsampleTaken : ¬ (flag q 1 13 = true
      ∧ ((!((decide (fld q 0 6 0 ≤ 15) && packetEvent (fld q 1 11 0 / 64) (fld q 1 11 0 % 64))
          || (fld q 0 6 0 == 80 && mpcEvent (fld q 1 11 0 / 64) (fld q 1 11 0 % 64)))) = true
        ∨ wd64 q 2 < 1024 ∨ 2 ^ 47 < wd64 q 2)) := by
    rintro ⟨hon, hrefused⟩
    obtain ⟨hpolls, hlow, hhigh⟩ := hsample hon
    rcases hrefused with hnoPoll | hshort | hlong
    · rcases hpolls with ⟨hpipe, hpacket⟩ | ⟨hmpc, hcore⟩
      · simp [hpipe, hpacket] at hnoPoll
      · simp [hmpc, hcore] at hnoPoll
    · exact Nat.not_lt.2 hlow hshort
    · exact Nat.not_lt.2 hhigh hlong
  have hgrantTaken : ¬ (bankGranted u (fld q 0 6 0) = true ∧ privilegedEvent (fld q 0 6 0) (fld q 1 11 0) = true) :=
    fun ⟨hgrant, hprivileged⟩ => ne_true_of_eq_false (hgranted hgrant) hprivileged
  exact if_neg (not_or.2 ⟨Nat.not_lt.2 hbank, not_or.2 ⟨not_bnot_of_eq_true hevent, not_or.2 ⟨hsampleTaken, hgrantTaken⟩⟩⟩)

theorem actTelemBankRead_of_bank (hbank : fld q 0 6 0 ≤ 81) :
    actTelemBankRead x q u = reply ((bankOf u (fld q 0 6 0)).fields.flatMap fun v => toWords v 2) u := if_neg (Nat.not_lt.2 hbank)

/-- TELEM.USER_GRANT changes the grant of key k, that of a counter group or of a bank's page (R435). -/
def grantSet (k : Nat) (on : Bool) (u : State) : State :=
  { u with host := { u.host with grants := (u.host.grants.filter fun y => y != k) ++ if on then [k] else [] } }

theorem grantSet_eq (k : Nat) (on : Bool) (u : State) :
    { u with host := { u.host with grants :=
      if on then (u.host.grants.filter fun y => y != k) ++ [k] else u.host.grants.filter fun y => y != k } } = grantSet k on u := by
  cases on
  · simp [grantSet]
  · rfl

/-- TELEM.USER_GRANT of a bank's page: a grant that is given is of a bank of users' events only (R435, R547). -/
theorem actTelemUserGrant_bank (hgroup : fld q 0 7 0 = 0x60) (hbank : fld q 0 15 8 ≤ 81)
    (hopen : flag q 0 16 = true → fld q 0 15 8 < 80 ∧ (((bankOf u (fld q 0 15 8)).sel ++ (bankOf u (fld q 0 15 8)).pend.map Prod.snd).any
      fun e => e.en && privilegedEvent (fld q 0 15 8) e.ev) = false) :
    actTelemUserGrant x q u = done (grantSet (0x6000 + fld q 0 15 8) (flag q 0 16) u) := by
  have hknown : (!groupKnown (fld q 0 7 0)) = false := by rw [hgroup]; decide
  have hgiven : ¬ (fld q 0 7 0 = 0x60 ∧ (81 < fld q 0 15 8 ∨ (flag q 0 16 = true ∧ (80 ≤ fld q 0 15 8
      ∨ (((bankOf u (fld q 0 15 8)).sel ++ (bankOf u (fld q 0 15 8)).pend.map Prod.snd).any
        fun e => e.en && privilegedEvent (fld q 0 15 8) e.ev) = true)))) := by
    rintro ⟨-, hfar | ⟨hon, hclosed⟩⟩
    · exact Nat.not_lt.2 hbank hfar
    · obtain ⟨hlow, hpublic⟩ := hopen hon
      exact hclosed.elim (Nat.not_le.2 hlow) (ne_true_of_eq_false hpublic)
  refine (if_neg (not_or.2 ⟨ne_true_of_eq_false hknown, hgiven⟩)).trans ?_
  simp only [if_pos hgroup]
  exact congrArg done (grantSet_eq _ _ _)

/-- TELEM.USER_GRANT of a counter group (R435). -/
theorem actTelemUserGrant_group (hknown : groupKnown (fld q 0 7 0) = true) (hgroup : fld q 0 7 0 ≠ 0x60) :
    actTelemUserGrant x q u = done (grantSet (fld q 0 7 0) (flag q 0 16) u) := by
  refine (if_neg (not_or.2 ⟨not_bnot_of_eq_true hknown, fun hbank => hgroup hbank.1⟩)).trans ?_
  simp only [if_neg hgroup]
  exact congrArg done (grantSet_eq _ _ _)

/-- TELEM.BW_SET of a port that exists, with a W in range (R549). -/
theorem actTelemBwSet_of_port (hport : (hType (wd q 0) = 0x30 ∧ thas u.line.ports (hIdx (wd q 0)) = true)
      ∨ (hType (wd q 0) = 0x32 ∧ thas u.tr.ports (hIdx (wd q 0)) = true)) (hlow : 1 ≤ fld q 1 12 0) (hhigh : fld q 1 12 0 ≤ 8000) :
    actTelemBwSet x q u = done (modWindow (hIdx (wd q 0)) (fun y => { y with
      next := if fld q 1 12 0 = y.w then none else some (fld q 1 12 0), peak := if flag q 1 16 then [0, 0] else y.peak }) u) := by
  have hnamed : ((hType (wd q 0) == 0x30 && thas u.line.ports (hIdx (wd q 0)))
      || (hType (wd q 0) == 0x32 && thas u.tr.ports (hIdx (wd q 0)))) = true := by simpa using hport
  have hrange : ¬ (fld q 1 12 0 = 0 ∨ 8000 < fld q 1 12 0) := by omega
  exact (if_neg (not_bnot_of_eq_true hnamed)).trans (if_neg hrange)

/-- TELEM.DUMP_SET of settings that disable the stream, or that keep the bounds of R550 and R553. -/
theorem actTelemDumpSet_of_legal (hlegal : (dumpCfgOf q).en = true → dumpCfgOk (dumpCfgOf q) = true
      ∧ dumpRateOk (dumpCfgOf q :: (((u.tel.dumps.zipIdx).filter fun e => e.2 != fld q 0 1 0).map
          fun e => e.1.pend.getD e.1.cfg).filter fun y => y.en) = true) :
    actTelemDumpSet x q u =
      done (modTel (fun t => { t with dumps := lmod t.dumps (fld q 0 1 0) fun d => { d with pend := some (dumpCfgOf q) } }) u) := by
  refine if_neg fun hrefused => ?_
  obtain ⟨hen, hbad⟩ := Bool.and_eq_true_iff.1 hrefused
  obtain ⟨hcfg, hrate⟩ := hlegal hen
  rw [hcfg, hrate] at hbad
  exact absurd hbad (by decide)

/-! ### Packet I/O commands (R427, R436, Table 15-10) -/

theorem actPioRingMap_direct (hph : x.ph = .direct) (hreason : fld q 0 7 0 ≠ 0) :
    actPioRingMap x q u = done (modHost (fun h => { h with ringMap := mset 0 h.ringMap (fld q 0 7 0) (fld q 1 5 0) }) u) := by
  rw [actPioRingMap, if_neg hreason, hph]
  rfl

theorem actPioCounters_ring (hring : fld q 0 6 0 < 64) :
    actPioCounters x q u = reply (ctrWords u.ctr 0x55 (fld q 0 6 0 + 1) [0, 1, 2, 3, 16, 17, 18]) u :=
  (if_neg (by omega)).trans (if_neg (by omega))

theorem actPioCounters_device (hdevice : fld q 0 6 0 = 64) :
    actPioCounters x q u = reply (ctrWords u.ctr 0x55 0 [0, 1, 2, 3]) u :=
  (if_neg (by omega)).trans (if_pos hdevice)

end

/-- Settles O40: each row runs its command, and the command's own meaning answers OK under the clause's conditions. -/
theorem telemetryAndPacketIoCommandsComplete : Obligations.TelemetryAndPacketIoCommandsComplete := by
  unfold Obligations.TelemetryAndPacketIoCommandsComplete
  exact ⟨runs_of_act (.inl rfl) (fun _ _ _ => rfl) fun c _ _ ⟨hbank, hevent, hsample, hgranted⟩ =>
      actTelemBankSet_of_legal (x := directCtx c) hbank hevent hsample hgranted,
    runs_of_act (.inl rfl) (fun _ _ _ => rfl) fun c _ _ hbank => actTelemBankRead_of_bank (x := directCtx c) hbank,
    runs_of_act (.inl rfl) (fun _ _ _ => rfl) fun c _ _ ⟨hgroup, hbank, hopen⟩ =>
      actTelemUserGrant_bank (x := directCtx c) hgroup hbank hopen,
    runs_of_act (.inl rfl) (fun _ _ _ => rfl) fun c _ _ ⟨hknown, hgroup⟩ =>
      actTelemUserGrant_group (x := directCtx c) hknown hgroup,
    runs_of_act (.inl rfl) (fun _ _ _ => rfl) fun c _ _ ⟨hport, hlow, hhigh⟩ =>
      actTelemBwSet_of_port (x := directCtx c) hport hlow hhigh,
    runs_of_act (.inl rfl) (fun _ _ _ => rfl) fun c _ _ hlegal => actTelemDumpSet_of_legal (x := directCtx c) hlegal,
    runs_of_act (.inl rfl) (fun _ _ _ => rfl) fun _ _ _ _ => rfl,
    runs_of_act (.inl rfl) (fun _ _ _ => rfl) fun _ _ _ _ => rfl,
    runs_of_act (.inl rfl) (fun _ _ _ => rfl) fun c _ _ hreason => actPioRingMap_direct (x := directCtx c) rfl hreason,
    runs_of_act (.inl rfl) (fun _ _ _ => rfl) fun c _ _ hring => actPioCounters_ring (x := directCtx c) hring,
    runs_of_act (.inl rfl) (fun _ _ _ => rfl) fun c _ _ hdevice => actPioCounters_device (x := directCtx c) hdevice⟩

end Sys2Proof.Machine
end

section
/-! Proofs of the statements on the commands of the power governor (spec/18_power_governor.md). -/

namespace Sys2Proof.Machine

open Sys2Proof

/-! ### Power commands (R488, R491, R494 to R497) -/

section
variable {x : Ctx} {q : List Word} {u : State}

/-- The tolerances that admission counts until the boundary after the next (R491). -/
def tolsCounted (u : State) : Tols := match u.pow.lag with | some (_, o) => o | none => u.pow.tol

/-- A direct change of the tolerances: admission still counts the old ones. -/
theorem tolChange_direct (hph : x.ph = .direct) (t : Tols) :
    tolChange x t u = { u with pow := { u.pow with tol := t, lag := some (2, tolsCounted u) } } := by
  rw [tolChange, if_pos hph]
  rfl

theorem actPowerTolSet_direct (hph : x.ph = .direct) (hrange : ∀ i, i < 9 → wd q i ≤ 1000000000) :
    actPowerTolSet x q u = done (tolChange x (tolIn q u.pow.tol) u) := by
  have hlegal : (List.range 9).any (fun i => decide (1000000000 < wd q i)) = false := by simpa using hrange
  rw [actPowerTolSet, hlegal, hph]
  rfl

/-- An Ethernet or transport port that exists is an object (R11). -/
theorem objExists_of_port {h : Nat} (hport : (hType h = 0x30 ∧ thas u.line.ports (hIdx h) = true)
      ∨ (hType h = 0x32 ∧ thas u.tr.ports (hIdx h) = true)) : objExists u h = true := by
  rcases hport with ⟨hty, hthere⟩ | ⟨hty, hthere⟩ <;> simp [objExists, hty, hthere]

/-- POWER.PORT_SET of a port that exists, in range, which a port that must stay on does not permit off (R488, R495). -/
theorem actPowerPortSet_direct (hph : x.ph = .direct) (hport : (hType (wd q 0) = 0x30 ∧ thas u.line.ports (hIdx (wd q 0)) = true)
      ∨ (hType (wd q 0) = 0x32 ∧ thas u.tr.ports (hIdx (wd q 0)) = true)) (htol : (powerPortIn q).tol ≤ 1000000000)
    (hlow : 8 ≤ (powerPortIn q).delay) (hhigh : (powerPortIn q).delay ≤ 80000000)
    (hoff : (powerPortIn q).off = true → neverOff u (hIdx (wd q 0)) = false) :
    actPowerPortSet x q u = done (tolChange x { u.pow.tol with ports := tset u.pow.tol.ports (hIdx (wd q 0)) (powerPortIn q) } u) := by
  have hnamed : ((hType (wd q 0) == 0x30 || hType (wd q 0) == 0x32) && x.knows u (wd q 0)) = true := by
    rw [knows_of_objExists (objExists_of_port hport), Bool.and_true, Bool.or_eq_true, beq_iff_eq, beq_iff_eq]
    exact hport.imp And.left And.left
  have hrange : ¬ (1000000000 < (powerPortIn q).tol ∨ (powerPortIn q).delay < 8 ∨ 80000000 < (powerPortIn q).delay) := by omega
  have hnow : x.ph ≠ .stage := by
    rw [hph]
    decide
  have hpermitted : ¬ ((powerPortIn q).off && neverOff u (hIdx (wd q 0))) = true := fun hnever =>
    ne_true_of_eq_false (hoff (Bool.and_eq_true_iff.1 hnever).1) (Bool.and_eq_true_iff.1 hnever).2
  exact (if_neg (not_bnot_of_eq_true hnamed)).trans ((if_neg hrange).trans ((if_neg hnow).trans (if_neg hpermitted)))

theorem actPowerConcentrateSet_direct (hph : x.ph = .direct) :
    actPowerConcentrateSet x q u = done { u with pow := { u.pow with octEn := fld q 0 7 0, pairEn := fld q 0 15 8 } } := by
  rw [actPowerConcentrateSet, hph]
  rfl

theorem actPowerDomainStatus_of_domain (hdom : fld q 0 6 0 < 80) :
    actPowerDomainStatus x q u =
      (let d := fld q 0 6 0
       reply ([toWord ((domOf u d).st + 8 * (domOf u d).floor + 64 * b2n (noWork u d) + 128 * b2n (concentratedAway u d)),
         toWord (tolDom u.pow.tol u d)] ++ toWords (domOf u d).floorTide 2) u) :=
  if_neg (Nat.not_le.2 hdom)

theorem actPowerCounters_domain (hdom : fld q 0 6 0 < 80) :
    actPowerCounters x q u = reply (ctrWords u.ctr 0x50 (fld q 0 6 0 + 1) (List.range 5)) u := by
  have hdevice : ¬ fld q 0 6 0 = 127 := by omega
  refine (if_neg (by omega)).trans ?_
  simp only [if_neg hdevice]

theorem actPowerCounters_device (hdevice : fld q 0 6 0 = 127) :
    actPowerCounters x q u = reply (ctrWords u.ctr 0x50 0 (List.range 5)) u := by
  refine (if_neg (by omega)).trans ?_
  simp only [if_pos hdevice]

end

/-- Settles O42: each row runs its command, and the command's own meaning answers OK under the clause's conditions. -/
theorem powerCommandsComplete : Obligations.PowerCommandsComplete := by
  unfold Obligations.PowerCommandsComplete
  refine ⟨runs_of_act (.inl rfl) (fun _ _ _ => rfl) ?tolerances,
    runs_of_act (.inl rfl) (fun _ _ _ => rfl) ?port,
    runs_of_act (.inl rfl) (fun _ _ _ => rfl) fun c _ _ _ => actPowerConcentrateSet_direct (x := directCtx c) rfl,
    runs_of_act (.inl rfl) (fun _ _ _ => rfl) fun c _ _ hdom => actPowerDomainStatus_of_domain (x := directCtx c) hdom,
    runs_of_act (.inl rfl) (fun _ _ _ => rfl) fun _ _ _ _ => rfl,
    runs_of_act (.inl rfl) (fun _ _ _ => rfl) fun c _ _ hdom => actPowerCounters_domain (x := directCtx c) hdom,
    runs_of_act (.inl rfl) (fun _ _ _ => rfl) fun c _ _ hdevice => actPowerCounters_device (x := directCtx c) hdevice⟩
  case tolerances =>
    intro c q u hrange
    exact (actPowerTolSet_direct (x := directCtx c) rfl hrange).trans (congrArg done (tolChange_direct rfl _))
  case port =>
    rintro c q u ⟨hport, htol, hlow, hhigh, hoff⟩
    exact (actPowerPortSet_direct (x := directCtx c) rfl hport htol hlow hhigh hoff).trans (congrArg done (tolChange_direct rfl _))

end Sys2Proof.Machine
end

section
/-! Proofs of the statements on the commands of start-up and upgrade (spec/17_startup_upgrade.md). -/

namespace Sys2Proof.Machine

open Sys2Proof

/-! ### Upgrade commands (R472, R473, R478 to R480, Table 17-7) -/

/-- UPGRADE.ACTIVATE on this unit can start slot i: it holds an image that may run, which does not run yet, and no swap runs (R473). -/
structure SlotStartable (u : State) (i : Nat) : Prop where
  loaded : (slotAt u i).st = 2 ∨ (slotAt u i).st = 3
  idle : u.id.image ≠ i
  noSwap : u.boot.swap = 0

theorem SlotStartable.not_refused {u : State} {i : Nat} (hslot : SlotStartable u i) :
    ¬ (!((slotAt u i).st == 2 || (slotAt u i).st == 3) || u.id.image == i || u.boot.swap != 0) = true := by
  obtain ⟨hloaded, hidle, hnoSwap⟩ := hslot
  have hruns : ((slotAt u i).st == 2 || (slotAt u i).st == 3) = true := by simpa using hloaded
  simp [hruns, hidle, hnoSwap]

/-- The standby can convert to profile p: this unit is ACTIVE with a WARM standby, and the reservations of Sage and the tables fit the
profile (R480). -/
structure Convertible (u : State) (p : Nat) : Prop where
  legal : p ≠ 3
  active : u.twin.st = 1
  warm : u.twin.peer = 2
  streams : p = 2 ∨ u.det.streams.any (fun e => e.2.cfg.sage) = false
  groups : p = 2 → actUpgradeProfile.sageReservedClash u = false
  tables : tablesFit p u = true

theorem Convertible.not_refused {u : State} {p : Nat} (hconv : Convertible u p) :
    ¬ (p = 3 ∨ u.twin.st ≠ 1 ∨ u.twin.peer ≠ 2 ∨ (u.det.streams.any (fun e => e.2.cfg.sage) = true ∧ p ≠ 2)
      ∨ (p = 2 ∧ actUpgradeProfile.sageReservedClash u = true)) := by
  rintro (hillegal | hpassive | hcold | ⟨hreserved, hother⟩ | ⟨htime, hclash⟩)
  · exact hconv.legal hillegal
  · exact hpassive hconv.active
  · exact hcold hconv.warm
  · exact hconv.streams.elim hother (ne_true_of_eq_false · hreserved)
  · exact ne_true_of_eq_false (hconv.groups htime) hclash

/-- The state in which the conversion of the standby has begun, and it is told (R480). -/
def convertBegun (q : List Word) (u : State) : State :=
  emit (.hawser (.config (.direct 0x1405 q 0))) { u with boot := { u.boot with convert := true } }

section
variable {x : Ctx} {q : List Word} {u : State}

/-- A load into this unit's other slot, which neither runs nor is on trial, while no load runs (R472). -/
theorem actUpgradeLoad_own (hshort : 512 ≤ fld q 2 24 0) (hlong : fld q 2 24 0 ≤ 25165824) (hown : flag q 3 0 = false)
    (hidle : u.boot.load = none) (himage : u.id.image ≠ loadSlot u) (htrial : (slotAt u (loadSlot u)).st ≠ 3) :
    actUpgradeLoad x q u =
      ⟨stAccepted, [], { slotState (loadSlot u) 1 u with boot := { u.boot with load := some (loadSlot u, {}) } }, 0⟩ := by
  have hlength : ¬ (fld q 2 24 0 < 512 ∨ 25165824 < fld q 2 24 0) := by omega
  have hno : ¬ u.boot.load.isSome = true := by
    rw [hidle]
    decide
  exact (if_neg hlength).trans ((if_neg (ne_true_of_eq_false hown)).trans ((if_neg hno).trans (if_neg (not_or.2 ⟨himage, htrial⟩))))

/-- A load on the twin that it can be told of, while none runs there (R472). -/
theorem actUpgradeLoad_twin (hshort : 512 ≤ fld q 2 24 0) (hlong : fld q 2 24 0 ≤ 25165824) (htwin : flag q 3 0 = true)
    (hreach : twinReach u = true) (hidle : u.boot.twinLoad = false) :
    actUpgradeLoad x q u =
      ⟨stAccepted, [], emit (.hawser (.bulk 0x1401 q 0)) { u with boot := { u.boot with twinLoad := true } }, 0⟩ := by
  have hlength : ¬ (fld q 2 24 0 < 512 ∨ 25165824 < fld q 2 24 0) := by omega
  exact (if_neg hlength).trans ((if_pos htwin).trans ((if_neg (not_bnot_of_eq_true hreach)).trans (if_neg (ne_true_of_eq_false hidle))))

theorem actUpgradeActivate_hot (htime : fld q 1 11 0 ≤ 3600) (hown : flag q 0 1 = false) (hhot : flag q 0 0 = true)
    (hslot : SlotStartable u (loadSlot u)) (hok : hotOk u (loadSlot u) = true) :
    actUpgradeActivate x q u = ⟨stAccepted, [], { u with boot := { u.boot with
      swap := 1, swapTo := loadSlot u, swapBack := false, confirm := fld q 1 11 0 } }, 0⟩ :=
  (if_neg (Nat.not_lt.2 htime)).trans ((if_neg (ne_true_of_eq_false hown)).trans
    ((if_neg hslot.not_refused).trans ((if_pos hhot).trans (if_neg (not_bnot_of_eq_true hok)))))

/-- An activation by a reboot: of a unit that does not forward, or one that is forced (R479). -/
theorem actUpgradeActivate_reboot (htime : fld q 1 11 0 ≤ 3600) (hown : flag q 0 1 = false) (hcold : flag q 0 0 = false)
    (hslot : SlotStartable u (loadSlot u)) (hmay : 2 ≤ u.twin.st ∨ flag q 0 2 = true) :
    actUpgradeActivate x q u = ⟨stAccepted, [],
      { dirWrite (fun f => { f with oneShot := loadSlot u + 1 }) u with flt := { u.flt with resetAt := elapsed u + 1 } }, 0⟩ := by
  have hpermitted : ¬ (decide (u.twin.st ≤ 1) && !flag q 0 2) = true := by
    rw [Bool.and_eq_true, decide_eq_true_eq]
    rintro ⟨hforwards, hunforced⟩
    exact hmay.elim (fun hstandby => by omega) (not_bnot_of_eq_true · hunforced)
  exact (if_neg (Nat.not_lt.2 htime)).trans ((if_neg (ne_true_of_eq_false hown)).trans
    ((if_neg hslot.not_refused).trans ((if_neg (ne_true_of_eq_false hcold)).trans (if_neg hpermitted))))

theorem actUpgradeActivate_twin (htime : fld q 1 11 0 ≤ 3600) (htwin : flag q 0 1 = true) (hreach : twinReach u = true) :
    actUpgradeActivate x q u = ⟨stAccepted, [], emit (.hawser (.config (.direct 0x1402 q 0))) u, 0⟩ :=
  (if_neg (Nat.not_lt.2 htime)).trans ((if_pos htwin).trans (if_neg (not_bnot_of_eq_true hreach)))

theorem actUpgradeConfirm_twin (htwin : flag q 0 0 = true) (hreach : twinReach u = true) :
    actUpgradeConfirm x q u = done (emit (.hawser (.config (.direct 0x1403 q 0))) u) :=
  (if_pos htwin).trans (if_neg (not_bnot_of_eq_true hreach))

theorem actUpgradeConfirm_own (hown : flag q 0 0 = false) (htrial : (slotAt u u.id.image).st = 3) (hserving : u.id.fwState = 1) :
    actUpgradeConfirm x q u =
      (let v := dirWrite (fun f => { f with
         pref := u.id.image, slots := lmod f.slots u.id.image (fun y => { y with st := 4 })
         minSec := max f.minSec (f.slots.getD u.id.image {}).sec }) u
       done { v with boot := { v.boot with confirmEnd := 0 } }) :=
  (if_neg (ne_true_of_eq_false hown)).trans (if_neg (not_or.2 ⟨not_not_intro htrial, not_not_intro hserving⟩))

theorem actUpgradeStatus_eq_reply :
    actUpgradeStatus x q u = reply (dirWords u.flash ++ [toWord u.flash.minSec,
      toWord (if u.boot.load.isSome = true ∨ u.boot.twinLoad = true then 1 else if u.boot.swap ≠ 0 then 2
        else if u.boot.convert = true then 3 else 0)]) u := by
  simp only [actUpgradeStatus, Bool.or_eq_true]

theorem actUpgradeProfile_of_convertible (hconv : Convertible u (fld q 0 1 0)) :
    actUpgradeProfile x q u =
      (let u' := { u with fwd := { u.fwd with profile := fld q 0 1 0 } }
       if (!admNeeded u u') = true then ⟨stAccepted, [], convertBegun q u, 0⟩
       else match admJudge u' with
         | .no st r => ⟨st, r, admCount true u, 0⟩
         | .ok _ _ _ => ⟨stAccepted, [], convertBegun q (admCount false u), 0⟩) :=
  (if_neg hconv.not_refused).trans (if_neg (not_bnot_of_eq_true hconv.tables))

/-- A conversion that changes nothing that admission judges begins at once (R480). -/
theorem actUpgradeProfile_unjudged (hconv : Convertible u (fld q 0 1 0))
    (hsame : admNeeded u { u with fwd := { u.fwd with profile := fld q 0 1 0 } } = false) :
    actUpgradeProfile x q u = ⟨stAccepted, [], convertBegun q u, 0⟩ := by
  simp only [actUpgradeProfile_of_convertible hconv, hsame, Bool.not_false, if_true]

/-- A conversion that admission lets stand begins, and the run is counted (R303, R480). -/
theorem actUpgradeProfile_admitted {a : Nat} {b : Tab (List Nat)} {k : Nat} (hconv : Convertible u (fld q 0 1 0))
    (hneeded : admNeeded u { u with fwd := { u.fwd with profile := fld q 0 1 0 } } = true)
    (hadmitted : admJudge { u with fwd := { u.fwd with profile := fld q 0 1 0 } } = .ok a b k) :
    actUpgradeProfile x q u = ⟨stAccepted, [], convertBegun q (admCount false u), 0⟩ := by
  simp only [actUpgradeProfile_of_convertible hconv, hneeded, hadmitted, Bool.not_true, Bool.false_eq_true, if_false]

end

/-- Settles O41: each row runs its command, and the command's own meaning answers OK or ACCEPTED under the clause's conditions. -/
theorem upgradeCommandsComplete : Obligations.UpgradeCommandsComplete := by
  unfold Obligations.UpgradeCommandsComplete
  exact ⟨runs_of_act (.inr rfl) (fun _ _ _ => rfl) fun c _ _ ⟨hshort, hlong, hown, hidle, himage, htrial⟩ =>
      actUpgradeLoad_own (x := directCtx c) hshort hlong hown hidle himage htrial,
    runs_of_act (.inr rfl) (fun _ _ _ => rfl) fun c _ _ ⟨hshort, hlong, htwin, hreach, hidle⟩ =>
      actUpgradeLoad_twin (x := directCtx c) hshort hlong htwin hreach hidle,
    runs_of_act (.inr rfl) (fun _ _ _ => rfl) fun c _ _ ⟨htime, hown, hhot, hloaded, hidle, hnoSwap, hok⟩ =>
      actUpgradeActivate_hot (x := directCtx c) htime hown hhot ⟨hloaded, hidle, hnoSwap⟩ hok,
    runs_of_act (.inr rfl) (fun _ _ _ => rfl) fun c _ _ ⟨htime, hown, hcold, hloaded, hidle, hnoSwap, hmay⟩ =>
      actUpgradeActivate_reboot (x := directCtx c) htime hown hcold ⟨hloaded, hidle, hnoSwap⟩ hmay,
    runs_of_act (.inr rfl) (fun _ _ _ => rfl) fun c _ _ ⟨htime, htwin, hreach⟩ =>
      actUpgradeActivate_twin (x := directCtx c) htime htwin hreach,
    runs_of_act (.inl rfl) (fun _ _ _ => rfl) fun c _ _ ⟨htwin, hreach⟩ => actUpgradeConfirm_twin (x := directCtx c) htwin hreach,
    runs_of_act (.inl rfl) (fun _ _ _ => rfl) fun c _ _ ⟨hown, htrial, hserving⟩ =>
      actUpgradeConfirm_own (x := directCtx c) hown htrial hserving,
    runs_of_act (.inl rfl) (fun _ _ _ => rfl) fun c q _ _ => actUpgradeStatus_eq_reply (x := directCtx c) (q := q),
    runs_of_act (.inr rfl) (fun _ _ _ => rfl) fun c _ _ ⟨hlegal, hactive, hwarm, hstreams, hgroups, htables, hsame⟩ =>
      actUpgradeProfile_unjudged (x := directCtx c) ⟨hlegal, hactive, hwarm, hstreams, hgroups, htables⟩ hsame,
    fun _ _ _ => runs_of_act (.inr rfl) (fun _ _ _ => rfl)
      fun c _ _ ⟨hlegal, hactive, hwarm, hstreams, hgroups, htables, hneeded, hadmitted⟩ =>
        actUpgradeProfile_admitted (x := directCtx c) ⟨hlegal, hactive, hwarm, hstreams, hgroups, htables⟩ hneeded hadmitted⟩

end Sys2Proof.Machine
end

section
/-! Proofs of the statements on the command interface (spec/16_command_interface.md): completion, refusal, and the DEVICE and TXN
commands. -/

namespace Sys2Proof.Machine

open Sys2Proof

/-! ### What a completion leaves (R73, R421, R439, R442) -/

theorem mread_mwriteWords_zeros (n : Nat) (m : Memory) (a x : Nat) (hlow : a ≤ x) (hhigh : x < a + 4 * n) :
    mread (mwriteWords m a (List.replicate n 0#32)) x = 0#8 := by
  have hlength : x - a < (wordBytes (List.replicate n 0#32)).length := by
    rw [wordBytes_length, List.length_replicate]
    omega
  have hzero : ∀ b ∈ wordBytes (List.replicate n 0#32), b = 0#8 := by
    intro b hb
    obtain ⟨w, hw, hbyte⟩ := List.mem_flatMap.1 hb
    rw [List.eq_of_mem_replicate hw] at hbyte
    simpa [leBytes] using hbyte
  rw [show x = a + (x - a) by omega, mwriteWords, mread_mwriteBytes_in _ _ _ _ hlength]
  exact hzero _ (List.getElem_mem _)

/-- The request block of a MACSEC.SA_INSTALL is zeroed at its completion (R73). -/
theorem mread_zeroRequest_of_wiped {m a : Nat} {s : State} (hwiped : wiped s m a) : mread (zeroRequest m s).ecs.mem a = 0#8 := by
  obtain ⟨x, hacc, hop, hdirect, hlow, hhigh⟩ := hwiped
  simp only [zeroRequest, hacc, hop, hdirect, mbWrite]
  exact mread_mwriteWords_zeros _ _ _ _ hlow hhigh

/-- Completion zeroes nothing else of the mailbox memory (R73). -/
theorem mread_zeroRequest_of_not_wiped {m a : Nat} {s : State} (hkept : ¬ wiped s m a) :
    mread (zeroRequest m s).ecs.mem a = mread s.ecs.mem a := by
  unfold zeroRequest
  split
  · rename_i x hacc
    split
    · rename_i hinstall
      obtain ⟨hop, hdirect⟩ := hinstall
      refine mread_mwriteWords_out _ _ _ _ ?_
      rw [List.length_replicate]
      by_contra hin
      exact hkept ⟨x, hacc, hop, by simpa using hdirect, by omega, by omega⟩
    · rfl
  · rfl

theorem zeroRequest_frame (m : Nat) (s : State) :
    (zeroRequest m s).host = s.host ∧ (zeroRequest m s).wire = s.wire ∧ (zeroRequest m s).tm = s.tm ∧ (zeroRequest m s).flash = s.flash := by
  unfold zeroRequest
  split
  · split <;> exact ⟨rfl, rfl, rfl, rfl⟩
  · exact ⟨rfl, rfl, rfl, rfl⟩

theorem signal_of_masked {fn vec : Nat} {s : State} (hmasked : (tgetD s.host.msix (msixKey fn vec) {}).masked = true) :
    signal fn vec s = { s with host := { s.host with
      msix := tset s.host.msix (msixKey fn vec) { tgetD s.host.msix (msixKey fn vec) {} with pend := true } } } := if_pos hmasked

theorem signal_of_unmasked {fn vec : Nat} {s : State} (hopen : ¬ (tgetD s.host.msix (msixKey fn vec) {}).masked = true) :
    signal fn vec s = emit (.msix fn vec) s := if_neg hopen

theorem signal_frame (fn vec : Nat) (s : State) :
    (signal fn vec s).ecs = s.ecs ∧ (signal fn vec s).host.mbDone = s.host.mbDone ∧ (signal fn vec s).flash = s.flash := by
  by_cases hmasked : (tgetD s.host.msix (msixKey fn vec) {}).masked = true
  · rw [signal_of_masked hmasked]
    exact ⟨rfl, rfl, rfl⟩
  · rw [signal_of_unmasked hmasked]
    exact ⟨rfl, rfl, rfl⟩

/-- A signal of vector m is one signal from any state that has the vectors and the outputs of s (R421). -/
theorem signalledOnce_signal {m : Nat} {s u : State} (hmsix : u.host.msix = s.host.msix) (hwire : u.wire = s.wire) :
    signalledOnce m s (signal 0 m u) := by
  by_cases hmasked : (tgetD s.host.msix (msixKey 0 m) {}).masked = true
  · rw [signalledOnce, if_pos hmasked, signal_of_masked (by rw [hmsix]; exact hmasked), hmsix]
    exact ⟨hwire, rfl⟩
  · rw [signalledOnce, if_neg hmasked, signal_of_unmasked (by rw [hmsix]; exact hmasked)]
    exact ⟨congrArg _ hwire, hmsix⟩

/-- The state in which a mailbox holds the frame of its response: the response block from word 8, and words 5 to 7 (R442). -/
def responded (m tag st : Nat) (resp : List Word) (s : State) : State :=
  mbWrite m 5 [toWord st, toWord (resp.length + tag * 65536), toWord s.tm.tide] (mbWrite m 8 resp (zeroRequest m s))

theorem responded_frame (m tag st : Nat) (resp : List Word) (s : State) :
    (responded m tag st resp s).host = s.host ∧ (responded m tag st resp s).wire = s.wire
      ∧ (responded m tag st resp s).flash = s.flash := by
  obtain ⟨hhost, hwire, -, hflash⟩ := zeroRequest_frame m s
  exact ⟨hhost, hwire, hflash⟩

theorem complete_of_kept {m tag st : Nat} {resp : List Word} {s : State} (hkept : (s.ecs.mbs.getD m {}).discard = false) :
    complete m tag st resp s = releaseMb m (responded m tag st resp s) := by
  simp only [complete, hkept, responded, (zeroRequest_frame m s).2.2.1, Bool.false_eq_true, if_false]

theorem releaseMb_mem (m : Nat) (s : State) : (releaseMb m s).ecs.mem = s.ecs.mem := by
  rw [releaseMb, (signal_frame _ _ _).1]
  rfl

theorem releaseMb_mbDone (m : Nat) (s : State) : (releaseMb m s).host.mbDone = s.host.mbDone ||| (1#32 <<< m) := by
  rw [releaseMb, (signal_frame _ _ _).2.1]
  rfl

theorem releaseMb_flash (m : Nat) (s : State) : (releaseMb m s).flash = s.flash := by
  rw [releaseMb, (signal_frame _ _ _).2.2]
  rfl

theorem complete_flash {m tag st : Nat} {resp : List Word} {s : State} (hkept : (s.ecs.mbs.getD m {}).discard = false) :
    (complete m tag st resp s).flash = s.flash := by
  rw [complete_of_kept hkept, releaseMb_flash, (responded_frame _ _ _ _ _).2.2]

theorem complete_mem {m tag st : Nat} {resp : List Word} {s : State} (hkept : (s.ecs.mbs.getD m {}).discard = false) :
    (complete m tag st resp s).ecs.mem =
      mwriteWords (mwriteWords (zeroRequest m s).ecs.mem (m * 4096 + 8 * 4) resp) (m * 4096 + 5 * 4)
        [toWord st, toWord (resp.length + tag * 65536), toWord s.tm.tide] := by
  rw [complete_of_kept hkept, releaseMb_mem]
  rfl

theorem mailboxWord_complete_response {m tag st : Nat} {resp : List Word} {s : State} (hkept : (s.ecs.mbs.getD m {}).discard = false)
    (i : Nat) (hi : i < resp.length) : mailboxWord (complete m tag st resp s) m (8 + i) = resp[i] := by
  rw [mailboxWord, complete_mem hkept, mreadWord_mwriteWords_out _ _ _ _ (by simp; omega),
    show m * 4096 + 4 * (8 + i) = m * 4096 + 8 * 4 + 4 * i by omega, mreadWord_mwriteWords_in _ _ _ _ hi]

/-- Envelope words 5 to 7 of a completed mailbox. -/
theorem mailboxWord_complete_envelope {m tag st : Nat} {resp : List Word} {s : State} (hkept : (s.ecs.mbs.getD m {}).discard = false)
    (i : Nat) (hi : i < 3) : mailboxWord (complete m tag st resp s) m (5 + i) =
      [toWord st, toWord (resp.length + tag * 65536), toWord s.tm.tide][i] := by
  rw [mailboxWord, complete_mem hkept, show m * 4096 + 4 * (5 + i) = m * 4096 + 5 * 4 + 4 * i by omega,
    mreadWord_mwriteWords_in _ _ _ _ hi]

theorem mailboxWord_complete_status {m tag st : Nat} {resp : List Word} {s : State} (hkept : (s.ecs.mbs.getD m {}).discard = false) :
    mailboxWord (complete m tag st resp s) m 5 = toWord st :=
  mailboxWord_complete_envelope (tag := tag) (st := st) (resp := resp) hkept 0 (by decide)

/-- Three envelope words at 20 and a response block at 32 of a mailbox leave every other byte as it was (R442). -/
theorem mread_frame_outside {mem : Memory} {base a : Nat} {w5 w6 w7 : Word} {resp : List Word} (hout : a < base + 20 ∨ base + 32 + 4 * resp.length ≤ a) :
    mread (mwriteWords (mwriteWords mem (base + 8 * 4) resp) (base + 5 * 4) [w5, w6, w7]) a = mread mem a := by
  have hblock : a < base + 8 * 4 ∨ base + 8 * 4 + 4 * resp.length ≤ a := by omega
  have henvelope : a < base + 5 * 4 ∨ base + 5 * 4 + 4 * 3 ≤ a := by omega
  rw [mread_mwriteWords_out _ _ _ _ henvelope, mread_mwriteWords_out _ _ _ _ hblock]

/-- Outside the frame of the response, completion writes nothing but the zeroes of R73. -/
theorem mread_complete_outside {m tag st a : Nat} {resp : List Word} {s : State} (hkept : (s.ecs.mbs.getD m {}).discard = false)
    (hout : a < m * 4096 + 20 ∨ m * 4096 + 32 + 4 * resp.length ≤ a) :
    mread (complete m tag st resp s).ecs.mem a = mread (zeroRequest m s).ecs.mem a := by
  rw [complete_mem hkept, mread_frame_outside hout]

theorem mbDone_complete {m tag st : Nat} {resp : List Word} {s : State} (hkept : (s.ecs.mbs.getD m {}).discard = false) :
    (complete m tag st resp s).host.mbDone = s.host.mbDone ||| (1#32 <<< m) := by
  rw [complete_of_kept hkept, releaseMb_mbDone, (responded_frame _ _ _ _ _).1]

theorem getLsbD_one_shiftLeft {m : Nat} (hm : m < 32) (j : Nat) : (1#32 <<< m).getLsbD j = decide (j = m) := by
  simp only [BitVec.getLsbD_shiftLeft, BitVec.getLsbD_one]
  rw [Bool.eq_iff_iff]
  simp
  omega

/-- Settles O3: the frame of the response is written over what R73 leaves of the mailbox memory, and then the mailbox is released. -/
theorem completionFillsTheMailbox : Obligations.CompletionFillsTheMailbox := by
  unfold Obligations.CompletionFillsTheMailbox
  intro m tag st resp s hm hkept
  refine ⟨fun i hi => mailboxWord_complete_response hkept i hi, mailboxWord_complete_status hkept,
    mailboxWord_complete_envelope hkept 1 (by decide), mailboxWord_complete_envelope hkept 2 (by decide), ?memory, ?done, ?others, ?signalled⟩
  case memory =>
    intro a hout
    rw [mread_complete_outside hkept hout]
    exact ⟨mread_zeroRequest_of_wiped, mread_zeroRequest_of_not_wiped⟩
  case done => rw [mbDone_complete hkept, BitVec.getLsbD_or, getLsbD_one_shiftLeft hm, decide_eq_true rfl, Bool.or_true]
  case others =>
    intro j hj
    rw [mbDone_complete hkept, BitVec.getLsbD_or, getLsbD_one_shiftLeft hm, decide_eq_false hj, Bool.or_false]
  case signalled =>
    obtain ⟨hhost, hwire, -⟩ := responded_frame m tag st resp s
    rw [complete_of_kept hkept]
    have hmsix : (responded m tag st resp s).host.msix = s.host.msix := congrArg HostIf.msix hhost
    exact signalledOnce_signal hmsix hwire

end Sys2Proof.Machine
end

section
/-! Proofs of the statements on the checks of R446 and on the commands of the command interface and of image keys
(spec/16_command_interface.md, spec/19_self_test_lifecycle.md). -/

namespace Sys2Proof.Machine

open Sys2Proof

/-! ### The checks of R446 -/

section
variable {k : Cmd} {c : Call} {q : List Word} {u : State}

theorem refuse_of_restarting (hfw : u.id.fwState = 2) : refuse k c q u = some stBusy := if_pos hfw

theorem refuse_of_short (hfw : u.id.fwState ≠ 2) (hshort : q.length < k.need q) : refuse k c q u = some stBadLength :=
  (if_neg hfw).trans (if_pos (by rw [decide_eq_true hshort, Bool.or_true]))

/-- A direct request of legal length that staging or the gate of R450 forbids is refused with NOT_PERMITTED. -/
theorem refuse_of_forbidden (hfw : u.id.fwState ≠ 2) (hneed : k.need q ≤ q.length) (hmost : q.length ≤ k.most) (hsrc : c.src = .mailbox)
    (hfits : q.length ≤ 1016)
    (hforbidden : txnOf c ≠ 0 ∧ k.staging = .never ∨ txnOf c = 0 ∧ k.staging = .must ∨ gateOk k u = false) :
    refuse k c q u = some stNotPermitted := by
  have hlength : ¬ (decide (1016 < q.length) || decide (k.most < q.length) || decide (q.length < k.need q)) = true := by
    simp only [Bool.or_eq_true, decide_eq_true_eq]
    omega
  rw [refuse, if_neg hfw, hsrc]
  refine (if_neg hlength).trans (if_pos ?_)
  rcases hforbidden with ⟨htxn, hnever⟩ | ⟨htxn, hmust⟩ | hgate
  · simp [htxn, hnever]
  · simp [htxn, hmust]
  · simp [hgate]

/-- A refusal is by one of the five checks; the last two say what passed before them (R446). -/
theorem refuse_cases {st : Nat} (hrefused : refuse k c q u = some st) :
    st = stBusy ∨ st = stBadLength ∨ st = stNotPermitted ∨ (st = stNotActive ∧ gateOk k u = true ∧ activeOk k u = false)
      ∨ (st = stTxnUnknown ∧ activeOk k u = true ∧ txnOf c ≠ 0 ∧ txnSlot u c.txn = none) := by
  simp only [refuse] at hrefused
  split_ifs at hrefused with hbusy hlength hforbidden hpassive hunknown <;> injection hrefused with hst
  · exact .inl hst.symm
  · exact .inr (.inl hst.symm)
  · exact .inr (.inr (.inl hst.symm))
  · simp only [Bool.or_eq_true, not_or, Bool.not_eq_true'] at hforbidden hpassive
    exact .inr (.inr (.inr (.inl ⟨hst.symm, by simpa using hforbidden.1.1.1.2, hpassive⟩)))
  · simp only [Bool.and_eq_true, bne_iff_ne, Option.isNone_iff_eq_none] at hunknown
    exact .inr (.inr (.inr (.inr ⟨hst.symm, by simpa using hpassive, hunknown⟩)))

end

/-- A command of a mailbox that the host owns, which firmware serves and the checks of R446 refuse, completes with their status (R439,
R446). -/
theorem runCommand_refused {k : Cmd} {c : Call} {q : List Word} {s : State} {st : Nat}
    (hfree : ∃ b, s.ecs.mbs[c.mb]? = some b ∧ b.owned = false) (hserved : served k s = true)
    (hrefused : refuse k c q (checked k c q s) = some st) :
    runCommand k c q s = complete c.mb c.tag st [] (checked k c q s) := by
  obtain ⟨b, hmb, hhost⟩ := hfree
  have hmb' : (s.atTime c.t).ecs.mbs[c.mb]? = some b := hmb
  have hserved' : served k (s.atTime c.t) = true := hserved
  have hrefused' : refuse k c q (indirectError c (takeMb k c q (s.atTime c.t))) = some st := hrefused
  simp only [runCommand, hmb', hhost, hserved', hrefused', Bool.false_eq_true, if_false, Bool.not_true]
  rfl

/-- Settles O4: the first check that fails gives the status, and the refused command only completes. -/
theorem refusedCommandsComplete : Obligations.RefusedCommandsComplete := by
  unfold Obligations.RefusedCommandsComplete
  intro i k c q s st hruns hfree hserved hrefused
  refine ⟨by rw [hruns, runCommand_refused hfree hserved hrefused], ?busy, ?length, ?permitted, ?active, ?txn⟩
  case busy => exact fun hfw => Option.some.inj (hrefused.symm.trans (refuse_of_restarting hfw))
  case length => exact fun hfw hshort => Option.some.inj (hrefused.symm.trans (refuse_of_short hfw hshort))
  case permitted =>
    exact fun hfw hneed hmost hsrc hfits hforbidden =>
      Option.some.inj (hrefused.symm.trans (refuse_of_forbidden hfw hneed hmost hsrc hfits hforbidden))
  case active =>
    rintro rfl
    rcases refuse_cases hrefused with hst | hst | hst | ⟨-, hgate, hpassive⟩ | ⟨hst, -⟩
    case inr.inr.inr.inl => exact ⟨hgate, hpassive⟩
    all_goals exact absurd hst (by decide)
  case txn =>
    rintro rfl
    rcases refuse_cases hrefused with hst | hst | hst | ⟨hst, -⟩ | ⟨-, hactive, htxn, hnone⟩
    case inr.inr.inr.inr => exact ⟨hactive, htxn, hnone⟩
    all_goals exact absurd hst (by decide)

/-! ### Device and transaction commands (R441, R448, R453, R457, R459, R460, Table 16-8) -/

section
variable {x : Ctx} {q : List Word} {u : State}

/-- DEVICE.MAILBOX_SET from mailbox 0 of another mailbox, with a mask of areas 1 to 21 (R448). -/
theorem actDeviceMailboxSet_of_zero (hmb : x.mb = 0) (hother : fld q 0 4 0 ≠ 0) (hreserved : bit (wd q 1) 0 = false)
    (hareas : wd q 1 < 2 ^ 22) :
    actDeviceMailboxSet x q u =
      done (putMb (fld q 0 4 0) { u.ecs.mbs.getD (fld q 0 4 0) {} with mask := wd q 1, readOnly := flag q 2 0 } u) :=
  if_neg (not_or.2 ⟨not_not_intro hmb, not_or.2 ⟨hother, not_or.2 ⟨ne_true_of_eq_false hreserved, Nat.not_le.2 hareas⟩⟩⟩)

theorem actDeviceMailboxGet_of_other (hother : fld q 0 4 0 ≠ 0) :
    actDeviceMailboxGet x q u =
      reply [toWord (u.ecs.mbs.getD (fld q 0 4 0) {}).mask, toWord (b2n (u.ecs.mbs.getD (fld q 0 4 0) {}).readOnly)] u := if_neg hother

theorem actTxnBegin_of_free {i h : Nat} {y : Txn} (hfree : ((List.range 8).find? fun i => (txnAt u i).isNone) = some i)
    (hopened : txnAt (openTxn i u) i = some (h, y)) :
    actTxnBegin x q u = reply [toWord h] (toTwin (.opened h) (openTxn i u)) := by
  simp only [actTxnBegin, hfree, hopened]

theorem actTxnRollback_of_open {i : Nat} {y : Txn} (hslot : txnSlot u (wd q 0) = some (i, y)) (hopen : y.phase = 0) :
    actTxnRollback x q u = done (toTwin (.rolledBack (wd q 0)) (rollBack (wd q 0) u)) := by
  simp only [actTxnRollback, hslot]
  exact if_neg (not_not_intro hopen)

theorem actTxnStatus_of_slot {i : Nat} {y : Txn} (hslot : txnSlot u (wd q 0) = some (i, y)) :
    actTxnStatus x q u =
      reply ([toWord y.phase, toWord y.count, toWord y.bytes] ++ toWords (if y.phase = 2 then y.c else 0) 2) u := by
  simp only [actTxnStatus, hslot]

end

/-- Settles O10: each row runs its command, and the command's own meaning answers OK under the clause's conditions. -/
theorem deviceAndTxnCommandsComplete : Obligations.DeviceAndTxnCommandsComplete := by
  unfold Obligations.DeviceAndTxnCommandsComplete
  refine ⟨runs_of_act (.inl rfl) (fun _ _ _ => rfl) fun _ _ _ _ => rfl,
    runs_of_act (.inl rfl) (fun _ _ _ => rfl) fun c _ _ ⟨hmb, hother, hreserved, hareas⟩ =>
      actDeviceMailboxSet_of_zero (x := directCtx c) hmb hother hreserved hareas,
    runs_of_act (.inl rfl) (fun _ _ _ => rfl) fun c _ _ hother => actDeviceMailboxGet_of_other (x := directCtx c) hother,
    runs_of_act (.inl rfl) (fun _ _ _ => rfl) fun _ _ _ _ => rfl,
    fun _ _ _ => runs_of_act (.inl rfl) (fun _ _ _ => rfl) fun c q _ ⟨hfree, hopened⟩ =>
      actTxnBegin_of_free (x := directCtx c) (q := q) hfree hopened,
    runs_of_act (.inl rfl) (fun _ _ _ => rfl) ?rollback,
    fun _ _ => runs_of_act (.inl rfl) (fun _ _ _ => rfl) fun c _ _ hslot => actTxnStatus_of_slot (x := directCtx c) hslot,
    runs_of_act (.inl rfl) (fun _ _ _ => rfl) fun _ _ _ _ => rfl⟩
  case rollback =>
    rintro c q u ⟨i, y, hslot, hopen⟩
    exact actTxnRollback_of_open (x := directCtx c) hslot hopen

/-! ### TXN.COMMIT (R455, R456) -/

/-- The tide that a TXN.COMMIT fixes at its start: the one it names, the one that its gate lists need, or none yet (R456). -/
def commitStartTide (q : List Word) (y : Txn) (u : State) : Nat :=
  if flag q 1 0 then wd64 q 2 else if stagesGates y then u.tm.tide + ceilDiv (prepBound (wd q 0) y u) 125000 + 3 else 0

theorem beginCommit_of_open {mb i : Nat} {q : List Word} {y : Txn} {u : State} (hslot : txnSlot u (wd q 0) = some (i, y))
    (hopen : y.phase = 0) (hahead : flag q 1 0 = true → u.tm.tide + 2 < wd64 q 2) :
    beginCommit mb q u = .inr (toTwin (.commit (wd q 0) (commitStartTide q y u)) (markCommit (wd q 0) y.objs (putTxn i
      (some { y with phase := 1, c := commitStartTide q y u, named := flag q 1 0 || stagesGates y, mb := mb }) u))) := by
  have hpassed : ¬ (flag q 1 0 = true ∧ wd64 q 2 ≤ u.tm.tide + 2) := fun ⟨hnamed, hlate⟩ => Nat.not_le.2 (hahead hnamed) hlate
  simp only [beginCommit, hslot]
  exact (if_neg (not_not_intro hopen)).trans (if_neg hpassed)

/-- A TXN.COMMIT of a mailbox that the host owns, which passes the checks of R446, runs on the taken mailbox (R439). -/
theorem runTxnCommit_passed {c : Call} {q : List Word} {s : State} (hfree : ∃ b, s.ecs.mbs[c.mb]? = some b ∧ b.owned = false)
    (hserved : served cmdTxnCommit s = true) (hpassed : refuse cmdTxnCommit c q (taken cmdTxnCommit c q s) = none) :
    runTxnCommit c q s = runCommit c q (taken cmdTxnCommit c q s) := by
  obtain ⟨b, hmb, hhost⟩ := hfree
  have hmb' : (s.atTime c.t).ecs.mbs[c.mb]? = some b := hmb
  have hserved' : served cmdTxnCommit (s.atTime c.t) = true := hserved
  have htaken : indirectError c (takeMb cmdTxnCommit c q (s.atTime c.t)) = taken cmdTxnCommit c q s := indirectError_of_refuse_none hpassed
  simp only [runTxnCommit, hmb', hhost, hserved', htaken, hpassed, Bool.false_eq_true, if_false, Bool.not_true]

/-- Settles O12: the commit begins on the taken mailbox, and its tide is `commitStartTide`. -/
theorem txnCommitBeginsPreparation : Obligations.TxnCommitBeginsPreparation := by
  unfold Obligations.TxnCommitBeginsPreparation
  intro c q s i y hfree hserved hpassed hslot hopen hahead
  have hserves : ¬ (!served cmdTxnCommit (taken cmdTxnCommit c q s)) = true := not_bnot_of_eq_true hserved
  refine ⟨_, commitStartTide q y (taken cmdTxnCommit c q s), ?runs, rfl, ?named, ?unnamed, ?gates⟩
  case runs =>
    show Host.Outcome.next (runTxnCommit c q s) = _
    rw [runTxnCommit_passed hfree hserved hpassed, runCommit, if_neg hserves, beginCommit_of_open hslot hopen hahead]
  case named => exact fun hnamed => if_pos hnamed
  case unnamed => exact fun hnamed hgates => (if_neg (ne_true_of_eq_false hnamed)).trans (if_neg (ne_true_of_eq_false hgates))
  case gates => exact fun hnamed hgates => (if_neg (ne_true_of_eq_false hnamed)).trans (if_pos hgates)

/-! ### LIFECYCLE.KEY_REVOKE (R502) -/

theorem bit_eq_testBit (n i : Nat) : bit n i = n.testBit i := by
  rw [bit, Nat.testBit_eq_decide_div_mod_eq, beq_eq_decide]

/-- Setting a clear bit leaves the higher bits: nothing is carried. -/
theorem testBit_add_two_pow_of_lt {n i j : Nat} (hclear : n.testBit j = false) (hij : j < i) : (n + 2 ^ j).testBit i = n.testBit i := by
  obtain ⟨d, rfl⟩ : ∃ d, i = d + 1 + j := ⟨i - j - 1, by omega⟩
  have heven : n / 2 ^ j % 2 = 0 := by simpa [Nat.testBit_eq_decide_div_mod_eq] using hclear
  have hhalf : (n / 2 ^ j + 1) / 2 = n / 2 ^ j / 2 := by omega
  rw [Nat.testBit_add _ (d + 1), Nat.testBit_add _ (d + 1), Nat.add_div_right _ (Nat.two_pow_pos j), Nat.testBit_succ, Nat.testBit_succ, hhalf]

/-- The fuses of the image keys once key slot j is revoked (R502). -/
def revokeKey (j revoked : Nat) : Nat := if bit revoked j then revoked else revoked + 2 ^ j

/-- Revoking a key slot revokes that slot and no other. -/
theorem bit_revokeKey (j revoked i : Nat) : bit (revokeKey j revoked) i = (bit revoked i || decide (i = j)) := by
  rw [revokeKey]
  cases hj : bit revoked j with
  | true =>
    by_cases hij : i = j
    · rw [hij, if_pos rfl, hj, Bool.true_or]
    · rw [if_pos rfl, decide_eq_false hij, Bool.or_false]
  | false =>
    rw [bit_eq_testBit] at hj
    rw [if_neg Bool.false_ne_true, bit_eq_testBit, bit_eq_testBit]
    rcases Nat.lt_trichotomy i j with hij | rfl | hij
    · rw [Nat.add_comm, Nat.testBit_two_pow_add_gt hij, decide_eq_false hij.ne, Bool.or_false]
    · rw [Nat.add_comm, Nat.testBit_two_pow_add_eq, hj, decide_eq_true rfl, Bool.or_true, Bool.not_false]
    · rw [testBit_add_two_pow_of_lt hj hij, decide_eq_false hij.ne', Bool.or_false]

/-- The state in which the key slot that LIFECYCLE.KEY_REVOKE names is revoked (R502). -/
def keyRevoked (q : List Word) (u : State) : State :=
  { u with flash := { u.flash with revoked := revokeKey (fld q 0 1 0) u.flash.revoked } }

/-- The image key slots that are not revoked. -/
def keysLeft (u : State) : List Nat := (List.range 4).filter fun j => !bit u.flash.revoked j

/-- A key slot is the last one left where it is not revoked and every other is. -/
theorem keysLeft_eq_singleton {u : State} {k : Nat} (hk : k < 4) (hleft : bit u.flash.revoked k = false)
    (hrevoked : ∀ j, j < 4 → j ≠ k → bit u.flash.revoked j = true) : keysLeft u = [k] := by
  have hfilter : keysLeft u = (List.range 4).filter fun j => j == k := by
    refine List.filter_congr fun j hj => ?_
    by_cases hjk : j = k
    · simp [hjk, hleft]
    · simp [hjk, hrevoked j (List.mem_range.1 hj) hjk]
  rw [hfilter, List.filter_beq, List.count_eq_one_of_mem List.nodup_range (List.mem_range.2 hk)]
  rfl

theorem keysLeft_ne_singleton {u : State} {j k : Nat} (hj : j < 4) (hjk : j ≠ k) (hleft : bit u.flash.revoked j = false) :
    keysLeft u ≠ [k] := by
  intro hlast
  have hmem : j ∈ keysLeft u := List.mem_filter.2 ⟨List.mem_range.2 hj, by rw [hleft]; rfl⟩
  rw [hlast, List.mem_singleton] at hmem
  exact hjk hmem

section
variable {x : Ctx} {c : Call} {q : List Word} {s u : State}

theorem actLifecycleKeyRevoke_served (hpreferred : (slotAt u u.flash.pref).key ≠ fld q 0 1 0) (hlast : keysLeft u ≠ [fld q 0 1 0]) :
    actLifecycleKeyRevoke x q u = done (keyRevoked q u) :=
  if_neg (not_or.2 ⟨hpreferred, hlast⟩)

theorem actLifecycleKeyRevoke_refused (hkept : (slotAt u u.flash.pref).key = fld q 0 1 0 ∨ keysLeft u = [fld q 0 1 0]) :
    actLifecycleKeyRevoke x q u = fail stNotPermitted u := if_pos hkept

end

/-- The mailbox that takes a command keeps what it had to discard (R419, R439). -/
theorem taken_discard (k : Cmd) (c : Call) (q : List Word) (s : State) :
    ((taken k c q s).ecs.mbs.getD c.mb {}).discard = (s.ecs.mbs.getD c.mb {}).discard := by
  have hset : (taken k c q s).ecs.mbs = s.ecs.mbs.set c.mb { s.ecs.mbs.getD c.mb {} with
      owned := true, acc := some ⟨k.op, c.tag, c.txn, q⟩, seq := s.ecs.accepts } := rfl
  rw [hset]
  by_cases hmb : c.mb < s.ecs.mbs.length
  · simp [hmb]
  · simp [hmb]

theorem wakeNamed_frame (k : Cmd) (q : List Word) (s : State) : (wakeNamed k q s).ecs = s.ecs ∧ (wakeNamed k q s).flash = s.flash := by
  unfold wakeNamed
  split <;> exact ⟨rfl, rfl⟩

theorem accepted_flash (k : Cmd) (c : Call) (q : List Word) (s : State) : (accepted k c q s).flash = s.flash := (wakeNamed_frame k q _).2

theorem accepted_discard (k : Cmd) (c : Call) (q : List Word) (s : State) :
    ((accepted k c q s).ecs.mbs.getD c.mb {}).discard = (s.ecs.mbs.getD c.mb {}).discard := by
  rw [accepted, (wakeNamed_frame k q _).1, taken_discard]

/-- Outside DRYDOCK the gate of R450 is closed to LIFECYCLE.KEY_REVOKE (R502). -/
theorem gateOk_keyRevoke_of_not_drydock {u : State} (hlife : u.id.lifecycle ≠ 0) : gateOk cmdLifecycleKeyRevoke u = false := by
  simp [gateOk, cmdLifecycleKeyRevoke, areaOf, hlife]

section
variable {c : Call} {q : List Word} {s : State}

theorem execLifecycleKeyRevoke_served (hready : Ready cmdLifecycleKeyRevoke c q s = true)
    (hpreferred : (slotAt s s.flash.pref).key ≠ fld q 0 1 0) (hlast : keysLeft s ≠ [fld q 0 1 0]) :
    exec (.lifecycleKeyRevoke c q) s =
      .next (complete c.mb c.tag stOk [] (keyRevoked q (accepted cmdLifecycleKeyRevoke c q s))) := by
  have hflash := accepted_flash cmdLifecycleKeyRevoke c q s
  have hact := actLifecycleKeyRevoke_served (x := directCtx c) (q := q) (u := accepted cmdLifecycleKeyRevoke c q s)
    (by rw [slotAt, hflash]; exact hpreferred) (by rw [keysLeft, hflash]; exact hlast)
  exact congrArg Host.Outcome.next (completes_of_act (.inl rfl) hready hact rfl)

theorem execLifecycleKeyRevoke_refused (hready : Ready cmdLifecycleKeyRevoke c q s = true)
    (hkept : (slotAt s s.flash.pref).key = fld q 0 1 0 ∨ keysLeft s = [fld q 0 1 0]) :
    exec (.lifecycleKeyRevoke c q) s = .next (complete c.mb c.tag stNotPermitted [] (accepted cmdLifecycleKeyRevoke c q s)) := by
  have hflash := accepted_flash cmdLifecycleKeyRevoke c q s
  have hact := actLifecycleKeyRevoke_refused (x := directCtx c) (q := q) (u := accepted cmdLifecycleKeyRevoke c q s)
    (by rw [slotAt, keysLeft, hflash]; exact hkept)
  exact congrArg Host.Outcome.next (runCommand_ready_of_refusal hready hact (by decide) (by decide))

/-- Outside DRYDOCK LIFECYCLE.KEY_REVOKE is refused by the checks of R446 (R450, R502). -/
theorem execLifecycleKeyRevoke_not_drydock (hfree : ∃ b, s.ecs.mbs[c.mb]? = some b ∧ b.owned = false)
    (hserved : served cmdLifecycleKeyRevoke s = true) (hfw : s.id.fwState ≠ 2) (hsrc : c.src = .mailbox) (hneed : 1 ≤ q.length)
    (hfits : q.length ≤ 1016) (hlife : s.id.lifecycle ≠ 0) :
    exec (.lifecycleKeyRevoke c q) s = .next (complete c.mb c.tag stNotPermitted [] (taken cmdLifecycleKeyRevoke c q s)) := by
  have hdirect : checked cmdLifecycleKeyRevoke c q s = taken cmdLifecycleKeyRevoke c q s := by
    rw [checked, indirectError, hsrc]
  have hrefused : refuse cmdLifecycleKeyRevoke c q (checked cmdLifecycleKeyRevoke c q s) = some stNotPermitted := by
    rw [hdirect]
    exact refuse_of_forbidden (u := taken cmdLifecycleKeyRevoke c q s) hfw hneed (hfits.trans (by decide)) hsrc hfits
      (.inr (.inr (gateOk_keyRevoke_of_not_drydock hlife)))
  exact congrArg Host.Outcome.next ((runCommand_refused hfree hserved hrefused).trans (by rw [hdirect]))

end

/-- Settles O5: what the served command and the two refusals leave, by the laws of completion. -/
theorem keyRevokeRevokesOneSlot : Obligations.KeyRevokeRevokesOneSlot := by
  unfold Obligations.KeyRevokeRevokesOneSlot
  intro c q s hmb hkept
  have hslot : fld q 0 1 0 < 4 := Nat.mod_lt _ (by decide)
  have hacceptedKept := (accepted_discard cmdLifecycleKeyRevoke c q s).trans hkept
  refine ⟨?served, ?refused, ?gate⟩
  case served =>
    rintro hready hpreferred ⟨j, hj, hjk, hleft⟩
    have hrevokedKept : ((keyRevoked q (accepted cmdLifecycleKeyRevoke c q s)).ecs.mbs.getD c.mb {}).discard = false := hacceptedKept
    refine ⟨_, execLifecycleKeyRevoke_served hready hpreferred (keysLeft_ne_singleton hj hjk hleft),
      mailboxWord_complete_status hrevokedKept, fun i => ?_⟩
    rw [complete_flash hrevokedKept, keyRevoked, accepted_flash]
    exact bit_revokeKey _ _ i
  case refused =>
    rintro hready hlast
    refine ⟨_, execLifecycleKeyRevoke_refused hready
      (hlast.imp id fun ⟨hleft, hrevoked⟩ => keysLeft_eq_singleton hslot hleft hrevoked), mailboxWord_complete_status hacceptedKept, ?_⟩
    rw [complete_flash hacceptedKept, accepted_flash]
  case gate =>
    intro hfree hserved hfw hsrc hneed hfits hlife
    have htakenKept := (taken_discard cmdLifecycleKeyRevoke c q s).trans hkept
    refine ⟨_, execLifecycleKeyRevoke_not_drydock hfree hserved hfw hsrc hneed hfits hlife, mailboxWord_complete_status htakenKept, ?_⟩
    rw [complete_flash htakenKept]
    rfl

end Sys2Proof.Machine
end

section
/-! Proofs of the statements on the host's rings (spec/15_host_pcie.md), telemetry dumps and the board's pins (spec/22_board.md). -/

namespace Sys2Proof.Machine

open Sys2Proof

/-! ### DMA errors (R433) -/

section
variable {r a : Nat} {u : State}

theorem dmaFail_eventRing (henabled : u.host.evrEnable = true) :
    dmaFail 0 a u = signal 0 32 (raise 0x15 2 (mainUnit 6) (pay [(0, 1), (0, 1), (0, 1), (1, 1)])
      (pioCount 1 1 { u with host := { u.host with
        evrFault := true, faultAt := elapsed u + 1, evrEnable := false, dmaErr := a } })) := if_pos henabled

theorem dmaFail_timestampRing (henabled : u.host.tsrEnable = true) (hrunning : u.host.tsrStopped = false) :
    dmaFail 1 a u = raise 0x15 2 (mainUnit 6) (pay [(0, 1), (1, 1), (0, 1), (1, 1)])
      (pioCount 1 1 { u with host := { u.host with tsrStopped := true, dmaErr := a } }) := by
  have hissues : (u.host.tsrEnable && !u.host.tsrStopped) = true := by rw [henabled, hrunning]; rfl
  exact if_pos hissues

theorem dmaFail_receiveRing (hring : r < 64) (henabled : (ringOf false r u).enable = true) :
    dmaFail (2 + r) a u =
      (let v := modRing false r (fun x => { x with enable := false, fifo := x.fifo.drop 1 }) u
       raise 0x15 2 (mainUnit 6) (pay [(1, 1), (r, 1), (0, 1), (1, 1)])
         (pioCount 1 1 { v with host := { v.host with dmaErr := a } })) := by
  have hrx : ¬ 66 ≤ 2 + r := by omega
  have hsrc : 2 + r ≠ 0 ∧ 2 + r ≠ 1 := by omega
  simp [dmaFail, hsrc, hrx, Nat.not_le.2 hring, henabled, modHost, b2n]

theorem dmaFail_transmitRing (hring : r < 64) (henabled : (ringOf true r u).enable = true) :
    dmaFail (66 + r) a u =
      (let v := modRing true r (fun x => { x with enable := false, fifo := x.fifo.drop 1 }) u
       raise 0x15 2 (mainUnit 6) (pay [(1, 1), (r, 1), (1, 1), (1, 1)])
         (pioCount 1 1 { v with host := { v.host with dmaErr := a } })) := by
  have hsrc : 66 + r ≠ 0 ∧ 66 + r ≠ 1 := by omega
  simp [dmaFail, hsrc, Nat.not_le.2 hring, henabled, modHost, b2n]

/-! ### Moderation (R421, R432) -/

theorem lmod_getElem?_same {α : Type} (l : List α) (i : Nat) (f : α → α) : (lmod l i f)[i]? = l[i]?.map f := by
  unfold lmod
  cases hi : l[i]? with
  | none => exact hi
  | some v => simp [(List.getElem?_eq_some_iff.1 hi).1]

/-- Signalling a ring's moderation keeps its vector, whether or not the ring is there. -/
theorem ringOf_signalled_vector (tx : Bool) (r : Nat) (u : State) :
    (ringOf tx r (modRing tx r (fun x => { x with mdr := x.mdr.signalled }) u)).vector = (ringOf tx r u).vector := by
  cases tx with
  | false =>
    simp only [ringOf, modRing, modHost, Bool.false_eq_true, if_false, lmod_getElem?_same]
    cases u.host.rx[r]? <;> rfl
  | true =>
    simp only [ringOf, modRing, modHost, if_true, lmod_getElem?_same]
    cases u.host.tx[r]? <;> rfl

theorem moderate_eventRing (hdue : u.host.evrMod.due (elapsed u) = true) :
    moderate 0 u = signal 0 32 { u with host := { u.host with evrMod := u.host.evrMod.signalled } } := if_pos hdue

theorem moderate_timestampRing (hdue : u.host.tsrMod.due (elapsed u) = true) :
    moderate 1 u = signal 0 33 { u with host := { u.host with tsrMod := u.host.tsrMod.signalled } } := if_pos hdue

theorem moderate_receiveRing (hring : r < 64) (hdue : (ringOf false r u).mdr.due (elapsed u) = true) :
    moderate (2 + r) u = signal 1 (ringOf false r u).vector (modRing false r (fun x => { x with mdr := x.mdr.signalled }) u) := by
  have hrx : ¬ 66 ≤ 2 + r := by omega
  have hsrc : 2 + r ≠ 0 ∧ 2 + r ≠ 1 := by omega
  simp [moderate, hsrc, hrx, Nat.not_le.2 hring, hdue, ringOf_signalled_vector]

theorem moderate_transmitRing (hring : r < 64) (hdue : (ringOf true r u).mdr.due (elapsed u) = true) :
    moderate (66 + r) u =
      signal 1 (ringOf true r u).vector (headBack r (modRing true r (fun x => { x with mdr := x.mdr.signalled }) u)) := by
  have hsrc : 66 + r ≠ 0 ∧ 66 + r ≠ 1 := by omega
  simp [moderate, hsrc, Nat.not_le.2 hring, hdue, ringOf_signalled_vector]

end

/-! ### The event ring (R424) and telemetry dumps (R552, R554) -/

/-- The event ring takes a record while it is enabled and not full (R424). -/
theorem not_evrBlocked_of_room {u : State} (henabled : u.host.evrEnable = true) (hroom : evrFull u = false) :
    ¬ (!u.host.evrEnable || evrFull u) = true := by
  rw [henabled, hroom]
  decide

theorem execEventRecordWrite_of_waiting {t : Nat} {s : State} {e : EventRec} {r : List EventRec}
    (henabled : (s.atTime t).host.evrEnable = true) (hroom : evrFull (s.atTime t) = false) (hkept : (s.atTime t).host.evDiscarded = 0)
    (hwaiting : (s.atTime t).host.evQueue = e :: r) :
    execEventRecordWrite t s = .next (eventWrite e { s.atTime t with host := { (s.atTime t).host with evQueue := r } }) := by
  have hnoneLost : ¬ 0 < (s.atTime t).host.evDiscarded := by omega
  simp only [execEventRecordWrite, if_neg (not_evrBlocked_of_room henabled hroom), if_neg hnoneLost, hwaiting, modHost]

/-- After discards EVENTS_LOST goes first (R425). -/
theorem execEventRecordWrite_of_discarded {t : Nat} {s : State} (henabled : (s.atTime t).host.evrEnable = true)
    (hroom : evrFull (s.atTime t) = false) (hlost : 0 < (s.atTime t).host.evDiscarded) :
    execEventRecordWrite t s = .next (eventWrite ⟨0x15, 1, mainUnit 10, (s.atTime t).tm.tide, pay [((s.atTime t).host.evDiscarded, 4)]⟩
      { s.atTime t with host := { (s.atTime t).host with evDiscarded := 0 } }) := by
  simp only [execEventRecordWrite, if_neg (not_evrBlocked_of_room henabled hroom), if_pos hlost, modHost]

section
variable {t i : Nat} {s : State} {d : Dump} {r : List Byte}

theorem execDumpRecordWritten_of_written (hdump : (s.atTime t).tel.dumps[i]? = some d) (hwriting : d.writing = some r) :
    execDumpRecordWritten t i none s = .next
      (let v := telCount 2 r.length (telCount 0 1 (modTel (fun t => { t with
         dumps := lmod t.dumps i fun d => { d with writing := none, seq := (d.seq + 1) % 2 ^ 64 } }) (hostWrite d.slot r (s.atTime t))))
       if d.cfg.notify then raise 0x13 3 (mainUnit 10) (pay [(i, 1), (0, 3), (d.seq, 8), (d.latch, 8)]) v else v) := by
  simp only [execDumpRecordWritten, hdump, hwriting]

theorem execDumpRecordWritten_of_failed {a : Nat} (hdump : (s.atTime t).tel.dumps[i]? = some d) (hwriting : d.writing = some r) :
    execDumpRecordWritten t i (some a) s = .next
      (let v := modTel (fun t => { t with dumps := lmod t.dumps i fun d =>
         { d with cfg := { d.cfg with en := false }, writing := none } }) (s.atTime t)
       raise 0x13 4 (mainUnit 10) (pay [(i, 1)]) (pioCount 1 1 { v with host := { v.host with dmaErr := a } })) := by
  simp only [execDumpRecordWritten, hdump, hwriting]

end

/-! ### I2C0 (R570) -/

section
variable {t n o : Nat} {w : List Nat} {s : State}

theorem execI2c0Access_of_stopped (hstopped : (s.atTime t).boot.held = true ∨ (s.atTime t).flt.pilotDead = true) :
    execI2c0Access t w n s = .next { s.atTime t with board := { (s.atTime t).board with i2cOut := none } } := if_pos hstopped

/-- A transaction that writes nothing reads on from the offset that I2C0 keeps. -/
theorem execI2c0Access_of_read (hheld : (s.atTime t).boot.held = false) (hpilot : (s.atTime t).flt.pilotDead = false) :
    execI2c0Access t [] n s = .next
      (let u := s.atTime t
       { u with board := { u.board with i2cOff := (u.board.i2cOff + n) % 256
                                        i2cOut := some ((List.range n).map fun i => i2cReg u ((u.board.i2cOff + i) % 256)) } }) :=
  if_neg (not_or.2 ⟨ne_true_of_eq_false hheld, ne_true_of_eq_false hpilot⟩)

/-- The first byte written is the offset that the read starts at. -/
theorem execI2c0Access_of_offset (hheld : (s.atTime t).boot.held = false) (hpilot : (s.atTime t).flt.pilotDead = false) :
    execI2c0Access t (o :: w) n s = .next
      (let u := s.atTime t
       { u with board := { u.board with i2cOff := (o % 256 + n) % 256
                                        i2cOut := some ((List.range n).map fun i => i2cReg u ((o % 256 + i) % 256)) } }) :=
  if_neg (not_or.2 ⟨ne_true_of_eq_false hheld, ne_true_of_eq_false hpilot⟩)

end

/-! ### JTAG (R571, R572) -/

section
variable {t i : Nat} {s : State}

/-- BYPASS and IDCODE are taken in every state (R571). -/
theorem tapAccepts_of_le_three {u : State} (hi : i ≤ 3) : tapAccepts u i = true := if_pos hi

theorem execJtagInstruction_of_refused (hrefused : tapAccepts (s.atTime t) i = false) :
    execJtagInstruction t i s = .next { s.atTime t with aon := { (s.atTime t).aon with tap := 0 } } := by
  simp [execJtagInstruction, hrefused, scanning]

theorem execJtagInstruction_idcode :
    execJtagInstruction t 1 s = .next { s.atTime t with
      aon := { (s.atTime t).aon with tap := 1 }, wire := .tdo 0x1A0128E5 :: (s.atTime t).wire } := by
  simp [execJtagInstruction, tapAccepts_of_le_three, scanning, emit]

/-- An instruction that neither shifts IDCODE nor scans the boundary only changes the TAP. -/
theorem execJtagInstruction_of_plain (hid : i ≠ 1) (haccepted : tapAccepts (s.atTime t) i = true) (hplain : i < 4 ∨ 7 < i) :
    execJtagInstruction t i s = .next { s.atTime t with aon := { (s.atTime t).aon with tap := i } } := by
  have hnoScan : scanning { s.atTime t with aon := { (s.atTime t).aon with tap := i } } = false := by
    simp only [scanning]
    rcases hplain with hlow | hhigh
    · simp [Nat.not_le.2 hlow]
    · simp [Nat.not_le.2 hhigh]
  simp only [execJtagInstruction, haccepted, if_true, if_neg hid, hnoScan]
  rfl

/-- Boundary scan drives KILL_OUT low outside DRYDOCK and RETURNED (R572). -/
theorem execJtagInstruction_of_scan (hlow : 4 ≤ i) (hhigh : i ≤ 7) (haccepted : tapAccepts (s.atTime t) i = true) :
    execJtagInstruction t i s = .next { s.atTime t with
      aon := { (s.atTime t).aon with tap := i }
      twin := if (s.atTime t).id.lifecycle = 0 ∨ (s.atTime t).id.lifecycle = 3 then (s.atTime t).twin
        else { (s.atTime t).twin with killOut := false } } := by
  have hid : i ≠ 1 := by omega
  have hscan : scanning { s.atTime t with aon := { (s.atTime t).aon with tap := i } }
      = !decide ((s.atTime t).id.lifecycle = 0 ∨ (s.atTime t).id.lifecycle = 3) := by
    simp [scanning, hlow, hhigh, bne, Bool.beq_eq_decide_eq]
  simp only [execJtagInstruction, haccepted, if_true, if_neg hid, hscan]
  by_cases hlab : (s.atTime t).id.lifecycle = 0 ∨ (s.atTime t).id.lifecycle = 3
  · simp only [hlab, if_true, decide_true]
    rfl
  · simp only [hlab, if_false, decide_false]
    rfl

end

/-- Settles O6: the refused instruction and BYPASS itself both leave BYPASS in the TAP and do nothing else. -/
theorem refusedJtagInstructionIsBypass : Obligations.RefusedJtagInstructionIsBypass := by
  unfold Obligations.RefusedJtagInstructionIsBypass
  intro t i s hrefused
  have hbypass : tapAccepts (s.atTime t) 0 = true := tapAccepts_of_le_three (Nat.zero_le 3)
  exact (execJtagInstruction_of_refused hrefused).trans
    (execJtagInstruction_of_plain Nat.zero_ne_one hbypass (.inl (by decide))).symm

/-- Settles O47, event by event: a ring event by its source's own meaning, a pin's by what it does to the TAP or to I2C0. -/
theorem hostQueueEventsComplete : Obligations.HostQueueEventsComplete := by
  unfold Obligations.HostQueueEventsComplete
  refine ⟨fun _ _ t s hring => ?receive, fun _ => happens_of_exec fun _ _ => rfl,
    fun _ _ _ henabled => congrArg _ (dmaFail_eventRing henabled),
    fun _ _ _ ⟨henabled, hrunning⟩ => congrArg _ (dmaFail_timestampRing henabled hrunning),
    fun _ _ hring _ _ henabled => congrArg _ (dmaFail_receiveRing hring henabled),
    fun _ _ hring _ _ henabled => congrArg _ (dmaFail_transmitRing hring henabled),
    fun _ _ _ _ ⟨henabled, hroom, hkept, hwaiting⟩ => execEventRecordWrite_of_waiting henabled hroom hkept hwaiting,
    fun _ _ ⟨henabled, hroom, hlost⟩ => execEventRecordWrite_of_discarded henabled hroom hlost,
    fun _ _ hdue => congrArg _ (moderate_eventRing hdue), fun _ _ hdue => congrArg _ (moderate_timestampRing hdue),
    fun _ hring _ _ hdue => congrArg _ (moderate_receiveRing hring hdue),
    fun _ hring _ _ hdue => congrArg _ (moderate_transmitRing hring hdue),
    fun _ _ _ _ _ ⟨hdump, hwriting⟩ => execDumpRecordWritten_of_written hdump hwriting,
    fun _ _ _ _ _ _ ⟨hdump, hwriting⟩ => execDumpRecordWritten_of_failed hdump hwriting,
    fun _ _ _ _ hstopped => execI2c0Access_of_stopped hstopped,
    fun _ _ _ ⟨hheld, hpilot⟩ => execI2c0Access_of_read hheld hpilot,
    fun _ w _ _ _ ⟨hheld, hpilot⟩ => execI2c0Access_of_offset (w := w) hheld hpilot,
    fun _ _ _ => execJtagInstruction_idcode,
    fun _ _ _ ⟨hid, haccepted, hplain⟩ => execJtagInstruction_of_plain hid haccepted hplain,
    fun _ hlow hhigh _ _ haccepted => execJtagInstruction_of_scan hlow hhigh haccepted,
    fun _ _ _ hrefused => execJtagInstruction_of_refused hrefused, happens_of_exec fun _ _ => rfl⟩
  case receive => exact congrArg Host.Outcome.next (if_neg (Nat.not_le.2 hring))

end Sys2Proof.Machine
end

section
/-! Proofs of the statements on faults (spec/20_faults_recovery.md): errors, clusters, the MPC, the pilot and the reference clocks. -/

namespace Sys2Proof.Machine

open Sys2Proof

/-! ### Errors and clusters (R519, R521) -/

section
variable {t unit kind detail : Nat} {s : State}

/-- An error of Table 20-2 is taken in a running unit, unless a sounding masks its cluster (R512). -/
theorem not_errorIgnored_of_taken {u : State} (hheld : u.boot.held = false) (hlow : 1 ≤ kind) (hhigh : kind ≤ 15)
    (hmask : soundingMasks u (clusterOf unit) = false) :
    ¬ (u.boot.held = true ∨ kind < 1 ∨ 15 < kind ∨ soundingMasks u (clusterOf unit) = true) :=
  not_or.2 ⟨ne_true_of_eq_false hheld, not_or.2 ⟨Nat.not_lt.2 hlow, not_or.2 ⟨Nat.not_lt.2 hhigh, ne_true_of_eq_false hmask⟩⟩⟩

theorem execErrorDetected_of_taken (hheld : (s.atTime t).boot.held = false) (hlow : 1 ≤ kind) (hhigh : kind ≤ 15)
    (hmask : soundingMasks (s.atTime t) (clusterOf unit) = false) :
    execErrorDetected t unit kind detail s = .next
      (let v := errorAct unit kind detail (s.atTime t)
       if kind = 2 ∧ (unit = unitOf 60 2 ∨ unit = unitOf 60 3) then bufferLost (unit - unitOf 60 2) detail v else v) :=
  if_neg (not_errorIgnored_of_taken hheld hlow hhigh hmask)

/-- An error that is no lost entry of a free store is only acted on. -/
theorem execErrorDetected_of_other (hheld : (s.atTime t).boot.held = false) (hlow : 1 ≤ kind) (hhigh : kind ≤ 15)
    (hother : ¬ (kind = 2 ∧ (unit = unitOf 60 2 ∨ unit = unitOf 60 3)))
    (hmask : soundingMasks (s.atTime t) (clusterOf unit) = false) :
    execErrorDetected t unit kind detail s = .next (errorAct unit kind detail (s.atTime t)) :=
  (execErrorDetected_of_taken hheld hlow hhigh hmask).trans (congrArg _ (if_neg hother))

/-- A lost entry of a free store leaves its pool (R238). -/
theorem execErrorDetected_of_lostBuffer {pool : Nat} (hheld : (s.atTime t).boot.held = false) (hpool : pool < 2)
    (hmask : soundingMasks (s.atTime t) (clusterOf (unitOf 60 2 + pool)) = false) :
    execErrorDetected t (unitOf 60 2 + pool) 2 detail s
      = .next (bufferLost pool detail (errorAct (unitOf 60 2 + pool) 2 detail (s.atTime t))) := by
  have hstore : unitOf 60 2 + pool = unitOf 60 2 ∨ unitOf 60 2 + pool = unitOf 60 3 := by
    have hnext : unitOf 60 3 = unitOf 60 2 + 1 := rfl
    omega
  rw [execErrorDetected_of_taken hheld (by decide) (by decide) hmask, if_pos ⟨rfl, hstore⟩, Nat.add_sub_cancel_left]

/-- A re-initialised cluster returns in the first clock of a tide (R521). -/
theorem execClusterRestored_of_fenced {d : Nat} {f : Fenced} (hfenced : tget (s.atTime t).flt.fences d = some f) (hperm : f.perm = false)
    (hfw : (s.atTime t).id.fwState ≠ 3) (hfirst : coreClocks (s.atTime t).tm.sub = 0) :
    execClusterRestored t d s = .next (raise 0x12 3 (unitOf d 63) (pay [(d, 1)]) (faultCount 5 1 (moveSlices (reinit d
      { s.atTime t with flt := { (s.atTime t).flt with fences := terase (s.atTime t).flt.fences d } })))) := by
  have hreturns : ¬ (f.perm = true ∨ (s.atTime t).id.fwState = 3 ∨ coreClocks (s.atTime t).tm.sub ≠ 0) :=
    not_or.2 ⟨ne_true_of_eq_false hperm, not_or.2 ⟨hfw, not_not_intro hfirst⟩⟩
  simp only [execClusterRestored, hfenced, if_neg hreturns]

end

/-! ### The MPC (R476, R523, R524) -/

section
variable {t cause : Nat} {s : State}

/-- The times of the MPC's failures in the last hour, this one included (R523). -/
def mpcFailTimes (u : State) : List Nat :=
  (u.flt.mpcTimes.filter fun x => decide (elapsed u < x + 3600 * secU)) ++ [elapsed u]

/-- The MPC can fail: firmware runs on it, and only the handover of a swap fails with cause 3. -/
def mpcCanFail (cause : Nat) (u : State) : Prop :=
  u.boot.held = false ∧ u.boot.ready = true ∧ u.flt.mpcFailed = false ∧ (cause = 3 → u.boot.swap = 3)

theorem not_mpcIgnored_of_canFail {u : State} (hcan : mpcCanFail cause u) :
    ¬ (u.boot.held = true ∨ (!u.boot.ready) = true ∨ u.flt.mpcFailed = true ∨ (cause = 3 ∧ u.boot.swap ≠ 3)) := by
  obtain ⟨hheld, hready, hrunning, hswap⟩ := hcan
  exact not_or.2 ⟨ne_true_of_eq_false hheld, not_or.2 ⟨not_bnot_of_eq_true hready, not_or.2 ⟨ne_true_of_eq_false hrunning,
    fun ⟨hcause, hother⟩ => hother (hswap hcause)⟩⟩⟩

theorem execMpcFailed_of_safe (hcan : mpcCanFail cause (s.atTime t)) (hsafe : (s.atTime t).id.fwState = 3) :
    execMpcFailed t cause s = .next { s.atTime t with flt := { (s.atTime t).flt with mpcFailed := true } } :=
  (if_neg (not_mpcIgnored_of_canFail hcan)).trans (if_pos hsafe)

/-- The state in which the pilot has taken note of an MPC failure. -/
def mpcFailureNoted (cause : Nat) (u : State) : State :=
  raiseLogged 4 (aonUnit 0) (pay [(cause, 1), ((mpcFailTimes u).length, 1)])
    { errorReport (mainUnit 0) 8 0 u with
      flt := { (errorReport (mainUnit 0) 8 0 u).flt with mpcTimes := mpcFailTimes u, mpcFailed := true } }

theorem execMpcFailed_of_serving (hcan : mpcCanFail cause (s.atTime t)) (hserves : (s.atTime t).id.fwState ≠ 3) :
    execMpcFailed t cause s = .next (if 4 ≤ (mpcFailTimes (s.atTime t)).length then enterSafe 5 (mpcFailureNoted cause (s.atTime t))
      else mpcRestart (mpcFailureNoted cause (s.atTime t))) :=
  (if_neg (not_mpcIgnored_of_canFail hcan)).trans (if_neg hserves)

theorem execMpcRecovered_of_failed (hfailed : (s.atTime t).flt.mpcFailed = true) (hfw : (s.atTime t).id.fwState = 2) :
    execMpcRecovered t s = .next
      (let u := s.atTime t
       firmwareReady u.id.image (protUpdate (raise 0x12 5 (aonUnit 0) (pay [(u.id.image, 1)])
         (faultCount 6 1 { u with flt := { u.flt with mpcFailed := false, recoveries := min (2 ^ 32 - 1) (u.flt.recoveries + 1) } })))) :=
  if_neg (not_or.2 ⟨not_bnot_of_eq_true hfailed, not_not_intro hfw⟩)

end

/-! ### Reference clocks (R564) -/

section
variable {t clk : Nat} {s : State}

/-- A change of a reference clock is taken once. -/
theorem not_clkIgnored_of_change {u : State} {lost : Bool} (hclk : clk ≤ 10) (hchanged : bit u.board.clkLost clk = !lost) :
    ¬ (10 < clk ∨ bit u.board.clkLost clk = lost) := by
  refine not_or.2 ⟨Nat.not_lt.2 hclk, ?_⟩
  rw [hchanged]
  exact Bool.not_ne_self lost

theorem execRefclkLoss_of_lost (hclk : clk ≤ 10) (hruns : bit (s.atTime t).board.clkLost clk = false) :
    execRefclkLoss t clk true s = .next
      (let v := { s.atTime t with board := { (s.atTime t).board with clkLost := (s.atTime t).board.clkLost + 2 ^ clk } }
       if (s.atTime t).boot.held then v else clockLost clk v) := by
  refine (if_neg (not_clkIgnored_of_change hclk hruns)).trans (congrArg Host.Outcome.next ?_)
  cases hheld : (s.atTime t).boot.held with
  | true => exact if_neg (by simp)
  | false => exact if_pos ⟨rfl, rfl⟩

theorem execRefclkLoss_of_back (hclk : clk ≤ 10) (hlost : bit (s.atTime t).board.clkLost clk = true) :
    execRefclkLoss t clk false s = .next
      { s.atTime t with board := { (s.atTime t).board with clkLost := (s.atTime t).board.clkLost - 2 ^ clk } } :=
  (if_neg (not_clkIgnored_of_change hclk hlost)).trans (congrArg _ (if_neg fun ⟨hlosing, _⟩ => Bool.false_ne_true hlosing))

end

/-- Settles O48, event by event: an error by the check of R519 that it passes, an MPC failure by how many came in the hour. -/
theorem faultEventsComplete : Obligations.FaultEventsComplete := by
  unfold Obligations.FaultEventsComplete
  refine ⟨fun _ _ _ _ _ ⟨hheld, hlow, hhigh, hother, hmask⟩ => execErrorDetected_of_other hheld hlow hhigh hother hmask,
    fun _ _ _ _ ⟨hheld, hpool, hmask⟩ => execErrorDetected_of_lostBuffer hheld hpool hmask,
    fun _ _ _ _ ⟨hfenced, hperm, hfw, hfirst⟩ => execClusterRestored_of_fenced hfenced hperm hfw hfirst,
    fun _ _ _ ⟨hheld, hready, hrunning, hswap, hsafe⟩ => execMpcFailed_of_safe ⟨hheld, hready, hrunning, hswap⟩ hsafe,
    ?final, ?restart, fun _ _ ⟨hfailed, hfw⟩ => execMpcRecovered_of_failed hfailed hfw,
    fun _ _ hheld => congrArg _ (if_neg (ne_true_of_eq_false hheld)), fun _ _ hheld => congrArg _ (if_neg (ne_true_of_eq_false hheld)),
    fun _ _ hheld => congrArg _ (if_neg (ne_true_of_eq_false hheld)),
    fun _ _ _ ⟨hclk, hruns⟩ => execRefclkLoss_of_lost hclk hruns, fun _ _ _ ⟨hclk, hlost⟩ => execRefclkLoss_of_back hclk hlost⟩
  case final =>
    rintro cause times t s ⟨hheld, hready, hrunning, hswap, hserves, rfl, hmany⟩
    exact (execMpcFailed_of_serving ⟨hheld, hready, hrunning, hswap⟩ hserves).trans (congrArg _ (if_pos hmany))
  case restart =>
    rintro cause times t s ⟨hheld, hready, hrunning, hswap, hserves, rfl, hfew⟩
    exact (execMpcFailed_of_serving ⟨hheld, hready, hrunning, hswap⟩ hserves).trans (congrArg _ (if_neg (Nat.not_le.2 hfew)))

end Sys2Proof.Machine
end

section
/-! Proofs of the statements on the self tests (spec/19_lifecycle_selftest.md): soundings, the full scan, nonce and survey, MPC samples. -/

namespace Sys2Proof.Machine

open Sys2Proof

/-! ### Soundings (R508 to R513) -/

section
variable {t d sig : Nat} {s : State} {r : Sounding}

/-- A sounding that is asked for or due starts in the first clock of a tide, while none runs and the cluster can be spared. -/
theorem not_soundingRefused_of_due {u : State} (hfirst : coreClocks u.tm.sub = 0) (hd : d ≤ 79) (hidle : u.test.run = none)
    (hlife : u.id.lifecycle = 1) (hfw : u.id.fwState = 1) (heligible : soundEligible u d = true)
    (hcalled : u.test.asked.contains d = true ∨ soundDue u d = true) :
    ¬ (coreClocks u.tm.sub ≠ 0 ∨ 79 < d ∨ u.test.run.isSome = true ∨ u.id.lifecycle ≠ 1 ∨ u.id.fwState ≠ 1
      ∨ (!soundEligible u d) = true ∨ (!(u.test.asked.contains d || soundDue u d)) = true) := by
  have hnone : ¬ u.test.run.isSome = true := by simp [hidle]
  exact not_or.2 ⟨not_not_intro hfirst, not_or.2 ⟨Nat.not_lt.2 hd, not_or.2 ⟨hnone, not_or.2 ⟨not_not_intro hlife,
    not_or.2 ⟨not_not_intro hfw, not_or.2 ⟨not_bnot_of_eq_true heligible, not_bnot_of_eq_true (Bool.or_eq_true_iff.2 hcalled)⟩⟩⟩⟩⟩⟩

theorem execSoundingWithdrawn_of_empty (hrun : (s.atTime t).test.run = some r) (hphase : r.phase = 0)
    (hempty : holdsNone (s.atTime t) r.dom = true) :
    execSoundingWithdrawn t s = .next
      (let v := { s.atTime t with test := { (s.atTime t).test with run := some { r with phase := 1 } } }
       if 32 ≤ r.dom ∧ r.dom ≤ 35 then
         { v with line := { v.line with sas := tmap v.line.sas fun i x =>
           if i / 256 / 16 = r.dom - 32 then { x with work := List.replicate 32 0#8 } else x } }
       else v) := by
  have hends : ¬ (r.phase ≠ 0 ∨ (!holdsNone (s.atTime t) r.dom) = true) :=
    not_or.2 ⟨not_not_intro hphase, not_bnot_of_eq_true hempty⟩
  simp only [execSoundingWithdrawn, hrun, if_neg hends]

theorem execSoundingPostponed_of_busy (hrun : (s.atTime t).test.run = some r) (hphase : r.phase = 0) (hhalf : r.dom = 61 ∨ r.dom = 62)
    (hlate : r.start + 8 ≤ (s.atTime t).tm.bounds) (hbusy : holdsNone (s.atTime t) r.dom = false) :
    execSoundingPostponed t s = .next (postpone r.dom (s.atTime t)) := by
  have hdie : (r.dom == 61 || r.dom == 62) = true := by simpa using hhalf
  have hends : ¬ (r.phase ≠ 0 ∨ (!(r.dom == 61 || r.dom == 62)) = true ∨ (s.atTime t).tm.bounds < r.start + 8
      ∨ holdsNone (s.atTime t) r.dom = true) :=
    not_or.2 ⟨not_not_intro hphase, not_or.2 ⟨not_bnot_of_eq_true hdie, not_or.2 ⟨Nat.not_lt.2 hlate, ne_true_of_eq_false hbusy⟩⟩⟩
  simp only [execSoundingPostponed, hrun, if_neg hends]

theorem execSoundingTestDone_of_golden (hrun : (s.atTime t).test.run = some r) (hphase : r.phase = 1) :
    execSoundingTestDone t sig true s
      = .next { s.atTime t with test := { (s.atTime t).test with run := some { r with phase := 2 } } } := by
  simp only [execSoundingTestDone, hrun, if_neg (not_not_intro hphase), if_true]

/-- A failed pattern set is repeated once (R513). -/
theorem execSoundingTestDone_of_first (hrun : (s.atTime t).test.run = some r) (hphase : r.phase = 1) (hfirst : r.again = false) :
    execSoundingTestDone t sig false s
      = .next { s.atTime t with test := { (s.atTime t).test with run := some { r with again := true } } } := by
  have hrepeat : (!r.again) = true := by rw [hfirst]; rfl
  simp only [execSoundingTestDone, hrun, if_neg (not_not_intro hphase), Bool.false_eq_true, if_false, if_pos hrepeat]

/-- The state of a sounding that has failed twice: its cluster stays fenced (R513). -/
def soundingFailed (r : Sounding) (sig : Nat) (u : State) : State :=
  let v := raise 0x11 2 mpcUnit (pay [(r.dom, 1), (r.set, 1), (sig, 8)]) (testCount 1 1 u)
  let v := modSlice r.dom (fun x => { x with failed := true }) { v with test := { v.test with run := none } }
  if errorAct.hbmDomain r.dom then errorAct (unitOf r.dom 63) 7 sig v
  else
    let v := errorReport (unitOf r.dom 63) 7 sig v
    let v := if forwardingPath r.dom then noteSuspect v else v
    if v.twin.st = 1 ∧ v.twin.peer = 2 ∧ v.twin.switch.isNone ∧ switchoverCluster v r.dom then
      { v with twin := { v.twin with switch := some { n := earliestSwitch v } } } else v

theorem execSoundingTestDone_of_second (hrun : (s.atTime t).test.run = some r) (hphase : r.phase = 1) (hsecond : r.again = true) :
    execSoundingTestDone t sig false s = .next (soundingFailed r sig (s.atTime t)) := by
  simp only [execSoundingTestDone, hrun, if_neg (not_not_intro hphase), Bool.false_eq_true, if_false,
    if_neg (not_bnot_of_eq_true hsecond)]
  exact (apply_ite Host.Outcome.next _ _ _).symm

/-- A slice that the last period k has not sounded is overdue once (R511). -/
theorem execSoundingOverdue_of_late {k : Nat} (hd : d ≤ 79) (henabled : (s.atTime t).test.enable = true)
    (hk : k = ((s.atTime t).tm.bounds - (s.atTime t).test.start) / soundPeriod (s.atTime t)) (hperiod : 1 ≤ k)
    (hgood : ((s.atTime t).test.slices.getD d {}).failed = false) (hnew : ((s.atTime t).test.slices.getD d {}).overduePeriod ≠ k)
    (hlate : ((s.atTime t).test.slices.getD d {}).done = 0
      ∨ ((s.atTime t).test.slices.getD d {}).done - 1 < (s.atTime t).test.start + (k - 1) * soundPeriod (s.atTime t)) :
    execSoundingOverdue t d s = .next (raise 0x11 3 mpcUnit (pay [(d, 1)]) (testCount 4 1
      (modSlice d (fun x => { x with overdue := true, overduePeriod := k }) (s.atTime t)))) := by
  subst hk
  exact if_neg (not_or.2 ⟨Nat.not_lt.2 hd, not_or.2 ⟨not_bnot_of_eq_true henabled, not_or.2 ⟨Nat.one_le_iff_ne_zero.1 hperiod,
    not_or.2 ⟨ne_true_of_eq_false hgood, not_or.2 ⟨hnew, fun ⟨hdone, hin⟩ =>
      hlate.elim hdone (Nat.not_lt.2 hin)⟩⟩⟩⟩⟩)

end

/-! ### The full scan and the survey (R501, R507) -/

theorem execScanFullRunDone_of_scan {t bits sig : Nat} {first : Option (Nat × Nat)} {ver : List Bool} {s : State}
    (hscan : (s.atTime t).test.scan = true) :
    execScanFullRunDone t bits first sig ver s = .next (packageReset (s.atTime t).id.devid (s.atTime t).id.twinEn ver
      { s.atTime t with aon := { (s.atTime t).aon with scan := some (bits, first, sig) } }) :=
  if_neg (not_bnot_of_eq_true hscan)

theorem surveyEnd_of_survey {u : State} (hsurvey : u.id.lifecycle = 2) :
    surveyEnd u = raise 0x11 4 (aonUnit 0) (pay [(2, 1), (1, 1)]) { u with id := { u.id with lifecycle := 1 } } := if_pos hsurvey

/-! ### MPC samples (R545) -/

section
variable {t i addr : Nat} {s v : State}

/-- The state in which counter i of bank 80 has wrapped and counts its next period. -/
def mpcCounterWrapped (i : Nat) (u : State) : State :=
  modBank 80 (fun x => { x with pc := x.pc.set i (2 ^ 48 - ((bankOf u 80).sel.getD i {}).period) }) u

/-- Counter i of bank 80 takes samples of an event of the MPC. -/
def mpcSamples (i : Nat) (u : State) : Prop :=
  ((bankOf u 80).sel.getD i {}).en = true ∧ ((bankOf u 80).sel.getD i {}).sample = true
    ∧ mpcEvent (((bankOf u 80).sel.getD i {}).ev / 64) (((bankOf u 80).sel.getD i {}).ev % 64) = true

theorem not_sampleIgnored_of_samples {u : State} (hsel : mpcSamples i u) :
    ¬ (!(((bankOf u 80).sel.getD i {}).en && ((bankOf u 80).sel.getD i {}).sample
      && mpcEvent (((bankOf u 80).sel.getD i {}).ev / 64) (((bankOf u 80).sel.getD i {}).ev % 64))) = true := by
  obtain ⟨hen, hsample, hevent⟩ := hsel
  exact not_bnot_of_eq_true (by rw [hen, hsample, hevent]; rfl)

theorem execSampleMpc_of_allowed (hsel : mpcSamples i (s.atTime t))
    (hallowed : sampleAllowed 80 (mpcCounterWrapped i (s.atTime t)) = (true, v)) :
    execSampleMpc t i addr s = .next (raise 0x13 1 (bankUnit 80)
      (pay [(i, 1), (((bankOf (s.atTime t) 80).sel.getD i {}).ev / 64, 1), (0, 2), (addr, 8),
        ((bankOf (mpcCounterWrapped i (s.atTime t)) 80).dropped, 4)])
      (modBank 80 (fun x => { x with dropped := 0 }) v)) := by
  unfold mpcCounterWrapped at hallowed ⊢
  simp only [execSampleMpc, if_neg (not_sampleIgnored_of_samples hsel), hallowed]

theorem execSampleMpc_of_suppressed (hsel : mpcSamples i (s.atTime t))
    (hsuppressed : sampleAllowed 80 (mpcCounterWrapped i (s.atTime t)) = (false, v)) :
    execSampleMpc t i addr s = .next v := by
  unfold mpcCounterWrapped at hsuppressed
  simp only [execSampleMpc, if_neg (not_sampleIgnored_of_samples hsel), hsuppressed]

end

/-- Settles O50, event by event: a sounding's event by the phase that its run is in, the others by their own condition. -/
theorem selfTestEventsComplete : Obligations.SelfTestEventsComplete := by
  unfold Obligations.SelfTestEventsComplete
  refine ⟨fun _ _ _ ⟨hfirst, hd, hidle, hlife, hfw, heligible, hcalled⟩ =>
      if_neg (not_soundingRefused_of_due hfirst hd hidle hlife hfw heligible hcalled),
    fun _ _ _ ⟨hrun, hphase, hempty⟩ => execSoundingWithdrawn_of_empty hrun hphase hempty,
    fun _ _ _ ⟨hrun, hphase, hhalf, hlate, hbusy⟩ => execSoundingPostponed_of_busy hrun hphase hhalf hlate hbusy,
    fun _ _ _ _ ⟨hrun, hphase⟩ => execSoundingTestDone_of_golden hrun hphase,
    fun _ _ _ _ ⟨hrun, hphase, hfirst⟩ => execSoundingTestDone_of_first hrun hphase hfirst,
    fun _ _ _ _ ⟨hrun, hphase, hsecond⟩ => execSoundingTestDone_of_second hrun hphase hsecond,
    fun _ _ _ _ ⟨hd, henabled, hk, hperiod, hgood, hnew, hlate⟩ =>
      execSoundingOverdue_of_late hd henabled hk hperiod hgood hnew hlate,
    fun _ _ _ _ _ _ hscan => execScanFullRunDone_of_scan hscan, fun _ _ hpast => congrArg _ (if_pos hpast),
    fun _ _ ⟨hpast, hsurvey⟩ => congrArg _ ((if_pos hpast).trans (surveyEnd_of_survey hsurvey)), ?sampled, ?suppressed⟩
  case sampled =>
    rintro i addr sel v t s ⟨rfl, hen, hsample, hevent, hallowed⟩
    exact execSampleMpc_of_allowed ⟨hen, hsample, hevent⟩ hallowed
  case suppressed =>
    rintro i addr sel v t s ⟨rfl, hen, hsample, hevent, hsuppressed⟩
    exact execSampleMpc_of_suppressed ⟨hen, hsample, hevent⟩ hsuppressed

end Sys2Proof.Machine
end

section
/-! Proofs of the statements on the HBM events (spec/13_hbm_memory.md): training, requests, scrubbing, sparing and retraining. -/

namespace Sys2Proof.Machine

open Sys2Proof

/-! ### Training (R355, R359) -/

section
variable {t i ms : Nat} {geometry : Bool} {chans : List (Bool × Nat × Nat × Nat)} {s : State}

/-- The training of a stack ends once. -/
theorem not_trainingIgnored_of_untrained {u : State} (hi : i < 6) (huntrained : (stackAt u i).st = 0) :
    ¬ (6 ≤ i ∨ (stackAt u i).st ≠ 0) := not_or.2 ⟨Nat.not_le.2 hi, not_not_intro huntrained⟩

theorem execHbmTrainingDone_of_otherGeometry (hi : i < 6) (huntrained : (stackAt (s.atTime t) i).st = 0) :
    execHbmTrainingDone t i ms false chans s = .next (stackFailed i (s.atTime t)) :=
  (if_neg (not_trainingIgnored_of_untrained hi huntrained)).trans (if_pos rfl)

end

/-! ### Requests and scrubbing (R360, R363 to R369) -/

section
variable {i a : Nat} {u : State}

/-- A stack serves an address while it is in service and not in self-refresh. -/
def stackServes (i a : Nat) (u : State) : Prop :=
  i < 6 ∧ a < 31 * gib ∧ (stackAt u i).st ≠ 0 ∧ (stackAt u i).st ≠ 3 ∧ (stackAt u i).selfRefresh = false

theorem not_requestIgnored_of_serves (hserves : stackServes i a u) :
    ¬ (6 ≤ i ∨ 31 * gib ≤ a ∨ (stackAt u i).st = 0 ∨ (stackAt u i).st = 3 ∨ (stackAt u i).selfRefresh = true) := by
  obtain ⟨hi, ha, htrained, halive, hawake⟩ := hserves
  exact not_or.2 ⟨Nat.not_le.2 hi, not_or.2 ⟨Nat.not_le.2 ha, not_or.2 ⟨htrained, not_or.2 ⟨halive, ne_true_of_eq_false hawake⟩⟩⟩⟩

theorem not_scrubIgnored_of_serves (hserves : stackServes i a u)
    (hopen : ((stackAt u i).chans.getD (rankOf a / 4) {}).window = false) :
    ¬ (6 ≤ i ∨ 31 * gib ≤ a ∨ (stackAt u i).st = 0 ∨ (stackAt u i).st = 3 ∨ (stackAt u i).selfRefresh = true
      ∨ ((stackAt u i).chans.getD (rankOf a / 4) {}).window = true) := by
  have hserving := not_requestIgnored_of_serves hserves
  simp only [not_or] at hserving ⊢
  obtain ⟨hi, ha, htrained, halive, hawake⟩ := hserving
  exact ⟨hi, ha, htrained, halive, hawake, ne_true_of_eq_false hopen⟩

end

/-! ### Sparing (R372, R373, R375) -/

/-- The state in which the running migration m of a stack has ended, with the lines written to its target as poisoned. -/
def rankMoved (i : Nat) (m : Migration) (ms : List Migration) (ps : List Nat) (u : State) : State :=
  let lines := (ps.filter fun l => rankOf (64 * l) == m.rank).eraseDups
  let v := lines.foldl (fun s l => poisonAdd i l s) (hbmCount i 8 lines.length u)
  startMig i (raise 0x0E 3 (stackUnit i 63) (pay [(i, 1), (m.rank, 1), (m.target, 1), (lines.length, 4)])
    (remapRecord i (modStack i (fun x => { x with map := x.map.set m.rank ⟨if m.donor then 2 else 1, m.target⟩, migs := ms }) v)))

theorem execRankMigrated_of_running {t i : Nat} {ps : List Nat} {m : Migration} {ms : List Migration} {s : State}
    (hmigs : (stackAt (s.atTime t) i).migs = m :: ms) :
    execRankMigrated t i ps s = .next (rankMoved i m ms ps (s.atTime t)) := by
  simp only [execRankMigrated, hmigs]
  rfl

/-! ### Retraining windows (R360) -/

section
variable {t i c : Nat} {u s : State} {x : HbmChan}

/-- A window that ends before W starts the count of overruns again. -/
theorem windowOver_inTime :
    windowOver i c false u = requestsHeld i c (drain i c (modChan i c (fun x => { x with window := false, ovf := 0 }) u)) := rfl

theorem windowOver_overrun (hx : x = (stackAt u i).chans.getD c {}) (hovf : x.ovf ≠ 2) :
    windowOver i c true u = requestsHeld i c (drain i c (hbmCount i 15 1
      (modChan i c (fun x => { x with window := false, ovf := if true && x.ovf != 2 then x.ovf + 1 else 0 }) u))) := by
  have hbefore : ¬ (true && x.ovf == 2) = true := by simpa using hovf
  subst hx
  rw [windowOver, if_neg hbefore]
  rfl

/-- The third overrun in a row raises RETRAIN_FAIL. -/
theorem windowOver_third (hx : x = (stackAt u i).chans.getD c {}) (hovf : x.ovf = 2) :
    windowOver i c true u = requestsHeld i c (drain i c (raise 0x0E 7 (stackUnit i 63) (pay [(i, 1), (c, 1)]) (hbmCount i 15 1
      (modChan i c (fun x => { x with window := false, ovf := if true && x.ovf != 2 then x.ovf + 1 else 0 }) u)))) := by
  have hthird : (true && x.ovf == 2) = true := by simpa using hovf
  subst hx
  rw [windowOver, if_pos hthird]
  rfl

/-- The window that ends is judged by whether it has reached W. -/
theorem execRetrainWindowEnd_of_window (hx : x = (stackAt (s.atTime t) i).chans.getD c {}) (hwindow : x.window = true) :
    execRetrainWindowEnd t i c s = .next (windowOver i c (decide ((memCfg (s.atTime t) i).w * nsU
      ≤ ((s.atTime t).tm.tide - x.lastWin) * tideU + (s.atTime t).tm.sub)) (s.atTime t)) := by
  subst hx
  exact congrArg Host.Outcome.next (if_pos hwindow)

end

/-- Settles O51, event by event: each does its work on a stack that serves, or on the migration or window that runs. -/
theorem hbmEventsComplete : Obligations.HbmEventsComplete := by
  unfold Obligations.HbmEventsComplete
  refine ⟨fun _ _ _ _ _ ⟨hi, huntrained⟩ => execHbmTrainingDone_of_otherGeometry hi huntrained, ?trained,
    fun _ _ _ _ _ _ _ _ _ _ _ _ hserves => if_neg (not_requestIgnored_of_serves hserves),
    fun _ _ _ _ _ ⟨hi, ha, htrained, halive, hawake, hopen⟩ =>
      if_neg (not_scrubIgnored_of_serves ⟨hi, ha, htrained, halive, hawake⟩ hopen),
    fun _ _ _ _ _ _ hmigs => execRankMigrated_of_running hmigs, fun _ _ _ _ hended => congrArg _ (if_neg (Nat.not_lt.2 hended)),
    fun _ _ _ _ hi => if_neg (Nat.not_le.2 hi), ?inTime, ?overrun, ?third⟩
  case trained =>
    rintro i ms chans t s ⟨hi, huntrained⟩
    refine (if_neg (not_trainingIgnored_of_untrained hi huntrained)).trans ((if_neg Bool.false_ne_true).trans ?_)
    exact (apply_ite Host.Outcome.next _ _ _).symm
  case inTime =>
    rintro i c x t s ⟨hx, hwindow, hin⟩
    refine (execRetrainWindowEnd_of_window hx hwindow).trans (congrArg Host.Outcome.next ?_)
    rw [decide_eq_false (Nat.not_le.2 hin), windowOver_inTime]
  case overrun =>
    rintro i c x t s ⟨hx, hwindow, hreached, hovf⟩
    refine (execRetrainWindowEnd_of_window hx hwindow).trans (congrArg Host.Outcome.next ?_)
    rw [decide_eq_true hreached, windowOver_overrun hx hovf]
  case third =>
    rintro i c x t s ⟨hx, hwindow, hreached, hovf⟩
    refine (execRetrainWindowEnd_of_window hx hwindow).trans (congrArg Host.Outcome.next ?_)
    rw [decide_eq_true hreached, windowOver_third hx hovf]

end Sys2Proof.Machine
end

section
/-! Proofs of the statements on the hawser's records (spec/14_twin_redundancy.md): link, records, checkpoints, manifests. -/

namespace Sys2Proof.Machine

open Sys2Proof

/-! ### The hawser link and its records (R383, R384) -/

section
variable {t lane cause h : Nat} {dm : Bool} {r : TwinRec} {s : State}

theorem execHawserLinkState_up {v : State} (hpaired : (s.atTime t).id.twinEn = true) (hdown : (s.atTime t).twin.hawser = false)
    (hcluster : domOut (s.atTime t) 79 = false)
    (hv : v = sendHealth (twinRaise 2 [] (modTwin (fun x => { x with hawser := true }) (s.atTime t)))) :
    execHawserLinkState t true lane cause s = .next (if v.twin.st = 3 ∧ v.twin.join = 1 then startCopy v else v) := by
  have hother : ¬ (s.atTime t).twin.hawser = true := ne_true_of_eq_false hdown
  have hchanges : ¬ ((!(s.atTime t).id.twinEn) = true ∨ (s.atTime t).twin.hawser = true ∨ (true = true ∧ domOut (s.atTime t) 79 = true)) :=
    not_or.2 ⟨not_bnot_of_eq_true hpaired, not_or.2 ⟨hother, fun ⟨_, hout⟩ => ne_true_of_eq_false hcluster hout⟩⟩
  subst hv
  exact if_neg hchanges

theorem execHawserLinkState_down (hpaired : (s.atTime t).id.twinEn = true) (hup : (s.atTime t).twin.hawser = true) :
    execHawserLinkState t false lane cause s = .next (linkDown (twinRaise 3 (pay [(lane, 1), (cause, 1)])
      (modTwin (fun x => { x with query := 0 }) (modTwin (fun x => { x with hawser := false }) (s.atTime t))))) := by
  have hother : ¬ (s.atTime t).twin.hawser = false := fun hdown => Bool.false_ne_true (hdown.symm.trans hup)
  have hchanges : ¬ ((!(s.atTime t).id.twinEn) = true ∨ (s.atTime t).twin.hawser = false ∨ (false = true ∧ domOut (s.atTime t) 79 = true)) :=
    not_or.2 ⟨not_bnot_of_eq_true hpaired, not_or.2 ⟨hother, fun ⟨hrises, _⟩ => Bool.false_ne_true hrises⟩⟩
  exact if_neg hchanges

/-- A record arrives on a link that is up and not fenced. -/
def hawserCarries (u : State) : Prop := u.id.twinEn = true ∧ u.twin.hawser = true ∧ fenced u 79 = false

theorem not_recordIgnored_of_carries {u : State} (hcarries : hawserCarries u) :
    ¬ ((!u.id.twinEn) = true ∨ (!u.twin.hawser) = true ∨ fenced u 79 = true) := by
  obtain ⟨hpaired, hup, hclear⟩ := hcarries
  exact not_or.2 ⟨not_bnot_of_eq_true hpaired, not_or.2 ⟨not_bnot_of_eq_true hup, ne_true_of_eq_false hclear⟩⟩

theorem execHawserRecordReceived_of_damaged (hcarries : hawserCarries (s.atTime t))
    (hbad : dm = true ∨ crc8 (bits h 31 8) 24 ≠ bits h 7 0 ∨ 10 ≤ bits h 31 28) :
    execHawserRecordReceived t h dm r s = .next
      (let v := twinCount 7 1 (s.atTime t)
       if v.twin.dMode ∧ 2 ≤ v.twin.st then skipDevice v else v) :=
  (if_neg (not_recordIgnored_of_carries hcarries)).trans (if_pos hbad)

theorem execHawserRecordReceived_of_good (hcarries : hawserCarries (s.atTime t)) (hcrc : crc8 (bits h 31 8) 24 = bits h 7 0)
    (hknown : bits h 31 28 < 10) (hty : bits h 31 28 = r.ty) :
    execHawserRecordReceived t h false r s = .next (takeRecord r (bits h 27 14) (s.atTime t)) := by
  have hgood : ¬ (false = true ∨ crc8 (bits h 31 8) 24 ≠ bits h 7 0 ∨ 10 ≤ bits h 31 28) :=
    not_or.2 ⟨Bool.false_ne_true, not_or.2 ⟨not_not_intro hcrc, Nat.not_le.2 hknown⟩⟩
  exact (if_neg (not_recordIgnored_of_carries hcarries)).trans ((if_neg hgood).trans (if_neg (not_not_intro hty)))

end

/-! ### Records that wait for their step (R386, R392, R394, R396, R403, R531) -/

section
variable {t n : Nat} {ws : List Word} {bs : List Byte} {s v : State}

theorem execDetFrameRecord_of_frame
    (hrx : rxTake (fun r => r.ty == 1 || r.ty == 2) (s.atTime t) = (some (.frame ws bs), v)) :
    execDetFrameRecord t s = .next (twinCount 6 1 (if v.twin.dMode && forwards v then takeReplica false ws bs v else v)) := by
  simp only [execDetFrameRecord, hrx]

theorem execDetFrameRecord_of_sample
    (hrx : rxTake (fun r => r.ty == 1 || r.ty == 2) (s.atTime t) = (some (.sample ws bs), v)) :
    execDetFrameRecord t s = .next (if v.twin.dMode && forwards v then takeReplica true ws bs v else v) := by
  simp only [execDetFrameRecord, hrx]

section
variable {classB : Bool} {items : List CkItem}

theorem execCheckpointApply_of_applies (hcopied : ¬ ((s.atTime t).twin.st = 3 ∧ (s.atTime t).twin.join = 1))
    (hrx : rxTake (fun r => r.ty == 5) (s.atTime t) = (some (.checkpoint n classB items), v)) (happlies : standbyApplies v = true) :
    execCheckpointApply t s = .next
      (let w := items.foldl (fun s it => ckTake n it s) v
       if classB then w else switchReady (modTwin (fun x => { x with lastCk := n }) w)) := by
  simp only [execCheckpointApply, if_neg hcopied, hrx, if_neg (not_bnot_of_eq_true happlies)]

/-- A STALE or COLD unit applies no checkpoint (R396). -/
theorem execCheckpointApply_of_dropped (hcopied : ¬ ((s.atTime t).twin.st = 3 ∧ (s.atTime t).twin.join = 1))
    (hrx : rxTake (fun r => r.ty == 5) (s.atTime t) = (some (.checkpoint n classB items), v)) (hdrops : standbyApplies v = false) :
    execCheckpointApply t s = .next v := by
  simp only [execCheckpointApply, if_neg hcopied, hrx, hdrops, Bool.not_false, if_true]

end

theorem execConfigurationRecord_of_config {c : TwinConfig} (hcopied : ¬ ((s.atTime t).twin.st = 3 ∧ (s.atTime t).twin.join = 1))
    (hrx : rxTake (fun r => r.ty == 6) (s.atTime t) = (some (.config c), v)) :
    execConfigurationRecord t s = .next (takeConfig c v) := by
  simp only [execConfigurationRecord, if_neg hcopied, hrx]

theorem execCompletionSummaryTrim_of_applies (hrx : rxTake (fun r => r.ty == 4) (s.atTime t) = (some (.summary ws), v))
    (happlies : standbyApplies v = true) :
    execCompletionSummaryTrim t s = .next ((List.range (wd ws 2)).foldl
      (fun s i => trimVoq (fld ws (3 + 3 * i) 19 0) (wd ws (4 + 3 * i)) (wd ws (5 + 3 * i)) s) v) := by
  simp only [execCompletionSummaryTrim, hrx, if_neg (not_bnot_of_eq_true happlies)]

theorem execTimeExchange_of_request (hrx : rxTake (fun r => r.ty == 7) (s.atTime t) = (some (.time none), v)) (hactive : v.twin.st = 1) :
    execTimeExchange t s = .next (emit (.hawser (.time (some (v.twin.timeArr, nowLin v, v.tm.st)))) v) := by
  simp only [execTimeExchange, hrx, if_pos hactive]

/-- A standby takes half the difference of the two ways, and the active's state (R394). -/
theorem execTimeExchange_of_answer {t1 t2 t3 st : Nat}
    (hrx : rxTake (fun r => r.ty == 7) (s.atTime t) = (some (.time (some (t2, t3, st))), v)) (hsent : v.twin.timeSent = some t1)
    (hstandby : 2 ≤ v.twin.st) :
    execTimeExchange t s = .next (setTimeState st (steer ((((t2 : Int) - t1) + ((t3 : Int) - v.twin.timeArr)) / 2)
      (modTwin (fun x => { x with timeSent := none }) v))) := by
  simp only [execTimeExchange, hrx, hsent, if_pos hstandby]

/-- The last-breath records. -/
def isLastBreath : TwinRec → Bool
  | .control (.lastBreath _) => true
  | _ => false

theorem execLastBreathReceived_of_record (hrx : rxTake isLastBreath (s.atTime t) = (some (.control (.lastBreath bs)), v)) :
    execLastBreathReceived t s
      = .next (twinFailed 1 (twinRaise 0x10 (bs.take 16) { v with aon := { v.aon with twin := some bs } })) := by
  simp only [execLastBreathReceived]
  generalize htaken : rxTake _ (s.atTime t) = taken
  obtain rfl : taken = (some (.control (.lastBreath bs)), v) := htaken.symm.trans hrx
  rfl

end

/-! ### Manifests (R402) -/

section
variable {t : Nat} {s v : State}

/-- A WARM standby compares the tide before, once, at the comparison instant and while no switchover is planned. -/
def comparesNow (u : State) : Prop :=
  u.twin.st = 2 ∧ usU 100 ≤ u.tm.sub ∧ u.tm.tide ≠ 0 ∧ u.twin.lastMf < u.tm.tide - 1 ∧ u.twin.switch = none

theorem not_compareIgnored_of_comparesNow {u : State} (hcompares : comparesNow u) :
    ¬ (u.twin.st ≠ 2 ∨ u.tm.sub < usU 100 ∨ u.tm.tide = 0 ∨ u.tm.tide - 1 ≤ u.twin.lastMf ∨ u.twin.switch.isSome = true) := by
  obtain ⟨hwarm, hinstant, hlater, hnew, hswitch⟩ := hcompares
  have hnone : ¬ u.twin.switch.isSome = true := by simp [hswitch]
  exact not_or.2 ⟨not_not_intro hwarm, not_or.2 ⟨Nat.not_lt.2 hinstant, not_or.2 ⟨hlater, not_or.2 ⟨Nat.not_le.2 hnew, hnone⟩⟩⟩⟩

theorem execManifestCompare_of_manifest {w : List Word} {c : Compared} (hcompares : comparesNow (s.atTime t))
    (hmf : mfOf (s.atTime t).twin.twin ((s.atTime t).tm.tide - 1) = some w)
    (hfold : (mfEntries w).foldl (fun r e => comparePort ((s.atTime t).tm.tide - 1)
      (mfOf (s.atTime t).twin.twin ((s.atTime t).tm.tide - 1 - 1)) (flag w 2 0 || devSkip (s.atTime t) ((s.atTime t).tm.tide - 1)) e r)
      (({} : Compared), s.atTime t) = (c, v)) :
    execManifestCompare t s = .next (if v.twin.st = 2 then reportCompared ((s.atTime t).tm.tide - 1) c v else v) := by
  simp only [execManifestCompare, if_neg (not_compareIgnored_of_comparesNow hcompares), hmf, hfold]

/-- Without a manifest every line port differs. -/
theorem execManifestCompare_of_missing (hcompares : comparesNow (s.atTime t))
    (hmf : mfOf (s.atTime t).twin.twin ((s.atTime t).tm.tide - 1) = none) (hup : (s.atTime t).twin.hawser = true) :
    execManifestCompare t s = .next
      (reportCompared ((s.atTime t).tm.tide - 1) { bad := (linePorts (s.atTime t)).map fun p => (p, 0, 0) } (s.atTime t)) := by
  simp only [execManifestCompare, if_neg (not_compareIgnored_of_comparesNow hcompares), hmf, hup, if_true]

end

/-- Settles O59, event by event: a record that has arrived is taken by its kind, and acts in the states that take it. -/
theorem twinRecordEventsComplete : Obligations.TwinRecordEventsComplete := by
  unfold Obligations.TwinRecordEventsComplete
  refine ⟨fun _ _ _ _ _ ⟨hpaired, hdown, hcluster, hv⟩ => execHawserLinkState_up hpaired hdown hcluster hv,
    fun _ _ _ _ ⟨hpaired, hup⟩ => execHawserLinkState_down hpaired hup,
    fun _ _ _ _ _ ⟨hpaired, hup, hclear, hbad⟩ => execHawserRecordReceived_of_damaged ⟨hpaired, hup, hclear⟩ hbad,
    fun _ _ _ _ ⟨hpaired, hup, hclear, hcrc, hknown, hty⟩ =>
      execHawserRecordReceived_of_good ⟨hpaired, hup, hclear⟩ hcrc hknown hty,
    fun _ _ _ _ _ hrx => execDetFrameRecord_of_frame hrx, fun _ _ _ _ _ hrx => execDetFrameRecord_of_sample hrx,
    fun _ _ _ _ _ _ ⟨hcopied, hrx, happlies⟩ => execCheckpointApply_of_applies hcopied hrx happlies,
    fun _ _ _ _ _ _ ⟨hcopied, hrx, hdrops⟩ => execCheckpointApply_of_dropped hcopied hrx hdrops,
    fun _ _ _ _ ⟨hcopied, hrx⟩ => execConfigurationRecord_of_config hcopied hrx,
    fun _ _ _ _ ⟨hrx, happlies⟩ => execCompletionSummaryTrim_of_applies hrx happlies,
    fun _ _ _ ⟨hrx, hactive⟩ => execTimeExchange_of_request hrx hactive,
    fun _ _ _ _ _ _ _ ⟨hrx, hsent, hstandby⟩ => execTimeExchange_of_answer hrx hsent hstandby, ?compared, ?missing,
    fun _ _ _ _ hrx => execLastBreathReceived_of_record hrx⟩
  case compared =>
    rintro n w c v t s ⟨rfl, hwarm, hinstant, hlater, hnew, hswitch, hmf, hfold⟩
    exact execManifestCompare_of_manifest ⟨hwarm, hinstant, hlater, hnew, hswitch⟩ hmf hfold
  case missing =>
    rintro n t s ⟨rfl, hwarm, hinstant, hlater, hnew, hswitch, hmf, hup⟩
    exact execManifestCompare_of_missing ⟨hwarm, hinstant, hlater, hnew, hswitch⟩ hmf hup

end Sys2Proof.Machine
end

section
/-! Proofs of the statements on the roles of the twin pair (spec/14_twin_redundancy.md): referee, heartbeat, kill lines, takeover, joining. -/

namespace Sys2Proof.Machine

open Sys2Proof

/-! ### What counting an event leaves as it was -/

/-- Raising an event changes only the host's queue and the counter of discarded events. -/
theorem raise_tm_twin (cls code unit : Nat) (payload : List Byte) (u : State) :
    (raise cls code unit payload u).tm = u.tm ∧ (raise cls code unit payload u).twin = u.twin := by
  unfold raise
  split
  · exact ⟨rfl, rfl⟩
  · exact ⟨rfl, rfl⟩

theorem twinCount_tm_twin (k n : Nat) (u : State) : (twinCount k n u).tm = u.tm ∧ (twinCount k n u).twin = u.twin := by
  simp only [twinCount, ctrAdd48]
  split
  · exact raise_tm_twin _ _ _ _ _
  · exact ⟨rfl, rfl⟩

theorem elapsed_of_tm {u v : State} (htm : v.tm = u.tm) : elapsed v = elapsed u := by rw [elapsed, elapsed, htm]

/-! ### The referee (R404, R405) -/

/-- At the boundary after the comparison instant each unit runs its vectors once. -/
theorem execRefereeRun_of_contest {t : Nat} {c : Contest} {pass : Bool} {s w : State} (hw : w = lateDecision (s.atTime t))
    (hcontest : w.twin.contest = some c) (hopen : c.own = none) (hreached : c.tide + 2 ≤ w.tm.tide)
    (hpass : pass = w.twin.vectors.all fun e => vectorPasses w e.2) :
    execRefereeRun t s = .next
      (let v := twinCount 13 1 (modTwin (fun x => { x with contest := some { c with own := some pass } }) w)
       settleContest (if v.twin.hawser then emit (.hawser (.control (.referee c.tide pass))) v else v)) := by
  have hruns : ¬ (c.own.isSome = true ∨ w.tm.tide < c.tide + 2) := by simp [hopen, hreached]
  subst hw hpass
  simp only [execRefereeRun, hcontest, if_neg hruns]

/-! ### Detectors (R390, R411, R412, Table 14-9) -/

section
variable {t : Nat} {s : State}

/-- The state in which the loss of the twin's heartbeat has been counted (R390). -/
def heartbeatGone (u : State) : State := twinCount 12 1 (modTwin (fun x => { x with hbLost := true }) u)

/-- The twin's heartbeat is lost once, 150 us after its last edge. -/
def losesHeartbeat (u : State) : Prop := u.id.twinEn = true ∧ u.twin.hbLost = false ∧ (u.twin.moorIn - 1) + usU 150 ≤ elapsed u

theorem not_lossIgnored_of_loses {u : State} (hloses : losesHeartbeat u) :
    ¬ ((!u.id.twinEn) = true ∨ u.twin.hbLost = true ∨ elapsed u < (u.twin.moorIn - 1) + usU 150) := by
  obtain ⟨hpaired, hheard, hlate⟩ := hloses
  exact not_or.2 ⟨not_bnot_of_eq_true hpaired, not_or.2 ⟨ne_true_of_eq_false hheard, Nat.not_lt.2 hlate⟩⟩

theorem heartbeatGone_elapsed (u : State) : elapsed (heartbeatGone u) = elapsed u := elapsed_of_tm (twinCount_tm_twin _ _ _).1

theorem heartbeatGone_hawser (u : State) : (heartbeatGone u).twin.hawser = u.twin.hawser := by
  rw [heartbeatGone, (twinCount_tm_twin _ _ _).2, modTwin]

theorem execHeartbeatLost_eq (hloses : losesHeartbeat (s.atTime t)) :
    execHeartbeatLost t s =
      (if (heartbeatGone (s.atTime t)).twin.hawser then .next (emit (.hawser (.control .query))
         (modTwin (fun x => { x with query := elapsed (heartbeatGone (s.atTime t)) + 1 }) (heartbeatGone (s.atTime t))))
       else .next (twinRaise 9 [] (heartbeatGone (s.atTime t)))) :=
  if_neg (not_lossIgnored_of_loses hloses)

theorem execHeartbeatLost_of_up (hloses : losesHeartbeat (s.atTime t)) (hup : (s.atTime t).twin.hawser = true) :
    execHeartbeatLost t s = .next (emit (.hawser (.control .query))
      (modTwin (fun x => { x with query := elapsed (s.atTime t) + 1 }) (heartbeatGone (s.atTime t)))) := by
  rw [execHeartbeatLost_eq hloses, if_pos ((heartbeatGone_hawser _).trans hup), heartbeatGone_elapsed]

theorem execHeartbeatLost_of_down (hloses : losesHeartbeat (s.atTime t)) (hdown : (s.atTime t).twin.hawser = false) :
    execHeartbeatLost t s = .next (twinRaise 9 [] (heartbeatGone (s.atTime t))) := by
  rw [execHeartbeatLost_eq hloses, if_neg (ne_true_of_eq_false ((heartbeatGone_hawser _).trans hdown))]

theorem execHealthQueryTimeout_of_unanswered (hasked : (s.atTime t).twin.query ≠ 0)
    (hlate : (s.atTime t).twin.query - 1 + usU 20 ≤ elapsed (s.atTime t)) :
    execHealthQueryTimeout t s = .next (twinFailed 2 (modTwin (fun x => { x with query := 0 }) (s.atTime t))) :=
  if_neg (not_or.2 ⟨hasked, Nat.not_lt.2 hlate⟩)

end

/-! ### The mooring output (R390, R402) -/

section
variable {t h : Nat} {s : State}

/-- The pilot toggles its output: its watchdog on the MPC is satisfied, and the unit is not in the safe state. -/
def moors (u : State) : Prop := u.id.twinEn = true ∧ u.flt.mpcFailed = false ∧ u.flt.pilotDead = false ∧ u.id.fwState ≠ 3

/-- At half tide h, which has not toggled it yet, the output toggles, and by a midpoint the manifest is sent. -/
theorem execMooringToggle_of_half (hmoors : moors (s.atTime t)) (hhalf : halfTide (s.atTime t) = h) (hsome : h ≠ 0)
    (hnew : (s.atTime t).twin.moorAt ≠ h) :
    execMooringToggle t s = .next
      (let v := emit (.moor (!(s.atTime t).twin.moor)) (modTwin (fun x => { x with moor := !x.moor, moorAt := h }) (s.atTime t))
       if h % 2 = 0 then sendManifest v else v) := by
  obtain ⟨hpaired, hmpc, hpilot, hfw⟩ := hmoors
  subst hhalf
  exact if_neg (not_or.2 ⟨not_bnot_of_eq_true hpaired, not_or.2 ⟨ne_true_of_eq_false hmpc, not_or.2 ⟨ne_true_of_eq_false hpilot,
    not_or.2 ⟨hfw, not_or.2 ⟨hsome, hnew⟩⟩⟩⟩⟩)

theorem halfTide_boundary {u : State} (hfirst : coreClocks u.tm.sub = 0) : halfTide u = 2 * u.tm.bounds + 1 := if_pos hfirst

theorem halfTide_midpoint {u : State} (hlater : coreClocks u.tm.sub ≠ 0) (hmid : coreClocks u.tm.sub = coreClocks (tideLen u / 2)) :
    halfTide u = 2 * u.tm.bounds + 2 := (if_neg hlater).trans (if_pos hmid)

end

/-! ### The kill lines (R388, R411) -/

section
variable {t : Nat} {same : Bool} {s : State}

/-- KILL_IN rises against no high KILL_OUT, or against the one that wins: the unit only takes note. -/
theorem execKillInRise_of_harmless (hharmless : (s.atTime t).id.twinEn = false ∨ (s.atTime t).twin.killOut = false
      ∨ (same && (s.atTime t).id.devid % 2 == 0) = true) :
    execKillInRise t same s = .next
      (modTwin (fun x => { x with killIn := true, inFirst := same && (s.atTime t).id.devid % 2 == 0 }) (s.atTime t)) := by
  have hnoted : (!(s.atTime t).id.twinEn) = true ∨ (!(s.atTime t).twin.killOut) = true
      ∨ (same && (s.atTime t).id.devid % 2 == 0) = true := by simpa only [Bool.not_eq_true'] using hharmless
  exact if_pos hnoted

/-- The later riser wins: the other goes COLD, and a unit that was ACTIVE reports the takeover. -/
theorem execKillInRise_of_loser (hpaired : (s.atTime t).id.twinEn = true) (hout : (s.atTime t).twin.killOut = true)
    (hloses : (same && (s.atTime t).id.devid % 2 == 0) = false) :
    execKillInRise t same s = .next
      (let v := goCold (modTwin (fun x => { x with killIn := true, inFirst := false }) (s.atTime t))
       if (s.atTime t).twin.st = 1 then takeoverEvent (freeVal v % 2 == 1) (freeVal v.took) v.took.took else v) := by
  have hdrops : ¬ ((!(s.atTime t).id.twinEn) = true ∨ (!(s.atTime t).twin.killOut) = true
      ∨ (same && (s.atTime t).id.devid % 2 == 0) = true) :=
    not_or.2 ⟨not_bnot_of_eq_true hpaired, not_or.2 ⟨not_bnot_of_eq_true hout, ne_true_of_eq_false hloses⟩⟩
  rw [← hloses]
  exact if_neg hdrops

/-- The state in which KILL_IN has fallen. -/
def killInFallen (u : State) : State := modTwin (fun x => { x with killIn := false, inFirst := false }) u

theorem execKillInFall_of_expected (hexpected : (s.atTime t).id.twinEn = false ∨ (s.atTime t).twin.killIn = false
      ∨ (s.atTime t).twin.st = 1 ∨ (s.atTime t).twin.switch.isSome = true) :
    execKillInFall t s = .next (killInFallen (s.atTime t)) := by
  have hnoted : (!(s.atTime t).id.twinEn) = true ∨ (!(s.atTime t).twin.killIn) = true ∨ (s.atTime t).twin.st = 1
      ∨ (s.atTime t).twin.switch.isSome = true := by simpa only [Bool.not_eq_true'] using hexpected
  exact if_pos hnoted

/-- The twin drops KILL_OUT without a release record. -/
def releasedAlone (u : State) : Prop := u.id.twinEn = true ∧ u.twin.killIn = true ∧ u.twin.st ≠ 1 ∧ u.twin.switch = none

theorem not_fallExpected_of_releasedAlone {u : State} (halone : releasedAlone u) :
    ¬ ((!u.id.twinEn) = true ∨ (!u.twin.killIn) = true ∨ u.twin.st = 1 ∨ u.twin.switch.isSome = true) := by
  obtain ⟨hpaired, hin, hstandby, hswitch⟩ := halone
  have hnone : ¬ u.twin.switch.isSome = true := by simp [hswitch]
  exact not_or.2 ⟨not_bnot_of_eq_true hpaired, not_or.2 ⟨not_bnot_of_eq_true hin, not_or.2 ⟨hstandby, hnone⟩⟩⟩

theorem execKillInFall_of_linked (halone : releasedAlone (s.atTime t)) (hlinked : (s.atTime t).twin.hawser = true
      ∨ ((s.atTime t).twin.moorIn ≠ 0 ∧ (s.atTime t).twin.hbLost = false)) :
    execKillInFall t s = .next (decideTakeover 1 (killInFallen (s.atTime t))) := by
  have hseen : (s.atTime t).twin.hawser = true ∨ ((s.atTime t).twin.moorIn ≠ 0 ∧ (!(s.atTime t).twin.hbLost) = true) := by
    simpa only [Bool.not_eq_true'] using hlinked
  exact (if_neg (not_fallExpected_of_releasedAlone halone)).trans (if_pos hseen)

/-- With hawser and heartbeat both failed no unit takes the token (R411). -/
theorem execKillInFall_of_isolated (halone : releasedAlone (s.atTime t)) (hdown : (s.atTime t).twin.hawser = false)
    (hsilent : (s.atTime t).twin.moorIn = 0 ∨ (s.atTime t).twin.hbLost = true) :
    execKillInFall t s = .next (killInFallen (s.atTime t)) := by
  have hisolated : ¬ ((s.atTime t).twin.hawser = true ∨ ((s.atTime t).twin.moorIn ≠ 0 ∧ (!(s.atTime t).twin.hbLost) = true)) :=
    not_or.2 ⟨ne_true_of_eq_false hdown, fun ⟨hmoored, hheard⟩ =>
      hsilent.elim hmoored fun hlost => not_bnot_of_eq_true hlost hheard⟩
  exact (if_neg (not_fallExpected_of_releasedAlone halone)).trans (if_neg hisolated)

end

/-! ### Takeover and switchover (R389, R393, R406, R409) -/

section
variable {t : Nat} {s : State}

theorem execTakeoverDecided_of_standby (hdetected : (s.atTime t).twin.detector ≠ 0) (hfirst : (s.atTime t).twin.takeAt = 0)
    (hstandby : 2 ≤ (s.atTime t).twin.st) (hwarm : (s.atTime t).twin.st ≠ 4) :
    execTakeoverDecided t s = .next (discardTxns 2 (berthTake ((s.atTime t).twin.st != 2) (s.atTime t))) :=
  if_neg (not_or.2 ⟨hdetected, not_or.2 ⟨not_not_intro hfirst, not_or.2 ⟨Nat.not_le.2 hstandby, hwarm⟩⟩⟩)

/-- w after KILL_OUT rose the unit takes over. -/
def takesOver (u : State) : Prop := u.twin.takeAt ≠ 0 ∧ u.twin.killOut = true ∧ u.twin.takeAt - 1 ≤ elapsed u

theorem not_activationIgnored_of_takesOver {u : State} (htakes : takesOver u) :
    ¬ (u.twin.takeAt = 0 ∨ (!u.twin.killOut) = true ∨ elapsed u < u.twin.takeAt - 1) := by
  obtain ⟨hset, hout, hdue⟩ := htakes
  exact not_or.2 ⟨hset, not_or.2 ⟨not_bnot_of_eq_true hout, Nat.not_lt.2 hdue⟩⟩

theorem execTakeoverActivate_of_forced (htakes : takesOver (s.atTime t)) (hforced : (s.atTime t).twin.detector = 0) :
    execTakeoverActivate t s = .next (becomeActive (s.atTime t)) :=
  (if_neg (not_activationIgnored_of_takesOver htakes)).trans (if_pos hforced)

theorem execTakeoverActivate_of_detected (htakes : takesOver (s.atTime t)) (hdetected : (s.atTime t).twin.detector ≠ 0) :
    execTakeoverActivate t s = .next (takeoverEvent (s.atTime t).twin.cold (s.atTime t).twin.detector
      (twinCount 14 1 (becomeActive (if (s.atTime t).twin.dMode then s.atTime t else pnAdvance (s.atTime t))))) :=
  (if_neg (not_activationIgnored_of_takesOver htakes)).trans (if_neg hdetected)

/-- The old active of a switchover that failed resumes (R409). -/
theorem execSwitchFailed_of_late {w : Switch} (hswitch : (s.atTime t).twin.switch = some w) (hreleased : w.released = true)
    (hwarm : (s.atTime t).twin.st = 2) (hout : (s.atTime t).twin.killOut = false) (hpeer : (s.atTime t).twin.peer ≠ 1)
    (hlate : w.n + 2 ≤ (s.atTime t).tm.tide) :
    execSwitchFailed t s = .next (twinRaise 0xD (pay [(w.n, 6)]) (becomeActive
      (modTwin (fun x => { x with killOut := !scanning (s.atTime t), inFirst := x.killIn }) (s.atTime t)))) := by
  have hresumes : ¬ ((!w.released) = true ∨ (s.atTime t).twin.st ≠ 2 ∨ (s.atTime t).twin.killOut = true
      ∨ (s.atTime t).twin.peer = 1 ∨ (s.atTime t).tm.tide < w.n + 2) :=
    not_or.2 ⟨not_bnot_of_eq_true hreleased, not_or.2 ⟨not_not_intro hwarm, not_or.2 ⟨ne_true_of_eq_false hout,
      not_or.2 ⟨hpeer, Nat.not_lt.2 hlate⟩⟩⟩⟩
  simp only [execSwitchFailed, hswitch, if_neg hresumes]

/-! ### Joining (R413, R414) -/

theorem execTwinWarm_of_rotated (hsyncing : (s.atTime t).twin.st = 3) (hjoin : (s.atTime t).twin.join = 2)
    (hrotated : (s.atTime t).twin.rotate = 0) (hkept : (s.atTime t).boot.convert = false) :
    execTwinWarm t s = .next (twinRaise 0xE (pay [((s.atTime t).tm.tide, 6)])
      (setTwinFree 2 (modTwin (fun x => { x with join := 0 }) (s.atTime t)))) := by
  have hends : (!(s.atTime t).boot.convert) = true := by rw [hkept]; rfl
  exact congrArg Host.Outcome.next (if_pos ⟨hsyncing, hjoin, hrotated, hends⟩)

theorem execAutoJoin_of_auto (hauto : (s.atTime t).twin.auto = true)
    (hout : (s.atTime t).twin.st = 4 ∨ ((s.atTime t).twin.st = 5 ∧ (s.atTime t).twin.stale ≠ 4))
    (hpaired : (s.atTime t).id.twinEn = true) (hfw : (s.atTime t).id.fwState = 1) :
    execAutoJoin t s = .next (if canJoin (s.atTime t) && versionsFit (s.atTime t) then startJoin (s.atTime t)
      else joinFails (s.atTime t)) :=
  if_neg (not_or.2 ⟨not_bnot_of_eq_true hauto, not_or.2 ⟨not_bnot_of_eq_true (decide_eq_true hout),
    not_or.2 ⟨not_bnot_of_eq_true hpaired, not_not_intro hfw⟩⟩⟩)

end

/-- Settles O60, event by event: each by the unit's role and by what the link, the heartbeat and the kill lines say. -/
theorem twinRoleEventsComplete : Obligations.TwinRoleEventsComplete := by
  unfold Obligations.TwinRoleEventsComplete
  refine ⟨fun _ _ _ _ _ ⟨hw, hcontest, hopen, hreached, hpass⟩ => execRefereeRun_of_contest hw hcontest hopen hreached hpass,
    fun _ _ ⟨hpaired, hheard, hlate, hup⟩ => execHeartbeatLost_of_up ⟨hpaired, hheard, hlate⟩ hup,
    fun _ _ ⟨hpaired, hheard, hlate, hdown⟩ => execHeartbeatLost_of_down ⟨hpaired, hheard, hlate⟩ hdown,
    fun _ _ ⟨hasked, hlate⟩ => execHealthQueryTimeout_of_unanswered hasked hlate, ?boundary, ?midpoint,
    fun _ _ hpaired => congrArg _ (if_pos hpaired), fun _ _ _ hharmless => execKillInRise_of_harmless hharmless,
    fun _ _ _ ⟨hpaired, hout, hloses⟩ => execKillInRise_of_loser hpaired hout hloses,
    fun _ _ hexpected => execKillInFall_of_expected hexpected,
    fun _ _ ⟨hpaired, hin, hstandby, hswitch, hlinked⟩ => execKillInFall_of_linked ⟨hpaired, hin, hstandby, hswitch⟩ hlinked,
    fun _ _ ⟨hpaired, hin, hstandby, hswitch, hdown, hsilent⟩ =>
      execKillInFall_of_isolated ⟨hpaired, hin, hstandby, hswitch⟩ hdown hsilent,
    fun _ _ ⟨hdetected, hfirst, hstandby, hwarm⟩ => execTakeoverDecided_of_standby hdetected hfirst hstandby hwarm,
    fun _ _ ⟨hset, hout, hdue, hforced⟩ => execTakeoverActivate_of_forced ⟨hset, hout, hdue⟩ hforced,
    fun _ _ ⟨hset, hout, hdue, hdetected⟩ => execTakeoverActivate_of_detected ⟨hset, hout, hdue⟩ hdetected,
    fun _ _ _ ⟨hswitch, hreleased, hwarm, hout, hpeer, hlate⟩ => execSwitchFailed_of_late hswitch hreleased hwarm hout hpeer hlate,
    happens_of_guard fun _ _ => rfl,
    fun _ _ ⟨hsyncing, hjoin, hrotated, hkept⟩ => execTwinWarm_of_rotated hsyncing hjoin hrotated hkept,
    fun _ _ ⟨hauto, hout, hpaired, hfw⟩ => execAutoJoin_of_auto hauto hout hpaired hfw⟩
  case boundary =>
    rintro t s ⟨hpaired, hmpc, hpilot, hfw, hfirst, hnew⟩
    have hodd : ¬ (2 * (s.atTime t).tm.bounds + 1) % 2 = 0 := by omega
    exact (execMooringToggle_of_half ⟨hpaired, hmpc, hpilot, hfw⟩ (halfTide_boundary hfirst) (Nat.succ_ne_zero _) hnew).trans
      (congrArg _ (if_neg hodd))
  case midpoint =>
    rintro t s ⟨hpaired, hmpc, hpilot, hfw, hlater, hmid, hnew⟩
    have heven : (2 * (s.atTime t).tm.bounds + 2) % 2 = 0 := by omega
    exact (execMooringToggle_of_half ⟨hpaired, hmpc, hpilot, hfw⟩ (halfTide_midpoint hlater hmid) (Nat.succ_ne_zero _) hnew).trans
      (congrArg _ (if_pos heven))

end Sys2Proof.Machine
end
